-- ==== Sys2Proof/Word.lean ====
section
/-!
DEFINITION. The word types of the TV20 model: bytes, registers, step and cycle numbers, and the plainest
arithmetic on them (saturating counts). Spec: 00_scope.md R4, R5, R6.
-/

namespace Sys2Proof

/-- One byte. -/
abbrev Byte := BitVec 8

/-- A 16-bit field. -/
abbrev U16 := BitVec 16

/-- A 32-bit field, or the encoding of an FP32 number (R25). -/
abbrev U32 := BitVec 32

/-- A 64-bit register (R6). -/
abbrev U64 := BitVec 64

/-- A step number: 40 bits (Table 00-6). -/
abbrev StepNo := BitVec 40

/-- A cycle of a beat: 28 bits (Table 04-6, ISSUE). -/
abbrev Cycle := BitVec 28

/-- A station memory address in 64-byte units: 23 bits (R99). -/
abbrev SmAddr := BitVec 23

/-- A die-local channel number: 12 bits (R109). -/
abbrev Chan := BitVec 12

/-- A logical station ID: 16 bits (R119). -/
abbrev Lsid := BitVec 16

/-- A tenant number, 0 to 255 (Table 00-6). -/
abbrev TenantId := BitVec 8

/-- `x + k`, saturating at all ones: the error counters of the manual (R85, R124 and others). -/
def satAdd {w : Nat} (x : BitVec w) (k : Nat) : BitVec w :=
  if x.toNat + k < 2 ^ w then BitVec.ofNat w (x.toNat + k) else BitVec.allOnes w

/-- `x + 1`, saturating at all ones. -/
def satInc {w : Nat} (x : BitVec w) : BitVec w := satAdd x 1

/-- Whether `x + k` would pass all ones: the overflow flags that stand beside saturating counts (R123). -/
def satOvf {w : Nat} (x : BitVec w) (k : Nat) : Bool := decide (2 ^ w ≤ x.toNat + k)

end Sys2Proof
end

