-- ==== Sys2Proof/Machine/FabricParts.lean ====
section
/-!
DEFINITION. The Celoth fabric's state (08_celoth_fabric.md) and the kite line's (09_collectives_and_mapping.md): frames, ports, slices, the
fabric configuration, open transfers, remote operations and kite operations. Every field's default is its value at reset.
-/

namespace Sys2Proof.Machine

/-- A frame (Table 08-4), its payload as bytes; the length field follows from the payload. `job` is no part of the wire form: it names the plan and the step
whose outbound frame this module made it (10 R350). -/
structure Frame where
  seq : U16 := 0
  ack : U16 := 0
  vc : BitVec 3
  typ : BitVec 4
  rclass : BitVec 4 := 0
  hops : BitVec 5 := 0
  dst : BitVec 14
  src : BitVec 14
  tenant : TenantId := 0
  uns : Bool := false
  pmask : BitVec 8 := 0
  xid : BitVec 9 := 0
  chunk : BitVec 21 := 0
  payload : List Byte := []
  job : Option (Nat × StepNo) := none
deriving DecidableEq, Repr

/-- The states of a port (Table 08-8). -/
inductive PortSt where
  | off | train | up | retrain | failed
deriving DecidableEq, Repr

/-- One port (R255 to R268, R289, R292, R293, R203). `held` is the replay buffer, oldest first; `waiting` the frames not yet sent. `sent` counts
the buffer units sent per VC and `peerFreed` those the peer says it freed; `freed` counts the units this end freed and `toldFreed` what
the last LINK_CTL said. `reserve` holds the peer's class reserve bits, and
`inRes` the units of the frames that took one which the peer has not yet shown free again, by VC and reserve bit. `turn` and `left` are the place in the
byte-weighted round robin and the bytes its VC may still send (R268). `resends` counts timeouts of the oldest held frame. `txCtr` is
the transmit counter under the current key, `newKey` a key agreed for this direction and not yet announced, `rxNew` one that the peer has not
yet announced; `oldKey` with its counter `oldCtr` protects the frames numbered before `keyFrom` that are sent again after a switch. `theta` is the last θ in
ps, `thetaMag` its size in 0.125 ns, saturating, and `thetaAt` the count at which it was taken (06 R199, R203). `trained` says that full training is done and LINK_INIT runs. -/
structure Port where
  st : PortSt := .off
  lanesOk : BitVec 5 := 0
  spareFor : BitVec 3 := 7
  enc : Bool := false
  encWanted : Bool := false
  disable : Bool := false
  peerId : BitVec 14 := 0
  peerPort : BitVec 4 := 0
  oneway : BitVec 14 := 0
  nextSeq : U16 := 0
  held : List Frame := []
  waiting : List Frame := []
  expect : U16 := 0
  unacked : Nat := 0
  sent : List U16 := List.replicate 8 0
  peerFreed : List U16 := List.replicate 8 0
  freed : List U16 := List.replicate 8 0
  toldFreed : List U16 := List.replicate 8 0
  reserve : BitVec 96 := 0xFFFFFFFFFFFFFFFFFFFFFFFF
  inRes : List (Nat × Nat × Nat) := []
  turn : Nat := 0
  left : Nat := 2192
  resends : Nat := 0
  crcErr : U16 := 0
  replayTo : U16 := 0
  fecUncorr : U16 := 0
  retrains : U16 := 0
  tagFails : Nat := 0
  key : BitVec 256 := 0
  salt : BitVec 32 := 0
  newKey : Option (BitVec 256 × BitVec 32) := none
  rxNew : Option (BitVec 256) := none
  rxKey : BitVec 256 := 0
  keyPhase : Bool := false
  rekeying : Bool := false
  txCtr : Nat := 0
  oldKey : Option (BitVec 256 × BitVec 32) := none
  oldCtr : Nat := 0
  keyFrom : U16 := 0
  trained : Bool := false
  initGot : Bool := false
  theta : BitVec 32 := 0
  asym : BitVec 32 := 0
  synced : Bool := false
  thetaMag : U16 := 0
  thetaAt : BitVec 64 := 0
deriving DecidableEq, Repr

/-- The fabric configuration (R250 to R253, R268, R290, R291). `axes` gives each position its axis (0 none, 1 X, 2 Y, 3 Z), `gates` the
(primary, secondary) gateway of each position for X, Y and Z. -/
structure FabCfg where
  loaded : Bool := false
  ballast : Nat := 4
  celoth1 : Bool := false
  timeRoot : Bool := false
  meadow : Nat := 0
  position : Nat := 0
  digest : BitVec 32 := 0
  sx : Nat := 1
  sy : Nat := 1
  sz : Nat := 1
  fibreMax : Nat := 0
  axes : List Nat := List.replicate 64 0
  gates : List (List (Nat × Nat)) := List.replicate 64 [(0, 0), (0, 0), (0, 0)]
  pools : List Nat := List.replicate 6 1365
  pfcPrio : Nat := 0
deriving DecidableEq, Repr

/-- The positions of a meadow that are left to jobs: those below the ballast positions (R250, Table 08-14). -/
def FabCfg.jobPos (g : FabCfg) : Nat := (if g.celoth1 then 32 else 64) - g.ballast

/-- A job slice (R276, R287, R275): tenant, number, kind (1 subcube, 2 torus block), its placement, CKEY, and the map of logical to physical
module IDs. -/
structure Slice where
  id : Nat
  tenant : TenantId
  kind : Nat
  k : Nat := 0
  mask : Nat := 0
  base : Nat := 0
  x0 : Nat := 0
  y0 : Nat := 0
  z0 : Nat := 0
  tx : Nat := 1
  ty : Nat := 1
  tz : Nat := 1
  ckey : BitVec 32
  map : List Nat
deriving DecidableEq, Repr

/-- A transfer that this module receives (R277): where it comes from, the keys of the units it writes, how many have come, and what follows its
end. `plan` names the plan whose READ it answers, `owner` the plan that a write belongs to; `raddr` is the destination address of a READ. -/
structure OpenXfer where
  src : BitVec 14
  xid : BitVec 9
  tenant : TenantId
  keys : List Nat
  got : Nat := 0
  rpost : Bool
  ch : Chan
  part : Nat
  token : BitVec 64
  plan : Option Nat
  owner : Option Nat := none
  raddr : BitVec 64 := 0
  data : List (BitVec 8) := []
  bad : List Bool := []
  uns : Bool := false
deriving DecidableEq, Repr

/-- An outstanding remote operation of a control core (R281). -/
structure RemoteOp where
  part : Nat
  core : Nat
  tenant : TenantId
  dst : BitVec 14
  xid : BitVec 9
  write : Bool
deriving DecidableEq, Repr

/-- A kite operation in progress or done on this module (R313 to R318): its plan, group, SEQ and EPOCH, OP and WIDTH, the operands that have come
(child port, or 16 for this module's own), who submitted it here (0 none, 1 the ledger dies, 2 a collective station, 3 a mailbox as
(die, core, index)), when, whether it has gone up the tree, and its result. -/
structure KiteOp where
  plan : Nat
  group : BitVec 8
  seq : BitVec 14
  epoch : BitVec 8
  op : BitVec 4
  width : BitVec 2
  got : List (Nat × List (BitVec 8)) := []
  submitter : Nat := 0
  mail : Nat × Nat × Nat := (0, 0, 0)
  at_ : BitVec 64 := 0
  sentUp : Bool := false
  result : Option (List (BitVec 8)) := none
  error : Bool := false
deriving DecidableEq, Repr

/-- The identity of a collective instance (R330). -/
structure Cid where
  step : StepNo
  beat : Nat
  group : Nat
  inst : Nat
deriving DecidableEq, Repr

/-- A collective in progress or finished in the current step: its plan, identity, station, the link die it runs on, the STATE and LEVEL that LD_CS_STATUS
shows of it (R335), whether it has ended and whether it was aborted, its XID (08 R278), and whether
its anchor reductions have gone to the kite line (R307, R308). -/
structure CollRun where
  plan : Nat
  cid : Cid
  lsid : Lsid
  die : Nat := 0
  state : BitVec 3 := 0
  level : BitVec 3 := 7
  done : Bool := false
  aborted : Bool := false
  xid : BitVec 9 := 384
  asked : Bool := false
deriving DecidableEq, Repr

/-- A link die's kite unit and abort counts (R336 to R338). -/
structure LinkDie where
  issued : U16 := 0
  received : U16 := 0
  ignored : U16 := 0
  lastCause : BitVec 8 := 0
  ops : BitVec 48 := 0
  opsOvf : Bool := false
  epochDrops : U16 := 0
deriving DecidableEq, Repr

/-- The fabric as this module sees it. `peers` lists meadow positions with the ports they report out of service (R274); `unreach` the last
UNREACHABLE record per destination; `syncState` and `lostSeen` are VZ_SYNC_STATUS (R199). `seqOf` counts the kite
operations per (plan, group), `xidNext` control cores' XIDs. -/
structure Fabric where
  cfg : FabCfg := {}
  ports : List Port := List.replicate 16 {}
  lds : List LinkDie := List.replicate 4 {}
  slices : List Slice := []
  opens : List OpenXfer := []
  remote : List RemoteOp := []
  kite : List KiteOp := []
  kiteSeq : List ((Nat × Nat) × Nat) := []
  kiteQueue : List KiteOp := []
  colls : List CollRun := []
  aborted : List (Nat × Cid) := []
  peers : List (Nat × List Nat) := []
  unreach : List (Nat × BitVec 64) := []
  syncState : BitVec 2 := 0
  lostSeen : Bool := false
  xidNext : BitVec 9 := 0
deriving DecidableEq, Repr

end Sys2Proof.Machine
end

