-- ==== Sys2Proof/Machine/Types.lean ====
section
/-!
DEFINITION. The operand types of the commands: station instruction headers and fields (04_stations_and_streams.md
Tables 04-6 to 04-15, 05_vector_stations.md Table 05-1), tokens, descriptors and memory errors.
-/

namespace Sys2Proof.Machine

/-- A memory error that an access finds in one 64-byte unit (07 R226, R227): `key` is the unit's number in the model's
physical key space (its key divided by 64), `unc` says that SEC-DED could not correct it. Upsets come from outside the
machine, so the command that meets one carries it. `readback` says that the unit fails its read-back after the rewrite (R209),
`noSpare` that no spare row, or lane, is left to repair it with (R209, R224). `lane` says that a failing lane of its stack is the cause (R223), `stack` that
the whole stack has failed (R224). `repair` is what the mirror partner's slot holds for the unit, or
the twin or the sealed state for a line of a region that R224 names, when it holds it (12 R422). -/
structure MemErr where
  key : Nat
  unc : Bool
  readback : Bool := false
  noSpare : Bool := false
  lane : Bool := false
  stack : Bool := false
  repair : List (BitVec 8) := []
deriving DecidableEq, Repr

/-- What stands before the times of a SYNC frame: whether it is a reply (06 R191), and its ACK (08 R261). -/
structure SyncHead where
  reply : Bool
  ack : BitVec 16
deriving DecidableEq, Repr

/-- A command packet read from a ring, and whether the queue's shadow can be written (13 R450, R453). -/
structure Fetched where
  packet : List (BitVec 8)
  shadowOk : Bool
deriving DecidableEq, Repr

/-- A completion queue whose coalescing time is over, and whether its entries and shadow reach host memory (13 R452, R453). -/
structure CoalQueue where
  queue : Nat
  written : Bool
deriving DecidableEq, Repr

/-- An operand of a control core's access, and whether the core's own line is found uncorrectable (07 R239). -/
structure Lined (α : Type) where
  val : α
  lineErr : Bool
deriving DecidableEq, Repr

/-- Which station runs an instruction: the admitted plan's handle, the logical station (R119), and the memory errors that the
accesses of this run find. -/
structure Stn where
  plan : Nat
  lsid : Lsid
  found : List MemErr
deriving DecidableEq, Repr

/-- The common instruction header, without SCODE and OPC, which the command itself gives (Table 04-6). -/
structure Hdr where
  outCh : Chan
  inCh : Chan
  issue : Cycle
  ind : Bool
  last : Bool
  post : Bool
  wait : Bool
deriving DecidableEq, Repr

/-- The range of POST and RELEASE (Table 04-7), in 64-byte units. -/
structure RangeF where
  base : SmAddr
  len : BitVec 23
deriving DecidableEq, Repr

/-- MMA fields (Table 04-8). -/
structure MmaF where
  cvt : BitVec 4
  outFmt : BitVec 4
  outStride : BitVec 20
  outBase : SmAddr
  initBase : SmAddr
  init : Bool
  bank : Bool
  shape : BitVec 2
  fmtB : BitVec 4
  fmtA : BitVec 4
  kblk : BitVec 12
  bCstride : BitVec 20
  bBase : SmAddr
  aRstride : BitVec 20
  aBase : SmAddr
deriving DecidableEq, Repr

/-- VLOAD fields (Table 04-10). -/
structure VloadF where
  bufOff : BitVec 8
  nvecM1 : BitVec 2
  row : BitVec 5
  kblk : BitVec 12
  fmt : BitVec 4
  srcBase : SmAddr
deriving DecidableEq, Repr

/-- MV fields (Table 04-11). -/
structure MvF where
  cvt : BitVec 4
  outFmt : BitVec 4
  outBase : SmAddr
  initBase : SmAddr
  init : Bool
  bank : Bool
  bufOff : BitVec 8
  nvecM1 : BitVec 2
  kblk : BitVec 12
  vFmt : BitVec 4
  wFmt : BitVec 4
  wBase : SmAddr
deriving DecidableEq, Repr

/-- Vector station fields (Table 05-1). -/
structure VecF where
  flat : Bool
  packed : Bool
  mod : BitVec 6
  imm1 : BitVec 16
  imm0 : BitVec 32
  cvt : BitVec 4
  outFmt : BitVec 4
  fmt1 : BitVec 4
  fmt0 : BitVec 4
  count : BitVec 24
  dst : SmAddr
  src2 : SmAddr
  src1 : SmAddr
  src0 : SmAddr
deriving DecidableEq, Repr

/-- GATHER fields (Table 04-13). -/
structure GatherF where
  winEnd : Cycle
  tblRows : BitVec 32
  rowUnits : BitVec 10
  dstBase : SmAddr
  idxCount : BitVec 20
  idxBase : SmAddr
  tspace : BitVec 2
  toff : BitVec 48
deriving DecidableEq, Repr

/-- XFER fields (Table 04-12). -/
structure XferF where
  dst : BitVec 64
  src : BitVec 64
  len : BitVec 24
  mode : BitVec 4
  fenceSlot : BitVec 6
  dstCh : Chan
  rpost : Bool
  tfmt : BitVec 4
deriving DecidableEq, Repr

/-- Collective station fields (Table 04-15). -/
structure CollF where
  dst : BitVec 50
  src : BitVec 50
  count : BitVec 32
  cvt : BitVec 4
  outFmt : BitVec 4
  fmtIn : BitVec 4
  group : BitVec 8
  clog2 : BitVec 5
  head : BitVec 4
  anch : Bool
  red : BitVec 4
deriving DecidableEq, Repr

/-- A stream token (Table 04-16). -/
structure Token where
  beat : BitVec 16
  poison : Bool
  ntiles : BitVec 12
  addr : SmAddr
deriving DecidableEq, Repr

/-- What another member of a group sends in a collective (09 R302, R322, R323, R328): its rank, its bytes, which of their 64-byte units are poisoned,
and, for a CARRIED reduction, its exact-byte records. -/
structure PeerData where
  rank : Nat
  bytes : List (BitVec 8)
  bad : List Nat
  anchors : List (BitVec 8) := []
deriving DecidableEq, Repr

/-- A die-to-die link that has failed (01 R15): one to a base die that the module cannot do without, one of the two links of a ledger or host die,
or the link between the two ledger dies or the two host dies. -/
inductive D2d where
  | base
  | oneOf (die : Nat)
  | pair
deriving DecidableEq, Repr

/-- A seal map entry (10 Table 10-1). -/
structure SealEnt where
  cls : Nat
  extents : Nat
  nextOff : BitVec 64
  curOff : BitVec 64
deriving DecidableEq, Repr

/-- A job as its failed member ran it, given to the ballast module that takes its place (10 R371): launch count, first step, key, logical module, the step L
whose slot it starts from, the attempt that the rollback begins, and the seal map. -/
structure JobCfg where
  lc : BitVec 64
  firstStep : StepNo
  key : BitVec 64
  module : Nat
  last : StepNo
  attempt : Nat
  seals : List SealEnt
deriving DecidableEq, Repr

/-- A sensor reading: die code (12 Table 12-3), sensor number, and value in the unit of THM_MON_DATA. -/
structure Reading where
  die : Nat
  index : Nat
  value : BitVec 16
deriving DecidableEq, Repr

/-- What an SPDM request asks for (15 R518): a certificate chain, a measurement of Table 15-13, or a secured session. -/
inductive SpdmReq where
  | certificate
  | measurement (index : Nat)
  | session
deriving DecidableEq, Repr

/-- 64 MiB of a sealed range as the mirror partner's slot holds them (14 R485): the plan, seal-map entry and extent. -/
structure MirrorPiece where
  plan : Nat
  entry : Nat
  ext : Nat
  bytes : List (BitVec 8)
deriving DecidableEq, Repr

/-- A firmware image that the baseboard wrote into a flash device (15 R514, R516). -/
structure FlashWrite where
  image : Nat
  bytes : List (BitVec 8)
deriving DecidableEq, Repr

/-- A host access to BAR0 of a function (00 R6): the function, 0 for the physical one and t for the virtual function of tenant t, the byte offset and the size. -/
structure RegAcc where
  fn : TenantId
  off : Nat
  size : Nat
deriving DecidableEq, Repr

/-- A stripe report (R396, Table 11-5): the writer, the seal-map entry with its class and extents, the group it is replicated in (0xFE none) with
the 14 bytes of HOLDERS and the logical modules that hold it, its pieces of the shard's `total`, where they lie, and their digests. -/
structure StripeRep where
  writer : Nat
  entry : Nat
  cls : Nat
  extents : Nat
  repl : Nat
  holders : List (BitVec 8)
  members : List Nat
  first : Nat
  count : Nat
  total : Nat
  target : Nat
  nsid : Nat
  lba : Nat
  digests : List (List (BitVec 8)) := []
deriving DecidableEq, Repr

end Sys2Proof.Machine
end

