-- ==== Sys2Proof/Syntax.lean ====
section
/-!
DEFINITION. The commands of the TV20 block: one constructor per row of spec/opcode_table.json, with the row's operands.
What a command reads from outside the module (host memory, peers, pins, sensors) is an operand of it.
-/

namespace Sys2Proof

open Sys2Proof.Machine

/-- The commands of the block, one per row of the opcode table. -/
inductive Instr where
  /-- NOP: Station instruction that does nothing but still honours WAIT and POST (R96). -/
  | nop (st : Stn) (h : Hdr)
  /-- POST: Station instruction that posts a token to OUT_CH naming a station memory range (R96). -/
  | post (st : Stn) (h : Hdr) (f : RangeF)
  /-- RELEASE: Station instruction that releases a station memory range in its issue cycle, ending residency and overlapping fence slots (R97). -/
  | release (st : Stn) (h : Hdr) (f : RangeF)
  /-- MMA: Matrix array multiply-accumulate over K blocks into an accumulator bank, with drain, conversion, trailers and checks (R99). -/
  | mma (st : Stn) (h : Hdr) (f : MmaF)
  /-- VLOAD: Thin station instruction that loads vector blocks from tiles into the vector buffer (R100). -/
  | vload (st : Stn) (h : Hdr) (f : VloadF)
  /-- MV: Thin station matrix-vector pass writing four output tiles (R101). -/
  | mv (st : Stn) (h : Hdr) (f : MvF)
  /-- VADD: Vector station elementwise addition (R131). -/
  | vadd (st : Stn) (h : Hdr) (f : VecF)
  /-- VSUB: Vector station elementwise subtraction (R131). -/
  | vsub (st : Stn) (h : Hdr) (f : VecF)
  /-- VMUL: Vector station elementwise multiplication (R131). -/
  | vmul (st : Stn) (h : Hdr) (f : VecF)
  /-- VFMA: Vector station fused multiply-add with one rounding (R131). -/
  | vfma (st : Stn) (h : Hdr) (f : VecF)
  /-- VMAX: Vector station elementwise maximum (R131). -/
  | vmax (st : Stn) (h : Hdr) (f : VecF)
  /-- VMIN: Vector station elementwise minimum (R131). -/
  | vmin (st : Stn) (h : Hdr) (f : VecF)
  /-- VAXPY: Vector station IMM0 times a plus b with one rounding (R131). -/
  | vaxpy (st : Stn) (h : Hdr) (f : VecF)
  /-- VABS: Vector station absolute value (R131). -/
  | vabs (st : Stn) (h : Hdr) (f : VecF)
  /-- VNEG: Vector station negation (R131). -/
  | vneg (st : Stn) (h : Hdr) (f : VecF)
  /-- VCLAMP: Vector station clamp to plus or minus IMM0 (R131). -/
  | vclamp (st : Stn) (h : Hdr) (f : VecF)
  /-- VCVT: Vector station format conversion to OUT_FMT (R131). -/
  | vcvt (st : Stn) (h : Hdr) (f : VecF)
  /-- VFILL: Vector station fill of every element with IMM0 (R131). -/
  | vfill (st : Stn) (h : Hdr) (f : VecF)
  /-- VROPE: Vector station rotary rotation of column pairs with cos and sin tiles (R131). -/
  | vrope (st : Stn) (h : Hdr) (f : VecF)
  /-- VEXP: Vector station special function e to the x (R136). -/
  | vexp (st : Stn) (h : Hdr) (f : VecF)
  /-- VEXP2: Vector station special function 2 to the x (R136). -/
  | vexp2 (st : Stn) (h : Hdr) (f : VecF)
  /-- VLOG: Vector station natural logarithm (R136). -/
  | vlog (st : Stn) (h : Hdr) (f : VecF)
  /-- VRCP: Vector station correctly rounded reciprocal (R136). -/
  | vrcp (st : Stn) (h : Hdr) (f : VecF)
  /-- VSQRT: Vector station correctly rounded square root (R136). -/
  | vsqrt (st : Stn) (h : Hdr) (f : VecF)
  /-- VRSQRT: Vector station reciprocal square root (R136). -/
  | vrsqrt (st : Stn) (h : Hdr) (f : VecF)
  /-- VTANH: Vector station hyperbolic tangent (R136). -/
  | vtanh (st : Stn) (h : Hdr) (f : VecF)
  /-- VSIGMOID: Vector station logistic sigmoid (R136). -/
  | vsigmoid (st : Stn) (h : Hdr) (f : VecF)
  /-- VGELU: Vector station GELU, tanh or erf form by MOD (R136). -/
  | vgelu (st : Stn) (h : Hdr) (f : VecF)
  /-- VSILU: Vector station SiLU (R136). -/
  | vsilu (st : Stn) (h : Hdr) (f : VecF)
  /-- VSIN: Vector station sine (R136). -/
  | vsin (st : Stn) (h : Hdr) (f : VecF)
  /-- VCOS: Vector station cosine (R136). -/
  | vcos (st : Stn) (h : Hdr) (f : VecF)
  /-- VRSUM: Vector station row sums in the fixed pairwise order, written flat (R133). -/
  | vrsum (st : Stn) (h : Hdr) (f : VecF)
  /-- VRMAX: Vector station row maxima written flat (R131). -/
  | vrmax (st : Stn) (h : Hdr) (f : VecF)
  /-- VSOFTMAX: Vector station row softmax with optional causal mask and partial stats (R134). -/
  | vsoftmax (st : Stn) (h : Hdr) (f : VecF)
  /-- VRMSNORM: Vector station RMS norm with gain (R135). -/
  | vrmsnorm (st : Stn) (h : Hdr) (f : VecF)
  /-- VLAYERNORM: Vector station layer norm with gain and bias (R135). -/
  | vlayernorm (st : Stn) (h : Hdr) (f : VecF)
  /-- VTOPK: Vector station router top-k writing routing records and expert counts (R151). -/
  | vtopk (st : Stn) (h : Hdr) (f : VecF)
  /-- VROWSCALE: Vector station scaling of each row by a flat per-row factor (R131). -/
  | vrowscale (st : Stn) (h : Hdr) (f : VecF)
  /-- VFORM: Vector station forming of tiles from raw flat rows (R137). -/
  | vform (st : Stn) (h : Hdr) (f : VecF)
  /-- VUNFORM: Vector station writing of tile extents to flat rows (R137). -/
  | vunform (st : Stn) (h : Hdr) (f : VecF)
  /-- VREQUANT: Vector station transpose and re-encode of tiles with ORIENT flipped (R138). -/
  | vrequant (st : Stn) (h : Hdr) (f : VecF)
  /-- VASACC: Vector station anchored accumulation of contributions into AS64 or AS128 tiles with exact-byte records (R139). -/
  | vasacc (st : Stn) (h : Hdr) (f : VecF)
  /-- VOPT_ADAMW: Vector station fused optimizer step writing masters, moments and working copy (R148). -/
  | voptAdamw (st : Stn) (h : Hdr) (f : VecF)
  /-- VSQNORM: Vector station sum of squares and non-finite count of gradient units (R150). -/
  | vsqnorm (st : Stn) (h : Hdr) (f : VecF)
  /-- VDROPOUT: Vector station dropout with drawn keep decisions and stored mask (R144). -/
  | vdropout (st : Stn) (h : Hdr) (f : VecF)
  /-- VMASK: Vector station application of a stored dropout mask (R144). -/
  | vmask (st : Stn) (h : Hdr) (f : VecF)
  /-- GATHER: Gather station indexed row gather writing rows and a status word (R104). -/
  | gather (st : Stn) (h : Hdr) (f : GatherF)
  /-- XFER: Transfer station explicit transfer in COPY, COPY_FENCED, TRANSPOSE or ZERO mode, local or remote (R103). -/
  | xfer (st : Stn) (h : Hdr) (f : XferF)
  /-- ALLREDUCE: Collective station all-reduce over a group in FP32, anchored, max or min (R302). -/
  | allreduce (st : Stn) (h : Hdr) (f : CollF) (peers : List PeerData)
  /-- REDUCE_SCATTER: Collective station reduce-scatter leaving each rank its segment (R302). -/
  | reduceScatter (st : Stn) (h : Hdr) (f : CollF) (peers : List PeerData)
  /-- ALL_GATHER: Collective station all-gather of every rank's elements (R302). -/
  | allGather (st : Stn) (h : Hdr) (f : CollF) (peers : List PeerData)
  /-- BROADCAST: Collective station broadcast of rank 0's elements (R302). -/
  | broadcast (st : Stn) (h : Hdr) (f : CollF) (peers : List PeerData)
  /-- DISPATCH: Collective station expert dispatch all-to-all at compiled capacity (R322). -/
  | dispatch (st : Stn) (h : Hdr) (f : CollF) (peers : List PeerData)
  /-- COMBINE: Collective station expert combine returning weighted expert outputs to tokens (R323). -/
  | combine (st : Stn) (h : Hdr) (f : CollF) (peers : List PeerData)
  /-- SHARD_PERMUTE: Collective station re-sharding permutation over move entries (R328). -/
  | shardPermute (st : Stn) (h : Hdr) (f : CollF) (peers : List PeerData)
  /-- ISSUE_HOLD_RELEASE: A held instruction issues once its operands, token, descriptor or slot become available after a beat hold (R64). -/
  | issueHoldRelease (plan : Nat) (cycles : Nat)
  /-- START_GRANT: Die gives a start grant to an idle array waiting to start from idle off schedule (R162). -/
  | startGrant (plan : Nat) (cycles : Nat)
  /-- STREAM_POST_DEFERRED: A token kept in a post register is posted when its channel gains space (R111). -/
  | streamPostDeferred (plan : Nat) (lsid : Lsid) (cycles : Nat)
  /-- LATE_GATHER: Gather status word not written by WIN_END; LATE_GATHER record and beat hold (R107). -/
  | lateGather (plan : Nat) (lsid : Lsid) (winEnd : Cycle)
  /-- RESIDUE_MISMATCH: A residue, duplicate-compare or parity check result fails, removing CHECKED, writing a record and starting local replay (R75). -/
  | residueMismatch (plan : Nat) (lsid : Lsid) (rows : List Nat) (col : Nat) (mask : Nat) (fmt : BitVec 4) (tiles : List SmAddr) (cycle : Cycle)
  /-- DESCRIPTOR_WRITE: A control core writes a descriptor slot, discarded with DESCRIPTOR_OVERRUN when VALID is already 1 (R115). -/
  | descriptorWrite (plan : Nat) (part : Nat) (core : Nat) (ring : Nat) (slot : Nat) (v : BitVec 256)
  /-- KITE_MAILBOX_SUBMIT: A control core writes CTRL of a kite mailbox, submitting a kite operation or being discarded as an overrun (R319). -/
  | kiteMailboxSubmit (plan : Nat) (part : Nat) (core : Nat) (index : Nat) (addr : SmAddr) (ctrl : BitVec 64)
  /-- CONTROL_CORE_FAILURE: A control core fails; its ballast core takes over at the next edge and the beat is a control-core fault (R118). -/
  | controlCoreFailure (p : Nat) (core : Nat)
  /-- BEAT_EDGE: Module beat edge counter value arrives and the edge work of Table 06-2 runs in order (R159). -/
  | beatEdge (edge : BitVec 64)
  /-- LOCAL_REPLAY_END: Local replay reaches the schedule cycle of the hold and the job runs on live (R356). -/
  | localReplayEnd (plan : Nat)
  /-- SLOT_START: A slot table entry takes effect at its slot start and its ECRC is checked (R169). -/
  | slotStart (part : Nat) (slot : Nat) (ok : Bool) (rewritten : Bool)
  /-- HOLD_LIMIT_REACHED: A job held past HOLD_LIMIT is handled as hung, local cause by capture and reset, remote cause by rollback (R489). -/
  | holdLimitReached (plan : Nat) (remote : Bool)
  /-- ENGINE_OVERRUN: A station instruction not complete 65,536 cycles after its fixed completion triggers capture and partition reset or escalation (R489). -/
  | engineOverrun (plan : Nat) (lsid : Lsid)
  /-- CAPTURE_DONE: Hang capture of a partition completes and the partition reset proceeds (R490). -/
  | captureDone (part : Nat) (us : Nat)
  /-- CAPTURE_TIMEOUT: Capture not complete in 2 ms is abandoned with VALID 0 and the reset goes ahead (R490). -/
  | captureTimeout (part : Nat)
  /-- SUSPECT_REPLAY_PASS: A suspect replayed alone completes the beat after detection and the next suspect is released (R491). -/
  | suspectReplayPass (part : Nat)
  /-- VERDICT_FINAL: A step's verdict becomes final, the VERDICT record is written and the seal vote submitted (R350). -/
  | verdictFinal (plan : Nat) (step : StepNo)
  /-- SEAL_VOTE_RESULT: Seal vote completes; step sealed with mirror and snapshot vote started, or step fails to rollback (R352). -/
  | sealVoteResult (plan : Nat) (res : List (BitVec 8)) (err : Bool)
  /-- MIRROR_VOTE_RESULT: Mirror vote completes; the NEXT write-hold lifts or stays (R353). -/
  | mirrorVoteResult (plan : Nat) (res : List (BitVec 8)) (err : Bool)
  /-- RESUME_VOTE_RESULT: Resume vote completes and the job resumes the new attempt at the named edge (R363). -/
  | resumeVoteResult (plan : Nat) (res : List (BitVec 8)) (err : Bool)
  /-- SNAPSHOT_VOTE_RESULT: Snapshot vote completes; the snapshot is taken or skipped with SNAP_SKIPPED (R384). -/
  | snapshotVoteResult (plan : Nat) (res : List (BitVec 8)) (err : Bool)
  /-- LATENESS_VOTE_RESULT: Lateness vote completes and the module counts whether it was last (R427). -/
  | latenessVoteResult (plan : Nat) (res : List (BitVec 8)) (err : Bool)
  /-- KITE_OPERATION_COMPLETE: A kite operation's result reaches a member and is delivered to its submitter or mailbox (R314). -/
  | kiteOperationComplete (plan : Nat) (g : BitVec 8) (seq : BitVec 14) (res : List (BitVec 8))
  /-- KITE_TIMEOUT: A kite operation incomplete 10 ms after submission completes with an error (R318). -/
  | kiteTimeout (plan : Nat) (g : BitVec 8) (seq : BitVec 14)
  /-- PARTNER_SILENT: No frame from a waited-on partner for ABORT_WAIT; abort cause detected and ABORT submitted (R330). -/
  | partnerSilent (plan : Nat) (lsid : Lsid) (group : Nat)
  /-- KITE_ABORT_RECEIVED: An ABORT kite frame arrives; it is forwarded and the collective stopped, poisoned and recorded (R332). -/
  | kiteAbortReceived (port : Nat) (f : Frame)
  /-- FAILURE_NOTICE_RECEIVED: A failure notice on VC7 starts rollback at its named edge and fails incomplete snapshots (R371). -/
  | failureNoticeReceived (plan : Nat) (lost : Nat) (edge : BitVec 64)
  /-- REMAP_NOTICE_RECEIVED: A remap notice maps the failed logical module to the ballast module at its named edge (R371). -/
  | remapNoticeReceived (plan : Nat) (lm : Nat) (phys : Nat) (edge : BitVec 64) (cfg : Option JobCfg)
  /-- ROLLBACK_NOTICE_RECEIVED: A rollback notice naming L after a partition reset or halt puts the job into rollback (R485). -/
  | rollbackNoticeReceived (plan : Nat) (l : StepNo) (edge : BitVec 64)
  /-- ABORT_NOTICE_RECEIVED: A job abort notice for a poisoned job rolls back and stops the job (R420). -/
  | abortNoticeReceived (plan : Nat)
  /-- PARTNER_LOST: Tether silent 1 ms and no VC7 answer in 10 ms; partner declared lost and ballast admission begins (R369). -/
  | partnerLost (warm : Option Nat)
  /-- ENTRY_CHECK_DONE: A ballast module's 200 ms entry check passes or fails (R371). -/
  | entryCheckDone (pass : Bool) (next : Option Nat)
  /-- BALLAST_STREAM_DONE: The twin finishes streaming state to the ballast module and sends the remap notice (R371). -/
  | ballastStreamDone
  /-- MIRROR_FRAME_RECEIVED: A MIRROR frame (OPEN, data, CLOSE or ACK) is taken; transfers are checked and acknowledged, acks lead to the mirror vote (R368). -/
  | mirrorFrameReceived (port : Nat) (f : Frame)
  /-- FRAME_BAD_CRC: A frame with bad CRC or failed tag is discarded and a NAK sent; sixteen tag failures fail the port (R261). -/
  | frameBadCrc (port : Nat) (tag : Bool) (fec : Nat)
  /-- FRAME_INVALID: A frame with a reserved TYPE or wrong VC is discarded, recorded and acknowledged (R259). -/
  | frameInvalid (port : Nat) (f : Frame)
  /-- LINK_CTL: A LINK_CTL frame updates credits, reserves, NAK replay and key phase (R263). -/
  | linkCtl (port : Nat) (f : Frame)
  /-- SYNC: A SYNC frame is timestamped and the neighbour offset estimated for rate steering (R191). -/
  | sync (port : Nat) (head : SyncHead) (t1 : BitVec 64) (t2 : BitVec 64) (t3 : BitVec 64) (t4 : BitVec 64)
  /-- XOPEN: An XOPEN is tested for key, space and range and opens a remote transfer or is rejected (R279). -/
  | xopen (port : Nat) (f : Frame) (found : List MemErr)
  /-- XDATA: An XDATA chunk is written with PMASK poison and closes the transfer when the count reaches LEN (R277). -/
  | xdata (port : Nat) (f : Frame)
  /-- RD_REQ: A remote 64-byte read request is tested and answered with RD_RSP (R281). -/
  | rdReq (port : Nat) (f : Frame) (found : List MemErr)
  /-- RD_RSP: A remote read response returns a unit with its poison bit to the control core (R281). -/
  | rdRsp (port : Nat) (f : Frame)
  /-- WR_REQ: A remote masked write request is tested, performed and acknowledged (R281). -/
  | wrReq (port : Nat) (f : Frame)
  /-- WR_ACK: A remote write acknowledgement completes the control core's write (R281). -/
  | wrAck (port : Nat) (f : Frame)
  /-- REG_RD: A remote register read by tenant 0 is performed by Volez under R6 (R282). -/
  | regRd (port : Nat) (f : Frame)
  /-- REG_WR: A remote register write by tenant 0 is performed by Volez under R6 (R282). -/
  | regWr (port : Nat) (f : Frame)
  /-- KITE: A KITE frame is combined or forwarded up or down the tree, or dropped for wrong EPOCH (R314). -/
  | kite (port : Nat) (f : Frame)
  /-- REJECT: A REJECT frame reaches the source, which writes REMOTE_REJECT (R279). -/
  | reject (port : Nat) (f : Frame)
  /-- LINK_INIT: A peer's LINK_INIT is checked; the port enters UP or FAILED with CABLING or FABRIC_CONFIG (R266). -/
  | linkInit (port : Nat) (f : Frame)
  /-- PORT_STATE_EXCHANGE: A port state message from a meadow position updates routes and detours (R274). -/
  | portStateExchange (pos : Nat) (ports : List Nat)
  /-- PEER_DETECTED: A peer is detected on a port in OFF with DISABLE 0 and training starts (R265). -/
  | peerDetected (port : Nat)
  /-- TRAINING_DONE: Full training completes and LINK_INIT exchange begins (R266). -/
  | trainingDone (port : Nat) (oneway : BitVec 14) (lanes : BitVec 5)
  /-- TRAINING_FAILED: Training attempts are exhausted within 10 s and the port enters FAILED (R264). -/
  | trainingFailed (port : Nat)
  /-- LINK_INIT_RESEND: A LINK_INIT frame is resent every 1 µs until the peer's arrives (R266). -/
  | linkInitResend (port : Nat)
  /-- LANE_FAILURE: A lane loses lock or exceeds its error ratio; L4 replaces it by fast retrain or a second failure fails the port (R255). -/
  | laneFailure (port : Nat) (lane : Nat)
  /-- REPLAY_TIMEOUT: The oldest held frame stays unacknowledged for REPLAY_TIMEOUT and all held frames are resent (R262). -/
  | replayTimeout (port : Nat)
  /-- RETRAIN_NO_PROGRESS: No acknowledgement progress with frames held for the limit; the port retrains (R264). -/
  | retrainNoProgress (port : Nat)
  /-- FAST_RETRAIN_DONE: Fast retrain completes and the port returns to UP with NAKs naming E (R265). -/
  | fastRetrainDone (port : Nat)
  /-- FAST_RETRAIN_FAILED: Fast retrain fails and the port enters TRAIN keeping sequence state (R265). -/
  | fastRetrainFailed (port : Nat)
  /-- ACK_TIMER: An acknowledgement is sent after 64 accepted frames or 200 ns (R264). -/
  | ackTimer (port : Nat)
  /-- CREDIT_UPDATE_TIMER: A LINK_CTL credit update is sent at least every 256 ns while counts changed (R264). -/
  | creditUpdateTimer (port : Nat)
  /-- SYNC_EXCHANGE_TIMER: A timestamped sync exchange starts every 16,384 ticks on each link (R191). -/
  | syncExchangeTimer (port : Nat)
  /-- SYNC_LOST: Offset over 50 ns for 1 ms or no sync frame for 10 ms; multi-module verdicts become unclean (R194). -/
  | syncLost
  /-- SYNC_NOT_REGAINED: Sync not regained within 1 s; the module reports itself permanently failed to multi-module jobs (R194). -/
  | syncNotRegained
  /-- REKEY_START: A transmit counter reaches 2^39 and Volez starts a rekey of that direction (R289). -/
  | rekeyStart (port : Nat)
  /-- KEY_EXHAUSTED: A transmit counter reaches 2^40 − 1 with no new key; the port fails with LINK_AUTH (R289). -/
  | keyExhausted (port : Nat)
  /-- D2D_LINK_FAILED: A die-to-die link loses lanes beyond repair, with continuation or permanent module failure (R15). -/
  | d2dLinkFailed (k : D2d)
  /-- LEDGER_FAILOVER: A ledger die fails and the other takes over the whole index (R347). -/
  | ledgerFailover (k : Nat)
  /-- VOLEZ_FAILOVER: A Volez lockstep mismatch hands control to the standby Volez within 10 ms (R424). -/
  | volezFailover
  /-- CHANNEL_COPY_DONE: Migration copy of a retiring channel completes, awaiting the edge switch (R224). -/
  | channelCopyDone (part : Nat) (found : List MemErr)
  /-- SCRUB_PASS: Periodic scrub of HBM, station memory or the Commons corrects or poisons units (R230). -/
  | scrubPass (found : List MemErr)
  /-- SENTINEL_TEST_DONE: A sentinel test finishes; failures retest, then SENTINEL_TRANSIENT or SENTINEL_FAIL and retirement (R434). -/
  | sentinelTestDone (test : BitVec 16) (die : Nat) (block : Nat) (inst : Nat) (pass : Bool) (last : Bool)
  /-- SENTINEL_FORWARD_RECEIVED: A forwarded sentinel package arrives, is verified, stored and forwarded on lower dimensions (R432). -/
  | sentinelForwardReceived (d : Nat) (package : List (BitVec 8))
  /-- AGING_SAMPLE: Hourly aging reading may write AGING_WARN or set SUSPECT (R426). -/
  | agingSample (die : Nat) (index : Nat) (ppm : BitVec 32)
  /-- SENSOR_MISMATCH: A sensor differs over 10 °C from its die mean for 1 s; MONITOR_ALARM and exclusion (R426). -/
  | sensorMismatch (r : Reading)
  /-- COOLANT_ALARM: Outlet over 22 °C above inlet for 1 s writes MONITOR_ALARM (R508). -/
  | coolantAlarm (inlet : BitVec 16) (outlet : BitVec 16)
  /-- POLICY_LIMIT: An adaptive loop saturates at its envelope, recorded at most once per second (R504). -/
  | policyLimit (kind : Nat) (inst : Nat)
  /-- THERMAL_THROTTLE_TICK: Every 100 µs or 1 ms the thermal cause lowers or raises its ratio (R506). -/
  | thermalThrottleTick (readings : List Reading) (ms : Bool)
  /-- CURRENT_THROTTLE: 10 µs average input current over 45 A drops the ratio to 8 or below within 2 µs (R506). -/
  | currentThrottle (iin : BitVec 16)
  /-- THROTTLE_RATIO_TICK: Every 1 ms the current, timing margin, ceiling and cap causes adjust their ratios (R506). -/
  | throttleRatioTick (vin : BitVec 16) (iin : BitVec 16) (pin : BitVec 16) (cdMv : BitVec 16) (loops : Nat) (volts : List Reading)
  /-- POWER_TRIP: Thermal or overcurrent trip removes all but standby rails and asserts FAULT_N (R507). -/
  | powerTrip (kind : BitVec 2)
  /-- HALT_CHANNELS_ASSERTED: Both halt channels sampled asserted latch a halt request (R509). -/
  | haltChannelsAsserted
  /-- HALT_INPUT_FAULT: Channel disagreement run reaches DISC_US; INPUT_FAULT latched and halt requested (R509). -/
  | haltInputFault (a : Bool)
  /-- HALT_DISAGREEMENT_END: A disagreement run ends with both channels released and DISC_COUNT rises (R509). -/
  | haltDisagreementEnd (n : Nat)
  /-- HALT_NO_BEAT: A halt request takes effect within 10 µs when no beat is set (R510). -/
  | haltNoBeat
  /-- HALT_RELEASE: Channels released for 10,000 samples with INPUT_FAULT clear; halt leaves at the next edge (R510). -/
  | haltRelease
  /-- HALT_TIMEOUT: A module halted for 10 s reports itself permanently failed to multi-module jobs (R510). -/
  | haltTimeout
  /-- INPUT_TURN_ON: Input rises through 41 V and standby rails and the housekeeping domain come up (R502). -/
  | inputTurnOn
  /-- INPUT_TURN_OFF: Input falls below 39 V or above 61 V and every rail is removed (R503). -/
  | inputTurnOff (vin : BitVec 16)
  /-- PWR_OK_ASSERT: PWR_OK asserted brings up HBM and core rails and releases power good (R502). -/
  | pwrOkAssert
  /-- PWR_OK_DEASSERT: PWR_OK deasserted asserts cold reset and removes core and HBM rails (R503). -/
  | pwrOkDeassert
  /-- RESET_N_ASSERT: RESET_N asserted begins or widens a module warm episode (R476). -/
  | resetNAssert
  /-- RESET_N_RELEASE: RESET_N released; the latched sequence starts if no level source remains (R481). -/
  | resetNRelease
  /-- PERST_ASSERT: PERST# asserted begins or widens a module warm episode (R476). -/
  | perstAssert
  /-- PERST_RELEASE: PERST# released; the latched sequence starts if no level source remains (R481). -/
  | perstRelease
  /-- POWER_GOOD_RELEASE: Internal power good released when every rail is in regulation, starting the cold sequence (R502). -/
  | powerGoodRelease
  /-- RESET_PHASE_DONE: A reset sequence phase completes and the next phase starts (R478). -/
  | resetPhaseDone (straps : BitVec 7)
  /-- RESET_READY: The sequence reaches Ready; state reinstated, jobs rejoin resume votes, commands accepted (R480). -/
  | resetReady (part : Option Nat) (pieces : List MirrorPiece)
  /-- PARTITION_RESET: A partition reset stops the partition's jobs, runs the partition sequence and rolls jobs back (R484). -/
  | partitionReset (part : Option Nat)
  /-- PARTITION_SEQUENCE_TIMEOUT: A partition sequence not at Ready within 1 s escalates to module warm reset (R492). -/
  | partitionSequenceTimeout (part : Nat)
  /-- FUNCTION_LEVEL_RESET: PCIe function-level reset performs a tenant reset of the function's tenant or all tenants (R486). -/
  | functionLevelReset (function : BitVec 8)
  /-- FLASH_OWN_N: Baseboard takes the flash bus while the module is in reset or recovery (R514). -/
  | flashOwnN (low : Bool) (write : Option FlashWrite)
  /-- SQ_TAIL_DOORBELL: A submission queue tail doorbell write, or queue error on a bad index (R445). -/
  | sqTailDoorbell (tenant : TenantId) (queue : Nat) (value : BitVec 32)
  /-- CQ_HEAD_DOORBELL: A completion queue head doorbell frees slots, or a bad index puts the queue in error (R453). -/
  | cqHeadDoorbell (tenant : TenantId) (queue : Nat) (value : BitVec 32)
  /-- RQ_DOORBELL: A request queue doorbell queues a request tag, or is dropped with QUEUE_ERROR when full (R468). -/
  | rqDoorbell (tenant : TenantId) (queue : Nat) (tag : BitVec 32)
  /-- COMMAND_FETCH: Volez fetches and accepts the head command of an SQ once a CQ slot can be reserved (R450). -/
  | commandFetch (tenant : TenantId) (queue : Nat) (packet : Option Fetched)
  /-- INTERRUPT_COALESCE_TIMER: COAL_US expires for an unsignalled CQ entry and the MSI-X vector is signalled (R452). -/
  | interruptCoalesceTimer (tenant : TenantId) (queue : CoalQueue)
  /-- APERTURE_READ: A host read through BAR4 is performed or answered with Unsupported Request (R446). -/
  | apertureRead (tenant : TenantId) (addr : BitVec 34) (n : Nat) (found : List MemErr)
  /-- APERTURE_WRITE: A host write through BAR4 is performed or discarded and counted (R446). -/
  | apertureWrite (tenant : TenantId) (addr : BitVec 34) (bytes : List (BitVec 8)) (ep : Bool)
  /-- PCIE_ATOMICOP: A PCIe AtomicOp request completes with Unsupported Request (R233). -/
  | pcieAtomicop
  /-- TXN_IDLE_TIMEOUT: An idle transaction is rolled back, handles released and TXN_EXPIRED posted (R463). -/
  | txnIdleTimeout (tenant : TenantId)
  /-- MODULE_INFO: Command returning firmware versions, identity, serial and configuration (R460). -/
  | moduleInfo (t : TenantId) (sq : Nat) (tag : BitVec 32)
  /-- PROFILE_SET: Command setting the profile while no plan is admitted (R12). -/
  | profileSet (t : TenantId) (sq : Nat) (tag : BitVec 32)
  /-- CONFIG_MODE: Command selecting shared or dedicated configuration (R418). -/
  | configMode (t : TenantId) (sq : Nat) (tag : BitVec 32)
  /-- HBM_REGIONS_SET: Command setting hamper, mirror and snapshot region sizes (R217). -/
  | hbmRegionsSet (t : TenantId) (sq : Nat) (tag : BitVec 32)
  /-- FW_STAGE: Command writing a firmware image into the unused flash image (R460). -/
  | fwStage (t : TenantId) (sq : Nat) (tag : BitVec 32) (image : Option (List (BitVec 8)))
  /-- FW_ACTIVATE: Command selecting the flash image for the next boot (R460). -/
  | fwActivate (t : TenantId) (sq : Nat) (tag : BitVec 32)
  /-- POWER_POLICY: Command setting power cap, determinism lock and halt discrepancy time (R505). -/
  | powerPolicy (t : TenantId) (sq : Nat) (tag : BitVec 32)
  /-- RESET: Command resetting the module, a partition, a port or a tenant, optionally with capture (R488). -/
  | reset (t : TenantId) (sq : Nat) (tag : BitVec 32)
  /-- TENANT_ENABLE: Command enabling a tenant (R443). -/
  | tenantEnable (t : TenantId) (sq : Nat) (tag : BitVec 32)
  /-- TENANT_DISABLE: Command revoking a tenant's leases with FORCE, deleting queues, unsetting keys and disabling it (R459). -/
  | tenantDisable (t : TenantId) (sq : Nat) (tag : BitVec 32)
  /-- LEASE_PARTITION: Command granting or revoking partition leases (R465). -/
  | leasePartition (t : TenantId) (sq : Nat) (tag : BitVec 32)
  /-- LEASE_GRANULES: Command granting or revoking Commons granules (R211). -/
  | leaseGranules (t : TenantId) (sq : Nat) (tag : BitVec 32)
  /-- LEASE_HBM: Command granting or revoking HBM extents in the tenant's view (R218). -/
  | leaseHbm (t : TenantId) (sq : Nat) (tag : BitVec 32)
  /-- LEASE_BANDWIDTH: Command setting a tenant's level-1 HBM bandwidth (R221). -/
  | leaseBandwidth (t : TenantId) (sq : Nat) (tag : BitVec 32)
  /-- LEASE_LINK: Command granting or revoking collective-station slots (R465). -/
  | leaseLink (t : TenantId) (sq : Nat) (tag : BitVec 32)
  /-- QUEUE_CREATE: Command creating an SQ, CQ or RQ (R448). -/
  | queueCreate (t : TenantId) (sq : Nat) (tag : BitVec 32)
  /-- QUEUE_DELETE: Command deleting a queue (R460). -/
  | queueDelete (t : TenantId) (sq : Nat) (tag : BitVec 32)
  /-- PLAN_ADMIT: Command admitting a plan image after ordered tests, binding and slot claims (R186). -/
  | planAdmit (t : TenantId) (sq : Nat) (tag : BitVec 32) (image : Option (List (BitVec 8))) (writable : Bool)
  /-- PLAN_WITHDRAW: Command withdrawing a plan at the next edge or after a named step (R460). -/
  | planWithdraw (t : TenantId) (sq : Nat) (tag : BitVec 32)
  /-- JOB_LAUNCH: Command launching a job at launch count LC with its seal map and job key (R195). -/
  | jobLaunch (t : TenantId) (sq : Nat) (tag : BitVec 32) (sealMap : Option (List (BitVec 8)))
  /-- JOB_QUERY: Command returning a job's seal state, step, beat and attempt (R460). -/
  | jobQuery (t : TenantId) (sq : Nat) (tag : BitVec 32)
  /-- DATA_PUT: Command copying host memory into the tenant's HBM or Commons by DMA (R460). -/
  | dataPut (t : TenantId) (sq : Nat) (tag : BitVec 32) (data : Option (List (BitVec 8)))
  /-- DATA_GET: Command copying the tenant's HBM or Commons into host memory by DMA (R460). -/
  | dataGet (t : TenantId) (sq : Nat) (tag : BitVec 32) (writable : Bool) (found : List MemErr)
  /-- FABRIC_CONFIG: Command loading the fabric configuration block and meadow ID (R461). -/
  | fabricConfig (t : TenantId) (sq : Nat) (tag : BitVec 32) (block : Option (List (BitVec 8)))
  /-- SLICE_CREATE: Command creating a job slice with its key (R287). -/
  | sliceCreate (t : TenantId) (sq : Nat) (tag : BitVec 32)
  /-- SLICE_DELETE: Command deleting a slice (R460). -/
  | sliceDelete (t : TenantId) (sq : Nat) (tag : BitVec 32)
  /-- LINK_ENCRYPT: Command enabling or disabling encryption on a global port (R289). -/
  | linkEncrypt (t : TenantId) (sq : Nat) (tag : BitVec 32) (agreed : Bool)
  /-- TXN_BEGIN: Command opening a transaction (R462). -/
  | txnBegin (t : TenantId) (sq : Nat) (tag : BitVec 32)
  /-- TXN_COMMIT: Command evaluating staged commands and scheduling them for an edge (R462). -/
  | txnCommit (t : TenantId) (sq : Nat) (tag : BitVec 32)
  /-- TXN_ROLLBACK: Command discarding the open transaction (R463). -/
  | txnRollback (t : TenantId) (sq : Nat) (tag : BitVec 32)
  /-- TXN_QUERY: Command reporting the open transaction (R460). -/
  | txnQuery (t : TenantId) (sq : Nat) (tag : BitVec 32)
  /-- CKPT_TARGET_SET: Command setting or removing an NVMe over Fabrics target and connecting to it (R392). -/
  | ckptTargetSet (t : TenantId) (sq : Nat) (tag : BitVec 32) (desc : Option (List (BitVec 8)))
  /-- CKPT_KEY_SET: Command setting or unsetting a manifest key (R404). -/
  | ckptKeySet (t : TenantId) (sq : Nat) (tag : BitVec 32)
  /-- SNAP_SCHEDULE: Command installing a snapshot schedule block for a job (R381). -/
  | snapSchedule (t : TenantId) (sq : Nat) (tag : BitVec 32) (block : Option (List (BitVec 8)))
  /-- SNAP_NOW: Command to the manifest writer naming the next snapshot step for all modules (R384). -/
  | snapNow (t : TenantId) (sq : Nat) (tag : BitVec 32)
  /-- SPOOL_RATE: Command setting the spool drain rate (R395). -/
  | spoolRate (t : TenantId) (sq : Nat) (tag : BitVec 32)
  /-- SNAP_ABANDON: Command failing a named snapshot unless its manifest write has begun (R405). -/
  | snapAbandon (t : TenantId) (sq : Nat) (tag : BitVec 32)
  /-- RESTORE: Command loading a snapshot into a job from the file store (R399). -/
  | restore (t : TenantId) (sq : Nat) (tag : BitVec 32) (buf : Option (List (BitVec 8))) (man : Option (List (BitVec 8))) (reads : Option (List (List (List (BitVec 8)))))
  /-- SNAP_QUERY: Command returning the last complete snapshot and slot states (R404). -/
  | snapQuery (t : TenantId) (sq : Nat) (tag : BitVec 32)
  /-- SENTINEL_LOAD: Command verifying, storing and optionally forwarding a sentinel package (R431). -/
  | sentinelLoad (t : TenantId) (sq : Nat) (tag : BitVec 32) (package : Option (List (BitVec 8)))
  /-- SENTINEL_RUN: Command starting a sentinel run on a unit, die or whole module (R435). -/
  | sentinelRun (t : TenantId) (sq : Nat) (tag : BitVec 32)
  /-- SUSPECT_SWAP: Command making the module report itself failed after mirror votes so ballast replaces it (R435). -/
  | suspectSwap (t : TenantId) (sq : Nat) (tag : BitVec 32) (ballast : Bool)
  /-- SNAP_STEP_NOTICE: The manifest writer's VC7 message naming the snapshot step reaches a module (R384). -/
  | snapStepNotice (plan : Nat) (step : StepNo)
  /-- SNAPSHOT_COPY_DONE: Copy of CUR extents into a snapshot slot completes and draining starts (R386). -/
  | snapshotCopyDone (plan : Nat) (found : List MemErr)
  /-- STRIPE_FLUSHED: A module flushes all its stripes and sends stripe reports to the manifest writer (R396). -/
  | stripeFlushed (plan : Nat) (seq : BitVec 32)
  /-- STRIPE_REPORT_RECEIVED: The manifest writer receives a stripe report and, when complete, writes the manifest and SNAP_COMPLETE (R396). -/
  | stripeReportReceived (plan : Nat) (seq : BitVec 32) (rep : StripeRep)
  /-- MANIFEST_WAIT_TIMEOUT: Stripe reports incomplete within MANIFEST_WAIT; snapshot fails with TIMEOUT (R396). -/
  | manifestWaitTimeout (plan : Nat) (seq : BitVec 32)
  /-- SNAP_COMPLETE_NOTICE: A module told the snapshot is complete frees its slot after its drain (R396). -/
  | snapCompleteNotice (plan : Nat) (seq : BitVec 32) (step : StepNo)
  /-- SNAP_FAILURE_NOTICE: A snapshot failure cause reaches the writer or a module, which frees slots and posts SNAP_FAILED (R401). -/
  | snapFailureNotice (plan : Nat) (seq : BitVec 32) (cause : Nat)
  /-- NVME_COMPLETION: An NVMe command completes; errors are retried up to 3 times then STORE_ERROR (R394). -/
  | nvmeCompletion (id : Nat) (ok : Bool) (lim : Nat) (found : List MemErr)
  /-- NVME_CONNECTION_LOST: A target connection is lost and re-established (R394). -/
  | nvmeConnectionLost (tenant : TenantId) (target : Nat)
  /-- TARGET_UNCONNECTED_TIMEOUT: A target unconnected for 30 s fails the snapshot or restore with STORE_ERROR (R394). -/
  | targetUnconnectedTimeout (tenant : TenantId) (target : Nat)
  /-- KEEP_ALIVE: The spool sends an NVMe Keep Alive every 5 s (R393). -/
  | keepAlive
  /-- CLEAR_COUNTS: PART_MX_FAULT write clearing the mismatch and check-path counts (R85). -/
  | clearCounts (part : Nat)
  /-- PART_HOLD_STATS_CLEAR: Write clearing HOLD_CYCLES, OVF and PART_LATE_COUNTS (R123). -/
  | partHoldStatsClear (part : Nat)
  /-- PART_VS_SKIP_CLEAR: Write clearing SKIPPED and OVF (R155). -/
  | partVsSkipClear (part : Nat)
  /-- PART_BEAT_STATS_CLEAR: Write clearing SLIPS and OVF (R201). -/
  | partBeatStatsClear (part : Nat)
  /-- PART_MEM_ECC_CLEAR: Write clearing every count of PART_MEM_ECC and PART_MEM_ECC_CM (R247). -/
  | partMemEccClear (part : Nat)
  /-- STREAM_STATE_FLAG_CLEAR: RW1C write clearing hold and poison flags of the selected channel (R122). -/
  | streamStateFlagClear (part : Nat) (flags : BitVec 3)
  /-- LOST_SEEN_CLEAR: RW1C write clearing LOST_SEEN of VZ_SYNC_STATUS (R199). -/
  | lostSeenClear
  /-- CLEAR_ERR: LD_PORT_STATUS write clearing every count of LD_PORT_ERR (R292). -/
  | clearErr (port : Nat)
  /-- PORT_DISABLE_WRITE: Write of DISABLE holding a port in OFF or letting it train (R292). -/
  | portDisableWrite (port : Nat) (disable : Bool)
  /-- CS_ABORTS_CLEAR: Write clearing the abort counts of LD_CS_ABORTS (R336). -/
  | csAbortsClear (ld : Nat)
  /-- KITE_STATS_CLEAR: Write clearing OPS, OVF and EPOCH_DROPS (R337). -/
  | kiteStatsClear (ld : Nat)
  /-- REPLAY_STATS_CLEAR: Write clearing replay counts of KD_REPLAY_STATS (R378). -/
  | replayStatsClear
  /-- CLEAR_HW: Write setting hamper HIGH_WATER to USED (R379). -/
  | clearHw (k : Nat)
  /-- SPOOL_ERRS_CLEAR: Write clearing spool error counts (R408). -/
  | spoolErrsClear
  /-- SPOOL_BYTES_CLEAR: Write clearing LBAS and OVF (R409). -/
  | spoolBytesClear
  /-- CLEAR_OVR: ERR_LOG_READ write clearing OVERRUN (R437). -/
  | clearOvr
  /-- TEN_STATUS_CLEAR: Write clearing UNSOL_LOST and EVENTS_UNPOSTED (R470). -/
  | tenStatusClear (tenant : TenantId)
  /-- ADMIN_QUEUE_ENABLE: Write of 1 to ENABLE starting the admin queue pair from the set bases and sizes (R471). -/
  | adminQueueEnable (tenant : TenantId)
  /-- ADMIN_QUEUE_DISABLE: Write of 0 to ENABLE stopping the admin queues after pending replies (R471). -/
  | adminQueueDisable (tenant : TenantId)
  /-- APERTURE_ERRS_CLEAR: Write clearing the aperture refusal counts (R473). -/
  | apertureErrsClear (tenant : TenantId)
  /-- INPUT_FAULT_CLEAR: RW1C write clearing INPUT_FAULT while both halt channels read released (R521). -/
  | inputFaultClear
  /-- PWR_LOOP_CLEAR: Write clearing the loop saturation counts (R522). -/
  | pwrLoopClear
  /-- THROTTLE_TIME_CLEAR: Write clearing US and OVF of THM_THROTTLE_TIME (R524). -/
  | throttleTimeClear
  /-- CELOTH_COUNT_LOW_READ: Read of bytes 0 to 3 of VZ_CELOTH_COUNT latching bytes 4 to 7 (R198). -/
  | celothCountLowRead
  /-- REGISTER_WRITE: Write to a register field with no behaviour of its own, stored per its access code (R7). -/
  | registerWrite (a : RegAcc) (v : BitVec 64)
  /-- REGISTER_ACCESS: Register access of bad size or alignment returns all-ones or is discarded, with a record (R6). -/
  | registerAccess (a : RegAcc) (v : Option (BitVec 64))
  /-- I3C_MODULE_IDENT: I3C status map command 0x00 returning VZ_MODULE_IDENT (R517). -/
  | i3cModuleIdent
  /-- I3C_STATUS_BYTES: I3C command 0x01 returning phase, trip, halt, input fault and out-of-service bytes (R517). -/
  | i3cStatusBytes
  /-- I3C_HOTTEST_TEMP: I3C command 0x02 returning the hottest die temperature (R517). -/
  | i3cHottestTemp
  /-- I3C_INPUT_POWER: I3C command 0x03 returning input power (R517). -/
  | i3cInputPower
  /-- I3C_FAULT_COUNT: I3C command 0x04 returning the number of fault history records (R517). -/
  | i3cFaultCount
  /-- I3C_FAULT_RECORD_NEXT: I3C command 0x05 returning the next fault history record and advancing the position (R517). -/
  | i3cFaultRecordNext
  /-- I3C_DYNAMIC_ADDRESS: SETDASA or ENTDAA assigns the I3C dynamic address (R517). -/
  | i3cDynamicAddress (addr : BitVec 7)
  /-- CLEAR_FAULTS: PMBus command clearing status faults (R517). -/
  | clearFaults
  /-- CAPABILITY: PMBus command returning capability (R517). -/
  | capability
  /-- STATUS_BYTE: PMBus status byte read (R517). -/
  | statusByte
  /-- STATUS_WORD: PMBus status word read (R517). -/
  | statusWord
  /-- STATUS_INPUT: PMBus input status read (R517). -/
  | statusInput
  /-- STATUS_TEMPERATURE: PMBus temperature status read (R517). -/
  | statusTemperature
  /-- READ_VIN: PMBus input voltage read (R517). -/
  | readVin
  /-- READ_IIN: PMBus input current read (R517). -/
  | readIin
  /-- READ_PIN: PMBus input power read (R517). -/
  | readPin
  /-- READ_TEMPERATURE_1: PMBus hottest die temperature read (R517). -/
  | readTemperature1
  /-- READ_TEMPERATURE_2: PMBus coolant outlet temperature read (R517). -/
  | readTemperature2
  /-- PMBUS_REVISION: PMBus revision read returning 0x44 (R517). -/
  | pmbusRevision
  /-- MFR_ID: PMBus manufacturer ID read (R517). -/
  | mfrId
  /-- MFR_MODEL: PMBus model read (R517). -/
  | mfrModel
  /-- MFR_REVISION: PMBus revision string read (R517). -/
  | mfrRevision
  /-- PMBUS_WRITE_REFUSED: Any other PMBus write is refused with NACK (R517). -/
  | pmbusWriteRefused
  /-- BYPASS: JTAG BYPASS instruction (R517). -/
  | bypass
  /-- IDCODE: JTAG IDCODE instruction returning 0x3201_4B87 (R517). -/
  | idcode
  /-- SAMPLE_PRELOAD: JTAG SAMPLE/PRELOAD instruction (R517). -/
  | samplePreload
  /-- EXTEST: JTAG EXTEST instruction (R517). -/
  | extest
  /-- CLAMP: JTAG CLAMP instruction (R517). -/
  | clamp
  /-- HIGHZ: JTAG HIGHZ instruction (R517). -/
  | highz
  /-- SPDM_REQUEST: An SPDM 1.2 request over MCTP answered by Volez with certificates, measurements or sessions (R518). -/
  | spdmRequest (req : SpdmReq)
  /-- CONTROL_CORE_LOAD: A control core load, local or remote on VC6, served through its caches, the directory, the Commons cache and HBM, with a data abort on poison (R240). -/
  | controlCoreLoad (plan : Nat) (part : Nat) (core : Nat) (addr : BitVec 64) (lineErr : Bool) (found : List MemErr)
  /-- CONTROL_CORE_STORE: A control core store to cached memory, a granted uncached range or a remote address, ordered by the directory (R241). -/
  | controlCoreStore (plan : Nat) (part : Nat) (core : Nat) (addr : BitVec 64) (bytes : List (BitVec 8)) (lineErr : Bool) (found : List MemErr)
  /-- LOAD_RESERVED: A control core load-reserved that sets a reservation on one line (R243). -/
  | loadReserved (plan : Nat) (part : Nat) (core : Nat) (addr : BitVec 64) (found : Lined (List MemErr))
  /-- STORE_CONDITIONAL: A control core store-conditional that succeeds only if no other core of the die gained ownership since the reservation (R243). -/
  | storeConditional (plan : Nat) (part : Nat) (core : Nat) (addr : BitVec 64) (bytes : Lined (List (BitVec 8)))
  /-- CLEAN: A control core CLEAN writing a line to the Commons cache and HBM (R242). -/
  | clean (plan : Nat) (part : Nat) (core : Nat) (addr : Lined (BitVec 64))
  /-- INVAL: A control core INVAL dropping a cached line before reading data produced outside the die (R240). -/
  | inval (plan : Nat) (part : Nat) (core : Nat) (addr : BitVec 64)
  /-- FENCE: A control core FENCE waiting until earlier CLEANs and stores have completed (R242). -/
  | fence (plan : Nat) (part : Nat) (core : Nat)
  /-- CONTROL_CORE_TOKEN_POST: A control core posts a token of its own choosing to a channel endpoint, recorded in the hamper as CONTROL (R110). -/
  | controlCoreTokenPost (plan : Nat) (part : Nat) (lsid : Lsid) (ch : Chan) (t : Token)
  /-- INPUT_OUT_OF_RANGE: The 48 V input leaves or re-enters the 40 to 60 V operating range without crossing a turn-off point, asserting or releasing ALERT_N (R500). -/
  | inputOutOfRange (vin : BitVec 16)
  /-- OVERVOLTAGE_TURN_ON: After an overvoltage turn-off, the input falls through 60 V and the module turns on again (R500). -/
  | overvoltageTurnOn
  /-- TRIP_RESTART: After a trip and a PWR_OK cycle, the module starts its rails once every die sensor reads below 100 °C (R507). -/
  | tripRestart (readings : List Reading)
  /-- LINK_KEY_AGREEMENT: A peer Volez's SPDM secured-session message over VC7 agreeing link keys and salts, answered and installed (R289). -/
  | linkKeyAgreement (port : Nat) (tx : Option (BitVec 256 × BitVec 32)) (rx : Option (BitVec 256))
  /-- BALLAST_CLAIM: A warm ballast position is claimed by a failed member's twin and starts its 200 ms entry check (R371). -/
  | ballastClaim (twin : Nat)
  /-- RESET_START_DELAY: 1 ms after replying to a module warm or tenant 0 RESET command, Volez starts the reset (R488). -/
  | resetStartDelay
  /-- TARGET_CONNECT_TIMEOUT: A target connection not made within 10 s fails CKPT_TARGET_SET with TARGET_UNREACHABLE (R393). -/
  | targetConnectTimeout (tenant : TenantId) (target : Nat)
deriving DecidableEq, Repr

end Sys2Proof
end

