-- ==== Sys2Proof/Config.lean ====
section
/-!
DEFINITION. What the spec leaves open: free values without a body, so that nothing can be proved about which value they take.
-/

namespace Sys2Proof.Config

/-- A free value, fresh for each number `n` the machine's counter gives (notes/assumptions/7). -/
opaque freeWord : Nat → BitVec 64

/-- How far, in ulps, the result of a special function of 05 R136 lies from the exact result rounded to FP32, for an opcode, its MOD bit and
an input: the spec gives a bound and no bits (notes/assumptions/8). The model uses it cut to the bound. -/
opaque ulpOffset : Nat → Bool → BitVec 32 → Int

/-- The selection key of the router (05 R151) where the sum of a logit and its bias is NaN: the spec gives no rank to a NaN key
(notes/assumptions/24). -/
opaque topkKey : BitVec 32 → BitVec 32 → BitVec 32

/-- The DRAM row of an HBM key (07 R226): the spec names rows as recording units and gives no row size or place
(notes/assumptions/12). -/
opaque dramRow : Nat → Nat

/-- The signature and certificate checks of the root of trust, whose keys the spec does not give (notes/assumptions/9): which check, and the
bytes it covers. -/
opaque signatureOk : Nat → List (BitVec 8) → Bool

/-- AES-256-GCM over a frame (08 R289), whose bits the spec leaves to the standard (notes/assumptions/9): key, IV, header and payload to the
encrypted payload with its tag. -/
opaque gcmSeal : BitVec 256 → BitVec 96 → List (BitVec 8) → List (BitVec 8) → List (BitVec 8)

/-- What the header of a firmware image declares (15 R515), whose layout the spec does not give (notes/assumptions/9): FW_MAJOR in bits [15:0], FW_MINOR in
[31:16], the security version in [95:32]. -/
opaque fwHeader : List Byte → BitVec 96

/-- The module's serial number (13 Table 13-9 MODULE_INFO), which is each module's own. -/
opaque serial : BitVec 64

/-- SHA-384 digests of what the model holds no bytes of (15 Table 15-13): which object, and what names it (notes/assumptions/9). -/
opaque digest384 : Nat → List Byte → List Byte

/-- The certificate chain of slot 0 and the session messages of SPDM (15 R518), whose bytes follow from device keys (notes/assumptions/9). -/
opaque spdmAnswer : Nat → List Byte

/-- What the process monitors of a die read (12 Table 12-9), by die code and index: the silicon's own (notes/assumptions/5). -/
opaque processReading : Nat → Nat → BitVec 20

end Sys2Proof.Config
end

