-- ==== Sys2Proof/Machine/Bits.lean ====
section
/-!
DEFINITION. Bit fields, byte order and small list helpers. Every multi-byte field is little-endian and bits
count from bit 0 of byte 0 (00_scope.md R5).
-/

namespace Sys2Proof.Machine

/-- The field `[lo + w - 1 : lo]` of `n`, as a number (R5). -/
def field (n lo w : Nat) : Nat := (n >>> lo) % 2 ^ w

/-- Bit `i` of `n`. -/
def bitOf (n i : Nat) : Bool := n.testBit i

/-- The number 1 or 0 of a truth value. -/
def boolNat (b : Bool) : Nat := if b then 1 else 0

/-- `w` bits of `n`, placed at bit `lo`. -/
def place (n lo w : Nat) : Nat := (n % 2 ^ w) <<< lo

/-- The little-endian number held in `bs` (R5). -/
def natLE : List Byte → Nat
  | [] => 0
  | b :: bs => b.toNat + 256 * natLE bs

/-- The `k` little-endian bytes of `n` (R5). -/
def bytesLE : Nat → Nat → List Byte
  | 0, _ => []
  | k + 1, n => BitVec.ofNat 8 n :: bytesLE k (n / 256)

/-- `n` bytes of `bs` from offset `i`, short when `bs` ends. -/
def slice (bs : List Byte) (i n : Nat) : List Byte := (bs.drop i).take n

/-- The little-endian field of `n` bytes at offset `i`. -/
def fieldAt (bs : List Byte) (i n : Nat) : Nat := natLE (slice bs i n)

/-- `bs` cut or padded with zero bytes to exactly `n` bytes. -/
def padTo (n : Nat) (bs : List Byte) : List Byte := (bs.take n) ++ List.replicate (n - bs.length) 0

/-- `bs` with the bytes `new` written at offset `i`. -/
def overwrite (bs : List Byte) (i : Nat) (new : List Byte) : List Byte :=
  bs.take i ++ new ++ bs.drop (i + new.length)

/-- The number of bits of `n` below bit `w` that are 1. -/
def popcount (w n : Nat) : Nat := ((List.range w).filter (fun i => n.testBit i)).length

/-- The bit numbers below `w` at which `n` is 1, ascending. -/
def onesOf (w n : Nat) : List Nat := (List.range w).filter (fun i => n.testBit i)

/-- Whether `i` lies in `[lo, lo + n)`. -/
def inRange (i lo n : Nat) : Bool := decide (lo ≤ i) && decide (i < lo + n)

/-- Whether `[a, a + n)` lies inside `[b, b + m)`. -/
def within (a n b m : Nat) : Bool := decide (b ≤ a) && decide (a + n ≤ b + m)

/-- Whether `[a, a + n)` and `[b, b + m)` share an element. -/
def overlaps (a n b m : Nat) : Bool := decide (a < b + m) && decide (b < a + n) && decide (0 < n) && decide (0 < m)

/-- The value stored under `k`. -/
def lookup? {α β : Type} [BEq α] (k : α) : List (α × β) → Option β
  | [] => none
  | (k', v) :: rest => if k' == k then some v else lookup? k rest

/-- The association list with `k` bound to `v`, in place where `k` is already bound, else at the end. -/
def insertKey {α β : Type} [BEq α] (k : α) (v : β) : List (α × β) → List (α × β)
  | [] => [(k, v)]
  | (k', v') :: rest => if k' == k then (k, v) :: rest else (k', v') :: insertKey k v rest

/-- The association list without `k`. -/
def eraseKey {α β : Type} [BEq α] (k : α) (l : List (α × β)) : List (α × β) := l.filter (fun p => !(p.1 == k))

/-- `x` in place of element `i`; the list as it is when it has no element `i`. -/
def setAt {α : Type} (l : List α) (i : Nat) (x : α) : List α := l.set i x

/-- `f` applied to element `i`. -/
def modAt {α : Type} (l : List α) (i : Nat) (f : α → α) : List α := l.modify i f

/-- The first `n` positions of `f`, as a list. -/
def tabulate {α : Type} (n : Nat) (f : Nat → α) : List α := (List.range n).map f

/-- Pieces of `n` elements each, in order; the last may be shorter. `fuel` bounds the count of pieces. -/
def chunksAux {α : Type} (n : Nat) : Nat → List α → List (List α)
  | 0, _ => []
  | _, [] => []
  | fuel + 1, l => l.take n :: chunksAux n fuel (l.drop n)

/-- `l` cut into pieces of `n` elements each. -/
def chunks {α : Type} (n : Nat) (l : List α) : List (List α) := chunksAux n l.length l

/-- The least element of a list of numbers. -/
def listMin : List Nat → Nat
  | [] => 0
  | x :: xs => xs.foldl min x

/-- The greatest element of a list of numbers, 0 for none. -/
def listMax (l : List Nat) : Nat := l.foldl max 0

/-- `n / d`, rounded up. -/
def ceilDiv (n d : Nat) : Nat := (n + d - 1) / d

/-- Whether a list of numbers holds no element twice. -/
def distinct : List Nat → Bool
  | [] => true
  | x :: xs => !(xs.contains x) && distinct xs

/-- Whether a relation holds between every element of a list and every later one. -/
def laterAll {α : Type} (r : α → α → Bool) : List α → Bool
  | [] => true
  | x :: xs => xs.all (r x) && laterAll r xs

/-- Insertion of `x` into a rising list; nothing is added when it is there. -/
def insertRising (x : Nat) : List Nat → List Nat
  | [] => [x]
  | y :: ys => if x < y then x :: y :: ys else if x = y then y :: ys else y :: insertRising x ys

/-- The sum of a list of numbers. -/
def sumNat (l : List Nat) : Nat := l.foldl (· + ·) 0

/-- The sum of a list of integers. -/
def sumInt (l : List Int) : Int := l.foldl (· + ·) 0

/-- Two's complement of `n`, read as a signed `w`-bit integer. -/
def signed (w n : Nat) : Int := if n.testBit (w - 1) then (n : Int) - 2 ^ w else n

/-- The `w`-bit two's complement encoding of `i`. -/
def unsigned (w : Nat) (i : Int) : Nat := (i % (2 ^ w : Int)).toNat

/-- `x` where `lo ≤ x ≤ hi`, else the nearer end. -/
def clampInt (lo hi x : Int) : Int := if x < lo then lo else if hi < x then hi else x

end Sys2Proof.Machine
end

