-- ==== Sys2Proof/Machine/Store.lean ====
section
/-!
DEFINITION. The module's memories as one sparse store: station memory, the Commons and HBM (07), keyed by physical place, with
one poison bit per 64-byte unit (07 R225). Cells stand in rising order and no cell holds what an unlisted address reads as (0);
poisoned units stand in rising order. Keys: station memory of die d, physical bank b, byte o at (d * 33 + b) * 2^24 + o; the
Commons, partition p, granule g at 2^40 + (p * 48 + g) * 2^24 + o; HBM, stack h, physical offset o at 2^41 + h * 2^36 + o.
-/

namespace Sys2Proof.Machine

/-- The memories: listed bytes and poisoned units. An unlisted byte reads 0 and an unlisted unit is not poisoned
(DESIGN CHOICE, notes/assumptions/2). -/
structure Mem where
  cells : List Host.Cell := []
  poison : List Nat := []
deriving DecidableEq, Repr

/-- A write to the store: bytes at a key, `n` zero bytes, `n` bytes copied from another key, or the poison bits of `n` units. -/
inductive Wr where
  | bytes (key : Nat) (bs : List Byte)
  | zero (key n : Nat)
  | copy (dst src n : Nat)
  | poison (unit n : Nat) (b : Bool)
deriving DecidableEq, Repr

/-- Whether the numbers of a list rise strictly. -/
def rising : List Nat → Bool
  | [] => true
  | [_] => true
  | x :: y :: r => decide (x < y) && rising (y :: r)

/-- The canonical form: strictly rising keys, no listed zero byte, strictly rising poisoned units. -/
def Memory.wf (m : Mem) : Bool :=
  rising (m.cells.map Prod.fst) && m.cells.all (fun c => !(c.2 == 0)) && rising m.poison

/-- The byte at a key: what an unlisted key reads as is 0. -/
def cellAt (k : Nat) : List Host.Cell → Byte
  | [] => 0
  | c :: r => if c.1 = k then c.2 else cellAt k r

/-- The byte the store holds at a key. -/
def memByte (m : Mem) (k : Nat) : Byte := cellAt k m.cells

/-- `n` bytes from key `k`, out of the listed cells at or above it. -/
def fillFrom : Nat → Nat → List Host.Cell → List Byte
  | 0, _, _ => []
  | n + 1, k, [] => 0 :: fillFrom n (k + 1) []
  | n + 1, k, c :: r => if c.1 = k then c.2 :: fillFrom n (k + 1) r else 0 :: fillFrom n (k + 1) (c :: r)

/-- The `n` bytes the store holds from a key on. -/
def memBytes (m : Mem) (k n : Nat) : List Byte :=
  fillFrom n k (m.cells.filter (fun c => decide (k ≤ c.1) && decide (c.1 < k + n)))

/-- The cells that write `bs` at `k`: zero bytes are not listed. -/
def cellsFrom (k : Nat) : List Byte → List Host.Cell
  | [] => []
  | b :: r => if b = 0 then cellsFrom (k + 1) r else (k, b) :: cellsFrom (k + 1) r

/-- The cells below `k`, then `new`, then the cells from `k + n` on. -/
def spliceCells (k n : Nat) (new cells : List Host.Cell) : List Host.Cell :=
  cells.filter (fun c => decide (c.1 < k)) ++ new ++ cells.filter (fun c => decide (k + n ≤ c.1))

/-- The listed cells of `[src, src + n)`, moved to `dst`. -/
def movedCells (dst src n : Nat) (cells : List Host.Cell) : List Host.Cell :=
  (cells.filter (fun c => decide (src ≤ c.1) && decide (c.1 < src + n))).map (fun c => (c.1 - src + dst, c.2))

/-- One write applied to the store. -/
def applyWr (m : Mem) : Wr → Mem
  | .bytes k bs => { m with cells := spliceCells k bs.length (cellsFrom k bs) m.cells }
  | .zero k n => { m with cells := spliceCells k n [] m.cells }
  | .copy d s n => { m with cells := spliceCells d n (movedCells d s n m.cells) m.cells }
  | .poison u n b =>
    { m with poison := m.poison.filter (fun x => decide (x < u)) ++ (if b then List.range' u n else []) ++
                         m.poison.filter (fun x => decide (u + n ≤ x)) }

/-- Writes applied in order. -/
def applyWrs (m : Mem) (ws : List Wr) : Mem := ws.foldl applyWr m

/-- Whether any of the `n` units from unit `u` is poisoned. -/
def memPoisoned (m : Mem) (u n : Nat) : Bool := m.poison.any (fun x => decide (u ≤ x) && decide (x < u + n))

/-- The key of a byte of station memory: die, physical bank, byte in the bank. -/
def smKey (die bank off : Nat) : Nat := (die * 33 + bank) * 2 ^ 24 + off

/-- The key of a byte of the Commons: partition half, granule, byte in the granule. -/
def cmKey (part gran off : Nat) : Nat := 2 ^ 40 + (part * 48 + gran) * 2 ^ 24 + off

/-- The key of a byte of HBM: stack and physical stack offset. -/
def hbmKey (stack off : Nat) : Nat := 2 ^ 41 + stack * 2 ^ 36 + off

/-- Whether a key lies in HBM. -/
def isHbmKey (k : Nat) : Bool := decide (2 ^ 41 ≤ k)

end Sys2Proof.Machine
end

