-- ==== Sys2Proof/Machine/HealthParts.lean ====
section
/-!
DEFINITION. Health state (12_health_and_errors.md): monitors, sentinel packages and runs, the late-to-seal score, and whether the
module has failed permanently. Every field's default is its value at reset; a default the spec does not give is named in
notes/assumptions (3).
-/

namespace Sys2Proof.Machine

/-- A sentinel test entry (Table 12-11). -/
structure SentTest where
  id : BitVec 16
  target : BitVec 8
  entry : Bool
deriving DecidableEq, Repr

/-- A stored sentinel package (R429, R431): its sequence number, tests and image. -/
structure SentPkg where
  seq : BitVec 32
  tests : List SentTest
  image : List (BitVec 8)
deriving DecidableEq, Repr

/-- A sentinel run in progress (R433, R435): its scope (0 unit, 1 die, 2 full), the die, BLOCK and instance it names, and whether a test of it failed. -/
structure SentRun where
  scope : Nat
  die : Nat
  block : Nat
  inst : Nat
  failed : Bool := false
deriving DecidableEq, Repr

/-- Monitors, sentinel state and the late-to-seal score. Readings are listed by (die, index); an unlisted temperature or voltage reads
the model's reset reading (notes/assumptions/5). `window` holds the last 1,024 sealed steps as (plan, step, counted last), newest
first, `lastLate` λ of the last sealed step in µs. `retests` holds failed tests waiting for their second run, as (test, die, BLOCK, instance), `unitHist` the
failure history of collective stations and kite units (Table 12-8), `agingWarned` the aging pairs with an AGING_WARN, `passedAt` the end of the last full run that passed every test (10 R370), and `volezHist` the lockstep mismatches. -/
structure Health where
  temps : List ((Nat × Nat) × BitVec 16) := []
  volts : List ((Nat × Nat) × BitVec 16) := []
  aging : List ((Nat × Nat) × BitVec 32) := []
  peakTemp : List ((Nat × Nat) × BitVec 16) := []
  peakVolt : List ((Nat × Nat) × BitVec 16) := []
  excluded : List (Nat × Nat) := []
  agingWarned : List (Nat × Nat) := []
  monSel : BitVec 16 := 0
  eventEn : BitVec 5 := 0
  pkg : Option SentPkg := none
  failCount : BitVec 16 := 0
  doneAt : BitVec 64 := 0
  passedAt : Option (BitVec 64) := none
  run : Option SentRun := none
  fullPending : Bool := false
  unitHist : List ((Nat × Nat × Nat) × BitVec 64) := []
  retests : List (BitVec 16 × Nat × Nat × Nat) := []
  suspect : Bool := false
  agingSuspect : Bool := false
  threshold : BitVec 16 := 0x40
  lateMin : BitVec 16 := 0xA
  lastLate : BitVec 16 := 0
  window : List (Nat × BitVec 40 × Bool) := []
  swapPending : Bool := false
  permFailed : Bool := false
  warmAtEdge : Bool := false
  volezHist : List (BitVec 64) := []
  volezStandby : Bool := false
deriving DecidableEq, Repr

/-! ### Reset, hang capture and escalation (14) -/

/-- A suspect of a hang (14 Table 14-9): its plan, tenant, whether it was held, step, beat and cycle at detection, and the result of its replay. -/
structure Suspect where
  plan : Nat
  tenant : BitVec 8
  held : Bool
  step : StepNo
  beat : Nat
  cycle : Nat
  result : Nat := 0
deriving DecidableEq, Repr

/-- A hang or a commanded capture on a partition (14 R489 to R491): its cause (Table 14-8), the capture slot, when it began, the job that hung, the suspects in
ascending plan handle, the one released (an index, none before the reset is over), the outcome, the suspect named guilty, and the capture's
duration and VALID. -/
structure HangRun where
  part : Nat
  cause : Nat
  slot : Nat
  time : BitVec 64
  plan : Nat
  suspects : List Suspect := []
  released : Option Nat := none
  outcome : Nat := 0
  guilty : Nat := 0xFF
  capUs : Nat := 0
  valid : Bool := false
deriving DecidableEq, Repr

/-- The reset controller (14). `phase` is RST_STATUS.PHASE, 0 while a module-reach source holds the module in reset; `reach` the latched reach of the last module
episode (1 cold, 2 module warm). The four flags are the level sources that are asserted. `sources` are the sources of the episode that runs, in the bits of
RST_CAUSE. `parts` lists the partitions in a partition episode, `capturing` those being captured. `warmTimes` and `partTimes` are the counted resets. `hangs` are
hangs whose suspects are not yet settled, `newest` the newest capture slot of each partition. `outActed` says that the actions of R493 are done, `mustPass` that a cold reset has put a module that was out of service
back until a full sentinel run passes, and `partCold` the partitions so placed. `delayed` is a reset that starts 1 ms after its reply: module warm, or the tenant named. -/
structure Rst where
  phase : Nat := 6
  reach : Nat := 1
  latched : Nat := 0
  pgLow : Bool := false
  pwrOkLow : Bool := false
  resetLow : Bool := false
  perstLow : Bool := false
  sources : BitVec 8 := 0
  escCause : BitVec 8 := 0
  release : BitVec 64 := 0
  lastSources : BitVec 8 := 0
  lastEsc : BitVec 8 := 0
  lastRelease : BitVec 48 := 0
  parts : List Nat := []
  capturing : List Nat := []
  warmTimes : List (BitVec 64) := []
  partTimes : List (Nat × BitVec 64) := []
  moduleOut : Bool := false
  outActed : Bool := false
  partCold : List Nat := []
  mustPass : Bool := false
  hangs : List HangRun := []
  newest : List (Nat × Nat) := []
  delayed : Option (Option (BitVec 8)) := none
  capSel : BitVec 64 := 0
  recovery : Bool := false
  flashOwned : Bool := false
  faultN : Bool := false
deriving DecidableEq, Repr

end Sys2Proof.Machine
end

