-- ==== Sys2Proof/Machine/Parts.lean ====
section
/-!
DEFINITION. The parts of the module's state, by chapter of the spec: compute dies with their arrays, streams, memory and
control cores (03, 04, 05, 07), beats, plans and jobs (06, 10), the error log (12). Every field's default is its value at
reset; a default the spec does not give is named in notes/assumptions (3, 4, 5).
-/

namespace Sys2Proof.Machine

/-! ### The compute dies -/

/-- The state of one physical array (R77). -/
inductive ArrSt where
  | active | ballast | retired
deriving DecidableEq, Repr

/-- Arrays and thin stations of a compute die (03). `rowHist` is the failure history of R78: (array, DPU row, time of the last
failure). `unitHist` is that of Table 12-8 for TV, VS, GS and XS units: (BLOCK, instance, time). `retiring` holds arrays whose
retirement is decided and waits for a beat edge (R79). `acc` holds the accumulator registers with their parity bits (R55, R82): ((0 array, instance,
4 bank + 2i + j) the 1,024 of a sub-tile by row and column, (1 thin station, instance, bank) its 512 by vector and output row); one never written holds +0.0
(`MxPart.regs`). `abuf` and `bbuf` hold the arrays' operand buffers of 64 KiB each (R60). `vbuf` holds the thin stations' vector buffers and
`vflags` the flags of what was loaded: ((station, byte offset, bytes), (POISON, CHECKED, UNSEALED)). `busy` is the drain end of each accumulator bank: the
last beat cycle in which a row is read out (R62). `lastGrant` is the beat cycle of the die's last start grant (06 R162). `lastKind` and the fields beside it are PART_MX_FAULT
(R85). -/
structure MxPart where
  arrays : List ArrSt := List.replicate 12 .active ++ [.ballast]
  retiring : List Nat := []
  rowHist : List ((Nat × Nat) × BitVec 64) := []
  unitHist : List ((Nat × Nat) × BitVec 64) := []
  acc : List ((Nat × Nat × Nat) × List (BitVec 33)) := []
  abuf : List (Nat × List (BitVec 8)) := []
  bbuf : List (Nat × List (BitVec 8)) := []
  vbuf : List (Nat × List (BitVec 8)) := []
  vflags : List ((Nat × Nat × Nat) × (Bool × Bool × Bool)) := []
  busy : List ((Nat × Nat × Nat) × Nat) := []
  lastGrant : Option Int := none
  mismatchCount : BitVec 16 := 0
  lastUnit : BitVec 4 := 0xF
  lastTv : BitVec 2 := 0
  lastRow : BitVec 5 := 0
  lastKind : BitVec 2 := 0
  checkPathCount : BitVec 16 := 0
deriving DecidableEq, Repr

/-- One stream channel in use (R109, R122). -/
structure ChanSt where
  depth : BitVec 8
  tokens : List Token
  producer : Lsid
  consumer : Lsid
  plan : Nat
  poisonSeen : Bool := false
  fullHold : Bool := false
  emptyHold : Bool := false
deriving DecidableEq, Repr

/-- One live fence slot (R236): its destination range as a tenant global address without its module field, in units, the regions its source touches, the
reference sum, whether it was bound stale, and who bound it. -/
structure Fence where
  dstAddr : Nat
  dstUnits : Nat
  srcAddr : BitVec 64
  regions : List Nat
  refSum : BitVec 48
  stale : Bool
  tenant : TenantId
  plan : Nat
deriving DecidableEq, Repr

/-- The units that a local transfer writes to HBM in this beat (07 R231): the station, the beat cycle of its first four units, and the runs of units as (unit, place,
units). -/
structure HbmRun where
  lsid : Lsid
  cycle : Nat
  runs : List (Nat × Nat × Nat)
deriving DecidableEq, Repr

/-- Streams, descriptor rings, fence slots and the counters of chapter 4 and 5 of a compute die. `chans` lists the channels in
use; `descs` the descriptor slots that hold anything, by (ring, slot); `ringPos` each ring's next slot; `hbmRuns` the HBM units that local transfers write in
the present beat (07 R231). -/
structure StreamPart where
  chans : List (Nat × ChanSt) := []
  descs : List ((Nat × Nat) × BitVec 256) := []
  ringPos : List (Nat × Nat) := []
  fences : List (Nat × Fence) := []
  sel : Chan := 0
  holdCycles : BitVec 48 := 0
  holdOvf : Bool := false
  lateOperand : BitVec 16 := 0
  lateGather : BitVec 16 := 0
  streamFull : BitVec 16 := 0
  descInvalid : BitVec 16 := 0
  skipped : BitVec 48 := 0
  skippedOvf : Bool := false
  hbmRuns : List HbmRun := []
deriving DecidableEq, Repr

/-- One slot table entry (Table 06-4): owner, vacant and lent for the 35 stations of the die; `bad` says that the stored entry
no longer passes its ECRC (R169), `blocked` that its check failed at its slot start. -/
structure SlotEntry where
  owner : List TenantId := List.replicate 35 0
  vacant : BitVec 40 := 0x7FFFFFFFF
  lent : BitVec 40 := 0
  bad : Bool := false
  blocked : Bool := false
deriving DecidableEq, Repr

/-- The slot table of a partition and its beat counters and selectors (06 R168, R201, R202). -/
structure SlotPart where
  table : List SlotEntry := List.replicate 64 {}
  slips : BitVec 48 := 0
  slipsOvf : Bool := false
  selSlot : BitVec 6 := 0
  selWord : BitVec 3 := 0
deriving DecidableEq, Repr

/-- Station memory, Commons half and HBM stack of a partition (07): bank map, channel map, migration, error counts and failure
histories. `chMap` gives the physical channel of each logical channel. `bankUe` is the time of the first uncorrectable error of
a physical bank within its window (R209); `ceSeen` the last MEM_CORRECTED record per recording unit (R226); `rowCe` the times
of the corrected errors of an HBM row within 24 hours (R223); `rowsDue` a key in each row that waits for the next beat's soft repair; `granUe` those of Commons granules (Table 12-8);
`granOut` the granules that are no longer leased. `migAt` is when the migration copy began, `chRetiring` the channel whose retirement is decided and not yet made. -/
structure MemPart where
  smRetired : BitVec 33 := 0
  smBallastUsed : Bool := false
  smSubst : BitVec 5 := 0
  smRetiring : List Nat := []
  bankUe : List (Nat × BitVec 64) := []
  ceSeen : List (Nat × BitVec 64) := []
  rowCe : List (Nat × List (BitVec 64)) := []
  granUe : List (Nat × BitVec 64) := []
  granOut : List Nat := []
  softRepairs : Nat := 0
  rowsDue : List Nat := []
  chMap : List Nat := List.range 31
  chRetired : BitVec 32 := 0
  ballastCh : BitVec 5 := 31
  ballastLeft : Bool := true
  migState : BitVec 2 := 0
  migSrc : BitVec 5 := 0
  migAt : BitVec 64 := 0
  chRetiring : Option Nat := none
  hbmCe : BitVec 16 := 0
  hbmUe : BitVec 16 := 0
  smCe : BitVec 16 := 0
  smUe : BitVec 16 := 0
  cmCe : BitVec 16 := 0
  cmUe : BitVec 16 := 0
  staleCount : BitVec 16 := 0
deriving DecidableEq, Repr

/-- A line in a control core's data cache: its tenant and global line address, whether it is modified, and its 64 bytes (R239). -/
structure CacheLine where
  core : Nat
  tenant : TenantId
  line : Nat
  dirty : Bool
  bytes : List (BitVec 8)
deriving DecidableEq, Repr

/-- The L2 of a die: a line with its data and whether it differs from HBM; the directory's sharers are the cores of `lines` that
hold it (R239). -/
structure L2Line where
  tenant : TenantId
  line : Nat
  dirty : Bool
  bytes : List (BitVec 8)
deriving DecidableEq, Repr

/-- A kite request of a control core that is under way (09 R319): the core, the mailbox and its first unit in station memory, and whether GO is
still 1. -/
structure Mailbox where
  core : Nat
  index : Nat
  plan : Nat
  addr : SmAddr
  go : Bool
deriving DecidableEq, Repr

/-- Control cores of a die (R114, R118, R239 to R243): failed cores, pending takeover, data cache lines, instruction cache lines (`ilines`), L2, reservations
(core, tenant, line), kite mailboxes, and the failure history of Table 12-8. -/
structure CorePart where
  failed : BitVec 5 := 0
  ballastFor : Option Nat := none
  failing : List Nat := []
  hist : List (Nat × BitVec 64) := []
  lines : List CacheLine := []
  ilines : List CacheLine := []
  l2 : List L2Line := []
  reserved : List (Nat × TenantId × Nat) := []
  mail : List Mailbox := []
deriving DecidableEq, Repr

/-- One partition: its compute die, stack and Commons half (R16), and whether it is out of service (Table 12-8). -/
structure Part where
  mx : MxPart := {}
  streams : StreamPart := {}
  slots : SlotPart := {}
  memp : MemPart := {}
  cores : CorePart := {}
  outOfService : Bool := false
deriving DecidableEq, Repr

/-! ### Plans and jobs -/

/-- The plan image header fields the module keeps (Table 06-7); `shared` says that the image gave LOGICAL_MODULE 0xFFFF, any module. -/
structure PlanHdr where
  holdLimit : Nat
  detourHops : Nat
  stepBeats : Nat
  beatUs : Nat
  levelP : Bool
  lends : Bool
  onDemand : Bool
  cls : Nat
  lldMask : Nat
  lpartMask : Nat
  grade : Nat
  profile : Nat
  logicalModule : Nat
  shared : Bool := false
  tx : Nat
  ty : Nat
  tz : Nat
  sliceK : Nat
  sliceKind : Nat
  modCount : Nat
  fwMajor : Nat
  shapeDigest : List (BitVec 8)
  digest : List (BitVec 8)
deriving DecidableEq, Repr

/-- A buffer map entry (R182): offsets and lengths in bytes and 64-byte units. -/
structure BufRange where
  space : Nat
  lpart : Nat
  off : Nat
  units : Nat
  kind : Nat
deriving DecidableEq, Repr

/-- A stream graph entry (R181). -/
structure StreamEnt where
  producer : Lsid
  consumer : Lsid
  chan : Nat
  lpart : Nat
  depth : Nat
deriving DecidableEq, Repr

/-- A slot claim entry (R183). -/
structure Claim where
  lsid : Lsid
  own : BitVec 64
  lend : BitVec 64
deriving DecidableEq, Repr

/-- A check plan entry (R184). -/
structure CheckEnt where
  beat : Nat
  kind : Nat
  lpart : Nat
  space : Nat
  clog2 : Nat
  off : Nat
  units : Nat
deriving DecidableEq, Repr

/-- A split table entry with its parts (R185). -/
structure SplitEnt where
  lsid : Lsid
  count : Nat
  out : Nat
  parts : List Nat
deriving DecidableEq, Repr

/-- A resource demand entry (R185). -/
structure DemandEnt where
  slot : Nat
  kind : Nat
  inst : Nat
  bytes : Nat
deriving DecidableEq, Repr

/-- A move entry of SHARD_PERMUTE (09 Table 09-9). -/
structure MoveEnt where
  srcRank : Nat
  dstRank : Nat
  units : Nat
  src : Nat
  dst : Nat
deriving DecidableEq, Repr

/-- A collective group of a plan (09 R294 to R298): its members as logical module IDs in rank order, this module's rank when it is one, the 128 bytes
of its entry, and its moves. -/
structure GroupEnt where
  index : Nat
  members : List Nat
  rank : Option Nat
  raw : List (BitVec 8)
  moves : List MoveEnt := []
deriving DecidableEq, Repr

/-- The binding of one logical station: die code (Table 12-3) and instance (R120, R187). -/
structure Bind where
  lsid : Lsid
  die : Nat
  inst : Nat
deriving DecidableEq, Repr

/-- A station program: for each beat of the step, its 32-byte instructions (R180). -/
structure Prog where
  lsid : Lsid
  beats : List (List (BitVec 256))
deriving DecidableEq, Repr

/-- A plan admitted on the module, with the binding it was given (R120, R186, R187). `rings` gives each station with IND its
descriptor ring; `fillStopped` marks a class-2 plan whose slots were withdrawn (R173), `forced` one that a revoke withdraws (13 R466). `xidBase` is the
first XID of its remote transfers and `collBase` the first, from 384 on, of its collectives (08 R278). -/
structure Plan where
  handle : Nat
  tenant : TenantId
  hdr : PlanHdr
  progs : List Prog
  ctrl : List (Lsid × Nat)
  streams : List StreamEnt
  bufs : List BufRange
  claims : List Claim
  checks : List CheckEnt
  splits : List SplitEnt
  groups : List GroupEnt
  demand : List DemandEnt
  pmap : List (Option Nat)
  lmap : List (Option Nat)
  binds : List Bind
  rings : List (Lsid × Nat)
  progBytes : Nat
  rq : Option Nat := none
  fillStopped : Bool := false
  withdrawAt : Option (BitVec 64) := none
  withdrawAfter : Option StepNo := none
  forced : Bool := false
  xidBase : Nat := 0
  collBase : Nat := 0
deriving DecidableEq, Repr

/-- Why a job is held (Table 06-3, R356, R489); `behind` marks an instruction that comes while the job is held and waits for the hold to end. -/
inductive HoldCause where
  | operand | gather | chanEmpty | chanFull | descriptor | slot | grant | nextHeld | replay | rollback | behind
deriving DecidableEq, Repr

/-- An instruction that cannot issue yet: its station, why, and the command that carries it. -/
structure Held where
  lsid : Lsid
  cause : HoldCause
  instr : Option Instr
deriving DecidableEq, Repr

/-- A token kept in a post register (R111): the station, its channel's die and number, and the token. -/
structure PostReg where
  lsid : Lsid
  part : Nat
  chan : Nat
  token : Token
deriving DecidableEq, Repr

/-- How a job stands (Table 10-9, and the waits around it). `launching` waits for its launch edge (R195); `idle` is an ON_DEMAND
job between steps (R174); `filled` a class-2 job whose slots were withdrawn (R173); `finished` one whose plan's withdrawal step
has passed. -/
inductive JobPhase where
  | launching | running | idle | localReplay | rollbackWait | stoppedLimit | stoppedFallback | filled
deriving DecidableEq, Repr

/-- The verdict of one step on the module (R349 to R352): its cause (Table 10-5, 0 clean), whether it is final and when, the
first poison-origin record (R419) as (class, code), the local faults counted (R360), and
which of its votes have been submitted or passed. -/
structure Verdict where
  step : StepNo
  attempt : Nat
  cause : Nat := 0
  final : Bool := false
  finalAt : BitVec 64 := 0
  edge : BitVec 64 := 0
  beatsDone : Bool := false
  origin : Option (Nat × Nat) := none
  localFaults : Nat := 0
deriving DecidableEq, Repr

/-- A pending check failure: the unit (die, BLOCK, instance, rows), and the data it hit, each as the keys of its units, its bytes and the CRC-32C of what was
found there (R75). -/
structure PendingCheck where
  die : Nat
  block : Nat
  inst : Nat
  rows : List Nat
  tiles : List (List Nat × Nat × Nat)
deriving DecidableEq, Repr

/-- A local replay in progress (R356): the beat and schedule cycle at which the job was held, and whether it has begun. -/
structure Replay where
  endBeat : Nat
  endCycle : Nat
  begun : Bool
  restarts : Nat
deriving DecidableEq, Repr

/-- What has become of a step's attempts (R364): the attempt it is at, how many failed by faults, and in how many of those this module's own verdict was a
fault. -/
structure StepTry where
  step : StepNo
  attempt : Nat := 0
  failed : Nat := 0
  own : Nat := 0
deriving DecidableEq, Repr

/-- A job on the module (06 R160 to R165, 10). `done` lists the stations that have run their LAST instruction of the beat,
`runEnd` the latest completion cycle of its instructions in the beat.
`offset` is the beat cycle less the schedule cycle (R160, R163). `ripening` lists written ranges as (die, unit, units, beat cycle in which the trailer is
complete): before that cycle they are not resident yet (03 R62). `gathers` lists gathered rows as (die, unit, units, unit of their status word) (04 R106). `accept` gives for each station the cycle after its last row-0 entry (R70).
`resAtStep`, `ringAtStep` and `descAtStep` are what was resident, the descriptor rings' places ((die, ring), place) and their descriptors when
the step began. `sealHeld` is the step whose SEAL_HOLD record is written (R342). `attempt` is that of the step it runs; `tries` counts those of recent
steps. `votes` lists the votes submitted as (kind, step): 0 seal, 1 mirror, 3 snapshot, 4 lateness. `rollback` names the edge and the step L of a rollback
that is due, `resumeAt` the edge at which a resume vote has set the next attempt. `abort` stops the job after its rollback (R364, 12 R420). `holdBeats`
counts the edges that the present hold has lasted (R165), `reqTag` is the request that a step of an ON_DEMAND job answers (13 R468). -/
structure Job where
  plan : Nat
  tenant : TenantId
  phase : JobPhase
  lc : BitVec 64
  firstStep : StepNo
  key : BitVec 64
  logicalModule : Nat
  step : StepNo
  beat : Nat := 0
  sched : Nat := 0
  edge : BitVec 64 := 0
  done : List Lsid := []
  accept : List (Lsid × Nat) := []
  runEnd : Nat := 0
  resident : List (Nat × Nat × Nat) := []
  ripening : List (Nat × Nat × Nat × Nat) := []
  gathers : List (Nat × Nat × Nat × Nat) := []
  resAtStep : List (Nat × Nat × Nat) := []
  ringAtStep : List ((Nat × Nat) × Nat) := []
  descAtStep : List ((Nat × Nat × Nat) × BitVec 256) := []
  holds : List Held := []
  holdCycles : Nat := 0
  offset : Int := 0
  holdBeats : Nat := 0
  posts : List PostReg := []
  slips : Nat := 0
  replay : Option Replay := none
  checks : List PendingCheck := []
  verdicts : List Verdict := []
  sealMap : List SealEnt := []
  lastSealed : StepNo := 0
  sealedValid : Bool := false
  mirrored : Bool := false
  attempt : Nat := 0
  writeHold : Bool := false
  sealHeld : Option StepNo := none
  tries : List StepTry := []
  resumeAt : Option (BitVec 64) := none
  votes : List (Nat × StepNo) := []
  rollback : Option (BitVec 64 × StepNo) := none
  abort : Bool := false
  reqTag : Option (BitVec 32) := none
deriving DecidableEq, Repr

/-! ### The error log -/

/-- An error record (Table 12-2); TENANT_VALID and STEP_VALID are the presence of `tenant` and `step`. -/
structure Rec where
  code : BitVec 16
  cls : BitVec 8
  sev : BitVec 8
  seq : BitVec 32 := 0
  time : BitVec 64 := 0
  die : BitVec 8 := 0
  block : BitVec 8 := 0
  inst : BitVec 16 := 0
  oper : BitVec 16 := 0
  temp : BitVec 16 := 0
  volt : BitVec 16 := 0
  tenant : Option TenantId := none
  posted : Bool := false
  step : Option StepNo := none
  lpart : BitVec 8 := 0xFF
  beat : BitVec 16 := 0
  cycle : BitVec 28 := 0
  detail : List (BitVec 8) := []
deriving DecidableEq, Repr

/-- The error log on HD0 and the fault history in flash (R416, R437). -/
structure Log where
  recs : List Rec := []
  written : BitVec 32 := 0
  read : BitVec 32 := 0
  overrun : BitVec 16 := 0
  history : List Rec := []
deriving DecidableEq, Repr

end Sys2Proof.Machine
end

