-- ==== Sys2Proof/Machine/HostParts.lean ====
section
/-!
DEFINITION. Host-facing state (13_host_tenants_commands.md): queues, tenants, accepted commands, transactions and leases.
Every field's default is its value at reset; a default the spec does not give is named in notes/assumptions (3).
-/

namespace Sys2Proof.Machine

/-- The kinds of queue (R448). -/
inductive QKind where
  | sq | cq | rq
deriving DecidableEq, Repr

/-- A queue of a tenant (R448 to R453). `head` and `tail` are ring indices, `reserved` the completion slots reserved by accepted
commands, `unsignalled` the entries written since the last interrupt. For a request queue `tags` holds the waiting tags and
`depth` its size. -/
structure Queue where
  kind : QKind
  entries : Nat := 0
  base : BitVec 64 := 0
  shadow : BitVec 64 := 0
  head : Nat := 0
  tail : Nat := 0
  reserved : Nat := 0
  bound : Nat := 0
  vector : Nat := 0xFF
  coalCount : Nat := 0
  coalUs : Nat := 0
  unsignalled : Nat := 0
  err : Bool := false
  depth : Nat := 0
  tags : List (BitVec 32) := []
  rqPlan : Nat := 0
deriving DecidableEq, Repr

/-- An unsolicited completion entry that waits for a slot (R458): its STATUS and the 26 detail bytes 6 to 31. -/
structure Unsol where
  status : BitVec 16
  detail : List (BitVec 8)
deriving DecidableEq, Repr

/-- A command packet accepted by Volez and not yet answered (R450, R454): where it came from and its 64 bytes. `started` says that it has
taken effect and waits for its reply. -/
structure Accepted where
  tenant : TenantId
  sq : Nat
  cq : Nat
  tag : BitVec 32
  packet : List (BitVec 8)
  started : Bool := false
deriving DecidableEq, Repr

/-- A command staged in a transaction with the host data it named, and the handle that a staged admission reserves (R462). -/
structure Staged where
  packet : List (BitVec 8)
  data : List (BitVec 8)
  handle : Nat := 0
deriving DecidableEq, Repr

/-- The transaction of a tenant (R462). `commit` is the counter value of the edge at which an evaluated commit applies, `order` its place among the
evaluated commits. -/
structure Txn where
  id : BitVec 16
  staged : List Staged := []
  timeout : Nat := 10
  commit : Option (BitVec 64) := none
  order : Nat := 0
  reply : Option Accepted := none
  handles : List Nat := []
deriving DecidableEq, Repr

/-- A tenant (R443, R470 to R474): whether it is enabled, its queues, its register page, and its transaction.
`msix` lists the words of its MSI-X table that have been written. -/
structure Ten where
  enabled : Bool := false
  queues : List (Nat × Queue) := []
  adminSq : BitVec 64 := 0
  adminCq : BitVec 64 := 0
  adminShadow : BitVec 64 := 0
  adminLive : Bool := false
  unsolLost : BitVec 16 := 0
  eventsUnposted : BitVec 16 := 0
  fifo : List Unsol := []
  apertures : List (Nat × BitVec 64) := []
  apReadErrs : BitVec 16 := 0
  apWriteErrs : BitVec 16 := 0
  logSel : BitVec 64 := 0
  msix : List (Nat × BitVec 64) := []
  txn : Option Txn := none
  nextTxn : BitVec 16 := 1
deriving DecidableEq, Repr

/-- The mode of a Commons granule (R212). -/
inductive GranMode where
  | none | scratch | cache
deriving DecidableEq, Repr

/-- Leases (R211, R218, R221, R465, R466). `parts` lists (partition, tenant, exclusive); `granules` ((partition, granule), tenant);
`modes` the granules in use by plans; `hbm` ((tenant, partition of the view, view entry), physical stack * 1024 + extent); `bandwidth` ((tenant, stack), rate);
`links` (collective-station slots: (slot, die), tenant). -/
structure Leases where
  parts : List (Nat × TenantId × Bool) := []
  granules : List ((Nat × Nat) × TenantId) := []
  modes : List ((Nat × Nat) × GranMode) := []
  hbm : List ((TenantId × Nat × Nat) × Nat) := []
  bandwidth : List ((TenantId × Nat) × Nat) := []
  links : List ((Nat × Nat) × TenantId) := []
deriving DecidableEq, Repr

/-- What a command sends out of the module or writes into host memory: the model's own field of outputs of the last command.
`cqEntry` is a completion entry written to a ring slot, `shadow` a shadow index write, `msix` an interrupt vector, `dma` a host
memory write, `data` the data returned to a register, aperture, I3C, PMBus or JTAG reader, `ur` an Unsupported Request,
`poisoned` marks returned data as poisoned, `frame` a Celoth frame sent on a port, `vc7` a management message to a module
position, `pin` a pin driven to a level, `nvme` a command capsule to a target, `nack` a refused bus write. -/
inductive Out where
  | cqEntry (tenant : TenantId) (queue index : Nat) (bytes : List (BitVec 8))
  | shadow (tenant : TenantId) (queue : Nat) (index : Nat)
  | msix (tenant : TenantId) (vector : Nat)
  | dma (tenant : TenantId) (addr : BitVec 64) (bytes : List (BitVec 8))
  | data (bytes : List (BitVec 8))
  | poisoned
  | ur
  | nack
  | dataAbort (part core : Nat)
  | frame (port vc type : Nat) (bytes : List (BitVec 8))
  | vc7 (dest kind : Nat) (args : List Nat)
  | pin (name : String) (level : Bool)
  | nvme (target : Nat) (opcode : Nat) (args : List Nat)
  | storeOk (ok : Bool)
deriving DecidableEq, Repr

end Sys2Proof.Machine
end

