-- ==== Sys2Proof/Machine/LedgerParts.lean ====
section
/-!
DEFINITION. The ledger dies' state (10_seal_replay_tether.md): hamper records and their indexes, replay counts, the tether and what the mirror
region holds of the partner. Every field's default is its value at reset.
-/

namespace Sys2Proof.Machine

/-- What a hamper record holds (Table 10-2). Byte ranges name where they lie: `keys` the units of a destination or an input range, `bad` their
poison. An outbound record's identity is (0, XID) or (1 + group, SEQ). A control record's target is a descriptor slot, a channel or a
store to station memory. -/
inductive HBody where
  | stepOpen (key lc digest : BitVec 64) (attempt : Nat)
  | beatStart (count : BitVec 64)
  | extInput (keys : List Nat) (bytes : List (BitVec 8)) (bad : List Bool)
  | inbound (src xid : Nat) (keys : List Nat) (bytes : List (BitVec 8)) (bad : List Bool) (rpost : Bool) (part ch : Nat) (token : BitVec 64)
  | kiteResult (group seq : Nat) (result : List (BitVec 8))
  | descriptor (part ring slot : Nat) (value : BitVec 256)
  | tokenPost (part ch : Nat) (token : BitVec 64)
  | store (key : Nat) (bytes : List (BitVec 8))
  | outbound (kind id : Nat) (crc : BitVec 32)
  | anchor (table head : Nat) (misses : List (Nat × Nat))
  | verdict (cause : Nat)
deriving DecidableEq, Repr

/-- A hamper record (Table 10-3) and the stack it lies in (R346). -/
structure HRec where
  seq : BitVec 64
  body : HBody
  lpart : Nat
  attempt : Nat
  step : StepNo
  plan : Nat
  cycle : Nat
  beat : Nat
  stack : Nat
deriving DecidableEq, Repr

/-- A mirror transfer being received (R368): the port and stream it comes on, its entry, step, place and length, where it is stored, and how many bytes
have come. -/
structure MirrorIn where
  port : Nat
  stream : Nat
  entry : Nat
  step : StepNo
  off : Nat
  bytes : Nat
  start : Nat
  got : Nat := 0
deriving DecidableEq, Repr

/-- A transfer stored in a shard slot: its seal-map entry and offset, where it begins in the slot, its length, and whether its DCRC matched. -/
structure MirrorPart where
  entry : Nat
  off : Nat
  start : Nat
  bytes : Nat
  ok : Bool := false
deriving DecidableEq, Repr

/-- What a shard slot of the mirror region holds (R365): the step, the transfers stored, and whether the rest of the step's record has come. -/
structure MirrorSlot where
  step : StepNo
  tail : Bool := false
  parts : List MirrorPart := []
deriving DecidableEq, Repr

/-- An entry of the partner's journal (R365, R367): its step, place in the ring and length, and for a plan image the image's DIGEST. -/
structure JournalEnt where
  step : StepNo
  off : Nat
  bytes : Nat
  digest : List (BitVec 8) := []
deriving DecidableEq, Repr

/-- A mirror transfer sent and not yet acknowledged (R366, R368): plan, stream, entry, step, place and length, and for a journal transfer its bytes; `fails`
counts its DCRC mismatches. -/
structure MirrorOut where
  plan : Nat
  stream : Nat
  entry : Nat
  step : StepNo
  off : Nat
  bytes : Nat
  data : List (BitVec 8) := []
  fails : Nat := 0
deriving DecidableEq, Repr

/-- A ballast admission that this module runs as the twin (R371): the plans it serves, the failed module's physical ID, the ballast position claimed, whether
its entry check has passed, and whether the stream is done. -/
structure Rescue where
  plans : List Nat
  lost : Nat
  pos : Nat
  passed : Bool := false
  streamed : Bool := false
deriving DecidableEq, Repr

/-- What the ledger dies hold. `records` is the hamper, oldest first, `count` the records since cold reset, `highWater` and `takeover` are per ledger
die (R379), `failed` the ledger dies that have failed. `mode`, `partner`, `mirrorValid` and `mirroredStep` are KD_TETHER_STATUS (R380).
`slots` are shard slots A and B of the mirror region; `journal` lists the partner's journal, its bytes lying in the region;
`ringOut` is the next offset in the partner's journal. `inXfer` and `outXfer` are the mirror transfers in progress; `lost` says that the partner was declared
lost (R369). `rescue` is a ballast admission that this module's Volez runs as the twin. `entry` is this module's own entry
check as a ballast module: when it began; `claimed` the twin that claimed it. `remaps` holds (slice, logical, physical module, edge). -/
structure Ledger where
  records : List HRec := []
  count : BitVec 64 := 0
  highWater : List Nat := [0, 0]
  takeover : List Bool := [false, false]
  failed : List Bool := [false, false]
  localReplays : U16 := 0
  collective : U16 := 0
  escalated : U16 := 0
  lastCause : BitVec 8 := 0
  jobSel : List U16 := [0, 0]
  mode : BitVec 3 := 0
  partner : BitVec 14 := 0
  mirrorValid : Bool := false
  mirroredStep : StepNo := 0
  slots : List (Option MirrorSlot) := [none, none]
  journal : List JournalEnt := []
  ringOut : Nat := 0
  inXfer : List MirrorIn := []
  outXfer : List MirrorOut := []
  lost : Bool := false
  rescue : Option Rescue := none
  entry : Option (BitVec 64) := none
  entryPassed : Bool := false
  claimed : Nat := 0
  remaps : List (Nat × Nat × Nat × BitVec 64) := []
deriving DecidableEq, Repr

/-- Whether the module has no mirror partner to send to: none, or a ballast module that is still taking the stream (R369, R380). -/
def Ledger.alone (l : Ledger) : Bool := l.mode == 0 || l.mode == 3

end Sys2Proof.Machine
end

