-- ==== Sys2Proof/Machine/SpoolParts.lean ====
section
/-!
DEFINITION. The spool's state (11_checkpoints.md): schedules, snapshot slots, targets, NVMe commands, manifest keys and restores. Every field's
default is its value at reset.
-/

namespace Sys2Proof.Machine

/-- A job's snapshot schedule (R381, R384): its 256-byte block, a block that replaces it at the next step boundary, the next sequence number, a step that
a SNAP_NOW named, and the last complete snapshot as (SEQ, STEP). `voted` is the step whose snapshot vote this module has submitted;
`zeroing` the step whose vote waits for the manifest slot's first LBA to be zeroed; `sealAt` the counter when the step sealed. -/
structure SnapJob where
  plan : Nat
  block : List (BitVec 8)
  next : Option (List (BitVec 8)) := none
  seq : BitVec 32
  nowStep : Option (BitVec 40) := none
  last : Option (BitVec 32 × BitVec 40) := none
  voted : Option (BitVec 40) := none
  zeroing : Option (BitVec 40) := none
  sealAt : BitVec 64 := 0
deriving DecidableEq, Repr

/-- How far a snapshot has come on this module. -/
inductive SnapPhase where
  | copying | draining | flushed | failed
deriving DecidableEq, Repr

/-- A snapshot held in a slot (R385, R395): its plan, step, number and schedule block, the counter when its vote passed, the stripes it writes, how many of
them are flushed, and whether the manifest writer has said that it is complete. -/
structure SnapSlot where
  plan : Nat
  step : BitVec 40
  seq : BitVec 32
  block : List (BitVec 8)
  at_ : BitVec 64
  phase : SnapPhase := .copying
  stripes : List StripeRep := []
  done : Nat := 0
  complete : Bool := false
deriving DecidableEq, Repr

/-- What the manifest writer holds of a snapshot (R396): reports so far, the counter at the seal, and the manifest, once its write has begun. -/
structure ManifestRun where
  plan : Nat
  step : BitVec 40
  seq : BitVec 32
  sealCount : BitVec 64
  reports : List StripeRep := []
  writing : Option (List (BitVec 8)) := none
deriving DecidableEq, Repr

/-- A target of a tenant (R392, R393): its descriptor, whether it is connected, the LBAs of its largest transfer, and the command whose reply waits for
the connection. -/
structure Target where
  desc : List (BitVec 8)
  connected : Bool := false
  maxLbas : Nat := 256
  waiting : Option Accepted := none
deriving DecidableEq, Repr

/-- What an NVMe command is for: the connection, a stripe's writes or its flush, zeroing and flushing the first LBA of a manifest slot, the manifest and its flush. -/
inductive IoUse where
  | connect | stripe (index : Nat) | stripeFlush (index : Nat) | zeroLba | zeroFlush | manifest | manifestFlush
deriving DecidableEq, Repr

/-- An NVMe command outstanding (R394): its number, tenant, target, opcode, LBAs, storage port, retries, and the snapshot it serves. -/
structure IoCmd where
  id : Nat
  tenant : BitVec 8
  target : Nat
  op : Nat
  lba : Nat
  lbas : Nat
  port : Nat := 0
  retries : Nat := 0
  plan : Nat := 0
  seq : BitVec 32 := 0
  what : IoUse
deriving DecidableEq, Repr

/-- A restore whose state is on its way to the mirror partner (R400): the command to answer, and the step restored. -/
structure RestoreRun where
  plan : Nat
  step : BitVec 40
  reply : Accepted
deriving DecidableEq, Repr

/-- The spool: `restored` gives for each plan the seal map and step that its launch must name (R403). `keys` are the manifest keys by (tenant, KEY_ID).
`lastTenant` is the tenant whose job was most recently scheduled, `lastSeq` the SEQ of the snapshot in progress or of the last one (R407). -/
structure Spool where
  jobs : List SnapJob := []
  slots : List (Option SnapSlot) := [none, none]
  manifests : List ManifestRun := []
  targets : List ((BitVec 8 × Nat) × Target) := []
  keys : List ((BitVec 8 × Nat) × List (BitVec 8)) := []
  io : List IoCmd := []
  nextIo : Nat := 0
  restores : List RestoreRun := []
  restored : List (Nat × List (BitVec 8) × Option (BitVec 40)) := []
  rate : Nat := 25
  skipped : BitVec 16 := 0
  failed : BitVec 16 := 0
  retries : BitVec 16 := 0
  lbas : BitVec 48 := 0
  lbasOvf : Bool := false
  lastTenant : BitVec 8 := 0
  lastSeq : BitVec 32 := 0
deriving DecidableEq, Repr

end Sys2Proof.Machine
end

