-- ==== Sys2Proof/Machine/State.lean ====
section
/-!
DEFINITION. The state of the module as plain data: the queue of waiting commands, power, memory, and everything else. The reset
values are the fields' defaults: the module at Ready after a cold sequence (14 R478), grade A, profile F1, with nothing leased
and nothing admitted (notes/assumptions 1, 3).
-/

namespace Sys2Proof.Machine

/-- Why a step could stop with a fault. No meaning of this block raises one: the manual leaves no use of the module unstated
(00 "Words of obligation"), so every command completes. -/
inductive Fault where
  /-- Reserved: raised by no command. Safe, since it never occurs. -/
  | none
deriving DecidableEq, Repr

/-- Why a step could be refused. -/
inductive Refusal where
  /-- A command whose meaning is not written; raised by the dispatch arm that rejects it by name. Safe: the model stops. -/
  | notModelled (mnemonic : String)
deriving DecidableEq, Repr

/-- What a flash image's firmware header declares, and whether its signature verifies (15 R515). -/
structure FwImage where
  valid : Bool := true
  major : BitVec 16 := 1
  minor : BitVec 16 := 0
  sec : BitVec 64 := 0
deriving DecidableEq, Repr

/-- Identity and configuration of the module (01 R21, 00 R525, 07 R244, 12 R418, 15 R514 to R516). `images` are flash images A and B, `fwRun` the one that
runs, `fwBoot` the one that FW_ACTIVATE selects, and `fwSec` the fused security version. -/
structure Ident where
  grade : BitVec 8 := 0x0A
  stepping : BitVec 8 := 0x21
  activeArrays : BitVec 8 := 0x60
  profile : BitVec 8 := 0x01
  fwMajor : BitVec 16 := 1
  fwMinor : BitVec 16 := 0
  hamperExt : Nat := 48
  mirrorExt : Nat := 96
  snapExt : Nat := 96
  dedicated : Option TenantId := none
  images : List FwImage := [{}, {}]
  fwRun : Nat := 0
  fwBoot : Nat := 0
  fwSec : BitVec 64 := 0
deriving DecidableEq, Repr

/-- The Celoth counter and the module beat (06 R156, R190, R198 to R200). `beatAcc` is the beat cycle count that every compute die keeps (R157), in 16,000ths of
a core cycle: the dies run one clock and count alike. `acquired` says that the counter has taken its jump and does not step again (R190). -/
structure Clock where
  count : BitVec 64 := 0
  latch : Option (BitVec 32) := none
  beatUs : BitVec 17 := 0
  lenSet : Bool := false
  epoch : BitVec 64 := 0
  epochSet : Bool := false
  clearAtEdge : Bool := false
  beatAcc : Nat := 0
  acquired : Bool := false
deriving DecidableEq, Repr

/-- Everything in the module but the command queue, power and memory. `out` and `nonce` are the model's own fields: what the last
command sent out, and how many free values have been used. `resetReplies` are RESET commands that wait for a partition (14 R488). -/
structure Core where
  ident : Ident := {}
  clk : Clock := {}
  parts : List Part := List.replicate 8 {}
  csSlots : List (List TenantId × BitVec 4) := List.replicate 64 ([0, 0, 0, 0], 0xF)
  plans : List Plan := []
  jobs : List Job := []
  log : Log := {}
  gens : List (Nat × BitVec 48) := []
  leases : Leases := {}
  commonsLines : List ((TenantId × Nat) × List Nat) := []
  tens : List (Nat × Ten) := [(0, { enabled := true })]
  accepted : List Accepted := []
  health : Health := {}
  fab : Fabric := {}
  led : Ledger := {}
  spool : Spool := {}
  rst : Rst := {}
  resetReplies : List (Nat × Accepted) := []
  nonce : Nat := 0
  out : List Out := []
deriving DecidableEq, Repr

/-- The housekeeping domain's power, throttle, halt and bus state (15). The first five fields are the throttle causes' ratios (R506). `capW`, `detLock` and `discUs`
are the policy (R505). `halted` says that the module is halted, `haltReq` the counter value at which a halt was requested and waits, `leaving` that the
channels have read released long enough (R510). `aLow` and `bLow` are the halt channels as last sampled, `runFault` says that the disagreement run in progress
latched INPUT_FAULT (R509). `tripNew` is a trip not yet in the fault history, `tripped` keeps the rails off until PWR_OK is cycled and the dies have cooled
(R507): 1 until PWR_OK falls, 2 until it rises, 3 until the dies are cool. `off` says that the input is off, 1 under and 2 over its range, and `rails` that the
core and HBM rails are up (R502), `alert` that the input lies outside the operating range (R500). The readings (R519, R522, R523) hold what the
last command brought. `limits` holds the last POLICY_LIMIT of each loop (R504). `i3c`, `faultPos`, `pmInput`, `pmTemp` and `jtagIr` are the buses' state (R517). -/
structure Power where
  thermal : Nat := 16
  current : Nat := 16
  margin : Nat := 16
  ceiling : Nat := 16
  cap : Nat := 16
  capW : Nat := 0
  detLock : Bool := false
  discUs : Nat := 2000
  halted : Bool := false
  haltReq : Option (BitVec 64) := none
  leaving : Bool := false
  inputFault : Bool := false
  aLow : Bool := false
  bLow : Bool := false
  runFault : Bool := false
  discCount : BitVec 16 := 0
  haltedUs : BitVec 32 := 0
  lastTrip : BitVec 2 := 0
  tripNew : BitVec 2 := 0
  tripped : Nat := 0
  off : Nat := 0
  rails : Bool := true
  alert : Bool := false
  vinMv : BitVec 16 := 48000
  iin : BitVec 16 := 645
  pinW : BitVec 16 := 310
  cdMv : BitVec 16 := 750
  coolIn : BitVec 16 := 200
  coolOut : BitVec 16 := 200
  voltLimits : BitVec 16 := 0
  eqLimits : BitVec 16 := 0
  limits : List ((Nat × Nat) × BitVec 64) := []
  throttleUs : BitVec 48 := 0
  throttleOvf : Bool := false
  i3c : Option (BitVec 7) := none
  faultPos : Nat := 0
  pmInput : BitVec 8 := 0
  pmTemp : BitVec 8 := 0
  jtagIr : Nat := 1
deriving DecidableEq, Repr

/-- The governing ratio r (R506): the smallest of the causes'. -/
def Power.ratio (p : Power) : Nat := min p.thermal (min p.current (min p.margin (min p.ceiling p.cap)))

/-- The state of the block. -/
structure State where
  pending : List Instr
  pwr : Power
  mem : Mem
  core : Core
deriving DecidableEq, Repr

/-- The machine right after reset. -/
def State.reset : State := { pending := [], pwr := {}, mem := {}, core := {} }

end Sys2Proof.Machine
end

