-- ==== Sys2Proof/Machine/Crc.lean ====
section
/-!
DEFINITION. CRC-32C (04 R91) and SHA-256 (used by the plan image digest, 06 R178, and by manifests, 11).
CRC-32C: polynomial 0x1EDC_6F41, reflected, initial value all ones, final complement.
-/

namespace Sys2Proof.Machine

/-- One bit of the reflected CRC-32C register. -/
def crcBit (c : Nat) : Nat := if c % 2 = 1 then (c >>> 1) ^^^ 0x82F63B78 else c >>> 1

/-- One byte into the CRC-32C register (eight bits). -/
def crcByte (c : Nat) (b : Byte) : Nat :=
  crcBit (crcBit (crcBit (crcBit (crcBit (crcBit (crcBit (crcBit (c ^^^ b.toNat))))))))

/-- CRC-32C of a byte string (R91). -/
def crc32c (bs : List Byte) : Nat := (bs.foldl crcByte 0xFFFFFFFF) ^^^ 0xFFFFFFFF

/-- The primes below 312, the first 64: those up to 17, and what none of them divides. -/
def smallPrimes : List Nat :=
  let ps := [2, 3, 5, 7, 11, 13, 17]
  (List.range 312).filter (fun n => decide (2 ≤ n) && ps.all (fun p => n == p || n % p != 0))

/-- The largest `r` below `start + 2 ^ k` with `r ^ d ≤ n`, one bit after the other from bit `k - 1`. -/
def rootFrom (d n : Nat) : Nat → Nat → Nat
  | 0, start => start
  | k + 1, start => rootFrom d n k (if (start + 2 ^ k) ^ d ≤ n then start + 2 ^ k else start)

/-- The first 32 bits of the fraction of the `d`-th root of `p`: how SHA-256 chooses its constants. -/
def rootFraction (d p : Nat) : Nat := rootFrom d (p * 2 ^ (32 * d)) 37 0 % 2 ^ 32

/-- The round constants of SHA-256: the cube roots of the first 64 primes. -/
def shaK : List Nat := smallPrimes.map (rootFraction 3)

/-- The exclusive or of a 32-bit word's right rotations by the numbers of a list. -/
def turns (x : Nat) (by_ : List Nat) : Nat :=
  by_.foldl (fun acc n => acc ^^^ field (x * (2 ^ 32 + 1)) n 32) 0

/-- The SHA-256 chaining value, and its working variables inside a block: two registers of four words that shift, newest word first (a to d, and
e to h). -/
structure ShaState where
  up : List Nat
  low : List Nat
deriving DecidableEq, Repr

/-- The initial chaining value of SHA-256: the square roots of the first eight primes. -/
def shaInit : ShaState :=
  let r := (smallPrimes.take 8).map (rootFraction 2)
  { up := r.take 4, low := r.drop 4 }

/-- One SHA-256 round with message word and constant summed in `kw`: a new word enters each register, the one that leaves `up` into the sum that
enters `low`. -/
def shaRound (s : ShaState) (kw : Nat) : ShaState :=
  let u := fun i => s.up.getD i 0
  let l := fun i => s.low.getD i 0
  let choose := (l 0 &&& l 1) ||| (l 2 - (l 0 &&& l 2))
  let most := (u 0 &&& u 1) ||| (u 2 &&& (u 0 ||| u 1))
  let mix := kw + l 3 + choose + turns (l 0) [6, 11, 25]
  { up := (mix + most + turns (u 0) [2, 13, 22]) % 2 ^ 32 :: s.up.take 3
    low := (mix + u 3) % 2 ^ 32 :: s.low.take 3 }

/-- The message schedule: `n` further words after those in `w` (held last word first). -/
def shaExpand : Nat → List Nat → List Nat
  | 0, w => w
  | n + 1, w =>
    let back := fun i => w.getD (i - 1) 0
    let near := turns (back 2) [17, 19] ^^^ (back 2 / 2 ^ 10)
    let far := turns (back 15) [7, 18] ^^^ (back 15 / 2 ^ 3)
    shaExpand n ((back 7 + back 16 + near + far) % 2 ^ 32 :: w)

/-- One 64-byte block into the chaining value. -/
def shaBlock (s : ShaState) (blk : List Byte) : ShaState :=
  let words := (chunks 4 blk).map (fun q => natLE q.reverse)
  let t := (List.zipWith (· + ·) shaK (shaExpand 48 words.reverse).reverse).foldl shaRound s
  let sum := List.zipWith (fun x y => (x + y) % 2 ^ 32)
  { up := sum s.up t.up, low := sum s.low t.low }

/-- SHA-256 of a byte string: 32 bytes. The message ends in a one bit, zeros, and its length in bits as eight big-endian bytes. -/
def sha256 (m : List Byte) : List Byte :=
  let tail := 0x80 :: List.replicate ((119 - m.length % 64) % 64) 0 ++ (bytesLE 8 (8 * m.length)).reverse
  let s := (chunks 64 (m ++ tail)).foldl shaBlock shaInit
  (s.up ++ s.low).flatMap (fun x => (bytesLE 4 x).reverse)

end Sys2Proof.Machine
end

