-- ==== Sys2Proof/Machine/Fp.lean ====
section
/-!
DEFINITION. Exact floating-point values and the rounding of 02_number_formats.md: element encodings (R25 to R27),
`round_magnitude` (R36) and the IEEE 754 binary32 operations the stations use (R30, R33, R130).
A finite value is held exactly, as sign, integer and power of two.
-/

namespace Sys2Proof.Machine

/-- A floating-point value: not a number, an infinity, or `(-1)^neg * m * 2^e` exactly. -/
inductive FVal where
  | nan
  | inf (neg : Bool)
  | fin (neg : Bool) (m : Nat) (e : Int)
deriving DecidableEq, Repr

/-- The parameters of a floating-point element encoding (Table 02-2, Table 02-4). `special` says how the top
exponent field reads: 0 all ordinary numbers; 1 ordinary but for mantissa all ones, a NaN (E4M3); 2 infinities
and NaNs (IEEE 754). -/
structure FloatP where
  ebits : Nat
  mbits : Nat
  bias : Nat
  special : Nat
deriving DecidableEq, Repr

/-- FP32 (Table 02-2). -/
def fp32P : FloatP := ⟨8, 23, 127, 2⟩
/-- BF16 (Table 02-2). -/
def bf16P : FloatP := ⟨8, 7, 127, 2⟩
/-- FP16 (Table 02-2). -/
def fp16P : FloatP := ⟨5, 10, 15, 2⟩
/-- E4M3 (Table 02-2). -/
def e4m3P : FloatP := ⟨4, 3, 7, 1⟩
/-- E5M2 (Table 02-2). -/
def e5m2P : FloatP := ⟨5, 2, 15, 2⟩
/-- E2M3 (Table 02-2). -/
def e2m3P : FloatP := ⟨2, 3, 1, 0⟩
/-- E3M2 (Table 02-2). -/
def e3m2P : FloatP := ⟨3, 2, 3, 0⟩
/-- E2M1 (Table 02-2). -/
def e2m1P : FloatP := ⟨2, 1, 1, 0⟩

/-- The exponent of the lowest binade (Table 02-4, emin). -/
def FloatP.emin (p : FloatP) : Int := 1 - (p.bias : Int)

/-- The width of an element in bits. -/
def FloatP.width (p : FloatP) : Nat := 1 + p.ebits + p.mbits

/-- The magnitude code of the largest finite value (Table 02-2). -/
def FloatP.maxCode (p : FloatP) : Nat :=
  match p.special with
  | 0 => 2 ^ (p.ebits + p.mbits) - 1
  | 1 => 2 ^ (p.ebits + p.mbits) - 2
  | _ => (2 ^ p.ebits - 1) * 2 ^ p.mbits - 1

/-- The value an element encoding stands for (R25). -/
def FloatP.decode (p : FloatP) (c : Nat) : FVal :=
  let neg := c.testBit (p.ebits + p.mbits)
  let ef := field c p.mbits p.ebits
  let mf := c % 2 ^ p.mbits
  let top := ef == 2 ^ p.ebits - 1
  if top && p.special == 2 then (if mf = 0 then .inf neg else .nan)
  else if top && p.special == 1 && mf == 2 ^ p.mbits - 1 then .nan
  else if ef = 0 then .fin neg mf (p.emin - p.mbits)
  else .fin neg (mf + 2 ^ p.mbits) ((ef : Int) - p.bias - p.mbits)

/-- floor(log2 (m * 2^e)) of a positive magnitude. -/
def floorLog2 (m : Nat) (e : Int) : Int := (Nat.log2 m : Int) + e

/-- `m * 2^e` on the grid of step `2^ue` (R36): the number of whole steps, and what is left over, as a numerator
over a power of two `2^sh`. -/
def gridSplit (m : Nat) (e ue : Int) : Nat × Nat × Nat :=
  if ue ≤ e then (m <<< (e - ue).toNat, 0, 0)
  else
    let sh := (ue - e).toNat
    (m >>> sh, m % 2 ^ sh, sh)

/-- The rounding decision of R36 on a grid step: `sr` selects stochastic rounding with draw `r`. -/
def roundSteps (sr : Bool) (r : Nat) (m : Nat) (e ue : Int) : Nat :=
  let (q, remn, sh) := gridSplit m e ue
  if sr then (if remn * 65536 / 2 ^ sh + r ≥ 65536 then q + 1 else q)
  else if 2 * remn > 2 ^ sh || (2 * remn == 2 ^ sh && q % 2 == 1) then q + 1 else q

/-- The exponent of the grid step at a positive magnitude (R36). -/
def FloatP.stepExp (p : FloatP) (m : Nat) (e : Int) : Int :=
  max (floorLog2 m e) p.emin - p.mbits

/-- `round_magnitude` of R36 to the magnitude code of format `p`; the code may pass `maxCode`, saturation being
applied after it. A carry out of the mantissa moves into the exponent field by itself. -/
def FloatP.roundCode (p : FloatP) (sr : Bool) (r : Nat) (m : Nat) (e : Int) : Nat :=
  if m = 0 then 0
  else
    let ue := p.stepExp m e
    (ue - (p.emin - p.mbits)).toNat * 2 ^ p.mbits + roundSteps sr r m e ue

/-- The sign bit of an encoding. -/
def FloatP.signBit (p : FloatP) (neg : Bool) : Nat := if neg then 2 ^ (p.ebits + p.mbits) else 0

/-- The code of infinity in a format that has one. -/
def FloatP.infCode (p : FloatP) : Nat := (2 ^ p.ebits - 1) * 2 ^ p.mbits

/-- The canonical NaN of a format that has NaNs (R29). -/
def FloatP.nanCode (p : FloatP) : Nat :=
  if p.ebits + p.mbits == 7 then 0x7F else p.infCode + 2 ^ (p.mbits - 1)

/-- Conversion to BF16, FP16 or FP32 (R37, R526): `sat` saturates a finite result beyond the largest finite value,
otherwise it becomes infinity. -/
def FloatP.convert (p : FloatP) (sat sr : Bool) (r : Nat) : FVal → Nat
  | .nan => p.nanCode
  | .inf neg => p.signBit neg + p.infCode
  | .fin neg m e =>
    let c := p.roundCode sr r m e
    p.signBit neg + (if c ≤ p.maxCode then c else if sat then p.maxCode else p.infCode)

/-- The negation of a value; a NaN stays one. -/
def FVal.neg : FVal → FVal
  | .nan => .nan
  | .inf s => .inf !s
  | .fin s m e => .fin (!s) m e

/-- The magnitude of a value. -/
def FVal.abs : FVal → FVal
  | .nan => .nan
  | .inf _ => .inf false
  | .fin _ m e => .fin false m e

/-- Whether the value is a NaN. -/
def FVal.isNan : FVal → Bool
  | .nan => true
  | _ => false

/-- Whether the value is NaN or infinite. -/
def FVal.nonFinite : FVal → Bool
  | .fin _ _ _ => false
  | _ => true

/-- Whether the value is a zero. -/
def FVal.isZero : FVal → Bool
  | .fin _ m _ => m == 0
  | _ => false

/-- The sign of a value. -/
def FVal.sign : FVal → Bool
  | .nan => false
  | .inf s => s
  | .fin s _ _ => s

/-- The signed integer `(-1)^neg * m`. -/
def signedMag (neg : Bool) (m : Nat) : Int := if neg then -(m : Int) else m

/-- The exact product (IEEE 754): 0 times infinity is NaN. -/
def FVal.mul : FVal → FVal → FVal
  | .nan, _ => .nan
  | _, .nan => .nan
  | .inf s, .inf t => .inf (s != t)
  | .inf s, .fin t m _ => if m = 0 then .nan else .inf (s != t)
  | .fin s m _, .inf t => if m = 0 then .nan else .inf (s != t)
  | .fin s m e, .fin t n f => .fin (s != t) (m * n) (e + f)

/-- The exact sum (IEEE 754, round-to-nearest sign rule: an exact zero is +0 unless both terms are -0). -/
def FVal.add : FVal → FVal → FVal
  | .nan, _ => .nan
  | _, .nan => .nan
  | .inf s, .inf t => if s = t then .inf s else .nan
  | .inf s, .fin _ _ _ => .inf s
  | .fin _ _ _, .inf t => .inf t
  | .fin s m e, .fin t n f =>
    if m = 0 && n = 0 then .fin (s && t) 0 0
    else
      let lo := min e f
      let x := signedMag s (m <<< (e - lo).toNat) + signedMag t (n <<< (f - lo).toNat)
      .fin (decide (x < 0)) x.natAbs lo

/-- The exact comparison of two numbers that are no NaN. -/
def FVal.lt : FVal → FVal → Bool
  | .inf s, .inf t => s && !t
  | .inf s, .fin _ _ _ => s
  | .fin _ _ _, .inf t => !t
  | .fin s m e, .fin t n f =>
    let lo := min e f
    decide (signedMag s (m <<< (e - lo).toNat) < signedMag t (n <<< (f - lo).toNat))
  | _, _ => false

/-- The value times `2^k`. -/
def FVal.scale (k : Int) : FVal → FVal
  | .fin s m e => .fin s m (e + k)
  | v => v

/-- The value of an FP32 encoding. -/
def f32 (x : U32) : FVal := fp32P.decode x.toNat

/-- IEEE 754 round-to-nearest-even to FP32 (R30): overflow gives infinity. -/
def toF32 (v : FVal) : U32 := BitVec.ofNat 32 (fp32P.convert false false 0 v)

/-- FP32 canonical NaN (R29). -/
def f32NaN : U32 := 0x7FC00000

/-- FP32 addition with one rounding (R33). -/
def f32Add (a b : U32) : U32 := toF32 ((f32 a).add (f32 b))

/-- FP32 subtraction. -/
def f32Sub (a b : U32) : U32 := toF32 ((f32 a).add (f32 b).neg)

/-- FP32 multiplication. -/
def f32Mul (a b : U32) : U32 := toF32 ((f32 a).mul (f32 b))

/-- FP32 fused multiply-add, one rounding. -/
def f32Fma (a b c : U32) : U32 := toF32 (((f32 a).mul (f32 b)).add (f32 c))

/-- The quotient of two magnitudes, kept exact enough that one later rounding to FP32 or narrower is correct: at least
40 quotient bits and a sticky bit. -/
def divMag (m n : Nat) : Nat × Int :=
  let k := 40 + (Nat.log2 n + 1)
  let q := (m <<< k) / n
  let sticky := if (m <<< k) % n = 0 then 0 else 1
  (2 * q + sticky, -(k : Int) - 1)

/-- The quotient (IEEE 754), exact or with a sticky bit. -/
def FVal.div : FVal → FVal → FVal
  | .nan, _ => .nan
  | _, .nan => .nan
  | .inf _, .inf _ => .nan
  | .inf s, .fin t _ _ => .inf (s != t)
  | .fin s _ _, .inf t => .fin (s != t) 0 0
  | .fin s m e, .fin t n f =>
    if n = 0 then (if m = 0 then .nan else .inf (s != t))
    else if m = 0 then .fin (s != t) 0 0
    else
      let (q, k) := divMag m n
      .fin (s != t) q (e - f + k)

/-- FP32 division, correctly rounded. -/
def f32Div (a b : U32) : U32 := toF32 ((f32 a).div (f32 b))

/-- One step of the bitwise integer square root: `r` holds the root found so far. -/
def isqrtAux (n : Nat) : Nat → Nat → Nat
  | 0, r => r
  | k + 1, r =>
    let c := r + 2 ^ k
    isqrtAux n k (if c * c ≤ n then c else r)

/-- The integer square root of `n`. -/
def isqrt (n : Nat) : Nat := isqrtAux n (Nat.log2 n / 2 + 1) 0

/-- The square root (IEEE 754), exact or with a sticky bit: at least 40 root bits. -/
def FVal.sqrt : FVal → FVal
  | .nan => .nan
  | .inf s => if s then .nan else .inf false
  | .fin s m e =>
    if m = 0 then .fin s 0 0
    else if s then .nan
    else
      let k : Nat := 80 + (if (e - 80) % 2 = 0 then 0 else 1)
      let n := m <<< k
      let q := isqrt n
      let sticky := if q * q = n then 0 else 1
      .fin false (2 * q + sticky) ((e - k) / 2 - 1)

/-- FP32 square root, correctly rounded. -/
def f32Sqrt (a : U32) : U32 := toF32 ((f32 a).sqrt)

/-- FP32 +0.0. -/
def f32Zero : U32 := 0

/-- FP32 1.0. -/
def f32One : U32 := 0x3F800000

/-- The sign bit of an FP32 encoding. -/
def f32Sign (x : U32) : Bool := x.toNat.testBit 31

/-- The encoding with its sign bit flipped. -/
def f32Neg (x : U32) : U32 := x ^^^ 0x80000000

/-- The encoding with its sign bit cleared. -/
def f32Abs (x : U32) : U32 := x &&& 0x7FFFFFFF

/-- Whether an FP32 encoding is a NaN. -/
def f32IsNaN (x : U32) : Bool := (f32 x).isNan

/-- An FP32 result with every NaN made canonical (R29). -/
def f32Canon (x : U32) : U32 := if f32IsNaN x then f32NaN else x

/-- The FP32 encoding of an unsigned integer, rounded to nearest even. -/
def f32OfNat (n : Nat) : U32 := toF32 (.fin false n 0)

/-- The FP32 encoding of an integer, rounded to nearest even. -/
def f32OfInt (i : Int) : U32 := toF32 (.fin (decide (i < 0)) i.natAbs 0)

end Sys2Proof.Machine
end

