-- ==== Sys2Proof/Machine/Formats.lean ====
section
/-!
DEFINITION. The module's number formats (02_number_formats.md): codes and roles, block encodings, block sums
(R31, R32), output conversion (R35 to R39), moment formats (R40 to R43) and anchored sums (R44 to R52).
-/

namespace Sys2Proof.Machine

/-- The formats of Table 02-1. -/
inductive Fmt where
  | fp32 | bf16 | fp16 | e4m3 | e5m2 | e2m3 | e3m2 | e2m1 | mxint8 | m8s | m8u | as64 | as128
deriving DecidableEq, Repr

/-- The format a 4-bit code names; codes 0xD to 0xF are reserved (R23). -/
def fmtOfCode (c : Nat) : Option Fmt :=
  [Fmt.fp32, .bf16, .fp16, .e4m3, .e5m2, .e2m3, .e3m2, .e2m1, .mxint8, .m8s, .m8u, .as64, .as128][c]?

/-- The code of a format (Table 02-1). -/
def fmtCode : Fmt → Nat
  | .fp32 => 0 | .bf16 => 1 | .fp16 => 2 | .e4m3 => 3 | .e5m2 => 4 | .e2m3 => 5 | .e3m2 => 6
  | .e2m1 => 7 | .mxint8 => 8 | .m8s => 9 | .m8u => 10 | .as64 => 11 | .as128 => 12

/-- The element width in bits (Table 02-1). -/
def elemBits : Fmt → Nat
  | .fp32 => 32 | .bf16 => 16 | .fp16 => 16 | .e4m3 => 8 | .e5m2 => 8 | .e2m3 => 6 | .e3m2 => 6
  | .e2m1 => 4 | .mxint8 => 8 | .m8s => 8 | .m8u => 8 | .as64 => 64 | .as128 => 128

/-- The encoding parameters of a floating-point element format. -/
def floatParams : Fmt → Option FloatP
  | .fp32 => some fp32P | .bf16 => some bf16P | .fp16 => some fp16P | .e4m3 => some e4m3P | .e5m2 => some e5m2P
  | .e2m3 => some e2m3P | .e3m2 => some e3m2P | .e2m1 => some e2m1P
  | _ => none

/-- Whether the format is an MX format, with one E8M0 scale per block (Table 02-1). -/
def isMx : Fmt → Bool
  | .e4m3 | .e5m2 | .e2m3 | .e3m2 | .e2m1 | .mxint8 => true
  | _ => false

/-- Whether the format is an MX floating-point format (R24). -/
def isMxFloat : Fmt → Bool
  | .mxint8 => false
  | f => isMx f

/-- Whether tiles of the format exist (Table 04-1). -/
def formsTile : Fmt → Bool
  | .m8s | .m8u => false
  | _ => true

/-- Whether the format may be an array operand (Table 02-1). -/
def isArrayOperand : Fmt → Bool
  | .bf16 | .fp16 => true
  | f => isMx f

/-- Whether two operand formats form an allowed pair (R24). -/
def allowedPair (a b : Fmt) : Bool :=
  (isMxFloat a && isMxFloat b) || (a == b && (a == .mxint8 || a == .bf16 || a == .fp16))

/-- The data bytes of a block of 32 elements (R28). -/
def blockBytes (f : Fmt) : Nat := 4 * elemBits f

/-- The data bytes of a tile (Table 04-1). -/
def tileDataBytes (f : Fmt) : Nat := 128 * elemBits f

/-- The footprint of a tile in 64-byte units (Table 04-1). -/
def tileUnits (f : Fmt) : Nat := 2 * elemBits f + 1

/-- The value of an element encoding, before any scale (R25, R26, R41). -/
def elemVal (f : Fmt) (c : Nat) : FVal :=
  match floatParams f with
  | some p => p.decode c
  | none =>
    match f with
    | .mxint8 => let q := signed 8 c; .fin (decide (q < 0)) q.natAbs (-6)
    | .m8s => let q := signed 8 c; .fin (decide (q < 0)) q.natAbs 0
    | .m8u => .fin false c 0
    | _ => .nan

/-- Element `i` of a block whose data are the number `n` (R28). -/
def blockElem (f : Fmt) (n i : Nat) : Nat := field n (elemBits f * i) (elemBits f)

/-- The data of a block from its 32 element codes (R28), as a number. -/
def packElems (w : Nat) (cs : List Nat) : Nat := cs.foldr (fun c acc => c % 2 ^ w + 2 ^ w * acc) 0

/-- A block of 32 elements: element codes and, for an MX format, the E8M0 scale (0x00 otherwise). -/
structure Block where
  codes : List Nat
  scale : Nat
deriving DecidableEq, Repr

/-- The exact values of a block's elements under its scale (R27). -/
def blockVals (f : Fmt) (b : Block) : List FVal :=
  if isMx f then
    (if b.scale = 0xFF then b.codes.map (fun _ => FVal.nan)
     else b.codes.map (fun c => (elemVal f c).scale ((b.scale : Int) - 127)))
  else b.codes.map (elemVal f)

/-- An exact sum of values, +0 when it is zero. -/
def exactSum (vs : List FVal) : FVal :=
  match vs.foldl FVal.add (.fin false 0 0) with
  | .fin s m e => if m = 0 then .fin false 0 0 else .fin s m e
  | v => v

/-- The largest floor(log2) of the non-zero finite values of a list. -/
def maxBinade (vs : List FVal) : Option Int :=
  vs.foldl (fun acc v =>
    match v with
    | .fin _ m e =>
      if m = 0 then acc
      else match acc with
        | none => some (floorLog2 m e)
        | some b => some (max b (floorLog2 m e))
    | _ => acc) none

/-- A product truncated toward zero to a multiple of `2^l` (R32 step 4). -/
def truncTo (l : Int) : FVal → FVal
  | .fin s m e => let (q, _, _) := gridSplit m e l; .fin s q l
  | v => v

/-- The block sum of an operand pair (R31 for MX pairs, R32 for BF16 and FP16), rounded once to FP32. -/
def blockSum (fa fb : Fmt) (a b : Block) : U32 :=
  let ps := List.zipWith FVal.mul (blockVals fa a) (blockVals fb b)
  if isMx fa then toF32 (exactSum ps)
  else
    match maxBinade ps with
    | none => toF32 (exactSum ps)
    | some emax => toF32 (exactSum (ps.map (truncTo (emax - 65))))

/-- The conversion control field CVT (R35): SAT and stochastic rounding. -/
structure Cvt where
  sat : Bool
  sr : Bool
deriving DecidableEq, Repr

/-- CVT decoded; bit 2 and RND 0b10, 0b11 are reserved (R35). -/
def cvtOf (c : BitVec 4) : Cvt := ⟨c.getLsbD 3, c.getLsbD 0⟩

/-- Whether a CVT field holds no reserved value (R35). -/
def cvtOk (c : BitVec 4) : Bool := !(c.getLsbD 2) && !(c.getLsbD 1)

/-- emax_elem of R38. -/
def emaxElem : Fmt → Int
  | .e4m3 => 8 | .e5m2 => 15 | .e2m3 => 2 | .e3m2 => 4 | .e2m1 => 2 | _ => 0

/-- One element of the MX conversion of R38: value `v`, shared exponent `s`, draw `r`. -/
def mxElem (f : Fmt) (s : Int) (sr : Bool) (r : Nat) (v : FVal) : Nat :=
  match v with
  | .fin neg m e =>
    match floatParams f with
    | some p =>
      let t := min (p.roundCode sr r m (e - s)) p.maxCode
      if t = 0 then 0 else p.signBit neg + t
    | none =>
      let t := min (if m = 0 then 0 else roundSteps sr r m (e - s) (-6)) 127
      if neg then (256 - t) % 256 else t
  | _ => 0

/-- The conversion of 32 FP32 values, one block in ascending K, to an MX format (R38). -/
def mxConvert (f : Fmt) (sr : Bool) (draws : List Nat) (xs : List U32) : Block :=
  let vs := xs.map f32
  if vs.any FVal.nonFinite then ⟨vs.map (fun _ => 0), 0xFF⟩
  else
    match maxBinade vs with
    | none => ⟨vs.map (fun _ => 0), 0x7F⟩
    | some b =>
      let s := clampInt (-127) 127 (b - emaxElem f)
      ⟨vs.mapIdx (fun i v => mxElem f s sr (draws.getD i 0) v), (s + 127).toNat⟩

/-- The conversion of 32 FP32 values to a block of a station output format: FP32 unchanged (R526) but for a NaN, which
leaves as the canonical one (R29), BF16 and FP16 by R37, MX by R38. -/
def convertBlock (f : Fmt) (cvt : Cvt) (draws : List Nat) (xs : List U32) : Block :=
  if isMx f then mxConvert f cvt.sr draws xs
  else
    match f with
    | .bf16 => ⟨xs.mapIdx (fun i x => bf16P.convert cvt.sat cvt.sr (draws.getD i 0) (f32 x)), 0⟩
    | .fp16 => ⟨xs.mapIdx (fun i x => fp16P.convert cvt.sat cvt.sr (draws.getD i 0) (f32 x)), 0⟩
    | _ => ⟨xs.map (fun x => (f32Canon x).toNat), 0⟩

/-- The FP32 values of a block (R39): exact for BF16 and FP16, rounded once for MX elements. -/
def blockToF32 (f : Fmt) (b : Block) : List U32 :=
  match f with
  | .fp32 => b.codes.map (BitVec.ofNat 32)
  | _ => (blockVals f b).map toF32

/-- The largest code below `2^k + c` whose BF16 value times `kk` stays below `amax` (R42 step 3, search by bits). -/
def scaleSearch (kk : Nat) (amax : FVal) : Nat → Nat → Nat
  | 0, c => c
  | k + 1, c =>
    let c' := c + 2 ^ k
    scaleSearch kk amax k (if ((bf16P.decode c').mul (.fin false kk 0)).lt amax then c' else c)

/-- The moment block scale of R42 step 3: the smallest positive BF16 `s` with `s * K >= amax`. -/
def m8Scale (kk : Nat) (amax : FVal) : Nat := scaleSearch kk amax 15 0 + 1

/-- The larger of two magnitudes. -/
def fmaxMag (a b : FVal) : FVal := if a.abs.lt b.abs then b.abs else a.abs

/-- One moment element (R42 step 4): `t = round_rne(x / s)`, then the integer chosen by stochastic rounding. -/
def m8Elem (uns : Bool) (scale : Nat) (r : Nat) (x : U32) : Nat :=
  let t := (f32 x).div (bf16P.decode scale)
  match f32 (toF32 t) with
  | .fin neg m e =>
    let q := if m = 0 then 0 else roundSteps true r m e 0
    if uns then min q 255 else (if neg then (256 - min q 127) % 256 else min q 127)
  | _ => 0

/-- A moment block of 32 FP32 inputs (R42): M8U when `uns` (inputs are second moments v), else M8S. The result is the BF16
scale and the 32 element bytes. -/
def m8Convert (uns : Bool) (draws : List Nat) (xs : List U32) : Nat × List Nat :=
  let bad := xs.any (fun x => (f32 x).nonFinite || (uns && (f32 x).sign && !(f32 x).isZero))
  if bad then (0x7FC0, xs.map (fun _ => 0))
  else
    let ins := if uns then xs.map f32Sqrt else xs
    let amax := ins.foldl (fun acc x => fmaxMag acc (f32 x)) (.fin false 0 0)
    if amax.isZero then (0, xs.map (fun _ => 0))
    else
      let s := m8Scale (if uns then 255 else 127) amax
      (s, ins.mapIdx (fun i x => m8Elem uns s (draws.getD i 0) x))

/-- The FP32 value of a moment element (R41): `q * scale`, or the square of `u * scale` for the second moment. -/
def m8Value (uns : Bool) (scale c : Nat) : U32 :=
  let x := toF32 ((elemVal (if uns then .m8u else .m8s) c).mul (bf16P.decode scale))
  if uns then f32Mul x x else x

/-- The anchor byte of one FP32 contribution (R45). -/
def anchorByte (x : U32) : Nat :=
  let e := field x.toNat 23 8
  if field x.toNat 0 31 = 0 then 0 else max 1 e

/-- The fraction bits of an anchored format: 46 for AS64, 110 for AS128 (R44). -/
def anchorFrac : Fmt → Nat
  | .as128 => 110
  | _ => 46

/-- A contribution converted under anchor byte `b` (R46), truncated toward zero; one whose byte exceeds `b` is converted as 0
(R50), and so is every one under the bytes 0x00 and 0xFF (R44, R48). -/
def anchorConvert (f : Fmt) (b : Nat) (x : U32) : Int :=
  if anchorByte x > b || b = 0 || b = 0xFF then 0
  else
    match f32 x with
    | .fin neg m e =>
      let (q, _, _) := gridSplit m (e + anchorFrac f - ((b : Int) - 127)) 0
      signedMag neg q
    | _ => 0

/-- The final value of an anchored element (R48): `n * 2^(A - frac)` rounded once to nearest even, FP32 (`bf = false`) or BF16;
NaN under a reduced byte of 0xFF. -/
def anchorFinal (f : Fmt) (bf sat : Bool) (b : Nat) (n : Int) : Nat :=
  let p := if bf then bf16P else fp32P
  if b = 0xFF then p.nanCode
  else if b = 0 then 0
  else p.convert sat false 0 (.fin (decide (n < 0)) n.natAbs ((b : Int) - 127 - anchorFrac f))

/-- Whether a chunk is missed (R50): the reduced byte exceeds the carried byte and is not 0xFF. -/
def anchorMissed (bc reduced : Nat) : Bool := decide (bc < reduced) && reduced != 0xFF

/-- The carried byte for the replay of a missed chunk (R51). -/
def anchorRaised (h reduced : Nat) : Nat := min (reduced + h) 0xFE

/-- The carried byte of the next step after a seal with no miss (R51). -/
def anchorNext (h bc reduced : Nat) : Nat :=
  if reduced = 0xFF then bc else if reduced = 0 then h else min (reduced + h) 0xFE

/-- The sum of two anchored integers, two's complement of the element width, no rounding and no saturation (R47). -/
def anchorAdd (f : Fmt) (a b : Int) : Int :=
  let w := elemBits f
  signed w (unsigned w (a + b))

end Sys2Proof.Machine
end

