-- ==== Sys2Proof/Machine/Tiles.lean ====
section
/-!
DEFINITION. Tiles and trailers (04_stations_and_streams.md R86 to R93): reading a tile's bytes as blocks, writing
one from blocks, the residue nibbles and TCRC.
-/

namespace Sys2Proof.Machine

/-- A tile trailer (Table 04-2), with what its two check fields say about the bytes read. -/
structure Trailer where
  scale : List Byte
  residue : BitVec 64
  step : StepNo
  tenant : TenantId
  fmt : BitVec 4
  orient : Bool
  poison : Bool
  checked : Bool
  unsealed : Bool
  rowsM1 : BitVec 5
  colsM1 : BitVec 5
  producer : Lsid
  beat : BitVec 16
deriving DecidableEq, Repr

/-- The trailer fields in bytes 0 to 59 (Table 04-2). -/
def trailerOf (bs : List Byte) : Trailer :=
  let b46 := fieldAt bs 46 1
  { scale := padTo 32 (slice bs 0 32)
    residue := BitVec.ofNat 64 (fieldAt bs 32 8)
    step := BitVec.ofNat 40 (fieldAt bs 40 5)
    tenant := BitVec.ofNat 8 (fieldAt bs 45 1)
    fmt := BitVec.ofNat 4 b46
    orient := bitOf b46 4
    poison := bitOf b46 5
    checked := bitOf b46 6
    unsealed := bitOf b46 7
    rowsM1 := BitVec.ofNat 5 (fieldAt bs 47 1)
    colsM1 := BitVec.ofNat 5 (fieldAt bs 48 1)
    producer := BitVec.ofNat 16 (fieldAt bs 52 2)
    beat := BitVec.ofNat 16 (fieldAt bs 54 2) }

/-- Whether TCRC matches bytes 0 to 59 (R91). -/
def tcrcOk (bs : List Byte) : Bool := fieldAt bs 60 4 == crc32c (slice bs 0 60)

/-- Bytes 0 to 59 of a trailer (Table 04-2). -/
def trailerBody (t : Trailer) : List Byte :=
  padTo 32 t.scale ++ bytesLE 8 t.residue.toNat ++ bytesLE 5 t.step.toNat ++ [t.tenant] ++
  [BitVec.ofNat 8 (t.fmt.toNat + 16 * boolNat t.orient + 32 * boolNat t.poison + 64 * boolNat t.checked +
    128 * boolNat t.unsealed)] ++
  bytesLE 1 t.rowsM1.toNat ++ bytesLE 1 t.colsM1.toNat ++ [0, 0, 0] ++
  bytesLE 2 t.producer.toNat ++ bytesLE 2 t.beat.toNat ++ [0, 0, 0, 0]

/-- The 64 bytes of a trailer, TCRC computed (R91). -/
def trailerBytes (t : Trailer) : List Byte := let b := trailerBody t; b ++ bytesLE 4 (crc32c b)

/-- Residue nibble `j` of tile data (R90): the data of blocks 2j and 2j + 1 as one integer, modulo 15. -/
def residueNibble (f : Fmt) (data : List Byte) (j : Nat) : Nat :=
  natLE (slice data (2 * j * blockBytes f) (2 * blockBytes f)) % 15

/-- The RESIDUE field of tile data (R90). -/
def residueOf (f : Fmt) (data : List Byte) : BitVec 64 :=
  BitVec.ofNat 64 ((List.range 16).foldr (fun j acc => residueNibble f data j + 16 * acc) 0)

/-- Block `i` of tile data with its scale from the trailer (R86, R89). -/
def tileBlock (f : Fmt) (data : List Byte) (scale : List Byte) (i : Nat) : Block :=
  let n := natLE (slice data (i * blockBytes f) (blockBytes f))
  { codes := tabulate 32 (blockElem f n), scale := if isMx f then (scale.getD i 0).toNat else 0 }

/-- The 32 blocks of a tile. -/
def tileBlocks (f : Fmt) (data scale : List Byte) : List Block := tabulate 32 (tileBlock f data scale)

/-- Tile data from 32 blocks (R28, R86). -/
def blocksData (f : Fmt) (bs : List Block) : List Byte :=
  (bs.map (fun b => bytesLE (blockBytes f) (packElems (elemBits f) b.codes))).flatten

/-- The SCALE field for the blocks of a tile (Table 04-2); for an anchored format `anchor` is its first byte. -/
def blocksScale (f : Fmt) (anchor : Nat) (bs : List Block) : List Byte :=
  if isMx f then bs.map (fun b => BitVec.ofNat 8 b.scale)
  else if f == .as64 || f == .as128 then BitVec.ofNat 8 anchor :: List.replicate 31 0
  else List.replicate 32 0

/-- A block of an all-zero tile (Table 04-3, TENANT row). -/
def zeroBlock (f : Fmt) : Block := ⟨List.replicate 32 0, if isMx f then 0x7F else 0⟩

/-- The element of an (r, c) matrix position: which block holds it, and where in the block (R87). -/
def blockPos (orient : Bool) (r c : Nat) : Nat × Nat := if orient then (c, r) else (r, c)

/-- The transpose of 32 rows of 32 codes. -/
def transpose32 (rows : List (List Nat)) : List (List Nat) :=
  tabulate 32 (fun c => tabulate 32 (fun r => (rows.getD r []).getD c 0))

/-- Tile rows as FP32 values in matrix order (row r, column c), decoded under R39. -/
def tileMatrix (f : Fmt) (orient : Bool) (blocks : List Block) : List (List U32) :=
  let rows := blocks.map (blockToF32 f)
  if orient then tabulate 32 (fun r => tabulate 32 (fun c => (rows.getD c []).getD r 0)) else rows

/-- Zero in every element outside the extent (R88), for rows of values in block order. -/
def maskExtent {α : Type} (z : α) (orient : Bool) (rowsM1 colsM1 : Nat) (blocks : List (List α)) : List (List α) :=
  blocks.mapIdx (fun i b => b.mapIdx (fun j x =>
    let r := if orient then j else i
    let c := if orient then i else j
    if r ≤ rowsM1 && c ≤ colsM1 then x else z))

/-- Whether step `a` is later than step `b` (10 R339): their difference modulo 2^40 lies in 1 to 2^39 - 1. -/
def stepLater (a b : StepNo) : Bool := let d := (a - b).toNat; decide (1 ≤ d) && decide (d < 2 ^ 39)

end Sys2Proof.Machine
end

