-- ==== Sys2Proof/Machine/Ops.lean ====
section
/-!
DEFINITION. The named operations the meanings are written over: effects on the machine, part updates, the error log and its posting,
completion queues, addresses and memory accesses, and verdicts.
-/

namespace Sys2Proof.Machine

/-! ### Effects -/

/-- What an effect works on: power (read only), everything but power and memory, memory as written so far, and the writes made, last
first. -/
structure Mach where
  pwr : Power
  core : Core
  mem : Mem
  wr : List Wr

/-- An effect on everything but memory and power. -/
def runC (f : Power → Mem → Core → Core) (s : State) : Host.Outcome State Fault Refusal :=
  .next { s with core := f s.pwr s.mem { s.core with out := [] } }

/-- The machine an effect starts from. -/
def startMach (s : State) : Mach := { pwr := s.pwr, core := { s.core with out := [] }, mem := s.mem, wr := [] }

/-- An effect on everything but power: the writes it made reach memory in the order it made them. -/
def runM (f : Mach → Mach) (s : State) : Host.Outcome State Fault Refusal :=
  let m := f (startMach s)
  .next { s with core := m.core, mem := applyWrs s.mem m.wr.reverse }

/-- An effect that changes power first (from the state before it) and the rest after, told what power was. -/
def runP (g : Core → Power → Power) (f : Power → Mach → Mach) (s : State) : Host.Outcome State Fault Refusal :=
  let p := g s.core s.pwr
  let m := f s.pwr { pwr := p, core := { s.core with out := [] }, mem := s.mem, wr := [] }
  .next { s with pwr := p, core := m.core, mem := applyWrs s.mem m.wr.reverse }

/-- A change of the core inside an effect. -/
def Mach.up (f : Core → Core) (m : Mach) : Mach := { m with core := f m.core }

/-- A write inside an effect. -/
def Mach.write (w : Wr) (m : Mach) : Mach := { m with mem := applyWr m.mem w, wr := w :: m.wr }

/-- An output of the command. -/
def Core.emit (o : Out) (c : Core) : Core := { c with out := c.out ++ [o] }

/-- A fresh free value (notes/assumptions/7) and the core with its counter advanced. -/
def Core.fresh (c : Core) : BitVec 64 × Core := (Config.freeWord c.nonce, { c with nonce := c.nonce + 1 })

/-! ### Parts -/

/-- Partition `p`. -/
def Core.part (c : Core) (p : Nat) : Part := c.parts.getD p {}

/-- Partition `p` changed. -/
def Core.modPart (p : Nat) (f : Part → Part) (c : Core) : Core := { c with parts := modAt c.parts p f }

/-- The arrays of die `p` changed. -/
def Core.modMx (p : Nat) (f : MxPart → MxPart) (c : Core) : Core := c.modPart p (fun q => { q with mx := f q.mx })

/-- The streams of die `p` changed. -/
def Core.modStreams (p : Nat) (f : StreamPart → StreamPart) (c : Core) : Core :=
  c.modPart p (fun q => { q with streams := f q.streams })

/-- The slot table of partition `p` changed. -/
def Core.modSlots (p : Nat) (f : SlotPart → SlotPart) (c : Core) : Core :=
  c.modPart p (fun q => { q with slots := f q.slots })

/-- The memories of partition `p` changed. -/
def Core.modMem (p : Nat) (f : MemPart → MemPart) (c : Core) : Core :=
  c.modPart p (fun q => { q with memp := f q.memp })

/-- The control cores of die `p` changed. -/
def Core.modCores (p : Nat) (f : CorePart → CorePart) (c : Core) : Core :=
  c.modPart p (fun q => { q with cores := f q.cores })

/-- Tenant `t`; one never enabled is as at reset. -/
def Core.ten (c : Core) (t : Nat) : Ten := (lookup? t c.tens).getD {}

/-- Tenant `t` changed. -/
def Core.modTen (t : Nat) (f : Ten → Ten) (c : Core) : Core := { c with tens := insertKey t (f (c.ten t)) c.tens }

/-- The admitted plan with handle `h`. -/
def Core.plan? (c : Core) (h : Nat) : Option Plan := c.plans.find? (fun p => p.handle == h)

/-- The job of plan `h`. -/
def Core.job? (c : Core) (h : Nat) : Option Job := c.jobs.find? (fun j => j.plan == h)

/-- The job of plan `h` changed. -/
def Core.modJob (h : Nat) (f : Job → Job) (c : Core) : Core :=
  { c with jobs := c.jobs.map (fun j => if j.plan == h then f j else j) }

/-- The plan `h` changed. -/
def Core.modPlan (h : Nat) (f : Plan → Plan) (c : Core) : Core :=
  { c with plans := c.plans.map (fun p => if p.handle == h then f p else p) }

/-! ### Queues and unsolicited entries -/

/-- Entries of a completion queue that are written and not released (R450). -/
def Queue.used (q : Queue) : Nat := if q.entries = 0 then 0 else (q.tail + q.entries - q.head) % q.entries

/-- Whether a completion queue has a slot that is neither written nor reserved (R450). -/
def Queue.hasFree (q : Queue) : Bool := q.kind == .cq && !q.err && decide (q.used + q.reserved + 1 < q.entries)

/-- The 32 bytes of a reply or unsolicited entry (R455). -/
def entryBytes (tag status : Nat) (detail : List Byte) : List Byte :=
  bytesLE 4 tag ++ bytesLE 2 status ++ padTo 26 detail

/-- Interrupts due after a completion entry: the vector is signalled when COAL_COUNT entries wait, or at once for COAL_US 0 (R452). -/
def signalDue (q : Queue) : Bool := decide (q.coalCount ≤ q.unsignalled) || q.coalUs == 0

/-- A completion entry written into queue `qn` of tenant `t`: the ring slot, the shadow, and the interrupt that follows it (R449, R452);
a queue in error is written no more (R453). -/
def Core.cqWrite (t qn : Nat) (bytes : List Byte) (c : Core) : Core :=
  match lookup? qn (c.ten t).queues with
  | none => c
  | some q =>
    if q.err then c
    else
      let q1 := { q with tail := (q.tail + 1) % max q.entries 1, unsignalled := q.unsignalled + 1 }
      let due := signalDue q1
      let q2 := if due then { q1 with unsignalled := 0 } else q1
      let c1 := c.modTen t (fun x => { x with queues := insertKey qn q2 x.queues })
      let c2 := (c1.emit (.cqEntry (BitVec.ofNat 8 t) qn q.tail bytes)).emit (.shadow (BitVec.ofNat 8 t) qn q1.tail)
      if due && q.vector != 0xFF then c2.emit (.msix (BitVec.ofNat 8 t) q.vector) else c2

/-- Whether queue 1 of tenant `t` can take an unsolicited entry. -/
def Core.cq1Free (t : Nat) (c : Core) : Bool :=
  match lookup? 1 (c.ten t).queues with
  | some q => q.hasFree
  | none => false

/-- An unsolicited entry that is not an EVENT (R458): written when queue 1 has a slot and nothing waits before it, else kept in the FIFO of
64, whose oldest entry is dropped and counted when it is full. -/
def Core.unsolicited (t status : Nat) (detail : List Byte) (c : Core) : Core :=
  if c.cq1Free t && (c.ten t).fifo.isEmpty then c.cqWrite t 1 (entryBytes 0xFFFFFFFF status detail)
  else c.modTen t (fun x =>
    let u : Unsol := { status := BitVec.ofNat 16 status, detail := detail }
    if x.fifo.length < 64 then { x with fifo := x.fifo ++ [u] }
    else { x with fifo := x.fifo.drop 1 ++ [u], unsolLost := satInc x.unsolLost })

/-- A QUEUE_ERROR entry, and the queue put into error state; the admin pair instead drops ADMIN_LIVE (R453). -/
def Core.queueError (t qn reason : Nat) (c : Core) : Core :=
  let c1 := c.modTen t (fun x =>
    { x with queues := x.queues.map (fun p => if p.1 == qn then (p.1, { p.2 with err := true }) else p) })
  if qn ≤ 1 then c1.modTen t (fun x => { x with adminLive := false })
  else c1.unsolicited t 0xF6 (bytesLE 2 qn ++ bytesLE 1 reason)

/-! ### The error log -/

/-- A monitor reading, `d` where none is listed. -/
def reading {w : Nat} (l : List ((Nat × Nat) × BitVec w)) (die i : Nat) (d : BitVec w) : BitVec w :=
  (lookup? (die, i) l).getD d

/-- The hottest sensor of a die that is not excluded (R411, R426): 25 °C where none is listed (notes/assumptions/5). -/
def Core.dieTemp (c : Core) (die : Nat) : BitVec 16 :=
  let rs := (c.health.temps.filter (fun p => p.1.1 == die && !(c.health.excluded.contains p.1))).map Prod.snd
  match rs with
  | [] => 200
  | r :: rest => rest.foldl (fun a b => if a.toInt < b.toInt then b else a) r

/-- The core rail voltage of a die in mV: 750 where none is listed (notes/assumptions/5). -/
def Core.dieVolt (c : Core) (die : Nat) : BitVec 16 := reading c.health.volts die 0 750

/-- The 20 detail bytes of an EVENT entry's first part and the rest (Table 13-7, 0x00F0). -/
def eventDetail (r : Rec) : List Byte :=
  bytesLE 2 r.code.toNat ++ [r.cls, r.sev, r.die, r.block] ++ bytesLE 4 r.seq.toNat ++ bytesLE 8 r.time.toNat ++
  bytesLE 5 (match r.step with | some s => s.toNat | none => 0) ++ [r.lpart] ++ bytesLE 2 r.inst.toNat

/-- Bytes 0 to 59 of a record (Table 12-2). -/
def recBody (r : Rec) : List Byte :=
  bytesLE 2 r.code.toNat ++ [r.cls, r.sev] ++ bytesLE 4 r.seq.toNat ++ bytesLE 8 r.time.toNat ++ [r.die, r.block] ++
  bytesLE 2 r.inst.toNat ++ bytesLE 2 r.oper.toNat ++ bytesLE 2 r.temp.toNat ++ bytesLE 2 r.volt.toNat ++
  [match r.tenant with | some t => t | none => 0] ++
  [BitVec.ofNat 8 (boolNat r.tenant.isSome + 2 * boolNat r.step.isSome + 4 * boolNat r.posted)] ++
  bytesLE 5 (match r.step with | some s => s.toNat | none => 0) ++ [r.lpart] ++ bytesLE 2 r.beat.toNat ++
  bytesLE 4 r.cycle.toNat ++ padTo 20 r.detail

/-- The 64 bytes of a record (Table 12-2). -/
def recBytes (r : Rec) : List Byte := let b := recBody r; b ++ bytesLE 4 (crc32c b)

/-- Whether ERR_LOG_READ has passed record number `n` (R416). -/
def readPassed (rd n : BitVec 32) : Bool := let d := (rd - n).toNat; decide (1 ≤ d) && decide (d ≤ 2 ^ 31 - 1)

/-- A record entered into the ring: the oldest of 4,096 is overwritten, and counted when it had not been read; CLASS 0x2 and 0x4 also
enter the fault history of 256 (R416). -/
def Log.push (l : Log) (r : Rec) : Log :=
  let lost := decide (4096 ≤ l.recs.length) && !(readPassed l.read (l.written - 4096))
  { l with
    recs := (r :: l.recs).take 4096
    written := l.written + 1
    overrun := if lost then satInc l.overrun else l.overrun
    history := if r.cls == 2 || r.cls == 4 then (r :: l.history).take 256 else l.history }

/-- Cycles per microsecond of a profile (Table 06-1). -/
def cyclesPerUs (profile : BitVec 8) : Nat := if profile == 2 then 1400 else if profile == 3 then 1150 else 1600

/-- The beat cycle of the module's beat (06 R157): whole core cycles since the last edge. -/
def Core.beatCycleNow (c : Core) : Nat := c.clk.beatAcc / 16000

/-- The beat cycle counts `n` ns on at a throttle ratio of `r` sixteenths (06 R157, R166). -/
def Clock.run (profile : BitVec 8) (r n : Nat) (k : Clock) : Clock := { k with beatAcc := k.beatAcc + n * r * cyclesPerUs profile }

/-- An error record written (R411, R416, R417): SEQ, TIME, TEMP and VOLT are filled in, and the beat cycle when no job applies; a record with a tenant is posted to
queue 1 when it has a free slot, and an unposted one is counted. -/
def Core.logRec (r : Rec) (c : Core) : Core :=
  let die := r.die.toNat
  let post := match r.tenant with | some t => c.cq1Free t.toNat | none => false
  let r1 := { r with seq := c.log.written, time := c.clk.count, temp := c.dieTemp die, volt := c.dieVolt die, posted := post,
                     cycle := if r.step.isSome then r.cycle else BitVec.ofNat 28 c.beatCycleNow }
  let c1 := { c with log := c.log.push r1 }
  match r.tenant with
  | none => c1
  | some t =>
    if post then c1.cqWrite t.toNat 1 (entryBytes 0xFFFFFFFF 0xF0 (eventDetail r1))
    else c1.modTen t.toNat (fun x => { x with eventsUnposted := satInc x.eventsUnposted })

/-- A record that concerns the module and no job. -/
def modRec (code cls sev die block inst : Nat) : Rec :=
  { code := BitVec.ofNat 16 code, cls := BitVec.ofNat 8 cls, sev := BitVec.ofNat 8 sev, die := BitVec.ofNat 8 die,
    block := BitVec.ofNat 8 block, inst := BitVec.ofNat 16 inst }

/-- The fields a record takes from a job: tenant, step, beat and schedule cycle (R411). -/
def jobRec (j : Job) (r : Rec) : Rec :=
  { r with tenant := some j.tenant, step := some j.step, beat := BitVec.ofNat 16 j.beat, cycle := BitVec.ofNat 28 j.sched }

/-- COUNTER_SATURATED (R436), once per saturation and only when its event is enabled: block base index, instance, register offset. -/
def Core.counterEvent (bit : Nat) (newly : Bool) (blk inst off : Nat) (c : Core) : Core :=
  if newly && c.health.eventEn.getLsbD bit then
    c.logRec { modRec 0x705 0 0 0x20 0 0 with
      detail := bytesLE 1 blk ++ bytesLE 1 inst ++ bytesLE 4 off ++ bytesLE 1 8 }
  else c

/-! ### Verdicts -/

/-- The verdict of the step a job runs, fresh when there is none yet. -/
def Job.verdict (j : Job) (s : StepNo) : Verdict :=
  (j.verdicts.find? (fun v => v.step == s)).getD { step := s, attempt := j.attempt }

/-- The verdict of step `s` changed. -/
def Job.modVerdict (s : StepNo) (f : Verdict → Verdict) (j : Job) : Job :=
  { j with verdicts := (j.verdicts.filter (fun v => !(v.step == s))) ++ [f (j.verdict s)] }

/-- Cause 'fault' of Table 10-5: 0 clean, 1 anchor miss, 2 fault, 3 member failed. -/
def causeFault : Nat := 2

/-- A verdict made unclean with a cause: the larger code stands (10 R349). -/
def Job.unclean (cause : Nat) (j : Job) : Job :=
  j.modVerdict j.step (fun v => { v with cause := max v.cause cause })

/-- The first poison-origin record of a step kept (R419). -/
def Job.noteOrigin (cls code : Nat) (j : Job) : Job :=
  j.modVerdict j.step (fun v => if v.origin.isSome then v else { v with origin := some (cls, code) })

/-! ### Addresses -/

/-- The physical bank that serves a logical bank of a die (R206, R209): ballast bank 32 in place of a retired one. -/
def MemPart.bank (mp : MemPart) (l : Nat) : Nat := if mp.smBallastUsed && mp.smSubst.toNat == l then 32 else l

/-- The key of station memory unit `a` of die `p` (R206): bank A[7:3], line A[22:8], unit A[2:0]. -/
def Core.smUnit (c : Core) (p a : Nat) : Nat :=
  smKey p ((c.part p).memp.bank (field a 3 5)) (field a 8 15 * 512 + field a 0 3 * 64)

/-- The physical partition of a plan's logical partition (R120). -/
def Plan.phys (p : Plan) (lp : Nat) : Option Nat := (p.pmap.getD lp none)

/-- The key of a byte of a tenant's HBM view (R218), when its extent is mapped. -/
def Core.hbmView (c : Core) (t : TenantId) (stack off : Nat) : Option Nat :=
  (lookup? (t, stack, off / 2 ^ 26) c.leases.hbm).map (fun ext => hbmKey (ext / 1024) (ext % 1024 * 2 ^ 26 + off % 2 ^ 26))

/-- The key of the byte at an offset of a space in a tenant's view (Table 07-1, R205), with logical partitions bound by `pm`: spaces 0 HBM,
1 Commons, 2 station memory. None when it is out of range. -/
def Core.resolve (c : Core) (t : TenantId) (pm : Nat → Option Nat) (space off : Nat) : Option Nat :=
  match space with
  | 0 =>
    if field off 39 9 ≠ 0 then none
    else (pm (field off 36 3)).bind (fun p => c.hbmView t p (field off 0 36))
  | 1 =>
    if field off 33 15 ≠ 0 then none
    else (pm (field off 30 3)).bind (fun p =>
      let g := field off 24 6
      if lookup? (p, g) c.leases.granules = some t then some (cmKey p g (field off 0 24)) else none)
  | 2 =>
    if field off 33 15 ≠ 0 || bitOf off 29 then none
    else (pm (field off 30 3)).map (fun p => c.smUnit p (field off 6 23) + field off 0 6)
  | _ => none

/-- The keys of `n` units from an offset of a space; none when any is out of range. -/
def Core.resolveUnits (c : Core) (t : TenantId) (pm : Nat → Option Nat) (space off n : Nat) : Option (List Nat) :=
  (List.range n).foldr (fun i acc =>
    match c.resolve t pm space (off + 64 * i), acc with
    | some k, some ks => some (k :: ks)
    | _, _ => none) (some [])

/-! ### Memory accesses -/

/-- A write-generation counter (R235). -/
def Core.gen (c : Core) (region : Nat) : BitVec 48 := (lookup? region c.gens).getD 0

/-- The write-generation region of a key (R235): a logical bank of the address map, a granule, or 16 MiB of a stack's physical offsets. -/
def Core.regionOf (c : Core) (k : Nat) : Nat :=
  let r := k / 2 ^ 24
  if r < 264 && r % 33 = 32 then r / 33 * 33 + (c.part (r / 33)).memp.smSubst.toNat else r

/-- The counters advanced by `n` for a region (R235). -/
def Core.bumpGen (region n : Nat) (c : Core) : Core :=
  { c with gens := insertKey region (c.gen region + BitVec.ofNat 48 n) c.gens }

/-- HBM lines written leave every Commons cache of the module (R215). -/
def Core.dropLines (lo n : Nat) (c : Core) : Core :=
  { c with commonsLines := c.commonsLines.map (fun p =>
      (p.1, p.2.filter (fun l => !(inRange l lo n)))) }

/-- `n` units written from key `k` on, whatever the source: each region counts its units (R235), and HBM lines leave the Commons caches (R215). -/
def Core.wrote (k n : Nat) (c : Core) : Core :=
  let c1 := (List.range ((k + 64 * n - 1) / 2 ^ 24 + 1 - k / 2 ^ 24)).foldl (fun c i =>
    let a := (k / 2 ^ 24 + i) * 2 ^ 24
    c.bumpGen (c.regionOf a) ((min (k + 64 * n) (a + 2 ^ 24) - max k a) / 64)) c
  if isHbmKey k then c1.dropLines (k / 64) n else c1

/-- Bytes written from a key on as whole units with clean check bits, counted as any write is. -/
def Mach.store (k : Nat) (bs : List Byte) (m : Mach) : Mach :=
  ((m.write (.bytes k bs)).write (.poison (k / 64) (ceilDiv bs.length 64) false)).up (Core.wrote k (ceilDiv bs.length 64))

/-- One whole 64-byte unit written at a key, its poison bit set to `p` (R229), counted (R235), and its line dropped from the Commons caches
when it lies in HBM (R215). -/
def Mach.putUnit (k : Nat) (bs : List Byte) (p : Bool) (m : Mach) : Mach :=
  let m1 := (m.write (.bytes k (padTo 64 bs))).write (.poison (k / 64) 1 p)
  m1.up (fun c => let c1 := c.bumpGen (c.regionOf k) 1; if isHbmKey k then c1.dropLines (k / 64) 1 else c1)

/-- Units written at the keys of a list, in order, from consecutive 64-byte pieces of `bs`. -/
def Mach.putUnits (keys : List Nat) (bs : List Byte) (p : Bool) (m : Mach) : Mach :=
  (keys.zip (chunks 64 bs)).foldl (fun acc kb => acc.putUnit kb.1 kb.2 p) m

/-- Bytes written inside one unit by read-modify-write: a poison bit that is set stays set (R229). -/
def Mach.patch (k : Nat) (bs : List Byte) (m : Mach) : Mach :=
  let m1 := m.write (.bytes k bs)
  m1.up (fun c => let c1 := c.bumpGen (c.regionOf k) 1; if isHbmKey k then c1.dropLines (k / 64) 1 else c1)

/-- The 64 bytes of the unit at a key. -/
def Mach.unit (m : Mach) (k : Nat) : List Byte := memBytes m.mem (k / 64 * 64) 64

/-- Whether the unit at a key is poisoned. -/
def Mach.bad (m : Mach) (k : Nat) : Bool := memPoisoned m.mem (k / 64) 1

/-- The bytes of the units at the keys of a list. -/
def Mach.units (m : Mach) (keys : List Nat) : List Byte := (keys.map m.unit).flatten

/-- Whether any unit of a list of keys is poisoned. -/
def Mach.anyBad (m : Mach) (keys : List Nat) : Bool := keys.any m.bad

/-- The keys of `n` station memory units of die `p` from unit address `a`; addresses wrap at 23 bits. -/
def Core.smUnits (c : Core) (p a n : Nat) : List Nat := tabulate n (fun i => c.smUnit p ((a + i) % 2 ^ 23))

/-- The bytes of `n` station memory units. -/
def Mach.sm (m : Mach) (p a n : Nat) : List Byte := m.units (m.core.smUnits p a n)

/-- Station memory units written from `bs`, all with poison bit `q`. -/
def Mach.putSm (p a : Nat) (bs : List Byte) (q : Bool) (m : Mach) : Mach :=
  m.putUnits (m.core.smUnits p a (bs.length / 64)) bs q

end Sys2Proof.Machine
end

