-- ==== Sys2Proof/Machine/Clock.lean ====
section
/-!
DEFINITION. What the passing of time does: the Celoth counter (06 R190) and the beat cycle count (R157) count, and each microsecond adds to the times of 15 R521 and R524.
-/

namespace Sys2Proof.Machine

/-- Microseconds throttled and halted as the counter goes from `a` to `b` (15 R521, R524). -/
def Power.elapse (a b : Nat) (p : Power) : Power :=
  let us := b / 1000 - a / 1000
  { p with
    throttleUs := if p.ratio < 16 then satAdd p.throttleUs us else p.throttleUs
    throttleOvf := p.throttleOvf || (decide (p.ratio < 16) && satOvf p.throttleUs us)
    haltedUs := if p.halted then satAdd p.haltedUs us else p.haltedUs }

/-- One tick of 1 ns on an empty command queue. -/
def tick (s : State) : State :=
  { s with
    pwr := s.pwr.elapse s.core.clk.count.toNat (s.core.clk.count.toNat + 1)
    core := { s.core with clk := { s.core.clk.run s.core.ident.profile s.pwr.ratio 1 with count := s.core.clk.count + 1 }, out := [] } }

end Sys2Proof.Machine
end

