-- ==== Sys2Proof/Machine/Operands.lean ====
section
/-!
DEFINITION. Operand forms of station instructions: what a station is bound to, memory errors met by an access (07 R226, R227), residency
and freedom of ranges (03 R62), fences (07 R237), reading a tile with its trailer checks (04 R93), writing one (04 R92), tokens
(04 R110, R111) and the start of a local replay (10 R356).
-/

namespace Sys2Proof.Machine

/-- What a station instruction runs as: job, plan, logical station, physical die and instance, and its codes. For a collective station
`part` is the lowest bound partition of the plan and `die` the link die's code. -/
structure Ctx where
  job : Job
  plan : Plan
  lsid : Lsid
  die : Nat
  inst : Nat
  part : Nat
  opc : Nat
  issue : Nat

/-- SCODE of a logical station (R119). -/
def lsScode (l : Lsid) : Nat := field l.toNat 12 4

/-- Logical die of a logical station (R119). -/
def lsDie (l : Lsid) : Nat := field l.toNat 9 3

/-- Logical index of a logical station (R119). -/
def lsIndex (l : Lsid) : Nat := field l.toNat 0 4

/-- The tenant a station works for: the plan's, which owns the slot (R163). -/
def Ctx.tenant (x : Ctx) : TenantId := x.plan.tenant

/-- The logical partition of a compute station. -/
def Ctx.lpart (x : Ctx) : Nat := lsDie x.lsid

/-- The job as it stands now. -/
def Mach.job (m : Mach) (h : Nat) : Option Job := m.core.job? h

/-- A record that a station instruction gives rise to (R411). -/
def Ctx.mkRec (x : Ctx) (code cls sev : Nat) (detail : List Byte := []) : Rec :=
  jobRec x.job { modRec code cls sev x.die (lsScode x.lsid) x.inst with
    oper := BitVec.ofNat 16 (lsScode x.lsid * 256 + x.opc)
    lpart := if lsScode x.lsid == 6 then 0xFF else BitVec.ofNat 8 (lsDie x.lsid)
    detail := detail }

/-- A record written for a station instruction; one of class 0x3, or MEM_UNCORRECTABLE, is also the step's poison origin when it is the first
(12 R419). -/
def Ctx.logR (x : Ctx) (r : Rec) (m : Mach) : Mach :=
  let m1 := m.up (Core.logRec r)
  if r.cls == 3 || r.code == 0x402 then
    m1.up (fun c => c.modJob x.plan.handle (Job.noteOrigin r.cls.toNat r.code.toNat))
  else m1

/-- A record of a station instruction with its code, class, severity and DETAIL. -/
def Ctx.log (x : Ctx) (code cls sev : Nat) (detail : List Byte := []) (m : Mach) : Mach :=
  x.logR (x.mkRec code cls sev detail) m

/-- The plan's partition binding as a function. -/
def Plan.pm (p : Plan) : Nat → Option Nat := fun lp => p.pmap.getD lp none

/-- Find the binding of a logical station. -/
def Plan.bindOf (p : Plan) (l : Lsid) : Option Bind := p.binds.find? (fun b => b.lsid == l)

/-! ### Places and their names in records -/

/-- A key as a physical address (R530): space and offset of Table 07-1 with physical partition, granule and stack offset. -/
def Core.physAddr (c : Core) (k : Nat) : Nat :=
  if 2 ^ 41 ≤ k then
    let r := k - 2 ^ 41
    (r / 2 ^ 36) * 2 ^ 36 + r % 2 ^ 36
  else if 2 ^ 40 ≤ k then
    let r := k - 2 ^ 40
    2 ^ 48 + (r / 2 ^ 24 / 48) * 2 ^ 30 + (r / 2 ^ 24 % 48) * 2 ^ 24 + r % 2 ^ 24
  else
    let bk := k / 2 ^ 24 % 33
    let d := k / 2 ^ 24 / 33
    let lb := if bk = 32 then (c.part d).memp.smSubst.toNat else bk
    let off := k % 2 ^ 24
    2 * 2 ^ 48 + d * 2 ^ 30 + (off / 512) * 2 ^ 14 + lb * 512 + off % 512

/-- The partition a key lies in, and its memory: 0 HBM, 1 Commons, 2 station memory. -/
def keyPlace (k : Nat) : Nat × Nat :=
  if 2 ^ 41 ≤ k then ((k - 2 ^ 41) / 2 ^ 36, 0)
  else if 2 ^ 40 ≤ k then ((k - 2 ^ 40) / 2 ^ 24 / 48, 1)
  else (k / 2 ^ 24 / 33, 2)

/-- The logical partition bound to a physical one. -/
def Plan.lpOf (p : Plan) (phys : Nat) : Option Nat := (List.range 8).find? (fun l => p.pmap.getD l none == some phys)

/-- A key as a tenant global address (R530, R275), when the tenant's view reaches it. -/
def Core.tenantAddr (c : Core) (t : TenantId) (lp : Nat → Option Nat) (modId k : Nat) : Option Nat :=
  let (p, mem) := keyPlace k
  match mem with
  | 0 =>
    let off := (k - 2 ^ 41) % 2 ^ 36
    (c.leases.hbm.find? (fun e => e.1.1 == t && e.2 == p * 1024 + off / 2 ^ 26)).bind (fun e =>
      (lp e.1.2.1).map (fun l => modId * 2 ^ 50 + l * 2 ^ 36 + e.1.2.2 * 2 ^ 26 + off % 2 ^ 26))
  | 1 => (lp p).map (fun l => modId * 2 ^ 50 + 2 ^ 48 + l * 2 ^ 30 + (c.physAddr k) % 2 ^ 30)
  | _ => (lp p).map (fun l => modId * 2 ^ 50 + 2 * 2 ^ 48 + l * 2 ^ 30 + (c.physAddr k) % 2 ^ 30)

/-- DETAIL of a memory record (Table 12-5, R530): the address in tenant form when the tenant's view reaches it, else physical. -/
def memDetail (addr : Nat ⊕ Nat) (reader slot : Nat) : List Byte :=
  let (a, kind) := match addr with | .inl a => (a, 0) | .inr a => (a, 1)
  bytesLE 8 a ++ bytesLE 2 reader ++ bytesLE 1 slot ++ bytesLE 1 kind

/-- The address a station's memory record names. -/
def Ctx.addrOf (x : Ctx) (c : Core) (k : Nat) : Nat ⊕ Nat :=
  match c.tenantAddr x.tenant x.plan.lpOf x.job.logicalModule k with
  | some a => .inl a
  | none => .inr (c.physAddr k)

/-! ### Memory errors (07 R209, R223, R224, R226, R227; 12 R421, Table 12-8) -/

/-- 24 hours in ticks (R78, R209). -/
def day : Nat := 86400 * 10 ^ 9

/-- One hour in ticks (R226). -/
def hour : Nat := 3600 * 10 ^ 9

/-- Whether `now` lies within `d` ticks after `since`. -/
def withinTicks (now since : BitVec 64) (d : Nat) : Bool := decide ((now - since).toNat ≤ d)

/-- The BLOCK and instance of the memory a key lies in (Table 12-3): bank, granule or channel. -/
def Core.memUnit (c : Core) (k : Nat) : Nat × Nat × Nat :=
  let (p, mem) := keyPlace k
  match mem with
  | 0 => (0x30 + p, 0x0B, (c.part p).memp.chMap.getD (((k - 2 ^ 41) % 2 ^ 36) / 256 % 31) 31)
  | 1 => (0x08 + p / 2, 0x0A, (k - 2 ^ 40) / 2 ^ 24 % 48)
  | _ => (p, 0x09, k / 2 ^ 24 % 33)

/-- The corrected or uncorrectable count of the memory a key lies in raised (R247). -/
def Core.countErr (k : Nat) (unc : Bool) (c : Core) : Core :=
  let (p, mem) := keyPlace k
  c.modMem p (fun q =>
    match mem, unc with
    | 0, false => { q with hbmCe := satInc q.hbmCe }
    | 0, true => { q with hbmUe := satInc q.hbmUe }
    | 1, false => { q with cmCe := satInc q.cmCe }
    | 1, true => { q with cmUe := satInc q.cmUe }
    | _, false => { q with smCe := satInc q.smCe }
    | _, true => { q with smUe := satInc q.smUe })

/-- The recording unit of a key (R226): the DRAM row of HBM, the 512-byte line elsewhere. -/
def recUnit (k : Nat) : Nat := if isHbmKey k then 2 ^ 48 + Config.dramRow k else k / 512

/-- The job fails on this module for good (Table 12-8): verdict cause member failed, and the module reports itself failed to the job's
members. -/
def Core.memberFailed (h : Nat) (c : Core) : Core :=
  (c.emit (.vc7 0xFFFF 1 [h])).modJob h (fun j => (j.unclean 3))

/-- A permanent module failure (01 R15, R20, Table 12-8): the module leaves service, so that a ballast module takes its place. It reports itself failed to every
job it holds, and the first time it asserts FAULT_N and writes UNIT_RETIRED; its leases go at once where no plan stands, else at the next edge (14 R493). -/
def Core.permFail (c : Core) : Core :=
  let c1 := (c.jobs.map (fun j => j.plan)).foldl (fun c h => c.memberFailed h) { c with health := { c.health with permFailed := true } }
  if c1.rst.outActed then c1
  else
    let c2 := (c1.logRec (modRec 0x107 2 2 0xFF 0 0)).emit (.pin "FAULT_N" true)
    { c2 with
      rst := { c2.rst with moduleOut := true, outActed := true, faultN := true }
      leases := if c2.plans.isEmpty then {} else c2.leases
      ident := if c2.plans.isEmpty then { c2.ident with dedicated := none } else c2.ident }

/-- Physical partitions a plan is bound to. -/
def Plan.physParts (p : Plan) : List Nat := (List.range 8).filterMap p.phys

/-- Whether a job of a plan uses a partition. -/
def Core.usesPart (c : Core) (p : Nat) (j : Job) : Bool :=
  match c.plan? j.plan with | some q => q.physParts.contains p | none => false

/-- A partition out of service (Table 12-8): its slots are vacant, and it is leased to no tenant, with the leases that need that of the partition gone too
(13 R465; notes/assumptions/119). -/
def Core.vacatePart (p : Nat) (c : Core) : Core :=
  let c1 := c.modPart p (fun q => { q with outOfService := true, slots := { q.slots with table := List.replicate 64 {} } })
  { c1 with leases := { c1.leases with
      parts := c1.leases.parts.filter (fun e => e.1 != p), granules := c1.leases.granules.filter (fun e => e.1.1 != p)
      hbm := c1.leases.hbm.filter (fun e => e.1.2.1 != p), bandwidth := c1.leases.bandwidth.filter (fun e => e.1.2 != p) } }

/-- A partition leaves service, which is a permanent module failure for every job that uses it (Table 12-8); its slots become vacant. -/
def Core.partOut (p : Nat) (c : Core) : Core :=
  let hs := (c.jobs.filter (c.usesPart p)).map (fun j => j.plan)
  hs.foldl (fun c h => c.memberFailed h) (c.vacatePart p)

/-- A check failure of a thin, vector, gather or transfer station counted: the second within 24 hours retires it (Table 12-8). -/
def Core.countUnit (p block inst : Nat) (c : Core) : Core :=
  let now := c.clk.count
  let again := match lookup? (block, inst) (c.part p).mx.unitHist with | some t => withinTicks now t day | none => false
  let c1 := c.modMx p (fun q => { q with unitHist := insertKey (block, inst) now q.unitHist })
  if again then (c1.logRec (modRec 0x107 2 2 p block inst)).partOut p else c1

/-- A channel begins to retire (R224 steps 1 and 2), or the module fails for good when its stack's ballast is used. One that is retiring already goes on. -/
def Core.retireChannel (p ch : Nat) (c : Core) : Core :=
  let mp := (c.part p).memp
  if mp.migState != 0 && mp.migSrc.toNat == ch then c
  else if mp.ballastLeft && mp.migState == 0 then
    (c.logRec (modRec 0x405 2 2 (0x30 + p) 0x0B ch)).modMem p
      (fun q => { q with migState := 1, migSrc := BitVec.ofNat 5 ch, migAt := c.clk.count, chRetiring := some ch })
  else c.permFail

/-- A failing HBM row takes a spare row by soft repair, and MEM_REPAIR is written (R223). -/
def Core.softRepair (k : Nat) (c : Core) : Core :=
  let (p, _) := keyPlace k
  let (die, blk, ch) := c.memUnit k
  (c.logRec (modRec 0x403 2 1 die blk ch)).modMem p (fun q =>
    { q with softRepairs := 1, rowCe := q.rowCe.filter (fun r => !(r.1 == Config.dramRow k)),
             rowsDue := q.rowsDue.filter (fun r => Config.dramRow r != Config.dramRow k) })

/-- A failing HBM row is repaired at once, or at a later edge when its stack has had its soft repair of the beat (R223); with no spare left its channel
retires. -/
def Core.repairRow (k : Nat) (noSpare : Bool) (c : Core) : Core :=
  let (p, _) := keyPlace k
  let (_, _, ch) := c.memUnit k
  if noSpare then c.retireChannel p ch
  else if (c.part p).memp.softRepairs = 0 || !c.clk.epochSet then c.softRepair k
  else c.modMem p (fun q =>
    { q with rowsDue := if q.rowsDue.any (fun r => Config.dramRow r == Config.dramRow k) then q.rowsDue else q.rowsDue ++ [k] })

/-- A failing lane of a stack is replaced by lane repair, and MEM_REPAIR is written (R223); with no spare lane left its channel retires (R224). -/
def Core.repairLane (k : Nat) (noSpare : Bool) (c : Core) : Core :=
  let (die, blk, ch) := c.memUnit k
  if noSpare then c.retireChannel (keyPlace k).1 ch else c.logRec (modRec 0x403 2 1 die blk ch)

/-- What a stack's own repair makes of an error: the failure of the whole stack is the module's (R224), a failing lane is repaired, and otherwise the row, when it
counts as `failing` (R223). -/
def Core.repairHbm (e : MemErr) (failing : Bool) (c : Core) : Core :=
  if e.stack then c.permFail
  else if e.lane then c.repairLane (e.key * 64) e.noSpare
  else if failing then c.repairRow (e.key * 64) e.noSpare
  else c

/-- A beat begins: each stack may make one soft repair again, and makes the oldest that waits (R223). -/
def Core.beatRepairs (c : Core) : Core :=
  (List.range 8).foldl (fun c p =>
    let c1 := c.modMem p (fun q => { q with softRepairs := 0 })
    match (c1.part p).memp.rowsDue with
    | k :: _ => c1.softRepair k
    | [] => c1) c

/-- A station memory bank whose retirement is decided (R209 step 1); its substitution, and its RETIRED bit, wait for the edge (R245). With the ballast bank in use,
asked for or retired the module fails for good; ballast bank 32 retiring unused takes no substitute. -/
def Core.retireBank (p bank : Nat) (c : Core) : Core :=
  let mp := (c.part p).memp
  if mp.smRetiring.contains bank || mp.smRetired.getLsbD bank then c
  else
    let c1 := c.logRec (modRec 0x404 2 2 p 0x09 bank)
    let c2 := c1.modMem p (fun q => { q with smRetiring := q.smRetiring ++ [bank] })
    if mp.smBallastUsed || !mp.smRetiring.isEmpty || mp.smRetired.getLsbD 32 then c2.permFail else c2

/-- A Commons granule withdrawn from leasing, at once where no plan uses it and else when its last plan is withdrawn; the partition leaves service when fewer than 44 granules remain (Table 12-8). -/
def Core.retireGranule (p g : Nat) (c : Core) : Core :=
  if (c.part p).memp.granOut.contains g then c
  else
    let c1 := (c.logRec (modRec 0x107 2 2 (0x08 + p / 2) 0x0A g)).modMem p (fun q => { q with granOut := q.granOut ++ [g] })
    let c2 : Core := if (lookup? (p, g) c1.leases.modes).isSome then c1 else { c1 with leases := { c1.leases with granules := eraseKey (p, g) c1.leases.granules } }
    if 48 - (c2.part p).memp.granOut.length < 44 then c2.vacatePart p else c2

/-- What the memory itself does on a corrected error (R209, R223, R226): count, rewrite, the row's count of corrected reads, and the retirement of a bank or granule
whose row repair is exhausted. The record, when one is due for the recording unit, is `r`. -/
def Core.corrected (e : MemErr) (r : Rec) (c : Core) : Core :=
  let k := e.key * 64
  let (p, mem) := keyPlace k
  let now := c.clk.count
  let c1 := c.countErr k false
  let due := match lookup? (recUnit k) (c1.part p).memp.ceSeen with
    | some t => !(withinTicks now t hour)
    | none => true
  let c2 := if due then (c1.logRec r).modMem p (fun q => { q with ceSeen := insertKey (recUnit k) now q.ceSeen }) else c1
  if mem = 1 then (if e.noSpare then c2.retireGranule p ((k - 2 ^ 40) / 2 ^ 24 % 48) else c2)
  else if mem ≠ 0 then (if e.noSpare then c2.retireBank p (k / 2 ^ 24 % 33) else c2)
  else
    let row := Config.dramRow k
    let ts := ((lookup? row (c2.part p).memp.rowCe).getD []).filter (fun t => withinTicks now t day) ++ [now]
    let c3 := c2.modMem p (fun q => { q with rowCe := insertKey row ts q.rowCe })
    c3.repairHbm e (decide (4 ≤ ts.length))

/-- A job stops because no mirror can serve (10 R374): JOB_FALLBACK to its tenant, and the job in STOPPED_FALLBACK. -/
def Core.fallback (h : Nat) (c : Core) : Core :=
  match c.job? h with
  | none => c
  | some j =>
    if j.phase == .stoppedFallback then c
    else (c.logRec (jobRec j (modRec 0x607 2 3 0x28 0x0F 0))).modJob h (fun j => { j with phase := .stoppedFallback, holds := [], posts := [], replay := none })

/-- Whether a key lies in the CUR range of a sealed job on this module. -/
def Core.curOf (c : Core) (k : Nat) : Option Job :=
  c.jobs.find? (fun j =>
    j.sealedValid &&
    match c.plan? j.plan with
    | none => false
    | some p =>
      match c.tenantAddr j.tenant p.lpOf 0 k with
      | none => false
      | some a => j.sealMap.any (fun e => decide (e.curOff.toNat ≤ a) && decide (a < e.curOff.toNat + e.extents * 2 ^ 26)))

/-- A poisoned unit of a sealed job's CUR range rewritten from the mirror partner's slot of the same step (12 R422); when the partner holds no whole
slot of that step, the job stops. -/
def Mach.mirrorRepair (e : MemErr) (m : Mach) : Mach :=
  let k := e.key * 64
  match (if isHbmKey k then m.core.curOf k else none) with
  | none => m
  | some j =>
    if m.core.led.mirrorValid && m.core.led.mirroredStep == j.lastSealed then
      if e.repair.isEmpty then m
      else
        let (die, blk, inst) := m.core.memUnit k
        (m.store k (padTo 64 e.repair)).up
          (Core.logRec { modRec 0x407 1 1 die blk inst with oper := 2, detail := memDetail (.inr (m.core.physAddr k)) 0 0 })
    else m.up (Core.fallback j.plan)

/-- What the memory does on an uncorrectable error (R209, R223, R224, R227, Table 12-8), the record being `r`: the unit is written back
poisoned and counted, and its bank, row or granule may retire. -/
def Mach.uncorrectable (e : MemErr) (r : Rec) (m : Mach) : Mach :=
  let k := e.key * 64
  let (p, mem) := keyPlace k
  let m1 := ((m.write (.poison e.key 1 true)).up (fun c => (c.countErr k true).logRec r)).mirrorRepair e
  m1.up (fun c =>
    let now := c.clk.count
    match mem with
    | 0 => c.repairHbm e true
    | 1 =>
      let g := (k - 2 ^ 40) / 2 ^ 24 % 48
      let again := match lookup? g (c.part p).memp.granUe with | some t => withinTicks now t day | none => false
      let c1 := c.modMem p (fun q => { q with granUe := insertKey g now q.granUe })
      if again || e.noSpare then c1.retireGranule p g else c1
    | _ =>
      let b := k / 2 ^ 24 % 33
      let again := match lookup? b (c.part p).memp.bankUe with | some t => withinTicks now t day | none => false
      let c1 := c.modMem p (fun q => { q with bankUe := insertKey b now q.bankUe })
      if again || e.readback || e.noSpare then c1.retireBank p b else c1)

/-- The memory errors that a station's accesses find (R226, R227): corrected ones are counted, uncorrectable ones poison the unit, are
recorded and make the verdict unclean with cause fault, and on a dedicated module bring a warm reset at the next edge (Table 12-7). -/
def Ctx.meet (x : Ctx) (found : List MemErr) (m : Mach) : Mach :=
  found.foldl (fun m e =>
    let k := e.key * 64
    let (die, blk, inst) := m.core.memUnit k
    let mk := fun (code cls sev : Nat) =>
      jobRec x.job { modRec code cls sev die blk inst with
        oper := 1, detail := memDetail (x.addrOf m.core k) x.lsid.toNat 0 }
    if e.unc then
      let m1 := m.uncorrectable e (mk 0x402 7 2)
      m1.up (fun c =>
        let c1 := c.modJob x.plan.handle (fun j => (j.noteOrigin 7 0x402).unclean causeFault)
        if c1.ident.dedicated.isSome then { c1 with health := { c1.health with warmAtEdge := true } } else c1)
    else m.up (Core.corrected e (mk 0x401 1 0))) m

/-! ### Residency and freedom (03 R62) -/

/-- Whether unit `a` of die `p` has been written by a producer and not released since. -/
def residentUnit (res : List (Nat × Nat × Nat)) (p a : Nat) : Bool :=
  res.any (fun r => r.1 == p && inRange a r.2.1 r.2.2)

/-- Whether a whole range is resident. -/
def Job.isResident (j : Job) (p a n : Nat) : Bool := (List.range n).all (fun i => residentUnit j.resident p (a + i))

/-- Whether no unit of a range is resident: the space has been released (R62). -/
def Job.isFree (j : Job) (p a n : Nat) : Bool :=
  !(j.resident.any (fun r => r.1 == p && overlaps a n r.2.1 r.2.2))

/-- A range becomes resident (R62, R92). -/
def Job.markResident (p a n : Nat) (j : Job) : Job := { j with resident := j.resident ++ [(p, a, n)] }

/-- A range taken out of a list of ranges: what is left of each range below and above it. -/
def cutRanges (p a n : Nat) (rs : List (Nat × Nat × Nat)) : List (Nat × Nat × Nat) :=
  rs.flatMap (fun r =>
    if r.1 == p && overlaps a n r.2.1 r.2.2 then
      (if r.2.1 < a then [(p, r.2.1, a - r.2.1)] else []) ++
      (if a + n < r.2.1 + r.2.2 then [(p, a + n, r.2.1 + r.2.2 - (a + n))] else [])
    else [r])

/-- A range is released (R97); gathered rows in it are no longer watched. -/
def Job.release (p a n : Nat) (j : Job) : Job :=
  { j with resident := cutRanges p a n j.resident, gathers := j.gathers.filter (fun g => !(g.1 == p && overlaps a n g.2.1 g.2.2.1)) }

/-! ### Fences (07 R235 to R238) -/

/-- The station memory address of a logical partition as a tenant global address without its module field (Table 07-1). -/
def smAddr64 (lp a : Nat) : Nat := 2 * 2 ^ 48 + lp * 2 ^ 30 + a * 64

/-- The sum modulo 2^48 of the counters of some regions (R236). -/
def Core.genSum (c : Core) (regions : List Nat) : BitVec 48 := regions.foldl (fun s r => s + c.gen r) 0

/-- The regions that a list of keys touches, once each. -/
def Core.regionsOf (c : Core) (keys : List Nat) : List Nat := keys.foldl (fun l k => insertRising (c.regionOf k) l) []

/-- A range of a tenant's view in physical terms, so that the ranges of two plans or tenants can be compared: its space, its partition, and its address in the
partition's window. HBM is leased by extents and never shared, so its tenant stands in place of the partition's owner. -/
def placeIn (t : TenantId) (pm : Nat → Option Nat) (a : Nat) : Option (Nat × Nat × Nat × Nat) :=
  let o := a % 2 ^ 48
  match a / 2 ^ 48 % 4 with
  | 0 => (pm (field o 36 3)).map (fun p => (0, t.toNat, p, field o 0 36))
  | 1 => (pm (field o 30 3)).map (fun p => (1, 0, p, field o 0 30))
  | s => (pm (field o 30 3)).map (fun p => (s, 0, p, field o 0 30))

/-- Whether two ranges of `m` and `n` units, each seen by its own tenant through its own binding, have a unit in common. -/
def sameUnits (a : Option (Nat × Nat × Nat × Nat)) (m : Nat) (b : Option (Nat × Nat × Nat × Nat)) (n : Nat) : Bool :=
  match a, b with
  | some x, some y => x.1 == y.1 && x.2.1 == y.2.1 && x.2.2.1 == y.2.2.1 && overlaps x.2.2.2 (m * 64) y.2.2.2 (n * 64)
  | _, _ => false

/-- The place of a fence slot's destination (R236). -/
def Core.fenceDst (c : Core) (f : Fence) : Option (Nat × Nat × Nat × Nat) :=
  match c.plan? f.plan with
  | some q => placeIn f.tenant q.pm f.dstAddr
  | none => none

/-- Whether a range of a tenant meets the destination of a fence slot (R237, R238). -/
def Core.meetsFence (c : Core) (t : TenantId) (pm : Nat → Option Nat) (addr units : Nat) (f : Fence) : Bool :=
  sameUnits (placeIn t pm addr) units (c.fenceDst f) f.dstUnits

/-- The live fence slots of a die that a read range meets and that are stale now (R237). -/
def Core.staleSlots (c : Core) (p : Nat) (t : TenantId) (pm : Nat → Option Nat) (addr units : Nat) : List (Nat × Fence) :=
  (c.part p).streams.fences.filter (fun f =>
    c.meetsFence t pm addr units f.2 && (f.2.stale || c.genSum f.2.regions != f.2.refSum))

/-- The fence check of an instruction's read ranges (R237): a STALE_SOURCE record and a count per stale slot met (R247); the answer says whether the
outputs carry POISON. A collective station belongs to no compute die, whose fence slots it would meet. -/
def Ctx.fences (x : Ctx) (reads : List (Nat × Nat)) (m : Mach) : Bool × Mach :=
  let hits := if lsScode x.lsid == 6 then [] else reads.flatMap (fun r => m.core.staleSlots x.part x.tenant x.plan.pm r.1 r.2)
  let slots := hits.foldl (fun l (f : Nat × Fence) => if l.any (fun (g : Nat × Fence) => g.1 == f.1) then l else l ++ [f]) []
  (!slots.isEmpty, slots.foldl (fun m f =>
    (x.log 0x306 3 1 (memDetail (.inl f.2.srcAddr.toNat) x.lsid.toNat f.1) m).up
      (fun c => c.modMem x.part (fun q => { q with staleCount := satInc q.staleCount }))) m)

/-! ### Gathered rows (04 R106) -/

/-- The flags of the gathers whose rows a list of ranges reads, as their status words give them: POISON, and UNSEALED (R106). A word whose SCRC fails is no status
word; one whose unit is poisoned says POISON. -/
def Ctx.gathered (x : Ctx) (reads : List (Nat × Nat)) (m : Mach) : Bool × Bool :=
  let hit := fun (g : Nat × Nat × Nat × Nat) =>
    reads.any (fun r => r.1 / 2 ^ 48 % 4 == 2 && x.plan.phys (field r.1 30 3) == some g.1 && overlaps (field r.1 6 23) r.2 g.2.1 g.2.2.1)
  (x.job.gathers.filter hit).foldl (fun acc g =>
    let k := m.core.smUnit g.1 g.2.2.2
    let w := m.unit k
    let ok := fieldAt w 60 4 == crc32c (w.take 60)
    (acc.1 || m.bad k || (ok && bitOf (fieldAt w 8 1) 0), acc.2 || (ok && bitOf (fieldAt w 8 1) 1))) (false, false)

/-! ### Local replay (10 R356, R360) -/

/-- A fault caught before its tile leaves the module starts a local replay, restarts it, or, as the third fault of the step, ends it with an
unclean verdict (R356, R360). `cycle` is the cycle of detection. -/
def Job.detect (cycle : Nat) (j : Job) : Job :=
  let v := j.verdict j.step
  let n := v.localFaults + 1
  let j1 := j.modVerdict j.step (fun v => { v with localFaults := n })
  let free := j1.holds.filter (fun q => q.cause != .replay)
  if 3 ≤ n then { (j1.unclean causeFault) with replay := none, holds := free, phase := if j1.phase == .localReplay then .running else j1.phase }
  else
    let j1 : Job := { j1 with holds := free ++ [{ lsid := 0, cause := .replay, instr := none }] }
    match j1.replay with
    | some r => { j1 with replay := some { r with begun := false, restarts := r.restarts + 1, endBeat := max r.endBeat j1.beat, endCycle := if r.endBeat < j1.beat then cycle else max r.endCycle cycle } }
    | none => { j1 with replay := some { endBeat := j1.beat, endCycle := cycle, begun := false, restarts := 0 } }

/-- The job of an instruction detects a fault at a cycle. -/
def Ctx.detect (x : Ctx) (cycle : Nat) (m : Mach) : Mach := m.up (fun c => c.modJob x.plan.handle (Job.detect cycle))

/-! ### Guarded ranges (12 R419, R420) -/

/-- Whether `n` units at unit offset `a` of a logical partition's space meet a guarded range: a check plan range of KIND 0x01, 0x04 or 0x05, or
a NEXT range of the seal map. -/
def guardedRange (p : Plan) (j : Job) (space lp a n : Nat) : Bool :=
  p.checks.any (fun e => (e.kind == 1 || e.kind == 4 || e.kind == 5) && e.space == space && e.lpart == lp && overlaps a n e.off e.units) ||
  (space == 0 && j.sealMap.any (fun s =>
    field s.nextOff.toNat 36 3 == lp && overlaps a n (field s.nextOff.toNat 6 30) (s.extents * 2 ^ 20)))

/-- Poison has reached a guarded range: the verdict becomes unclean with cause fault, and when the step's first poison origin is of class 0x3
the job is aborted with JOB_POISONED and a notice to its members (R419, R420). -/
def Ctx.poisonGuarded (x : Ctx) (m : Mach) : Mach :=
  let m1 := m.up (fun c => c.modJob x.plan.handle (Job.unclean causeFault))
  match m1.job x.plan.handle with
  | none => m1
  | some j =>
    let v := j.verdict j.step
    if j.abort then m1
    else match v.origin with
      | some (3, _) =>
        (m1.up (Core.logRec (x.mkRec 0x308 3 3))).up (fun c =>
          (c.emit (.vc7 0xFFFF 4 [x.plan.handle])).modJob x.plan.handle (fun j => { j with abort := true }))
      | _ => m1

/-- Poison written into a range of a space, reported when the range is guarded. -/
def Ctx.guard (x : Ctx) (space lp a n : Nat) (poison : Bool) (m : Mach) : Mach :=
  match m.job x.plan.handle with
  | none => m
  | some j => if poison && guardedRange x.plan j space lp a n then x.poisonGuarded m else m

/-! ### Tiles -/

/-- A tile as an instruction has read it (R93): its 32 blocks, extent and step, and what its checks say of the outputs: `poison` they carry
POISON, `checked` nothing took CHECKED from them, `unsealed` it counts as unsealed (R92). -/
structure TileIn where
  blocks : List Block
  trailer : Trailer
  poison : Bool
  checked : Bool
  unsealed : Bool

/-- The checks of Table 04-3 on the bytes of a tile, and the record the first failing row writes. -/
structure TileChk where
  tenantBad : Bool
  crcBad : Bool
  residueBad : Bool
  formatBad : Bool

/-- Table 04-3 on a tile's data and trailer bytes. -/
def tileChecks (t : TenantId) (f : Fmt) (orient : Option Bool) (data tr : List Byte) : TileChk :=
  let tl := trailerOf tr
  let crc := tcrcOk tr
  let fmtOk := tl.fmt.toNat == fmtCode f && (match orient with | some o => tl.orient == o | none => true)
  { tenantBad := tl.tenant != t
    crcBad := !crc
    residueBad := crc && fmtOk && tl.residue != residueOf f data
    formatBad := crc && !fmtOk }

/-- The TILE_TENANT record, which goes to the owning tenant of the slot and to tenant 0 (Table 04-3; notes/assumptions/17). -/
def Ctx.tenantRec (x : Ctx) (m : Mach) : Mach :=
  let m1 := x.log 0x301 3 2 [] m
  if x.tenant == 0 then m1
  else m1.up (fun c => if c.cq1Free 0 then
    match c.log.recs with
    | r :: _ => c.cqWrite 0 1 (entryBytes 0xFFFFFFFF 0xF0 (eventDetail r))
    | [] => c
  else c)

/-- A failed check of data that a later replay classifies (R75): the data as found, by their keys. -/
def Ctx.pends (x : Ctx) (keys : List Nat) (data : List Byte) (m : Mach) : Mach :=
  m.up (fun c => c.modJob x.plan.handle (fun j =>
    { j with checks := j.checks ++ [{ die := x.die, block := lsScode x.lsid, inst := x.inst, rows := [], tiles := [(keys, data.length, crc32c data)] }] }))

/-- The records and the replay that failing checks bring (Table 04-3, R228): the first failing row's record; a TCRC or residue failure starts a local
replay, which classifies it (R75), unless a unit of the tile was poisoned. -/
def Ctx.tileOutcome (x : Ctx) (k : TileChk) (unitBad : Bool) (keys : List Nat) (data : List Byte) (m : Mach) : Mach :=
  let crc := (k.crcBad || k.residueBad) && !unitBad
  let m1 :=
    if k.tenantBad then x.tenantRec m
    else if crc then x.log 0x105 7 2 [] m
    else if k.formatBad then x.log 0x302 3 2 [] m
    else m
  if crc then x.detect x.issue (x.pends keys data m1) else m1

/-- Reading a tile of format `f` and orientation `orient` (none: any) whose units lie at `keys` (R93). R93 does not trust the fields of a trailer whose TCRC fails,
and says only that FMT and ORIENT are not tested then: its POISON, UNSEALED, STEP and extent are used as read (DESIGN CHOICE, notes/assumptions/97). -/
def Ctx.readTileAt (x : Ctx) (f : Fmt) (orient : Option Bool) (keys : List Nat) (m : Mach) : TileIn × Mach :=
  let bytes := m.units keys
  let data := bytes.take (tileDataBytes f)
  let tr := bytes.drop (tileDataBytes f)
  let tl := trailerOf tr
  let unitBad := m.anyBad keys
  let k := tileChecks x.tenant f orient data tr
  let blocks := if k.tenantBad then List.replicate 32 (zeroBlock f) else tileBlocks f data tl.scale
  let anchorScale := if k.tenantBad then List.replicate 32 0 else tl.scale
  let crc := k.crcBad || k.residueBad
  ({ blocks := blocks
     trailer := { tl with scale := anchorScale }
     poison := tl.poison || unitBad || k.tenantBad || k.formatBad
     checked := tl.checked && !crc && !k.tenantBad && !k.formatBad
     unsealed := tl.unsealed && (!x.job.sealedValid || stepLater tl.step x.job.lastSealed) },
   x.tileOutcome k unitBad keys data m)

/-- Reading a tile at station memory address `a` of die `p`. -/
def Ctx.readTile (x : Ctx) (f : Fmt) (orient : Option Bool) (p a : Nat) (m : Mach) : TileIn × Mach :=
  x.readTileAt f orient (m.core.smUnits p a (tileUnits f)) m

/-- Several tiles read in order. -/
def Ctx.readTiles (x : Ctx) (f : Fmt) (orient : Option Bool) (p : Nat) : List Nat → Mach → List TileIn × Mach
  | [], m => ([], m)
  | a :: as, m =>
    let (t, m1) := x.readTile f orient p a m
    let (ts, m2) := x.readTiles f orient p as m1
    (t :: ts, m2)

/-- The trailer a station writes (R92). -/
def Ctx.trailer (x : Ctx) (f : Fmt) (orient : Bool) (rowsM1 colsM1 : Nat) (poison checked unsealed : Bool)
    (scale : List Byte) (data : List Byte) : Trailer :=
  { scale := scale, residue := residueOf f data, step := x.job.step, tenant := x.tenant,
    fmt := BitVec.ofNat 4 (fmtCode f), orient := orient, poison := poison, checked := checked, unsealed := unsealed,
    rowsM1 := BitVec.ofNat 5 rowsM1, colsM1 := BitVec.ofNat 5 colsM1, producer := x.lsid,
    beat := BitVec.ofNat 16 x.job.beat }

/-- A tile with a given trailer written at station memory address `a` of die `p`, data first; its range becomes resident, and poison in a
guarded range is reported (R62, R92, R419). -/
def Ctx.putTile (x : Ctx) (p a : Nat) (data : List Byte) (t : Trailer) (m : Mach) : Mach :=
  let bytes := data ++ trailerBytes t
  let m1 := m.putSm p a bytes false
  let m2 := m1.up (fun c => c.modJob x.plan.handle (Job.markResident p a (bytes.length / 64)))
  x.guard 2 x.lpart a (bytes.length / 64) t.poison m2

/-- A tile written from its blocks (R86, R92); `anchor` is the anchor byte of an AS64 or AS128 tile. -/
def Ctx.writeTile (x : Ctx) (f : Fmt) (orient : Bool) (rowsM1 colsM1 : Nat) (poison checked unsealed : Bool) (anchor : Nat)
    (blocks : List Block) (p a : Nat) (m : Mach) : Mach :=
  let data := blocksData f blocks
  x.putTile p a data (x.trailer f orient rowsM1 colsM1 poison checked unsealed (blocksScale f anchor blocks) data) m

/-- Flat bytes written at station memory address `a`, whole units, with poison bit `q`; the range becomes resident. -/
def Ctx.putFlat (x : Ctx) (p a : Nat) (bs : List Byte) (q : Bool) (m : Mach) : Mach :=
  let n := ceilDiv bs.length 64
  let m1 := m.putSm p a (padTo (64 * n) bs) q
  let m2 := m1.up (fun c => c.modJob x.plan.handle (Job.markResident p a n))
  x.guard 2 x.lpart a n q m2

/-- Flat bytes read at station memory address `a`: a poisoned unit makes the verdict unclean (R228). -/
def Ctx.readFlat (x : Ctx) (p a n : Nat) (m : Mach) : List Byte × Mach :=
  let keys := m.core.smUnits p a (ceilDiv n 64)
  let m1 := if m.anyBad keys then m.up (fun c => c.modJob x.plan.handle (Job.unclean causeFault)) else m
  ((m.units keys).take n, m1)

/-! ### Tokens (04 R110, R111) -/

/-- The token a station posts for an output range of `n` units at `a` (R110). An instruction without an output range (`n` is 0) and a range of more
than 4,095 units, which NTILES cannot hold, leave the fields open: they are bits of the free word `w` (notes/assumptions/26). -/
def Ctx.token (x : Ctx) (w : BitVec 64) (a n : Nat) (poison : Bool) : Token :=
  { beat := BitVec.ofNat 16 x.job.beat, poison := poison,
    ntiles := if n = 0 || 4095 < n then BitVec.ofNat 12 (w.toNat / 2 ^ 32) else BitVec.ofNat 12 n,
    addr := if n = 0 then BitVec.ofNat 23 w.toNat else BitVec.ofNat 23 a }

/-- A token entered into a channel of die `p`, when it has space: false when it is full. A channel that no plan uses takes nothing. -/
def Core.pushToken (p ch : Nat) (t : Token) (c : Core) : Bool × Core :=
  match lookup? ch (c.part p).streams.chans with
  | none => (true, c)
  | some s =>
    if s.tokens.length < s.depth.toNat then
      (true, c.modStreams p (fun q => { q with chans := insertKey ch { s with tokens := s.tokens ++ [t], poisonSeen := s.poisonSeen || t.poison } q.chans }))
    else (false, c.modStreams p (fun q => { q with chans := insertKey ch { s with fullHold := true } q.chans }))

/-- A late or descriptor record with its count in PART_LATE_COUNTS (R124). -/
def StreamPart.countLate (code : Nat) (q : StreamPart) : StreamPart :=
  if code = 0x201 then { q with lateOperand := satInc q.lateOperand }
  else if code = 0x202 then { q with lateGather := satInc q.lateGather }
  else if code = 0x203 then { q with streamFull := satInc q.streamFull }
  else { q with descInvalid := satInc q.descInvalid }

/-- A lateness or descriptor record written and counted (R64, R107, R111, R117, R124); `detail` names the tile or the ring's slot that is late, for which Table
12-5 gives no place (notes/assumptions/90). -/
def Ctx.late (x : Ctx) (code cls sev : Nat) (block inst : Nat) (detail : List Byte) (m : Mach) : Mach :=
  (x.logR { x.mkRec code cls sev detail with block := BitVec.ofNat 8 block, inst := BitVec.ofNat 16 inst } m).up
    (fun c => c.modStreams x.part (StreamPart.countLate code))

/-- The completion token of an instruction with POST (R111): into OUT_CH, or, when the channel is full, into the post register with a STREAM_FULL
record and a hold of the job. -/
def Ctx.postToken (x : Ctx) (p ch : Nat) (t : Token) (m : Mach) : Mach :=
  let (ok, c1) := m.core.pushToken p ch t
  let m1 := { m with core := c1 }
  if ok then m1
  else
    (x.late 0x203 6 0 0x16 ch [] m1).up (fun c => c.modJob x.plan.handle (fun j =>
      { j with posts := j.posts ++ [{ lsid := x.lsid, part := p, chan := ch, token := t }],
               holds := j.holds ++ [{ lsid := x.lsid, cause := .chanFull, instr := none }] }))

/-- The completion token of an instruction that names `n` units at `a`, posted with a fresh free word (R110, R111). -/
def Ctx.postRange (x : Ctx) (p ch a n : Nat) (poison : Bool) (m : Mach) : Mach :=
  let w := m.core.fresh
  x.postToken p ch (x.token w.1 a n poison) { m with core := w.2 }

end Sys2Proof.Machine
end

