-- ==== Sys2Proof/Machine/Ledger.lean ====
section
/-!
DEFINITION. The hamper's records and the verdicts' bookkeeping (10_seal_replay_tether.md R344 to R350), fence slots and reservations that
a job's end clears.
-/

namespace Sys2Proof.Machine

/-- Payload bytes of a hamper record (R345, R348): the bytes recorded, and one 64-byte unit where the payload is a few fields
(notes/assumptions/25). -/
def HBody.size : HBody → Nat
  | .extInput _ bytes _ => bytes.length
  | .inbound _ _ _ bytes _ _ _ _ _ => bytes.length
  | .anchor _ _ ms => max 64 (5 * ms.length)
  | _ => 64

/-- The bytes a record takes in the ring: header and payload, padded to 64 (R345). -/
def HRec.size (r : HRec) : Nat := 64 + 64 * ceilDiv r.body.size 64

/-- The stack a record goes to (R346): its logical partition's, else the lowest bound partition's. -/
def Plan.recStack (p : Plan) (lp : Nat) : Nat :=
  match (if lp = 0xFF then none else p.phys lp) with
  | some q => q
  | none => listMin p.physParts

/-- The ledger die that indexes a stack (R347): KD0 stacks 0 to 3, KD1 4 to 7, or the one left in service. -/
def Ledger.indexer (l : Ledger) (stack : Nat) : Nat :=
  let k := stack / 4
  if l.failed.getD k false then 1 - k else k

/-- Bytes of the records not yet freed that a ledger die indexes. -/
def Ledger.used (l : Ledger) (k : Nat) : Nat :=
  sumNat ((l.records.filter (fun r => l.indexer r.stack == k)).map HRec.size)

/-- HIGH_WATER raised to USED (R379). -/
def Ledger.raise (l : Ledger) : Ledger :=
  { l with highWater := tabulate 2 (fun k => max (l.highWater.getD k 0) (l.used k)) }

/-- A hamper record written for a job (R344 to R346). -/
def Core.addRec (x : Job) (lp : Nat) (body : HBody) (c : Core) : Core :=
  match c.plan? x.plan with
  | none => c
  | some p =>
    let r : HRec :=
      { seq := c.led.count, body := body, lpart := lp, attempt := x.attempt, step := x.step, plan := x.plan, cycle := x.sched,
        beat := x.beat, stack := p.recStack lp }
    { c with led := { c.led with records := c.led.records ++ [r], count := c.led.count + 1 }.raise }

/-- The records of a step of a job freed when its mirror vote passes (R346). -/
def Core.freeStep (h : Nat) (s : StepNo) (c : Core) : Core :=
  { c with led := { c.led with records := c.led.records.filter (fun r => !(r.plan == h && r.step == s)) } }

/-- The records of steps later than `l` freed by a rollback, but for ANCHOR records (R346, R361 step 3). -/
def Core.freeRolled (h : Nat) (l : StepNo) (c : Core) : Core :=
  { c with led := { c.led with records := c.led.records.filter (fun r =>
      !(r.plan == h && stepLater r.step l && (match r.body with | .anchor .. => false | _ => true))) } }

/-- The records of a withdrawn plan leave the hamper (R344: it holds the records of every admitted job). -/
def Core.freePlan (h : Nat) (c : Core) : Core :=
  { c with led := { c.led with records := c.led.records.filter (fun r => !(r.plan == h)) } }

/-- The records of the step a job runs. -/
def Core.stepRecs (c : Core) (j : Job) : List HRec := c.led.records.filter (fun r => r.plan == j.plan && r.step == j.step)

/-- A record's CRC-32C of payload bytes (R344, OUTBOUND). -/
def crcOf (bs : List Byte) : BitVec 32 := BitVec.ofNat 32 (crc32c bs)

/-- Every job of a tenant made unclean with cause fault in its current step (R267, R274). -/
def Core.uncleanTenant (t : TenantId) (c : Core) : Core :=
  { c with jobs := c.jobs.map (fun j => if j.tenant == t then j.unclean causeFault else j) }

/-- Whether a job's plan spans more than one module. -/
def Core.multiModule (c : Core) (j : Job) : Bool :=
  match c.plan? j.plan with | some p => decide (1 < p.hdr.modCount) | none => false

/-- A payload leaves the module for a job, or, during a local replay, is held back and compared with what left in the original
(R344 OUTBOUND, R357, R358). The answer says whether it leaves. -/
def Core.outbound (h : Nat) (lp kind id : Nat) (payload : List Byte) (c : Core) : Bool × Core :=
  match c.job? h with
  | none => (false, c)
  | some j =>
    if j.phase == .localReplay then
      let old := (c.stepRecs j).findSome? (fun r =>
        match r.body with
        | .outbound k i crc => if k == kind && i == id && r.beat == j.beat then some crc else none
        | _ => none)
      match old with
      | some crc =>
        if crc == crcOf payload then (false, c)
        else (false, (c.logRec (jobRec j (modRec 0x604 7 2 0x28 0x0F 0))).modJob h (Job.unclean causeFault))
      | none => (true, c.addRec j lp (.outbound kind id (crcOf payload)))
    else (true, c.addRec j lp (.outbound kind id (crcOf payload)))

/-! ### Records given back in a local replay (R357) -/

/-- Units with their poison bits written at keys. -/
def Mach.putMarked (keys : List Nat) (bytes : List Byte) (bad : List Bool) (m : Mach) : Mach :=
  ((keys.zip (chunks 64 bytes)).zip bad).foldl (fun acc e => acc.putUnit e.1.1 e.1.2 e.2) m

/-- Station memory units among written keys become resident for a job, on the die they lie in. -/
def Job.markKeys (c : Core) (keys : List Nat) (j : Job) : Job :=
  keys.foldl (fun j k =>
    if (keyPlace k).2 = 2 then
      let d := (keyPlace k).1
      j.markResident d (c.physAddr k % 2 ^ 29 / 64) 1
    else j) j

/-- A descriptor slot written. -/
def Core.putDesc (p ring slot : Nat) (v : BitVec 256) (c : Core) : Core :=
  c.modStreams p (fun q => { q with descs := insertKey (ring, slot) v q.descs })

/-- The 64 bits of a token (Table 04-16). -/
def tokenBits (t : Token) : Nat :=
  place t.beat.toNat 44 16 + place (boolNat t.poison) 35 1 + place t.ntiles.toNat 23 12 + place t.addr.toNat 0 23

/-- A token from its 64 bits. -/
def tokenOf (n : Nat) : Token :=
  { beat := BitVec.ofNat 16 (field n 44 16), poison := bitOf n 35, ntiles := BitVec.ofNat 12 (field n 23 12),
    addr := BitVec.ofNat 23 (field n 0 23) }

/-- One record given back to where it came in during the original run. -/
def Mach.giveBack (h : Nat) (r : HRec) (m : Mach) : Mach :=
  match r.body with
  | .extInput keys bytes bad => m.putMarked keys bytes bad
  | .inbound _ _ keys bytes bad rpost part ch token =>
    let m1 := (m.putMarked keys bytes bad).up (fun c => c.modJob h (Job.markKeys c keys))
    if rpost then m1.up (fun c => (c.pushToken part ch (tokenOf token.toNat)).2) else m1
  | .descriptor part ring slot v => m.up (Core.putDesc part ring slot v)
  | .tokenPost part ch token => m.up (fun c => (c.pushToken part ch (tokenOf token.toNat)).2)
  | .store key bytes => m.patch key bytes
  | _ => m

/-- Whether a record is given back at its cycle; an EXT_INPUT record is given back at the start of its beat. -/
def HBody.atCycle : HBody → Bool
  | .inbound .. => true
  | .descriptor .. => true
  | .tokenPost .. => true
  | .store .. => true
  | _ => false

/-- During a local replay, the records of the job's beat with a cycle from `lo` up to but not including `hi` given back in order (R357). -/
def Mach.giveBackTo (h lo hi : Nat) (m : Mach) : Mach :=
  match m.core.job? h with
  | none => m
  | some j =>
    if j.phase == .localReplay then
      ((m.core.stepRecs j).filter (fun r =>
        r.beat == j.beat && r.attempt == j.attempt && r.body.atCycle && decide (lo ≤ r.cycle) && decide (r.cycle < hi))).foldl
        (fun m r => m.giveBack h r) m
    else m

/-- The EXT_INPUT records of a beat given back at its start (R357). -/
def Mach.giveInputs (h : Nat) (m : Mach) : Mach :=
  match m.core.job? h with
  | none => m
  | some j =>
    ((m.core.stepRecs j).filter (fun r =>
      r.beat == j.beat && (match r.body with | .extInput .. => true | _ => false))).foldl (fun m r => m.giveBack h r) m

end Sys2Proof.Machine
end

