-- ==== Sys2Proof/Machine/Fabric.lean ====
section
/-!
DEFINITION. The Celoth link and routes (08_celoth_fabric.md R248 to R274, R289): frames as bytes, credits, sending, acknowledgement and
replay, routes and detours, and what a failed port leaves.
-/

namespace Sys2Proof.Machine

/-- The link die and its local number of a port (Table 01-3). -/
def portPlace (p : Nat) : Nat × Nat :=
  ([(0, 0), (1, 0), (0, 1), (1, 1), (0, 2), (1, 2), (2, 0), (3, 0), (2, 1), (3, 1), (2, 2), (3, 2), (1, 3), (2, 3), (0, 3), (3, 3)] :
    List (Nat × Nat)).getD p (0, 0)

/-- The port that is number `n` of link die `l` (Table 01-3). -/
def portAt (l n : Nat) : Nat := ((List.range 16).find? (fun p => portPlace p == (l, n))).getD 0

/-- This module's physical ID (R251). -/
def FabCfg.own (g : FabCfg) : Nat := g.meadow * 64 + g.position

/-- Port `i`. -/
def Core.port (c : Core) (i : Nat) : Port := c.fab.ports.getD i {}

/-- The fabric changed. -/
def Core.modFab (f : Fabric → Fabric) (c : Core) : Core := { c with fab := f c.fab }

/-- Port `i` changed. -/
def Core.modPort (i : Nat) (f : Port → Port) (c : Core) : Core := c.modFab (fun q => { q with ports := modAt q.ports i f })

/-- A record of a port (Table 12-3). -/
def portRec (code cls sev port : Nat) : Rec :=
  let (l, n) := portPlace port
  modRec code cls sev (0x10 + l) 0x0C n

/-! ### Frames as bytes -/

/-- LEN of a frame: its payload in 32-byte units (R258). -/
def Frame.len (f : Frame) : Nat := ceilDiv f.payload.length 32

/-- The header word of a frame (Table 08-4). -/
def Frame.word (f : Frame) : Nat :=
  place f.seq.toNat 112 16 + place f.ack.toNat 96 16 + place f.vc.toNat 93 3 + place f.typ.toNat 89 4 + place f.len 84 5 +
  place f.rclass.toNat 80 4 + place f.hops.toNat 75 5 + place f.dst.toNat 61 14 + place f.src.toNat 47 14 +
  place f.tenant.toNat 39 8 + place (boolNat f.uns) 38 1 + place f.pmask.toNat 30 8 + place f.xid.toNat 21 9 + place f.chunk.toNat 0 21

/-- The bytes of a frame on a port: header, payload, the tag of an encrypted port, CRC-32C (R258, R289). -/
def Frame.bytes (pt : Port) (f : Frame) : List Byte :=
  let hdr := bytesLE 16 f.word
  let body := padTo (32 * f.len) f.payload
  let iv := BitVec.ofNat 96 (pt.salt.toNat * 2 ^ 64 + pt.txCtr)
  let rest := if pt.enc then padTo (body.length + 16) (Config.gcmSeal pt.key iv hdr body) else body
  hdr ++ rest ++ bytesLE 4 (crc32c (hdr ++ rest))

/-- The buffer units of 32 bytes that a frame takes (R263): on VC0 those of one of its 100-byte buffers (Table 08-9). -/
def Frame.units (enc : Bool) (f : Frame) : Nat := if f.vc == 0 then 4 else ceilDiv (20 + 32 * f.len + (if enc then 16 else 0)) 32

/-- Whether a type is sequenced (Table 08-5). -/
def Frame.sequenced (f : Frame) : Bool := !(f.typ == 0 || f.typ == 1 || f.typ == 0xD)

/-- Whether Table 08-5 allows a type on a VC (R259); VC1 carries detoured frames of any sequenced type. -/
def vcAllows (typ vc : Nat) : Bool :=
  match typ with
  | 0 => true
  | 1 | 0xD => vc == 7
  | 2 | 3 => (2 ≤ vc && vc ≤ 5) || vc == 1
  | 4 | 5 | 6 | 7 => vc == 6 || vc == 1
  | 8 | 9 => vc == 7 || vc == 1
  | 0xA => vc == 0
  | 0xB => vc == 4 || vc == 1
  | 0xC => (2 ≤ vc && vc ≤ 7) || vc == 1
  | _ => false

/-- The key of an earlier period under which a frame is sent: a sequenced frame numbered before the number at which the new key took effect keeps it
(R289). -/
def Port.oldKeyFor (pt : Port) (f : Frame) : Option (BitVec 256 × BitVec 32) :=
  if pt.enc && f.sequenced && inRange (pt.keyFrom - f.seq).toNat 1 (2 ^ 15) then pt.oldKey else none

/-- A frame put on the wire of a port now: it carries the last sequence number accepted (R261), and the transmit counter of its key rises; a key whose
counter has reached 2^40 - 1 sends no more (R289). -/
def Core.wire (i : Nat) (f : Frame) (c : Core) : Core :=
  let pt := c.port i
  let g := { f with ack := pt.expect - 1 }
  match pt.oldKeyFor f with
  | some (k, salt) =>
    if 2 ^ 40 - 1 ≤ pt.oldCtr then c
    else (c.emit (.frame i g.vc.toNat g.typ.toNat (g.bytes { pt with key := k, salt := salt, txCtr := pt.oldCtr }))).modPort i
      (fun q => { q with oldCtr := q.oldCtr + 1, unacked := 0 })
  | none =>
    if pt.enc && decide (2 ^ 40 - 1 ≤ pt.txCtr) then c
    else (c.emit (.frame i g.vc.toNat g.typ.toNat (g.bytes pt))).modPort i (fun q => { q with txCtr := q.txCtr + 1, unacked := 0 })

/-- A LINK_CTL frame (Table 08-6): the freed counts, every class reserve free (notes/assumptions/27), and its flags. -/
def Core.linkCtl (i : Nat) (nak : Option U16) (flags : Nat) (c : Core) : Core :=
  let pt := c.port i
  let pay := (pt.freed.flatMap (fun v => bytesLE 2 v.toNat)) ++ bytesLE 12 (2 ^ 91 - 1) ++
    bytesLE 2 (match nak with | some n => n.toNat | none => 0) ++ bytesLE 1 (flags ||| boolNat nak.isSome) ++ [0]
  (c.wire i { vc := 7, typ := 0, dst := pt.peerId, src := BitVec.ofNat 14 c.fab.cfg.own, payload := pay }).modPort i
    (fun q => { q with toldFreed := q.freed })

/-! ### Credits and sending -/

/-- The buffer units that the peer dedicates to a VC (R268): VC0 16 frames, VC1 none but reserves, VC2 to VC7 their share of the pool. -/
def FabCfg.pool (g : FabCfg) (vc : Nat) : Nat :=
  if vc = 0 then 64 else if vc = 1 then 0 else g.pools.getD (vc - 2) 0

/-- The bit of a frame's class reserve in RESERVE (Table 08-6): VC1 hop classes 1 to 31, then ten route classes per VC. -/
def Frame.reserveBit (f : Frame) : Option Nat :=
  if f.vc == 0 then none
  else if f.vc == 1 then some (f.hops.toNat - 1)
  else some (31 + 10 * (f.vc.toNat - 2) + f.rclass.toNat)

/-- How a frame may be sent (R263): on shared credit, on its class reserve, or not now. -/
inductive Grant where
  | shared | reserved | none
deriving DecidableEq, Repr

/-- The credit test of a frame on a port: of the units sent and not freed on its VC, those on a class reserve take no shared buffer. -/
def creditFor (g : FabCfg) (pt : Port) (f : Frame) : Grant :=
  let v := f.vc.toNat
  let inUse := ((pt.sent.getD v 0) - (pt.peerFreed.getD v 0)).toNat - sumNat ((pt.inRes.filter (fun e => e.1 == v)).map (fun e => e.2.2))
  if inUse + f.units pt.enc ≤ g.pool v then .shared
  else match f.reserveBit with
    | some b => if pt.reserve.getLsbD b then .reserved else .none
    | none => .none

/-- The VCs of the byte-weighted round robin in their order, each with its weight (R268). -/
def wrrVcs : List (Nat × Nat) := [(5, 4), (3, 4), (6, 1), (4, 1)]

/-- The places of the round robin from place `t` on, the place itself last. -/
def wrrFrom (t : Nat) : List Nat := tabulate 4 (fun i => (t + 1 + i) % 4)

/-- The VC that sends next among those with a frame ready (R268), with the round robin's place and the bytes left to it: VC0, 1, 2 and 7 come first in
that order; of the others the one whose turn it is while it has bytes left, else the next in turn, with a new share of its weight times 548 bytes
(notes/assumptions/28). -/
def Port.nextVc (pt : Port) (ready : List Nat) : Option (Nat × Nat × Nat) :=
  match [0, 1, 2, 7].find? ready.contains with
  | some v => some (v, pt.turn, pt.left)
  | none =>
    if ready.contains (wrrVcs.getD pt.turn (5, 4)).1 && decide (0 < pt.left) then some ((wrrVcs.getD pt.turn (5, 4)).1, pt.turn, pt.left)
    else ((wrrFrom pt.turn).find? (fun t => ready.contains (wrrVcs.getD t (5, 4)).1)).map (fun t =>
      let (v, w) := wrrVcs.getD t (5, 4)
      (v, t, w * 548))

/-- Whether two frames share a queue of an output port: the same VC and the same route or hop class, since a frame waits only for buffer of its own class
(R269). -/
def Frame.sameQueue (f g : Frame) : Bool := f.vc == g.vc && (if f.vc == 1 then f.hops == g.hops else f.rclass == g.rclass)

/-- The index of the frame a port sends next among its waiting frames, and the port with the round robin moved on: of each class of each VC the oldest stands
first, and in the VC chosen the oldest that has buffer space goes. -/
def nextWaiting (g : FabCfg) (pt : Port) : Option (Nat × Frame × Port) :=
  let idx := (List.range pt.waiting.length).zip pt.waiting
  let heads := idx.filter (fun e => !(pt.waiting.take e.1).any (fun h => h.sameQueue e.2))
  let ok := heads.filter (fun e => creditFor g pt e.2 != .none)
  (pt.nextVc (ok.map (fun e => e.2.vc.toNat))).bind (fun n =>
    (ok.find? (fun e => e.2.vc.toNat == n.1)).map (fun e =>
      (e.1, e.2, { pt with turn := n.2.1, left := if 3 ≤ n.1 && n.1 ≤ 6 then n.2.2 - (20 + 32 * e.2.len + (if pt.enc then 16 else 0)) else n.2.2 })))

/-- Whether a port may send a sequenced frame now: UP, replay buffer not full (R260), key not exhausted (R289). -/
def Port.maySend (pt : Port) : Bool :=
  pt.st == .up && decide (pt.held.length < 4096) &&
  decide (sumNat (pt.held.map (fun f => 20 + 32 * f.len + (if pt.enc then 16 else 0))) < 2359296) &&
  (!pt.enc || decide (pt.txCtr < 2 ^ 40 - 1))

/-- One waiting frame sent: numbered, held for replay, and counted against the peer's buffer; on a class reserve it takes that reserve. -/
def Core.sendOne (i k : Nat) (f : Frame) (c : Core) : Core :=
  let pt := c.port i
  let g := { f with seq := pt.nextSeq }
  let gr := creditFor c.fab.cfg pt f
  let c1 := c.modPort i (fun q =>
    let q1 :=
      { q with
        waiting := q.waiting.eraseIdx k
        held := q.held ++ [g]
        nextSeq := q.nextSeq + 1
        sent := modAt q.sent f.vc.toNat (fun n => n + BitVec.ofNat 16 (f.units q.enc)) }
    match gr, f.reserveBit with
    | .reserved, some b => { q1 with reserve := q.reserve &&& ~~~(BitVec.ofNat 96 (2 ^ b)), inRes := q.inRes ++ [(f.vc.toNat, b, f.units q.enc)] }
    | _, _ => q1)
  c1.wire i g

/-- Every waiting frame that credits and the replay buffer allow is sent. -/
def Core.pumpN : Nat → Nat → Core → Core
  | 0, _, c => c
  | n + 1, i, c =>
    let pt := c.port i
    if pt.maySend then
      match nextWaiting c.fab.cfg pt with
      | some (k, f, q) => Core.pumpN n i ((c.modPort i (fun p => { p with turn := q.turn, left := q.left })).sendOne i k f)
      | none => c
    else c

/-- Every waiting frame of a port that may be sent now is sent. -/
def Core.pump (i : Nat) (c : Core) : Core := Core.pumpN (c.port i).waiting.length i c

/-! ### Routes -/

/-- The coordinate of a meadow on an axis: 0 X, 1 Y, 2 Z (R251). -/
def coord (m a : Nat) : Nat := match a with | 0 => m % 8 | 1 => m / 8 % 8 | _ => m / 64

/-- The size of the torus on an axis. -/
def FabCfg.size (g : FabCfg) (a : Nat) : Nat := match a with | 0 => g.sx | 1 => g.sy | _ => g.sz

/-- Whether a frame is one of tenant 0 on VC7, which belongs to no slice (R270); on VC1 its type tells the register accesses and their rejections. -/
def Frame.sliceless (f : Frame) : Bool :=
  f.tenant == 0 && (f.vc == 7 || (f.vc == 1 && (f.typ == 8 || f.typ == 9 || f.typ == 0xC)))

/-- The slice a frame of a tenant belongs to, `none` for a frame that belongs to no slice: the one whose modules hold its destination, else the tenant's
first (R270). -/
def Fabric.sliceOf (q : Fabric) (t : Option TenantId) (dst : Nat) : Option Slice :=
  t.bind (fun t =>
    let mine := q.slices.filter (fun s => s.tenant == t)
    match mine.find? (fun s => s.map.contains dst) with
    | some s => some s
    | none => mine.head?)

/-- Whether a position lies in a subcube slice (R287): a ballast module that stands in for a member does not. -/
def Slice.inCube (s : Slice) (p : Nat) : Bool := p &&& (63 - s.mask) == s.base

/-- Whether routes of a frame may use the fold link (R270, R288): all but those between positions of a subcube slice of at most 32. -/
def Fabric.foldAllowed (q : Fabric) (t : Option TenantId) (src dst : Nat) : Bool :=
  !q.cfg.celoth1 &&
  match q.sliceOf t dst with
  | some s => !(s.kind == 1 && decide (s.k ≤ 5) && src / 64 == dst / 64 && s.inCube (dst % 64) && s.inCube (src % 64))
  | none => true

/-- Whether a frame goes in the + direction on an axis from coordinate `a` to `b` (R271). -/
def Fabric.plus (q : Fabric) (t : Option TenantId) (dst axis a b : Nat) : Bool :=
  let sz := max (q.cfg.size axis) 1
  let f := (b + sz - a) % sz
  match q.sliceOf t dst with
  | some s =>
    let (org, ext) := match axis with | 0 => (s.x0, s.tx) | 1 => (s.y0, s.ty) | _ => (s.z0, s.tz)
    if s.kind == 2 && ext < sz then decide ((a + sz - org) % sz < (b + sz - org) % sz)
    else decide (f ≤ sz - f)
  | none => decide (f ≤ sz - f)

/-- The position at the far end of meadow port `n` of position `p` (Table 08-1). -/
def meadowPeer (p n : Nat) : Nat := if n = 11 then p ^^^ 0x3F else if n = 10 then p ^^^ 32 else p ^^^ (2 ^ (n / 2))

/-- The lowest set bit of a number below 64. -/
def lowBit (x : Nat) : Nat := ((List.range 6).find? (fun i => x.testBit i)).getD 0

/-- meadow_next of R270. -/
def meadowNext (fold : Bool) (odd : Bool) (p pd : Nat) : Nat :=
  let x := p ^^^ pd
  if fold && 4 ≤ popcount 6 x then 11
  else
    let d := lowBit x
    if d = 5 then 10 else 2 * d + boolNat odd

/-- Whether a port can carry frames on a route now: a port in RETRAIN still can (R273). -/
def Port.usable (pt : Port) : Bool := pt.st == .up || pt.st == .retrain

/-- Whether the meadow link on port `n` of position `p` works, as this module knows it (R274). -/
def Core.linkOk (c : Core) (p n : Nat) : Bool :=
  let own := c.fab.cfg.position
  let out := fun (q : Nat) => if q = own then !(c.port n).usable else ((lookup? q c.fab.peers).getD []).contains n
  !(out p) && !(out (meadowPeer p n))

/-- The meadow ports a route may use: none folds where fold is not allowed (R273, R288). -/
def Core.meadowPorts (c : Core) (fold : Bool) : List Nat := if c.fab.cfg.celoth1 then List.range 10 else if fold then List.range 12 else List.range 11

/-- Positions within `n` working hops of `pd`, with their distance. -/
def Core.reach (c : Core) (fold : Bool) (pd : Nat) : Nat → List (Nat × Nat)
  | 0 => [(pd, 0)]
  | n + 1 =>
    let near := c.reach fold pd n
    let new := (List.range 64).filter (fun q =>
      (lookup? q near).isNone && (c.meadowPorts fold).any (fun k =>
        c.linkOk q k && (lookup? (meadowPeer q k) near == some n)))
    near ++ new.map (fun q => (q, n + 1))

/-- The first port of the shortest working meadow route, ties to the lowest port index (R273). -/
def Core.detourPort (c : Core) (fold : Bool) (p pd : Nat) : Option Nat :=
  let ds := c.reach fold pd 12
  let cand := (c.meadowPorts fold).filter (fun k => c.linkOk p k)
  cand.foldl (fun (b : Option (Nat × Nat)) k =>
    match lookup? (meadowPeer p k) ds with
    | none => b
    | some d => match b with
      | some (_, e) => if d < e then some (k, d) else b
      | none => some (k, d)) none |>.map Prod.fst

/-- The port of R270 toward position `pd`, or the other parallel link when that is UP (R273), for a frame that is not detoured. -/
def Core.straightHop (c : Core) (fold odd : Bool) (p pd : Nat) : Option Nat :=
  let n := meadowNext fold odd p pd
  let other := if n < 10 then (if n % 2 = 0 then n + 1 else n - 1) else n
  if (c.port n).usable then some n else if n < 10 && (c.port other).st == .up then some other else none

/-- A meadow hop toward position `pd`: the chosen port, or its detour, and whether the frame moves to VC1 (R270, R273). A frame that is on VC1 already, `esc`,
keeps to the shortest working route. -/
def Core.meadowHop (c : Core) (fold odd esc : Bool) (p pd : Nat) : Option (Nat × Bool) :=
  let around := (c.detourPort fold p pd).map (fun k => (k, true))
  if esc then around
  else match c.straightHop fold odd p pd with
    | some n => some (n, false)
    | none => around

/-- The axis of a position as 0 X, 1 Y, 2 Z (R252). -/
def FabCfg.axisOf (g : FabCfg) (p : Nat) : Option Nat :=
  match g.axes.getD p 0 with | 1 => some 0 | 2 => some 1 | 3 => some 2 | _ => none

/-- The gateways of a position for an axis (R253). -/
def FabCfg.gate (g : FabCfg) (p a : Nat) : Nat × Nat := (g.gates.getD p []).getD a (0, 0)

/-- The meadow neighbours of a position (Table 08-1), in rising order; the fold link joins none in Celoth-1 mode (Table 08-14). -/
def neighbours (celoth1 : Bool) (p : Nat) : List Nat :=
  (List.range (if celoth1 then 32 else 64)).filter (fun q => (tabulate 6 (fun d => p ^^^ 2 ^ d)).contains q || (!celoth1 && q == p ^^^ 0x3F))

/-- The secondary gateway of a position for an axis. The configuration names none for the position's own axis (Table 13-10): there it is the second of the
neighbours of that axis that R253 gives every position (notes/assumptions/113). -/
def FabCfg.second (g : FabCfg) (p a : Nat) : Nat :=
  if g.axisOf p = some a then ((neighbours g.celoth1 p).filter (fun q => g.axisOf q == some a)).getD 1 p else (g.gate p a).2

/-- A hop of a frame: the port, whether it moves to VC1, and its new route class. -/
structure Hop where
  port : Nat
  escape : Bool
  rclass : Nat
deriving DecidableEq, Repr

/-- The hop R270 to R273 give a frame at this module, when there is one. -/
def Core.route (c : Core) (f : Frame) : Option Hop :=
  let g := c.fab.cfg
  let dst := f.dst.toNat
  let md := dst / 64
  let pd := dst % 64
  let p := g.position
  let ten := if f.sliceless then none else some f.tenant
  let fold := c.fab.foldAllowed ten f.src.toNat dst
  let odd := f.xid.getLsbD 0
  let esc := f.vc == 1
  if g.meadow ≠ md then
    let a := ((List.range 3).find? (fun a => coord g.meadow a != coord md a)).getD 0
    let plus := c.fab.plus ten dst a (coord g.meadow a) (coord md a)
    let glob := if plus then 12 else 13
    let walk := max f.rclass.toNat (if f.rclass == 0 then 0 else if a = 2 then 6 else 3)
    if g.axisOf p = some a then
      if (c.port glob).usable then
        let cur := coord g.meadow a
        let sz := max (g.size a) 1
        let wraps := if plus then cur + 1 = sz else cur = 0
        some ⟨glob, false, max f.rclass.toNat (1 + 3 * a + boolNat wraps)⟩
      else (c.meadowHop fold odd esc p (g.second p a)).map (fun n => ⟨n.1, true, walk⟩)
    else
      let (g1, g2) := g.gate p a
      let out := fun (q : Nat) => ((lookup? q c.fab.peers).getD []).contains glob
      let direct := fun (q : Nat) => if out q then none else c.straightHop fold odd p q
      match direct g1, direct g2 with
      | some n, _ => some ⟨n, false, walk⟩
      | none, some n => some ⟨n, true, walk⟩
      | none, none => (c.meadowHop fold odd esc p (if out g1 then g2 else g1)).map (fun n => ⟨n.1, true, walk⟩)
  else
    (c.meadowHop fold odd esc p pd).map (fun n => ⟨n.1, n.2, if f.src.toNat / 64 = md && f.rclass == 0 then 0 else 9⟩)

/-- Whether every port of a module of this meadow is known to be out of service (R274). -/
def Core.deadModule (c : Core) (dst : Nat) : Bool :=
  dst / 64 == c.fab.cfg.meadow && (List.range 16).all (fun n => ((lookup? (dst % 64) c.fab.peers).getD []).contains n)

/-- A frame whose destination cannot be reached is discarded: UNREACHABLE, at most one per destination and millisecond, and the tenant's step
unclean (R274). -/
def Core.unreachable (f : Frame) (c : Core) : Core :=
  let dst := f.dst.toNat
  let recent := match lookup? dst c.fab.unreach with | some t => withinTicks c.clk.count t 1000000 | none => false
  let c1 := if recent then c else
    (c.logRec { modRec 0x505 2 2 0x10 0 0 with detail := bytesLE 2 dst }).modFab
      (fun q => { q with unreach := insertKey dst c.clk.count q.unreach })
  c1.uncleanTenant f.tenant

/-- A frame put in the queue of its output port, or discarded when it cannot be routed or has looped (R270 to R274). `atSource` says that it starts
here. -/
def Core.enqueue (atSource : Bool) (f : Frame) (c : Core) : Core :=
  if c.deadModule f.dst.toNat then c.unreachable f
  else if !atSource && f.hops == 31 then (c.logRec (modRec 0x506 5 2 0x10 0 0)).uncleanTenant f.tenant
  else
    match c.route f with
    | none => c.unreachable f
    | some h =>
      let g := { f with hops := f.hops + 1, rclass := BitVec.ofNat 4 h.rclass, vc := if h.escape then 1 else f.vc }
      c.modPort h.port (fun q => { q with waiting := q.waiting ++ [g] })

/-- A frame of this module sent toward its destination. -/
def Core.sendFrame (f : Frame) (c : Core) : Core :=
  let c1 := c.enqueue true { f with src := BitVec.ofNat 14 c.fab.cfg.own }
  (List.range 16).foldl (fun c i => c.pump i) c1

/-- A frame sent on a given port (tether, kite tree), without routing. -/
def Core.sendOn (i : Nat) (f : Frame) (c : Core) : Core :=
  (c.modPort i (fun q => { q with waiting := q.waiting ++ [{ f with src := BitVec.ofNat 14 c.fab.cfg.own, hops := f.hops + 1 }] })).pump i

/-! ### Acknowledgement, replay and failure -/

/-- Frames up to and including an acknowledged number leave the replay buffer (R262). -/
def Core.acked (i : Nat) (ack : U16) (c : Core) : Core :=
  c.modPort i (fun q =>
    let keep := q.held.dropWhile (fun f => decide ((ack - f.seq).toNat < 2 ^ 15))
    { q with held := keep, resends := if keep.length < q.held.length then 0 else q.resends })

/-- Held frames resent from sequence number `n` on, in order (R262). -/
def Core.resendFrom (i : Nat) (n : U16) (c : Core) : Core :=
  ((c.port i).held.filter (fun f => decide ((f.seq - n).toNat < 2 ^ 15))).foldl (fun c f => c.wire i f) c

/-- Every held frame of a port resent, oldest first. -/
def Core.resendAll (i : Nat) (c : Core) : Core := (c.port i).held.foldl (fun c f => c.wire i f) c

/-- Tenants of a list of frames, once each. -/
def tenantsOf (fs : List Frame) : List TenantId := fs.foldl (fun l f => if l.contains f.tenant then l else l ++ [f.tenant]) []

/-- This module's port states told to every position of its meadow (R274): the ports out of service. -/
def Core.tellPorts (c : Core) : Core :=
  c.emit (.vc7 0xFFFF 3 ((List.range 16).filter (fun i => !(c.port i).usable)))

/-- A port enters FAILED (R267): its replay buffer is discarded with LINK_LOSS and an unclean step per tenant, and the frames not yet sent take
the detours. -/
def Core.failPort (i : Nat) (c : Core) : Core :=
  let pt := c.port i
  let ts := tenantsOf pt.held
  let c1 := ts.foldl (fun c t =>
    (c.logRec { portRec 0x504 2 2 i with tenant := some t }).uncleanTenant t) c
  let c2 := c1.modPort i (fun q => { q with st := .failed, held := [], waiting := [], synced := false })
  let c3 := pt.waiting.foldl (fun c f => c.enqueue true { f with hops := f.hops - 1 }) c2
  ((List.range 16).foldl (fun c j => c.pump j) c3).tellPorts

/-- An arriving frame that has passed its CRC (R261, R262): acknowledgements free held frames; the expected frame is taken by `deliver` when it
is for this module and otherwise goes on; a duplicate is acknowledged again; a frame beyond a gap brings a NAK. FREED counts the units of every frame, one that
took a class reserve too (R263; notes/assumptions/112). -/
def Mach.arrive (i : Nat) (g : Frame) (deliver : Frame → Mach → Mach) (m : Mach) : Mach :=
  let pt := m.core.port i
  let f : Frame := { g with job := none }
  if !(pt.st == .up || (pt.st == .train && f.typ == 0xD)) then m
  else
    let m1 := m.up (fun c => (c.modPort i (fun q => { q with tagFails := 0 })).acked i f.ack)
    if !f.sequenced then deliver f m1
    else if f.seq == pt.expect then
      let m2 := m1.up (fun c => c.modPort i (fun q =>
        { q with expect := q.expect + 1, unacked := q.unacked + 1,
                 freed := modAt q.freed f.vc.toNat (fun n => n + BitVec.ofNat 16 (f.units q.enc)) }))
      let m3 := if !(vcAllows f.typ.toNat f.vc.toNat) then m2.up (Core.logRec (portRec 0x501 5 1 i))
        else if f.dst.toNat == m.core.fab.cfg.own then deliver f m2
        else m2.up (fun c => (List.range 16).foldl (fun c j => c.pump j) (c.enqueue false f))
      m3.up (fun c => let c1 := if 64 ≤ (c.port i).unacked then c.linkCtl i none 0 else c
                      c1.pump i)
    else if (pt.expect - f.seq).toNat ≤ 4096 then m1.up (fun c => (c.linkCtl i none 0).pump i)
    else m1.up (fun c => (c.linkCtl i (some pt.expect) 0).pump i)

end Sys2Proof.Machine
end

