-- ==== Sys2Proof/Machine/Flags.lean ====
section
/-!
DEFINITION. The flags an instruction's outputs carry (03 R65, 04 R92, R93), and the cycles and slots of a beat (06 R157, R158, R163, R167).
-/

namespace Sys2Proof.Machine

/-- The flags of output tiles: POISON, CHECKED, UNSEALED (R65, R92). -/
structure OutFlags where
  poison : Bool
  checked : Bool
  unsealed : Bool
deriving DecidableEq, Repr

/-- The output flags that a list of operand tiles gives (R65): poison from any, CHECKED only from all, unsealed from any; `stale` adds the poison
of a stale source or a poisoned token. -/
def flagsOf (stale : Bool) (ts : List TileIn) : OutFlags :=
  { poison := stale || ts.any (fun t => t.poison)
    checked := ts.all (fun t => t.checked)
    unsealed := ts.any (fun t => t.unsealed) }

/-- The flags of one output tile of an instruction that read `all` tiles, the output being made from those of `own` (R65, R92): POISON and UNSEALED from any
operand of the instruction, CHECKED from the operands that the tile consumed. -/
def flagsFor (stale : Bool) (all own : List TileIn) : OutFlags := { flagsOf stale all with checked := own.all (fun t => t.checked) }

/-- BC, the nominal cycles of a beat (R157). -/
def Core.beatCycles (c : Core) : Nat := c.clk.beatUs.toNat * cyclesPerUs c.ident.profile

/-- The beat cycle at which slot `s` begins (R167). -/
def slotStart (bc s : Nat) : Nat := s * bc / 64

/-- The slot a beat cycle lies in (R167). -/
def slotOf (bc x : Nat) : Nat := min 63 ((64 * (x + 1) - 1) / max bc 1)

/-- The index of a compute station in a slot table entry (Table 06-4). -/
def slotIndex (scode inst : Nat) : Nat :=
  match scode with
  | 1 => inst
  | 2 => 13 + inst
  | 3 => 17 + inst
  | 4 => 25 + inst
  | _ => 27 + inst

/-- Whether an entry gives a station's slot to a tenant (R163, R168, R169). -/
def SlotEntry.gives (e : SlotEntry) (i : Nat) (t : TenantId) : Bool :=
  !e.blocked && !(e.vacant.getLsbD i) && e.owner.getD i 0 == t

/-- Whether the slot table gives slot `s` of a physical station to tenant `t`; collective stations have their own table (R168, R170). -/
def Core.slotGiven (c : Core) (scode part inst s : Nat) (t : TenantId) : Bool :=
  if scode = 6 then
    match c.csSlots[s]? with
    | some (own, vac) => own.getD inst 0 == t && !(vac.getLsbD inst)
    | none => false
  else ((c.part part).slots.table.getD s {}).gives (slotIndex scode inst) t

/-- Whether every beat cycle from `a` to `b` lies in slots given to tenant `t`, outside the edge reserve (R158, R163) and outside the slots `idle` that the
plan offers for lending, in which it never issues (R173). -/
def Core.cyclesGiven (c : Core) (scode part inst a b : Nat) (t : TenantId) (idle : BitVec 64) : Bool :=
  let bc := c.beatCycles
  decide (b + 512 < bc) &&
  ((List.range (slotOf bc b + 1 - slotOf bc a)).all (fun i => c.slotGiven scode part inst (slotOf bc a + i) t && !(idle.getLsbD (slotOf bc a + i))))

end Sys2Proof.Machine
end

