-- ==== Sys2Proof/Machine/Issue.lean ====
section
/-!
DEFINITION. How a station instruction issues (03 R62 to R64, 04 R96, R111, R115 to R117, 06 R160 to R163, 07 R237): tests in the
order slot, token, descriptor, operands and output space, start grant; a test that fails holds the job; otherwise the
instruction runs whole.
-/

namespace Sys2Proof.Machine

/-- What an opcode says of one instruction: its opcode, the tiles it names as operands and the ranges it writes (station memory unit address
and length on its own die), every range it reads as a tenant address with its units (for the fences), every range it touches
as (space, logical partition, unit offset, units), its cycles from issue to its last trailer, its accumulator bank with the last
cycle it is read out, counted from issue, `lead` how many cycles before its issue the bank is used first, the offset of the cycle after its last row-0
entry, and the range its token names. `outAt` gives the cycle from issue in which the trailer of each of `outs` is complete (`dur` where it gives none), and
`busyAt` the cycles from issue in which a range is written, as (unit, units, first, last); where it is empty every written range is written all along.
`copyAt` is the cycle from issue in which a copy writes its first four units, and `after` how many cycles after `dur` a token of RPOST is posted here. -/
structure StnSpec where
  opc : Nat
  tiles : List (Nat × Nat) := []
  outs : List (Nat × Nat) := []
  reads : List (Nat × Nat) := []
  ranges : List (Nat × Nat × Nat × Nat) := []
  dur : Nat := 0
  outAt : List Nat := []
  busyAt : List (Nat × Nat × Nat × Nat) := []
  copyAt : Option Nat := none
  after : Nat := 0
  bank : Option (Nat × Nat × Nat) := none
  bankEnd : Nat := 0
  lead : Nat := 0
  entryEnd : Nat := 0
  writes : List (Nat × Nat × Nat × Nat) := []
  token : Nat × Nat := (0, 0)

/-- Whether a range lies inside a range of the plan's buffer map (R94, R117). -/
def Plan.granted (p : Plan) (r : Nat × Nat × Nat × Nat) : Bool :=
  p.bufs.any (fun b => b.space == r.1 && b.lpart == r.2.1 && within r.2.2.1 r.2.2.2 (b.off / 64) b.units)

/-- Whether a written range meets a CUR range of the seal map, which is read-only to the job (10 R342). -/
def Job.inCur (j : Job) (r : Nat × Nat × Nat × Nat) : Bool :=
  r.1 == 0 && j.sealMap.any (fun e =>
    field e.curOff.toNat 36 3 == r.2.1 && overlaps r.2.2.1 r.2.2.2 (field e.curOff.toNat 6 30) (e.extents * 2 ^ 20))

/-- Whether a written range meets a NEXT range of the seal map (10 R342). -/
def Job.inNext (j : Job) (r : Nat × Nat × Nat × Nat) : Bool :=
  r.1 == 0 && j.sealMap.any (fun e =>
    field e.nextOff.toNat 36 3 == r.2.1 && overlaps r.2.2.1 r.2.2.2 (field e.nextOff.toNat 6 30) (e.extents * 2 ^ 20))

/-- The SEAL_HOLD record, once per step (10 R342). -/
def Ctx.sealHold (x : Ctx) (m : Mach) : Mach :=
  if x.job.sealHeld == some x.job.step then m
  else (x.log 0x206 6 0 [] m).up (fun c => c.modJob x.plan.handle (fun j => { j with sealHeld := some x.job.step }))

/-- The job held by a station for a cause (R161). -/
def Ctx.hold (x : Ctx) (cause : HoldCause) (i : Instr) (m : Mach) : Mach :=
  m.up (fun c => c.modJob x.plan.handle (fun j =>
    { j with holds := j.holds ++ [{ lsid := x.lsid, cause := cause, instr := some i }] }))

/-- The actual beat cycle of a schedule cycle of a job. -/
def Job.actual (j : Job) (cyc : Nat) : Nat := ((cyc : Int) + j.offset).toNat

/-- Whether the stations of a die issue: the module is at Ready and not halted (15 R510), and the die's partition is neither in reset nor frozen for a capture
(14 R484, R490). -/
def Mach.dieRuns (m : Mach) (scode die : Nat) : Bool :=
  m.core.rst.phase == 6 && !m.pwr.halted && (scode == 6 || !(m.core.rst.parts.contains die || m.core.rst.capturing.contains die))

/-- The context of a station instruction, when its plan, job and binding exist, the job runs and its die issues. -/
def Mach.ctx (m : Mach) (st : Stn) (h : Hdr) (opc : Nat) : Option Ctx :=
  match m.core.plan? st.plan, m.core.job? st.plan with
  | some p, some j =>
    match p.bindOf st.lsid with
    | some b =>
      if (j.phase == .running || j.phase == .localReplay) && m.dieRuns (lsScode st.lsid) b.die then
        some { job := j, plan := p, lsid := st.lsid, die := b.die, inst := b.inst,
               part := if lsScode st.lsid == 6 then (((List.range 8).filterMap p.pm).head?.getD 0) else b.die,
               opc := opc, issue := h.issue.toNat }
      else none
    | none => none
  | _, _ => none

/-- The slots that the plan's claim offers for lending, which its station leaves idle (06 R173, R183). -/
def Ctx.idleSlots (x : Ctx) : BitVec 64 := match x.plan.claims.find? (fun k => k.lsid == x.lsid) with | some k => k.lend | none => 0

/-- The next descriptor of a station's ring: ring, slot and its bits (R115). -/
def Ctx.descriptor (x : Ctx) (c : Core) : Nat × Nat × BitVec 256 :=
  let ring := (lookup? x.lsid x.plan.rings).getD 0
  let slot := (lookup? ring (c.part x.part).streams.ringPos).getD 0
  (ring, slot, (lookup? (ring, slot) (c.part x.part).streams.descs).getD 0)

/-- A descriptor consumed: VALID cleared and the ring moved on (R117). -/
def Ctx.consume (x : Ctx) (ring slot : Nat) (m : Mach) : Mach :=
  m.up (fun c => c.modStreams x.part (fun q =>
    { q with descs := eraseKey (ring, slot) q.descs, ringPos := insertKey ring ((slot + 1) % 16) q.ringPos }))

/-- Whether a descriptor's BEAT, ISSUE and STEP_LO match the instruction (R117). -/
def Ctx.descMatches (x : Ctx) (d : Nat) : Bool :=
  field d 48 16 == x.job.beat && field d 16 28 == x.issue && field d 8 8 == x.job.step.toNat % 256

/-- Whether a descriptor's reserved bits are 0 (R115). -/
def descReservedOk (d : Nat) : Bool := field d 64 4 == 0 && field d 44 4 == 0 && field d 1 7 == 0

/-- An instruction has run or was dropped: with LAST it is the station's last of the beat (Table 04-6). -/
def Ctx.finish (x : Ctx) (h : Hdr) (endCycle : Nat) (m : Mach) : Mach :=
  m.up (fun c => c.modJob x.plan.handle (fun j =>
    { j with done := if h.last && !(j.done.contains x.lsid) then j.done ++ [x.lsid] else j.done,
             runEnd := max j.runEnd endCycle, sched := max j.sched x.issue }))

/-- The oldest token of IN_CH, and the channel without it. -/
def Core.headToken (c : Core) (p ch : Nat) : Option Token :=
  (lookup? ch (c.part p).streams.chans).bind (fun s => s.tokens.head?)

/-- IN_CH without its oldest token. -/
def Core.popToken (p ch : Nat) (c : Core) : Core :=
  c.modStreams p (fun q => { q with chans := q.chans.map (fun e =>
    if e.1 == ch then (e.1, { e.2 with tokens := e.2.tokens.drop 1, poisonSeen := e.2.poisonSeen || (e.2.tokens.head?.any (fun t => t.poison)) }) else e) })

/-- EMPTY_HOLD of a channel set (R122). -/
def Core.flagEmpty (p ch : Nat) (c : Core) : Core :=
  c.modStreams p (fun q => { q with chans := q.chans.map (fun e => if e.1 == ch then (e.1, { e.2 with emptyHold := true }) else e) })

/-- Whether an array instruction would start from idle at a cycle other than its scheduled one, and so waits for a start grant (R162). -/
def Ctx.needsGrant (x : Ctx) : Bool :=
  lsScode x.lsid == 1 && x.opc == 0x10 && x.job.offset != 0 && lookup? x.lsid x.job.accept != some x.issue

/-- Whether a whole range is resident in the beat cycle of an instruction's issue (R62): written, not released, and the trailer of its tile complete. -/
def Ctx.residentNow (x : Ctx) (a n : Nat) : Bool :=
  x.job.isResident x.part a n &&
  !(x.job.ripening.any (fun r => r.1 == x.part && overlaps a n r.2.1 r.2.2.1 && decide (x.job.actual x.issue < r.2.2.2)))

/-- The operand tiles that an instruction needs and that are not resident (R62), but for the range a poisoned token names (R111). -/
def Ctx.missing (x : Ctx) (sp : StnSpec) (tok : Option Token) : List (Nat × Nat) :=
  let skip := fun (r : Nat × Nat) =>
    match tok with
    | some t => t.poison && within r.1 r.2 t.addr.toNat t.ntiles.toNat
    | none => false
  sp.tiles.filter (fun r => !(skip r || x.residentNow r.1 r.2))

/-- Whether the operands are resident and the output space and the bank free (R62). -/
def Ctx.operandsReady (x : Ctx) (sp : StnSpec) (tok : Option Token) (c : Core) : Bool :=
  (x.missing sp tok).isEmpty &&
  sp.outs.all (fun r => x.job.isFree x.part r.1 r.2) &&
  (match sp.bank with
   | some b => (match lookup? b (c.part x.part).mx.busy with | some e => decide (e + sp.lead < x.job.actual x.issue) | none => true)
   | none => true)

/-- The written ranges whose trailers are still to come, with the beat cycle of each (R62, R68). -/
def Ctx.ripens (x : Ctx) (sp : StnSpec) : List (Nat × Nat × Nat × Nat) :=
  let a := x.job.actual x.issue
  (sp.outs.mapIdx (fun i r => (x.part, r.1, r.2, a + sp.outAt.getD i sp.dur))) ++
    (sp.writes.filter (fun w => w.1 == 2)).map (fun w => ((x.plan.phys w.2.1).getD x.part, w.2.2.1, w.2.2.2, a + sp.dur))

/-- The run of an instruction that has passed its tests: the token is taken, memory errors, stale sources and poisoned gathers are met, the body acts (told
whether its outputs carry POISON, and answering whether its token does), and the completion token is posted. -/
def Ctx.runStn (x : Ctx) (st : Stn) (h : Hdr) (sp : StnSpec) (tok : Option Token) (body : Ctx → Bool → Mach → Bool × Mach) (m : Mach) : Mach :=
  let m0 := if h.wait then m.up (Core.popToken x.part h.inCh.toNat) else m
  let m1 := x.meet st.found m0
  let (stale, m2) := x.fences sp.reads m1
  let (bad, m3) := body x (stale || (x.gathered sp.reads m1).1 || tok.any (fun t => t.poison)) m2
  let m4 := match sp.bank with
    | some b => m3.up (fun c => c.modMx x.part (fun q => { q with busy := insertKey b (x.job.actual x.issue + sp.bankEnd) q.busy }))
    | none => m3
  let m5 := m4.up (fun c => c.modJob x.plan.handle (fun j =>
    { j with accept := insertKey x.lsid (x.issue + sp.entryEnd) j.accept, ripening := j.ripening ++ x.ripens sp }))
  let m6 := if h.post then x.postRange x.part h.outCh.toNat sp.token.1 sp.token.2 bad m5 else m5
  x.finish h (x.issue + sp.dur + max (boolNat h.post) sp.after) m6

/-- DETAIL of LATE_OPERAND for an operand (R64): the tenant's address of the first tile that is not resident; empty when the output space or the bank is what
an instruction waits for (notes/assumptions/90). -/
def Ctx.missingDetail (x : Ctx) (sp : StnSpec) (tok : Option Token) : List Byte :=
  match x.missing sp tok with
  | r :: _ => bytesLE 8 (smAddr64 x.lpart r.1)
  | [] => []

/-- A station instruction with fields `f`: `sub` puts a descriptor's address fields in place (none: a reserved value), `spec` describes it and
`body` is its own effect. `granted` says that a start grant has been given (R162). With the job held already the instruction waits
behind the hold (R161). In a local replay the records due before the issue are given back first (10 R357). -/
def issueWith {F : Type} (granted : Bool) (i : Instr) (st : Stn) (h : Hdr) (f : F) (opc : Nat)
    (sub : F → Nat → Option F) (spec : Mach → Ctx → F → StnSpec) (body : F → Ctx → Bool → Mach → Bool × Mach) (m : Mach) : Mach :=
  match m.ctx st h opc with
  | none => m
  | some x =>
    let m := (m.giveBackTo st.plan x.job.sched x.issue).up (fun c => c.modJob st.plan (fun j => { j with sched := max j.sched x.issue }))
    if !x.job.holds.isEmpty then x.hold .behind i m
    else
      let sp0 := spec m x f
      let a := x.job.actual x.issue
      if !(m.core.cyclesGiven (lsScode x.lsid) x.part (if lsScode x.lsid = 6 then x.die - 0x10 else x.inst) a (a + sp0.dur + max (boolNat h.post) sp0.after) x.tenant
          x.idleSlots) then x.hold .slot i m
      else
        let tok := if h.wait then m.core.headToken x.part h.inCh.toNat else none
        if h.wait && tok.isNone then
          x.hold .chanEmpty i ((x.late 0x201 6 0 0x16 h.inCh.toNat [] m).up (Core.flagEmpty x.part h.inCh.toNat))
        else
          let (ring, slot, d) := x.descriptor m.core
          if h.ind && !(d.getLsbD 0) then x.hold .descriptor i (x.late 0x201 6 0 0x17 ring [BitVec.ofNat 8 slot] m)
          else
            let f1 := if h.ind then (if x.descMatches d.toNat && descReservedOk d.toNat then sub f d.toNat else none) else some f
            let sp1 := match f1 with | some g => spec m x g | none => sp0
            if f1.isNone || (h.ind && (!(sp1.ranges.all x.plan.granted) || sp1.writes.any x.job.inCur)) then
              let m1 := x.consume ring slot (x.late 0x303 3 2 0x17 ring [] m)
              let m2 := if h.wait then m1.up (Core.popToken x.part h.inCh.toNat) else m1
              let m3 := if h.post then x.postRange x.part h.outCh.toNat sp0.token.1 sp0.token.2 true m2 else m2
              x.finish h (x.issue + boolNat h.post) m3
            else if !(x.operandsReady sp1 tok m.core) then
              x.hold .operand i (x.late 0x201 6 0 (lsScode x.lsid) x.inst (x.missingDetail sp1 tok) m)
            else if x.job.writeHold && sp1.writes.any x.job.inNext then x.hold .nextHeld i (x.sealHold m)
            else if x.needsGrant && !granted then x.hold .grant i m
            else
              let m1 := if h.ind then x.consume ring slot m else m
              match f1 with
              | some g => x.runStn st h sp1 tok (body g) m1
              | none => m1

end Sys2Proof.Machine
end

