-- ==== Sys2Proof/Machine/Streams.lean ====
section
/-!
DEFINITION. The instructions of every station (04 R96, R97), and what control cores and the stations' checks do to streams, descriptors and jobs:
descriptor and token writes (R110, R115), deferred posts (R111), late gathers (R107), failed checks (03 R75, R78) and failed
control cores (04 R118).
-/

namespace Sys2Proof.Machine

/-! ### NOP, POST, RELEASE -/

/-- NOP issues and runs (R96): only its WAIT, its POST and its descriptor are honoured. -/
def nopRun (granted : Bool) (st : Stn) (h : Hdr) : Mach → Mach :=
  issueWith granted (.nop st h) st h () 0x00 (fun _ _ => some ()) (fun _ _ _ => { opc := 0x00 }) (fun _ _ _ m => (false, m))

/-- NOP (R96). -/
def execNop (st : Stn) (h : Hdr) (s : State) : Host.Outcome State Fault Refusal := runM (nopRun false st h) s

/-- A descriptor's base put into POST or RELEASE (R116). -/
def rangeSub (f : RangeF) (d : Nat) : Option RangeF := some { f with base := BitVec.ofNat 23 (field d 68 23) }

/-- POST issues and runs: it posts a token that names the range, whatever the header's POST bit (Table 04-7). -/
def postRun (granted : Bool) (st : Stn) (h : Hdr) (f : RangeF) : Mach → Mach :=
  issueWith granted (.post st h f) st { h with post := true } f 0x01 rangeSub
    (fun _ x f => { opc := 0x01, ranges := [(2, x.lpart, f.base.toNat, f.len.toNat)], token := (f.base.toNat, f.len.toNat) })
    (fun _ _ _ m => (false, m))

/-- POST (R96). -/
def execPost (st : Stn) (h : Hdr) (f : RangeF) (s : State) : Host.Outcome State Fault Refusal := runM (postRun false st h f) s

/-- The effect of RELEASE: the range is no longer resident, and every fence slot, of whichever die, whose destination it overlaps ends (R97, R238). -/
def releaseBody (f : RangeF) (x : Ctx) (_ : Bool) (m : Mach) : Bool × Mach :=
  let a := f.base.toNat
  let n := f.len.toNat
  (false, m.up (fun c =>
    let c1 := c.modJob x.plan.handle (Job.release x.part a n)
    { c1 with parts := c1.parts.map (fun q =>
        { q with streams := { q.streams with
            fences := q.streams.fences.filter (fun e => !(c.meetsFence x.tenant x.plan.pm (smAddr64 x.lpart a) n e.2)) } }) }))

/-- RELEASE issues and runs. -/
def releaseRun (granted : Bool) (st : Stn) (h : Hdr) (f : RangeF) : Mach → Mach :=
  issueWith granted (.release st h f) st h f 0x02 rangeSub
    (fun _ x f => { opc := 0x02, ranges := [(2, x.lpart, f.base.toNat, f.len.toNat)], token := (f.base.toNat, f.len.toNat) })
    releaseBody

/-- RELEASE (R97). -/
def execRelease (st : Stn) (h : Hdr) (f : RangeF) (s : State) : Host.Outcome State Fault Refusal := runM (releaseRun false st h f) s

/-! ### The end of a hold -/

/-- The compute die, or the partition of the link die's job, whose unit caused a hold. -/
def Plan.holdDie (p : Plan) (l : Lsid) : Option Nat :=
  match p.bindOf l with
  | some b => if b.die < 8 then some b.die else none
  | none => if lsScode l = 15 then p.phys (lsDie l) else none

/-- Core cycles of a hold counted on a die (R123). -/
def Core.countHold (p cycles : Nat) (c : Core) : Core :=
  let q := (c.part p).streams
  let full := satOvf q.holdCycles cycles || q.holdCycles.toNat + cycles == 2 ^ 48 - 1
  (c.modStreams p (fun q => { q with holdCycles := satAdd q.holdCycles cycles, holdOvf := q.holdOvf || full })).counterEvent 0
    (full && !q.holdOvf) 3 p 0x310

/-- The dies whose units cause the holds of a job, once each; an instruction that waits behind a hold causes none (R161). -/
def Job.holdDies (j : Job) (p : Plan) : List Nat := (j.holds.filter (fun q => q.cause != .behind)).foldl (fun l q => match p.holdDie q.lsid with | some d => insertRising d l | none => l) []

/-- A job's holds end after `cycles` core cycles: they are counted, and its schedule cycle falls behind by as many (R123, R160, R161). -/
def Core.endHold (h cycles : Nat) (c : Core) : Core :=
  match c.job? h, c.plan? h with
  | some j, some p =>
    ((j.holdDies p).foldl (fun c d => c.countHold d cycles) c).modJob h (fun j =>
      { j with holds := [], holdCycles := j.holdCycles + cycles, offset := j.offset + cycles, holdBeats := 0 })
  | _, _ => c

/-- A token kept in a post register enters its channel when it has space, and the job's hold of that post ends (R111); what waited behind it issues at
ISSUE_HOLD_RELEASE. The cycles count once for the job, and for the die when no other hold of that die goes on (R123). -/
def postDeferred (plan : Nat) (lsid : Lsid) (cycles : Nat) (c : Core) : Core :=
  match c.job? plan, c.plan? plan with
  | some j, some p =>
    match j.posts.find? (fun q => q.lsid == lsid) with
    | none => c
    | some q =>
      let (ok, c1) := c.pushToken q.part q.chan q.token
      if !ok then c
      else
        let rest := j.holds.filter (fun e => !(e.lsid == lsid && e.cause == .chanFull && e.instr.isNone))
        let ended := rest.all (fun e => e.cause == .behind)
        let c2 := c1.modJob plan (fun j =>
          { j with posts := j.posts.filter (fun e => !(e.lsid == lsid)), holds := rest,
                   offset := if ended then j.offset + cycles else j.offset,
                   holdCycles := if ended then j.holdCycles + cycles else j.holdCycles, holdBeats := if ended then 0 else j.holdBeats })
        match p.holdDie lsid with
        | some d => if ({ j with holds := rest } : Job).holdDies p |>.contains d then c2 else c2.countHold d cycles
        | none => c2
  | _, _ => c

/-- STREAM_POST_DEFERRED (R111): the station, and the cycles its post was held. -/
def execStreamPostDeferred (plan : Nat) (lsid : Lsid) (cycles : Nat) (s : State) : Host.Outcome State Fault Refusal :=
  runC (fun _ _ c => postDeferred plan lsid cycles c) s

/-- The context of an event of a station of a job. -/
def Core.eventCtx (c : Core) (plan : Nat) (lsid : Lsid) (opc : Nat) : Option Ctx :=
  match c.plan? plan, c.job? plan with
  | some p, some j => (p.bindOf lsid).map (fun b =>
      { job := j, plan := p, lsid := lsid, die := b.die, inst := b.inst,
        part := if lsScode lsid == 6 then (((List.range 8).filterMap p.pm).head?.getD 0) else b.die, opc := opc, issue := j.sched })
  | _, _ => none

/-- A gather's status word is not written by the end of WIN_END: the record, and a hold until it is (R107). -/
def lateGather (plan : Nat) (lsid : Lsid) (winEnd : Cycle) (m : Mach) : Mach :=
  match m.core.eventCtx plan lsid 0x70 with
  | none => m
  | some x =>
    if x.job.phase == .running || x.job.phase == .localReplay then
      (x.late 0x202 6 0 4 x.inst [] (m.up (fun c => c.modJob plan (fun j => { j with sched := max j.sched winEnd.toNat })))).up
        (fun c => c.modJob plan (fun j => { j with holds := j.holds ++ [{ lsid := lsid, cause := .gather, instr := none }] }))
    else m

/-- LATE_GATHER (R107). -/
def execLateGather (plan : Nat) (lsid : Lsid) (winEnd : Cycle) (s : State) : Host.Outcome State Fault Refusal :=
  runM (lateGather plan lsid winEnd) s

/-! ### Descriptors and tokens of control cores -/

/-- A control core's record (R411). -/
def coreRec (c : Core) (plan : Nat) (code cls sev part core : Nat) : Rec :=
  let r := modRec code cls sev part 0x08 core
  match c.job? plan with | some j => jobRec j r | none => r

/-- The lowest logical partition of a plan bound to a physical partition, for a record. -/
def Core.lpAt (c : Core) (plan part : Nat) : Nat :=
  match c.plan? plan with | some p => (p.lpOf part).getD 0xFF | none => 0xFF

/-- Whether a job's control cores on a die run: not while it is replayed locally (10 R356), nor before Ready, nor while the partition is in reset or frozen for
a capture (14 R484, R490). A halt has already taken its jobs out of the running phase (15 R510). -/
def Core.coresRun (c : Core) (plan part : Nat) : Bool :=
  c.rst.phase == 6 && !(c.rst.parts.contains part || c.rst.capturing.contains part) &&
  (match c.job? plan with | some j => j.phase == .running && j.replay.isNone | none => false)

/-- A control core writes a descriptor slot (R115): a slot whose VALID is 1 keeps its value and the write is discarded with
DESCRIPTOR_OVERRUN; the write of a VALID bit is recorded in the hamper (10 R344). -/
def descriptorWrite (plan part core ring slot : Nat) (v : BitVec 256) (c : Core) : Core :=
  if !(c.coresRun plan part) || part ≥ 8 || ring ≥ 256 || slot ≥ 16 then c
  else
    let old := (lookup? (ring, slot) (c.part part).streams.descs).getD 0
    if old.getLsbD 0 then
      ((c.logRec { coreRec c plan 0x304 3 1 part core with block := 0x17, inst := BitVec.ofNat 16 ring, detail := [BitVec.ofNat 8 slot] }).modStreams part
        (StreamPart.countLate 0x304)).modJob plan (Job.noteOrigin 3 0x304)
    else
      let c1 := c.putDesc part ring slot v
      match (if v.getLsbD 0 then c.job? plan else none) with
      | some j => c1.addRec j (c.lpAt plan part) (.descriptor part ring slot v)
      | none => c1

/-- DESCRIPTOR_WRITE (R115). -/
def execDescriptorWrite (plan part core ring slot : Nat) (v : BitVec 256) (s : State) : Host.Outcome State Fault Refusal :=
  runC (fun _ _ c => descriptorWrite plan part core ring slot v c) s

/-- A control core posts a token of its own choosing to a channel whose producer it is (R110, R114); a full channel holds the job as a station's
post does (notes/assumptions/29). -/
def corePost (plan part : Nat) (lsid : Lsid) (ch : Chan) (t : Token) (c : Core) : Core :=
  match (lookup? ch.toNat (c.part part).streams.chans), c.job? plan with
  | some s, some j =>
    if c.coresRun plan part && s.plan == plan && s.producer == lsid then
      let (ok, c1) := c.pushToken part ch.toNat t
      let c2 := c1.addRec j (c.lpAt plan part) (.tokenPost part ch.toNat (BitVec.ofNat 64 (tokenBits t)))
      if ok then c2
      else
        ((c2.logRec { coreRec c plan 0x203 6 0 part 0 with block := 0x16, inst := BitVec.ofNat 16 ch.toNat }).modStreams part
          (StreamPart.countLate 0x203)).modJob plan (fun j =>
            { j with posts := j.posts ++ [{ lsid := lsid, part := part, chan := ch.toNat, token := t }],
                     holds := j.holds ++ [{ lsid := lsid, cause := .chanFull, instr := none }] })
    else c
  | _, _ => c

/-- CONTROL_CORE_TOKEN_POST (R110). -/
def execControlCoreTokenPost (plan part : Nat) (lsid : Lsid) (ch : Chan) (t : Token) (s : State) : Host.Outcome State Fault Refusal :=
  runC (fun _ _ c => corePost plan part lsid ch t c) s

/-! ### Failed checks -/

/-- An array retires (R79 step 1): when its station finds no ballast left in its die the module fails for good (R20); a ballast array holds no station (R77). -/
def Core.retireArray (p a : Nat) (c : Core) : Core :=
  let q := (c.part p).mx
  if q.retiring.contains a || q.arrays.getD a .active == .retired then c
  else
    let c1 := (c.logRec (modRec 0x106 2 2 p 1 a)).modMx p (fun q => { q with retiring := q.retiring ++ [a] })
    let is := fun (t : ArrSt) (i : Nat) => q.arrays.getD i .retired == t
    let ballast := ((List.range 13).filter (fun i => is .ballast i && !(q.retiring.contains i))).length
    if is .active a && decide (ballast ≤ (q.retiring.filter (is .active)).length) then c1.permFail else c1

/-- Failures of the rows of an array counted; a row's second within 24 hours retires the array (R78), which LAST_KIND then says of the event (R85). -/
def Core.countRows (p a : Nat) (rows : List Nat) (c : Core) : Core :=
  let now := c.clk.count
  let again := rows.any (fun r => match lookup? (a, r) (c.part p).mx.rowHist with | some t => withinTicks now t day | none => false)
  let c1 := c.modMx p (fun q => { q with rowHist := rows.foldl (fun l r => insertKey (a, r) now l) q.rowHist })
  if again then (c1.retireArray p a).modMx p (fun q => { q with lastKind := 3 }) else c1

/-- PART_MX_FAULT at a RESIDUE_MISMATCH (R85): `row` is a DPU row of an array, or a dot unit of a thin station, 0 to 127. -/
def MxPart.mismatch (scode inst row : Nat) (q : MxPart) : MxPart :=
  { q with mismatchCount := satInc q.mismatchCount, lastUnit := BitVec.ofNat 4 (if scode = 1 then inst else 0xD),
           lastTv := BitVec.ofNat 2 (if scode = 2 then inst else 0), lastRow := BitVec.ofNat 5 (if scode = 2 then row / 32 * 8 + row % 32 / 4 else row), lastKind := 0 }

/-- Whether a tile at a station memory address names the format of its trailer, and its length in units; none when the trailer is not one. -/
def Mach.tileAt (m : Mach) (f : Fmt) (p a : Nat) : List Byte × Trailer :=
  let bs := m.sm p a (tileUnits f)
  (bs.take (tileDataBytes f), trailerOf (bs.drop (tileDataBytes f)))

/-- The CHECKED flag taken from a tile's trailer (R75). -/
def Mach.uncheck (f : Fmt) (p a : Nat) (m : Mach) : Mach :=
  let (data, t) := m.tileAt f p a
  m.putSm p a (data ++ trailerBytes { t with checked := false }) (m.anyBad (m.core.smUnits p a (tileUnits f)))

/-- A check of a station fails (R75, 05 R154): the affected output tiles lose CHECKED, the record carries the CRC-32C of each tile's data, the unit's
failure is counted, and a local replay starts from the cycle of detection. `rows` are the DPU rows (for a vector station the lanes), `tiles` the
station memory addresses of the affected tiles with their format, in sub-tile order, `mask` the sub-tile mask. -/
def residueMismatch (plan : Nat) (lsid : Lsid) (rows : List Nat) (col mask : Nat) (fmt : BitVec 4) (tiles : List SmAddr) (cycle : Cycle) (m : Mach) : Mach :=
  match m.core.eventCtx plan lsid 0 with
  | none => m
  | some x =>
    if !(x.job.phase == .running || x.job.phase == .localReplay) then m
    else
      let f := (fmtOfCode fmt.toNat).getD .fp32
      let sc := lsScode lsid
      let crcs := tiles.map (fun a => crc32c (m.tileAt f x.part a.toNat).1)
      let row := rows.headD 0
      let vs := sc != 1 && sc != 2
      let det := if vs then bytesLE 1 (row / 32) ++ bytesLE 1 row
        else bytesLE 1 row ++ bytesLE 1 col ++ bytesLE 1 mask ++ [0] ++ crcs.flatMap (bytesLE 4)
      let m1 := tiles.foldl (fun m a => m.uncheck f x.part a.toNat) m
      let m2 := x.logR { x.mkRec (if vs then 0x104 else 0x101) 7 2 det with cycle := cycle } m1
      let m3 := m2.up (fun c =>
        if vs then c.countUnit x.part sc x.inst
        else
          let c1 := c.modMx x.part (MxPart.mismatch sc x.inst row)
          if sc = 1 then c1.countRows x.part x.inst rows else c1.countUnit x.part sc x.inst)
      let m4 := m3.up (fun c => c.modJob plan (fun j =>
        { j with checks := j.checks ++ [{ die := x.part, block := sc, inst := x.inst, rows := rows,
                                          tiles := tiles.map (fun a => (m.core.smUnits x.part a.toNat (tileUnits f), tileDataBytes f,
                                            crc32c (m.tileAt f x.part a.toNat).1)) }] }))
      x.detect cycle.toNat m4

/-- The plans with a logical control core on a physical one. -/
def Core.plansOnCore (c : Core) (p core : Nat) : List Nat :=
  (c.plans.filter (fun q => q.ctrl.any (fun e => e.2 == core && q.phys (lsDie e.1) == some p))).map (fun q => q.handle)

/-- A control-core fault (10 Table 10-4): the record, and the jobs it works for unclean with cause fault. -/
def Core.coreFault (p core : Nat) (c : Core) : Core :=
  (c.plansOnCore p core).foldl (fun c h =>
    match c.job? h with
    | some j => (c.logRec (jobRec j (modRec 0x108 7 2 p 0x08 core))).modJob h (Job.unclean causeFault)
    | none => c) c

/-- A control core fails (R118): its cached lines, reservations and mailboxes are lost, the beat is a control-core fault, and the ballast core
takes over at the next beat edge; with that already in use the module fails for good. -/
def coreFailure (p core : Nat) (c : Core) : Core :=
  if p ≥ 8 || core ≥ 5 || (c.part p).cores.failed.getLsbD core then c
  else
    let q := (c.part p).cores
    let c1 := (c.coreFault p core).modCores p (fun q =>
      { q with lines := q.lines.filter (fun l => !(l.core == core)), reserved := q.reserved.filter (fun r => !(r.1 == core)),
               mail := q.mail.filter (fun b => !(b.core == core)),
               hist := insertKey core c.clk.count q.hist })
    if core = 4 && q.ballastFor.isNone then c1.modCores p (fun q => { q with failed := q.failed ||| 16 })
    else if q.ballastFor.isSome || !q.failing.isEmpty || q.failed.getLsbD 4 then c1.permFail
    else c1.modCores p (fun q => { q with failing := q.failing ++ [core] })

/-- CONTROL_CORE_FAILURE (R118). -/
def execControlCoreFailure (p core : Nat) (s : State) : Host.Outcome State Fault Refusal := runC (fun _ _ c => coreFailure p core c) s

end Sys2Proof.Machine
end

