-- ==== Sys2Proof/Machine/Transfer.lean ====
section
/-!
DEFINITION. Transfer and gather stations (04 R102 to R107, R113, R528; 07 R231, R234 to R236; 08 R277): local moves in every mode, what leaves
for another module, and gathers through the tenant's Commons cache.
-/

namespace Sys2Proof.Machine

/-! ### Global addresses -/

/-- The logical module of a global address (08 R275). -/
def gaModule (a : Nat) : Nat := field a 50 14

/-- The space of a global address. -/
def gaSpace (a : Nat) : Nat := field a 48 2

/-- The offset of a global address. -/
def gaOff (a : Nat) : Nat := field a 0 48

/-- The logical partition an offset of a space names, and its 64-byte unit within that partition (Table 07-1). -/
def splitOff (space off : Nat) : Nat × Nat :=
  if space = 0 then (field off 36 3, field off 0 36 / 64) else (field off 30 3, field off 0 30 / 64)

/-- A range of a global address as (space, logical partition, unit, units). -/
def gaRange (a units : Nat) : Nat × Nat × Nat × Nat :=
  let (lp, u) := splitOff (gaSpace a) (gaOff a)
  (gaSpace a, lp, u, units)

/-- Whether the bits of a global address that Table 07-1 gives as 0 are 0 (07 R205). -/
def gaFieldsOk (a : Nat) : Bool :=
  match gaSpace a with
  | 0 => field a 39 9 == 0
  | 1 => field a 33 15 == 0
  | _ => field a 33 15 == 0 && !(bitOf a 29)

/-! ### Latencies (Table 07-4) -/

/-- A latency by profile F1, F2, F3. -/
def byProfile (prof : BitVec 8) (a b c : Nat) : Nat := if prof == 2 then b else if prof == 3 then c else a

/-- RL of a memory for a transfer station of die `d` reading partition `p` (Table 07-4). -/
def xferRL (prof : BitVec 8) (d p space : Nat) : Nat :=
  match space with
  | 2 => if d = p then 12 else if d / 2 = p / 2 then 68 else 116
  | 1 => if d / 2 = p / 2 then 52 else 100
  | _ => if d / 2 = p / 2 then byProfile prof 668 588 488 else byProfile prof 716 636 536

/-- WL of a memory for a transfer station of die `d` writing partition `p` (Table 07-4). -/
def xferWL (prof : BitVec 8) (d p space : Nat) : Nat :=
  match space with
  | 2 => if d = p then 8 else if d / 2 = p / 2 then 36 else 60
  | 1 => if d / 2 = p / 2 then 38 else 62
  | _ => if d / 2 = p / 2 then byProfile prof 174 154 129 else byProfile prof 198 178 153

/-- RL and WL of an XFER: RL is 0 for ZERO (R231). The path class follows the logical partitions, whose quadrants a binding keeps together (04 R120). -/
def Ctx.xferLat (x : Ctx) (c : Core) (f : XferF) : Nat × Nat :=
  let place := fun (a : Nat) => (splitOff (gaSpace a) (gaOff a)).1
  let prof := c.ident.profile
  (if f.mode == 3 then 0 else xferRL prof x.lpart (place f.src.toNat) (gaSpace f.src.toNat),
   xferWL prof x.lpart (place f.dst.toNat) (gaSpace f.dst.toNat))

/-- The rated rate of a Celoth port in GB/s (08 Table 08-3). -/
def Fabric.rated (q : Fabric) (i : Nat) : Nat := if q.cfg.celoth1 then 50 else if (q.ports.getD i {}).enc then 97 else 100

/-- Bytes a plan asks of a resource in a slot (06 R185). -/
def Plan.asks (p : Plan) (kind inst slot : Nat) : Nat :=
  sumNat ((p.demand.filter (fun d => d.kind == kind && d.inst == inst && d.slot == slot)).map (fun d => d.bytes))

/-- The nanoseconds, as a fraction, that `n` units take at a transfer's reserved rate (08 R285): the most that the plan's demand reserves on one Celoth port, outbound
or for a READ inbound, in the slot of its ISSUE, and no more than the port is rated for. A plan that reserves nothing there has the lowest rated rate
(DESIGN CHOICE, notes/assumptions/35). -/
def Plan.xferNs (p : Plan) (q : Fabric) (inbound : Bool) (slot n : Nat) : Nat × Nat :=
  let slotNs := p.hdr.beatUs * 1000
  let best := listMax ((List.range 16).map (fun i => min (p.asks (if inbound then 5 else 4) i slot) (q.rated i * slotNs / 64)))
  if best = 0 then (64 * n, listMin ((List.range 16).map q.rated)) else (n * slotNs, best)

/-! ### Local moves -/

/-- The keys of an XFER's range of local addresses. -/
def Ctx.gaKeys (x : Ctx) (c : Core) (a units : Nat) : List Nat :=
  (c.resolveUnits x.tenant x.plan.pm (gaSpace a) (gaOff a) units).getD []

/-- A unit as a transfer station captures it: its bytes and its poison. -/
structure Captured where
  key : Nat
  bytes : List Byte
  bad : Bool

/-- Whether the unit just written carries poison into a guarded range: its poison bit, or a trailer with POISON set (12 R419, notes/assumptions/30). -/
def poisonedWrite (bytes : List Byte) (bad : Bool) : Bool := bad || (tcrcOk bytes && (trailerOf bytes).poison)

/-- Units written by a move, in order. -/
def Mach.putCaptured (cs : List Captured) (m : Mach) : Mach := cs.foldl (fun m c => m.putUnit c.key c.bytes c.bad) m

/-- One source unit captured for a destination unit. A station memory unit holds every write that is complete. For a Commons or HBM unit that a
write of this same transfer, one of `waiting`, may have reached and not completed, the spec leaves open whether it is held: a free value decides
(R234, notes/assumptions/36). -/
def Mach.capture (stale : Bool) (waiting : List Captured) (src dst : Nat) (m : Mach) : Captured × Mach :=
  let plain : Captured := { key := dst, bytes := m.unit src, bad := m.bad src || stale }
  match waiting.reverse.find? (fun w => w.key == src) with
  | some w =>
    if (keyPlace src).2 = 2 then (plain, m)
    else
      let (v, c) := m.core.fresh
      ((if v.getLsbD 0 then { key := dst, bytes := w.bytes, bad := w.bad || stale } else plain), { m with core := c })
  | none => (plain, m)

/-- The groups of four units of a COPY, one cycle each: a group is captured in its cycle, after the groups whose writes have completed by then, `lat`
cycles behind, have been written (R207, R231, R234). The last `late` groups before it are not in question: their data leave the transfer station after RL, and
reach the memory only when the units read in this cycle have left it. -/
def copyGroups (lat late : Nat) (stale : Bool) : List (List (Nat × Nat)) → List (List Captured) → Mach → Mach
  | [], waiting, m => m.putCaptured waiting.flatten
  | g :: rest, waiting, m =>
    let due := if lat ≤ waiting.length then waiting.take 1 else []
    let left := if lat ≤ waiting.length then waiting.drop 1 else waiting
    let m1 := m.putCaptured due.flatten
    let (cs, m2) := g.foldl (fun (acc : List Captured × Mach) p =>
      let (c, m') := acc.2.capture stale (left.take (left.length - late)).flatten p.1 p.2
      (acc.1 ++ [c], m')) ([], m1)
    copyGroups lat late stale rest (left ++ [cs]) m2

/-- A COPY of units between local keys. -/
def copyUnits (lat late : Nat) (stale : Bool) (src dst : List Nat) (m : Mach) : Mach :=
  copyGroups lat late stale (chunks 4 (src.zip dst)) [] m

/-- How many of the groups before it a group of a COPY cannot meet (R234): those requested less than twice the path's latency before, since both the unit read and
the data written take the path once (01 Table 01-4: 14 cycles to the own quadrant's dies, 38 to another's). -/
def lateGroups (d p : Nat) : Nat := 2 * (if d / 2 = p / 2 then 14 else 38) - 1

/-- The format TFMT names (Table 04-12). -/
def tfmtOf (t : BitVec 4) : Fmt := if t == 1 then .bf16 else if t == 2 then .fp16 else .fp32

/-- One tile of a TRANSPOSE (R103, R228): the bytes written, the poison bit of their units, and the records. A tile that fails its tenant check is written with
ORIENT flipped, as one that passes: R103 does not say how the all-zero tile is oriented (DESIGN CHOICE, notes/assumptions/98). A poisoned unit silences the
record of a TCRC or RESIDUE failure only (R228). -/
def Ctx.transposeTile (x : Ctx) (f : Fmt) (stale : Bool) (bytes : List Byte) (unitBad : Bool) (m : Mach) : (List Byte × Bool) × Mach :=
  let data := bytes.take (tileDataBytes f)
  let tr := bytes.drop (tileDataBytes f)
  let t := trailerOf tr
  let k := tileChecks x.tenant f none data tr
  let bad := unitBad || stale
  if k.tenantBad then
    let blocks := List.replicate 32 (zeroBlock f)
    let d := blocksData f blocks
    ((d ++ trailerBytes { t with orient := !t.orient, residue := residueOf f d, poison := true }, bad), x.tenantRec m)
  else if k.crcBad || k.residueBad || k.formatBad then
    let m1 := if unitBad && !k.formatBad then m else x.log 0x302 3 2 [] m
    ((data ++ trailerBytes { t with poison := true }, true), m1)
  else
    let codes := (tileBlocks f data t.scale).map (fun b => b.codes)
    let d := blocksData f ((transpose32 codes).map (fun r => ⟨r, 0⟩))
    ((d ++ trailerBytes { t with orient := !t.orient, residue := residueOf f d, poison := t.poison || bad }, bad), m)

/-- A TRANSPOSE of a run of source units: what is written, unit by unit, with poison. -/
def Ctx.transposeRun (x : Ctx) (f : Fmt) (stale : Bool) (src : List Nat) (m : Mach) : List (List Byte × Bool) × Mach :=
  (chunks (tileUnits f) src).foldl (fun (acc : List (List Byte × Bool) × Mach) ks =>
    let ((bs, bad), m1) := x.transposeTile f stale (acc.2.units ks) (acc.2.anyBad ks) acc.2
    (acc.1 ++ (chunks 64 bs).map (fun u => (u, bad)), m1)) ([], m)

/-- After a move into local keys: station memory written becomes resident, and poison in a guarded range is reported (R62, R419). -/
def Ctx.moved (x : Ctx) (dst : Nat) (keys : List Nat) (m : Mach) : Mach :=
  let m1 := m.up (fun c => c.modJob x.plan.handle (Job.markKeys c keys))
  let (space, lp, u, n) := gaRange dst keys.length
  if guardedRange x.plan x.job space lp u n && keys.any (fun k => poisonedWrite (m.unit k) (m.bad k)) then x.guard space lp u n true m1 else m1

/-- A COPY_FENCED's binding (R236): the sums before and after, and the units it wrote into its own source regions. -/
def Ctx.bindFence (x : Ctx) (f : XferF) (src dst : List Nat) (g0 : BitVec 48) (m : Mach) : Mach :=
  let regs := m.core.regionsOf src
  let g1 := m.core.genSum regs
  let w := (dst.filter (fun k => regs.contains (m.core.regionOf k))).length
  let fe : Fence :=
    { dstAddr := field f.dst.toNat 0 50, dstUnits := dst.length, srcAddr := f.src, regions := regs, refSum := g1,
      stale := g1 - BitVec.ofNat 48 w != g0, tenant := x.tenant, plan := x.plan.handle }
  m.up (fun c => c.modStreams x.part (fun q => { q with fences := insertKey f.fenceSlot.toNat fe q.fences }))

/-- The token an XFER posts to DST_CH (R113): it names the written range of station memory; a range of another memory does not fit its ADDR
and is left open (notes/assumptions/26). -/
def Ctx.rpostTo (x : Ctx) (f : XferF) (bad : Bool) (m : Mach) : Mach :=
  let (space, lp, u, n) := gaRange f.dst.toNat f.len.toNat
  x.postRange ((x.plan.phys lp).getD x.part) f.dstCh.toNat u (if space = 2 then n else 0) bad m

/-- Runs of neighbouring units in a list of keys, as (unit, place in the list, units). -/
def keyRuns (keys : List Nat) : List (Nat × Nat × Nat) :=
  (keys.mapIdx (fun i k => (k / 64, i))).foldl (fun acc e =>
    match acc with
    | r :: rest => if r.1 + r.2.2 = e.1 then (r.1, r.2.1, r.2.2 + 1) :: rest else (e.1, e.2, 1) :: acc
    | [] => [(e.1, e.2, 1)]) []

/-- Whether a run of HBM writes reaches a unit in a cycle: four units a cycle, the first in its first cycle. -/
def HbmRun.hits (r : HbmRun) (unit cycle : Nat) : Bool :=
  r.runs.any (fun p => inRange unit p.1 p.2.2 && r.cycle + (p.2.1 + (unit - p.1)) / 4 == cycle)

/-- Two level-1 writes that reach one HBM unit in the same cycle: the data of the higher LSID remain (07 R231). `old` is the machine before this transfer wrote
`keys`, the first four of them in cycle `cycle` of the beat; its writes are noted for the transfers that come. -/
def Ctx.yields (x : Ctx) (cycle : Nat) (keys : List Nat) (old m : Mach) : Mach :=
  if !(isHbmKey (keys.headD 0)) then m
  else
    let above := (old.core.parts.flatMap (fun q => q.streams.hbmRuns)).filter (fun r => decide (x.lsid.toNat < r.lsid.toNat))
    let m1 := if above.isEmpty then m else ((keys.mapIdx (fun i k => (k, cycle + i / 4))).filter (fun e =>
      above.any (fun r => r.hits (e.1 / 64) e.2))).foldl (fun m e => m.putUnit e.1 (old.unit e.1) (old.bad e.1)) m
    m1.up (fun c => c.modStreams x.part (fun q => { q with hbmRuns := q.hbmRuns ++ [{ lsid := x.lsid, cycle := cycle, runs := keyRuns keys }] }))

/-- The effect of an XFER within the module. -/
def Ctx.xferLocal (x : Ctx) (f : XferF) (stale : Bool) (m : Mach) : Mach :=
  let n := f.len.toNat
  let src := x.gaKeys m.core f.src.toNat n
  let dst := x.gaKeys m.core f.dst.toNat n
  let (rl, wl) := x.xferLat m.core f
  let g0 := m.core.genSum (m.core.regionsOf src)
  let m1 :=
    if f.mode == 3 then dst.foldl (fun m k => m.putUnit k [] stale) m
    else if f.mode == 2 then
      let (us, m') := x.transposeRun (tfmtOf f.tfmt) stale src m
      (dst.zip us).foldl (fun m e => m.putUnit e.1 e.2.1 e.2.2) m'
    else copyUnits (rl + wl) (lateGroups x.lpart (splitOff (gaSpace f.src.toNat) (gaOff f.src.toNat)).1) stale src dst m
  let at_ := x.job.actual x.issue + rl + wl + (if f.mode == 2 then 80 else 0)
  let m1 := x.yields at_ dst m m1
  let m2 := if f.mode == 1 then x.bindFence f src dst g0 m1 else m1
  let m3 := x.moved f.dst.toNat dst m2
  if f.rpost then x.rpostTo f stale m3 else m3

/-! ### Moves to and from other modules (08 R277, R283) -/

/-- Whether an XFER's source or destination lies on another module of the job. -/
def Job.remote (j : Job) (a : BitVec 64) : Bool := gaModule a.toNat != j.logicalModule

/-- Whether a station instruction word of a plan is an XFER that leaves the module. -/
def remoteWord (own : Nat) (w : BitVec 256) : Bool :=
  let n := w.toNat
  field n 0 8 == 0x80 && field n 8 4 == 5 &&
  (field n 242 14 != own || (field n 178 14 != own && field n 100 4 != 3))

/-- The remote XFERs of a plan in a beat, as (LSID, ISSUE), in ascending LSID and ISSUE. -/
def Plan.remoteXfers (p : Plan) (own beat : Nat) : List (Nat × Nat) :=
  (List.range 8).flatMap (fun d => (List.range 16).flatMap (fun k =>
    match p.progs.find? (fun g => g.lsid.toNat == 0x5000 + d * 512 + k) with
    | some g => ((g.beats.getD beat []).filter (remoteWord own)).map (fun w => (g.lsid.toNat, field w.toNat 16 28))
    | none => []))

/-- The collectives of a plan in a beat, as (LSID, ISSUE), in ascending LSID and ISSUE. -/
def Plan.collsIn (p : Plan) (beat : Nat) : List (Nat × Nat) :=
  (List.range 4).flatMap (fun l =>
    match p.progs.find? (fun g => g.lsid.toNat == 0x6000 + l * 512) with
    | some g => ((g.beats.getD beat []).filter (fun w => field w.toNat 8 4 == 6 && field w.toNat 4 4 == 9)).map (fun w => (g.lsid.toNat, field w.toNat 16 28))
    | none => [])

/-- The XID of a collective (R278): from 384 on, its plan's first and its place among the collectives of the plan's programs in this beat
(notes/assumptions/31). -/
def Ctx.collXid (x : Ctx) : BitVec 9 :=
  let mine := (x.plan.collsIn x.job.beat).filter (fun e => decide (e.1 < x.lsid.toNat) || (e.1 == x.lsid.toNat && decide (e.2 < x.issue)))
  BitVec.ofNat 9 (384 + (x.plan.collBase + mine.length) % 128)

/-- The XID of a remote XFER (R278): its plan's first XID and its place among the remote XFERs of the plan's programs in this beat, in ascending LSID and ISSUE
(notes/assumptions/31). -/
def Ctx.xid (x : Ctx) : BitVec 9 :=
  let mine := (x.plan.remoteXfers x.job.logicalModule x.job.beat).filter (fun e =>
    decide (e.1 < x.lsid.toNat) || (e.1 == x.lsid.toNat && decide (e.2 < x.issue)))
  BitVec.ofNat 9 ((x.plan.xidBase + mine.length) % 384)

/-- The slice of a job: the tenant's slice that gives this module the job's logical ID (R275, R287). -/
def Ctx.jobSlice (x : Ctx) (c : Core) : Option Slice :=
  match c.fab.slices.find? (fun s => s.tenant == x.tenant && s.map[x.job.logicalModule]? == some c.fab.cfg.own) with
  | some s => some s
  | none => c.fab.slices.find? (fun s => s.tenant == x.tenant)

/-- The physical module of a logical ID (R275). -/
def Ctx.physModule (x : Ctx) (c : Core) (l : Nat) : Option Nat := (x.jobSlice c).bind (fun s => s.map[l]?)

/-- The VC of a job's transfers (Table 08-9, R172). -/
def Plan.vc (p : Plan) : BitVec 3 := if p.hdr.cls = 0 then 2 else if p.hdr.cls = 1 then 3 else 4

/-- An XOPEN payload (Table 08-12). -/
def xopenBytes (addr raddr len flags ch lsid ckey : Nat) : List Byte :=
  bytesLE 8 addr ++ bytesLE 8 raddr ++ bytesLE 3 len ++ bytesLE 1 flags ++ bytesLE 2 ch ++ bytesLE 2 lsid ++ bytesLE 4 ckey ++ bytesLE 4 0

/-- The XDATA frames of a run of units (R277): chunks of 512 bytes with a poison bit per unit. -/
def xdataFrames (base : Frame) (units : List (List Byte × Bool)) : List Frame :=
  (chunks 8 units).mapIdx (fun i us =>
    { base with typ := 3, chunk := BitVec.ofNat 21 i, payload := (us.map Prod.fst).flatten,
                pmask := BitVec.ofNat 8 (us.foldr (fun u acc => boolNat u.2 + 2 * acc) 0) })

/-- Frames sent in order. -/
def Core.sendFrames (fs : List Frame) (c : Core) : Core := fs.foldl (fun c f => c.sendFrame f) c

/-- Whether a unit is the trailer of a tile without CHECKED, which never leaves the module (03 R74). -/
def uncheckedUnit (bs : List Byte) : Bool := tcrcOk bs && bs.any (fun b => b != 0) && !(trailerOf bs).checked

/-- The effect of an XFER with one address on another module (R277): a write or ZERO sends its data, a READ asks for them. What a local replay
produces again is compared and not sent (10 R357, R358). A run that holds a tile without CHECKED is not sent, and the step's verdict is unclean with cause fault
(03 R74; DESIGN CHOICE, notes/assumptions/96). -/
def Ctx.xferRemote (x : Ctx) (f : XferF) (stale : Bool) (m : Mach) : Mach :=
  let n := f.len.toNat
  let write := x.job.remote f.dst
  let far := if write then f.dst else f.src
  let xid := x.xid
  match x.physModule m.core (gaModule far.toNat) with
  | none => m
  | some dst =>
    let ckey := match x.jobSlice m.core with | some s => s.ckey.toNat | none => 0
    let flags := boolNat (!write) + 2 * boolNat (f.mode == 3) + 4 * boolNat f.rpost
    let base : Frame :=
      { vc := x.plan.vc, typ := 2, dst := BitVec.ofNat 14 dst, src := 0, tenant := x.tenant, uns := true, xid := xid,
        payload := xopenBytes far.toNat (if write then 0 else f.dst.toNat) n flags f.dstCh.toNat x.lsid.toNat ckey,
        job := some (x.plan.handle, x.job.step) }
    let (units, m1) :=
      if !write || f.mode == 3 then ([], m)
      else
        let src := x.gaKeys m.core f.src.toNat n
        if f.mode == 2 then x.transposeRun (tfmtOf f.tfmt) stale src m
        else (src.map (fun k => (m.unit k, m.bad k || stale)), m)
    let (go, c1) := m1.core.outbound x.plan.handle x.lpart 0 xid.toNat (base.payload ++ (units.map Prod.fst).flatten)
    let m2 := { m1 with core := c1 }
    if units.any (fun u => uncheckedUnit u.1) then m1.up (fun c => c.modJob x.plan.handle (Job.unclean causeFault))
    else if !go then m2
    else
      let m3 := m2.up (fun c => (c.sendFrame base).sendFrames (xdataFrames base units))
      if write then m3
      else
        let keys := x.gaKeys m.core f.dst.toNat n
        let (space, lp, u, k) := gaRange f.dst.toNat n
        let part := (x.plan.phys lp).getD x.part
        let (w, c4) := m3.core.fresh
        let m4 := { m3 with core := c4 }
        m4.up (fun c => c.modFab (fun q =>
          { q with opens := q.opens ++ [{ src := BitVec.ofNat 14 dst, xid := xid, tenant := x.tenant, keys := keys, rpost := f.rpost, ch := f.dstCh,
                                          part := part, token := BitVec.ofNat 64 (tokenBits (x.token w u (if space = 2 then k else 0) false)),
                                          plan := some x.plan.handle, raddr := f.dst, uns := true }] }))

/-! ### XFER -/

/-- Where an XFER reads and writes, and how long it runs (R117, R231, R237, R528). A TRANSPOSE from its own die's station memory names tiles, which must be
resident (03 R62, R97); the other modes move bytes (notes/assumptions/18). A remote address whose module has no entry in the job's map, and the
control space, are outside every grant. -/
def xferSpec (m : Mach) (x : Ctx) (f : XferF) : StnSpec :=
  let n := f.len.toNat
  let (rl, wl) := x.xferLat m.core f
  let srcHere := f.mode != 3 && !(x.job.remote f.src)
  let dstHere := !(x.job.remote f.dst)
  let lost := fun (a : BitVec 64) => if x.job.remote a && (x.physModule m.core (gaModule a.toNat)).isNone then [(3, 0, 0, n)] else []
  let ns := x.plan.xferNs m.core.fab false (slotOf (x.plan.hdr.beatUs * cyclesPerUs m.core.ident.profile) x.issue) n
  let here := dstHere && (srcHere || f.mode == 3)
  let away := if dstHere || f.mode == 3 then 48 else rl + 48 + ceilDiv (ns.1 * cyclesPerUs m.core.ident.profile) (ns.2 * 1000)
  let src := gaRange f.src.toNat n
  let fp := tileUnits (tfmtOf f.tfmt)
  { opc := 0x80
    tiles := if srcHere && f.mode == 2 && src.1 == 2 && src.2.1 == x.lpart then
        tabulate (n / fp) (fun i => ((src.2.2.1 + i * fp) % 2 ^ 23, fp)) else []
    reads := if srcHere then [(field f.src.toNat 0 50, n)] else []
    ranges := (if srcHere then [gaRange f.src.toNat n] else []) ++ (if dstHere then [gaRange f.dst.toNat n] else []) ++
      (if f.mode == 3 then [] else lost f.src) ++ lost f.dst
    writes := if dstHere then [gaRange f.dst.toNat n] else []
    dur := if here then rl + ceilDiv n 4 - 1 + wl + (if f.mode == 2 then 80 else 0) else away
    copyAt := if here then some (rl + wl + (if f.mode == 2 then 80 else 0)) else none
    after := boolNat (here && f.rpost)
    entryEnd := if here then ceilDiv n 4 else away
    token := let r := gaRange f.dst.toNat n; (r.2.2.1, if r.1 = 2 then n else 0) }

/-- A descriptor's SRC and DST put into an XFER (R116). -/
def xferSub (f : XferF) (d : Nat) : Option XferF :=
  let s := BitVec.ofNat 64 (field d 128 64)
  let t := BitVec.ofNat 64 (field d 192 64)
  if (f.mode == 3 && s != 0) || s.toNat % 64 ≠ 0 || t.toNat % 64 ≠ 0 || gaSpace s.toNat = 3 || gaSpace t.toNat = 3 ||
    !(gaFieldsOk s.toNat) || !(gaFieldsOk t.toNat) then none
  else some { f with src := s, dst := t }

/-- The effect of an XFER (R103). -/
def xferBody (f : XferF) (x : Ctx) (stale : Bool) (m : Mach) : Bool × Mach :=
  if x.job.remote f.dst || (f.mode != 3 && x.job.remote f.src) then (stale, x.xferRemote f stale m)
  else (stale, x.xferLocal f stale m)

/-- XFER issues and runs; with RPOST it posts nothing to the source die (R113). -/
def xferRun (granted : Bool) (st : Stn) (h : Hdr) (f : XferF) : Mach → Mach :=
  issueWith granted (.xfer st h f) st (if f.rpost then { h with post := false } else h) f 0x80 xferSub xferSpec xferBody

/-- XFER (R102, R103). -/
def execXfer (st : Stn) (h : Hdr) (f : XferF) (s : State) : Host.Outcome State Fault Refusal := runM (xferRun false st h f) s

/-! ### GATHER -/

/-- The lines of the Commons cache that a tenant has on a base die: its granules in cache mode, 2^18 lines each (R212, R214). -/
def Core.cacheLines (c : Core) (t : TenantId) (quad : Nat) : Nat :=
  2 ^ 18 * (c.leases.granules.filter (fun e =>
    e.2 == t && e.1.1 / 2 == quad && lookup? e.1 c.leases.modes == some .cache)).length

/-- A line looked up in a tenant's Commons cache and filled on a miss: 16 ways, least recently used out first (R214). The set of a line is its number
modulo the sets (notes/assumptions/16). -/
def Core.touchLine (t : TenantId) (quad line : Nat) (c : Core) : Core :=
  let size := c.cacheLines t quad
  if size = 0 then c
  else
    let sets := size / 16
    let ls := (lookup? (t, quad) c.commonsLines).getD []
    let same := ls.filter (fun l => l % sets == line % sets && l != line)
    let out := same.drop 15
    { c with commonsLines := insertKey (t, quad) (line :: ls.filter (fun l => l != line && !(out.contains l))) c.commonsLines }

/-- One unit a gather reads: through the cache for HBM, directly for a scratch granule (R105, R213). -/
def Ctx.gatherUnit (x : Ctx) (space off : Nat) (m : Mach) : (List Byte × Bool) × Mach :=
  match m.core.resolve x.tenant x.plan.pm space off with
  | none => (([], true), m)
  | some k => ((m.unit k, m.bad k), if space = 0 then m.up (Core.touchLine x.tenant (x.part / 2) (k / 64)) else m)

/-- The units of one row. -/
def Ctx.gatherUnits (x : Ctx) (space off : Nat) : Nat → Mach → List (List Byte × Bool) × Mach
  | 0, m => ([], m)
  | n + 1, m =>
    let (u, m1) := x.gatherUnit space off m
    let (us, m2) := x.gatherUnits space (off + 64) n m1
    (u :: us, m2)

/-- The rows of a gather in list order, each written at its place (R104, R105): the count out of range and whether a poisoned unit was read. -/
def Ctx.gatherRows (x : Ctx) (f : GatherF) (stale : Bool) : List Nat → Nat → Nat × Bool × Mach → Nat × Bool × Mach
  | [], _, acc => acc
  | i :: is, n, (oob, bad, m) =>
    let dst := (f.dstBase.toNat + n * f.rowUnits.toNat) % 2 ^ 23
    let zero := List.replicate (64 * f.rowUnits.toNat) 0
    if f.tblRows.toNat ≤ i then
      x.gatherRows f stale is (n + 1) (oob + 1, bad, x.putFlat x.part dst zero stale m)
    else
      let (us, m1) := x.gatherUnits f.tspace.toNat (f.toff.toNat + i * f.rowUnits.toNat * 64) f.rowUnits.toNat m
      let bs := (us.map (fun u => if u.2 then List.replicate 64 0 else padTo 64 u.1)).flatten
      x.gatherRows f stale is (n + 1) (oob, bad || us.any Prod.snd, x.putFlat x.part dst bs stale m1)

/-- The gather status word (Table 04-14). -/
def statusWord (t : TenantId) (step : StepNo) (unsealed poison : Bool) (oob rows : Nat) : List Byte :=
  let w := bytesLE 60 (place t.toNat 416 8 + place step.toNat 376 40 + place (boolNat unsealed) 65 1 + place (boolNat poison) 64 1 +
    place oob 32 32 + place rows 0 32)
  w ++ bytesLE 4 (crc32c w)

/-- Whether the index list counts as unsealed (R106): the unit after it holds a trailer that passes its TCRC and is UNSEALED of a step not sealed
(notes/assumptions/34). -/
def Ctx.listUnsealed (x : Ctx) (bs : List Byte) : Bool :=
  let t := trailerOf bs
  tcrcOk bs && t.unsealed && (!x.job.sealedValid || stepLater t.step x.job.lastSealed)

/-- The effect of a GATHER: rows, then the status word at the place that the plan's IDX_COUNT gives (R104 to R106); the job keeps where both stand, for the readers of
the rows (notes/assumptions/116). -/
def gatherBody (tmpl : GatherF) (f : GatherF) (x : Ctx) (stale : Bool) (m : Mach) : Bool × Mach :=
  let n := f.idxCount.toNat
  let (bs, m1) := x.readFlat x.part f.idxBase.toNat (4 * n) m
  let uns := x.listUnsealed (m1.sm x.part ((f.idxBase.toNat + ceilDiv (4 * n) 64) % 2 ^ 23) 1)
  let (oob, bad, m2) := x.gatherRows f stale ((chunks 4 bs).map natLE) 0 (0, false, m1)
  let a := (f.dstBase.toNat + tmpl.idxCount.toNat * f.rowUnits.toNat) % 2 ^ 23
  let rows := tmpl.idxCount.toNat * f.rowUnits.toNat
  let m3 := x.putFlat x.part a (statusWord x.tenant x.job.step uns (bad || stale) oob n) stale m2
  (stale || bad, m3.up (fun c => c.modJob x.plan.handle (fun j =>
    { j with gathers := j.gathers.filter (fun g => !(g.1 == x.part && overlaps f.dstBase.toNat rows g.2.1 g.2.2.1)) ++ [(x.part, f.dstBase.toNat, rows, a)] })))

/-- A descriptor's TOFF, bases and count put into a GATHER; a count above the instruction's is refused (R116, R117). -/
def gatherSub (f : GatherF) (d : Nat) : Option GatherF :=
  let n := BitVec.ofNat 20 (field d 143 20)
  let o := BitVec.ofNat 48 (field d 70 48)
  if f.idxCount.toNat < n.toNat || n == 0 || o.toNat % 64 ≠ 0 || !(gaFieldsOk (f.tspace.toNat * 2 ^ 48 + o.toNat)) then none
  else some { f with toff := o, idxBase := BitVec.ofNat 23 (field d 120 23), dstBase := BitVec.ofNat 23 (field d 163 23), idxCount := n }

/-- Where a GATHER reads and writes; it lies in slots from its issue to the end of its window (R107, R163). -/
def gatherSpec (tmpl : GatherF) (x : Ctx) (f : GatherF) : StnSpec :=
  let iu := ceilDiv (4 * f.idxCount.toNat) 64
  let out := tmpl.idxCount.toNat * f.rowUnits.toNat + 1
  let tu := f.tblRows.toNat * f.rowUnits.toNat
  { opc := 0x70
    reads := [(smAddr64 x.lpart f.idxBase.toNat, iu), (f.tspace.toNat * 2 ^ 48 + f.toff.toNat, tu)]
    ranges := [(2, x.lpart, f.idxBase.toNat, iu), (2, x.lpart, f.dstBase.toNat, out), gaRange (f.tspace.toNat * 2 ^ 48 + f.toff.toNat) tu]
    dur := f.winEnd.toNat - x.issue
    token := (f.dstBase.toNat, out) }

/-- GATHER issues and runs. -/
def gatherRun (granted : Bool) (st : Stn) (h : Hdr) (f : GatherF) : Mach → Mach :=
  issueWith granted (.gather st h f) st h f 0x70 gatherSub (fun _ => gatherSpec f) (gatherBody f)

/-- GATHER (R104). -/
def execGather (st : Stn) (h : Hdr) (f : GatherF) (s : State) : Host.Outcome State Fault Refusal := runM (gatherRun false st h f) s

end Sys2Proof.Machine
end

