-- ==== Sys2Proof/Machine/Kite.lean ====
section
/-!
DEFINITION. The kite line (09_collectives_and_mapping.md R297, R313 to R319) and the aborts of collectives (R330 to R334).
-/

namespace Sys2Proof.Machine

/-! ### Groups and trees -/

/-- The slice of a plan's job: the tenant's slice whose map gives this module its logical ID (R287). -/
def Core.sliceFor (c : Core) (p : Plan) : Option Slice :=
  c.fab.slices.find? (fun s => s.tenant == p.tenant && s.kind == p.hdr.sliceKind && s.map.length == p.hdr.modCount)

/-- The members of a group as logical module IDs (R296, R297). -/
def Plan.members (p : Plan) (g : Nat) : List Nat :=
  if g = 0xFF then List.range p.hdr.modCount
  else match p.groups.find? (fun e => e.index == g) with | some e => e.members | none => []

/-- The logical module at a group's kite root (R297, Table 09-1 KROOT). -/
def Core.kiteRoot (c : Core) (p : Plan) (g : Nat) : Nat :=
  if g = 0xFF then
    if p.hdr.sliceKind = 2 then
      let lm := p.hdr.tx / 2 + p.hdr.tx * (p.hdr.ty / 2 + p.hdr.ty * (p.hdr.tz / 2))
      lm * c.fab.cfg.jobPos
    else 0
  else match p.groups.find? (fun e => e.index == g) with
    | some e => e.members.getD (fieldAt e.raw 32 2) 0
    | none => 0

/-- The next module of the route of R270 from module `m` to `dst` with nothing out of service, and the port taken. -/
def Fabric.hop (q : Fabric) (t : Option TenantId) (odd : Bool) (m dst : Nat) : Nat × Nat :=
  let me := m / 64
  let p := m % 64
  let md := dst / 64
  let fold := q.foldAllowed t m dst
  let meadow := fun (pd : Nat) => let n := meadowNext fold odd p pd; (n, me * 64 + meadowPeer p n)
  if me ≠ md then
    let a := ((List.range 3).find? (fun a => coord me a != coord md a)).getD 0
    if q.cfg.axisOf p = some a then
      let plus := q.plus t dst a (coord me a) (coord md a)
      let sz := max (q.cfg.size a) 1
      let x := coord me a
      let y := if plus then (x + 1) % sz else (x + sz - 1) % sz
      let w := 8 ^ a
      (if plus then 12 else 13, (me - x * w + y * w) * 64 + p)
    else meadow (q.cfg.gate p a).1
  else meadow (dst % 64)

/-- The modules of a route with the ports they leave by. -/
def Fabric.path (q : Fabric) (t : Option TenantId) (odd : Bool) (dst : Nat) : Nat → Nat → List (Nat × Nat × Nat)
  | 0, _ => []
  | n + 1, m => if m = dst then [] else let (port, next) := q.hop t odd m dst; (m, port, next) :: Fabric.path q t odd dst n next

/-- The parent port of this module in a group's kite tree, none at the root, and its child ports (R314). -/
def Core.kiteTree (c : Core) (p : Plan) (g : Nat) : Option Nat × List Nat :=
  match c.sliceFor p with
  | none => (none, [])
  | some s =>
    let phys := fun (l : Nat) => s.map.getD l c.fab.cfg.own
    let root := phys (c.kiteRoot p g)
    let odd := g % 2 == 1
    let links := (p.members g).flatMap (fun l => c.fab.path (some p.tenant) odd root 64 (phys l))
    let up := if c.fab.cfg.own = root then none else (links.find? (fun e => e.1 == c.fab.cfg.own)).map (fun e => e.2.1)
    let kids := (links.filter (fun e => e.2.2 == c.fab.cfg.own)).foldl (fun l e =>
      let port := if e.2.1 = 12 then 13 else if e.2.1 = 13 then 12 else e.2.1
      insertRising port l) []
    (up, kids)

/-- Whether this module is a member of a group. -/
def Core.inGroup (c : Core) (p : Plan) (g : Nat) : Bool :=
  match c.job? p.handle with
  | some j => (p.members g).contains j.logicalModule
  | none => false

/-- The link die whose kite unit combines for a group: that of the tree's outbound port, at the root that of its first child (R314). -/
def Core.kiteDie (c : Core) (p : Plan) (g : Nat) : Nat :=
  match c.kiteTree p g with
  | (some u, _) => (portPlace u).1
  | (none, k :: _) => (portPlace k).1
  | (none, []) => 0

/-- Link die `l` changed. -/
def Core.modLd (l : Nat) (f : LinkDie → LinkDie) (c : Core) : Core := c.modFab (fun q => { q with lds := modAt q.lds l f })

/-- Link die `l`. -/
def Core.ld (c : Core) (l : Nat) : LinkDie := c.fab.lds.getD l {}

/-! ### Operands and frames -/

/-- What has become of a step's attempts (10 R364). -/
def Job.tryOf (j : Job) (s : StepNo) : StepTry := (j.tries.find? (fun t => t.step == s)).getD { step := s }

/-- EPOCH of a step and attempt (R315). -/
def epochOf (s : StepNo) (attempt : Nat) : BitVec 8 := BitVec.ofNat 8 (s.toNat % 64 * 4 + attempt % 4)

/-- The lanes of a 64-byte operand (R313). -/
def lanes (width : BitVec 2) (bs : List Byte) : List Nat := (chunks (2 ^ width.toNat) (padTo 64 bs)).map natLE

/-- Whether Table 09-5 lists an OP that combines lanes. -/
def kiteCombines (op : Nat) : Bool := inRange op 1 7

/-- One lane combined (Table 09-5); no operation runs with another OP (R9). -/
def laneOp (op : BitVec 4) (w a b : Nat) : Nat :=
  match op.toNat with
  | 1 => (a + b) % 2 ^ w
  | 2 => max a b
  | 3 => if signed w a < signed w b then b else a
  | 4 => min a b
  | 5 => if signed w a < signed w b then a else b
  | 6 => a &&& b
  | 7 => a ||| b
  | _ => a

/-- Two operands combined lane by lane (R313). -/
def kiteCombine (op : BitVec 4) (width : BitVec 2) (a b : List Byte) : List Byte :=
  let k := 2 ^ width.toNat
  (List.zipWith (laneOp op (8 * k)) (lanes width a) (lanes width b)).flatMap (bytesLE k)

/-- A KITE frame (R315). -/
def kiteFrame (t : TenantId) (o : KiteOp) (down : Bool) (payload : List Byte) : Frame :=
  { vc := 0, typ := 0xA, dst := 0, src := 0, tenant := t, xid := BitVec.ofNat 9 o.group.toNat, pmask := o.epoch,
    chunk := BitVec.ofNat 21 (place (boolNat down) 20 1 + place o.op.toNat 16 4 + place o.width.toNat 14 2 + o.seq.toNat),
    payload := padTo 64 payload }

/-- The operation under way with a plan, group and SEQ. -/
def Core.kiteOp? (c : Core) (plan : Nat) (g : BitVec 8) (seq : BitVec 14) (ep : BitVec 8) : Option KiteOp :=
  c.fab.kite.find? (fun o => o.plan == plan && o.group == g && o.seq == seq && o.epoch == ep)

/-- An operation put in place of what stood under its plan, group and SEQ. -/
def Core.putKite (o : KiteOp) (c : Core) : Core :=
  c.modFab (fun q => { q with kite := q.kite.filter (fun k => !(k.plan == o.plan && k.group == o.group && k.seq == o.seq && k.epoch == o.epoch)) ++ [o] })

/-- A KITE frame sent on a port toward the neighbour there. -/
def Core.sendKite (port : Nat) (t : TenantId) (o : KiteOp) (down : Bool) (payload : List Byte) (c : Core) : Core :=
  c.sendOn port { kiteFrame t o down payload with dst := (c.port port).peerId, job := (c.job? o.plan).map (fun j => (o.plan, j.step)) }

/-- The result of an operation here: it goes down to every child and waits for its submitter (R314). -/
def Core.kiteResult (p : Plan) (o : KiteOp) (res : List Byte) (c : Core) : Core :=
  let (_, kids) := c.kiteTree p o.group.toNat
  kids.foldl (fun c k => c.sendKite k p.tenant o true res) (c.putKite { o with result := some res })

/-- An operation goes on when every child's frame and, on a member, its own operand have come: up the tree, or at the root down (R314). -/
def Core.kiteAdvance (p : Plan) (o : KiteOp) (c : Core) : Core :=
  let (up, kids) := c.kiteTree p o.group.toNat
  let need := kids ++ (if c.inGroup p o.group.toNat then [16] else [])
  if o.sentUp || o.result.isSome || !(need.all (fun k => (lookup? k o.got).isSome)) then c.putKite o
  else
    match o.got with
    | [] => c.putKite o
    | g :: gs =>
      let v := gs.foldl (fun a e => kiteCombine o.op o.width a e.2) (padTo 64 g.2)
      let o1 := { o with sentUp := true }
      match up with
      | some u => (c.putKite o1).sendKite u p.tenant o1 false v
      | none => c.kiteResult p o1 v

/-- The SEQ the next operation of a group takes on this module (R318). -/
def Core.kiteNext (c : Core) (plan g : Nat) : Nat := (lookup? (plan, g) c.fab.kiteSeq).getD 0

/-- SEQ of a group advanced by `n`. -/
def Core.kiteBump (plan g n : Nat) (c : Core) : Core :=
  c.modFab (fun q => { q with kiteSeq := insertKey (plan, g) ((lookup? (plan, g) q.kiteSeq).getD 0 + n) q.kiteSeq })

/-- SEQ of every group of a plan restarts at 0, and operations of an older EPOCH are dropped (R318, at each step and attempt). -/
def Core.kiteRestart (plan : Nat) (c : Core) : Core :=
  c.modFab (fun q => { q with kiteSeq := q.kiteSeq.filter (fun e => !(e.1.1 == plan)), kite := q.kite.filter (fun o => !(o.plan == plan)),
                              kiteQueue := q.kiteQueue.filter (fun o => !(o.plan == plan)) })

/-- KITE_RESULT of an operation recorded in the original run (10 R357). -/
def Core.recordedKite (c : Core) (j : Job) (g seq : Nat) : Option (List Byte) :=
  (c.stepRecs j).findSome? (fun r =>
    match r.body with
    | .kiteResult k s res => if k == g && s == seq then some res else none
    | _ => none)

/-- An operation of this module sent on its way: at most 64 of a group are in flight and a further one waits (R317); in a local replay nothing is sent
and the result comes from the hamper (R318). -/
def Core.kiteSubmit (o : KiteOp) (own : List Byte) (c : Core) : Core :=
  match c.plan? o.plan, c.job? o.plan with
  | some p, some j =>
    let o1 := { o with got := (16, padTo 64 own) :: o.got, at_ := c.clk.count }
    let flying := (c.fab.kite.filter (fun k => k.plan == o.plan && k.group == o.group && k.result.isNone && !k.error)).length
    if j.phase == .localReplay then
      match c.recordedKite j o.group.toNat o.seq.toNat with
      | some r => c.putKite { o1 with result := some r }
      | none => c.putKite o1
    else if 64 ≤ flying then c.modFab (fun q => { q with kiteQueue := q.kiteQueue ++ [o1] })
    else
      let (_, c1) := c.outbound o.plan 0xFF (1 + o.group.toNat) o.seq.toNat (padTo 64 own)
      c1.kiteAdvance p o1
  | _, _ => c

/-- Submissions that waited go on as operations of their group end (R317). -/
def Core.kiteDequeue (plan : Nat) (g : BitVec 8) (c : Core) : Core :=
  match c.fab.kiteQueue.find? (fun o => o.plan == plan && o.group == g), c.plan? plan with
  | some o, some p =>
    let c1 := c.modFab (fun q => { q with kiteQueue := q.kiteQueue.erase o })
    let (_, c2) := c1.outbound plan 0xFF (1 + g.toNat) o.seq.toNat ((o.got.head?.map Prod.snd).getD [])
    c2.kiteAdvance p o
  | _, _ => c

/-- Kite operations completed by a link die's unit counted (R337). -/
def Core.countOps (l n : Nat) (c : Core) : Core :=
  let q := c.ld l
  let full := satOvf q.ops n || q.ops.toNat + n == 2 ^ 48 - 1
  (c.modLd l (fun q => { q with ops := satAdd q.ops n, opsOvf := q.opsOvf || full })).counterEvent 3 (full && !q.opsOvf) 5 l 0x210

/-! ### Aborts (R330 to R334) -/

/-- The instance of a station's collective in its beat: those of its group it has ended (R330). -/
def Core.collInst (c : Core) (plan : Nat) (lsid : Lsid) (step : StepNo) (beat g : Nat) : Nat :=
  (c.fab.colls.filter (fun r => r.done && r.plan == plan && r.lsid == lsid && r.cid.step == step && r.cid.beat == beat && r.cid.group == g)).length

/-- The identity of the collective of a group that a station runs next or waits in (R330). -/
def Core.collCid (c : Core) (plan : Nat) (j : Job) (lsid : Lsid) (group : Nat) : Cid :=
  { step := j.step, beat := j.beat, group := group, inst := c.collInst plan lsid j.step j.beat group }

/-- An ABORT payload (R331). -/
def abortBytes (k : Cid) (cause module : Nat) : List Byte :=
  padTo 64 (bytesLE 5 k.step.toNat ++ bytesLE 2 k.beat ++ bytesLE 1 k.inst ++ bytesLE 1 cause ++ bytesLE 2 module)

/-- An ABORT flooded to every tree neighbour except one (R331). -/
def Core.floodAbort (p : Plan) (k : Cid) (payload : List Byte) (ep : BitVec 8) (but : Option Nat) (c : Core) : Core :=
  let (up, kids) := c.kiteTree p k.group
  let o : KiteOp := { plan := p.handle, group := BitVec.ofNat 8 k.group, seq := 0, epoch := ep, op := 8, width := 0 }
  ((match up with | some u => [u] | none => []) ++ kids).foldl (fun c n => if some n == but then c else c.sendKite n p.tenant o false payload) c

/-- What a member does on an ABORT it acts on (R332): the record, an unclean verdict, the group's pending operations in error, and the CID marked. -/
def Core.actAbort (p : Plan) (k : Cid) (cause : Nat) (c : Core) : Core :=
  match c.job? p.handle with
  | none => c
  | some j =>
    let l := c.kiteDie p k.group
    let det := bytesLE 5 k.step.toNat ++ bytesLE 2 k.beat ++ bytesLE 1 k.group ++ bytesLE 1 k.inst ++ bytesLE 1 cause
    let c1 := (c.logRec { jobRec j (modRec 0x603 7 2 (0x10 + l) 6 0) with detail := det }).modJob p.handle
      (fun j => j.modVerdict k.step (fun v => { v with cause := max v.cause causeFault }))
    let c2 := c1.modFab (fun q =>
      { q with aborted := q.aborted ++ [(p.handle, k)]
               colls := q.colls.map (fun r => if r.plan == p.handle && r.cid == k then { r with aborted := true } else r)
               opens := q.opens.filter (fun o => !(o.plan == some p.handle && decide (384 ≤ o.xid.toNat)))
               kite := q.kite.map (fun o => if o.plan == p.handle && o.group.toNat == k.group && o.result.isNone then { o with error := true } else o) })
    c2.modLd l (fun q => { q with lastCause := BitVec.ofNat 8 cause })

/-- A fault in a collective detected here: an ABORT is submitted, once per CID (R330, R331). -/
def Core.issueAbort (plan : Nat) (k : Cid) (cause : Nat) (c : Core) : Core :=
  match c.plan? plan, c.job? plan with
  | some p, some j =>
    if c.fab.aborted.contains (plan, k) then c
    else
      let l := c.kiteDie p k.group
      let c1 := c.modLd l (fun q => { q with issued := satInc q.issued })
      (c1.floodAbort p k (abortBytes k cause j.logicalModule) (epochOf j.step j.attempt) none).actAbort p k cause
  | _, _ => c

/-- The CID that an ABORT payload names (R331). -/
def abortCid (b : List Byte) (group : Nat) : Cid := { step := BitVec.ofNat 40 (fieldAt b 0 5), beat := fieldAt b 5 2, group := group, inst := fieldAt b 7 1 }

/-- An ABORT frame arrives (R331, R332, R334): one already acted on, or of a step that has sealed, is ignored and counted; one of an earlier attempt of the
step that runs is discarded for its EPOCH (R315; notes/assumptions/85). -/
def Core.takeAbort (p : Plan) (port : Nat) (f : Frame) (c : Core) : Core :=
  match c.job? p.handle with
  | none => c
  | some j =>
    let b := f.payload
    let k := abortCid b (field f.xid.toNat 0 8)
    let cause := fieldAt b 8 1
    let l := c.kiteDie p k.group
    let sealedStep := j.sealedValid && !(stepLater k.step j.lastSealed)
    if c.fab.aborted.contains (p.handle, k) || sealedStep then c.modLd l (fun q => { q with ignored := satInc q.ignored })
    else if k.step == j.step && f.pmask != epochOf j.step j.attempt then c.modLd (portPlace port).1 (fun q => { q with epochDrops := satInc q.epochDrops })
    else
      ((c.floodAbort p k b f.pmask (some port)).modLd l (fun q => { q with received := satInc q.received })).actAbort p k cause

/-- The collectives of a plan in progress here, of the groups selected, aborted with a cause (R330). -/
def Core.abortLive (plan : Nat) (sel : Nat → Bool) (cause : Nat) (c : Core) : Core :=
  (c.fab.colls.filter (fun r => r.plan == plan && sel r.cid.group && !r.done && !r.aborted)).foldl (fun c r => c.issueAbort plan r.cid cause) c

/-- Whether an operation is a snapshot or a lateness vote, whose failure touches no verdict (11 R384, 12 R427). -/
def KiteOp.sparesVerdict (o : KiteOp) : Bool := o.group == 0xFF && (o.seq == 0x3FFE || o.seq == 0x3FFD)

/-- A kite operation in error with a record (R318): the verdict becomes unclean and any collective of the group in progress is aborted. -/
def Core.kiteFail (p : Plan) (o : KiteOp) (code : Nat) (c : Core) : Core :=
  match c.job? p.handle with
  | none => c
  | some j =>
    let l := c.kiteDie p o.group.toNat
    let c1 := (c.logRec (jobRec j (modRec code 7 2 (0x10 + l) 0x0E 0))).modJob p.handle (if o.sparesVerdict then id else Job.unclean causeFault)
    let c2 := c1.putKite { o with error := true }
    if code = 0x601 then c2.abortLive p.handle (fun g => g == o.group.toNat) 7 else c2

/-- RESIDUE_MISMATCH (03 R75): a failed check; in a collective station it aborts the collective in progress there (R310). -/
def execResidueMismatch (plan : Nat) (lsid : Lsid) (rows : List Nat) (col mask : Nat) (fmt : BitVec 4) (tiles : List SmAddr) (cycle : Cycle)
    (s : State) : Host.Outcome State Fault Refusal :=
  runM (fun m =>
    let m1 := residueMismatch plan lsid rows col mask fmt tiles cycle m
    if lsScode lsid = 6 then m1.up (fun c =>
      match c.fab.colls.find? (fun r => r.plan == plan && r.lsid == lsid && !r.done) with
      | some r => c.issueAbort plan r.cid 4
      | none => c)
    else m1) s

/-! ### KITE frames -/

/-- The plan a KITE frame belongs to: the tenant's with that group and more than one module. -/
def Core.kitePlan (c : Core) (t : TenantId) (g : Nat) : Option Plan :=
  c.plans.find? (fun p => p.tenant == t && decide (1 < p.hdr.modCount) && (g == 0xFF || p.groups.any (fun e => e.index == g)))

/-- Whether an EPOCH is current for a job: that of its step and attempt, or the attempt a resume vote starts (R315, 10 R363). -/
def Job.epochOk (j : Job) (ep : BitVec 8) (seq : Nat) : Bool :=
  ep == epochOf j.step j.attempt || (seq == 0x3FFF && (match j.rollback with | some (_, l) => ep == epochOf (l + 1) ((j.tryOf (l + 1)).attempt + 1) | none => false))

/-- A KITE frame taken by the kite unit (R314, R315, R318). A module that holds no plan with the group knows no tree of it and
drops the frame (notes/assumptions/38), and one of a reserved OP is not acted on (00 R9). -/
def takeKite (port : Nat) (f : Frame) (c : Core) : Core :=
  let g := field f.xid.toNat 0 8
  match c.kitePlan f.tenant g with
  | none => c
  | some p =>
    match c.job? p.handle with
    | none => c
    | some j =>
      let ch := f.chunk.toNat
      let op := field ch 16 4
      if op = 8 then c.takeAbort p port f
      else
        let seq := field ch 0 14
        if !(kiteCombines op) then c
        else if !(j.epochOk f.pmask seq) then c.modLd (portPlace port).1 (fun q => { q with epochDrops := satInc q.epochDrops })
        else
          let o := (c.kiteOp? p.handle (BitVec.ofNat 8 g) (BitVec.ofNat 14 seq) f.pmask).getD
            { plan := p.handle, group := BitVec.ofNat 8 g, seq := BitVec.ofNat 14 seq, epoch := f.pmask,
              op := BitVec.ofNat 4 op, width := BitVec.ofNat 2 (field ch 14 2) }
          if o.op.toNat != op || o.width.toNat != field ch 14 2 then c.kiteFail p o 0x601
          else if bitOf ch 20 then c.kiteResult p o f.payload
          else c.kiteAdvance p { o with got := insertKey port f.payload o.got }

/-- KITE (R314): a frame on a port. -/
def execKite (port : Nat) (f : Frame) (s : State) : Host.Outcome State Fault Refusal :=
  runM (Mach.arrive port { f with typ := 0xA, dst := BitVec.ofNat 14 s.core.fab.cfg.own } (fun f m => m.up (takeKite port f))) s

/-- KITE_ABORT_RECEIVED (R332): an ABORT frame on a port. -/
def execKiteAbortReceived (port : Nat) (f : Frame) (s : State) : Host.Outcome State Fault Refusal :=
  runM (Mach.arrive port { f with typ := 0xA, dst := BitVec.ofNat 14 s.core.fab.cfg.own } (fun f m =>
    match m.core.kitePlan f.tenant (field f.xid.toNat 0 8) with
    | some p => m.up (Core.takeAbort p port f)
    | none => m)) s

/-- A waited-on partner is silent for ABORT_WAIT (R330): the collective that the station is in, or waits to run, is aborted. -/
def partnerSilent (plan : Nat) (lsid : Lsid) (group : Nat) (c : Core) : Core :=
  match c.job? plan with
  | none => c
  | some j => c.issueAbort plan (c.collCid plan j lsid group) 5

/-- PARTNER_SILENT (R330). -/
def execPartnerSilent (plan : Nat) (lsid : Lsid) (group : Nat) (s : State) : Host.Outcome State Fault Refusal :=
  runC (fun _ _ c => partnerSilent plan lsid group c) s

/-! ### Mailboxes and results -/

/-- STATUS of a kite mailbox (Table 09-7). -/
def statusBytes (err : Bool) (seq : Nat) : List Byte := bytesLE 8 (place 1 63 1 + place (boolNat err) 62 1 + seq)

/-- A control core's kite request taken by the link die (R319, R354): it waits, with GO still 1, while the group is 0xFF and the step's mirror vote has not
been submitted. OP 8 has no result and floods the group (Table 09-5); a request of a reserved OP is not acted on (00 R9): it ends in error and takes no SEQ
(notes/assumptions/84). -/
def takeMail (plan part core index : Nat) (addr : SmAddr) (m : Mach) : Mach :=
  match m.core.job? plan with
  | none => m
  | some j =>
    let bytes := m.sm part addr.toNat 2
    let ctrl := fieldAt bytes 64 8
    let g := field ctrl 48 8
    let seq := m.core.kiteNext plan g
    let others := fun (q : CorePart) => q.mail.filter (fun b => !(b.core == core && b.index == index))
    let op := field ctrl 44 4
    if op != 8 && !(kiteCombines op) then
      m.putSm part ((addr.toNat + 1) % 2 ^ 23) (bytesLE 8 (ctrl % 2 ^ 63) ++ statusBytes true 0 ++ (bytes.drop 80).take 48) false
    else if g = 0xFF && j.step != j.firstStep && !(j.votes.contains (1, j.step - 1)) && !(j.mirrored && j.lastSealed == j.step - 1) then
      m.up (fun c => c.modCores part (fun q => { q with mail := others q ++ [{ core := core, index := index, plan := plan, addr := addr, go := true }] }))
    else
      let o : KiteOp :=
        { plan := plan, group := BitVec.ofNat 8 g, seq := BitVec.ofNat 14 seq, epoch := epochOf j.step j.attempt,
          op := BitVec.ofNat 4 op, width := BitVec.ofNat 2 (field ctrl 42 2), submitter := 3, mail := (part, core, index) }
      let m1 := m.putSm part ((addr.toNat + 1) % 2 ^ 23) (bytesLE 8 (ctrl % 2 ^ 63) ++ (bytes.drop 72).take 56) false
      if op = 8 then m1.up (fun c => (c.modCores part (fun q => { q with mail := others q })).issueAbort plan (abortCid bytes g) (fieldAt bytes 8 1))
      else m1.up (fun c => ((c.kiteBump plan g 1).modCores part (fun q =>
        { q with mail := others q ++ [{ core := core, index := index, plan := plan, addr := addr, go := false }] })).kiteSubmit o (bytes.take 64))

/-- A control core writes CTRL of a kite mailbox (R319): discarded with DESCRIPTOR_OVERRUN, which counts (04 R124), while GO is 1. -/
def mailSubmit (plan part core index : Nat) (addr : SmAddr) (ctrl : BitVec 64) (m : Mach) : Mach :=
  if !(m.core.coresRun plan part) || index ≥ 8 then m
  else
    let busy := (m.core.part part).cores.mail.any (fun b => b.core == core && b.index == index && b.go)
    if busy then
      m.up (fun c => ((c.logRec { coreRec c plan 0x304 3 1 part core with oper := BitVec.ofNat 16 index }).modStreams part (StreamPart.countLate 0x304)).modJob plan
        (Job.noteOrigin 3 0x304))
    else
      let u := m.sm part ((addr.toNat + 1) % 2 ^ 23) 1
      let m1 := m.putSm part ((addr.toNat + 1) % 2 ^ 23) (bytesLE 8 ctrl.toNat ++ u.drop 8) false
      if ctrl.getLsbD 63 then takeMail plan part core index addr m1 else m1

/-- KITE_MAILBOX_SUBMIT (R319): the core, the mailbox, its first unit in station memory, and the value of CTRL. -/
def execKiteMailboxSubmit (plan part core index : Nat) (addr : SmAddr) (ctrl : BitVec 64) (s : State) : Host.Outcome State Fault Refusal :=
  runM (mailSubmit plan part core index addr ctrl) s

/-- Requests for group 0xFF that waited for the mirror vote go on in mailbox order (R354). -/
def releaseMail (plan : Nat) (m : Mach) : Mach :=
  (List.range 8).foldl (fun m p =>
    ((m.core.part p).cores.mail.filter (fun b => b.plan == plan && b.go)).foldl (fun m b => takeMail plan p b.core b.index b.addr m) m) m

/-- An operation ends on this module (R314, R319): its result, if it has one, is recorded, counted and written with STATUS into the mailbox that asked. -/
def finishKite (p : Plan) (o : KiteOp) (m : Mach) : Mach :=
  let l := m.core.kiteDie p o.group.toNat
  let m1 := match o.result, m.core.job? o.plan with
    | some r, some j =>
      if o.error || j.phase == JobPhase.localReplay then m
      else m.up (fun c => (c.addRec j 0xFF (.kiteResult o.group.toNat o.seq.toNat r)).countOps l 1)
    | _, _ => m
  let m2 := m1.up (fun c => (c.modFab (fun q => { q with kite := q.kite.erase o })).kiteDequeue o.plan o.group)
  if o.submitter = 3 then
    let (part, core, index) := o.mail
    match (m2.core.part part).cores.mail.find? (fun b => b.core == core && b.index == index) with
    | none => m2
    | some b =>
      let old := m2.sm part b.addr.toNat 2
      let data := match o.result with | some r => if o.error then old.take 64 else r | none => old.take 64
      let u1 := (old.drop 64).take 8 ++ statusBytes o.error o.seq.toNat ++ List.replicate 48 0
      (m2.putSm part b.addr.toNat (padTo 64 data ++ u1) false).up (fun c => c.modCores part (fun q =>
        { q with mail := q.mail.filter (fun b => !(b.core == core && b.index == index)) }))
  else m2

/-- The operation named by a completion, with the result it has or the one given (a result that reached this module outside its frames). -/
def Core.kiteDone (c : Core) (plan : Nat) (g : BitVec 8) (seq : BitVec 14) (res : List Byte) : Option KiteOp :=
  (c.fab.kite.find? (fun o => o.plan == plan && o.group == g && o.seq == seq)).map (fun o =>
    if o.error || o.result.isSome then o else { o with result := some (padTo 64 res) })

/-- KITE_TIMEOUT (R318): an operation incomplete 10 ms after its submission here ends with an error. -/
def execKiteTimeout (plan : Nat) (g : BitVec 8) (seq : BitVec 14) (s : State) : Host.Outcome State Fault Refusal :=
  runM (fun m =>
    match m.core.plan? plan, m.core.fab.kite.find? (fun o => o.plan == plan && o.group == g && o.seq == seq && o.result.isNone) with
    | some p, some o =>
      let o1 := { o with error := true }
      let m1 := m.up (Core.kiteFail p o 0x602)
      if o.submitter = 3 then finishKite p o1 m1 else m1
    | _, _ => m) s

end Sys2Proof.Machine
end

