-- ==== Sys2Proof/Machine/Remote.lean ====
section
/-!
DEFINITION. Remote operations as they arrive (08_celoth_fabric.md R276 to R283): the tests of Table 08-13, open transfers and their data, single
reads and writes of control cores, and rejections.
-/

namespace Sys2Proof.Machine

/-! ### Who a remote request belongs to -/

/-- The slice a request runs under (R276): the tenant holds it with this CKEY, and a partition lease. -/
def Core.keySlice (c : Core) (t : TenantId) (ckey : Nat) : Option Slice :=
  if c.leases.parts.any (fun e => e.2.1 == t) then c.fab.slices.find? (fun s => s.tenant == t && s.ckey.toNat == ckey) else none

/-- The admitted plan that a request under a slice addresses: of the plans on that slice (R287) the one whose buffer map holds the `n` units at the address,
else the first of them (notes/assumptions/114). -/
def Core.slicePlan (c : Core) (s : Slice) (addr n : Nat) : Option Plan :=
  let ps := c.plans.filter (fun p => (c.sliceFor p).any (fun x => x.id == s.id))
  match ps.find? (fun p => p.granted (gaRange addr n)) with
  | some p => some p
  | none => ps.head?

/-- The context in which data arrive for a job from outside its stations. -/
def Core.farCtx (c : Core) (h part : Nat) : Option Ctx :=
  match c.plan? h, c.job? h with
  | some p, some j => some { job := j, plan := p, lsid := 0, die := part, inst := 0, part := part, opc := 0, issue := j.sched }
  | _, _ => none

/-- The memory errors that an access of a tenant from outside the stations finds (07 R226, R227): recorded with the access kind `kind` (1 read, 2
write), and, for a job, entered into its verdict. -/
def Mach.meetFor (t : TenantId) (h : Option Nat) (kind : Nat) (found : List MemErr) (m : Mach) : Mach :=
  found.foldl (fun m e =>
    let k := e.key * 64
    let (die, blk, inst) := m.core.memUnit k
    let job := h.bind m.core.job?
    let lp := match h.bind m.core.plan? with | some p => p.lpOf | none => fun (q : Nat) => some q
    let mid := match job with | some j => j.logicalModule | none => 0
    let addr : Nat ⊕ Nat := match m.core.tenantAddr t lp mid k with | some a => .inl a | none => .inr (m.core.physAddr k)
    let mk := fun (code cls sev : Nat) =>
      let r : Rec := { modRec code cls sev die blk inst with oper := BitVec.ofNat 16 kind, detail := memDetail addr 0 0, tenant := some t }
      match job with | some j => jobRec j r | none => r
    if e.unc then
      let m1 := m.uncorrectable e (mk 0x402 7 2)
      m1.up (fun c =>
        let c1 := match h with
          | some g => c.modJob g (fun j => (j.noteOrigin 7 0x402).unclean causeFault)
          | none => c
        if c1.ident.dedicated.isSome && h.isSome then { c1 with health := { c1.health with warmAtEdge := true } } else c1)
    else m.up (Core.corrected e (mk 0x401 1 0))) m

/-! ### Tests and rejections -/

/-- A REJECT frame (R279). -/
def Core.reject (f : Frame) (reason addr : Nat) (c : Core) : Core :=
  c.sendFrame { vc := f.vc, typ := 0xC, dst := f.src, src := 0, tenant := f.tenant, xid := f.xid,
                payload := padTo 32 (bytesLE 1 reason ++ bytesLE 2 f.xid.toNat ++ List.replicate 5 0 ++ bytesLE 8 addr) }

/-- A REJECT with the REMOTE_REJECT record of the module that turned the request down (R279, notes/assumptions/44). -/
def Core.refuseFar (f : Frame) (reason addr : Nat) (c : Core) : Core :=
  (c.logRec { modRec 0x307 3 2 0x10 0x0C 0 with
    oper := 4, tenant := some f.tenant, detail := bytesLE 1 reason ++ bytesLE 2 f.xid.toNat ++ List.replicate 5 0 ++ bytesLE 8 addr }).reject f reason addr

/-- A token for a channel of a die from outside: a full channel holds the job as a station's post does (04 R111). -/
def Core.farToken (h part ch : Nat) (t : Token) (c : Core) : Core :=
  let (ok, c1) := c.pushToken part ch t
  if ok then c1
  else
    let c2 := match c1.job? h with
      | some j => c1.logRec (jobRec j (modRec 0x203 6 0 part 0x16 ch))
      | none => c1
    (c2.modStreams part (StreamPart.countLate 0x203)).modJob h (fun j =>
      { j with posts := j.posts ++ [{ lsid := 0, part := part, chan := ch, token := t }],
               holds := j.holds ++ [{ lsid := 0, cause := .chanFull, instr := none }] })

/-- The poisoned token of a rejected RPOST transfer (Table 08-13). -/
def Mach.rangeToken (h part ch a n : Nat) (m : Mach) : Mach :=
  match m.core.farCtx h part with
  | none => m
  | some x =>
    let w := m.core.fresh
    { m with core := w.2.farToken h part ch (x.token w.1 a n true) }

/-- The token of a transfer as it is posted: its BEAT is that in which it is posted (04 R110). -/
def OpenXfer.posted (o : OpenXfer) (h : Nat) (poison : Bool) (c : Core) : Token :=
  let t := tokenOf o.token.toNat
  { t with poison := t.poison || poison, beat := match c.job? h with | some j => BitVec.ofNat 16 j.beat | none => t.beat }

/-- The poisoned token of a READ whose data cannot be taken (Table 08-13). -/
def Mach.poisonToken (h : Nat) (o : OpenXfer) (m : Mach) : Mach :=
  m.up (fun c => c.farToken h o.part o.ch.toNat (o.posted h true c))

/-- Whether a remote write to units of a space is allowed for a plan's job (10 R342). -/
def Core.writable (c : Core) (h : Nat) (space lp u n : Nat) : Bool :=
  match c.job? h with
  | some j => !(j.inCur (space, lp, u, n)) && !(j.writeHold && j.inNext (space, lp, u, n))
  | none => true

/-- Whether every Commons granule of a remote transfer is named by an admitted plan: one that none names takes no station traffic (07 R212). -/
def Core.granulesNamed (c : Core) (pm : Nat → Option Nat) (addr units : Nat) : Bool :=
  gaSpace addr != 1 ||
  (List.range units).all (fun i =>
    let off := gaOff addr + 64 * i
    match pm (field off 30 3) with
    | some p => (lookup? (p, field off 24 6) c.leases.modes).isSome
    | none => false)

/-- The tests of Table 08-13 on a request: the plan it addresses and the keys of its units, or the reason it is rejected with. A transfer to a granule without a
mode is out of range (07 R205, R212; notes/assumptions/44). -/
def Core.remoteTest (c : Core) (f : Frame) (ckey addr units : Nat) (write : Bool) : Except Nat (Plan × List Nat) :=
  match c.keySlice f.tenant ckey with
  | none => .error 1
  | some s =>
    if gaSpace addr = 3 then .error 2
    else
      match c.slicePlan s addr units with
      | none => .error 3
      | some p =>
        let (lp, u) := splitOff (gaSpace addr) (gaOff addr)
        match c.resolveUnits f.tenant p.pm (gaSpace addr) (gaOff addr / 64 * 64) units with
        | none => .error 3
        | some ks =>
          if (write && !(c.writable p.handle (gaSpace addr) lp u units)) || (f.typ == 2 && !(c.granulesNamed p.pm addr units)) then .error 3 else .ok (p, ks)

/-! ### XOPEN and XDATA -/

/-- A transfer closes (R277, 10 R344): its INBOUND record, residency of station memory, poison in guarded ranges, and the RPOST token. -/
def Mach.closeXfer (h : Nat) (o : OpenXfer) (addr : Nat) (m : Mach) : Mach :=
  match m.core.farCtx h o.part with
  | none => m
  | some x =>
    let bytes := o.data
    let m1 := m.up (fun c =>
      (c.addRec x.job (splitOff (gaSpace addr) (gaOff addr)).1
        (.inbound o.src.toNat o.xid.toNat o.keys bytes o.bad o.rpost o.part o.ch.toNat o.token)).modJob h (Job.markKeys c o.keys))
    let (space, lp, u, n) := gaRange addr o.keys.length
    let m2 := if o.keys.any (fun k => poisonedWrite (m1.unit k) (m1.bad k)) then x.guard space lp u n true m1 else m1
    if o.rpost then m2.up (fun c => c.farToken h o.part o.ch.toNat (o.posted h (o.bad.any id) c)) else m2

/-- The 64 bits of the token a transfer posts when it closes. -/
def Mach.openToken (h part addr n : Nat) (m : Mach) : BitVec 64 × Mach :=
  match m.core.farCtx h part with
  | none => (0, m)
  | some x =>
    let w := m.core.fresh
    let (space, _, u, _) := gaRange addr n
    (BitVec.ofNat 64 (tokenBits (x.token w.1 u (if space = 2 then n else 0) false)), { m with core := w.2 })

/-- An XOPEN taken (R277, R279). -/
def takeXopen (found : List MemErr) (f : Frame) (m : Mach) : Mach :=
  let b := padTo 32 f.payload
  let addr := fieldAt b 0 8
  let n := fieldAt b 16 3
  let flags := fieldAt b 19 1
  let ch := fieldAt b 20 2 % 4096
  match m.core.remoteTest f (fieldAt b 24 4) addr n (!(bitOf flags 0)) with
  | .error r =>
    let m1 :=
      if r = 3 && bitOf flags 2 then
        match m.core.keySlice f.tenant (fieldAt b 24 4) with
        | some s =>
          match m.core.slicePlan s addr n with
          | some p =>
            let (space, lp, u, _) := gaRange addr n
            match p.pm lp with
            | some part => if bitOf flags 0 then m else m.rangeToken p.handle part ch u (if space = 2 then n else 0)
            | none => m
          | none => m
        | none => m
      else m
    m1.up (Core.refuseFar f r addr)
  | .ok (p, keys) =>
    let h := p.handle
    let part := (p.pm (splitOff (gaSpace addr) (gaOff addr)).1).getD 0
    if bitOf flags 0 then
      let m1 := m.meetFor f.tenant (some h) 1 found
      let bits := keys.map (fun k => (m1.unit k, m1.bad k))
      let base : Frame :=
        { f with vc := p.vc, typ := 3, dst := f.src, rclass := 0, hops := 0, uns := true, job := (m1.core.job? h).map (fun j => (h, j.step)) }
      m1.up (Core.sendFrames (xdataFrames base bits))
    else
      let (tok, m1) := m.openToken h part addr n
      let o : OpenXfer := { src := f.src, xid := f.xid, tenant := f.tenant, keys := keys, rpost := bitOf flags 2, ch := BitVec.ofNat 12 ch,
                            part := part, token := tok, plan := none, owner := some h, uns := f.uns }
      if bitOf flags 1 then
        let z : OpenXfer := { o with got := keys.length, data := List.replicate (64 * keys.length) 0, bad := keys.map (fun _ => false) }
        (keys.foldl (fun m k => m.putUnit k [] false) m1).closeXfer h z addr
      else m1.up (fun c => c.modFab (fun q =>
        { q with opens := q.opens.filter (fun e => !(e.src == f.src && e.xid == f.xid)) ++ [o] }))

/-- XOPEN (R279): a frame on a port, with the memory errors that a READ's accesses find. -/
def execXopen (port : Nat) (f : Frame) (found : List MemErr) (s : State) : Host.Outcome State Fault Refusal :=
  runM (Mach.arrive port { f with typ := 2 } (takeXopen found)) s

/-- The tenant address of a key, for the place a transfer writes. -/
def Core.placeOf (c : Core) (t : TenantId) (p : Plan) (k : Nat) : Nat :=
  match c.tenantAddr t p.lpOf 0 k with | some a => a | none => 0

/-- An XDATA chunk taken (R277): each unit is written with its poison bit, and the transfer closes when all have come. Data of no open transfer are
discarded; those of a READ whose destination the tenant no longer reaches are rejected with a poisoned token (Table 08-13). -/
def takeXdata (f : Frame) (m : Mach) : Mach :=
  match m.core.fab.opens.find? (fun o => o.src == f.src && o.xid == f.xid && o.tenant == f.tenant) with
  | none => m
  | some o =>
    match (match o.plan with | some h => some h | none => o.owner).bind m.core.plan? with
    | none => m
    | some p =>
      let rest := fun (c : Core) => c.modFab (fun q => { q with opens := q.opens.filter (fun e => !(e.src == o.src && e.xid == o.xid)) })
      let here := fun (k : Nat) => (m.core.tenantAddr o.tenant p.lpOf 0 k).isSome
      if o.plan.isSome && (o.keys.isEmpty || !(o.keys.all here)) then
        let m1 := m.up (fun c => (rest c).refuseFar f 3 o.raddr.toNat)
        if o.rpost then m1.poisonToken p.handle o else m1
      else
        let us := chunks 64 f.payload
        let ks := (o.keys.drop (8 * f.chunk.toNat)).take us.length
        let bad := tabulate us.length (fun i => f.pmask.getLsbD i)
        let m1 := m.putMarked ks (padTo (64 * ks.length) f.payload) bad
        let o1 := { o with got := o.got + ks.length, data := o.data ++ f.payload, bad := o.bad ++ bad, uns := o.uns || f.uns }
        if o1.keys.length ≤ o1.got then (m1.up rest).closeXfer p.handle o1 (m.core.placeOf o.tenant p (o.keys.headD 0))
        else m1.up (fun c => c.modFab (fun q =>
          { q with opens := q.opens.map (fun e => if e.src == o.src && e.xid == o.xid then o1 else e) }))

/-- XDATA (R277): a frame on a port. -/
def execXdata (port : Nat) (f : Frame) (s : State) : Host.Outcome State Fault Refusal := runM (Mach.arrive port { f with typ := 3 } takeXdata) s

/-! ### Single reads and writes of control cores (R281) -/

/-- A remote read: address in payload bytes 0 to 7, key in 8 to 11 (notes/assumptions/44). What a job holds belongs to a step that has not sealed, so its unit
travels with UNS set (R283). -/
def takeRdReq (found : List MemErr) (f : Frame) (m : Mach) : Mach :=
  let b := padTo 32 f.payload
  let addr := fieldAt b 0 8
  match m.core.remoteTest f (fieldAt b 8 4) addr 1 false with
  | .error r => m.up (Core.refuseFar f r addr)
  | .ok (p, keys) =>
    let m1 := m.meetFor f.tenant (some p.handle) 1 found
    let k := keys.headD 0
    m1.up (Core.sendFrame { f with vc := 6, typ := 5, dst := f.src, rclass := 0, hops := 0, payload := m1.unit k, pmask := BitVec.ofNat 8 (boolNat (m1.bad k)),
                                   uns := (m1.core.job? p.handle).isSome })

/-- RD_REQ (R281). -/
def execRdReq (port : Nat) (f : Frame) (found : List MemErr) (s : State) : Host.Outcome State Fault Refusal :=
  runM (Mach.arrive port { f with typ := 4 } (takeRdReq found)) s

/-- Bytes of a masked write put into a unit: a whole unit is written clean, a part by read-modify-write (07 R229). -/
def Mach.putMasked (k mask : Nat) (data : List Byte) (m : Mach) : Mach :=
  if mask = 2 ^ 64 - 1 then m.putUnit k data false
  else
    let old := m.unit k
    m.patch k (tabulate 64 (fun i => if bitOf mask i then data.getD i 0 else old.getD i 0))

/-- A remote masked write: its mask in payload bytes 16 to 23, its data from byte 32 (Table 08-5, notes/assumptions/44). -/
def takeWrReq (f : Frame) (m : Mach) : Mach :=
  let b := padTo 96 f.payload
  let addr := fieldAt b 0 8
  match m.core.remoteTest f (fieldAt b 8 4) addr 1 true with
  | .error r => m.up (Core.refuseFar f r addr)
  | .ok (_, keys) =>
    (m.putMasked (keys.headD 0) (fieldAt b 16 8) (b.drop 32)).up
      (Core.sendFrame { f with vc := 6, typ := 7, dst := f.src, rclass := 0, hops := 0, payload := [], pmask := 0, uns := false })

/-- WR_REQ (R281). -/
def execWrReq (port : Nat) (f : Frame) (s : State) : Host.Outcome State Fault Refusal := runM (Mach.arrive port { f with typ := 6 } takeWrReq) s

/-- The remote operation an answer belongs to. -/
def Core.remoteOp (c : Core) (f : Frame) (write : Bool) : Option RemoteOp :=
  c.fab.remote.find? (fun o => o.dst == f.src && o.xid == f.xid && o.write == write && o.tenant == f.tenant)

/-- A remote read's unit reaches its control core: a poisoned unit is a precise data abort (07 R228). -/
def takeRdRsp (f : Frame) (c : Core) : Core :=
  match c.remoteOp f false with
  | none => c
  | some o =>
    let c1 := c.modFab (fun q => { q with remote := q.remote.erase o })
    if f.pmask.getLsbD 0 then c1.emit (.dataAbort o.part o.core) else c1.emit (.data (padTo 64 f.payload))

/-- RD_RSP (R281). -/
def execRdRsp (port : Nat) (f : Frame) (s : State) : Host.Outcome State Fault Refusal :=
  runM (Mach.arrive port { f with typ := 5 } (fun f m => m.up (takeRdRsp f))) s

/-- WR_ACK (R281): the control core's write is complete. -/
def execWrAck (port : Nat) (f : Frame) (s : State) : Host.Outcome State Fault Refusal :=
  runM (Mach.arrive port { f with typ := 7 } (fun f m => m.up (fun c =>
    match c.remoteOp f true with
    | some o => c.modFab (fun q => { q with remote := q.remote.erase o })
    | none => c))) s

/-- A REJECT reaches the source (R279): the tenant's record; a control core's operation ends in a data abort, a READ closes, with a poisoned token after RANGE, and a rejected request of a
collective aborts it (09 Table 09-10). -/
def takeReject (f : Frame) (c : Core) : Core :=
  let b := padTo 32 f.payload
  let r : Rec := { modRec 0x307 3 2 0x10 0x0C 0 with oper := 4, tenant := some f.tenant, detail := slice b 0 16 }
  let jobs := (c.jobs.filter (fun j => j.tenant == f.tenant && c.multiModule j)).map (fun j => j.plan)
  let c1 := jobs.foldl (fun c h => c.modJob h (Job.noteOrigin 3 0x307)) (c.logRec r)
  let mine := fun (o : OpenXfer) => o.plan.isSome && o.src == f.src && o.xid == f.xid
  let c2 := (c1.fab.opens.filter (fun o => mine o && o.rpost && fieldAt b 0 1 == 3)).foldl (fun c o =>
      c.farToken (o.plan.getD 0) o.part o.ch.toNat (o.posted (o.plan.getD 0) true c))
    (c1.modFab (fun q => { q with opens := q.opens.filter (fun o => !(mine o)) }))
  let ops := c2.fab.remote.filter (fun o => o.dst == f.src && o.xid == f.xid && o.tenant == f.tenant && f.vc == 6)
  let c3 := ops.foldl (fun c o => (c.modFab (fun q => { q with remote := q.remote.erase o })).emit (.dataAbort o.part o.core)) c2
  if 384 ≤ f.xid.toNat && f.vc == 5 then
    (c3.fab.colls.filter (fun r => jobs.contains r.plan && r.xid == f.xid && !r.done && !r.aborted)).foldl (fun c r => c.issueAbort r.plan r.cid 3) c3
  else c3

/-- REJECT (R279): a frame on a port. -/
def execReject (port : Nat) (f : Frame) (s : State) : Host.Outcome State Fault Refusal :=
  runM (Mach.arrive port { f with typ := 0xC } (fun f m => m.up (takeReject f))) s

end Sys2Proof.Machine
end

