-- ==== Sys2Proof/Machine/Seal.lean ====
section
/-!
DEFINITION. The seal of a step (10_seal_replay_tether.md): seal maps, the starts of steps and beats, verdicts and votes, rollback and resume, the tether
mirror, and local replay.
-/

namespace Sys2Proof.Machine

/-! ### Seal maps (R340, R341) -/

/-- The keys at which the extents behind a range of a tenant's view begin. -/
def Core.extKeys (c : Core) (p : Plan) (off extents : Nat) : List (Option Nat) :=
  tabulate extents (fun i => (p.phys (field off 36 3)).bind (fun st => c.hbmView p.tenant st (field off 0 36 + i * 2 ^ 26)))

/-- The translation table's key of extent `i` of a range. -/
def viewKey (p : Plan) (off i : Nat) : Option (TenantId × Nat × Nat) :=
  (p.phys (field off 36 3)).map (fun st => (p.tenant, st, field off 0 36 / 2 ^ 26 + i))

/-- The physical extents behind two view entries exchanged. -/
def swapView (a b : TenantId × Nat × Nat) (l : List ((TenantId × Nat × Nat) × Nat)) : List ((TenantId × Nat × Nat) × Nat) :=
  match lookup? a l, lookup? b l with
  | some x, some y => insertKey a y (insertKey b x l)
  | _, _ => l

/-- The extents behind the CUR and NEXT ranges of every entry exchanged (R341). -/
def Core.exchange (p : Plan) (es : List SealEnt) (c : Core) : Core :=
  let hbm := es.foldl (fun l e =>
    (List.range e.extents).foldl (fun l i =>
      match viewKey p e.curOff.toNat i, viewKey p e.nextOff.toNat i with
      | some a, some b => swapView a b l
      | _, _ => l) l) c.leases.hbm
  { c with leases := { c.leases with hbm := hbm } }

/-! ### Attempts (R364) -/

/-- A step's attempts put in place; the last eight steps are kept. -/
def Job.putTry (t : StepTry) (j : Job) : Job := { j with tries := (t :: j.tries.filter (fun u => !(u.step == t.step))).take 8 }

/-! ### Hamper payloads -/

/-- The payload of a record of a few fields (Table 10-2). -/
def HBody.payload : HBody → List Byte
  | .stepOpen key lc dg a => bytesLE 8 key.toNat ++ bytesLE 8 lc.toNat ++ bytesLE 8 dg.toNat ++ bytesLE 1 a
  | .beatStart n => bytesLE 8 n.toNat
  | .extInput _ bs _ => bs
  | .inbound _ _ _ bs _ _ _ _ _ => bs
  | .kiteResult g s r => bytesLE 2 g ++ bytesLE 2 s ++ r
  | .descriptor _ _ _ v => bytesLE 32 v.toNat
  | .tokenPost _ _ t => bytesLE 8 t.toNat
  | .store _ bs => bs
  | .outbound k i crc => bytesLE 2 k ++ bytesLE 2 i ++ bytesLE 4 crc.toNat
  | .anchor _ _ ms => ms.flatMap (fun e => bytesLE 4 e.1 ++ bytesLE 1 e.2)
  | .verdict c => bytesLE 1 c

/-- TYPE of a record (Table 10-2). -/
def HBody.code : HBody → Nat
  | .stepOpen .. => 1
  | .beatStart _ => 2
  | .extInput .. => 3
  | .inbound .. => 4
  | .kiteResult .. => 5
  | .descriptor .. => 6
  | .tokenPost .. => 6
  | .store .. => 6
  | .outbound .. => 7
  | .anchor .. => 8
  | .verdict _ => 9

/-- The bytes of a record: its header (Table 10-3) and its payload, padded (R345). -/
def HRec.bytes (r : HRec) : List Byte :=
  let pay := r.body.payload
  let h := bytesLE 8 r.seq.toNat ++ bytesLE 1 r.body.code ++ bytesLE 1 r.lpart ++ bytesLE 1 r.attempt ++ bytesLE 5 r.step.toNat ++
    bytesLE 2 r.plan ++ bytesLE 4 r.cycle ++ bytesLE 2 r.beat ++ bytesLE 4 pay.length ++ bytesLE 4 (crc32c pay) ++ List.replicate 28 0
  h ++ bytesLE 4 (crc32c h) ++ padTo (64 * ceilDiv pay.length 64) pay

/-! ### The mirror (R365 to R369) -/

/-- A MIRROR control payload (Table 10-6). -/
def mirrorCtl (kind status entry : Nat) (step : StepNo) (bytes off dcrc : Nat) : List Byte :=
  padTo 32 (bytesLE 1 kind ++ bytesLE 1 status ++ bytesLE 1 entry ++ bytesLE 5 step.toNat ++ bytesLE 4 bytes ++ bytesLE 8 off ++ bytesLE 4 dcrc)

/-- A MIRROR frame toward a module. -/
def mirrorFrame (dst stream chunk : Nat) (payload : List Byte) : Frame :=
  { vc := 4, typ := 0xB, dst := BitVec.ofNat 14 dst, src := 0, tenant := 0, uns := false, xid := BitVec.ofNat 9 stream,
    chunk := BitVec.ofNat 21 chunk, payload := payload }

/-- The frames of one mirror transfer: OPEN, its data, CLOSE (R368). -/
def mirrorFrames (dst stream entry : Nat) (step : StepNo) (off : Nat) (data : List Byte) : List Frame :=
  mirrorFrame dst stream 0 (mirrorCtl 1 0 entry step data.length off 0) ::
  (chunks 512 data).mapIdx (fun i b => mirrorFrame dst stream i (padTo 512 b)) ++
  [mirrorFrame dst stream 0 (mirrorCtl 2 0 entry step data.length off (crc32c data))]

/-- A frame sent to the mirror partner: on T0 or T1 when it is the twin, by route otherwise (R366, R372). One transfer keeps one port. -/
def Core.toPartner (entry : Nat) (f : Frame) (c : Core) : Core :=
  if c.led.mode == 1 then c.sendOn (14 + entry % 2) f else if c.led.alone then c else c.sendFrame f

/-- One transfer sent to the partner. -/
def Core.mirrorSend (stream entry : Nat) (step : StepNo) (off : Nat) (data : List Byte) (c : Core) : Core :=
  (mirrorFrames c.led.partner.toNat stream entry step off data).foldl (fun c f => c.toPartner entry f) c

/-- Bytes of the journal (R365): one eighth of the mirror region. -/
def Core.journalBytes (c : Core) : Nat := c.ident.mirrorExt * 2 ^ 26

/-- Bytes sent to the partner's journal (R367), at the next place of its ring. -/
def Core.journalSend (plan : Nat) (step : StepNo) (data : List Byte) (c : Core) : Core :=
  if c.led.alone then c
  else
    let n := 512 * ceilDiv data.length 512
    let o := if c.led.ringOut + n ≤ c.journalBytes then c.led.ringOut else 0
    let out : MirrorOut := { plan := plan, stream := 1, entry := 0xFF, step := step, off := o, bytes := data.length, data := data }
    { (c.mirrorSend 1 0xFF step o data) with led := { c.led with ringOut := o + n, outXfer := c.led.outXfer ++ [out] } }

/-- The most bytes of one mirror transfer (R368). -/
def mirrorMax : Nat := 2 ^ 30

/-- The transfers of a range of `n` bytes, as (offset, bytes). -/
def mirrorPieces (n : Nat) : List (Nat × Nat) :=
  tabulate (ceilDiv n mirrorMax) (fun i => (i * mirrorMax, min mirrorMax (n - i * mirrorMax)))

/-- The bytes of a range of the store that lies in 64 MiB extents. -/
def Mach.extBytes (m : Mach) (ks : List (Option Nat)) (off n : Nat) : List Byte :=
  tabulate (n / 64) (fun i => off + 64 * i) |>.flatMap (fun o =>
    match ks.getD (o / 2 ^ 26) none with
    | some k => m.unit (k + o % 2 ^ 26)
    | none => List.replicate 64 0)

/-- The range that holds the sealed state of step `s` of an entry while the job runs: CUR, or NEXT once the next step edge has exchanged them. -/
def Job.sealedOff (j : Job) (s : StepNo) (e : SealEnt) : Nat := (if (j.step - (s + 1)).toNat % 2 = 1 then e.nextOff else e.curOff).toNat

/-- One transfer of a sealed entry sent. -/
def Mach.sendEntry (p : Plan) (j : Job) (e : SealEnt) (i : Nat) (step : StepNo) (off n : Nat) (m : Mach) : Mach :=
  let ks := m.core.extKeys p (j.sealedOff step e) e.extents
  m.up (fun c => c.mirrorSend 0 i step off (m.extBytes ks off n))

/-- The tether mirror of a sealed step starts (R366): every CUR range in seal-map order, then STEP_OPEN, the BEAT_START records and the VERDICT. -/
def Mach.mirrorStep (p : Plan) (j : Job) (s : StepNo) (m : Mach) : Mach :=
  if m.core.led.alone then m
  else
    let parts := (j.sealMap.mapIdx (fun i e => (mirrorPieces (e.extents * 2 ^ 26)).map (fun q => (i, e, q.1, q.2)))).flatten
    let m1 := parts.foldl (fun m q => m.sendEntry p j q.2.1 q.1 s q.2.2.1 q.2.2.2) m
    let rest := (m1.core.led.records.filter (fun r =>
      r.plan == j.plan && r.step == s && (r.body.code == 1 || r.body.code == 2 || r.body.code == 9))).flatMap HRec.bytes
    let outs : List MirrorOut := parts.map (fun q =>
        { plan := j.plan, stream := 0, entry := q.1, step := s, off := q.2.2.1, bytes := q.2.2.2 })
    (m1.up (fun c => { c with led := { c.led with outXfer := c.led.outXfer ++ outs } })).up (fun c => c.journalSend j.plan s rest)

/-! ### Votes (R351 to R354, R363) -/

/-- Lane `i` of a vote's result. -/
def lane (bs : List Byte) (i : Nat) : Nat := fieldAt bs (8 * i) 8

/-- The complement of a lane. -/
def laneNot (n : Nat) : Nat := 2 ^ 64 - 1 - n

/-- A vote operand from its lanes. -/
def laneBytes (ls : List Nat) : List Byte := padTo 64 (ls.flatMap (bytesLE 8))

/-- Whether two lanes of a result are complements, so that every member sent the same value (R351). -/
def laneAgree (bs : List Byte) (i : Nat) : Bool := lane bs (i + 1) == laneNot (lane bs i)

/-- A vote of the ledger dies submitted for group 0xFF (R351, R354). -/
def Core.vote (j : Job) (seq : Nat) (operand : List Byte) (c : Core) : Core :=
  c.kiteSubmit { plan := j.plan, group := 0xFF, seq := BitVec.ofNat 14 seq, epoch := epochOf j.step j.attempt, op := 2, width := 3, submitter := 1 } operand

/-- The operation of a vote. -/
def Core.voteOp (c : Core) (h seq : Nat) : Option KiteOp :=
  c.fab.kite.find? (fun o => o.plan == h && o.group == 0xFF && o.seq.toNat == seq && o.submitter == 1)

/-- Plan DIGEST bytes 8 to 15. -/
def Plan.digest8 (p : Plan) : Nat := fieldAt p.hdr.digest 8 8

/-- The seal vote of the previous step, submitted at the start of a step or when the verdict becomes final, whichever is later (R351). -/
def Core.trySeal (h : Nat) (c : Core) : Core :=
  match c.job? h, c.plan? h with
  | some j, some p =>
    let s := j.step - 1
    let v := j.verdict s
    if (j.phase == .running || j.phase == .localReplay) && stepLater s j.lastSealed && v.final && !(j.votes.contains (0, s)) then
      let c1 := c.modJob h (fun j => { j with votes := (j.votes ++ [(0, s)]).drop (j.votes.length - 15) })
      (c1.kiteBump h 0xFF 1).vote j 0
        (laneBytes [v.cause, s.toNat, laneNot s.toNat, p.digest8, laneNot p.digest8, (c.clk.count + 1000000).toNat, v.attempt, 0])
    else c
  | _, _ => c

/-- The mirror vote of a sealed step (R353): `lost` says that the module has no mirror partner. -/
def Core.mirrorVote (h : Nat) (s : StepNo) (lost : Bool) (c : Core) : Core :=
  match c.job? h with
  | none => c
  | some j =>
    if j.votes.contains (1, s) || !(j.phase == .running || j.phase == .localReplay) then c
    else
      let c1 := c.modJob h (fun j => { j with votes := (j.votes ++ [(1, s)]).drop (j.votes.length - 15) })
      (c1.kiteBump h 0xFF 1).vote j 1 (laneBytes [boolNat lost, s.toNat, laneNot s.toNat])

/-- The mirror vote with the control cores' requests that waited for it (R354). -/
def Mach.mirrorVoted (h : Nat) (s : StepNo) (lost : Bool) (m : Mach) : Mach := releaseMail h (m.up (Core.mirrorVote h s lost))

/-! ### The write-hold of a snapshot copy (11 R386) and the schedule's boundary (11 R381) -/

/-- Whether a snapshot copy still reads the extents that a job writes in the step it runs (11 R386). -/
def Core.copyHolds (c : Core) (j : Job) : Bool :=
  c.spool.slots.any (fun o =>
    match o with
    | some s => s.plan == j.plan && s.phase == .copying && (j.step - (s.step + 1)).toNat % 2 == 1
    | none => false)

/-- Whether the NEXT ranges of a job are write-held (R342, 11 R386). -/
def Core.mustHold (c : Core) (j : Job) : Bool := (j.step != j.firstStep && !(j.mirrored && j.lastSealed == j.step - 1)) || c.copyHolds j

/-- A schedule block that replaces a job's takes effect at a step boundary (11 R381), and numbering restarts at its FIRST_SEQ. -/
def Core.nextSchedule (h : Nat) (c : Core) : Core :=
  { c with spool := { c.spool with jobs := c.spool.jobs.map (fun s =>
      match s.next with
      | some b => if s.plan == h then { s with block := b, next := none, seq := BitVec.ofNat 32 (fieldAt b 36 4) } else s
      | none => s) } }

/-! ### Starts of steps and beats -/

/-- The keys of a range of a logical partition's space, in units (07 Table 07-1). -/
def Core.rangeKeys (c : Core) (p : Plan) (space lp u n : Nat) : List Nat :=
  (c.resolveUnits p.tenant p.pm space (lp * 2 ^ (if space = 0 then 36 else 30) + u * 64) n).getD []

/-- The EXT_INPUT records of a beat (R346): the ranges of the check plan's KIND 0x03 entries, copied and forwarded to the partner's journal (R367). -/
def Mach.extInputs (h : Nat) (m : Mach) : Mach :=
  match m.core.job? h, m.core.plan? h with
  | some j, some p =>
    (p.checks.filter (fun e => e.kind == 3 && e.beat == j.beat)).foldl (fun m e =>
      let ks := m.core.rangeKeys p e.space e.lpart e.off e.units
      let bytes := m.units ks
      m.up (fun c => (c.addRec j e.lpart (.extInput ks bytes (ks.map m.bad))).journalSend h j.step bytes)) m
  | _, _ => m

/-- A beat starts (06 R164): its record, and its external inputs. -/
def Mach.beatStart (h : Nat) (m : Mach) : Mach :=
  match m.core.job? h with
  | none => m
  | some j =>
    if j.phase == .localReplay then m.giveInputs h
    else (m.up (fun c => c.addRec j 0xFF (.beatStart c.clk.count))).extInputs h

/-- The rings of a plan with their places and descriptors. -/
def Core.ringState (c : Core) (p : Plan) : List ((Nat × Nat) × Nat) × List ((Nat × Nat × Nat) × BitVec 256) :=
  let rs := p.rings.filterMap (fun r => (p.bindOf r.1).map (fun b => (b.die, r.2)))
  (rs.map (fun r => (r, (lookup? r.2 (c.part r.1).streams.ringPos).getD 0)),
   rs.flatMap (fun r => ((c.part r.1).streams.descs.filter (fun d => d.1.1 == r.2)).map (fun d => ((r.1, d.1.1, d.1.2), d.2))))

/-- A step begins with beat 0 (R341, R344): the seal map is exchanged (not in an attempt that a resume vote starts), SEQ restarts, the records open, and the
previous step's seal vote is submitted when it is due. -/
def Mach.stepStart (h : Nat) (fresh : Bool) (m : Mach) : Mach :=
  match m.core.job? h, m.core.plan? h with
  | some j, some p =>
    let m1 := m.up (fun c =>
      let c1 := (if fresh then c.exchange p j.sealMap else c).nextSchedule h
      let rs := c1.ringState p
      (c1.kiteRestart h).modJob h (fun j =>
        { j with
          beat := 0, sched := 0, edge := c.clk.count, done := [], accept := [], runEnd := 0, offset := 0, holds := [], posts := []
          resAtStep := j.resident, ringAtStep := rs.1, descAtStep := rs.2, checks := []
          writeHold := c.mustHold j
          verdicts := ((j.modVerdict j.step (fun _ => { step := j.step, attempt := j.attempt })).verdicts.map (fun v =>
            if v.step == j.step - 1 then { v with edge := c.clk.count } else v)).drop (j.verdicts.length - 3) }))
    let m2 := m1.up (fun c =>
      match c.job? h with
      | none => c
      | some k => c.addRec k 0xFF (.stepOpen k.key k.lc (BitVec.ofNat 64 p.digest8) k.attempt))
    ((m2.beatStart h).up (fun c =>
      if c.fab.syncState == 3 && c.multiModule j then c.modJob h (Job.unclean causeFault) else c)).up (Core.trySeal h)
  | _, _ => m

/-! ### Streams and local replay (R356, R357) -/

/-- The channels of a plan emptied. -/
def Core.emptyChans (h : Nat) (c : Core) : Core :=
  { c with parts := c.parts.map (fun q =>
      { q with streams := { q.streams with chans := q.streams.chans.map (fun e => if e.2.plan == h then (e.1, { e.2 with tokens := [] }) else e) } }) }

/-- The descriptor rings of a plan as they were when its step began. -/
def Core.restoreRings (j : Job) (c : Core) : Core :=
  let c1 := j.ringAtStep.foldl (fun c r =>
    c.modStreams r.1.1 (fun q => { q with ringPos := insertKey r.1.2 r.2 q.ringPos, descs := q.descs.filter (fun d => !(d.1.1 == r.1.2)) })) c
  j.descAtStep.foldl (fun c d => c.putDesc d.1.1 d.1.2.1 d.1.2.2 d.2) c1

/-- A local replay begins at an edge (R356): the job's beats run again from beat 0, with channels, rings and residency as at the start of the step. -/
def Mach.replayStart (h : Nat) (m : Mach) : Mach :=
  match m.core.job? h with
  | none => m
  | some j =>
    let m1 := m.up (fun c =>
      let c1 := ((c.emptyChans h).restoreRings j).modFab (fun q =>
        { q with kiteSeq := q.kiteSeq.filter (fun e => !(e.1.1 == h && e.1.2 != 0xFF)), colls := q.colls.filter (fun r => !(r.plan == h && r.cid.step == j.step)) })
      { (c1.modJob h (fun j =>
          { j with phase := .localReplay, replay := j.replay.map (fun r => { r with begun := true }), beat := 0, sched := 0, edge := c.clk.count,
                   done := [], accept := [], runEnd := 0, offset := 0, holds := [], posts := [], resident := j.resAtStep, ripening := [] })) with
        led := { c1.led with localReplays := satInc c1.led.localReplays } })
    m1.giveInputs h

/-- PART_MX_FAULT when a failure of an array or a thin station is classified (R85): LAST_KIND follows when the event is the last one, and a retirement stands. -/
def MxPart.classified (k : PendingCheck) (same : Bool) (q : MxPart) : MxPart :=
  let unit := if k.block = 1 then k.inst else 0xD
  let last := !k.rows.isEmpty && q.lastUnit.toNat == unit && (k.block == 1 || q.lastTv.toNat == k.inst)
  { q with checkPathCount := if same then satInc q.checkPathCount else q.checkPathCount
           lastKind := if last && q.lastKind != 3 then (if same then 2 else 1) else q.lastKind }

/-- The record that follows a pending check once the replayed data pass (03 R75, 04 R93, 12 R412): the check path or the data path was at fault. -/
def Mach.settleCheck (j : Job) (k : PendingCheck) (m : Mach) : Mach :=
  let same := k.tiles.all (fun t => crc32c ((m.units t.1).take t.2.1) == t.2.2)
  m.up (fun c =>
    let c1 := c.logRec (jobRec j (modRec (if same then 0x102 else 0x103) 1 1 k.die k.block k.inst))
    if k.block = 1 || k.block = 2 then c1.modMx k.die (MxPart.classified k same) else c1)

/-- A local replay ends at the schedule cycle of the hold (R356): the checks are settled and the job runs on live. -/
def replayEnd (h : Nat) (m : Mach) : Mach :=
  match m.core.job? h with
  | none => m
  | some j =>
    match j.replay with
    | none => m
    | some r =>
      if j.phase == .localReplay && r.begun && r.endBeat ≤ j.beat then
        let m0 := m.giveBackTo h j.sched (r.endCycle + 1)
        (j.checks.foldl (fun m k => m.settleCheck j k) m0).up (fun c => c.modJob h (fun j =>
          { j with phase := .running, replay := none, checks := [], sched := max j.sched r.endCycle }))
      else m

/-- LOCAL_REPLAY_END (R356). -/
def execLocalReplayEnd (plan : Nat) (s : State) : Host.Outcome State Fault Refusal := runM (replayEnd plan) s

/-! ### Rollback (R361, R362) -/

/-- Raised anchor bytes written into the CUR anchor tables for the chunks that missed (R362); the records of the step are kept through its
attempts, and the latest stands. -/
def Mach.raiseAnchors (p : Plan) (j : Job) (l : StepNo) (m : Mach) : Mach :=
  let recs := m.core.led.records.filter (fun r => r.plan == j.plan && r.step == l + 1)
  recs.foldl (fun m r =>
    match r.body with
    | .anchor table head ms =>
      match j.sealMap.find? (fun e => decide (e.nextOff.toNat ≤ table) && decide (table < e.nextOff.toNat + e.extents * 2 ^ 26)) with
      | none => m
      | some e =>
        let cur := table - e.nextOff.toNat + e.curOff.toNat
        ms.foldl (fun m c =>
          match m.core.resolve p.tenant p.pm 0 (cur + c.1 / 64 * 64) with
          | some k => m.patch (k + c.1 % 64) [BitVec.ofNat 8 (anchorRaised head c.2)]
          | none => m) m
    | _ => m) m

/-- A collective-scope rollback starts on this module (R361): the job stops, transfers and tokens are discarded, the mappings and the records go back to the
seal of step `l`, and the job waits for a resume vote; a job that is aborted, or whose attempt 7 has failed, stops instead. -/
def Mach.rollbackStart (h : Nat) (l : StepNo) (m : Mach) : Mach :=
  match m.core.job? h, m.core.plan? h with
  | some j, some p =>
    let swaps := (j.step - (l + 1)).toNat % 2
    let t := j.tryOf (l + 1)
    let m1 := m.up (fun c =>
      let c1 := if swaps = 1 then c.exchange p j.sealMap else c
      let c2 := ((c1.emptyChans h).restoreRings j).modFab (fun q =>
        { q with opens := q.opens.filter (fun o => !(o.plan == some h || o.owner == some h)),
                 colls := q.colls.filter (fun r => !(r.plan == h)), kite := q.kite.filter (fun o => !(o.plan == h)),
                 kiteQueue := q.kiteQueue.filter (fun o => !(o.plan == h)),
                 aborted := q.aborted.filter (fun a => !(a.1 == h && stepLater a.2.step l)) })
      let c3 := (c2.freeRolled h l).modJob h (fun j =>
        ({ j with
           phase := if j.abort then .stoppedLimit else .rollbackWait, step := l + 1, beat := 0, sched := 0, holds := [], posts := [], done := [],
           accept := [], offset := 0, replay := none, checks := [], resident := [], rollback := none, resumeAt := none, attempt := t.attempt + 1,
           lastSealed := l, mirrored := j.mirrored || l != j.lastSealed, verdicts := j.verdicts.filter (fun v => !(stepLater v.step l)),
           votes := j.votes.filter (fun v => !(stepLater v.2 l) && !(v.1 == 1 && v.2 == l && !j.mirrored)) }).putTry { t with attempt := t.attempt + 1 })
      { c3 with led := { c3.led with collective := satInc c3.led.collective } })
    m1.raiseAnchors p j l
  | _, _ => m

/-- A rollback named for an edge (R361); one already named for the same or an earlier seal stands. -/
def Job.nameRollback (edge : BitVec 64) (l : StepNo) (j : Job) : Job :=
  match j.rollback with
  | some (e, k) => if stepLater k l then { j with rollback := some (edge, l) } else { j with rollback := some (e, k) }
  | none => { j with rollback := some (edge, l) }

/-- The last step whose mirror vote passed (R361). -/
def Job.lastMirrored (j : Job) : StepNo := if j.mirrored || !j.sealedValid then j.lastSealed else j.lastSealed - 1

/-- A resume vote submitted by a module in rollback wait, unless one is on its way (R363). -/
def Core.resumeVote (h : Nat) (c : Core) : Core :=
  match c.job? h with
  | none => c
  | some j =>
    if j.phase == .rollbackWait && j.resumeAt.isNone && (c.voteOp h 0x3FFF).isNone then
      let l := j.lastSealed
      c.vote j 0x3FFF (laneBytes [0, l.toNat, laneNot l.toNat, 0, 0, (c.clk.count + 1000000).toNat, j.attempt, 0])
    else c

/-- A resumed job starts its attempt at an edge (R363); a mirror vote of the sealed step that has not passed is submitted again when its mirror stands
(R353). -/
def Mach.resume (h : Nat) (m : Mach) : Mach :=
  let m1 := (m.up (fun c => c.modJob h (fun j => { j with phase := .running, resumeAt := none }))).stepStart h false
  match m1.core.job? h with
  | none => m1
  | some j =>
    let l := m1.core.led
    if j.sealedValid && !j.mirrored && j.lastSealed == j.step - 1 && (l.alone || (l.mirrorValid && l.mirroredStep == j.lastSealed)) then
      m1.mirrorVoted h j.lastSealed (l.alone)
    else m1

/-! ### Vote results -/

/-- The operation a vote's result belongs to, ended: its result (its own, or the one given where no frame of this module has carried it), or none for an
error. -/
def Mach.voteEnd (h seq : Nat) (res : List Byte) (err : Bool) (m : Mach) : Option (Option (List Byte)) × Mach :=
  match m.core.plan? h, m.core.voteOp h seq with
  | some p, some o =>
    let o1 := { o with error := o.error || err, result := if o.error || err then none else some (o.result.getD (padTo 64 res)) }
    (some o1.result, finishKite p o1 (m.up (Core.putKite o1)))
  | _, _ => (none, m)

/-- Whether a seal vote's result is consistent (R351). -/
def sealConsistent (r : List Byte) (attempt : Nat) : Bool := laneAgree r 1 && laneAgree r 3 && lane r 6 == attempt

/-- A step is sealed (R352). -/
def Job.sealed (s : StepNo) (j : Job) : Job := { j with lastSealed := s, sealedValid := true, mirrored := false }

/-- A failed seal vote (R352, R364): the rollback is named, the attempt counted, and a module that was at fault twice of three times declares itself failed. -/
def Core.sealFailed (h : Nat) (s : StepNo) (r : Option (List Byte)) (c : Core) : Core :=
  match c.job? h with
  | none => c
  | some j =>
    let v := j.verdict s
    let t := j.tryOf s
    let miss := match r with | some b => lane b 0 == 1 && sealConsistent b v.attempt | none => false
    let own := v.cause == causeFault
    let t1 := if miss then t else { t with failed := t.failed + 1, own := if own then t.own + 1 else t.own }
    let edge : BitVec 64 := match r with | some b => BitVec.ofNat 64 (lane b 5) | none => c.clk.count + 20000000
    let limit := !miss && decide (7 ≤ v.attempt)
    let c1 := { c with led := { c.led with lastCause := match r with | some b => BitVec.ofNat 8 (lane b 0) | none => c.led.lastCause } }
    let c2 := c1.modJob h (fun j => ((j.putTry t1).nameRollback edge j.lastSealed))
    let c3 := if limit then (c2.logRec (jobRec j (modRec 0x606 2 3 0x28 0x0F 0))).modJob h (fun j => { j with abort := true }) else c2
    if !miss && t1.failed == 3 && own && 2 ≤ t1.own && !limit then
      { (c3.memberFailed h) with led := { c3.led with escalated := satInc c3.led.escalated } }
    else c3

/-- MIRROR_ABSENT from a member whose own lane 0 said unmirrored (R353). -/
def Core.mirrorAbsent (j : Job) (c : Core) : Core := c.logRec (jobRec j (modRec 0x605 6 1 0x28 0x0F 0))

/-- A mirror vote ends (R353): when it is consistent the write-hold lifts and the step's records are freed (R346, R367); an error leaves the write-hold. -/
def mirrorResult (h : Nat) (res : List Byte) (err : Bool) (m : Mach) : Mach :=
  match m.core.job? h with
  | none => m
  | some j =>
    let s := j.lastSealed
    let (r, m1) := m.voteEnd h 1 res err
    match r with
    | some (some b) =>
      if laneAgree b 1 && lane b 1 == s.toNat then
        let lost := (m.core.voteOp h 1).any (fun o => lane ((lookup? 16 o.got).getD []) 0 == 1)
        m1.up (fun c =>
          let c1 := (c.freeStep h s).modJob h (fun j => { j with writeHold := c.copyHolds j, mirrored := true })
          let c2 := { c1 with led := { c1.led with journal := c1.led.journal.filter (fun e => !(e.step == s && e.digest.isEmpty)) } }
          let c3 := if lost then c2.mirrorAbsent j else c2
          if c3.health.swapPending && c3.multiModule j then c3.memberFailed h else c3)
      else m1
    | _ => m1

/-- MIRROR_VOTE_RESULT (R353): the plan, the result where no frame of this module has carried it, and whether the operation ended with an error. -/
def execMirrorVoteResult (plan : Nat) (res : List (BitVec 8)) (err : Bool) (s : State) : Host.Outcome State Fault Refusal :=
  runM (mirrorResult plan res err) s

/-- A resume vote ends (R363): a consistent result names the edge at which the attempt starts; after an error the vote is submitted again at the next edge. -/
def resumeResult (h : Nat) (res : List Byte) (err : Bool) (m : Mach) : Mach :=
  match m.core.job? h with
  | none => m
  | some j =>
    let (r, m1) := m.voteEnd h 0x3FFF res err
    match r with
    | some (some b) =>
      if laneAgree b 1 && lane b 1 == j.lastSealed.toNat && lane b 6 == j.attempt then
        m1.up (fun c => c.modJob h (fun j => { j with resumeAt := some (BitVec.ofNat 64 (lane b 5)) }))
      else m1
    | _ => m1

/-- RESUME_VOTE_RESULT (R363). -/
def execResumeVoteResult (plan : Nat) (res : List (BitVec 8)) (err : Bool) (s : State) : Host.Outcome State Fault Refusal :=
  runM (resumeResult plan res err) s

/-! ### Verdicts (R350) -/

/-- Whether a job's work for its beat is complete (06 R164): every station with instructions in the beat has run its last one, and nothing is held, kept in a post
register or in replay; `avail` is the number of core cycles that the beat held. -/
def Job.beatDone (p : Plan) (avail : Nat) (j : Job) : Bool :=
  p.progs.all (fun q => (q.beats.getD j.beat []).isEmpty || j.done.contains q.lsid) && j.holds.isEmpty && j.posts.isEmpty &&
  !(j.replay.any (fun r => !r.begun || r.endBeat ≤ j.beat)) && decide (j.actual j.runEnd < avail)

/-- Whether the tiles of a range all carry CHECKED (R349): every unit that passes as a trailer is one. -/
def Core.rangeChecked (mem : Mem) (c : Core) (p : Plan) (e : CheckEnt) : Bool :=
  (c.rangeKeys p e.space e.lpart e.off e.units).all (fun k =>
    let b := memBytes mem (k / 64 * 64) 64
    !(tcrcOk b) || (trailerOf b).checked)

/-- The check plan of a beat applied to the step's verdict (06 R184, R349): a tile of a KIND 0x01 range that lacks CHECKED is a fault. -/
def Core.evalChecks (mem : Mem) (h : Nat) (c : Core) : Core :=
  match c.job? h, c.plan? h with
  | some j, some p =>
    if (p.checks.filter (fun e => e.kind == 1 && e.beat == j.beat)).all (fun e => c.rangeChecked mem p e) then c else c.modJob h (Job.unclean causeFault)
  | _, _ => c

/-- The last beat of a step found complete before its edge: the step's checks are applied. -/
def Core.stepEnded (mem : Mem) (h : Nat) (s : StepNo) (c : Core) : Core :=
  match c.job? h, c.plan? h with
  | some j, some p =>
    if j.step == s && j.beat + 1 == p.hdr.stepBeats && j.phase == .running && j.beatDone p c.beatCycles then
      (c.evalChecks mem h).modJob h (fun j => j.modVerdict s (fun v => { v with beatsDone := true }))
    else c
  | _, _ => c

/-- Whether an outbound frame of a step has not been acknowledged at its first hop (R350, 08 R262). -/
def Core.unacked (c : Core) (h : Nat) (s : StepNo) : Bool :=
  c.fab.ports.any (fun p => (p.held ++ p.waiting).any (fun f => f.job == some (h, s)))

/-- A verdict becomes final (R350), once every outbound frame of the step is acknowledged: the VERDICT record is written and the seal vote submitted when step
s + 1 has started. A job whose sync is lost, or a module that has failed, votes unclean (06 R194). -/
def verdictFinal (h : Nat) (s : StepNo) (c : Core) : Core :=
  match c.job? h with
  | none => c
  | some j =>
    let v := j.verdict s
    if !(j.verdicts.any (fun v => v.step == s)) || v.final || !v.beatsDone || (j.replay.isSome && j.step == s) || c.unacked h s then c
    else
      let bad := if c.health.permFailed then 3 else if c.fab.syncState == 3 && c.multiModule j then causeFault else 0
      let v1 := { v with cause := max v.cause bad, final := true, finalAt := c.clk.count }
      let c1 := (c.addRec { j with step := s, attempt := v.attempt } 0xFF (.verdict v1.cause)).modJob h (fun j => j.modVerdict s (fun _ => v1))
      c1.trySeal h

/-- VERDICT_FINAL (R350). -/
def execVerdictFinal (plan : Nat) (step : StepNo) (s : State) : Host.Outcome State Fault Refusal :=
  runC (fun _ m c => verdictFinal plan step (c.stepEnded m plan step)) s

end Sys2Proof.Machine
end

