-- ==== Sys2Proof/Machine/Reply.lean ====
section
/-!
DEFINITION. Replies to commands (13_host_tenants_commands.md R450, R454 to R456): the packet's fields, the detail bytes, and the reply into the
reserved slot.
-/

namespace Sys2Proof.Machine

/-- OPCODE of a packet (Table 13-4). -/
def Accepted.opcode (a : Accepted) : Nat := fieldAt a.packet 0 2

/-- TENANT of a packet: the tenant acted upon. -/
def Accepted.target (a : Accepted) : TenantId := BitVec.ofNat 8 (fieldAt a.packet 3 1)

/-- A parameter of `n` bytes at packet byte `i`. -/
def Accepted.par (a : Accepted) (i n : Nat) : Nat := fieldAt a.packet i n

/-- Detail bytes, given as (reply offset, count, value), rising. -/
def details (l : List (Nat × Nat × Nat)) : List Byte :=
  (l.foldl (fun b e => overwrite b (e.1 - 6) (bytesLE e.2.1 e.2.2)) (List.replicate 26 0)).take 26

/-- Whether two accepted commands are the same one. -/
def Accepted.same (a b : Accepted) : Bool := a.tenant == b.tenant && a.sq == b.sq && a.tag == b.tag

/-- The admin pair of a tenant stops once ENABLE is 0 and every accepted command of it has replied (R471). -/
def Core.adminSettle (t : Nat) (c : Core) : Core :=
  if (c.ten t).adminLive && !((c.ten t).adminShadow.getLsbD 0) && !(c.accepted.any (fun a => a.tenant.toNat == t && a.cq == 1)) then
    c.modTen t (fun x => { x with adminLive := false, queues := x.queues.filter (fun q => decide (2 ≤ q.1)) })
  else c

/-- An accepted command answered (R450, R455): the reply goes into the slot it reserved. -/
def Core.reply (a : Accepted) (status : Nat) (detail : List Byte) (c : Core) : Core :=
  let t := a.tenant.toNat
  let c1 := { c with accepted := c.accepted.eraseP (fun b => b.same a) }
  let c2 := c1.modTen t (fun x => { x with queues := x.queues.map (fun q => if q.1 == a.cq then (q.1, { q.2 with reserved := q.2.reserved - 1 }) else q) })
  (c2.cqWrite t a.cq (entryBytes a.tag.toNat status detail)).adminSettle t

/-- An accepted command has taken effect and waits for what its reply waits for. -/
def Core.awaitReply (a : Accepted) (c : Core) : Core :=
  { c with accepted := c.accepted.map (fun b => if b.same a then { b with started := true } else b) }

/-- A record with a tenant that is also posted to tenant 0 (04 R93, 11 R391). -/
def Core.logBoth (r : Rec) (c : Core) : Core :=
  let c1 := c.logRec r
  if r.tenant == some 0 then c1
  else if c1.cq1Free 0 then
    match c1.log.recs with
    | q :: _ => c1.cqWrite 0 1 (entryBytes 0xFFFFFFFF 0xF0 (eventDetail q))
    | [] => c1
  else c1.modTen 0 (fun x => { x with eventsUnposted := satInc x.eventsUnposted })

/-- JOB_STOPPED (Table 13-7): the job, its STATE and LAST_SEALED. -/
def Core.jobStopped (j : Job) (state : Nat) (c : Core) : Core :=
  c.unsolicited j.tenant.toNat 0xF8 (details [(6, 2, j.plan), (8, 1, state), (9, 5, j.lastSealed.toNat)])

end Sys2Proof.Machine
end

