-- ==== Sys2Proof/Machine/Scrub.lean ====
section
/-!
DEFINITION. Memory maintenance (07_memory.md R223, R224, R230): scrub, and the end of a channel's migration copy.
-/

namespace Sys2Proof.Machine

/-- Errors that the module's own reads find, outside every job (R230): corrected or poisoned, counted and recorded with the access kind, without a verdict. -/
def Mach.scrub (kind : Nat) (found : List MemErr) (m : Mach) : Mach :=
  found.foldl (fun m e =>
    let k := e.key * 64
    let (die, blk, inst) := m.core.memUnit k
    let mk := fun (code cls sev : Nat) =>
      { modRec code cls sev die blk inst with oper := BitVec.ofNat 16 kind, detail := memDetail (.inr (m.core.physAddr k)) 0 0 }
    if e.unc then m.uncorrectable e (mk 0x402 7 2)
    else
      let m1 := m.up (Core.corrected e (mk 0x401 1 0))
      if e.readback && isHbmKey k && !e.lane && !e.stack then m1.up (Core.repairRow k e.noSpare) else m1) m

/-- SCRUB_PASS (R230): the errors that the pass finds. -/
def execScrubPass (found : List MemErr) (s : State) : Host.Outcome State Fault Refusal := runM (Mach.scrub 3 found) s

/-- Whether a key lies in the snapshot region, the tether mirror region or the hamper of its stack (Table 07-2). -/
def Core.inKeptRegion (c : Core) (k : Nat) : Bool :=
  let o := (k - 2 ^ 41) % 2 ^ 36
  isHbmKey k && decide ((988 - c.ident.hamperExt - c.ident.mirrorExt - c.ident.snapExt) * 2 ^ 26 ≤ o) && decide (o < 988 * 2 ^ 26)

/-- A line of the snapshot region, the mirror region or the hamper that could not be read, replaced from the sealed state or the twin where that
has it (R224 step 3). -/
def Mach.replaceLine (e : MemErr) (m : Mach) : Mach :=
  if e.unc && m.core.inKeptRegion (e.key * 64) && !e.repair.isEmpty then
    ((m.write (.bytes (e.key * 64) (padTo 64 e.repair))).write (.poison e.key 1 false)).up (Core.dropLines e.key 1)
  else m

/-- The migration copy of a partition's stack ends (R224 step 2): it waits for the edge. A line that could not be read is replaced where the sealed state or
the twin has it, else it is poisoned (R224 step 3). -/
def copyDone (p : Nat) (found : List MemErr) (m : Mach) : Mach :=
  if (m.core.part p).memp.migState == 1 then
    (found.foldl (fun m e => m.replaceLine e) (m.scrub 1 found)).up (fun c => c.modMem p (fun q => { q with migState := 2 }))
  else m

/-- CHANNEL_COPY_DONE (R224). -/
def execChannelCopyDone (part : Nat) (found : List MemErr) (s : State) : Host.Outcome State Fault Refusal := runM (copyDone part found) s

end Sys2Proof.Machine
end

