-- ==== Sys2Proof/Machine/Snaps.lean ====
section
/-!
DEFINITION. Snapshots and spooling (11_checkpoints.md R381 to R397, R401): the schedule block, the snapshot vote, the copy, the drain to the file
store, stripe reports and the manifest.
-/

namespace Sys2Proof.Machine

/-! ### The schedule block (Table 11-1) -/

/-- EVERY. -/
def snapEvery (b : List Byte) : Nat := fieldAt b 0 4
/-- KIND: 1 FULL, 2 EXPORT. -/
def snapKind (b : List Byte) : Nat := fieldAt b 4 1
/-- REPLICA_CHECK. -/
def snapCheck (b : List Byte) : Bool := bitOf (fieldAt b 5 1) 0
/-- MANIFEST_LM. -/
def snapWriter (b : List Byte) : Nat := fieldAt b 6 2
/-- K. -/
def snapAreas (b : List Byte) : Nat := fieldAt b 8 1
/-- TCOUNT. -/
def snapTcount (b : List Byte) : Nat := fieldAt b 9 1
/-- MAN_TARGET. -/
def snapManTarget (b : List Byte) : Nat := fieldAt b 10 1
/-- AREA_LBAS. -/
def snapAreaLbas (b : List Byte) : Nat := fieldAt b 16 8
/-- REPL of entry `e`. -/
def snapRepl (b : List Byte) (e : Nat) : Nat := fieldAt b (128 + e) 1

/-- The LBA at which area `k` of a logical module starts (R382). -/
def snapArea (b : List Byte) (lm k : Nat) : Nat :=
  let t := max (snapTcount b) 1
  fieldAt b (64 + 8 * (lm % t)) 8 + ((lm / t) * snapAreas b + k) * snapAreaLbas b

/-- The LBA of manifest slot `k` (R382). -/
def snapManLba (b : List Byte) (k : Nat) : Nat := fieldAt b 24 8 + k * fieldAt b 32 4

/-- Bytes stored of one 64 MiB extent (R387, R389). -/
def pieceBytes (kind cls : Nat) : Nat := if kind = 2 && cls = 0 then 2 ^ 25 else 2 ^ 26

/-- The stored size of a seal map. -/
def storedBytes (kind : Nat) (es : List SealEnt) : Nat := sumNat (es.map (fun e => e.extents * pieceBytes kind e.cls))

/-- Where an entry's stored bytes begin in a snapshot slot (R386). -/
def entryOff (kind : Nat) (es : List SealEnt) (i : Nat) : Nat := storedBytes kind (es.take i)

/-- Bytes of a snapshot slot (R385). -/
def Core.slotBytes (c : Core) : Nat := c.ident.snapExt * 2 ^ 28

/-- The key of byte `o` of a snapshot slot: each stack's part of the region is divided into two halves, and a slot runs through its halves in stack
order (R216, R385; notes/assumptions/49). -/
def Core.slotKey (c : Core) (slot o : Nat) : Nat :=
  let per := c.ident.snapExt * 2 ^ 25
  hbmKey (o / max per 1) ((988 - c.ident.hamperExt - c.ident.mirrorExt - c.ident.snapExt) * 2 ^ 26 + slot * per + o % max per 1)

/-- The schedule of a job. -/
def Core.snapJob? (c : Core) (h : Nat) : Option SnapJob := c.spool.jobs.find? (fun s => s.plan == h)

/-- The spool changed. -/
def Core.modSpool (f : Spool → Spool) (c : Core) : Core := { c with spool := f c.spool }

/-- The schedule of a job changed. -/
def Core.modSnap (h : Nat) (f : SnapJob → SnapJob) (c : Core) : Core :=
  c.modSpool (fun q => { q with jobs := q.jobs.map (fun s => if s.plan == h then f s else s) })

/-- Whether this module writes the manifests of a job. -/
def Core.isWriter (c : Core) (h : Nat) (b : List Byte) : Bool :=
  match c.job? h with | some j => j.logicalModule == snapWriter b | none => false

/-- The physical module of a logical module of a plan's job. -/
def Core.physOf (c : Core) (p : Plan) (lm : Nat) : Nat :=
  match c.sliceFor p with | some s => s.map.getD lm c.fab.cfg.own | none => c.fab.cfg.own

/-! ### NVMe commands (R394) -/

/-- The storage port a target's commands start on: the lowest that its descriptor allows. -/
def Target.port (t : Target) : Nat := if bitOf (fieldAt t.desc 18 1) 0 then 0 else 1

/-- The other storage port when the descriptor allows it, for a retry. -/
def Target.other (t : Target) (p : Nat) : Nat := if bitOf (fieldAt t.desc 18 1) (1 - p) then 1 - p else p

/-- A target of a tenant. -/
def Core.targetOf (c : Core) (t : TenantId) (i : Nat) : Target := (lookup? (t, i) c.spool.targets).getD { desc := [] }

/-- A command capsule sent: its port, number, tenant, namespace and LBAs. -/
def Core.sendIo (x : IoCmd) (c : Core) : Core :=
  c.emit (.nvme x.target x.op [x.port, x.id, x.tenant.toNat, fieldAt (c.targetOf x.tenant x.target).desc 20 4, x.lba, x.lbas])

/-- A command issued. -/
def Core.issueIo (x : IoCmd) (c : Core) : Core :=
  let y := { x with id := c.spool.nextIo, port := (c.targetOf x.tenant x.target).port }
  (c.modSpool (fun q => { q with io := q.io ++ [y], nextIo := q.nextIo + 1 })).sendIo y

/-- LBAs moved to or from the file store counted (R409). -/
def Core.countLbas (n : Nat) (c : Core) : Core :=
  let full := satOvf c.spool.lbas n || c.spool.lbas.toNat + n == 2 ^ 48 - 1
  let newly := full && !c.spool.lbasOvf
  (c.modSpool (fun q => { q with lbas := satAdd q.lbas n, lbasOvf := q.lbasOvf || full })).counterEvent 4 newly 7 0 0x110

/-! ### Failures (R401) -/

/-- The slot that holds a snapshot. -/
def Core.slotOf (c : Core) (h : Nat) (n : BitVec 32) : Option (Nat × SnapSlot) :=
  ((List.range 2).filterMap (fun i => (c.spool.slots.getD i none).map (fun s => (i, s)))).find? (fun e => e.2.plan == h && e.2.seq == n)

/-- A slot changed. -/
def Core.modSlot (i : Nat) (f : SnapSlot → SnapSlot) (c : Core) : Core := c.modSpool (fun q => { q with slots := modAt q.slots i (fun o => o.map f) })

/-- A snapshot given up on this module: its slot is free, its commands are dropped and, on its writer, its reports; a write-hold of its copy lifts. -/
def Core.snapFree (h : Nat) (n : BitVec 32) (c : Core) : Core :=
  let c1 := c.modSpool (fun q =>
    { q with
      slots := q.slots.map (fun o => match o with | some s => if s.plan == h && s.seq == n then none else some s | none => none)
      io := q.io.filter (fun x => !(x.plan == h && x.seq == n))
      manifests := q.manifests.filter (fun r => !(r.plan == h && r.seq == n)) })
  c1.modJob h (fun j => { j with writeHold := c1.mustHold j })

/-- Detail of SNAP_COMPLETE and SNAP_FAILED (Table 13-7). -/
def snapDetail (h : Nat) (s : StepNo) (n : BitVec 32) (cause : Nat) : List Byte := details [(6, 2, h), (8, 5, s.toNat), (16, 4, n.toNat), (20, 1, cause)]

/-- A failed snapshot on the manifest writer (R401): every module is told, the slot freed and SNAP_FAILED posted. -/
def Core.snapFailAll (h : Nat) (s : StepNo) (n : BitVec 32) (cause : Nat) (c : Core) : Core :=
  let t := match c.job? h with | some j => j.tenant.toNat | none => 0
  (((c.emit (.vc7 0xFFFF 12 [h, n.toNat, cause])).snapFree h n).modSpool (fun q => { q with failed := satInc q.failed })).unsolicited t 0xF3 (snapDetail h s n cause)

/-- A module's part of a snapshot fails (R401): the cause goes to the manifest writer, and the module waits to be told. -/
def Core.snapFail (h : Nat) (n : BitVec 32) (cause : Nat) (c : Core) : Core :=
  match c.slotOf h n, c.plan? h with
  | some (i, s), some p =>
    if c.isWriter h s.block then c.snapFailAll h s.step n cause
    else
      let c1 := (c.modSlot i (fun s => { s with phase := .failed })).modSpool (fun q => { q with io := q.io.filter (fun x => !(x.plan == h && x.seq == n)) })
      (c1.modJob h (fun j => { j with writeHold := c1.mustHold j })).emit (.vc7 (c1.physOf p (snapWriter s.block)) 12 [h, n.toNat, cause])
  | _, _ => c

/-- A failure cause reaches this module over VC7 (R401): on the writer it ends the snapshot everywhere; elsewhere it frees the slot. -/
def snapFailureNotice (h : Nat) (n : BitVec 32) (cause : Nat) (c : Core) : Core :=
  match c.slotOf h n with
  | none => c
  | some (_, s) =>
    if c.isWriter h s.block then c.snapFailAll h s.step n cause
    else (c.snapFree h n).modSpool (fun q => { q with failed := satInc q.failed })

/-- SNAP_FAILURE_NOTICE (R401): plan, SEQ and cause as Table 13-7 numbers it. -/
def execSnapFailureNotice (plan : Nat) (seq : BitVec 32) (cause : Nat) (s : State) : Host.Outcome State Fault Refusal :=
  runC (fun _ _ c => snapFailureNotice plan seq cause c) s

/-- Every snapshot of a job that is not complete fails with MEMBER_FAILED when a failure notice arrives (R401, 10 R371). -/
def Core.snapMemberFailed (h : Nat) (c : Core) : Core :=
  let live := c.spool.slots.filterMap (fun o => o.bind (fun s => if s.plan == h && !s.complete then some s else none))
  live.foldl (fun c s => if c.isWriter h s.block then c.snapFailAll h s.step s.seq 6 else (c.snapFree h s.seq).modSpool (fun q => { q with failed := satInc q.failed })) c

/-! ### The snapshot vote (R384) -/

/-- The snapshot vote of a step submitted (R384). -/
def Core.snapVote (j : Job) (s : SnapJob) (step : StepNo) (c : Core) : Core :=
  let free := c.spool.slots.any Option.isNone
  let scrc := fieldAt s.block 252 4
  let c1 := c.modSnap j.plan (fun s => { s with voted := some step })
  (c1.modJob j.plan (fun j => { j with votes := (j.votes ++ [(3, step)]).drop (j.votes.length - 15) })).vote j 0x3FFE
    (laneBytes [boolNat (!free), step.toNat, laneNot step.toNat, scrc, laneNot scrc, s.seq.toNat, laneNot s.seq.toNat, 0])

/-- The manifest writer zeroes the first LBA of its manifest slot before it votes (R384). -/
def Core.zeroSlot (s : SnapJob) (step : StepNo) (c : Core) : Core :=
  match c.job? s.plan with
  | none => c
  | some j =>
    let k := s.seq.toNat % max (snapAreas s.block) 1
    (c.modSnap s.plan (fun s => { s with zeroing := some step })).issueIo
      { id := 0, tenant := j.tenant, target := snapManTarget s.block, op := 1, lba := snapManLba s.block k, lbas := 1, plan := s.plan, seq := s.seq, what := .zeroLba }

/-- A step has sealed (R384): on a snapshot step the snapshot vote follows, on the manifest writer after the first LBA of its manifest slot is zeroed and
flushed. -/
def Core.snapOnSeal (h : Nat) (step : StepNo) (c : Core) : Core :=
  match c.job? h, c.snapJob? h with
  | some j, some s =>
    let every := snapEvery s.block
    let due := (every != 0 && step.toNat % every == 0) || s.nowStep == some step
    if due then
      let c1 := c.modSnap h (fun s => { s with sealAt := c.clk.count })
      if c.isWriter h s.block then c1.zeroSlot s step
      else c1.snapVote j s step
    else c
  | _, _ => c

/-- The stripes that this module writes of a snapshot (R382, R390): each entry's stripe, laid one after another in its area. -/
def Core.snapStripes (c : Core) (p : Plan) (j : Job) (s : SnapJob) : List StripeRep :=
  let kind := snapKind s.block
  let t := j.logicalModule % max (snapTcount s.block) 1
  let base := snapArea s.block j.logicalModule (s.seq.toNat % max (snapAreas s.block) 1)
  let nsid := fieldAt (c.targetOf j.tenant t).desc 20 4
  let one := fun (acc : List StripeRep × Nat) (ie : Nat × SealEnt) =>
    let (i, e) := ie
    let g := snapRepl s.block i
    let grp := if g = 0xFE then none else p.groups.find? (fun q => q.index == g && q.rank.isSome)
    let n := e.extents
    let (lo, hi, members, holders) := match grp with
      | some q =>
        let r := q.rank.getD 0
        let k := max q.members.length 1
        (r * n / k, (r + 1) * n / k, q.members, slice q.raw 0 8 ++ slice q.raw 16 6)
      | none => (0, n, [j.logicalModule], List.replicate 14 0)
    if lo = hi then acc
    else
      (acc.1 ++ [{ writer := j.logicalModule, entry := i, cls := e.cls, extents := n, repl := if grp.isSome then g else 0xFE, holders := holders,
                   members := members, first := lo, count := hi - lo, total := n, target := t, nsid := nsid, lba := base + acc.2 }],
       acc.2 + (hi - lo) * (pieceBytes kind e.cls / 4096))
  (((List.range j.sealMap.length).zip j.sealMap).foldl one ([], 0)).1

/-- A snapshot vote ends (R384): a consistent result with lane 0 at 0 takes the snapshot into the lower free slot; anything else skips it. -/
def snapVoteResult (h : Nat) (res : List Byte) (err : Bool) (m : Mach) : Mach :=
  match m.core.job? h, m.core.plan? h, m.core.snapJob? h with
  | some j, some p, some s =>
    match s.voted with
    | none => m
    | some step =>
      let (r, m1) := m.voteEnd h 0x3FFE res err
      match r with
      | none => m
      | some out =>
        let ok := match out with
          | some b => laneAgree b 1 && laneAgree b 3 && laneAgree b 5 && lane b 0 == 0 && lane b 1 == step.toNat &&
              lane b 3 == fieldAt s.block 252 4 && lane b 5 == s.seq.toNat
          | none => false
        m1.up (fun c =>
          let c1 := c.modSnap h (fun s => { s with voted := none, nowStep := if s.nowStep == some step then none else s.nowStep })
          match (List.range 2).find? (fun i => (c1.spool.slots.getD i none).isNone) with
          | some i =>
            if ok then
              let slot : SnapSlot :=
                { plan := h, step := step, seq := s.seq, block := s.block, at_ := c.clk.count, stripes := c.snapStripes p j s }
              let c2 := (c1.modSnap h (fun s => { s with seq := s.seq + 1 })).modSpool (fun q =>
                { q with
                  slots := setAt q.slots i (some slot)
                  lastSeq := s.seq
                  manifests := if c.isWriter h s.block then q.manifests ++ [{ plan := h, step := step, seq := s.seq, sealCount := s.sealAt }] else q.manifests })
              c2.modJob h (fun j => { j with writeHold := c2.mustHold j })
            else (c1.unsolicited j.tenant.toNat 0xF4 (details [(6, 2, h), (8, 5, step.toNat)])).modSpool (fun q => { q with skipped := satInc q.skipped })
          | none => (c1.unsolicited j.tenant.toNat 0xF4 (details [(6, 2, h), (8, 5, step.toNat)])).modSpool (fun q => { q with skipped := satInc q.skipped }))
  | _, _, _ => m

/-- SNAPSHOT_VOTE_RESULT (R384): the plan, the result where no frame of this module has carried it, and whether the operation ended with an error. -/
def execSnapshotVoteResult (plan : Nat) (res : List (BitVec 8)) (err : Bool) (s : State) : Host.Outcome State Fault Refusal :=
  runM (snapVoteResult plan res err) s

/-! ### The copy and the drain (R386 to R388, R395) -/

/-- FP32 bytes as BF16 bytes, rounded to nearest even with SAT 0 (R387). -/
def exportBytes (bs : List Byte) : List Byte :=
  (chunks 4 bs).flatMap (fun w => bytesLE 2 (bf16P.convert false false 0 (f32 (BitVec.ofNat 32 (natLE w)))))

/-- One half of an extent copied into a slot. -/
def Mach.copyHalf (export_ : Bool) (src slot off : Nat) (m : Mach) : Mach :=
  let d := m.core.slotKey slot off
  let n := if export_ then 2 ^ 24 else 2 ^ 25
  let m1 := if export_ then m.write (.bytes d (exportBytes (memBytes m.mem src (2 ^ 25)))) else m.write (.copy d src (2 ^ 25))
  (m1.write (.poison (d / 64) (n / 64) false)).up (Core.wrote d (n / 64))

/-- The source extents of a snapshot (R386): those that were CUR when its step sealed. -/
def Core.snapSources (c : Core) (p : Plan) (j : Job) (s : SnapSlot) : List (Nat × Nat × Option Nat) :=
  let later := (j.step - (s.step + 1)).toNat % 2 == 1
  ((List.range j.sealMap.length).zip j.sealMap).flatMap (fun ie =>
    (c.extKeys p (if later then ie.2.nextOff else ie.2.curOff).toNat ie.2.extents).mapIdx (fun x k => (ie.1, x, k)))

/-- The drain goes on (R395): the first stripe not yet written of the oldest draining snapshot begins, unless a stripe is under way. A poisoned unit in
the stripe fails the snapshot. -/
def Mach.drainNext (m : Mach) : Mach :=
  let busy := m.core.spool.io.any (fun x => match x.what with | .stripe _ => true | .stripeFlush _ => true | _ => false)
  let ready := (List.range 2).filterMap (fun i => (m.core.spool.slots.getD i none).bind (fun s =>
    if s.phase == .draining && decide (s.done < s.stripes.length) then some (i, s) else none))
  let pick := ready.foldl (fun (b : Option (Nat × SnapSlot)) e => match b with | some q => if e.2.at_.toNat < q.2.at_.toNat then some e else b | none => some e) none
  match (if busy then none else pick) with
  | none => m
  | some (i, s) =>
    match m.core.job? s.plan, s.stripes[s.done]? with
    | some j, some r =>
      let kind := snapKind s.block
      let off := entryOff kind j.sealMap r.entry + r.first * pieceBytes kind r.cls
      let bytes := r.count * pieceBytes kind r.cls
      if (List.range (bytes / 2 ^ 24)).any (fun q => memPoisoned m.mem (m.core.slotKey i (off + q * 2 ^ 24) / 64) (2 ^ 18)) then
        m.up (Core.snapFail s.plan s.seq 1)
      else
        m.up (Core.issueIo
          { id := 0, tenant := j.tenant, target := r.target, op := 1, lba := r.lba, lbas := min (bytes / 4096) (m.core.targetOf j.tenant r.target).maxLbas,
            plan := s.plan, seq := s.seq, what := .stripe s.done })
    | _, _ => m

/-- Kite operations that compare replicas (R391): one per piece of every replicated entry, over its digest and the complement. -/
def Mach.replicaChecks (h slot : Nat) (m : Mach) : Mach :=
  match m.core.job? h, m.core.spool.slots.getD slot none, m.core.plan? h with
  | some j, some s, some p =>
    if !(snapCheck s.block) then m
    else
      let kind := snapKind s.block
      ((List.range j.sealMap.length).zip j.sealMap).foldl (fun m ie =>
        match p.groups.find? (fun q => q.index == snapRepl s.block ie.1 && q.rank.isSome) with
        | none => m
        | some q =>
          (List.range ie.2.extents).foldl (fun m x =>
            let n := pieceBytes kind ie.2.cls
            let d := sha256 (memBytes m.mem (m.core.slotKey slot (entryOff kind j.sealMap ie.1 + x * n)) n)
            m.up (fun c =>
              let o : KiteOp :=
                { plan := h, group := BitVec.ofNat 8 q.index, seq := BitVec.ofNat 14 (c.kiteNext h q.index), epoch := epochOf j.step j.attempt,
                  op := 2, width := 3, submitter := 4 }
              (c.kiteBump h q.index 1).kiteSubmit o (d ++ d.map (fun b => ~~~b)))) m) m
  | _, _, _ => m

/-- The copy into a slot ends (R386 to R388): the extents are stored, the write-hold lifts, and the drain begins. An uncorrectable or poisoned unit met by
the copy fails the snapshot. -/
def snapCopied (h : Nat) (found : List MemErr) (m : Mach) : Mach :=
  match m.core.job? h, m.core.plan? h, (List.range 2).find? (fun i => match m.core.spool.slots.getD i none with | some s => s.plan == h && s.phase == .copying | none => false) with
  | some j, some p, some i =>
    match m.core.spool.slots.getD i none with
    | none => m
    | some s =>
      let m1 := m.meetFor j.tenant (some h) 1 found
      let src := m1.core.snapSources p j s
      if src.any (fun e => match e.2.2 with | some k => memPoisoned m1.mem (k / 64) (2 ^ 20) | none => false) then m1.up (Core.snapFail h s.seq 1)
      else
        let kind := snapKind s.block
        let m2 := src.foldl (fun m e =>
          match e.2.2, j.sealMap[e.1]? with
          | some k, some en =>
            let n := pieceBytes kind en.cls
            let ex := kind = 2 && en.cls = 0
            let off := entryOff kind j.sealMap e.1 + e.2.1 * n
            (m.copyHalf ex k i off).copyHalf ex (k + 2 ^ 25) i (off + n / 2)
          | _, _ => m) m1
        let m3 := m2.up (fun c =>
          let c1 := c.modSlot i (fun s => { s with phase := .draining })
          c1.modJob h (fun j => { j with writeHold := c1.mustHold j }))
        (m3.replicaChecks h i).drainNext
  | _, _, _ => m

/-- SNAPSHOT_COPY_DONE (R386): the plan, and the memory errors the copy finds. -/
def execSnapshotCopyDone (plan : Nat) (found : List MemErr) (s : State) : Host.Outcome State Fault Refusal := runM (snapCopied plan found) s

/-! ### Reports and the manifest (R396, R397) -/

/-- The shard a report belongs to: the member of rank 0, and the entry. -/
def StripeRep.shard (r : StripeRep) : Nat × Nat := (r.members.headD r.writer, r.entry)

/-- Whether the reports cover every piece of every shard of a job of `mods` modules, each with `entries` seal-map entries (R396 step 1;
notes/assumptions/49). -/
def covered (mods entries : Nat) (rs : List StripeRep) : Bool :=
  (List.range mods).all (fun lm => (List.range entries).all (fun e =>
    match rs.find? (fun r => r.entry == e && r.members.contains lm) with
    | none => false
    | some q => (List.range q.total).all (fun x => rs.any (fun r => r.shard == q.shard && inRange x r.first r.count))))

/-- Reports sorted by logical module, entry and first piece. -/
def sortReps (rs : List StripeRep) : List StripeRep :=
  rs.mergeSort (fun a b =>
    let k := fun (r : StripeRep) => (r.shard.1 * 64 + r.shard.2) * 2 ^ 32 + r.first
    decide (k a ≤ k b))

/-- A stripe entry (Table 11-5). -/
def StripeRep.bytes (r : StripeRep) : List Byte :=
  bytesLE 2 r.writer ++ [0] ++ bytesLE 1 r.target ++ List.replicate 8 0 ++ bytesLE 4 r.first ++ bytesLE 4 r.count ++ bytesLE 4 r.nsid ++ bytesLE 8 r.lba

/-- FMT of a shard entry (Table 11-4). -/
def shardFmt (kind cls : Nat) : Nat := match cls with | 0 => if kind = 2 then 1 else 0 | 1 => 9 | 2 => 0xA | _ => 0xFF

/-- A shard entry (Table 11-4) from the reports of its stripes, with the indexes of its first stripe and first digest. -/
def shardBytes (kind : Nat) (rs : List StripeRep) (stripe0 digest0 : Nat) : List Byte :=
  match rs with
  | [] => []
  | r :: _ =>
    List.replicate 8 0 ++ bytesLE 2 r.shard.1 ++ bytesLE 1 r.repl ++ bytesLE 1 r.entry ++ bytesLE 1 r.cls ++ bytesLE 1 (shardFmt kind r.cls) ++
    bytesLE 4 r.extents ++ bytesLE 4 r.total ++ bytesLE 2 rs.length ++ bytesLE 4 stripe0 ++ bytesLE 4 digest0 ++ padTo 16 r.holders ++
    sha256 (rs.flatMap (fun q => q.digests.flatten)) ++ bytesLE 8 (r.total * pieceBytes kind r.cls) ++ List.replicate 40 0

/-- HMAC-SHA-256 (Table 11-6). -/
def hmac (key msg : List Byte) : List Byte :=
  let k := padTo 64 key
  sha256 (k.map (fun b => b ^^^ 0x5C) ++ sha256 (k.map (fun b => b ^^^ 0x36) ++ msg))

/-- The stripes of each shard, in shard order. -/
def shardsOf (rs : List StripeRep) : List (List StripeRep) :=
  let s := sortReps rs
  let keys := s.foldl (fun l r => if l.contains r.shard then l else l ++ [r.shard]) []
  keys.map (fun k => s.filter (fun r => r.shard == k))

/-- SLICE of a manifest header (Table 11-3). -/
def Core.sliceBytes (c : Core) (p : Plan) : List Byte :=
  bytesLE 1 p.hdr.sliceKind ++ bytesLE 1 p.hdr.sliceK ++ bytesLE 1 p.hdr.tx ++ bytesLE 1 p.hdr.ty ++ bytesLE 1 p.hdr.tz ++
  bytesLE 1 c.fab.cfg.ballast ++ bytesLE 1 p.hdr.profile ++ bytesLE 1 p.hdr.grade ++ List.replicate 8 0

/-- The manifest of a snapshot (R397). The plans of a job's modules have one DIGEST, since their seal votes agree on it (10 R351;
notes/assumptions/49). -/
def Core.manifest (c : Core) (p : Plan) (j : Job) (block key : List Byte) (r : ManifestRun) : List Byte :=
  let kind := snapKind block
  let sh := shardsOf r.reports
  let stripes := sh.flatten
  let shards := (sh.foldl (fun (a : List Byte × Nat × Nat) rs =>
    (a.1 ++ shardBytes kind rs a.2.1 a.2.2, a.2.1 + rs.length, a.2.2 + sumNat (rs.map (fun q => q.digests.length)))) ([], 0, 0)).1
  let digests := stripes.flatMap (fun q => q.digests.flatten)
  let total := sumNat (sh.map (fun rs => match rs with | q :: _ => q.total * pieceBytes kind q.cls | [] => 0))
  let head := padTo 256 (
    bytesLE 4 0x4E414D53 ++ bytesLE 2 1 ++ bytesLE 2 c.ident.fwMajor.toNat ++ List.replicate 16 0 ++ bytesLE 8 r.step.toNat ++ List.replicate 12 0 ++
    bytesLE 1 j.tenant.toNat ++ bytesLE 1 kind ++ bytesLE 2 p.hdr.modCount ++ bytesLE 4 r.seq.toNat ++ bytesLE 4 sh.length ++ bytesLE 4 stripes.length ++
    bytesLE 4 (digests.length / 32) ++ bytesLE 8 total ++ bytesLE 8 r.sealCount.toNat ++ c.sliceBytes p ++
    sha256 ((List.replicate p.hdr.modCount p.hdr.digest).flatten) ++ padTo 32 p.hdr.shapeDigest)
  let body := head ++ shards ++ stripes.flatMap StripeRep.bytes ++ digests
  let tr := bytesLE 4 (body.length + 64) ++ bytesLE 1 (fieldAt block 11 1) ++ List.replicate 3 0
  body ++ tr ++ hmac key (body ++ tr) ++ List.replicate 24 0

/-- The next command of a manifest's write from LBA `o` on, or its flush when every LBA is written. -/
def Core.manifestIo (j : Job) (block : List Byte) (r : ManifestRun) (o : Nat) (c : Core) : Core :=
  let n := ceilDiv (r.writing.getD []).length 4096
  let t := snapManTarget block
  let lba := snapManLba block (r.seq.toNat % max (snapAreas block) 1)
  let x : IoCmd := { id := 0, tenant := j.tenant, target := t, op := 0, lba := lba, lbas := 0, plan := r.plan, seq := r.seq, what := .manifestFlush }
  c.issueIo (if o < n then { x with op := 1, lba := lba + o, lbas := min (n - o) (c.targetOf j.tenant t).maxLbas, what := .manifest } else x)

/-- A stripe report taken by the manifest writer (R396): when every shard is covered, the manifest is formed and its write begins. -/
def Core.takeReport (h : Nat) (n : BitVec 32) (rep : StripeRep) (c : Core) : Core :=
  match c.job? h, c.plan? h, c.slotOf h n, c.spool.manifests.find? (fun r => r.plan == h && r.seq == n) with
  | some j, some p, some (_, s), some r =>
    if r.writing.isSome || r.reports.any (fun q => q.writer == rep.writer && q.entry == rep.entry) then c
    else
      let r1 := { r with reports := r.reports ++ [rep] }
      let put := fun (x : ManifestRun) (c : Core) => c.modSpool (fun q => { q with manifests := q.manifests.filter (fun y => !(y.plan == h && y.seq == n)) ++ [x] })
      if !(covered p.hdr.modCount j.sealMap.length r1.reports) then put r1 c
      else if r1.reports.any (fun a => r1.reports.any (fun b => a.shard == b.shard && a.total != b.total)) then c.snapFailAll h s.step n 4
      else
        let key := (lookup? (j.tenant, fieldAt s.block 11 1) c.spool.keys).getD (List.replicate 32 0)
        let bytes := c.manifest p j s.block key r1
        if fieldAt s.block 32 4 * 4096 < bytes.length then c.snapFailAll h s.step n 8
        else (put { r1 with writing := some bytes } c).manifestIo j s.block { r1 with writing := some bytes } 0
  | _, _, _, _ => c

/-- STRIPE_REPORT_RECEIVED (R396). -/
def execStripeReportReceived (plan : Nat) (seq : BitVec 32) (rep : StripeRep) (s : State) : Host.Outcome State Fault Refusal :=
  runC (fun _ _ c => c.takeReport plan seq rep) s

/-- The digests of a stripe's pieces (R389), from the slot. -/
def Mach.stripeDigests (m : Mach) (slot : Nat) (j : Job) (kind : Nat) (r : StripeRep) : List (List Byte) :=
  let n := pieceBytes kind r.cls
  tabulate r.count (fun x => sha256 (memBytes m.mem (m.core.slotKey slot (entryOff kind j.sealMap r.entry + (r.first + x) * n)) n))

/-- Every stripe of a snapshot is flushed (R396): one report per stripe goes to the manifest writer, and the slot is free once the writer has said that the
snapshot is complete. -/
def stripeFlushed (h : Nat) (n : BitVec 32) (m : Mach) : Mach :=
  match m.core.job? h, m.core.plan? h, m.core.slotOf h n with
  | some j, some p, some (i, s) =>
    if s.phase == .draining && s.done == s.stripes.length then
      let reps := s.stripes.map (fun r => { r with digests := m.stripeDigests i j (snapKind s.block) r })
      let m1 := m.up (Core.modSlot i (fun s => { s with phase := .flushed }))
      let m2 := reps.foldl (fun m r =>
        m.up (fun c =>
          if c.isWriter h s.block then c.takeReport h n r
          else c.emit (.vc7 (c.physOf p (snapWriter s.block)) 10 (h :: n.toNat :: r.entry :: (r.bytes ++ r.digests.flatten).map BitVec.toNat)))) m1
      if s.complete then m2.up (Core.snapFree h n) else m2
    else m
  | _, _, _ => m

/-- STRIPE_FLUSHED (R396). -/
def execStripeFlushed (plan : Nat) (seq : BitVec 32) (s : State) : Host.Outcome State Fault Refusal := runM (stripeFlushed plan seq) s

/-- A snapshot is complete (R396 steps 3 and 4): a module frees its slot when its own drain has ended. -/
def Core.snapComplete (h : Nat) (n : BitVec 32) (step : StepNo) (c : Core) : Core :=
  let c1 := c.modSnap h (fun s => { s with last := some (n, step) })
  match c1.slotOf h n with
  | none => c1
  | some (i, s) => if s.phase == .flushed then c1.snapFree h n else c1.modSlot i (fun s => { s with complete := true })

/-- SNAP_COMPLETE_NOTICE (R396). -/
def execSnapCompleteNotice (plan : Nat) (seq : BitVec 32) (step : StepNo) (s : State) : Host.Outcome State Fault Refusal :=
  runC (fun _ _ c => c.snapComplete plan seq step) s

/-- MANIFEST_WAIT_TIMEOUT (R396): reports still missing MANIFEST_WAIT after the vote fail the snapshot with TIMEOUT. -/
def manifestTimeout (h : Nat) (n : BitVec 32) (c : Core) : Core :=
  match c.spool.manifests.find? (fun r => r.plan == h && r.seq == n) with
  | some r => if r.writing.isSome then c else c.snapFailAll h r.step n 5
  | none => c

/-- MANIFEST_WAIT_TIMEOUT (R396): plan and SEQ. -/
def execManifestWaitTimeout (plan : Nat) (seq : BitVec 32) (s : State) : Host.Outcome State Fault Refusal :=
  runC (fun _ _ c => manifestTimeout plan seq c) s

/-- SNAP_STEP_NOTICE (R384): the step that the manifest writer named. -/
def execSnapStepNotice (plan : Nat) (step : StepNo) (s : State) : Host.Outcome State Fault Refusal :=
  runC (fun _ _ c => c.modSnap plan (fun s => { s with nowStep := some step })) s

/-! ### Completions and connections (R393, R394) -/

/-- A target's connection is made: a waiting CKPT_TARGET_SET succeeds, or fails with TARGET_INVALID when the target does not meet R393 (`lim` LBAs is its
largest transfer, 0 that its namespace or queues do not fit); commands that waited are sent again. -/
def Core.connected (t : TenantId) (i lim : Nat) (c : Core) : Core :=
  match lookup? (t, i) c.spool.targets with
  | none => c
  | some g =>
    let ok := decide (16 ≤ lim)
    let c1 := c.modSpool (fun q => { q with targets := insertKey (t, i) { g with connected := ok, maxLbas := min lim 256, waiting := none } q.targets })
    let c2 := match g.waiting with
      | some a => c1.reply a (if ok then 0 else 0x502) []
      | none => c1
    if ok then (c2.spool.io.filter (fun x => x.tenant == t && x.target == i)).foldl (fun c x => c.sendIo x) c2 else c2

/-- A connection is begun: Connect on the admin queue (Table 11-2). -/
def Core.connect (t : TenantId) (i : Nat) (c : Core) : Core :=
  c.issueIo { id := 0, tenant := t, target := i, op := 0x7F, lba := 0, lbas := 0, what := .connect }

/-- A command ended with success: what follows it. -/
def Mach.ioDone (x : IoCmd) (lim : Nat) (m : Mach) : Mach :=
  let c := m.core
  match x.what with
  | .connect => m.up (Core.connected x.tenant x.target lim)
  | .stripe k =>
    match c.slotOf x.plan x.seq with
    | none => m
    | some (_, s) =>
      match s.stripes[k]? with
      | none => m
      | some r =>
        let last := r.lba + r.count * (pieceBytes (snapKind s.block) r.cls / 4096)
        let next := x.lba + x.lbas
        if next < last then m.up (Core.issueIo { x with retries := 0, lba := next, lbas := min (last - next) (c.targetOf x.tenant x.target).maxLbas })
        else m.up (Core.issueIo { x with retries := 0, op := 0, lbas := 0, what := .stripeFlush k })
  | .stripeFlush _ =>
    match c.slotOf x.plan x.seq with
    | none => m
    | some (i, _) => (m.up (Core.modSlot i (fun s => { s with done := s.done + 1 }))).drainNext
  | .zeroLba => m.up (Core.issueIo { x with retries := 0, op := 0, lbas := 0, what := .zeroFlush })
  | .zeroFlush =>
    match c.job? x.plan, c.snapJob? x.plan with
    | some j, some s =>
      match s.zeroing with
      | some step => m.up (fun c => (c.modSnap x.plan (fun s => { s with zeroing := none })).snapVote j s step)
      | none => m
    | _, _ => m
  | .manifest =>
    match c.job? x.plan, c.slotOf x.plan x.seq, c.spool.manifests.find? (fun r => r.plan == x.plan && r.seq == x.seq) with
    | some j, some (_, s), some r =>
      m.up (Core.manifestIo j s.block r (x.lba + x.lbas - snapManLba s.block (r.seq.toNat % max (snapAreas s.block) 1)))
    | _, _, _ => m
  | .manifestFlush =>
    match c.job? x.plan, c.spool.manifests.find? (fun r => r.plan == x.plan && r.seq == x.seq) with
    | some j, some r =>
      m.up (fun c =>
        let c1 := c.modSpool (fun q => { q with manifests := q.manifests.filter (fun y => !(y.plan == x.plan && y.seq == x.seq)) })
        ((c1.unsolicited j.tenant.toNat 0xF2 (snapDetail x.plan r.step r.seq 0)).emit (.vc7 0xFFFF 11 [x.plan, r.seq.toNat, r.step.toNat])).snapComplete
          x.plan r.seq r.step)
    | _, _ => m

/-- The manifest writer cannot zero its manifest slot: it submits no vote and skips the snapshot, as the others do when the vote ends without it (R384). -/
def Core.zeroFailed (h : Nat) (c : Core) : Core :=
  match c.job? h, (c.snapJob? h).bind (fun s => s.zeroing) with
  | some j, some step =>
    ((c.modSnap h (fun s => { s with zeroing := none, nowStep := if s.nowStep == some step then none else s.nowStep })).unsolicited j.tenant.toNat 0xF4
      (details [(6, 2, h), (8, 5, step.toNat)])).modSpool (fun q => { q with skipped := satInc q.skipped })
  | _, _ => c

/-- A command that has failed after its retries (R394): the snapshot fails with STORE; a connection stays unmade. -/
def Core.ioFailed (x : IoCmd) (c : Core) : Core :=
  match x.what with
  | .connect => c
  | .zeroLba => c.zeroFailed x.plan
  | .zeroFlush => c.zeroFailed x.plan
  | _ => c.snapFail x.plan x.seq 2

/-- An NVMe command completes (R394): an error status is retried up to three times on the other storage port. -/
def nvmeCompletion (id : Nat) (ok : Bool) (lim : Nat) (found : List MemErr) (m : Mach) : Mach :=
  match m.core.spool.io.find? (fun x => x.id == id) with
  | none => m
  | some x =>
    let drop := fun (c : Core) => c.modSpool (fun q => { q with io := q.io.filter (fun y => !(y.id == id)) })
    if ok then
      let m1 := (m.scrub 1 found).up (fun c => (drop c).countLbas (if x.op = 1 then x.lbas else 0))
      if found.any (fun e => e.unc) then m1.up (Core.snapFail x.plan x.seq 1) else m1.ioDone x lim
    else if x.retries < 3 then
      m.up (fun c =>
        let y := { x with retries := x.retries + 1, port := (c.targetOf x.tenant x.target).other x.port }
        (c.modSpool (fun q => { q with io := q.io.map (fun z => if z.id == id then y else z), retries := satInc q.retries })).sendIo y)
    else m.up (fun c => (drop c).ioFailed x)

/-- NVME_COMPLETION (R394): the command's number, whether it succeeded, for a Connect what the target offers, and the memory errors that the transfer out of the
slot found. -/
def execNvmeCompletion (id : Nat) (ok : Bool) (lim : Nat) (found : List MemErr) (s : State) : Host.Outcome State Fault Refusal :=
  runM (nvmeCompletion id ok lim found) s

/-- NVME_CONNECTION_LOST (R394): a lost connection is established again. -/
def connectionLost (t : TenantId) (i : Nat) (c : Core) : Core :=
  match lookup? (t, i) c.spool.targets with
  | none => c
  | some g =>
    if g.connected then (c.modSpool (fun q => { q with targets := insertKey (t, i) { g with connected := false } q.targets })).connect t i else c

/-- NVME_CONNECTION_LOST (R394): tenant and target. -/
def execNvmeConnectionLost (tenant : TenantId) (target : Nat) (s : State) : Host.Outcome State Fault Refusal :=
  runC (fun _ _ c => connectionLost tenant target c) s

/-- A target stays unconnected for 30 s (R394): the snapshots in progress that use it fail with STORE, and one whose manifest slot waits to be zeroed is
skipped. -/
def unconnected (t : TenantId) (i : Nat) (c : Core) : Core :=
  match lookup? (t, i) c.spool.targets with
  | none => c
  | some g =>
    if g.connected then c
    else
      let live := c.spool.slots.filterMap (fun o => o.bind (fun s =>
        match c.job? s.plan with
        | some j =>
          let man := c.isWriter s.plan s.block && snapManTarget s.block == i
          if j.tenant == t && (man || (s.phase != .flushed && s.stripes.any (fun r => r.target == i))) then some s else none
        | none => none))
      let zero := c.spool.io.filter (fun x => x.tenant == t && x.target == i && (x.what == .zeroLba || x.what == .zeroFlush))
      zero.foldl (fun c x => (c.modSpool (fun q => { q with io := q.io.erase x })).zeroFailed x.plan) (live.foldl (fun c s => c.snapFail s.plan s.seq 2) c)

/-- TARGET_UNCONNECTED_TIMEOUT (R394): tenant and target. -/
def execTargetUnconnectedTimeout (tenant : TenantId) (target : Nat) (s : State) : Host.Outcome State Fault Refusal :=
  runC (fun _ _ c => unconnected tenant target c) s

/-- A connection not made within 10 s (R393): CKPT_TARGET_SET fails with TARGET_UNREACHABLE. -/
def connectTimeout (t : TenantId) (i : Nat) (c : Core) : Core :=
  match lookup? (t, i) c.spool.targets with
  | none => c
  | some g =>
    match g.waiting with
    | none => c
    | some a =>
      (c.modSpool (fun q =>
        { q with targets := eraseKey (t, i) q.targets, io := q.io.filter (fun x => !(x.what == .connect && x.tenant == t && x.target == i)) })).reply a 0x501 []

/-- TARGET_CONNECT_TIMEOUT (R393): tenant and target. -/
def execTargetConnectTimeout (tenant : TenantId) (target : Nat) (s : State) : Host.Outcome State Fault Refusal :=
  runC (fun _ _ c => connectTimeout tenant target c) s

/-- KEEP_ALIVE (Table 11-2): a Keep Alive to every connected target. -/
def execKeepAlive (s : State) : Host.Outcome State Fault Refusal :=
  runC (fun _ _ c => (c.spool.targets.filter (fun e => e.2.connected)).foldl (fun c e =>
    c.emit (.nvme e.1.2 0x18 [e.2.port, e.1.1.toNat])) c) s

/-! ### Kite operations that end (09 R314, 11 R391) -/

/-- Whether a replica comparison agreed: bytes 32 to 63 are the complement of bytes 0 to 31 (R391). -/
def replicasAgree (r : List Byte) : Bool := (padTo 64 r).drop 32 == (r.take 32).map (fun b => ~~~b)

/-- A replica comparison that does not agree (R391): REPLICA_DIVERGED to the tenant and to tenant 0, and the snapshot fails. -/
def Core.replicaDiverged (h : Nat) (c : Core) : Core :=
  match c.job? h, c.spool.slots.filterMap (fun o => o.bind (fun s => if s.plan == h && (s.phase == .draining || s.phase == .flushed) then some s else none)) with
  | some j, s :: _ => (c.logBoth (jobRec j (modRec 0x608 7 2 0x21 0x11 0))).snapFail h s.seq 3
  | _, _ => c

/-- A kite operation ends on this module; one that compares replicas is judged. -/
def kiteComplete (plan : Nat) (g : BitVec 8) (seq : BitVec 14) (res : List Byte) (m : Mach) : Mach :=
  match m.core.plan? plan, m.core.kiteDone plan g seq res with
  | some p, some o =>
    let m1 := finishKite p o (m.up (Core.putKite o))
    if o.submitter = 4 && !(match o.result with | some r => replicasAgree r | none => true) then m1.up (Core.replicaDiverged plan) else m1
  | _, _ => m

/-- KITE_OPERATION_COMPLETE (09 R314): the group and SEQ, and the result where no frame of this module has carried it. -/
def execKiteOperationComplete (plan : Nat) (g : BitVec 8) (seq : BitVec 14) (res : List (BitVec 8)) (s : State) : Host.Outcome State Fault Refusal :=
  runM (kiteComplete plan g seq res) s

end Sys2Proof.Machine
end

