-- ==== Sys2Proof/Machine/Votes.lean ====
section
/-!
DEFINITION. The results of seal votes (10_seal_replay_tether.md R352) and lateness votes (12_health_and_errors.md R427, R428).
-/

namespace Sys2Proof.Machine

/-- λ of a step's verdict (12 R427). -/
def Verdict.late (v : Verdict) : Nat := if v.finalAt.toNat ≤ v.edge.toNat then 0 else min (v.finalAt.toNat - v.edge.toNat) (2 ^ 32 - 1)

/-- LAST_COUNT (12 R428). -/
def Health.lastCount (h : Health) : Nat := (h.window.filter (fun e => e.2.2)).length

/-- The late-to-seal score judged (12 R428): SUSPECT is set, with its record, when a step just `counted` makes LAST_COUNT reach THRESHOLD, and clears below half
of it. -/
def Core.judgeLate (counted : Bool) (j : Job) (lam : Nat) (c : Core) : Core :=
  let n := c.health.lastCount
  let th := c.health.threshold.toNat
  if th = 0 then c
  else if counted && n == th && !c.health.suspect then
    let r := jobRec j { modRec 0x609 6 1 0x28 0x0F 0 with detail := bytesLE 2 n ++ bytesLE 4 (lam / 1000) }
    let c1 := c.logRec r
    { c1 with health := { c1.health with suspect := true, fullPending := true } }
  else if n < th / 2 then { c with health := { c.health with suspect := false } }
  else c

/-- A sealed step enters the window of 1,024 (12 R428). -/
def Core.windowPush (h : Nat) (s : StepNo) (lam : Nat) (c : Core) : Core :=
  { c with health := { c.health with
      window := ((h, s, false) :: c.health.window).take 1024, lastLate := BitVec.ofNat 16 (min (lam / 1000) 0xFFFF) } }

/-- A step is sealed (10 R352): the mirror of the step starts, or the unmirrored vote follows at once; a snapshot vote and, for a job of several modules, a
lateness vote are submitted. -/
def Mach.sealStep (h : Nat) (s : StepNo) (m : Mach) : Mach :=
  match m.core.job? h, m.core.plan? h with
  | some j, some p =>
    let lam := (j.verdict s).late
    let m1 := m.up (fun c =>
      let c1 := (c.modJob h (Job.sealed s)).snapOnSeal h s
      let c2 := c1.windowPush h s lam
      let c3 := c2.judgeLate false j lam
      if decide (1 < p.hdr.modCount) then
        (c3.modJob h (fun j => { j with votes := (j.votes ++ [(4, s)]).drop (j.votes.length - 15) })).vote j 0x3FFD (laneBytes [lam, s.toNat, laneNot s.toNat])
      else c3)
    if m1.core.led.alone then m1.mirrorVoted h s true
    else m1.mirrorStep p j s
  | _, _ => m

/-- A seal vote ends (10 R352): a consistent clean result for the step seals it; anything else fails it. -/
def sealResult (h : Nat) (res : List Byte) (err : Bool) (m : Mach) : Mach :=
  match m.core.job? h with
  | none => m
  | some j =>
    let s := j.step - 1
    if !(j.votes.contains (0, s)) || !(stepLater s j.lastSealed) then m
    else
      let (r, m1) := m.voteEnd h 0 res err
      match r with
      | none => m
      | some none => m1.up (Core.sealFailed h s none)
      | some (some b) =>
        if sealConsistent b (j.verdict s).attempt && lane b 0 == 0 && lane b 1 == s.toNat then m1.sealStep h s
        else m1.up (Core.sealFailed h s (some b))

/-- SEAL_VOTE_RESULT (10 R352): the plan, the result where no frame of this module has carried it, and whether the operation ended with an error. -/
def execSealVoteResult (plan : Nat) (res : List (BitVec 8)) (err : Bool) (s : State) : Host.Outcome State Fault Refusal :=
  runM (sealResult plan res err) s

/-- The newest entry of a step of a job in the window counted as last. -/
def countLast (h : Nat) (s : StepNo) : List (Nat × BitVec 40 × Bool) → List (Nat × BitVec 40 × Bool)
  | [] => []
  | e :: es => if e.1 == h && e.2.1 == s then (h, s, true) :: es else e :: countLast h s es

/-- A lateness vote ends (12 R427): the module counts itself last when the greatest λ is its own and at least LATE_MIN. -/
def latenessResult (h : Nat) (res : List Byte) (err : Bool) (m : Mach) : Mach :=
  match m.core.job? h with
  | none => m
  | some j =>
    let s := j.lastSealed
    let (r, m1) := m.voteEnd h 0x3FFD res err
    match r with
    | some (some b) =>
      let lam := (j.verdict s).late
      if laneAgree b 1 && lane b 1 == s.toNat && lane b 0 == lam && decide (m1.core.health.lateMin.toNat * 1000 ≤ lam) then
        m1.up (fun c =>
          let c1 := { c with health := { c.health with window := countLast h s c.health.window } }
          c1.judgeLate true j lam)
      else m1
    | _ => m1

/-- LATENESS_VOTE_RESULT (12 R427). -/
def execLatenessVoteResult (plan : Nat) (res : List (BitVec 8)) (err : Bool) (s : State) : Host.Outcome State Fault Refusal :=
  runM (latenessResult plan res err) s

end Sys2Proof.Machine
end

