-- ==== Sys2Proof/Machine/Ballast.lean ====
section
/-!
DEFINITION. The tether mirror as its partner receives it, the loss of a partner and ballast admission (10_seal_replay_tether.md R365 to R374), and the
notices that start a rollback (10 R361, R371; 12 R420; 14 R485).
-/

namespace Sys2Proof.Machine

/-! ### Edges -/

/-- The first beat edge at or after a counter value (06 R156); the value itself when no beat is set. -/
def Core.edgeAfter (c : Core) (t : Nat) : BitVec 64 :=
  if c.clk.epochSet then
    let len := max (c.clk.beatUs.toNat * 1000) 1
    let e := c.clk.epoch.toNat
    BitVec.ofNat 64 (if t ≤ e then e - (e - t) / len * len else e + ceilDiv (t - e) len * len)
  else BitVec.ofNat 64 t

/-! ### The mirror region (R365) -/

/-- The key of byte `o` of the mirror region, which runs through the stacks in order (notes/assumptions/47). -/
def Core.mirrorKey (c : Core) (o : Nat) : Nat :=
  let per := c.ident.mirrorExt * 2 ^ 26
  hbmKey (o / max per 1) ((988 - c.ident.hamperExt - c.ident.mirrorExt) * 2 ^ 26 + o % max per 1)

/-- Bytes of a shard slot (R365). -/
def Core.shardSlot (c : Core) : Nat := (c.ident.mirrorExt * 2 ^ 29 - c.journalBytes) / 2

/-- Where a slot begins in the region: slot A for even steps, B for odd ones. -/
def Core.shardBase (c : Core) (s : StepNo) : Nat := c.journalBytes + (s.toNat % 2) * c.shardSlot

/-- Bytes of the region. -/
def Mach.mirrorBytes (m : Mach) (o n : Nat) : List Byte := (chunks 64 (List.range n)).flatMap (fun l => memBytes m.mem (m.core.mirrorKey (o + l.headD 0)) l.length)

/-- The slot of a step, when that is the step it holds. -/
def Ledger.slotOf (l : Ledger) (s : StepNo) : Option MirrorSlot := (l.slots.getD (s.toNat % 2) none).bind (fun q => if q.step == s then some q else none)

/-- Whether a slot is whole: every transfer of its step has passed (R366). -/
def MirrorSlot.whole (q : MirrorSlot) : Bool := q.tail && q.parts.all (fun p => p.ok)

/-- The slot of a step changed; one of another step gives way to an empty one. -/
def Ledger.modSlot (s : StepNo) (f : MirrorSlot → MirrorSlot) (l : Ledger) : Ledger :=
  { l with slots := setAt l.slots (s.toNat % 2) (some (f ((l.slotOf s).getD { step := s }))) }

/-- The ledger dies' state changed. -/
def Core.modLed (f : Ledger → Ledger) (c : Core) : Core := { c with led := f c.led }

/-! ### Receiving (R368) -/

/-- An OPEN: the transfer gets its place, in a slot after what the slot holds, or where it was sent before. -/
def mirrorOpen (port stream : Nat) (b : List Byte) (c : Core) : Core :=
  let entry := fieldAt b 2 1
  let step := BitVec.ofNat 40 (fieldAt b 3 5)
  let bytes := fieldAt b 8 4
  let off := fieldAt b 12 8
  let rest := c.led.inXfer.filter (fun x => !(x.port == port && x.stream == stream))
  if entry = 0xFF then
    c.modLed (fun l => { l with inXfer := rest ++ [{ port := port, stream := stream, entry := entry, step := step, off := off, bytes := bytes, start := off % max c.journalBytes 1 }] })
  else
    let q : MirrorSlot := (c.led.slotOf step).getD { step := step }
    let (start, parts) : Nat × List MirrorPart := match q.parts.find? (fun p => p.entry == entry && p.off == off) with
      | some p => (p.start, q.parts)
      | none => let n := sumNat (q.parts.map (fun p => p.bytes)); (n, q.parts ++ [{ entry := entry, off := off, start := n, bytes := bytes }])
    (c.modLed (Ledger.modSlot step (fun q => { q with parts := parts }))).modLed (fun l =>
      { l with inXfer := rest ++ [{ port := port, stream := stream, entry := entry, step := step, off := off, bytes := bytes, start := c.shardBase step + start }] })

/-- A data frame: 512 bytes at its chunk. -/
def mirrorData (port stream chunk : Nat) (b : List Byte) (m : Mach) : Mach :=
  match m.core.led.inXfer.find? (fun x => x.port == port && x.stream == stream) with
  | none => m
  | some x =>
    let n := min 512 (x.bytes - chunk * 512)
    let k := m.core.mirrorKey (x.start + chunk * 512)
    (m.store k (b.take n)).up (Core.modLed (fun l =>
      { l with inXfer := l.inXfer.map (fun y => if y.port == port && y.stream == stream then { y with got := y.got + n } else y) }))

/-- A CLOSE: the data are checked against DCRC and acknowledged; a journal transfer is entered, and completes its step's slot when it is the rest of the
step's record. -/
def mirrorClose (port : Nat) (f : Frame) (m : Mach) : Mach :=
  let stream := f.xid.toNat
  match m.core.led.inXfer.find? (fun x => x.port == port && x.stream == stream) with
  | none => m
  | some x =>
    let ok := x.got == x.bytes && crc32c (m.mirrorBytes x.start x.bytes) == fieldAt f.payload 20 4
    m.up (fun c =>
      let c1 := c.modLed (fun l => { l with inXfer := l.inXfer.filter (fun y => !(y.port == port && y.stream == stream)) })
      let c2 :=
        if !ok then c1
        else if x.entry = 0xFF then
          c1.modLed (fun l =>
            let head := m.mirrorBytes x.start (min x.bytes 64)
            let e : JournalEnt :=
              { step := x.step, off := x.off, bytes := x.bytes, digest := if fieldAt head 0 4 = 0x4C505654 then slice head 8 32 else [] }
            let l1 := { l with journal := l.journal ++ [e] }
            if (l.slotOf x.step).isSome then l1.modSlot x.step (fun q => { q with tail := true }) else l1)
        else c1.modLed (Ledger.modSlot x.step (fun q =>
          { q with parts := q.parts.map (fun p => if p.entry == x.entry && p.off == x.off then { p with ok := true } else p) }))
      let ack := mirrorFrame f.src.toNat stream 0 (mirrorCtl 3 (boolNat (!ok)) x.entry x.step 0 0 0)
      if 14 ≤ port then c2.sendOn port ack else c2.sendFrame ack)

/-! ### Acknowledgements and the partner's loss (R366, R368, R369) -/

/-- A restore is complete when the partner holds the restored state (11 R400): LAST_SEALED becomes its step, and the command is answered. -/
def Core.restoreDone (r : RestoreRun) (c : Core) : Core :=
  let c1 := c.modSpool (fun q => { q with restores := q.restores.filter (fun x => !(x.plan == r.plan)) })
  let c2 := c1.modJob r.plan (fun j => { j with lastSealed := r.step, sealedValid := true, mirrored := true })
  c2.reply r.reply 0 []

/-- The module votes unmirrored from now on (R369): its partner is lost, and a mirror vote that waited is submitted. -/
def Mach.loseMirror (m : Mach) : Mach :=
  let m1 := m.up (Core.modLed (fun l => { l with mode := 0, lost := true, outXfer := l.outXfer.filter (fun o => o.stream == 2) }))
  let waiting := m1.core.jobs.filter (fun j => j.sealedValid && !j.mirrored)
  let m2 := waiting.foldl (fun m j => m.mirrorVoted j.plan j.lastSealed true) m1
  m2.core.spool.restores.foldl (fun m r => m.up (Core.restoreDone r)) m2

/-- Every transfer of a step is acknowledged: the step is mirrored, and the mirror vote follows (R353, R366). -/
def Mach.mirrorAcked (h : Nat) (s : StepNo) (m : Mach) : Mach :=
  if m.core.led.outXfer.any (fun o => o.plan == h && o.step == s && o.stream != 2) then m
  else
    let m1 := m.up (Core.modLed (fun l => { l with mirroredStep := s, mirrorValid := true }))
    match m1.core.spool.restores.find? (fun r => r.plan == h && r.step == s) with
    | some r => m1.up (Core.restoreDone r)
    | none =>
      match m1.core.job? h with
      | some j => if j.sealedValid && j.lastSealed == s then m1.mirrorVoted h s false else m1
      | none => m1

/-- A transfer sent again in full. -/
def Mach.resend (o : MirrorOut) (m : Mach) : Mach :=
  if o.stream = 1 then m.up (fun c => c.mirrorSend 1 0xFF o.step o.off o.data)
  else if o.stream = 2 then
    match (m.core.led.slotOf o.step).bind (fun q => q.parts.find? (fun p => p.entry == o.entry && p.off == o.off)), m.core.led.rescue with
    | some p, some r =>
      let data := m.mirrorBytes (m.core.shardBase o.step + p.start) p.bytes
      m.up (fun c => (mirrorFrames r.pos 2 o.entry o.step o.off data).foldl (fun c f => c.sendFrame f) c)
    | _, _ => m
  else
    match m.core.plan? o.plan, m.core.job? o.plan with
    | some p, some j =>
      match j.sealMap[o.entry]? with
      | some e => m.sendEntry p j e o.entry o.step o.off o.bytes
      | none => m
    | _, _ => m

/-- An ACK (R368): an accepted transfer is done; one acknowledged with a mismatch is sent again, and three mismatches fail the mirror, or for ballast
streaming the jobs (R374). -/
def mirrorAck (stream : Nat) (b : List Byte) (m : Mach) : Mach :=
  let entry := fieldAt b 2 1
  let step := BitVec.ofNat 40 (fieldAt b 3 5)
  match m.core.led.outXfer.find? (fun o => o.stream == stream && o.entry == entry && o.step == step) with
  | none => m
  | some o =>
    let m1 := m.up (Core.modLed (fun l => { l with outXfer := l.outXfer.erase o }))
    if fieldAt b 1 1 = 0 then (if stream = 2 then m1 else m1.mirrorAcked o.plan step)
    else
      let o1 := { o with fails := o.fails + 1 }
      if 3 ≤ o1.fails then
        if stream = 2 then
          match m1.core.led.rescue with
          | some r => r.plans.foldl (fun m h => m.up (Core.fallback h)) (m1.up (Core.modLed (fun l => { l with rescue := none, outXfer := l.outXfer.filter (fun o => o.stream != 2) })))
          | none => m1
        else m1.loseMirror
      else (m1.up (Core.modLed (fun l => { l with outXfer := l.outXfer ++ [o1] }))).resend o1

/-- A MIRROR frame taken (R368). -/
def takeMirror (port : Nat) (f : Frame) (m : Mach) : Mach :=
  let stream := f.xid.toNat
  if 2 < stream then m
  else if f.len = 1 then
    match fieldAt f.payload 0 1 with
    | 1 => m.up (mirrorOpen port stream f.payload)
    | 2 => mirrorClose port f m
    | 3 => mirrorAck stream f.payload m
    | _ => m
  else mirrorData port stream f.chunk.toNat f.payload m

/-- MIRROR_FRAME_RECEIVED (R368): a frame on a port. -/
def execMirrorFrameReceived (port : Nat) (f : Frame) (s : State) : Host.Outcome State Fault Refusal :=
  runM (Mach.arrive port { f with typ := 0xB } (takeMirror port)) s

/-! ### Notices (R361, R371, 12 R420, 14 R485) -/

/-- A failure notice acted on (R371 step 1): the rollback at the named edge goes to the last mirrored step, snapshots that are not complete fail, and
collectives in progress with the lost member are aborted (09 R330). -/
def Core.failureNotice (h lost : Nat) (edge : BitVec 64) (c : Core) : Core :=
  let c1 := (c.modJob h (fun j => j.nameRollback edge j.lastMirrored)).snapMemberFailed h
  match c.plan? h with
  | some p => c1.abortLive h (fun g => (p.members g).contains lost) 6
  | none => c1

/-- FAILURE_NOTICE_RECEIVED (R371): plan, the failed logical module, and the edge it names. -/
def execFailureNoticeReceived (plan lost : Nat) (edge : BitVec 64) (s : State) : Host.Outcome State Fault Refusal :=
  runC (fun _ _ c => if (match c.plan? plan with | some p => decide (lost < p.hdr.modCount) | none => false) then c.failureNotice plan lost edge else c) s

/-- ROLLBACK_NOTICE_RECEIVED (14 R485): plan, the step L, and the edge. -/
def execRollbackNoticeReceived (plan : Nat) (l : StepNo) (edge : BitVec 64) (s : State) : Host.Outcome State Fault Refusal :=
  runC (fun _ _ c => c.modJob plan (fun j => j.nameRollback edge l)) s

/-- An abort notice acted on (12 R420): the job rolls back to its last sealed step at the next edge, submits no resume vote and stops. -/
def Core.abortNotice (h : Nat) (c : Core) : Core :=
  c.modJob h (fun j => ({ j with abort := true }).nameRollback (c.edgeAfter (c.clk.count.toNat + 1)) j.lastSealed)

/-- ABORT_NOTICE_RECEIVED (12 R420): the plan. -/
def execAbortNoticeReceived (plan : Nat) (s : State) : Host.Outcome State Fault Refusal := runC (fun _ _ c => c.abortNotice plan) s

/-- A new job on a plan. -/
def mkJob (p : Plan) (lc : BitVec 64) (first : StepNo) (key : BitVec 64) (module : Nat) (seals : List SealEnt) : Job :=
  { plan := p.handle, tenant := p.tenant, phase := .launching, lc := lc, firstStep := first, key := key, logicalModule := module, step := first,
    sealMap := seals, lastSealed := first - 1 }

/-- The mirror slot of step L written into the CUR ranges of a job (R371 step 3). -/
def Mach.slotToCur (p : Plan) (j : Job) (q : MirrorSlot) (m : Mach) : Mach :=
  q.parts.foldl (fun m t =>
    match j.sealMap[t.entry]? with
    | none => m
    | some e =>
      let ks := m.core.extKeys p e.curOff.toNat e.extents
      (List.range (t.bytes / 2 ^ 26)).foldl (fun m i =>
        match ks.getD (t.off / 2 ^ 26 + i) none with
        | some k =>
          ((m.write (.copy k (m.core.mirrorKey (m.core.shardBase q.step + t.start + i * 2 ^ 26)) (2 ^ 26))).write (.poison (k / 64) (2 ^ 20) false)).up
            (Core.wrote k (2 ^ 20))
        | none => m) m) m

/-- A remap notice acted on (R371 step 4): the map changes at the named edge. The ballast module itself, whose plan is admitted and whose slot of step L is
whole, joins the job in rollback wait, and it and the claiming twin are mirror partners (R372). -/
def Mach.remapNotice (h lm phys : Nat) (edge : BitVec 64) (cfg : Option JobCfg) (m : Mach) : Mach :=
  match m.core.plan? h with
  | none => m
  | some p =>
    match m.core.sliceFor p with
    | none => m
    | some sl =>
      let m1 := m.up (Core.modLed (fun l => { l with remaps := l.remaps ++ [(sl.id, lm, phys, edge)] }))
      match cfg with
      | none => m1
      | some g =>
        match m.core.led.slotOf g.last, m.core.job? h with
        | some q, none =>
          if phys == m.core.fab.cfg.own && q.whole && m.core.led.entryPassed then
            let j : Job :=
              { mkJob p g.lc g.firstStep g.key g.module g.seals with
                phase := .rollbackWait, step := g.last + 1, attempt := g.attempt, lastSealed := g.last, sealedValid := true, mirrored := true }
            (m1.slotToCur p j q).up (fun c =>
              { c with jobs := c.jobs ++ [j.putTry { step := g.last + 1, attempt := g.attempt }],
                       led := { c.led with mode := 2, partner := BitVec.ofNat 14 c.led.claimed, lost := false, mirrorValid := false, entry := none, entryPassed := false } })
          else m1
        | _, _ => m1

/-- REMAP_NOTICE_RECEIVED (R371): plan, logical module, the physical module it becomes, the edge, and on the ballast module the job it takes over. -/
def execRemapNoticeReceived (plan lm phys : Nat) (edge : BitVec 64) (cfg : Option JobCfg) (s : State) : Host.Outcome State Fault Refusal :=
  runM (Mach.remapNotice plan lm phys edge cfg) s

/-! ### Ballast admission by the twin (R369 to R374) -/

/-- The jobs that a lost module was a member of, as this module's own jobs show them: (plan, logical module). -/
def Core.jobsOf (c : Core) (phys : Nat) : List (Nat × Nat) :=
  c.jobs.filterMap (fun j =>
    (c.plan? j.plan).bind (fun p => (c.sliceFor p).bind (fun s =>
      ((List.range s.map.length).find? (fun l => s.map.getD l 0 == phys)).map (fun l => (j.plan, l)))))

/-- A ballast position claimed, and the lost module's slot and journal streamed to it on stream 2 (R371 steps 2 and 3). -/
def Mach.claim (pos : Nat) (plans : List Nat) (lost : Nat) (m : Mach) : Mach :=
  let m1 := m.up (fun c =>
    (c.emit (.vc7 pos 8 [c.fab.cfg.own])).modLed (fun l => { l with rescue := some { plans := plans, lost := lost, pos := pos }, mode := 3, partner := BitVec.ofNat 14 pos }))
  let steps := plans.filterMap (fun h => (m1.core.job? h).map (fun j => j.lastMirrored))
  let slots := (steps.eraseDups).filterMap (fun s => m1.core.led.slotOf s)
  let m2 := slots.foldl (fun m q =>
    q.parts.foldl (fun m t =>
      let data := m.mirrorBytes (m.core.shardBase q.step + t.start) t.bytes
      m.up (fun c =>
        ((mirrorFrames pos 2 t.entry q.step t.off data).foldl (fun c f => c.sendFrame f) c).modLed (fun l =>
          { l with outXfer := l.outXfer ++ [{ plan := 0, stream := 2, entry := t.entry, step := q.step, off := t.off, bytes := t.bytes }] }))) m) m1
  m2.core.led.journal.foldl (fun m e =>
    let data := m.mirrorBytes e.off e.bytes
    m.up (fun c =>
      ((mirrorFrames pos 2 0xFF e.step e.off data).foldl (fun c f => c.sendFrame f) c).modLed (fun l =>
        { l with outXfer := l.outXfer ++ [{ plan := 0, stream := 2, entry := 0xFF, step := e.step, off := e.off, bytes := e.bytes, data := data }] }))) m2

/-- The partner is declared lost and ballast admission begins (R369, R371): notices name the first beat edge at least 10 ms later; with no warm ballast
position, or no whole slot of the last mirrored step, the jobs stop (R374). -/
def partnerLost (warm : Option Nat) (m : Mach) : Mach :=
  if m.core.led.alone then m
  else
    let x := m.core.led.partner.toNat
    let m1 := m.loseMirror
    let js := m1.core.jobsOf x
    let edge := m1.core.edgeAfter (m1.core.clk.count.toNat + 10000000)
    let m2 := js.foldl (fun m h => m.up (fun c => (c.emit (.vc7 0xFFFF 2 [h.1, h.2, edge.toNat])).failureNotice h.1 h.2 edge)) m1
    let held := js.filter (fun h => match m2.core.job? h.1 with
      | some j => match m2.core.led.slotOf j.lastMirrored with | some q => q.whole | none => false
      | none => false)
    let bad := js.filter (fun h => warm.isNone || !(held.contains h))
    let m3 := bad.foldl (fun m h => m.up (Core.fallback h.1)) m2
    match warm with
    | some g => if held.isEmpty then m3 else m3.claim g (held.map Prod.fst) x
    | none => m3

/-- PARTNER_LOST (R369): the lowest-numbered warm ballast position of the meadow, as its physical module ID, when there is one. -/
def execPartnerLost (warm : Option Nat) (s : State) : Host.Outcome State Fault Refusal := runM (partnerLost warm) s

/-- Whether this module is a warm ballast position (R370): it holds no job, all its links are UP, and it has passed a full sentinel run within 24 hours. -/
def Core.warm (c : Core) : Bool :=
  let g := c.fab.cfg
  g.loaded && decide (g.jobPos ≤ g.position) && c.jobs.isEmpty && c.fab.ports.all (fun p => p.st == .up || p.st == .off) &&
  (match c.health.passedAt with | some t => withinTicks c.clk.count t day | none => false)

/-- BALLAST_CLAIM (R371): a warm ballast position is claimed by a twin and starts its entry check. -/
def ballastClaim (twin : Nat) (c : Core) : Core :=
  if c.warm && c.led.entry.isNone then
    c.modLed (fun l => { l with entry := some c.clk.count, entryPassed := false, claimed := twin, slots := [none, none], journal := [] })
  else c

/-- BALLAST_CLAIM (R371). -/
def execBallastClaim (twin : Nat) (s : State) : Host.Outcome State Fault Refusal := runC (fun _ _ c => ballastClaim twin c) s

/-- The ballast module holds the stream and has passed its check: the remap notice goes out, and the twin's partner is the ballast module (R371 step 4,
R372). -/
def Mach.rescueReady (m : Mach) : Mach :=
  match m.core.led.rescue with
  | none => m
  | some r =>
    if r.passed && r.streamed then
      let edge := m.core.edgeAfter (m.core.clk.count.toNat + 10000000)
      let js := (m.core.jobsOf r.lost).filter (fun h => r.plans.contains h.1)
      let m1 := js.foldl (fun m h => (m.up (Core.emit (.vc7 0xFFFF 9 [h.1, h.2, r.pos, edge.toNat]))).remapNotice h.1 h.2 r.pos edge none) m
      m1.up (Core.modLed (fun l => { l with rescue := none, mode := 2, lost := false, mirrorValid := false, slots := [none, none], journal := [] }))
    else m

/-- An entry check ends (R371). On the ballast module its result goes to the twin that claimed it; on the twin a pass completes the admission once the
stream is done, and a failure claims the next warm position, or stops the jobs when none is left. -/
def entryCheckDone (pass : Bool) (next : Option Nat) (m : Mach) : Mach :=
  match m.core.led.rescue, m.core.led.entry with
  | some r, _ =>
    let m1 := m.up (Core.modLed (fun l => { l with rescue := some { r with passed := pass } }))
    if pass then m1.rescueReady
    else
      let m2 := m1.up (Core.modLed (fun l => { l with rescue := none, mode := 0, outXfer := l.outXfer.filter (fun o => o.stream != 2) }))
      match next with
      | some g => m2.claim g r.plans r.lost
      | none => r.plans.foldl (fun m h => m.up (Core.fallback h)) m2
  | none, some _ =>
    m.up (fun c => (c.emit (.vc7 c.led.claimed 7 [boolNat pass])).modLed (fun l => { l with entryPassed := pass, entry := if pass then l.entry else none }))
  | none, none => m

/-- ENTRY_CHECK_DONE (R371): whether it passed, and on the twin the next warm position when it failed. -/
def execEntryCheckDone (pass : Bool) (next : Option Nat) (s : State) : Host.Outcome State Fault Refusal := runM (entryCheckDone pass next) s

/-- BALLAST_STREAM_DONE (R371): every transfer of the stream is acknowledged. -/
def streamDone (m : Mach) : Mach :=
  match m.core.led.rescue with
  | none => m
  | some r =>
    if m.core.led.outXfer.any (fun o => o.stream == 2) then m
    else (m.up (Core.modLed (fun l => { l with rescue := some { r with streamed := true } }))).rescueReady

/-- BALLAST_STREAM_DONE (R371). -/
def execBallastStreamDone (s : State) : Host.Outcome State Fault Refusal := runM streamDone s

end Sys2Proof.Machine
end

