-- ==== Sys2Proof/Machine/Generator.lean ====
section
/-!
DEFINITION. The lane generator GX-CB64 (05_vector_stations.md R140 to R143).
-/

namespace Sys2Proof.Machine

/-- Left rotation of a 64-bit word (R141). -/
def rotl64 (v n : Nat) : Nat := ((v <<< n) % 2 ^ 64) ||| (v >>> (64 - n))

/-- The rotation of each of the twelve rounds (R141). -/
def cbRot : List Nat := [19, 41, 7, 33, 53, 13, 29, 47, 5, 37, 23, 59]

/-- One round of GX-CB64 with the key injection after rounds 3, 7 and 11 (R141). -/
def cbRound (k0 k1 : Nat) (ab : Nat × Nat) (ir : Nat × Nat) : Nat × Nat :=
  let a := (ab.1 + ab.2) % 2 ^ 64
  let b := rotl64 ab.2 ir.2 ^^^ a
  if ir.1 % 4 = 3 then
    let s := ir.1 / 4 + 1
    let odd := s % 2 = 1
    ((a + (if odd then k1 else k0)) % 2 ^ 64, (b + (if odd then k0 else k1) + s) % 2 ^ 64)
  else (a, b)

/-- The 64-bit word of GX-CB64 (R141). -/
def gxCb64 (key x1 d : Nat) : Nat :=
  let k1 := rotl64 key 32 ^^^ 0xC29A61F43D05B8E7
  let ab := ((List.range 12).zip cbRot).foldl (cbRound key k1) ((d + key) % 2 ^ 64, (x1 + k1) % 2 ^ 64)
  ab.1 ^^^ rotl64 ab.2 32

/-- Draw piece `p` of a word (R141). -/
def cbPiece (w p : Nat) : Nat := field w (16 * p) 16

/-- Word x1 of Table 05-4. -/
def cbX1 (step lane stream : Nat) : Nat := step % 2 ^ 40 * 2 ^ 24 + lane % 256 * 2 ^ 16 + stream % 2 ^ 16

/-- Word d of Table 05-4. -/
def cbD (modId beat cyc : Nat) : Nat := modId % 2 ^ 14 * 2 ^ 44 + beat % 2 ^ 16 * 2 ^ 28 + cyc % 2 ^ 28

/-- A draw of a station (R140): lane, schedule cycle and piece. -/
def Ctx.draw (x : Ctx) (lane cyc piece : Nat) : Nat :=
  cbPiece (gxCb64 x.job.key.toNat (cbX1 x.job.step.toNat lane x.lsid.toNat)
    (cbD x.job.logicalModule x.job.beat cyc)) piece

/-- The 32 draws of a drained row, one per output column (Table 05-5), computed only where a conversion may use them. -/
def Ctx.rowDraws (x : Ctx) (sr : Bool) (cyc : Nat) : List Nat :=
  if sr then tabulate 32 (fun l => x.draw l cyc 0) else []

end Sys2Proof.Machine
end

