-- ==== Sys2Proof/Machine/Special.lean ====
section
/-!
DEFINITION. The special functions of the vector stations (05_vector_stations.md R136): special inputs as Table 05-3 gives them, VRCP and VSQRT
correctly rounded, VEXP2 exact for integers, and every other result within the table's bound of the exact result, which is
computed here in fixed point with far more bits than FP32 has.
-/

namespace Sys2Proof.Machine

/-- The fraction bits of the fixed-point numbers. -/
def fxP : Nat := 640

/-- 1 in fixed point. -/
def fxOne : Int := 2 ^ fxP

/-- A fixed-point product. -/
def fxMul (a b : Int) : Int := a * b / fxOne

/-- A fixed-point quotient. -/
def fxDiv (a b : Int) : Int := a * fxOne / b

/-- The fixed-point number of a finite value. -/
def fxOf : FVal → Int
  | .fin s m e =>
    let k := e + fxP
    let q : Nat := if 0 ≤ k then m <<< k.toNat else m >>> (-k).toNat
    signedMag s q
  | _ => 0

/-- The value of a fixed-point number. -/
def fxVal (x : Int) : FVal := .fin (decide (x < 0)) x.natAbs (-(fxP : Int))

/-- The sum of `n` terms of a series: `t` the first term, each next one from the last by `next i`. -/
def fxSeries (next : Nat → Int → Int) : Nat → Nat → Int → Int → Int
  | 0, _, _, acc => acc
  | n + 1, i, t, acc => fxSeries next n (i + 1) (next i t) (acc + t)

/-- atanh(1/d) for a whole number `d`. -/
def fxAtanhInv (d : Int) : Int :=
  (List.range 410).foldl (fun acc i => acc + fxOne / (d ^ (2 * i + 1) * (2 * i + 1 : Nat))) 0

/-- atan(1/d) for a whole number `d`. -/
def fxAtanInv (d : Int) : Int :=
  (List.range 290).foldl (fun acc i => acc + (if i % 2 = 0 then 1 else -1) * (fxOne / (d ^ (2 * i + 1) * (2 * i + 1 : Nat)))) 0

/-- ln 2. -/
def fxLn2 : Int := 2 * fxAtanhInv 3

/-- The circle constant (Machin's formula). -/
def fxPi : Int := 16 * fxAtanInv 5 - 4 * fxAtanInv 239

/-- e to the power `r` for a small `r` in fixed point. -/
def fxExpSmall (r : Int) : Int := fxSeries (fun i t => fxMul t r / ((i : Int) + 1)) 150 0 fxOne 0

/-- e to the power `x`, as a mantissa in fixed point and a power of two. -/
def fxExp (x : Int) : Int × Int :=
  let k := x / fxLn2
  (fxExpSmall (x - k * fxLn2), k)

/-- `m * 2^k` of `fxExp` as a fixed-point number. -/
def fxExpFull (x : Int) : Int :=
  let (m, k) := fxExp x
  if 0 ≤ k then m * 2 ^ k.toNat else m / 2 ^ (-k).toNat

/-- The exact value of e^x to far more than FP32's bits. -/
def expVal (x : FVal) : FVal :=
  let (m, k) := fxExp (fxOf x)
  .fin false m.natAbs (k - fxP)

/-- The natural logarithm of a positive value. -/
def logVal : FVal → FVal
  | .fin _ m e =>
    let l := (Nat.log2 m : Int)
    let y := fxOf (.fin false m (-l))
    let (y, k) := if 3 * y > 4 * fxOne then (y / 2, l + e + 1) else (y, l + e)
    let z := fxDiv (y - fxOne) (y + fxOne)
    let z2 := fxMul z z
    let s := (List.range 220).foldl (fun (acc : Int × Int) (i : Nat) => (acc.1 + acc.2 / (2 * (i : Int) + 1), fxMul acc.2 z2)) (0, z)
    fxVal (2 * s.1 + k * fxLn2)
  | v => v

/-- 1/sqrt(x) of a positive value, with more than 100 correct bits. -/
def rsqrtVal : FVal → FVal
  | .fin _ m e =>
    let (m, e) := if e % 2 = 0 then (m, e) else (2 * m, e - 1)
    .fin false (isqrt (2 ^ 600 / m)) (-(e / 2) - 300)
  | v => v

/-- 1/(1 + e^-x) in fixed point, for |x| at most 200. -/
def fxSigmoid (x : Int) : Int :=
  let e := fxExpFull x.natAbs
  if 0 ≤ x then fxDiv e (e + fxOne) else fxDiv fxOne (e + fxOne)

/-- tanh in fixed point, for |x| at most 100. -/
def fxTanh (x : Int) : Int :=
  let e := fxExpFull (2 * (x.natAbs : Int))
  let t := fxDiv (e - fxOne) (e + fxOne)
  if x < 0 then -t else t

/-- 1 + erf(z) in fixed point, for |z| at most 12. -/
def fxErf1 (z : Int) : Int :=
  let z2 := fxMul z z
  let s := (List.range 500).foldl (fun (acc : Int × Int) (i : Nat) =>
    (acc.1 + acc.2 / (2 * (i : Int) + 1), -(fxMul acc.2 z2) / ((i : Int) + 1))) (0, z)
  let rootPi : Int := (isqrt ((fxPi * fxOne).natAbs) : Nat)
  fxOne + 2 * fxDiv s.1 rootPi

/-- sin (`c` false) or cos (`c` true) in fixed point. -/
def fxSinCos (c : Bool) (x : Int) : Int :=
  let h := fxPi / 2
  let q := x / h
  let r := x - q * h
  let r2 := fxMul r r
  let sinr := fxSeries (fun i t => -(fxMul t r2) / ((2 * (i : Int) + 2) * (2 * i + 3))) 90 0 r 0
  let cosr := fxSeries (fun i t => -(fxMul t r2) / ((2 * (i : Int) + 1) * (2 * i + 2))) 90 0 fxOne 0
  match (q + (if c then 1 else 0)) % 4 with
  | 0 => sinr
  | 1 => cosr
  | 2 => -sinr
  | _ => -cosr

/-- The argument of GELU's sigmoid: 2 sqrt(2/pi) (x + 0.044715 x^3). -/
def fxGeluArg (x : Int) : Int :=
  let c : Int := (isqrt ((fxDiv (2 * fxOne) fxPi * fxOne).natAbs) : Nat)
  2 * fxMul c (x + 44715 * fxMul x (fxMul x x) / 1000000)

/-- An FP32 code moved by whole ulps along the number line; infinity is the end, and the sign of a zero stays. -/
def moveUlp (x : U32) (d : Int) : U32 :=
  let neg := f32Sign x
  let mag : Int := (field x.toNat 0 31 : Nat)
  let i := (if neg then -mag else mag) + d
  let lim : Int := 0x7F800000
  let i := clampInt (-lim) lim i
  let s := if i = 0 then neg else decide (i < 0)
  BitVec.ofNat 32 (i.natAbs + (if s then 2 ^ 31 else 0))

/-- A result within `b` ulps of the exact value `v` rounded to FP32, the offset being the module's own (Table 05-3). -/
def withinUlps (opc : Nat) (md : Bool) (x : U32) (b : Nat) (v : FVal) : U32 :=
  moveUlp (toF32 v) (clampInt (-(b : Int)) b (Config.ulpOffset opc md x))

/-- VEXP's and VEXP2's result within 1 ulp of the exact value `v`; where that overflows the result is +inf itself (Table 05-3). -/
def expWithin (opc : Nat) (x : U32) (v : FVal) : U32 :=
  if toF32 v == 0x7F800000 then 0x7F800000 else withinUlps opc false x 1 v

/-- The absolute value of a finite value is at least `n`. -/
def atLeast (v : FVal) (n : Nat) : Bool := !(v.abs.lt (.fin false n 0))

/-- Whether a finite value is a whole number, and which. -/
def asInteger : FVal → Option Int
  | .fin s m e =>
    if 0 ≤ e then some (signedMag s (m <<< e.toNat))
    else if m % 2 ^ (-e).toNat = 0 then some (signedMag s (m / 2 ^ (-e).toNat)) else none
  | _ => none

/-- 2^x of a finite value: exact for whole numbers (Table 05-3). -/
def exp2Of (x : U32) (v : FVal) : U32 :=
  match asInteger v with
    | some n => if atLeast v 200 then (if v.sign then 0 else 0x7F800000) else toF32 (.fin false 1 n)
    | none => expWithin 0x41 x (expVal (fxVal (fxMul (fxOf v) fxLn2)))

/-- sin or cos of a finite value: 2 ulps up to 2^20, beyond that an absolute error of at most 2^-22, of which rounding to FP32 takes at most 2^-25
(Table 05-3). -/
def sinCosOf (opc : Nat) (c : Bool) (x : U32) (v : FVal) : U32 :=
  let e := fxSinCos c (fxOf v)
  if (FVal.fin false (2 ^ 20) 0).lt v.abs then
    let d := clampInt (-(2 ^ 20)) (2 ^ 20) (Config.ulpOffset opc false x)
    toF32 (fxVal (clampInt (-fxOne) fxOne (e + d * 2 ^ (fxP - 43))))
  else if v.isZero then (if c then withinUlps opc false x 2 (.fin false 1 0) else withinUlps opc false x 2 v)
  else withinUlps opc false x 2 (fxVal e)

/-- A special function (R136) by its opcode, with MOD ERF, of an FP32 input. -/
def specialFn (opc : Nat) (erf : Bool) (x : U32) : U32 :=
  match f32 x with
  | .nan => f32NaN
  | .inf s =>
    match opc with
    | 0x40 | 0x41 => if s then 0 else 0x7F800000
    | 0x42 | 0x44 | 0x45 => if s then f32NaN else (if opc = 0x45 then 0 else 0x7F800000)
    | 0x43 => if s then 0x80000000 else 0
    | 0x46 => if s then 0xBF800000 else 0x3F800000
    | 0x47 => if s then 0 else 0x3F800000
    | 0x48 | 0x49 => if s then 0x80000000 else 0x7F800000
    | _ => f32NaN
  | .fin s m e =>
    let v := FVal.fin s m e
    match opc with
    | 0x40 => if atLeast v 200 then (if s then withinUlps opc false x 1 (.fin false 0 0) else 0x7F800000) else expWithin opc x (expVal v)
    | 0x41 => exp2Of x v
    | 0x42 => if m = 0 then 0xFF800000 else if s then f32NaN else withinUlps opc false x 1 (logVal v)
    | 0x43 => f32Div f32One x
    | 0x44 => f32Sqrt x
    | 0x45 => if m = 0 then (if s then 0xFF800000 else 0x7F800000) else if s then f32NaN else withinUlps opc false x 1 (rsqrtVal v)
    | 0x46 => if m = 0 then withinUlps opc false x 2 v
              else if atLeast v 50 then withinUlps opc false x 2 (.fin s 1 0) else withinUlps opc false x 2 (fxVal (fxTanh (fxOf v)))
    | 0x47 => if atLeast v 200 then withinUlps opc false x 2 (if s then .fin false 0 0 else .fin false 1 0)
              else withinUlps opc false x 2 (fxVal (fxSigmoid (fxOf v)))
    | 0x48 =>
      if m = 0 then withinUlps opc erf x 4 v
      else if atLeast v 15 then withinUlps opc erf x 4 (if s then .fin true 0 0 else v)
      else if erf then
        withinUlps opc erf x 4 (((fxVal (fxErf1 (fxDiv (fxOf v) ((isqrt ((2 * fxOne * fxOne).natAbs) : Nat) : Int)))).mul v).scale (-1))
      else withinUlps opc erf x 4 ((fxVal (fxSigmoid (fxGeluArg (fxOf v)))).mul v)
    | 0x49 =>
      if m = 0 then withinUlps opc false x 3 v
      else if atLeast v 200 then withinUlps opc false x 3 (if s then .fin true 0 0 else v)
      else withinUlps opc false x 3 ((fxVal (fxSigmoid (fxOf v))).mul v)
    | 0x4A => sinCosOf opc false x v
    | _ => sinCosOf opc true x v

end Sys2Proof.Machine
end

