-- ==== Sys2Proof/Machine/Vector.lean ====
section
/-!
DEFINITION. The vector stations (05_vector_stations.md): what an instruction reads and writes and how long it takes (R126, R127), its
operands (R130), and the elementwise, row, tile-forming, accumulation, optimizer and router operations.
-/

namespace Sys2Proof.Machine

/-! ### Cost and ranges -/

/-- Compute cycles per tile in FP32 and in packed mode, and the fill latency L (Table 05-2). -/
def vecCost (opc : Nat) : Nat × Nat × Nat :=
  match opc with
  | 0x3C => (8, 8, 12)
  | 0x50 | 0x51 | 0x61 => (4, 4, 24)
  | 0x52 => (12, 12, 40)
  | 0x53 => (8, 8, 32)
  | 0x54 => (12, 12, 40)
  | 0x56 => (8, 8, 48)
  | 0x57 | 0x58 | 0x59 | 0x5C => (4, 4, 12)
  | 0x5A => (8, 8, 48)
  | 0x60 => (8, 8, 40)
  | 0x6A | 0x6B => (4, 4, 10)
  | _ => if 0x40 ≤ opc then (8, 8, 20) else (4, 2, 10)

/-- Whether an opcode works element by element on one tile or flat run per unit. -/
def vecElementwise (opc : Nat) : Bool := decide (opc ≤ 0x4B) || opc == 0x6A || opc == 0x6B

/-- How many of SRC0, SRC1 and SRC2 an elementwise opcode reads as operands of its unit (Table 05-2). -/
def vecSources (opc : Nat) : Nat :=
  match opc with
  | 0x33 | 0x3C => 3
  | 0x30 | 0x31 | 0x32 | 0x34 | 0x35 | 0x36 => 2
  | 0x3B => 0
  | _ => 1

/-- TW (R130). -/
def VecF.tw (f : VecF) : Nat := field f.imm1.toNat 0 5 + 1

/-- Tiles per unit (R126). -/
def vecTiles (opc : Nat) (f : VecF) : Nat :=
  if inRange opc 0x50 8 then f.tw
  else if opc = 0x58 || opc = 0x59 then ceilDiv f.imm0.toNat 32
  else 1

/-- A format code, or FP32 where it names none; admission refuses reserved codes (R23). -/
def fmtD (c : BitVec 4) : Fmt := (fmtOfCode c.toNat).getD .fp32

/-- The 64-byte units of one operand of a unit: a flat run of 1,024 elements or a tile (R126, R130). -/
def unitUnits (flat : Bool) (ft : Fmt) : Nat := if flat then 2 * elemBits ft else tileUnits ft

/-- The 64-byte units of a flat row of `n` elements (R137). -/
def rowUnits (ft : Fmt) (n : Nat) : Nat := ceilDiv (n * elemBits ft / 8) 64

/-- What a vector instruction touches in station memory, as unit addresses and lengths: the tiles it reads, its flat operands, and the ranges
it writes. In-place ranges that the opcode permits (R128) are not among the last. -/
structure VecMem where
  tiles : List (Nat × Nat)
  flats : List (Nat × Nat)
  outs : List (Nat × Nat)

/-- The rows of block row `n` of VFORM and VUNFORM: 32, or IMM1[4:0] + 1 in the last (R137). -/
def formRows (f : VecF) (n : Nat) : Nat := if n + 1 < f.count.toNat then 32 else f.tw

/-- `n` pieces of `k` units from address `a` on. -/
def pieces (a k n : Nat) : List (Nat × Nat) := tabulate n (fun i => ((a + i * k) % 2 ^ 23, k))

/-- The unit address of a 24-bit address field of a parameter block. -/
def pbAddr (pb : List Byte) (o : Nat) : Nat := fieldAt pb o 3 % 2 ^ 23

/-- The ranges of a vector instruction (R126, R130, R131, R134 to R139, R144, R148, R150, R153); `pb` is VOPT_ADAMW's parameter block. The spec does not say whether
the DST and SRC2 of a VASACC with INIT, which reads neither, are still in-place ranges: they are here, and R128 asks for no release of them (DESIGN CHOICE,
notes/assumptions/107). -/
def vecMem (opc : Nat) (f : VecF) (pb : List Byte) : VecMem :=
  let n := f.count.toNat
  let f0 := fmtD f.fmt0
  let f1 := fmtD f.fmt1
  let fo := fmtD f.outFmt
  let s0 := f.src0.toNat
  let s1 := f.src1.toNat
  let s2 := f.src2.toNat
  let d := f.dst.toNat
  if vecElementwise opc then
    let k0 := unitUnits f.flat f0
    let k1 := unitUnits f.flat f1
    let srcs := (if 1 ≤ vecSources opc then pieces s0 k0 n else []) ++ (if 2 ≤ vecSources opc then pieces s1 k1 n else []) ++
      (if 3 ≤ vecSources opc then pieces s2 k1 n else [])
    { tiles := if f.flat then [] else srcs
      flats := (if f.flat then srcs else []) ++ (if opc = 0x6B then pieces s1 2 n else [])
      outs := pieces d (unitUnits f.flat fo) n ++ (if opc = 0x6A then pieces s2 2 n else []) }
  else
    let t := vecTiles opc f
    let rowT := pieces s0 (tileUnits f0) (n * t)
    let rowO := pieces d (tileUnits fo) (n * t)
    match opc with
    | 0x50 | 0x51 => { tiles := rowT, flats := [], outs := pieces d 2 n }
    | 0x52 => { tiles := rowT, flats := [], outs := rowO ++ (if f.mod.getLsbD 1 then pieces s2 4 n else []) }
    | 0x53 => { tiles := rowT, flats := [(s1, 2 * t)], outs := rowO }
    | 0x54 => { tiles := rowT, flats := [(s1, 2 * t), (s2, 2 * t)], outs := rowO }
    | 0x56 => { tiles := rowT, flats := (if f.mod.getLsbD 2 then [(s1, 2 * t)] else []) ++ [(s2, 2 * t)], outs := pieces d 64 n }
    | 0x57 => { tiles := rowT, flats := pieces s1 2 n, outs := rowO }
    | 0x58 =>
      { tiles := [], outs := rowO
        flats := (List.range n).flatMap (fun i => tabulate (formRows f i) (fun r => ((s0 + (32 * i + r) * s1) % 2 ^ 23, rowUnits f0 f.imm0.toNat))) }
    | 0x59 =>
      { tiles := rowT, flats := []
        outs := (List.range n).flatMap (fun i => tabulate (formRows f i) (fun r => ((d + (32 * i + r) * s1) % 2 ^ 23, rowUnits fo f.imm0.toNat))) }
    | 0x5A => { tiles := rowT, flats := [], outs := rowO }
    | 0x5C =>
      let rec0 := (s2, ceilDiv n 64)
      if f.mod.getLsbD 0 then { tiles := pieces s0 (tileUnits f0) n, flats := [(s1, ceilDiv n 64), rec0], outs := [] }
      else { tiles := pieces s0 (tileUnits f0) n ++ pieces d (tileUnits fo) n, flats := [rec0], outs := [] }
    | 0x60 =>
      let new := fun (o n' k : Nat) => if pbAddr pb o = pbAddr pb n' then [] else [(pbAddr pb n', k * n)]
      { tiles := []
        flats := [(s0, 1), (pbAddr pb 32, 64 * n), (pbAddr pb 38, 17 * n), (pbAddr pb 44, 17 * n), (pbAddr pb 50, 64 * n)]
        outs := new 32 35 64 ++ new 38 41 17 ++ new 44 47 17 ++ [(pbAddr pb 53, tileUnits fo * n)] }
    | _ => { tiles := [], flats := [(s0, 64 * n)], outs := [(d, 1)] }

/-- The bytes one unit reads and writes, trailers included (R126). -/
def vecBytes (opc : Nat) (f : VecF) : Nat × Nat :=
  let f0 := fmtD f.fmt0
  let f1 := fmtD f.fmt1
  let fo := fmtD f.outFmt
  let t := vecTiles opc f
  let rows := 64 * t * tileUnits f0
  let outs := 64 * t * tileUnits fo
  if vecElementwise opc then
    let k := vecSources opc
    (64 * ((if 1 ≤ k then unitUnits f.flat f0 else 0) + (k - 1) * unitUnits f.flat f1) + (if opc = 0x6B then 128 else 0),
     64 * unitUnits f.flat fo + (if opc = 0x6A then 128 else 0))
  else
    match opc with
    | 0x50 | 0x51 => (rows, 128)
    | 0x52 => (rows, outs + (if f.mod.getLsbD 1 then 256 else 0))
    | 0x53 => (rows + 128 * t, outs)
    | 0x54 => (rows + 256 * t, outs)
    | 0x56 => (rows + 256 * t, 4096 + 128 * t)
    | 0x57 => (rows + 128, outs)
    | 0x58 => (32 * 64 * rowUnits f0 f.imm0.toNat, outs)
    | 0x59 => (rows, 32 * 64 * rowUnits fo f.imm0.toNat)
    | 0x5A => (rows, outs)
    | 0x5C => (64 * tileUnits f0 + (if f.mod.getLsbD 0 then 1 else 64 * tileUnits fo + 1), 64 * tileUnits fo + 1)
    | 0x60 => (2 * 4096 + 2 * 1088, 4096 + 2 * 1088 + 64 * tileUnits fo)
    | _ => (4096, 0)

/-- C, the cycles of a unit (R126). -/
def vecC (opc : Nat) (f : VecF) : Nat :=
  let (c, cp, _) := vecCost opc
  let (rb, wb) := vecBytes opc f
  max ((if f.packed then cp else c) * vecTiles opc f) (max (ceilDiv rb 2112) (ceilDiv wb 1056))

/-- The units that the completion token's range has (R110). -/
def vecTokenUnits (opc : Nat) (f : VecF) (vm : VecMem) : Nat :=
  if opc = 0x60 || opc = 0x5C then f.count.toNat * tileUnits (fmtD f.outFmt)
  else if opc = 0x6A then f.count.toNat * unitUnits f.flat (fmtD f.outFmt)
  else if opc = 0x52 then f.count.toNat * f.tw * tileUnits (fmtD f.outFmt)
  else sumNat (vm.outs.map Prod.snd)

/-- The optimizer's parameters (Table 05-6). -/
structure AdamP where
  lr : U32
  beta1 : U32
  c1 : U32
  beta2 : U32
  c2 : U32
  eps : U32
  wdLr : U32
  gscale : U32

/-- A 32-bit parameter at an offset of the block. -/
def pbWord (pb : List Byte) (o : Nat) : U32 := BitVec.ofNat 32 (fieldAt pb o 4)

/-- The numeric fields of a parameter block (Table 05-6). -/
def adamParams (pb : List Byte) : AdamP :=
  { lr := pbWord pb 0, beta1 := pbWord pb 4, c1 := pbWord pb 8, beta2 := pbWord pb 12, c2 := pbWord pb 16, eps := pbWord pb 20,
    wdLr := pbWord pb 24, gscale := pbWord pb 28 }

/-- The ranges a parameter block names, as (offset of its field, address, units), for `n` units and a working copy of `k` units per tile. -/
def adamRanges (pb : List Byte) (n k : Nat) : List (Nat × Nat × Nat) :=
  [(32, 64), (35, 64), (38, 17), (41, 17), (44, 17), (47, 17), (50, 64), (53, k)].map (fun p => (p.1, pbAddr pb p.1, p.2 * n))

/-- Whether two ranges of a parameter block may overlap: the old and the new half of one state (R147). -/
def adamPair (a b : Nat) : Bool := (a == 32 && b == 35) || (a == 38 && b == 41) || (a == 44 && b == 47)

/-- Whether a parameter block holds a value that R147 refuses. -/
def Ctx.adamInvalid (x : Ctx) (f : VecF) (pb : List Byte) : Bool :=
  let rs := adamRanges pb f.count.toNat (tileUnits (fmtD f.outFmt))
  let eps := f32 (pbWord pb 20)
  (List.range 8).any (fun i => (f32 (pbWord pb (4 * i))).nonFinite) || eps.isZero || eps.sign ||
  (List.range 8).any (fun i => decide (2 ^ 23 ≤ fieldAt pb (32 + 3 * i) 3)) ||
  decide (1 < fieldAt pb 56 1) || fieldAt pb 57 3 != 0 ||
  rs.any (fun r => !(x.plan.granted (2, x.lpart, r.2.1, r.2.2))) ||
  rs.any (fun r => rs.any (fun s => decide (r.1 < s.1) && !(adamPair r.1 s.1) && overlaps r.2.1 r.2.2 s.2.1 s.2.2))

/-- The ranges of a vector instruction; VOPT_ADAMW has those of its parameter block only where the block passes its checks, else it reads the block
alone (R147). -/
def Ctx.vecMemOf (x : Ctx) (opc : Nat) (f : VecF) (pb : List Byte) : VecMem :=
  if opc = 0x60 && (pb.isEmpty || !(tcrcOk pb) || x.adamInvalid f pb) then { tiles := [], flats := [(f.src0.toNat, 1)], outs := [] }
  else vecMem opc f pb

/-- What a vector instruction with the ranges `vm` reads, writes and takes (R126 to R130). The last trailer is written 64 cycles after the last unit's
data, and the token one cycle later (R127). -/
def vecSpecOn (opc : Nat) (x : Ctx) (f : VecF) (vm : VecMem) : StnSpec :=
  let reads := vm.tiles ++ vm.flats
  { opc := opc, tiles := vm.tiles, outs := vm.outs
    reads := reads.map (fun t => (smAddr64 x.lpart t.1, t.2))
    ranges := (reads ++ vm.outs).map (fun t => (2, x.lpart, t.1, t.2))
    dur := (vecCost opc).2.2 + f.count.toNat * vecC opc f + 63
    token := (f.dst.toNat, vecTokenUnits opc f vm) }

/-- What a vector instruction reads, writes and takes, with VOPT_ADAMW's parameter block as station memory holds it at issue (R146). -/
def vecSpec (opc : Nat) (m : Mach) (x : Ctx) (f : VecF) : StnSpec :=
  vecSpecOn opc x f (x.vecMemOf opc f (if opc = 0x60 then m.sm x.part f.src0.toNat 1 else []))

/-- Whether SRC1 of an opcode holds a value and no address, which a descriptor does not give (R116): OFF of a causal softmax, the pitch of VFORM and
VUNFORM. -/
def src1IsValue (opc : Nat) (f : VecF) : Bool := (opc == 0x52 && f.mod.getLsbD 0) || opc == 0x58 || opc == 0x59

/-- Whether an opcode uses SRC0, SRC1 and SRC2, whether for an address or for a value (R129, Table 05-2). -/
def vecUses (opc : Nat) (f : VecF) : Bool × Bool × Bool :=
  let k := vecSources opc
  if vecElementwise opc then (1 ≤ k, 2 ≤ k || opc == 0x6B, 3 ≤ k || opc == 0x6A)
  else
    match opc with
    | 0x50 | 0x51 | 0x5A | 0x60 | 0x61 => (true, false, false)
    | 0x52 => (true, f.mod.getLsbD 0, f.mod.getLsbD 1)
    | 0x54 => (true, true, true)
    | 0x56 => (true, f.mod.getLsbD 2, true)
    | 0x5C => (true, f.mod.getLsbD 0, true)
    | _ => (true, true, false)

/-- A descriptor's address fields put into a vector instruction (R116); one that the opcode does not use must be 0 (R129). -/
def vecSub (opc : Nat) (f : VecF) (d : Nat) : Option VecF :=
  let (u0, u1, u2) := vecUses opc f
  let a := fun (o : Nat) => field d o 23
  if (!u0 && a 68 != 0) || (!u1 && a 91 != 0) || (!u2 && a 114 != 0) then none
  else some { f with dst := BitVec.ofNat 23 (a 137), src2 := BitVec.ofNat 23 (a 114),
                     src1 := if src1IsValue opc f then f.src1 else BitVec.ofNat 23 (a 91), src0 := BitVec.ofNat 23 (a 68) }

/-! ### Operands and outputs -/

/-- An operand of a unit: its elements in storage order as FP32, and its tile. -/
structure VecIn where
  vals : List U32
  tile : Option TileIn

/-- Flat elements as FP32 values (R130). -/
def flatVals (ft : Fmt) (bs : List Byte) : List U32 :=
  (chunks (elemBits ft / 8) bs).map (fun c =>
    match ft with
    | .fp32 => BitVec.ofNat 32 (natLE c)
    | _ => toF32 (elemVal ft (natLE c)))

/-- A tile's elements in storage order as FP32 values (R39, R130). -/
def TileIn.vals (t : TileIn) (ft : Fmt) : List U32 := t.blocks.flatMap (blockToF32 ft)

/-- One operand of a unit read, flat or as a tile (R130). -/
def Ctx.vecRead (x : Ctx) (flat : Bool) (ft : Fmt) (orient : Option Bool) (a : Nat) (m : Mach) : VecIn × Mach :=
  if flat then
    let (bs, m1) := x.readFlat x.part a (128 * elemBits ft) m
    ({ vals := flatVals ft bs, tile := none }, m1)
  else
    let (t, m1) := x.readTile ft orient x.part a m
    ({ vals := t.vals ft, tile := some t }, m1)

/-- The draws of `n` elements of a unit from element `e0`: lane e mod 256 and one cycle per group of 256 from `cyc0` (Table 05-5). -/
def Ctx.vecDraws (x : Ctx) (use : Bool) (cyc0 piece e0 n : Nat) : List Nat :=
  if use then tabulate n (fun i => x.draw ((e0 + i) % 256) (cyc0 + (e0 + i) / 256) piece) else []

/-- How a unit's values leave the station: output format, conversion, and the cycle and piece of its draws. -/
structure VecOut where
  fmt : Fmt
  cvt : Cvt
  cyc0 : Nat
  piece : Nat

/-- A tile of 1,024 values converted and written, +0 outside its extent (R88, R130). `e0` is the place of its first element in the unit. -/
def Ctx.vecTile (x : Ctx) (o : VecOut) (e0 : Nat) (orient : Bool) (rowsM1 colsM1 : Nat) (fl : OutFlags) (vals : List U32) (a : Nat)
    (m : Mach) : Mach :=
  let masked := maskExtent f32Zero orient rowsM1 colsM1 (chunks 32 vals)
  let blocks := masked.mapIdx (fun i b => convertBlock o.fmt o.cvt (x.vecDraws o.cvt.sr o.cyc0 o.piece (e0 + 32 * i) 32) b)
  x.writeTile o.fmt orient rowsM1 colsM1 fl.poison fl.checked fl.unsealed 0 blocks x.part a m

/-- Values converted to flat bytes (R130). -/
def Ctx.flatBytes (x : Ctx) (o : VecOut) (e0 : Nat) (vals : List U32) : List Byte :=
  (convertBlock o.fmt o.cvt (x.vecDraws o.cvt.sr o.cyc0 o.piece e0 vals.length) vals).codes.flatMap
    (fun c => bytesLE (elemBits o.fmt / 8) c)

/-- Flat FP32 bytes of a list of values. -/
def f32Bytes (vals : List U32) : List Byte := vals.flatMap (fun v => bytesLE 4 v.toNat)

/-- Bytes written from the start of a unit, the rest of the last unit left as it is (R137); poison as given for whole units. -/
def Ctx.putRow (x : Ctx) (a : Nat) (bs : List Byte) (q : Bool) (m : Mach) : Mach :=
  let n := ceilDiv bs.length 64
  let whole := bs.length / 64
  let m1 := m.putUnits (m.core.smUnits x.part a whole) (bs.take (64 * whole)) q
  let rest := bs.drop (64 * whole)
  let k := m1.core.smUnit x.part ((a + whole) % 2 ^ 23)
  let m2 := if rest.isEmpty then m1 else
    let m' := m1.patch k rest
    if q then m'.write (.poison (k / 64) 1 true) else m'
  let m3 := m2.up (fun c => c.modJob x.plan.handle (Job.markResident x.part a n))
  x.guard 2 x.lpart a n q m3

/-- All tile operands of one instruction, at the addresses `ts`, must have one orientation: a mismatch is recorded once and poisons the outputs (R130). A tile
whose TCRC fails has no orientation to compare (R93). -/
def Ctx.sameOrient (x : Ctx) (ts : List (Nat × Nat)) (m : Mach) : Bool × Mach :=
  let os := ts.filterMap (fun t =>
    let tr := m.sm x.part ((t.1 + t.2 - 1) % 2 ^ 23) 1
    if tcrcOk tr then some (trailerOf tr).orient else none)
  if os.any (fun o => o) && os.any (fun o => !o) then (true, x.log 0x302 3 2 [] m) else (false, m)

/-- The tile operands whose orientation only the other operands fix: those of the elementwise operations, VREQUANT's, and VASACC's contributions, whose accumulators
are read in the orientation of their own. -/
def orientTiles (opc : Nat) (f : VecF) (vm : VecMem) : List (Nat × Nat) :=
  if vecElementwise opc || opc = 0x5A then vm.tiles else if opc = 0x5C then vm.tiles.take f.count.toNat else []

/-! ### Elementwise operations (R131, R144) -/

/-- The larger of two values: NaN if either is, and +0 above -0 (R131). -/
def FVal.vmax (a b : FVal) : FVal :=
  if a.isNan || b.isNan then .nan else if a.lt b then b else if b.lt a then a else if a.sign then b else a

/-- The smaller of two values, as VMAX (R131). -/
def FVal.vmin (a b : FVal) : FVal :=
  if a.isNan || b.isNan then .nan else if a.lt b then a else if b.lt a then b else if a.sign then a else b

/-- The exact result of an elementwise opcode, to be rounded once (R125, R131). -/
def vecExact (opc : Nat) (imm a b c : FVal) : FVal :=
  match opc with
  | 0x30 => a.add b
  | 0x31 => a.add b.neg
  | 0x32 => a.mul b
  | 0x33 => (a.mul b).add c
  | 0x34 => a.vmax b
  | 0x35 => a.vmin b
  | 0x36 => (imm.mul a).add b
  | 0x37 => a.abs
  | 0x38 => a.neg
  | 0x39 =>
    let i := if imm.isZero then .fin false 0 0 else imm
    (a.vmax i.neg).vmin i
  | 0x3B => imm
  | _ => a

/-- A value rounded to the lanes' format: FP32, or BF16 in packed mode (R125). -/
def laneRound (packed : Bool) (v : FVal) : U32 :=
  if packed then toF32 (bf16P.decode (bf16P.convert false false 0 v)) else toF32 v

/-- VROPE on a unit's elements in storage order: the partner of a column lies one element further, or one block further for ORIENT 1 (R131). A flat run has no
columns; its neighbouring elements are paired (DESIGN CHOICE, notes/assumptions/108). -/
def vecRope (orient : Bool) (x co si : Array U32) : List U32 :=
  let k := if orient then 32 else 1
  tabulate 1024 (fun e =>
    if e / k % 2 = 0 then f32Sub (f32Mul (x.getD e 0) (co.getD e 0)) (f32Mul (x.getD (e + k) 0) (si.getD e 0))
    else f32Add (f32Mul (x.getD (e - k) 0) (si.getD (e - k) 0)) (f32Mul (x.getD e 0) (co.getD (e - k) 0)))

/-- The results of an elementwise opcode on a unit's operands in storage order. -/
def vecElems (opc : Nat) (f : VecF) (orient : Bool) (a b c : List U32) : List U32 :=
  if opc = 0x3C then vecRope orient a.toArray b.toArray c.toArray
  else if 0x40 ≤ opc && opc ≤ 0x4B then a.map (specialFn opc (f.mod.getLsbD 0))
  else
    let imm := f32 (laneRound f.packed (f32 f.imm0))
    match vecSources opc with
    | 0 => List.replicate 1024 (laneRound f.packed imm)
    | 1 => a.map (fun x => laneRound f.packed (vecExact opc imm (f32 x) .nan .nan))
    | 2 => List.zipWith (fun x y => laneRound f.packed (vecExact opc imm (f32 x) (f32 y) .nan)) a b
    | _ => List.zipWith (fun x (yz : U32 × U32) => laneRound f.packed (vecExact opc imm (f32 x) (f32 yz.1) (f32 yz.2))) a (b.zip c)

/-- A kept or dropped element (R144). -/
def dropElem (imm : U32) (x : U32) (keep : Bool) : U32 := if keep then f32Mul x imm else f32Zero

/-- Bits as bytes, bit 0 first (R5). -/
def bitBytes (bs : List Bool) : List Byte := (chunks 8 bs).map (fun c => BitVec.ofNat 8 (c.foldr (fun b acc => boolNat b + 2 * acc) 0))

/-- The operands of an elementwise unit, in order SRC0, SRC1, SRC2. -/
def Ctx.vecOperands (x : Ctx) (opc : Nat) (f : VecF) (u : Nat) (m : Mach) : List VecIn × Mach :=
  ((List.range (vecSources opc)).foldl (fun (acc : List VecIn × Mach) i =>
    let ft := fmtD (if i = 0 then f.fmt0 else f.fmt1)
    let base := match i with | 0 => f.src0.toNat | 1 => f.src1.toNat | _ => f.src2.toNat
    let (v, m') := x.vecRead f.flat ft none ((base + u * unitUnits f.flat ft) % 2 ^ 23) acc.2
    (acc.1 ++ [v], m')) ([], m))

/-- The results of an elementwise unit on its operands, and what VDROPOUT writes and VMASK reads of the mask (R131, R136, R144). -/
def Ctx.elemResult (x : Ctx) (opc : Nat) (f : VecF) (u cyc0 : Nat) (orient poison : Bool) (ins : List VecIn) (m : Mach) : List U32 × Mach :=
  let arg := fun (i : Nat) => match ins[i]? with | some v => v.vals | none => []
  if opc = 0x6A then
    let keep := tabulate 1024 (fun e => decide (f.imm1.toNat ≤ x.draw (e % 256) (cyc0 + e / 256) 0))
    (List.zipWith (dropElem f.imm0) (arg 0) keep, x.putFlat x.part ((f.src2.toNat + 2 * u) % 2 ^ 23) (bitBytes keep) poison m)
  else if opc = 0x6B then
    let (bs, m') := x.readFlat x.part ((f.src1.toNat + 2 * u) % 2 ^ 23) 128 m
    let keep := bs.flatMap (fun b => tabulate 8 (fun i => b.getLsbD i))
    (List.zipWith (dropElem f.imm0) (arg 0) keep, m')
  else (vecElems opc f orient (arg 0) (arg 1) (arg 2), m)

/-- One unit of an elementwise instruction (R130, R131, R136, R144). -/
def Ctx.elemUnit (x : Ctx) (opc : Nat) (f : VecF) (stale : Bool) (u : Nat) (m : Mach) : Mach :=
  let (ins, m1) := x.vecOperands opc f u m
  let tiles := ins.filterMap VecIn.tile
  let fl := flagsOf stale tiles
  let orient := match tiles with | t :: _ => t.trailer.orient | [] => false
  let rows := match tiles with | t :: _ => t.trailer.rowsM1.toNat | [] => 31
  let cols := match tiles with | t :: _ => t.trailer.colsM1.toNat | [] => 31
  let cyc0 := x.issue + u * vecC opc f
  let (res, m3) := x.elemResult opc f u cyc0 orient fl.poison ins m1
  let o : VecOut := { fmt := fmtD f.outFmt, cvt := if f.packed then ⟨false, false⟩ else cvtOf f.cvt, cyc0 := cyc0,
                      piece := if opc = 0x6A then 1 else 0 }
  let a := (f.dst.toNat + u * unitUnits f.flat o.fmt) % 2 ^ 23
  if f.flat then x.putFlat x.part a (x.flatBytes o 0 res) fl.poison m3
  else x.vecTile o 0 orient rows cols fl res a m3

/-! ### Row operations (R130, R133 to R135) -/

/-- Neighbouring elements added in pairs (R133). -/
def pairSums : List U32 → List U32
  | a :: b :: r => f32Add a b :: pairSums r
  | l => l

/-- The pairwise tree over `2^k` elements (R133, R150). -/
def treeSum : Nat → List U32 → U32
  | 0, l => l.headD f32Zero
  | k + 1, l => treeSum k (pairSums l)

/-- The sum of a block row in the fixed order (R133). -/
def rowSum (xs : List U32) : U32 := (chunks 32 xs).foldl (fun s t => f32Add s (treeSum 5 t)) f32Zero

/-- The maximum of a row, as VMAX compares (R131, R133). -/
def rowMax : List U32 → U32
  | [] => f32Zero
  | x :: r => r.foldl (fun a b => toF32 ((f32 a).vmax (f32 b))) (f32Canon x)

/-- Zero at and beyond column `w`. -/
def cutRow (w : Nat) (xs : List U32) : List U32 := xs.mapIdx (fun i v => if i < w then v else f32Zero)

/-- A row of VSOFTMAX (R134): its outputs and its stats. `masked` says which columns a causal mask leaves out. -/
def softmaxRow (scale : U32) (part : Bool) (w : Nat) (masked : Nat → Bool) (xs : List U32) : List U32 × U32 × U32 :=
  let zs := xs.mapIdx (fun i x => if i < w && !masked i then some (f32Mul x scale) else none)
  let live := zs.filterMap id
  let mx := rowMax live
  let negInf : U32 := 0xFF800000
  if live.any f32IsNaN || (!live.isEmpty && mx == 0x7F800000) then
    (xs.mapIdx (fun i _ => if i < w then f32NaN else f32Zero), f32NaN, f32NaN)
  else if live.isEmpty || mx == negInf then (xs.map (fun _ => f32Zero), negInf, f32Zero)
  else
    let es := zs.map (fun z => match z with | some v => specialFn 0x40 false (f32Sub v mx) | none => f32Zero)
    let s := rowSum es
    let rs := specialFn 0x43 false s
    (es.mapIdx (fun i e => if i < w then (if part then e else f32Mul e rs) else f32Zero), mx, s)

/-- A row of VRMSNORM (R135). -/
def rmsRow (eps : U32) (w : Nat) (g xs : List U32) : List U32 :=
  let ms := f32Div (rowSum (cutRow w (xs.map (fun x => f32Mul x x)))) (f32OfNat w)
  let r := specialFn 0x45 false (f32Add ms eps)
  cutRow w (List.zipWith (fun x gi => f32Mul (f32Mul x r) gi) xs g)

/-- A row of VLAYERNORM (R135). -/
def layerRow (eps : U32) (w : Nat) (g b xs : List U32) : List U32 :=
  let mu := f32Div (rowSum (cutRow w xs)) (f32OfNat w)
  let d := xs.map (fun x => f32Sub x mu)
  let var := f32Div (rowSum (cutRow w (d.map (fun y => f32Mul y y)))) (f32OfNat w)
  let r := specialFn 0x45 false (f32Add var eps)
  cutRow w (List.zipWith (fun y (gb : U32 × U32) => f32Fma (f32Mul y r) gb.1 gb.2) d (g.zip b))

/-- The block row `n`'s tiles, its 32 rows of FP32 values, its valid width and its last valid row (R130). -/
structure BlockRow where
  tiles : List TileIn
  rows : List (List U32)
  width : Nat
  rowsM1 : Nat

/-- A block row read (R130). -/
def Ctx.readRow (x : Ctx) (f : VecF) (n : Nat) (m : Mach) : BlockRow × Mach :=
  let ft := fmtD f.fmt0
  let (ts, m1) := x.readTiles ft (some false) x.part
    (tabulate f.tw (fun t => (f.src0.toNat + (n * f.tw + t) * tileUnits ft) % 2 ^ 23)) m
  let mats := ts.map (fun t => t.blocks.map (blockToF32 ft))
  let last := match ts.getLast? with | some t => (t.trailer.colsM1.toNat, t.trailer.rowsM1.toNat) | none => (31, 31)
  ({ tiles := ts, rows := tabulate 32 (fun r => mats.flatMap (fun b => b.getD r [])),
     width := 32 * (f.tw - 1) + last.1 + 1, rowsM1 := last.2 }, m1)

/-- The tiles of a block row written from its rows; rows beyond ROWS_M1 and columns beyond W are +0 (R130). -/
def Ctx.putRowTiles (x : Ctx) (f : VecF) (n cyc0 : Nat) (br : BlockRow) (fl : OutFlags) (rows : List (List U32)) (m : Mach) : Mach :=
  let o : VecOut := { fmt := fmtD f.outFmt, cvt := cvtOf f.cvt, cyc0 := cyc0, piece := 0 }
  let cut := rows.mapIdx (fun r row => if r ≤ br.rowsM1 then cutRow br.width row else row.map (fun _ => f32Zero))
  (List.range f.tw).foldl (fun m t =>
    let tl := match br.tiles[t]? with | some ti => (ti.trailer.rowsM1.toNat, ti.trailer.colsM1.toNat) | none => (31, 31)
    x.vecTile o (1024 * t) false tl.1 tl.2 fl (cut.flatMap (fun row => slice32 row t))
      ((f.dst.toNat + (n * f.tw + t) * tileUnits o.fmt) % 2 ^ 23) m) m
where
  /-- The 32 elements of tile `t` of a row. -/
  slice32 (row : List U32) (t : Nat) : List U32 := (row.drop (32 * t)).take 32

/-- `n` flat FP32 values read. -/
def Ctx.readF32s (x : Ctx) (a n : Nat) (m : Mach) : List U32 × Mach :=
  let (bs, m1) := x.readFlat x.part a (4 * n) m
  (flatVals .fp32 bs, m1)

/-- One unit of a row operation that writes tiles or row results (R131, R133 to R135). -/
def Ctx.rowUnit (x : Ctx) (opc : Nat) (f : VecF) (stale : Bool) (n : Nat) (m : Mach) : Mach :=
  let (br, m1) := x.readRow f n m
  let fl := flagsOf stale br.tiles
  let cyc0 := x.issue + n * vecC opc f
  let perRow := fun (g : List U32 → U32) => br.rows.mapIdx (fun r row => if r ≤ br.rowsM1 then g row else f32Zero)
  match opc with
  | 0x50 => x.putFlat x.part ((f.dst.toNat + 2 * n) % 2 ^ 23) (f32Bytes (perRow (fun row => rowSum (cutRow br.width row)))) fl.poison m1
  | 0x51 => x.putFlat x.part ((f.dst.toNat + 2 * n) % 2 ^ 23) (f32Bytes (perRow (fun row => rowMax (row.take br.width)))) fl.poison m1
  | 0x52 =>
    let off := signed 23 f.src1.toNat
    let masked := fun (r i : Nat) => f.mod.getLsbD 0 && decide ((32 * n + r : Int) + off < (i : Int))
    let res := br.rows.mapIdx (fun r row => softmaxRow f.imm0 (f.mod.getLsbD 1) br.width (masked r) row)
    let m2 := x.putRowTiles f n cyc0 br fl (res.map Prod.fst) m1
    if f.mod.getLsbD 1 then
      let stats := res.mapIdx (fun r s => if r ≤ br.rowsM1 then [s.2.1, s.2.2] else [f32Zero, f32Zero])
      x.putFlat x.part ((f.src2.toNat + 4 * n) % 2 ^ 23) (f32Bytes stats.flatten) fl.poison m2
    else m2
  | 0x53 =>
    let (g, m2) := x.readF32s f.src1.toNat (32 * f.tw) m1
    x.putRowTiles f n cyc0 br fl (br.rows.map (rmsRow f.imm0 br.width g)) m2
  | 0x54 =>
    let (g, m2) := x.readF32s f.src1.toNat (32 * f.tw) m1
    let (b, m3) := x.readF32s f.src2.toNat (32 * f.tw) m2
    x.putRowTiles f n cyc0 br fl (br.rows.map (layerRow f.imm0 br.width g b)) m3
  | _ =>
    let (s, m2) := x.readF32s ((f.src1.toNat + 2 * n) % 2 ^ 23) 32 m1
    x.putRowTiles f n cyc0 br fl (br.rows.mapIdx (fun r row => row.map (fun a => f32Mul a (s.getD r f32Zero)))) m2

/-! ### Router top-k (R151 to R153) -/

/-- A (key, expert) entered into a list in descending key order, equal keys by lower index first (R151). -/
def insertDesc (e : FVal × Nat) : List (FVal × Nat) → List (FVal × Nat)
  | [] => [e]
  | y :: ys => if y.1.lt e.1 then e :: y :: ys else y :: insertDesc e ys

/-- The experts a row chooses, best first (R151). -/
def topK (k : Nat) (keys : List U32) : List Nat :=
  (((keys.mapIdx (fun i v => (f32 v, i))).foldl (fun acc e => insertDesc e acc) []).take k).map Prod.snd

/-- The selection key of an expert: its logit, with its bias added when there is one; the key of a NaN sum is open (notes/assumptions/24). -/
def topkKeyOf (bias : Option U32) (l : U32) : U32 :=
  match bias with
  | none => l
  | some b => let s := f32Add l b; if f32IsNaN s then Config.topkKey l b else s

/-- The weights of the chosen experts (R152). -/
def topkWeights (score : Nat) (scale : U32) (w : Nat) (logits : List U32) (chosen : List Nat) : List U32 :=
  let pick := fun (ys : List U32) => chosen.map (fun i => ys.getD i f32Zero)
  match score with
  | 0 => pick (softmaxRow scale false w (fun _ => false) logits).1
  | 1 => pick (softmaxRow scale false w (fun i => !(chosen.contains i)) logits).1
  | _ =>
    let ss := chosen.map (fun i => specialFn 0x47 false (logits.getD i f32Zero))
    let tot := ss.foldl f32Add f32Zero
    ss.map (fun s => f32Div s tot)

/-- The 128-byte record of a token (R153). A row beyond ROWS_M1 has no token: it chooses no expert and all its weights are +0.0 (R130 and R151 give it two readings;
DESIGN CHOICE, notes/assumptions/106). -/
def topkRecord (nan : Bool) (entries : List (Nat × U32)) : List Byte :=
  (tabulate 16 (fun q =>
    match entries[q]? with
    | some (e, w) => bytesLE 2 e ++ [0, 0] ++ bytesLE 4 w.toNat
    | none => bytesLE 2 0xFFFF ++ [0, 0] ++ bytesLE 4 (if nan && q == 0 then f32NaN.toNat else 0))).flatten

/-- One row of VTOPK: the experts chosen with their weights, and whether a NaN logit chose none. -/
def topkRow (f : VecF) (w : Nat) (bias : Option (List U32)) (row : List U32) : Bool × List (Nat × U32) :=
  let logits := row.take w
  if logits.any f32IsNaN then (true, [])
  else
    let keys := logits.mapIdx (fun i l => topkKeyOf (bias.map (fun b => b.getD i f32Zero)) l)
    let chosen := topK (field f.imm1.toNat 8 4 + 1) keys
    (false, chosen.zip (topkWeights (field f.mod.toNat 0 2) f.imm0 w row chosen))

/-- One unit of VTOPK: 32 records, and the counts so far. -/
def Ctx.topkUnit (x : Ctx) (f : VecF) (stale : Bool) (bias : Option (List U32)) (n : Nat) (acc : List Nat × Bool × Mach) : List Nat × Bool × Mach :=
  let (br, m1) := x.readRow f n acc.2.2
  let fl := flagsOf stale br.tiles
  let rows := br.rows.mapIdx (fun r row => if r ≤ br.rowsM1 then topkRow f br.width bias row else (false, []))
  let m2 := x.putFlat x.part ((f.dst.toNat + 64 * n) % 2 ^ 23) (rows.flatMap (fun p => topkRecord p.1 p.2)) fl.poison m1
  let counts := rows.foldl (fun c p => p.2.foldl (fun c e => modAt c e.1 (fun k => min (k + 1) 0xFFFFFFFF)) c) acc.1
  (counts, acc.2.1 || fl.poison, m2)

/-- The biases of VTOPK, when MOD asks for them (R151). -/
def Ctx.topkBias (x : Ctx) (f : VecF) (m : Mach) : Option (List U32) × Mach :=
  if f.mod.getLsbD 2 then
    let (b, m') := x.readF32s f.src1.toNat (32 * f.tw) m
    (some b, m')
  else (none, m)

/-- The effect of VTOPK (R151 to R153): the counts are read first and written back after the last unit. -/
def Ctx.topk (x : Ctx) (f : VecF) (stale : Bool) (m : Mach) : Mach :=
  let (bias, m1) := x.topkBias f m
  let (cb, m2) := x.readFlat x.part f.src2.toNat (128 * f.tw) m1
  let counts0 := (chunks 4 cb).map natLE
  let (counts, bad, m3) := (List.range f.count.toNat).foldl (fun acc n => x.topkUnit f stale bias n acc) (counts0, stale, m2)
  x.putFlat x.part f.src2.toNat (counts.flatMap (bytesLE 4)) bad m3

/-! ### Forming tiles (R137, R138) -/

/-- One block row of VFORM (R137); rows that a gather marked unsealed make unsealed tiles (04 R92, R106). -/
def Ctx.formUnit (x : Ctx) (f : VecF) (stale : Bool) (n : Nat) (m : Mach) : Mach :=
  let f0 := fmtD f.fmt0
  let cols := f.imm0.toNat
  let nt := ceilDiv cols 32
  let rows := formRows f n
  let (data, m1) := (List.range rows).foldl (fun (acc : List (List U32) × Mach) r =>
    let (bs, m') := x.readFlat x.part ((f.src0.toNat + (32 * n + r) * f.src1.toNat) % 2 ^ 23) (cols * elemBits f0 / 8) acc.2
    (acc.1 ++ [flatVals f0 bs], m')) ([], m)
  let o : VecOut := { fmt := fmtD f.outFmt, cvt := cvtOf f.cvt, cyc0 := x.issue + n * vecC 0x58 f, piece := 0 }
  let rows' := tabulate rows (fun r => (smAddr64 x.lpart ((f.src0.toNat + (32 * n + r) * f.src1.toNat) % 2 ^ 23), rowUnits f0 cols))
  let fl : OutFlags := { poison := stale, checked := true, unsealed := f.mod.getLsbD 0 || (x.gathered rows' m).2 }
  (List.range nt).foldl (fun m t =>
    let vals := (tabulate 32 (fun r => tabulate 32 (fun c => (data.getD r []).getD (32 * t + c) f32Zero))).flatten
    x.vecTile o (1024 * t) false (rows - 1) (if t + 1 < nt then 31 else (cols - 1) % 32) fl vals
      ((f.dst.toNat + (n * nt + t) * tileUnits o.fmt) % 2 ^ 23) m) m1

/-- One block row of VUNFORM (R137): the valid extent of each tile goes to its rows, bytes beyond N stay. The spec names no ORIENT for its source tiles: they are
taken as VFORM writes them, in ORIENT 0, and another gives TILE_FORMAT (DESIGN CHOICE, notes/assumptions/103). -/
def Ctx.unformUnit (x : Ctx) (f : VecF) (stale : Bool) (n : Nat) (m : Mach) : Mach :=
  let f0 := fmtD f.fmt0
  let cols := f.imm0.toNat
  let nt := ceilDiv cols 32
  let (ts, m1) := x.readTiles f0 (some false) x.part (tabulate nt (fun t => (f.src0.toNat + (n * nt + t) * tileUnits f0) % 2 ^ 23)) m
  let fl := flagsOf stale ts
  let o : VecOut := { fmt := fmtD f.outFmt, cvt := cvtOf f.cvt, cyc0 := x.issue + n * vecC 0x59 f, piece := 0 }
  (List.range 32).foldl (fun m r =>
    let row := (f.dst.toNat + (32 * n + r) * f.src1.toNat) % 2 ^ 23
    (ts.zip (List.range nt)).foldl (fun m e =>
      let (ti, t) := e
      let k := if r ≤ ti.trailer.rowsM1.toNat && r < formRows f n then min (ti.trailer.colsM1.toNat + 1) (cols - 32 * t) else 0
      if k = 0 then m
      else x.putRow ((row + t * (elemBits o.fmt / 16)) % 2 ^ 23)
        (x.flatBytes o (1024 * t + 32 * r) ((blockToF32 f0 (ti.blocks.getD r ⟨[], 0⟩)).take k)) fl.poison m) m) m1

/-- One tile of VREQUANT (R138): the same matrix with ORIENT flipped; STEP, BEAT, TENANT and the flags are kept. Its draws are numbered in the storage order of the
output tile (R142 does not say of which tile; DESIGN CHOICE, notes/assumptions/105). -/
def Ctx.requantUnit (x : Ctx) (f : VecF) (stale : Bool) (u : Nat) (m : Mach) : Mach :=
  let f0 := fmtD f.fmt0
  let fo := fmtD f.outFmt
  let (t, m1) := x.readTile f0 none x.part ((f.src0.toNat + u * tileUnits f0) % 2 ^ 23) m
  let rows := t.blocks.map (blockToF32 f0)
  let turned := tabulate 32 (fun i => tabulate 32 (fun j => (rows.getD j []).getD i f32Zero))
  let orient := !t.trailer.orient
  let masked := maskExtent f32Zero orient t.trailer.rowsM1.toNat t.trailer.colsM1.toNat turned
  let cyc0 := x.issue + u * vecC 0x5A f
  let cvt := cvtOf f.cvt
  let blocks := masked.mapIdx (fun i b => convertBlock fo cvt (x.vecDraws cvt.sr cyc0 0 (32 * i) 32) b)
  let data := blocksData fo blocks
  let tr := x.trailer fo orient t.trailer.rowsM1.toNat t.trailer.colsM1.toNat (stale || t.poison) t.checked t.trailer.unsealed
    (blocksScale fo 0 blocks) data
  x.putTile x.part ((f.dst.toNat + u * tileUnits fo) % 2 ^ 23) data
    { tr with step := t.trailer.step, beat := t.trailer.beat, tenant := t.trailer.tenant } m1

/-! ### Anchored accumulation (R139) -/

/-- One chunk of VASACC (R139): the record byte and the 1,024 sums. -/
def asaccChunk (fo : Fmt) (bc rec : Nat) (acc : List Int) (xs : List U32) : Nat × List Int :=
  (xs.foldl (fun r v => max r (anchorByte v)) rec, List.zipWith (fun a v => anchorAdd fo a (anchorConvert fo bc v)) acc xs)

/-- One chunk read, accumulated and written back, with its record byte (R139). -/
def Ctx.asaccUnit (x : Ctx) (f : VecF) (stale : Bool) (u : Nat) (m : Mach) : Mach :=
  let f0 := fmtD f.fmt0
  let fo := fmtD f.outFmt
  let init := f.mod.getLsbD 0
  let dst := (f.dst.toNat + u * tileUnits fo) % 2 ^ 23
  let recKey := m.core.smUnit x.part ((f.src2.toNat + u / 64) % 2 ^ 23) + u % 64
  let (c, m1) := x.readTile f0 none x.part ((f.src0.toNat + u * tileUnits f0) % 2 ^ 23) m
  let (acc, m2) := if init then (none, m1) else
    let (t, m') := x.readTile fo (some c.trailer.orient) x.part dst m1
    (some t, m')
  let (rb, m3) := if init then ([], m2) else x.readFlat x.part ((f.src2.toNat + u / 64) % 2 ^ 23) 64 m2
  let (tb, m4) := if init then x.readFlat x.part ((f.src1.toNat + u / 64) % 2 ^ 23) 64 m3 else ([], m3)
  let bc := match acc with | some t => (t.trailer.scale.getD 0 0).toNat | none => (tb.getD (u % 64) 0).toNat
  let ns := match acc with
    | some t => t.blocks.flatMap (fun b => b.codes.map (signed (elemBits fo)))
    | none => List.replicate 1024 0
  let (rec, sums) := asaccChunk fo bc (rb.getD (u % 64) 0).toNat ns (c.vals f0)
  let fl := flagsOf stale (c :: acc.toList)
  let blocks := (chunks 32 sums).map (fun b => (⟨b.map (unsigned (elemBits fo)), 0⟩ : Block))
  let m5 := x.writeTile fo c.trailer.orient c.trailer.rowsM1.toNat c.trailer.colsM1.toNat fl.poison fl.checked fl.unsealed bc blocks
    x.part dst m4
  let m6 := m5.patch recKey [BitVec.ofNat 8 rec]
  if fl.poison then m6.write (.poison (recKey / 64) 1 true) else m6

/-! ### The optimizer step (R146 to R150) -/

/-- One element of the update (R148): the new weight and moments and whether NF_SKIP skipped it. -/
def adamElem (p : AdamP) (skip : Bool) (w0 m0 v0 grad : U32) : (U32 × U32 × U32) × Bool :=
  let g := f32Mul grad p.gscale
  if skip && (f32 g).nonFinite then ((w0, m0, v0), true)
  else
    let m := f32Fma p.beta1 m0 (f32Mul p.c1 g)
    let v := f32Fma p.beta2 v0 (f32Mul p.c2 (f32Mul g g))
    let upd := f32Div m (f32Add (f32Sqrt v) p.eps)
    let wd := f32Sub w0 (f32Mul p.wdLr w0)
    ((f32Fma (f32Neg p.lr) upd wd, m, v), false)

/-- The values of two moment groups: 512 element bytes and 16 BF16 scales each (R40, R41). -/
def m8Groups (uns : Bool) (bs : List Byte) : List U32 :=
  [bs.take 544, bs.drop 544].flatMap (fun g =>
    (List.range 512).map (fun i => m8Value uns (fieldAt g (512 + 2 * (i / 32)) 2) ((g.getD i 0).toNat)))

/-- Moments encoded as two groups (R40, R42), the draws being those of `piece`. -/
def Ctx.m8Encode (x : Ctx) (uns : Bool) (cyc0 piece : Nat) (vs : List U32) : List Byte :=
  let blocks := (chunks 32 vs).mapIdx (fun b xs => m8Convert uns (x.vecDraws true cyc0 piece (32 * b) 32) xs)
  [blocks.take 16, blocks.drop 16].flatMap (fun g =>
    g.flatMap (fun b => b.2.map (BitVec.ofNat 8)) ++ g.flatMap (fun b => bytesLE 2 b.1))

/-- One unit of VOPT_ADAMW (R148, R149); the count of skipped elements is added up. A working copy tile has no operand tile that R92 and 03 R65 could take UNSEALED
and CHECKED from: both are written 1 (DESIGN CHOICE, notes/assumptions/104). -/
def Ctx.adamUnit (x : Ctx) (f : VecF) (stale : Bool) (pb : List Byte) (u : Nat) (acc : Nat × Mach) : Nat × Mach :=
  let fo := fmtD f.outFmt
  let cyc0 := x.issue + u * vecC 0x60 f
  let at_ := fun (o k : Nat) => (pbAddr pb o + k * u) % 2 ^ 23
  let (wb, m1) := x.readFlat x.part (at_ 32 64) 4096 acc.2
  let (mb, m2) := x.readFlat x.part (at_ 38 17) 1088 m1
  let (ub, m3) := x.readFlat x.part (at_ 44 17) 1088 m2
  let w0 := flatVals .fp32 wb
  let (ws, mo, uo, sk, m4) :=
    if bitOf (fieldAt pb 56 1) 0 then (w0, mb, ub, 0, m3)
    else
      let (gb, m') := x.readFlat x.part (at_ 50 64) 4096 m3
      let es := List.zipWith (fun (wg : U32 × U32) (mv : U32 × U32) => adamElem (adamParams pb) (field f.mod.toNat 0 2 == 1) wg.1 mv.1 mv.2 wg.2)
        (w0.zip (flatVals .fp32 gb)) ((m8Groups false mb).zip (m8Groups true ub))
      (es.map (fun e => e.1.1), x.m8Encode false cyc0 1 (es.map (fun e => e.1.2.1)), x.m8Encode true cyc0 2 (es.map (fun e => e.1.2.2)),
       (es.filter Prod.snd).length, m')
  let m5 := x.putFlat x.part (at_ 35 64) (f32Bytes ws) stale m4
  let m6 := x.putFlat x.part (at_ 41 17) mo stale m5
  let m7 := x.putFlat x.part (at_ 47 17) uo stale m6
  let last := u + 1 == f.count.toNat
  let o : VecOut := { fmt := fo, cvt := cvtOf f.cvt, cyc0 := cyc0, piece := 0 }
  (acc.1 + sk, x.vecTile o 0 (f.mod.getLsbD 2) (if last then field f.imm1.toNat 0 5 else 31) (if last then field f.imm1.toNat 5 5 else 31)
    { poison := stale, checked := true, unsealed := true } ws (at_ 53 (tileUnits fo)) m7)

/-- Skipped elements counted in PART_VS_SKIP (R155, R436): event bit 2, offset 0x400. -/
def Core.countSkips (p n : Nat) (c : Core) : Core :=
  let q := (c.part p).streams
  let ovf := satOvf q.skipped n || q.skipped.toNat + n == 2 ^ 48 - 1
  (c.modStreams p (fun q => { q with skipped := satAdd q.skipped n, skippedOvf := q.skippedOvf || ovf })).counterEvent 1
    (ovf && !q.skippedOvf) 3 p 0x400

/-- The effect of VOPT_ADAMW (R146 to R149). The answer says whether the token carries POISON. A PCRC mismatch is recorded as the vector station's own residue
mismatch, VECTOR_MISMATCH (R154), with an empty DETAIL (DESIGN CHOICE, notes/assumptions/102); it counts and is classified as 03 R75 says. -/
def Ctx.adamw (x : Ctx) (f : VecF) (stale : Bool) (m : Mach) : Bool × Mach :=
  let (pb, m1) := x.readFlat x.part f.src0.toNat 64 m
  if !(tcrcOk pb) then
    (false, x.detect x.issue (x.pends (m.core.smUnits x.part f.src0.toNat 1) pb ((x.log 0x104 7 2 [] m1).up (Core.countUnit x.part 3 x.inst))))
  else if x.adamInvalid f pb then (true, x.log 0x305 3 2 [] m1)
  else
    let (sk, m2) := (List.range f.count.toNat).foldl (fun acc u => x.adamUnit f stale pb u acc) (0, m1)
    (false, if sk = 0 then m2 else m2.up (Core.countSkips x.part sk))

/-- The effect of VSQNORM (R150). -/
def Ctx.sqnorm (x : Ctx) (f : VecF) (stale : Bool) (m : Mach) : Mach :=
  let (tot, bad, m1) := (List.range f.count.toNat).foldl (fun (acc : U32 × Nat × Mach) u =>
    let (xs, m') := x.readF32s ((f.src0.toNat + 64 * u) % 2 ^ 23) 1024 acc.2.2
    let ys := xs.map (fun v => f32Mul v f.imm0)
    (f32Add acc.1 (treeSum 10 (ys.map (fun y => f32Mul y y))), acc.2.1 + (ys.filter (fun y => (f32 y).nonFinite)).length, m')) (f32Zero, 0, m)
  x.putFlat x.part f.dst.toNat (padTo 64 (bytesLE 4 tot.toNat ++ bytesLE 4 (min bad 0xFFFFFFFF))) stale m1

/-! ### Issue -/

/-- The effect of a vector instruction on units told whether all their outputs are poisoned. -/
def vecUnits (opc : Nat) (f : VecF) (x : Ctx) (stale : Bool) (m : Mach) : Bool × Mach :=
  let units := fun (g : Nat → Mach → Mach) => (List.range f.count.toNat).foldl (fun m u => g u m) m
  if vecElementwise opc then (false, units (x.elemUnit opc f stale))
  else
    match opc with
    | 0x56 => (false, x.topk f stale m)
    | 0x58 => (false, units (x.formUnit f stale))
    | 0x59 => (false, units (x.unformUnit f stale))
    | 0x5A => (false, units (x.requantUnit f stale))
    | 0x5C => (false, units (x.asaccUnit f stale))
    | 0x60 => x.adamw f stale m
    | 0x61 => (false, x.sqnorm f stale m)
    | _ => (false, units (x.rowUnit opc f stale))

/-- The effect of a vector instruction once it has issued. Its token does not carry POISON for outputs that its operands poison: the trailers say so (R110;
DESIGN CHOICE, notes/assumptions/93). -/
def vecBody (opc : Nat) (f : VecF) (x : Ctx) (stale : Bool) (m : Mach) : Bool × Mach :=
  let mix := x.sameOrient (orientTiles opc f (vecMem opc f [])) m
  vecUnits opc f x (stale || mix.1) mix.2

/-- A vector instruction issues and runs. -/
def vecRun (opc : Nat) (granted : Bool) (i : Instr) (st : Stn) (h : Hdr) (f : VecF) : Mach → Mach :=
  issueWith granted i st h f opc (vecSub opc) (vecSpec opc) (vecBody opc)

/-- VADD (R131). -/
def execVadd (st : Stn) (h : Hdr) (f : VecF) (s : State) : Host.Outcome State Fault Refusal := runM (vecRun 0x30 false (.vadd st h f) st h f) s

/-- VSUB (R131). -/
def execVsub (st : Stn) (h : Hdr) (f : VecF) (s : State) : Host.Outcome State Fault Refusal := runM (vecRun 0x31 false (.vsub st h f) st h f) s

/-- VMUL (R131). -/
def execVmul (st : Stn) (h : Hdr) (f : VecF) (s : State) : Host.Outcome State Fault Refusal := runM (vecRun 0x32 false (.vmul st h f) st h f) s

/-- VFMA (R131). -/
def execVfma (st : Stn) (h : Hdr) (f : VecF) (s : State) : Host.Outcome State Fault Refusal := runM (vecRun 0x33 false (.vfma st h f) st h f) s

/-- VMAX (R131). -/
def execVmax (st : Stn) (h : Hdr) (f : VecF) (s : State) : Host.Outcome State Fault Refusal := runM (vecRun 0x34 false (.vmax st h f) st h f) s

/-- VMIN (R131). -/
def execVmin (st : Stn) (h : Hdr) (f : VecF) (s : State) : Host.Outcome State Fault Refusal := runM (vecRun 0x35 false (.vmin st h f) st h f) s

/-- VAXPY (R131). -/
def execVaxpy (st : Stn) (h : Hdr) (f : VecF) (s : State) : Host.Outcome State Fault Refusal := runM (vecRun 0x36 false (.vaxpy st h f) st h f) s

/-- VABS (R131). -/
def execVabs (st : Stn) (h : Hdr) (f : VecF) (s : State) : Host.Outcome State Fault Refusal := runM (vecRun 0x37 false (.vabs st h f) st h f) s

/-- VNEG (R131). -/
def execVneg (st : Stn) (h : Hdr) (f : VecF) (s : State) : Host.Outcome State Fault Refusal := runM (vecRun 0x38 false (.vneg st h f) st h f) s

/-- VCLAMP (R131). -/
def execVclamp (st : Stn) (h : Hdr) (f : VecF) (s : State) : Host.Outcome State Fault Refusal := runM (vecRun 0x39 false (.vclamp st h f) st h f) s

/-- VCVT (R131). -/
def execVcvt (st : Stn) (h : Hdr) (f : VecF) (s : State) : Host.Outcome State Fault Refusal := runM (vecRun 0x3A false (.vcvt st h f) st h f) s

/-- VFILL (R131). -/
def execVfill (st : Stn) (h : Hdr) (f : VecF) (s : State) : Host.Outcome State Fault Refusal := runM (vecRun 0x3B false (.vfill st h f) st h f) s

/-- VROPE (R131). -/
def execVrope (st : Stn) (h : Hdr) (f : VecF) (s : State) : Host.Outcome State Fault Refusal := runM (vecRun 0x3C false (.vrope st h f) st h f) s

/-- VEXP (R136). -/
def execVexp (st : Stn) (h : Hdr) (f : VecF) (s : State) : Host.Outcome State Fault Refusal := runM (vecRun 0x40 false (.vexp st h f) st h f) s

/-- VEXP2 (R136). -/
def execVexp2 (st : Stn) (h : Hdr) (f : VecF) (s : State) : Host.Outcome State Fault Refusal := runM (vecRun 0x41 false (.vexp2 st h f) st h f) s

/-- VLOG (R136). -/
def execVlog (st : Stn) (h : Hdr) (f : VecF) (s : State) : Host.Outcome State Fault Refusal := runM (vecRun 0x42 false (.vlog st h f) st h f) s

/-- VRCP (R136). -/
def execVrcp (st : Stn) (h : Hdr) (f : VecF) (s : State) : Host.Outcome State Fault Refusal := runM (vecRun 0x43 false (.vrcp st h f) st h f) s

/-- VSQRT (R136). -/
def execVsqrt (st : Stn) (h : Hdr) (f : VecF) (s : State) : Host.Outcome State Fault Refusal := runM (vecRun 0x44 false (.vsqrt st h f) st h f) s

/-- VRSQRT (R136). -/
def execVrsqrt (st : Stn) (h : Hdr) (f : VecF) (s : State) : Host.Outcome State Fault Refusal := runM (vecRun 0x45 false (.vrsqrt st h f) st h f) s

/-- VTANH (R136). -/
def execVtanh (st : Stn) (h : Hdr) (f : VecF) (s : State) : Host.Outcome State Fault Refusal := runM (vecRun 0x46 false (.vtanh st h f) st h f) s

/-- VSIGMOID (R136). -/
def execVsigmoid (st : Stn) (h : Hdr) (f : VecF) (s : State) : Host.Outcome State Fault Refusal := runM (vecRun 0x47 false (.vsigmoid st h f) st h f) s

/-- VGELU (R136). -/
def execVgelu (st : Stn) (h : Hdr) (f : VecF) (s : State) : Host.Outcome State Fault Refusal := runM (vecRun 0x48 false (.vgelu st h f) st h f) s

/-- VSILU (R136). -/
def execVsilu (st : Stn) (h : Hdr) (f : VecF) (s : State) : Host.Outcome State Fault Refusal := runM (vecRun 0x49 false (.vsilu st h f) st h f) s

/-- VSIN (R136). -/
def execVsin (st : Stn) (h : Hdr) (f : VecF) (s : State) : Host.Outcome State Fault Refusal := runM (vecRun 0x4A false (.vsin st h f) st h f) s

/-- VCOS (R136). -/
def execVcos (st : Stn) (h : Hdr) (f : VecF) (s : State) : Host.Outcome State Fault Refusal := runM (vecRun 0x4B false (.vcos st h f) st h f) s

/-- VRSUM (R131, R133). -/
def execVrsum (st : Stn) (h : Hdr) (f : VecF) (s : State) : Host.Outcome State Fault Refusal := runM (vecRun 0x50 false (.vrsum st h f) st h f) s

/-- VRMAX (R131). -/
def execVrmax (st : Stn) (h : Hdr) (f : VecF) (s : State) : Host.Outcome State Fault Refusal := runM (vecRun 0x51 false (.vrmax st h f) st h f) s

/-- VSOFTMAX (R134). -/
def execVsoftmax (st : Stn) (h : Hdr) (f : VecF) (s : State) : Host.Outcome State Fault Refusal := runM (vecRun 0x52 false (.vsoftmax st h f) st h f) s

/-- VRMSNORM (R135). -/
def execVrmsnorm (st : Stn) (h : Hdr) (f : VecF) (s : State) : Host.Outcome State Fault Refusal := runM (vecRun 0x53 false (.vrmsnorm st h f) st h f) s

/-- VLAYERNORM (R135). -/
def execVlayernorm (st : Stn) (h : Hdr) (f : VecF) (s : State) : Host.Outcome State Fault Refusal := runM (vecRun 0x54 false (.vlayernorm st h f) st h f) s

/-- VTOPK (R151 to R153). -/
def execVtopk (st : Stn) (h : Hdr) (f : VecF) (s : State) : Host.Outcome State Fault Refusal := runM (vecRun 0x56 false (.vtopk st h f) st h f) s

/-- VROWSCALE (R131). -/
def execVrowscale (st : Stn) (h : Hdr) (f : VecF) (s : State) : Host.Outcome State Fault Refusal := runM (vecRun 0x57 false (.vrowscale st h f) st h f) s

/-- VFORM (R137). -/
def execVform (st : Stn) (h : Hdr) (f : VecF) (s : State) : Host.Outcome State Fault Refusal := runM (vecRun 0x58 false (.vform st h f) st h f) s

/-- VUNFORM (R137). -/
def execVunform (st : Stn) (h : Hdr) (f : VecF) (s : State) : Host.Outcome State Fault Refusal := runM (vecRun 0x59 false (.vunform st h f) st h f) s

/-- VREQUANT (R138). -/
def execVrequant (st : Stn) (h : Hdr) (f : VecF) (s : State) : Host.Outcome State Fault Refusal := runM (vecRun 0x5A false (.vrequant st h f) st h f) s

/-- VASACC (R139). -/
def execVasacc (st : Stn) (h : Hdr) (f : VecF) (s : State) : Host.Outcome State Fault Refusal := runM (vecRun 0x5C false (.vasacc st h f) st h f) s

/-- VOPT_ADAMW (R146 to R149). -/
def execVoptAdamw (st : Stn) (h : Hdr) (f : VecF) (s : State) : Host.Outcome State Fault Refusal := runM (vecRun 0x60 false (.voptAdamw st h f) st h f) s

/-- VSQNORM (R150). -/
def execVsqnorm (st : Stn) (h : Hdr) (f : VecF) (s : State) : Host.Outcome State Fault Refusal := runM (vecRun 0x61 false (.vsqnorm st h f) st h f) s

/-- VDROPOUT (R144). -/
def execVdropout (st : Stn) (h : Hdr) (f : VecF) (s : State) : Host.Outcome State Fault Refusal := runM (vecRun 0x6A false (.vdropout st h f) st h f) s

/-- VMASK (R144). -/
def execVmask (st : Stn) (h : Hdr) (f : VecF) (s : State) : Host.Outcome State Fault Refusal := runM (vecRun 0x6B false (.vmask st h f) st h f) s

end Sys2Proof.Machine
end

