-- ==== Sys2Proof/Machine/Coll.lean ====
section
/-!
DEFINITION. Collective stations (04 R108; 09 R294 to R312, R320 to R328): budgets, reductions and their order, anchored sums, gathers and
broadcasts, expert dispatch and combine, and SHARD_PERMUTE. What the other members send comes with the command.
-/

namespace Sys2Proof.Machine

/-! ### Groups of a collective -/

/-- The fields of a group entry that its collectives use (Table 09-1). -/
structure Grp where
  ent : GroupEnt
  n : Nat
  meadow : Nat
  cube : Bool
  gtx : Nat
  gty : Nat
  gtz : Nat
  csMask : Nat
  pieces : Nat
  rateM : Nat
  rateX : Nat
  rateY : Nat
  rateZ : Nat
  anchorOff : Nat
  expLocal : Nat
  cap : Nat
  rowUnits : Nat
  kMax : Nat
  stage : Nat

/-- The bits in which the positions of a member mask differ. -/
def spread (mask : Nat) : Nat :=
  match onesOf 64 mask with
  | [] => 0
  | p :: ps => ps.foldl (fun a q => a ||| (q ^^^ p)) 0

/-- Whether a member mask forms a subcube (R298). -/
def isCube (mask : Nat) : Bool := popcount 64 mask == 2 ^ popcount 6 (spread mask)

/-- A group entry read (Table 09-1). -/
def grpOf (e : GroupEnt) : Grp :=
  let b := e.raw
  let mask := fieldAt b 0 8
  let at1 := fun (i : Nat) => fieldAt b i 1
  { ent := e, n := e.members.length, meadow := popcount 64 mask, cube := isCube mask, gtx := at1 19, gty := at1 20, gtz := at1 21,
    csMask := field (at1 22) 0 4, pieces := at1 23, rateM := fieldAt b 24 2, rateX := fieldAt b 26 2, rateY := fieldAt b 28 2,
    rateZ := fieldAt b 30 2, anchorOff := fieldAt b 36 8, expLocal := fieldAt b 48 2, cap := fieldAt b 50 2, rowUnits := fieldAt b 52 2,
    kMax := at1 54, stage := fieldAt b 56 8 }

/-- The group an instruction names. -/
def Ctx.grp (x : Ctx) (f : CollF) : Option Grp := (x.plan.groups.find? (fun e => e.index == f.group.toNat)).map grpOf

/-- How many collective stations share the work, and which share this one has (R300). -/
def Grp.share (g : Grp) (lsid : Lsid) : Nat × Nat :=
  let ls := onesOf 4 g.csMask
  (max ls.length 1, (ls.filter (fun l => l < lsDie lsid)).length)

/-! ### Budgets (R311, R316, R324, R328) -/

/-- A sum of fractions. -/
def qAdd (a b : Nat × Nat) : Nat × Nat := (a.1 * b.2 + b.1 * a.2, a.2 * b.2)

/-- The larger of two fractions. -/
def qMax (a b : Nat × Nat) : Nat × Nat := if a.1 * b.2 < b.1 * a.2 then b else a

/-- A fraction, with a denominator of at least 1. -/
def qDiv (a b : Nat) : Nat × Nat := (a, max b 1)

/-- Meadow and global hops of the longest routes along a group's tree (R316). -/
def Core.treeHops (c : Core) (p : Plan) (g : Nat) : Nat × Nat :=
  match c.sliceFor p with
  | none => (0, 0)
  | some s =>
    let phys := fun (l : Nat) => s.map.getD l c.fab.cfg.own
    let root := phys (c.kiteRoot p g)
    (p.members g).foldl (fun acc l =>
      let path := c.fab.path (some p.tenant) (g % 2 == 1) root 64 (phys l)
      let glob := (path.filter (fun e => 12 ≤ e.2.1)).length
      (max acc.1 (path.length - glob), max acc.2 glob)) (0, 0)

/-- One global hop in ns: the port, the fibre and encryption (R285, R311), which this module knows of its own global ports only (notes/assumptions/117). -/
def Core.globHop (c : Core) (base : Nat) : Nat :=
  base + c.fab.cfg.fibreMax + (if (c.port 12).enc || (c.port 13).enc then 24 else 0)

/-- T_k of a group in ns (R316). -/
def Core.kiteTime (c : Core) (p : Plan) (g : Nat) : Nat :=
  let (hm, hg) := c.treeHops p g
  2 * (hm * 110 + hg * c.globHop 120) + 120

/-- K(n) in ns, a fraction (Table 09-3). -/
def Core.kiteRun (c : Core) (p : Plan) (g n : Nat) : Nat × Nat :=
  let tk := c.kiteTime p g
  qAdd (tk, 1) (let m := qMax (qDiv 16000 (cyclesPerUs c.ident.profile)) (tk, 64); ((n - 1) * m.1, m.2))

/-- H0 of a plan's slice (R284, R288). -/
def Core.h0 (c : Core) (p : Plan) : Nat :=
  if c.fab.cfg.celoth1 then (if p.hdr.sliceKind = 1 then p.hdr.sliceK else 5)
  else if p.hdr.sliceKind = 1 then max 3 p.hdr.sliceK else 3

/-- The levels of a group above its meadow: members, rate, and the size of the machine's axis. -/
def Grp.axes (g : Grp) (cfg : FabCfg) : List (Nat × Nat × Nat) := [(g.gtx, g.rateX, cfg.sx), (g.gty, g.rateY, cfg.sy), (g.gtz, g.rateZ, cfg.sz)]

/-- The bytes each level moves as a time in ns, W_l (Table 09-3), for `e` elements that enter the first: the elements per member, E_l, are a fraction. -/
def Grp.levelW (g : Grp) (cfg : FabCfg) (w e : Nat) : List (Nat × Nat) :=
  let m := g.meadow
  let dims := onesOf 6 (spread (fieldAt g.ent.raw 0 8))
  let w0 :=
    if m < 2 then []
    else if g.cube then
      [(dims.zip (List.range 6)).foldl (fun a dj =>
        qAdd a (if dj.1 = 5 then qDiv (2 * e * w) (2 ^ (dj.2 + 1) * g.rateM) else qDiv (e * w) (2 ^ (dj.2 + 1) * g.rateM))) (0, 1)]
    else [qDiv ((m - 1) * e * w) (m * 2 * g.rateM)]
  let step := fun (acc : List (Nat × Nat) × Nat) (l : Nat × Nat × Nat) =>
    let (n, rate, _) := l
    if n < 2 then acc else (acc.1 ++ [qDiv ((n - 1) * e * w) (n * acc.2 * 2 * rate)], acc.2 * n)
  ((g.axes cfg).foldl step (w0, max m 1)).1

/-- The steps of one half with their α in ns, summed (Table 09-3). -/
def Core.halfSteps (c : Core) (p : Plan) (g : Grp) : Nat :=
  let m := g.meadow
  let k := if g.cube then popcount 6 (spread (fieldAt g.ent.raw 0 8)) else m - 1
  let meadow := if m < 2 then 0 else k * (c.h0 p * 96 + 150)
  meadow + sumNat ((g.axes c.fab.cfg).map (fun l =>
    let (n, _, sz) := l
    if n < 2 then 0 else (n - 1) * (2 * 96 + (if n = sz then 1 else n - 1) * c.globHop 112 + 150)))

/-- α_a of an exchange over a group (R324). -/
def Core.alphaA (c : Core) (p : Plan) (g : Grp) : Nat :=
  let axes := (g.axes c.fab.cfg).filter (fun l => 2 ≤ l.1)
  let hm := c.h0 p + axes.length + p.hdr.detourHops
  let hg := sumNat (axes.map (fun l => if l.1 = l.2.2 then l.1 / 2 else l.1 - 1))
  hm * 96 + hg * c.globHop 112 + 150

/-- A time in ns, a fraction, as cycles of the profile, rounded up once (R311). -/
def Core.toCycles (c : Core) (t : Nat × Nat) : Nat := ceilDiv (t.1 * cyclesPerUs c.ident.profile) (t.2 * 1000)

/-- Cycles as a time in ns. -/
def Core.cyclesNs (c : Core) (n : Nat) : Nat × Nat := qDiv (n * 1000) (cyclesPerUs c.ident.profile)

/-- Bytes of an element of a 4-bit format code. -/
def fmtBytes (f : BitVec 4) : Nat := elemBits (fmtD f) / 8

/-- The budget B of a collective in cycles (R311, R324, R328). -/
def Core.collBudget (c : Core) (x : Ctx) (opc : Nat) (f : CollF) (g : Grp) : Nat :=
  let cs := (g.share x.lsid).1
  let n := f.count.toNat
  let red := if opc = 0x93 then 5 else f.red.toNat
  let rb := g.rowUnits * 64
  if opc = 0x94 || opc = 0x95 then
    let bx := (g.n - 1) * g.expLocal * g.cap * rb
    let work := if opc = 0x94 then ceilDiv (g.expLocal * g.n * g.cap * rb) (512 * cs) else ceilDiv (n * g.kMax * rb) (256 * cs)
    c.toCycles (qAdd (qAdd (2000 + c.alphaA x.plan g, 1) (qDiv bx g.rateM)) (c.cyclesNs work))
  else if opc = 0x96 then
    let sent := fun (r : Nat) => sumNat ((g.ent.moves.filter (fun e => e.srcRank == r && e.dstRank != r)).map (fun e => e.units * 64))
    let recv := fun (r : Nat) => sumNat ((g.ent.moves.filter (fun e => e.dstRank == r && e.srcRank != r)).map (fun e => e.units * 64))
    let loc := fun (r : Nat) => sumNat ((g.ent.moves.filter (fun e => e.dstRank == r && e.srcRank == r)).map (fun e => e.units * 64))
    let bp := listMax ((List.range g.n).map (fun r => max (sent r) (recv r)))
    let l := listMax ((List.range g.n).map loc)
    c.toCycles (qAdd (qAdd (2000 + c.alphaA x.plan g, 1) (qDiv bp g.rateM)) (c.cyclesNs (ceilDiv l (512 * cs))))
  else
    let wrs := match red with | 1 => 4 | 2 => 8 | 3 => 16 | _ => fmtBytes f.fmtIn
    let wag := fmtBytes f.outFmt
    let rs := opc = 0x90 || opc = 0x91 || opc = 0x93
    let ag := opc = 0x90 || opc = 0x92 || opc = 0x93
    let w := (if rs then wrs else 0) + (if ag then wag else 0)
    let s := if opc = 0x92 then g.n * n else n
    let ws := g.levelW c.fab.cfg w s
    let top := ws.foldl qMax (0, 1)
    let all := ws.foldl qAdd (0, 1)
    let tbw := qAdd top (qDiv (all.1 * top.2 - top.1 * all.2) (all.2 * top.2 * max g.pieces 1))
    let chunkN := ceilDiv n 1024
    let kite := c.kiteRun x.plan f.group.toNat (ceilDiv chunkN 64)
    let anch := if (red = 2 || red = 3) && !f.anch && opc ≤ 0x91 then
        qAdd (c.cyclesNs (ceilDiv (n * fmtBytes f.fmtIn) (512 * cs))) kite
      else (0, 1)
    let b := qAdd (qAdd (2000 + ((if rs then 1 else 0) + (if ag then 1 else 0)) * c.halfSteps x.plan g, 1) anch) tbw
    let b1 := if f.anch then qMax b (qAdd (2000, 1) kite) else b
    c.toCycles b1

/-! ### The order of a sum (R303) -/

/-- The values of a cube level combined dimension by dimension: the members stand in ascending m, whose highest bit is the lowest dimension, so each
step joins the two halves of the list, the partner with bit 0 first. -/
def cubeSum (op : U32 → U32 → U32) : Nat → List U32 → U32
  | 0, vs => vs.headD 0
  | k + 1, vs =>
    let h := vs.length / 2
    cubeSum op k (List.zipWith op (vs.take h) (vs.drop h))

/-- The values of a ring level combined for piece `q`: from member q + 1 upward in the + ring, from q - 1 downward in the - ring. -/
def ringSum (op : U32 → U32 → U32) (plus : Bool) (q : Nat) (vs : List U32) : U32 :=
  let n := vs.length
  let order := tabulate n (fun t => if plus then (q + 1 + t) % n else (q + 2 * n - 1 - t) % n)
  match order with
  | [] => 0
  | a :: rest => rest.foldl (fun s i => op s (vs.getD i 0)) (vs.getD a 0)

/-- One ring level over a list of member values: piece and half of element `j` in data of `e` elements. -/
def ringLevel (op : U32 → U32 → U32) (j e : Nat) (vs : List U32) : U32 :=
  let n := vs.length
  if n < 2 then vs.headD 0
  else
    let piece := e / n
    let off := j % max e 1
    ringSum op (decide (off % max piece 1 < piece / 2)) (off / max piece 1) vs

/-- The reduction of one element over all ranks, level by level (R299, R303): `vs` holds the members' values in rank order, `count` the elements of
the array. -/
def reduceElem (op : U32 → U32 → U32) (g : Grp) (count j : Nat) (vs : List U32) : U32 :=
  let inner := g.gtx * g.gty * g.gtz
  let byRest := tabulate inner (fun r => tabulate g.meadow (fun m => vs.getD (m * inner + r) 0))
  let e1 := count / max g.meadow 1
  let l0 := byRest.map (fun col => if g.cube then cubeSum op (Nat.log2 g.meadow) col else ringLevel op j count col)
  let e2 := e1 / max g.gtx 1
  let l1 := tabulate (g.gty * g.gtz) (fun r => ringLevel op j e1 (tabulate g.gtx (fun x => l0.getD (x * (g.gty * g.gtz) + r) 0)))
  let e3 := e2 / max g.gty 1
  let l2 := tabulate g.gtz (fun r => ringLevel op j e2 (tabulate g.gty (fun y => l1.getD (y * g.gtz + r) 0)))
  ringLevel op j e3 l2

/-! ### Data of the members -/

/-- One member's data: bytes and the poisoned units of them. -/
structure Member where
  bytes : List Byte
  bad : List Nat
  anchors : List Byte

/-- The members' data in rank order: this module's own and what the command brings; none when a member's is missing. -/
def gatherMembers (n own : Nat) (mine : Member) (peers : List PeerData) : Option (List Member) :=
  (List.range n).foldr (fun r acc =>
    match (if r = own then some mine else (peers.find? (fun p => p.rank == r)).map (fun p => ⟨p.bytes, p.bad, p.anchors⟩)), acc with
    | some d, some ds => some (d :: ds)
    | _, _ => none) (some [])

/-- Bytes of a tenant range read as flat data: a poisoned unit makes the verdict unclean (R228). -/
def Ctx.readRange (x : Ctx) (addr bytes : Nat) (m : Mach) : List Byte × List Nat × Mach :=
  let keys := x.gaKeys m.core addr (ceilDiv bytes 64)
  let bad := (List.range keys.length).filter (fun i => m.bad (keys.getD i 0))
  let m1 := if bad.isEmpty then m else m.up (fun c => c.modJob x.plan.handle (Job.unclean causeFault))
  ((m.units keys).take bytes, bad, m1)

/-- Units written at a tenant address with their poison bits. -/
def Ctx.putRange (x : Ctx) (addr : Nat) (bytes : List Byte) (bad : Nat → Bool) (m : Mach) : Mach :=
  let n := ceilDiv bytes.length 64
  let keys := x.gaKeys m.core addr n
  x.moved addr keys (m.putMarked keys (padTo (64 * n) bytes) (tabulate n bad))

/-- A draw that a given logical module makes (R306). -/
def Ctx.drawAs (x : Ctx) (module lane cyc : Nat) : Nat :=
  cbPiece (gxCb64 x.job.key.toNat (cbX1 x.job.step.toNat lane x.lsid.toNat) (cbD module x.job.beat cyc)) 0

/-- A result element converted by its owner (R37, R306, R526): an FP32 result is not converted. -/
def Ctx.outElem (x : Ctx) (f : CollF) (owner j : Nat) (v : U32) : Nat :=
  let ft := fmtD f.outFmt
  let cvt := cvtOf f.cvt
  let r := if cvt.sr then x.drawAs owner (j % 32) (x.issue + j / 32) else 0
  match ft with
  | .bf16 => bf16P.convert cvt.sat cvt.sr r (f32 v)
  | .fp16 => fp16P.convert cvt.sat cvt.sr r (f32 v)
  | _ => v.toNat

/-- The runs of elements a station writes of `n` equal segments: (first element, elements) of its share of each (R300). -/
def shareRuns (count n c i : Nat) : List (Nat × Nat) :=
  let seg := count / max n 1
  let sub := seg / max c 1
  tabulate n (fun q => (q * seg + i * sub, sub))

/-! ### Reductions -/

/-- Elements of the input format as FP32 values (R130, R303). -/
def inVals (ft : Fmt) (bs : List Byte) : List U32 := flatVals ft bs

/-- FP32 max and min of collectives (R304). -/
def maxOp (a b : U32) : U32 := toF32 ((f32 a).vmax (f32 b))

/-- FP32 min. -/
def minOp (a b : U32) : U32 := toF32 ((f32 a).vmin (f32 b))

/-- Where a reduction writes: ALLREDUCE every share, REDUCE_SCATTER this rank's, and the address of an element's place. -/
def Ctx.reduceRuns (x : Ctx) (opc : Nat) (f : CollF) (g : Grp) : List ((Nat × Nat) × Nat) :=
  let (c, i) := g.share x.lsid
  let rank := g.ent.rank.getD 0
  let sz := fmtBytes f.outFmt
  let count := f.count.toNat
  let runs := shareRuns count g.n c i
  if opc = 0x91 then
    match runs[rank]? with
    | some r => [(r, f.dst.toNat + (r.1 - rank * (count / max g.n 1)) * sz)]
    | none => []
  else runs.map (fun r => (r, f.dst.toNat + r.1 * sz))

/-- Results written run by run (R302): `val` gives an element's code and `bad` whether it carries poison. -/
def Ctx.putRuns (x : Ctx) (f : CollF) (runs : List ((Nat × Nat) × Nat)) (val : Nat → Nat) (bad : Nat → Bool) (m : Mach) : Mach :=
  let sz := fmtBytes f.outFmt
  runs.foldl (fun m r =>
    let bytes := (tabulate r.1.2 (fun k => bytesLE sz (val (r.1.1 + k)))).flatten
    let per := 64 / max sz 1
    x.putRange r.2 bytes (fun u => (List.range per).any (fun k => bad (r.1.1 + u * per + k))) m) m

/-- An FP32, max or min reduction (R303, R304). -/
def Ctx.plainReduce (x : Ctx) (opc : Nat) (f : CollF) (g : Grp) (ms : List Member) (stale : Bool) (m : Mach) : Mach :=
  let ft := fmtD f.fmtIn
  let isz := fmtBytes f.fmtIn
  let vals := ms.map (fun d => (inVals ft d.bytes).toArray)
  let op := if f.red == 4 then maxOp else if f.red == 5 then minOp else f32Add
  let count := f.count.toNat
  let owner := fun (j : Nat) => g.ent.members.getD (j / max (count / max g.n 1) 1) 0
  x.putRuns f (x.reduceRuns opc f g)
    (fun j => x.outElem f (owner j) j (reduceElem op g count j (vals.map (fun a => a.getD j 0))))
    (fun j => stale || ms.any (fun d => d.bad.contains (j * isz / 64))) m

/-- The reduced anchor byte of a chunk (R45, R50): the largest over the members. -/
def reducedByte (ms : List (List Nat)) (ch : Nat) : Nat := listMax (ms.map (fun l => l.getD ch 0))

/-- The exact anchor bytes of every chunk of flat data (R45). -/
def exactBytes (vals : List U32) : List Nat := (chunks 1024 vals).map (fun c => listMax (c.map anchorByte))

/-- The chunks of a station's share of the segments. -/
def Ctx.myChunks (x : Ctx) (f : CollF) (g : Grp) : List Nat :=
  let (c, i) := g.share x.lsid
  (shareRuns f.count.toNat g.n c i).flatMap (fun r => List.range' (r.1 / 1024) (r.2 / 1024))

/-- The bytes that a station of an anchored reduction brings to the kite line: with ANCH 0 the exact anchor bytes of its chunks (R307), with ANCH 1 those of their
records (R308); none for another collective. -/
def Ctx.ownAnchors (x : Ctx) (opc : Nat) (f : CollF) (g : Grp) (m : Mach) : List Nat :=
  if !(opc ≤ 0x91 && (f.red == 2 || f.red == 3)) then []
  else
    let n := f.count.toNat / 1024
    let all :=
      if f.anch then
        let fa := if f.red == 3 then Fmt.as128 else .as64
        (x.readRange (f.src.toNat + n * tileUnits fa * 64) n m).1.map (fun b => b.toNat)
      else exactBytes (inVals (fmtD f.fmtIn) (x.readRange f.src.toNat (f.count.toNat * fmtBytes f.fmtIn) m).1)
    (x.myChunks f g).map (fun ch => all.getD ch 0)

/-- The max-reductions of an anchored reduction submitted to the kite line (R307, R308): 64 chunks each, lane width 8, operation MAXU. -/
def Ctx.anchorOps (x : Ctx) (f : CollF) (own : List Nat) (m : Mach) : Mach :=
  (chunks 64 own).foldl (fun m b => m.up (fun c =>
    let s := c.kiteNext x.plan.handle f.group.toNat
    (c.kiteBump x.plan.handle f.group.toNat 1).kiteSubmit
      { plan := x.plan.handle, group := f.group, seq := BitVec.ofNat 14 s, epoch := epochOf x.job.step x.job.attempt, op := 2, width := 0, submitter := 2 }
      (b.map (BitVec.ofNat 8)))) m

/-- An EXACT anchored reduction (R305, R307). -/
def Ctx.exactReduce (x : Ctx) (opc : Nat) (f : CollF) (g : Grp) (ms : List Member) (stale : Bool) (m : Mach) : Mach :=
  let ft := fmtD f.fmtIn
  let fa := if f.red == 3 then Fmt.as128 else .as64
  let isz := fmtBytes f.fmtIn
  let vals := ms.map (fun d => (inVals ft d.bytes).toArray)
  let anch := ms.map (fun d => exactBytes (inVals ft d.bytes))
  let bf := fmtD f.outFmt == .bf16
  x.putRuns f (x.reduceRuns opc f g)
    (fun j =>
      let b := reducedByte anch (j / 1024)
      anchorFinal fa bf (cvtOf f.cvt).sat b (vals.foldl (fun s a => anchorAdd fa s (anchorConvert fa b (a.getD j 0))) 0))
    (fun j => stale || ms.any (fun d => d.bad.contains (j * isz / 64))) m

/-- The AS tiles of a station's share of its own data read (R93, R300, R301): their integers, carried bytes and poison, chunk by chunk. -/
def Ctx.readAs (x : Ctx) (fa : Fmt) (addr n : Nat) (my : List Nat) (m : Mach) : List (List Int × Nat × Bool) × Mach :=
  (List.range n).foldl (fun (acc : List (List Int × Nat × Bool) × Mach) i =>
    if !(my.contains i) then (acc.1 ++ [(List.replicate 1024 0, 0, false)], acc.2)
    else
      let keys := x.gaKeys acc.2.core (addr + i * tileUnits fa * 64) (tileUnits fa)
      let (t, m1) := x.readTileAt fa none keys acc.2
      let ns := t.blocks.flatMap (fun b => b.codes.map (signed (elemBits fa)))
      (acc.1 ++ [(ns, (t.trailer.scale.getD 0 0).toNat, t.poison)], m1)) ([], m)

/-- A CARRIED anchored reduction (R305, R308): the anchor table receives each chunk's next carried byte, and a miss makes the verdict unclean. -/
def Ctx.carriedReduce (x : Ctx) (opc : Nat) (f : CollF) (g : Grp) (mine : List (List Int × Nat × Bool)) (own : Nat) (ms : List Member)
    (stale : Bool) (m : Mach) : Mach :=
  let fa := if f.red == 3 then Fmt.as128 else .as64
  let sz := elemBits fa / 8
  let ints := ms.mapIdx (fun r d =>
    if r = own then (mine.flatMap (fun c => c.1)).toArray else ((chunks sz d.bytes).map (fun b => signed (elemBits fa) (natLE b))).toArray)
  let recs := ms.map (fun d => d.anchors.map (fun b => b.toNat))
  let h := f.head.toNat
  let my := x.myChunks f g
  let bcOf := fun (ch : Nat) => ((mine[ch]?).map (fun c => c.2.1)).getD 0
  let bf := fmtD f.outFmt == .bf16
  let m2 := x.putRuns f (x.reduceRuns opc f g)
    (fun j =>
      let ch := j / 1024
      let b := if reducedByte recs ch = 0xFF then 0xFF else bcOf ch
      anchorFinal fa bf (cvtOf f.cvt).sat b (ints.foldl (fun s a => anchorAdd fa s (a.getD j 0)) 0))
    (fun j => stale || (mine.getD (j / 1024) ([], 0, false)).2.2 || ms.any (fun d => d.bad.contains (j * sz / 64))) m
  let misses := (my.filter (fun ch => anchorMissed (bcOf ch) (reducedByte recs ch))).map (fun ch => (ch, reducedByte recs ch))
  let m3 := my.foldl (fun m ch =>
    let r := reducedByte recs ch
    let b := if anchorMissed (bcOf ch) r then anchorRaised h r else anchorNext h (bcOf ch) r
    match x.gaKeys m.core (g.anchorOff + ch / 64 * 64) 1 with
    | k :: _ => m.patch (k + ch % 64) [BitVec.ofNat 8 b]
    | [] => m) m2
  let m4 := m3.up (fun c => c.addRec x.job 0xFF (.anchor g.anchorOff h misses))
  if misses.isEmpty then m4 else m4.up (fun c => c.modJob x.plan.handle (Job.unclean 1))

/-- ALLREDUCE or REDUCE_SCATTER once every member's data are there. -/
def Ctx.reduce (x : Ctx) (opc : Nat) (f : CollF) (g : Grp) (peers : List PeerData) (stale : Bool) (m : Mach) : Option Mach :=
  let own := g.ent.rank.getD 0
  let count := f.count.toNat
  if (f.red == 2 || f.red == 3) && f.anch then
    let fa := if f.red == 3 then Fmt.as128 else .as64
    let n := count / 1024
    let (mine, m1) := x.readAs fa f.src.toNat n (x.myChunks f g) m
    let (recs, _, m2) := x.readRange (f.src.toNat + n * tileUnits fa * 64) n m1
    (gatherMembers g.n own ⟨[], [], recs⟩ peers).map (fun ms => x.carriedReduce opc f g mine own ms stale m2)
  else
    let (bs, bad, m1) := x.readRange f.src.toNat (count * fmtBytes f.fmtIn) m
    (gatherMembers g.n own ⟨bs, bad, []⟩ peers).map (fun ms =>
      if f.red == 2 || f.red == 3 then x.exactReduce opc f g ms stale m1 else x.plainReduce opc f g ms stale m1)

/-! ### Gathers, broadcasts and moves -/

/-- ALL_GATHER and BROADCAST (R302): each rank's elements, or rank 0's, bytes unchanged. -/
def Ctx.spreadOut (x : Ctx) (opc : Nat) (f : CollF) (g : Grp) (peers : List PeerData) (stale : Bool) (m : Mach) : Option Mach :=
  let own := g.ent.rank.getD 0
  let (c, i) := g.share x.lsid
  let sz := fmtBytes f.fmtIn
  let bytes := f.count.toNat * sz
  let part := bytes / c
  let (bs, bad, m1) := if opc = 0x93 && own ≠ 0 then ([], [], m) else x.readRange f.src.toNat bytes m
  let ranks := if opc = 0x93 then [0] else List.range g.n
  (gatherMembers (if opc = 0x93 then 1 else g.n) own ⟨bs, bad, []⟩ peers).map (fun ms =>
    ranks.foldl (fun m r =>
      let d := ms.getD r ⟨[], [], []⟩
      x.putRange (f.dst.toNat + r * bytes + i * part) (slice d.bytes (i * part) part)
        (fun u => stale || d.bad.contains (i * part / 64 + u)) m) m1)

/-- SHARD_PERMUTE (R326 to R328): the moves whose destination is this member, from its own memory or from what their sources send in list order. -/
def Ctx.permute (x : Ctx) (g : Grp) (peers : List PeerData) (stale : Bool) (m : Mach) : Mach :=
  let own := g.ent.rank.getD 0
  let (c, i) := g.share x.lsid
  (g.ent.moves.foldl (fun (acc : List (Nat × Nat) × Mach) e =>
    let lo := i * e.units / c
    let n := (i + 1) * e.units / c - lo
    if e.dstRank ≠ own then
      if e.srcRank = own then (acc.1, (x.readRange (e.src + lo * 64) (n * 64) acc.2).2.2) else acc
    else
      if e.srcRank = own then
        let (bs, bad, m1) := x.readRange (e.src + lo * 64) (n * 64) acc.2
        (acc.1, x.putRange (e.dst + lo * 64) bs (fun u => stale || bad.contains u) m1)
      else
        let at_ := (lookup? e.srcRank acc.1).getD 0
        let m1 := match peers.find? (fun p => p.rank == e.srcRank) with
          | some p => x.putRange (e.dst + lo * 64) (padTo (n * 64) (slice p.bytes ((at_ + lo) * 64) (n * 64)))
              (fun u => stale || p.bad.contains (at_ + lo + u)) acc.2
          | none => acc.2
        (insertKey e.srcRank (at_ + e.units) acc.1, m1)) ([], m)).2

/-- What this member sends in SHARD_PERMUTE: the sources of its moves to others, in list order (R328). -/
def Ctx.movesOut (x : Ctx) (g : Grp) (m : Mach) : List Byte :=
  let own := g.ent.rank.getD 0
  let (c, i) := g.share x.lsid
  (g.ent.moves.filter (fun e => e.srcRank == own && e.dstRank != own)).flatMap (fun e =>
    let lo := i * e.units / c
    (x.readRange (e.src + lo * 64) (((i + 1) * e.units / c - lo) * 64) m).1)

/-! ### Expert dispatch and combine -/

/-- A sent or dropped entry: token, entry, expert, and its number for that expert (R321). -/
structure Sent where
  t : Nat
  q : Nat
  e : Nat
  n : Nat

/-- The expert and weight of an entry of a routing record (R153). -/
def recEntry (recs : List Byte) (t q : Nat) : Nat × U32 :=
  (fieldAt recs (t * 128 + q * 8) 2, BitVec.ofNat 32 (fieldAt recs (t * 128 + q * 8 + 4) 4))

/-- The valid entries of a member's tokens in order with their numbers, and the count of invalid ones (R321). -/
def routeOf (experts kMax count : Nat) (recs : List Byte) : List Sent × Nat :=
  (List.range count).foldl (fun acc t =>
    (List.range 16).foldl (fun (acc : List Sent × Nat) q =>
      let e := (recEntry recs t q).1
      if e = 0xFFFF then acc
      else if kMax ≤ q || experts ≤ e then (acc.1, acc.2 + 1)
      else (acc.1 ++ [⟨t, q, e, (acc.1.filter (fun s => s.e == e)).length⟩], acc.2)) acc) ([], 0)

/-- DISPATCH (R320 to R322). Each member's data are its rows followed by its routing records. Of `c` stations, the first writes the count table and the
status, and each its share of the receive rows (notes/assumptions/37). -/
def Ctx.dispatch (x : Ctx) (f : CollF) (g : Grp) (peers : List PeerData) (stale : Bool) (m : Mach) : Option Mach :=
  let own := g.ent.rank.getD 0
  let (c, i) := g.share x.lsid
  let rb := g.rowUnits * 64
  let count := f.count.toNat
  let experts := g.n * g.expLocal
  let (bs, bad, m1) := x.readRange f.src.toNat (count * rb + count * 128) m
  (gatherMembers g.n own ⟨bs, bad, []⟩ peers).map (fun ms =>
    let routes := ms.map (fun d => routeOf experts g.kMax count (d.bytes.drop (count * rb)))
    let rows := g.expLocal * g.n * g.cap
    let lo := i * rows / c
    let hi := (i + 1) * rows / c
    let m2 := (List.range' lo (hi - lo)).foldl (fun m r =>
      let n := r % g.cap
      let s := r / g.cap % g.n
      let e := own * g.expLocal + r / g.cap / g.n
      let d := ms.getD s ⟨[], [], []⟩
      match ((routes.getD s ([], 0)).1).find? (fun k => k.e == e && k.n == n) with
      | some k => x.putRange (f.dst.toNat + r * rb) (padTo rb (slice d.bytes (k.t * rb) rb))
          (fun u => stale || d.bad.contains (k.t * g.rowUnits + u)) m
      | none => x.putRange (f.dst.toNat + r * rb) (List.replicate rb 0) (fun _ => stale) m) m1
    if i ≠ 0 then m2
    else
      let counts := tabulate (g.expLocal * g.n) (fun k =>
        let e := own * g.expLocal + k / g.n
        min g.cap (((routes.getD (k % g.n) ([], 0)).1).filter (fun s => s.e == e)).length)
      let table := counts.flatMap (bytesLE 4)
      let m3 := x.putRange (f.dst.toNat + rows * rb) (padTo (64 * ceilDiv table.length 64) table) (fun _ => stale) m2
      let (mine, inv) := routes.getD own ([], 0)
      let sent := (mine.filter (fun s => s.n < g.cap)).length
      let w := padTo 60 (bytesLE 4 sent ++ bytesLE 4 (mine.length - sent) ++ bytesLE 4 inv)
      x.putRange (f.src.toNat + count * rb + count * 128) (w ++ bytesLE 4 (crc32c w)) (fun _ => stale) m3)

/-- One token's output of COMBINE (R323): the weighted rows of its sent entries, in ascending entry. -/
def combineRow (g : Grp) (recs : List Byte) (sent : List Sent) (t elems : Nat) (row : Nat → Nat → List U32) : List U32 :=
  let (e0, w0) := recEntry recs t 0
  if e0 = 0xFFFF && f32IsNaN w0 then List.replicate elems f32NaN
  else
    (sent.filter (fun s => s.t == t && s.n < g.cap)).foldl (fun acc s =>
      List.zipWith (fun a y => f32Fma (recEntry recs t s.q).2 y a) acc (row s.e s.n)) (List.replicate elems f32Zero)

/-- COMBINE (R323). Each member's data are the expert output rows of its receive layout. -/
def Ctx.combine (x : Ctx) (f : CollF) (g : Grp) (peers : List PeerData) (stale : Bool) (m : Mach) : Option Mach :=
  let own := g.ent.rank.getD 0
  let (c, i) := g.share x.lsid
  let rb := g.rowUnits * 64
  let count := f.count.toNat
  let experts := g.n * g.expLocal
  let ft := fmtD f.fmtIn
  let elems := rb / max (fmtBytes f.fmtIn) 1
  let (bs, bad, m1) := x.readRange f.src.toNat (g.expLocal * g.n * g.cap * rb) m
  let (recs, _, m2) := x.readRange (f.dst.toNat + count * rb) (count * 128) m1
  (gatherMembers g.n own ⟨bs, bad, []⟩ peers).map (fun ms =>
    let place := fun (e n : Nat) => ((e % g.expLocal) * g.n + own) * g.cap + n
    let src := fun (e : Nat) => ms.getD (e / g.expLocal) ⟨[], [], []⟩
    let rows := experts * g.cap
    let lo := i * rows / c
    let hi := (i + 1) * rows / c
    let m3 := (List.range' lo (hi - lo)).foldl (fun m r =>
      let e := r / g.cap
      let n := r % g.cap
      let d := src e
      x.putRange (g.stage + r * rb) (padTo rb (slice d.bytes (place e n * rb) rb)) (fun u => stale || d.bad.contains (place e n * g.rowUnits + u)) m) m2
    let (sent, _) := routeOf experts g.kMax count recs
    let osz := fmtBytes f.outFmt
    let owner := g.ent.members.getD own 0
    let tlo := i * count / c
    let thi := (i + 1) * count / c
    (List.range' tlo (thi - tlo)).foldl (fun m t =>
      let vals := combineRow g recs sent t elems (fun e n => inVals ft (padTo rb (slice (src e).bytes (place e n * rb) rb)))
      let isBad := stale || (sent.filter (fun s => s.t == t && s.n < g.cap)).any (fun s =>
        (List.range g.rowUnits).any (fun u => (src s.e).bad.contains (place s.e s.n * g.rowUnits + u)))
      let out := (vals.mapIdx (fun k v => bytesLE osz (x.outElem f owner (t * elems + k) v))).flatten
      x.putRange (f.dst.toNat + t * elems * osz) out (fun _ => isBad) m) m3)

/-! ### Issue -/

/-- Units of the source and destination of a collective. -/
def collUnits (opc : Nat) (f : CollF) (g : Grp) : Nat × Nat :=
  let n := f.count.toNat
  let i := fmtBytes f.fmtIn
  let o := fmtBytes f.outFmt
  let rb := g.rowUnits * 64
  let area := g.expLocal * g.n * g.cap * rb
  match opc with
  | 0x90 => ((if f.anch then n / 1024 * tileUnits (fmtD f.fmtIn) + ceilDiv (n / 1024) 64 else ceilDiv (n * i) 64), ceilDiv (n * o) 64)
  | 0x91 => ((if f.anch then n / 1024 * tileUnits (fmtD f.fmtIn) + ceilDiv (n / 1024) 64 else ceilDiv (n * i) 64), ceilDiv (n / max g.n 1 * o) 64)
  | 0x92 => (ceilDiv (n * i) 64, ceilDiv (g.n * n * i) 64)
  | 0x93 => (ceilDiv (n * i) 64, ceilDiv (n * i) 64)
  | 0x94 => ((n * rb + n * 128) / 64 + 1, area / 64 + ceilDiv (4 * g.expLocal * g.n) 64)
  | 0x95 => (area / 64, ceilDiv (n * (rb / max i 1) * o) 64)
  | _ => (0, 0)

/-- Where a collective reads and writes, and its budget as its duration (R311). -/
def collSpec (opc : Nat) (m : Mach) (x : Ctx) (f : CollF) : StnSpec :=
  match x.grp f with
  | none => { opc := opc }
  | some g =>
    let (su, du) := collUnits opc f g
    let own := g.ent.rank.getD 0
    let hasSrc := opc ≠ 0x96 && !(opc = 0x93 && own ≠ 0)
    let moves := g.ent.moves.filter (fun _ => opc = 0x96)
    let src := (if hasSrc then [(f.src.toNat, su)] else []) ++ ((moves.filter (fun e => e.srcRank == own)).map (fun e => (e.src, e.units)))
    let dst := (if opc = 0x96 then [] else [(f.dst.toNat, du)]) ++ ((moves.filter (fun e => e.dstRank == own)).map (fun e => (e.dst, e.units)))
    let (sp, _, u, n) := gaRange f.dst.toNat du
    { opc := opc
      reads := src
      ranges := (src ++ dst).map (fun r => gaRange r.1 r.2)
      writes := dst.map (fun r => gaRange r.1 r.2)
      dur := m.core.collBudget x opc f g
      token := (u, if sp = 2 then n else 0) }

/-- A descriptor's SRC and DST put into a collective (R116). -/
def collSub (f : CollF) (d : Nat) : Option CollF :=
  let s := BitVec.ofNat 50 (field d 134 50)
  let t := BitVec.ofNat 50 (field d 184 50)
  if gaSpace s.toNat = 3 || gaSpace t.toNat = 3 then none else some { f with src := s, dst := t }

/-- The effect of a collective: nothing and a poisoned token when its CID has been aborted (R334), else the exchange, what left and what came
recorded (10 R344, R358). An anchored reduction that has not waited submits its kite operations now. -/
def collBody (opc : Nat) (peers : List PeerData) (f : CollF) (x : Ctx) (stale : Bool) (m : Mach) : Bool × Mach :=
  match x.grp f with
  | none => (true, m)
  | some g =>
    let k := m.core.collCid x.plan.handle x.job x.lsid f.group.toNat
    let asked := m.core.fab.colls.any (fun r => !r.done && r.asked && r.plan == x.plan.handle && r.lsid == x.lsid)
    let run := fun (ab : Bool) (m : Mach) => m.up (fun c => c.modFab (fun q =>
      { q with colls := q.colls.filter (fun r => r.done || !(r.plan == x.plan.handle && r.lsid == x.lsid)) ++
                          [{ plan := x.plan.handle, cid := k, lsid := x.lsid, die := x.die - 0x10, done := true, aborted := ab, xid := x.collXid, asked := true }] }))
    if m.core.fab.aborted.contains (x.plan.handle, k) then (true, run true m)
    else
      let own := x.ownAnchors opc f g m
      let m := if asked then m else x.anchorOps f own m
      let res := match opc with
        | 0x90 | 0x91 => x.reduce opc f g peers stale m
        | 0x92 | 0x93 => x.spreadOut opc f g peers stale m
        | 0x94 => x.dispatch f g peers stale m
        | 0x95 => x.combine f g peers stale m
        | _ => some (x.permute g peers stale m)
      match res with
      | none => (true, m)
      | some m1 =>
        let mine := if opc = 0x96 then x.movesOut g m else (x.readRange f.src.toNat (64 * (collUnits opc f g).1) m).1
        let (_, c2) := if g.n < 2 || mine.isEmpty then (true, m1.core)
          else m1.core.outbound x.plan.handle 0xFF (0x200 + f.group.toNat) (k.inst * 4 + lsDie x.lsid) mine
        let c3 := if x.job.phase == .localReplay || peers.isEmpty then c2
          else c2.addRec x.job 0xFF (.inbound 0 x.collXid.toNat [] (peers.flatMap (fun p => p.bytes)) [] false 0 0 0)
        (stale, run false { m1 with core := c3 })

/-- Whether every other member's data are there, so that the collective can complete, or it has been aborted (R334). -/
def Mach.collReady (m : Mach) (st : Stn) (f : CollF) (opc : Nat) (peers : List PeerData) : Bool :=
  match m.core.plan? st.plan with
  | none => true
  | some p =>
    match p.groups.find? (fun e => e.index == f.group.toNat) with
    | none => true
    | some e =>
      let own := e.rank.getD 0
      let need := if opc = 0x93 then [0]
        else if opc = 0x96 then (e.moves.filter (fun k => k.dstRank == own)).map (fun k => k.srcRank)
        else List.range e.members.length
      need.all (fun r => r == own || peers.any (fun q => q.rank == r)) ||
      (match m.core.job? st.plan with
       | some j => m.core.fab.aborted.contains (st.plan, m.core.collCid st.plan j st.lsid f.group.toNat)
       | none => false)

/-- STATE and LEVEL of a collective that waits for its partners (Table 09-11; notes/assumptions/83). -/
def Grp.waitState (g : Grp) (opc : Nat) (f : CollF) : Nat × Nat :=
  let levels := (List.range 4).filter (fun l => decide (1 < [g.meadow, g.gtx, g.gty, g.gtz].getD l 0))
  match opc with
  | 0x90 | 0x91 => (if (f.red == 2 || f.red == 3) && !f.anch then 1 else 2, levels.headD 7)
  | 0x92 => (3, levels.getLastD 7)
  | 0x94 | 0x95 => (2, 7)
  | _ => (3, 7)

/-- A collective that could issue but for its partners is in progress: it submits its anchor reductions and waits for their frames (R307, R308, R310, R330, R335). -/
def Mach.collWaits (st : Stn) (h : Hdr) (f : CollF) (opc : Nat) (m : Mach) : Mach :=
  match m.ctx st h opc with
  | none => m
  | some x =>
    match x.grp f with
    | none => m
    | some g =>
      let held := !x.job.holds.isEmpty || (h.wait && (m.core.headToken x.part h.inCh.toNat).isNone) || (h.ind && !((x.descriptor m.core).2.2.getLsbD 0))
      let waiting := m.core.fab.colls.any (fun r => !r.done && r.plan == st.plan && r.lsid == st.lsid)
      if held || waiting then m
      else
        let (s, l) := g.waitState opc f
        (x.anchorOps f (x.ownAnchors opc f g m) m).up (fun c => c.modFab (fun q => { q with colls := q.colls ++
          [{ plan := st.plan, cid := c.collCid st.plan x.job st.lsid f.group.toNat, lsid := st.lsid, die := x.die - 0x10, state := BitVec.ofNat 3 s, level := BitVec.ofNat 3 l,
             xid := x.collXid, asked := true }] }))

/-- A collective issues and runs when its partners' data are there, and waits for them otherwise. -/
def collRun (opc : Nat) (granted : Bool) (i : Instr) (st : Stn) (h : Hdr) (f : CollF) (peers : List PeerData) (m : Mach) : Mach :=
  if m.collReady st f opc peers then issueWith granted i st h f opc collSub (collSpec opc) (collBody opc peers) m else m.collWaits st h f opc

/-- ALLREDUCE (R302). -/
def execAllreduce (st : Stn) (h : Hdr) (f : CollF) (peers : List PeerData) (s : State) : Host.Outcome State Fault Refusal :=
  runM (collRun 0x90 false (.allreduce st h f peers) st h f peers) s

/-- REDUCE_SCATTER (R302). -/
def execReduceScatter (st : Stn) (h : Hdr) (f : CollF) (peers : List PeerData) (s : State) : Host.Outcome State Fault Refusal :=
  runM (collRun 0x91 false (.reduceScatter st h f peers) st h f peers) s

/-- ALL_GATHER (R302). -/
def execAllGather (st : Stn) (h : Hdr) (f : CollF) (peers : List PeerData) (s : State) : Host.Outcome State Fault Refusal :=
  runM (collRun 0x92 false (.allGather st h f peers) st h f peers) s

/-- BROADCAST (R302). -/
def execBroadcast (st : Stn) (h : Hdr) (f : CollF) (peers : List PeerData) (s : State) : Host.Outcome State Fault Refusal :=
  runM (collRun 0x93 false (.broadcast st h f peers) st h f peers) s

/-- DISPATCH (R322). -/
def execDispatch (st : Stn) (h : Hdr) (f : CollF) (peers : List PeerData) (s : State) : Host.Outcome State Fault Refusal :=
  runM (collRun 0x94 false (.dispatch st h f peers) st h f peers) s

/-- COMBINE (R323). -/
def execCombine (st : Stn) (h : Hdr) (f : CollF) (peers : List PeerData) (s : State) : Host.Outcome State Fault Refusal :=
  runM (collRun 0x95 false (.combine st h f peers) st h f peers) s

/-- SHARD_PERMUTE (R328). -/
def execShardPermute (st : Stn) (h : Hdr) (f : CollF) (peers : List PeerData) (s : State) : Host.Outcome State Fault Refusal :=
  runM (collRun 0x96 false (.shardPermute st h f peers) st h f peers) s

end Sys2Proof.Machine
end

