-- ==== Sys2Proof/Machine/Cores.lean ====
section
/-!
DEFINITION. Control cores' memory accesses (07_memory.md R239 to R243, 04 R114): data caches and the L2 directory of a die, uncached station memory, remote
reads and writes, reservations, CLEAN, INVAL and FENCE.
-/

namespace Sys2Proof.Machine

/-- Where a control core's address leads: a cached HBM line, an uncached station memory unit, another module, a channel of its
die, or nowhere it may go (R213, 04 R114). -/
inductive CoreAddr where
  | line (k : Nat)
  | sm (k : Nat)
  | far (module : Nat)
  | chan (part ch : Nat)
  | none
deriving DecidableEq, Repr

/-- The place of a control core's address for a plan. The endpoint of a channel stands in the upper half of the control space, its logical partition in bits
[32:30] and its number in bits [14:3] (notes/assumptions/115). -/
def Core.coreAddr (c : Core) (p : Plan) (j : Job) (a : Nat) : CoreAddr :=
  if gaModule a ≠ j.logicalModule then .far (gaModule a)
  else
    let u := gaOff a / 64 * 64
    match gaSpace a with
    | 0 => (match c.resolve p.tenant p.pm 0 u with | some k => .line k | none => .none)
    | 2 =>
      let (lp, n) := splitOff 2 u
      if p.granted (2, lp, n, 1) then (match c.resolve p.tenant p.pm 2 u with | some k => .sm k | none => .none) else .none
    | 3 =>
      if bitOf a 47 && field a 33 14 == 0 && field a 15 15 == 0 && field a 0 3 == 0 then
        (match p.phys (field a 30 3) with | some d => .chan d (field a 3 12) | none => .none)
      else .none
    | _ => .none

/-- A control core takes the oldest token of a channel that it consumes (04 R114); an empty channel gives 0, whose NTILES no token has, and another plan's or
station's channel nothing but a data abort (notes/assumptions/115). -/
def Core.coreTake (c : Core) (p : Plan) (part core d ch : Nat) : Core :=
  match lookup? ch (c.part d).streams.chans with
  | none => c.emit (.dataAbort part core)
  | some s =>
    if d = part && s.plan == p.handle && (p.ctrl.any (fun e => e.1 == s.consumer && e.2 == core && p.phys (lsDie e.1) == some part)) then
      (c.popToken d ch).emit (.data (bytesLE 8 ((s.tokens.head?.map tokenBits).getD 0)))
    else c.emit (.dataAbort part core)

/-! ### The directory (R239 to R241) -/

/-- A line written to HBM; the tenant's Commons cache of the quadrant keeps it when it holds it (R214, R215). -/
def Mach.lineOut (part : Nat) (t : TenantId) (k : Nat) (bytes : List Byte) (m : Mach) : Mach :=
  let held := ((lookup? (t, part / 2) m.core.commonsLines).getD []).contains (k / 64)
  let m1 := m.putUnit k bytes false
  if held then m1.up (Core.touchLine t (part / 2) (k / 64)) else m1

/-- The L2 with a line put in front: 16,384 lines (1 MiB), the oldest going out (notes/assumptions/45). -/
def l2Put (l : L2Line) (ls : List L2Line) : List L2Line × List L2Line :=
  let all := l :: ls.filter (fun e => !(e.tenant == l.tenant && e.line == l.line))
  (all.take 16384, all.drop 16384)

/-- A line put into the L2; a line that goes out leaves the data caches and, when it differs from HBM, is written back. -/
def Mach.intoL2 (part : Nat) (l : L2Line) (m : Mach) : Mach :=
  let (keep, out) := l2Put l (m.core.part part).cores.l2
  let m1 := m.up (fun c => c.modCores part (fun q => { q with l2 := keep }))
  out.foldl (fun m o =>
    let dirty := (m.core.part part).cores.lines.find? (fun e => e.tenant == o.tenant && e.line == o.line && e.dirty)
    let m2 := m.up (fun c => c.modCores part (fun q => { q with lines := q.lines.filter (fun e => !(e.tenant == o.tenant && e.line == o.line)) }))
    match dirty with
    | some d => m2.lineOut part o.tenant (o.line * 64) d.bytes
    | none => if o.dirty then m2.lineOut part o.tenant (o.line * 64) o.bytes else m2) m1

/-- A modified copy of a line in a data cache written back into the L2 (R241). -/
def Mach.recall (part : Nat) (t : TenantId) (line : Nat) (m : Mach) : Mach :=
  match (m.core.part part).cores.lines.find? (fun e => e.tenant == t && e.line == line && e.dirty) with
  | none => m
  | some d =>
    (m.up (fun c => c.modCores part (fun q =>
      { q with lines := q.lines.map (fun e => if e.tenant == t && e.line == line then { e with dirty := false } else e) }))).intoL2 part
      { tenant := t, line := line, dirty := true, bytes := d.bytes }

/-- The bytes of a line as the L2 serves them, fetched through the Commons cache on a miss; none for a poisoned unit, which is not cached (R228, R239). -/
def Mach.fetchLine (part : Nat) (t : TenantId) (line : Nat) (m : Mach) : Option (List Byte) × Mach :=
  let m1 := m.recall part t line
  match (m1.core.part part).cores.l2.find? (fun e => e.tenant == t && e.line == line) with
  | some l => (some l.bytes, m1.intoL2 part l)
  | none =>
    let k := line * 64
    if m1.bad k then (none, m1)
    else
      let bytes := m1.unit k
      (some bytes, (m1.up (Core.touchLine t (part / 2) line)).intoL2 part { tenant := t, line := line, dirty := false, bytes := bytes })

/-- A line put into a core's data cache: 512 lines (32 KiB), the oldest going out and, when modified, back into the L2 (notes/assumptions/45). -/
def Mach.intoL1 (part : Nat) (l : CacheLine) (m : Mach) : Mach :=
  let q := (m.core.part part).cores
  let mine := l :: q.lines.filter (fun e => e.core == l.core && !(e.tenant == l.tenant && e.line == l.line))
  let out := mine.drop 512
  let m1 := m.up (fun c => c.modCores part (fun q => { q with lines := mine.take 512 ++ q.lines.filter (fun e => !(e.core == l.core)) }))
  out.foldl (fun m e => if e.dirty then m.intoL2 part { tenant := e.tenant, line := e.line, dirty := true, bytes := e.bytes } else m) m1

/-- A core's line gone bad in its data cache (R239): a clean line is dropped and fetched again, a modified one is a control-core fault. -/
def Mach.badLine (part core : Nat) (t : TenantId) (line : Nat) (m : Mach) : Mach :=
  match (m.core.part part).cores.lines.find? (fun e => e.core == core && e.tenant == t && e.line == line) with
  | none => m
  | some l =>
    let m1 := m.up (fun c => c.modCores part (fun q =>
      { q with lines := q.lines.filter (fun e => !(e.core == core && e.tenant == t && e.line == line)) }))
    if l.dirty then m1.up (Core.coreFault part core) else m1

/-- A line as a core loads it. -/
def Mach.loadLine (part core : Nat) (t : TenantId) (line : Nat) (m : Mach) : Option (List Byte) × Mach :=
  match (m.core.part part).cores.lines.find? (fun e => e.core == core && e.tenant == t && e.line == line) with
  | some l => (some l.bytes, m)
  | none =>
    let (bs, m1) := m.fetchLine part t line
    match bs with
    | some b => (bs, m1.intoL1 part { core := core, tenant := t, line := line, dirty := false, bytes := b })
    | none => (none, m1)

/-- Ownership of a line granted to a core (R241): every other copy is invalidated, a modified one written back first, and the reservations of the other
cores on the line end (R243). -/
def Mach.own (part core : Nat) (t : TenantId) (line : Nat) (m : Mach) : Option (List Byte) × Mach :=
  let (bs, m1) := m.loadLine part core t line
  match bs with
  | none => (none, m1)
  | some _ => (bs, m1.up (fun c => c.modCores part (fun q =>
      { q with lines := q.lines.filter (fun e => !(e.tenant == t && e.line == line && e.core != core)),
               reserved := q.reserved.filter (fun r => !(r.2.1 == t && r.2.2 == line && r.1 != core)) })))

/-- Bytes stored into an owned line. -/
def Mach.storeLine (part core : Nat) (t : TenantId) (line off : Nat) (bytes : List Byte) (m : Mach) : Bool × Mach :=
  match m.own part core t line with
  | (none, m1) => (false, m1)
  | (some old, m1) =>
    (true, m1.intoL1 part { core := core, tenant := t, line := line, dirty := true, bytes := padTo 64 (overwrite old off (bytes.take (64 - off))) })

/-! ### Remote accesses (08 R281) -/

/-- A remote access sent on VC6: a RD_REQ, or a WR_REQ with its byte mask, whose data belong to a step that has not sealed (R283). -/
def Core.farAccess (p : Plan) (j : Job) (part core module a : Nat) (write : Option (List Byte)) (c : Core) : Core :=
  match c.fab.slices.find? (fun s => s.tenant == p.tenant && s.map[j.logicalModule]? == some c.fab.cfg.own) with
  | none => c.emit (.dataAbort part core)
  | some s =>
    match s.map[module]? with
    | none => c.emit (.dataAbort part core)
    | some dst =>
      let xid := c.fab.xidNext
      let unit := a / 64 * 64
      let off := a % 64
      let head := bytesLE 8 unit ++ bytesLE 4 s.ckey.toNat ++ List.replicate 4 0
      let pay := match write with
        | none => padTo 32 head
        | some bs => padTo 32 (head ++ bytesLE 8 ((2 ^ min bs.length (64 - off) - 1) * 2 ^ off)) ++ padTo 64 (List.replicate off 0 ++ bs)
      (c.sendFrame { vc := 6, typ := if write.isSome then 6 else 4, dst := BitVec.ofNat 14 dst, src := 0, tenant := p.tenant, xid := xid,
                     uns := write.isSome, payload := pay, job := some (p.handle, j.step) }).modFab (fun q =>
        { q with xidNext := xid + 1,
                 remote := q.remote ++ [{ part := part, core := core, tenant := p.tenant, dst := BitVec.ofNat 14 dst, xid := xid, write := write.isSome }] })

/-! ### Loads and stores -/

/-- Whether a plan has a logical control core on a physical core of a die. -/
def Core.coreOf (c : Core) (plan part core : Nat) : Option (Plan × Job) :=
  match c.plan? plan, c.job? plan with
  | some p, some j => if c.coresRun plan part && !((c.part part).cores.failed.getLsbD core) && part < 8 && core < 5 then some (p, j) else none
  | _, _ => none

/-- A control core's load (R239, R240): the unit's bytes, or a precise data abort for a poisoned unit (R228). `lineErr` says that the core's own
line was found uncorrectable. -/
def coreLoad (plan part core : Nat) (addr : BitVec 64) (lineErr : Bool) (found : List MemErr) (m : Mach) : Mach :=
  match m.core.coreOf plan part core with
  | none => m
  | some (p, j) =>
    let a := addr.toNat
    match m.core.coreAddr p j a with
    | .none => m.up (Core.emit (.dataAbort part core))
    | .far d => m.up (Core.farAccess p j part core d a none)
    | .chan d ch => m.up (fun c => c.coreTake p part core d ch)
    | .sm k =>
      let m1 := m.meetFor p.tenant (some plan) 1 found
      if m1.bad k then m1.up (Core.emit (.dataAbort part core)) else m1.up (Core.emit (.data (m1.unit k)))
    | .line k =>
      let m0 := if lineErr then m.badLine part core p.tenant (k / 64) else m
      let m1 := m0.meetFor p.tenant (some plan) 1 found
      match m1.loadLine part core p.tenant (k / 64) with
      | (some b, m2) => m2.up (Core.emit (.data b))
      | (none, m2) => m2.up (Core.emit (.dataAbort part core))

/-- CONTROL_CORE_LOAD (R240): the plan, the die and core, the global address, and what the access meets. -/
def execControlCoreLoad (plan part core : Nat) (addr : BitVec 64) (lineErr : Bool) (found : List MemErr) (s : State) :
    Host.Outcome State Fault Refusal :=
  runM (coreLoad plan part core addr lineErr found) s

/-- Bytes stored to a granted station memory range, uncached, and recorded in the hamper (R242, 10 R344). -/
def Mach.coreSm (j : Job) (lp k off : Nat) (bytes : List Byte) (m : Mach) : Mach :=
  let bs := bytes.take (64 - off)
  let m1 := if bs.length = 64 then m.putUnit k bs false else m.patch (k + off) bs
  m1.up (fun c => c.addRec j lp (.store (k + off) bs))

/-- A control core's store (R240, R241): to a cached line, a granted station memory range, or another module. -/
def coreStore (plan part core : Nat) (addr : BitVec 64) (bytes : List Byte) (lineErr : Bool) (found : List MemErr) (m : Mach) : Mach :=
  match m.core.coreOf plan part core with
  | none => m
  | some (p, j) =>
    let a := addr.toNat
    match m.core.coreAddr p j a with
    | .none => m.up (Core.emit (.dataAbort part core))
    | .far d => m.up (Core.farAccess p j part core d a (some bytes))
    | .chan _ _ => m.up (Core.emit (.dataAbort part core))
    | .sm k => m.coreSm j (splitOff 2 (gaOff a)).1 k (a % 64) bytes
    | .line k =>
      let m0 := if lineErr then m.badLine part core p.tenant (k / 64) else m
      let m1 := m0.meetFor p.tenant (some plan) 1 found
      let (ok, m2) := m1.storeLine part core p.tenant (k / 64) (a % 64) bytes
      if ok then m2 else m2.up (Core.emit (.dataAbort part core))

/-- CONTROL_CORE_STORE (R241). -/
def execControlCoreStore (plan part core : Nat) (addr : BitVec 64) (bytes : List (BitVec 8)) (lineErr : Bool) (found : List MemErr) (s : State) :
    Host.Outcome State Fault Refusal :=
  runM (coreStore plan part core addr bytes lineErr found) s

/-- The tenant and line of a control core's cached address. -/
def Core.cachedLine (c : Core) (plan part core : Nat) (addr : BitVec 64) : Option (TenantId × Nat) :=
  (c.coreOf plan part core).bind (fun pj =>
    match c.coreAddr pj.1 pj.2 addr.toNat with
    | .line k => some (pj.1.tenant, k / 64)
    | _ => none)

/-- A load-reserved (R243): the line is loaded and the core's reservation set on it; a load that aborts sets none. -/
def loadReserved (plan part core : Nat) (addr : BitVec 64) (lineErr : Bool) (found : List MemErr) (m : Mach) : Mach :=
  let m1 := coreLoad plan part core addr lineErr found m
  match m.core.cachedLine plan part core addr with
  | none => m1
  | some (t, l) =>
    if (m1.core.part part).cores.lines.any (fun e => e.core == core && e.tenant == t && e.line == l) then
      m1.up (fun c => c.modCores part (fun q => { q with reserved := q.reserved.filter (fun r => r.1 != core) ++ [(core, t, l)] }))
    else m1

/-- LOAD_RESERVED (R243). -/
def execLoadReserved (plan part core : Nat) (addr : BitVec 64) (found : Lined (List MemErr)) (s : State) : Host.Outcome State Fault Refusal :=
  runM (loadReserved plan part core addr found.lineErr found.val) s

/-- A store-conditional (R243): it stores only while the core's reservation on the line stands, and the reservation ends. -/
def storeConditional (plan part core : Nat) (addr : BitVec 64) (bytes : List Byte) (lineErr : Bool) (m : Mach) : Mach :=
  match m.core.cachedLine plan part core addr with
  | none => m.up (Core.emit (.storeOk false))
  | some (t, l) =>
    let held := (m.core.part part).cores.reserved.contains (core, t, l)
    let m0 := if lineErr then m.badLine part core t l else m
    let m1 := m0.up (fun c => c.modCores part (fun q => { q with reserved := q.reserved.filter (fun r => r.1 != core) }))
    if held then
      let (ok, m2) := m1.storeLine part core t l (addr.toNat % 64) bytes
      m2.up (Core.emit (.storeOk ok))
    else m1.up (Core.emit (.storeOk false))

/-- STORE_CONDITIONAL (R243). -/
def execStoreConditional (plan part core : Nat) (addr : BitVec 64) (bytes : Lined (List (BitVec 8))) (s : State) : Host.Outcome State Fault Refusal :=
  runM (storeConditional plan part core addr bytes.val bytes.lineErr) s

/-- CLEAN (R242): the line's newest data reach the Commons cache and HBM, and no copy on the die differs from them. -/
def coreClean (plan part core : Nat) (addr : BitVec 64) (lineErr : Bool) (m : Mach) : Mach :=
  match m.core.cachedLine plan part core addr with
  | none => m
  | some (t, l) =>
    let m0 := if lineErr then m.badLine part core t l else m
    let m1 := m0.recall part t l
    match (m1.core.part part).cores.l2.find? (fun e => e.tenant == t && e.line == l && e.dirty) with
    | none => m1
    | some d =>
      (m1.lineOut part t (l * 64) d.bytes).up (fun c => c.modCores part (fun q =>
        { q with l2 := q.l2.map (fun e => if e.tenant == t && e.line == l then { e with dirty := false } else e) }))

/-- CLEAN (R242). -/
def execClean (plan part core : Nat) (addr : Lined (BitVec 64)) (s : State) : Host.Outcome State Fault Refusal :=
  runM (coreClean plan part core addr.val addr.lineErr) s

/-- INVAL (R240): the line leaves the die's data caches and L2, whatever it holds, so that the next load fetches it (notes/assumptions/46). -/
def coreInval (plan part core : Nat) (addr : BitVec 64) (c : Core) : Core :=
  match c.cachedLine plan part core addr with
  | none => c
  | some (t, l) => c.modCores part (fun q =>
      { q with lines := q.lines.filter (fun e => !(e.tenant == t && e.line == l)), l2 := q.l2.filter (fun e => !(e.tenant == t && e.line == l)) })

/-- INVAL (R240). -/
def execInval (plan part core : Nat) (addr : BitVec 64) (s : State) : Host.Outcome State Fault Refusal :=
  runC (fun _ _ c => coreInval plan part core addr c) s

/-- FENCE (R240, R242): every earlier CLEAN and store of the core is complete. Stores and CLEANs of this model complete as they run, so nothing is left
to wait for. -/
def execFence (plan part core : Nat) (s : State) : Host.Outcome State Fault Refusal :=
  runC (fun _ _ c => match c.coreOf plan part core with | some _ => c | none => c) s

end Sys2Proof.Machine
end

