-- ==== Sys2Proof/Machine/Links.lean ====
section
/-!
DEFINITION. The link layer's events (08_celoth_fabric.md R255 to R267, R274, R289; 06 R191, R194): bring-up, retraining, lanes, timers, credits, keys and
counter synchronization.
-/

namespace Sys2Proof.Machine

/-! ### States of a port -/

/-- What a port keeps of its state when it starts afresh (R265, R292, R293; 06 R203): its error counts, DISABLE, ASYM, its last θ, and whether encryption is wanted. -/
def Port.fresh (q : Port) : Port :=
  { st := .off, disable := q.disable, asym := q.asym, encWanted := q.encWanted, crcErr := q.crcErr, replayTo := q.replayTo,
    fecUncorr := q.fecUncorr, retrains := q.retrains, theta := q.theta }

/-- A port in UP enters RETRAIN (R265, R293); `ask` sends RETRAIN_REQ to the peer first (Table 08-6). -/
def Core.retrain (i : Nat) (ask : Bool) (c : Core) : Core :=
  if (c.port i).st == .up then
    (if ask then c.linkCtl i none 4 else c).modPort i (fun q => { q with st := .retrain, retrains := satInc q.retrains, synced := false })
  else c

/-- A port goes back to UP after a retrain: a NAK names its E, and waiting frames are sent (R265). -/
def Core.backUp (i : Nat) (c : Core) : Core :=
  (((c.modPort i (fun q => { q with st := .up, resends := 0 })).linkCtl i (some (c.port i).expect) 0).pump i).tellPorts

/-- The peer that R248, R249 or R252 gives for a port: its module ID and port index. -/
def FabCfg.peerOf (g : FabCfg) (i : Nat) : Option (Nat × Nat) :=
  let p := g.position
  let here := g.meadow * 64
  if i < 12 then
    if g.celoth1 && 10 ≤ i then none else some (here + meadowPeer p i, i)
  else if i < 14 then
    match (if g.celoth1 then none else g.axisOf p) with
    | none => none
    | some a =>
      let sz := g.size a
      if sz ≤ 1 then none
      else
        let x := coord g.meadow a
        let y := if i = 12 then (x + 1) % sz else (x + sz - 1) % sz
        some ((g.meadow - x * 8 ^ a + y * 8 ^ a) * 64 + p, if i = 12 then 13 else 12)
  else some (here + (p ^^^ 1), i)

/-- A LINK_INIT payload (R266). -/
def FabCfg.initBytes (g : FabCfg) (i : Nat) : List Byte :=
  padTo 32 (bytesLE 2 g.own ++ bytesLE 1 i ++ bytesLE 1 (boolNat g.celoth1) ++ bytesLE 4 g.digest.toNat)

/-- A LINK_INIT frame sent on a port (R266). -/
def Core.sendInit (i : Nat) (c : Core) : Core :=
  let g := c.fab.cfg
  let peer := match g.peerOf i with | some (m, _) => m | none => 0
  c.wire i { vc := 7, typ := 0xD, dst := BitVec.ofNat 14 peer, src := BitVec.ofNat 14 g.own, payload := g.initBytes i }

/-- A peer is detected on a port in OFF with DISABLE 0: training starts (R265). -/
def peerDetected (i : Nat) (c : Core) : Core :=
  let pt := c.port i
  if pt.st == .off && !pt.disable && decide (4 ≤ c.rst.phase) then c.modPort i (fun q => { q.fresh with st := .train }) else c

/-- PEER_DETECTED (R265). -/
def execPeerDetected (port : Nat) (s : State) : Host.Outcome State Fault Refusal := runC (fun _ _ c => peerDetected port c) s

/-- Failed lanes of a port. -/
def lanesBad (ok : BitVec 5) : List Nat := (List.range 5).filter (fun i => !(ok.getLsbD i))

/-- Full training completes with its one-way delay and the lanes that are healthy; the LINK_INIT exchange begins (R255, R266). -/
def trainingDone (i : Nat) (oneway : BitVec 14) (lanes : BitVec 5) (c : Core) : Core :=
  if (c.port i).st == .train then
    let bad := lanesBad lanes
    let c1 := c.modPort i (fun q =>
      { q with lanesOk := lanes, oneway := oneway, trained := true, spareFor := match bad with | [l] => if l < 4 then BitVec.ofNat 3 l else 7 | _ => 7 })
    match bad with
    | [] => c1.sendInit i
    | [l] => (if l < 4 then c1.logRec (portRec 0x508 2 1 i) else c1).sendInit i
    | _ => c1.failPort i
  else c

/-- TRAINING_DONE (R266). -/
def execTrainingDone (port : Nat) (oneway : BitVec 14) (lanes : BitVec 5) (s : State) : Host.Outcome State Fault Refusal :=
  runC (fun _ _ c => trainingDone port oneway lanes c) s

/-- The training attempts of a port are exhausted (Table 08-7). -/
def trainingFailed (i : Nat) (c : Core) : Core := if (c.port i).st == .train then c.failPort i else c

/-- TRAINING_FAILED (R264). -/
def execTrainingFailed (port : Nat) (s : State) : Host.Outcome State Fault Refusal := runC (fun _ _ c => trainingFailed port c) s

/-- LINK_INIT_RESEND (R266): until the peer's LINK_INIT has come. -/
def execLinkInitResend (port : Nat) (s : State) : Host.Outcome State Fault Refusal :=
  runC (fun _ _ c => if (c.port port).st == .train && (c.port port).trained then c.sendInit port else c) s

/-- The acknowledgement that an unsequenced frame of the link layer carries (R261, R262); its good tag ends a row of failed ones (R289). -/
def Core.linkAck (i : Nat) (ack : U16) (c : Core) : Core := (c.modPort i (fun q => { q with tagFails := 0 })).acked i ack

/-- A port came up: a free-running counter starts to be acquired, on every module but the time root (06 R199, notes/assumptions/111). -/
def Core.acquiring (c : Core) : Core :=
  if c.fab.syncState == 0 && !c.fab.cfg.timeRoot then c.modFab (fun q => { q with syncState := 1 }) else c

/-- A peer's LINK_INIT checked (R266): the port enters UP, or FAILED with a record. A tether port that comes up makes the twin the mirror partner
(10 R365). -/
def takeInit (i : Nat) (f : Frame) (c : Core) : Core :=
  let pt := c.port i
  let g := c.fab.cfg
  if !(pt.st == .train && pt.trained) then (if pt.st == .up || pt.st == .train then c.linkAck i f.ack else c)
  else
    let b := f.payload
    let peer := fieldAt b 0 2
    let peerPort := fieldAt b 2 1
    if g.peerOf i != some (peer, peerPort) then (c.logRec (portRec 0x502 5 2 i)).failPort i
    else if fieldAt b 3 1 != boolNat g.celoth1 || fieldAt b 4 4 != g.digest.toNat then (c.logRec (portRec 0x503 5 2 i)).failPort i
    else
      let old := pt.initGot
      let c0 := c.linkAck i f.ack
      let c0 := if 14 ≤ i && c.led.mode == 0 && !c.led.lost then
        { c0 with led := { c.led with mode := 1, partner := BitVec.ofNat 14 peer } } else c0
      let c1 := c0.acquiring.modPort i (fun q =>
        { q with st := .up, initGot := true, peerId := BitVec.ofNat 14 peer, peerPort := BitVec.ofNat 4 peerPort, resends := 0 })
      if old then c1.backUp i else (c1.pump i).tellPorts

/-- LINK_INIT (R266): a frame on a port. -/
def execLinkInit (port : Nat) (f : Frame) (s : State) : Host.Outcome State Fault Refusal := runC (fun _ _ c => takeInit port f c) s

/-- A lane fails (R255): L4 replaces the first failed data lane in a fast retrain, and a second failed lane fails the port. -/
def laneFailure (i lane : Nat) (c : Core) : Core :=
  let pt := c.port i
  if !pt.usable || !(pt.lanesOk.getLsbD lane) then c
  else
    let c1 := c.modPort i (fun q => { q with lanesOk := q.lanesOk &&& ~~~(BitVec.ofNat 5 (2 ^ lane)) })
    if 2 ≤ (lanesBad (c1.port i).lanesOk).length then c1.failPort i
    else if lane < 4 then
      ((c1.modPort i (fun q => { q with spareFor := BitVec.ofNat 3 lane })).logRec (portRec 0x508 2 1 i)).retrain i true
    else c1

/-- LANE_FAILURE (R255). -/
def execLaneFailure (port lane : Nat) (s : State) : Host.Outcome State Fault Refusal := runC (fun _ _ c => laneFailure port lane c) s

/-- The oldest held frame stays unacknowledged for REPLAY_TIMEOUT (R262): every held frame is resent; one frame resent by timeout 8 times brings a
retrain (Table 08-7). -/
def replayTimeout (i : Nat) (c : Core) : Core :=
  let pt := c.port i
  if pt.st != .up || pt.held.isEmpty then c
  else
    let c1 := (c.modPort i (fun q => { q with replayTo := satInc q.replayTo, resends := q.resends + 1 })).resendAll i
    if 8 ≤ pt.resends + 1 then c1.retrain i true else c1

/-- REPLAY_TIMEOUT (R262). -/
def execReplayTimeout (port : Nat) (s : State) : Host.Outcome State Fault Refusal := runC (fun _ _ c => replayTimeout port c) s

/-- RETRAIN_NO_PROGRESS (R264). -/
def execRetrainNoProgress (port : Nat) (s : State) : Host.Outcome State Fault Refusal :=
  runC (fun _ _ c => if (c.port port).held.isEmpty then c else c.retrain port true) s

/-- FAST_RETRAIN_DONE (R265). -/
def execFastRetrainDone (port : Nat) (s : State) : Host.Outcome State Fault Refusal :=
  runC (fun _ _ c => if (c.port port).st == .retrain then c.backUp port else c) s

/-- FAST_RETRAIN_FAILED (R265): TRAIN, with the sequence state, replay buffer and credits kept; its frames take detours from now on (R273). -/
def execFastRetrainFailed (port : Nat) (s : State) : Host.Outcome State Fault Refusal :=
  runC (fun _ _ c =>
    if (c.port port).st == .retrain then (c.modPort port (fun q => { q with st := .train, trained := false })).tellPorts else c) s

/-- ACK_TIMER (R264). -/
def execAckTimer (port : Nat) (s : State) : Host.Outcome State Fault Refusal :=
  runC (fun _ _ c => if (c.port port).st == .up && decide (0 < (c.port port).unacked) then c.linkCtl port none 0 else c) s

/-- CREDIT_UPDATE_TIMER (R264). -/
def execCreditUpdateTimer (port : Nat) (s : State) : Host.Outcome State Fault Refusal :=
  runC (fun _ _ c => if (c.port port).st == .up && (c.port port).freed != (c.port port).toldFreed then c.linkCtl port none 0 else c) s

/-! ### Frames of the link layer -/

/-- A frame with a bad CRC, or a failed tag (R261, R289, R293): it is discarded and a NAK names E; the sixteenth failed tag in a row fails the port.
`fec` is the number of RS codewords found uncorrectable up to it. -/
def frameBadCrc (i : Nat) (tag : Bool) (fec : Nat) (c : Core) : Core :=
  let pt := c.port i
  if !(pt.st == .up || pt.st == .train) then c
  else
    let c1 := c.modPort i (fun q =>
      { q with crcErr := satInc q.crcErr, fecUncorr := BitVec.ofNat 16 (min 0xFFFF (q.fecUncorr.toNat + fec)),
               tagFails := if tag then q.tagFails + 1 else 0 })
    if tag && 16 ≤ pt.tagFails + 1 then (c1.logRec (portRec 0x507 4 2 i)).failPort i
    else if pt.st == .up then c1.linkCtl i (some pt.expect) 0 else c1

/-- FRAME_BAD_CRC (R261). -/
def execFrameBadCrc (port : Nat) (tag : Bool) (fec : Nat) (s : State) : Host.Outcome State Fault Refusal := runC (fun _ _ c => frameBadCrc port tag fec c) s

/-- FRAME_INVALID (R259): a frame of a reserved type, or of a type that its VC does not allow, is discarded with a record and acknowledged. -/
def execFrameInvalid (port : Nat) (f : Frame) (s : State) : Host.Outcome State Fault Refusal :=
  runM (fun m =>
    if vcAllows f.typ.toNat f.vc.toNat then m
    else m.arrive port f (fun _ m => m.up (Core.logRec (portRec 0x501 5 1 port)))) s

/-- A LINK_CTL taken (R262, R263, R289): credits, reserves and the units they held, a NAK's replay, the peer's switch to its new key, and a retrain asked for. -/
def takeLinkCtl (i : Nat) (f : Frame) (c : Core) : Core :=
  let b := padTo 32 f.payload
  let flags := fieldAt b 30 1
  let c1 := c.modPort i (fun q =>
    { q with peerFreed := tabulate 8 (fun v => BitVec.ofNat 16 (fieldAt b (2 * v) 2)), reserve := BitVec.ofNat 96 (fieldAt b 16 12),
             inRes := q.inRes.filter (fun e => !(bitOf (fieldAt b 16 12) e.2.1)),
             rxKey := if bitOf flags 1 then q.rxNew.getD q.rxKey else q.rxKey,
             rxNew := if bitOf flags 1 then none else q.rxNew })
  let c2 := if bitOf flags 0 then c1.resendFrom i (BitVec.ofNat 16 (fieldAt b 28 2)) else c1
  let c3 := if bitOf flags 2 then c2.retrain i false else c2
  c3.pump i

/-- LINK_CTL (R263): a frame on a port. -/
def execLinkCtl (port : Nat) (f : Frame) (s : State) : Host.Outcome State Fault Refusal :=
  runM (Mach.arrive port { f with typ := 0 } (fun f m => m.up (takeLinkCtl port f))) s

/-! ### Counter synchronization (06 R190, R191, R194, R199) -/

/-- θ of an exchange in ps (06 R191): times in units of 0.125 ns, rounded down (notes/assumptions/43). -/
def thetaPs (t1 t2 t3 t4 : BitVec 64) (asym : BitVec 32) : Int :=
  ((((t2 - t1).toInt - (t4 - t3).toInt) * 125) - asym.toInt) / 2

/-- The count after acquisition on a link whose offset is `th` ps (06 R190): it jumps once after a cold reset, before any job is launched, on every module but the
time root. -/
def Core.jumped (c : Core) (th : Int) : BitVec 64 :=
  if !c.clk.acquired && !c.fab.cfg.timeRoot && c.jobs.isEmpty then BitVec.ofInt 64 ((c.clk.count.toNat : Int) + th / 1000) else c.clk.count

/-- A sync reply's θ (06 R190, R191, R199, R203): stored with its size and the time, and the counter is acquired. -/
def syncReply (i : Nat) (t1 t2 t3 t4 : BitVec 64) (c : Core) : Core :=
  let th := thetaPs t1 t2 t3 t4 (c.port i).asym
  let now := c.jumped th
  let c1 := c.modPort i (fun q =>
    { q with theta := BitVec.ofInt 32 th, thetaMag := BitVec.ofNat 16 (min 0xFFFF (th.natAbs / 125)), thetaAt := now, synced := true })
  let st : BitVec 2 := if c.fab.syncState == 3 && 50000 < th.natAbs then 3 else 2
  { c1 with clk := { c1.clk with count := now, acquired := true } }.modFab (fun q => { q with syncState := st })

/-- A SYNC frame: its ACK frees held frames (R261, R262); a request is answered with its three timestamps, a reply gives θ. -/
def takeSync (i : Nat) (reply : Bool) (ack : U16) (t1 t2 t3 t4 : BitVec 64) (c : Core) : Core :=
  let pt := c.port i
  if pt.st != .up then c
  else if reply then syncReply i t1 t2 t3 t4 ((c.linkAck i ack).pump i)
  else ((c.linkAck i ack).pump i).wire i
    { vc := 7, typ := 1, dst := pt.peerId, src := BitVec.ofNat 14 c.fab.cfg.own,
      payload := padTo 32 (bytesLE 8 t1.toNat ++ bytesLE 8 t2.toNat ++ bytesLE 8 t3.toNat) }

/-- SYNC (06 R191): a frame on a port with its ACK and its timestamps in units of 0.125 ns; `reply` tells an answer from a request. -/
def execSync (port : Nat) (head : SyncHead) (t1 t2 t3 t4 : BitVec 64) (s : State) : Host.Outcome State Fault Refusal :=
  runC (fun _ _ c => takeSync port head.reply head.ack t1 t2 t3 t4 c) s

/-- SYNC_EXCHANGE_TIMER (06 R191): a sync frame starts on a port with the local count as t1. -/
def execSyncExchangeTimer (port : Nat) (s : State) : Host.Outcome State Fault Refusal :=
  runC (fun _ _ c =>
    let pt := c.port port
    if pt.st == .up then
      c.wire port { vc := 7, typ := 1, dst := pt.peerId, src := BitVec.ofNat 14 c.fab.cfg.own, payload := padTo 32 (bytesLE 8 (c.clk.count * 8).toNat) }
    else c) s

/-- Jobs that span several modules are unclean while sync is lost (06 R194). -/
def Core.uncleanMulti (c : Core) : Core :=
  { c with jobs := c.jobs.map (fun j => if c.multiModule j then j.unclean causeFault else j) }

/-- Sync is lost (06 R194, R199). -/
def syncLost (c : Core) : Core :=
  if c.fab.syncState == 3 then c
  else
    let c1 := c.logRec (modRec 0x509 1 2 0xFF 0 0)
    (c1.modFab (fun q => { q with syncState := 3, lostSeen := true,
                                  ports := q.ports.map (fun p => { p with synced := false }) })).uncleanMulti

/-- SYNC_LOST (06 R194). -/
def execSyncLost (s : State) : Host.Outcome State Fault Refusal := runC (fun _ _ c => syncLost c) s

/-- The multi-module jobs of a list of plans see this module fail for good. -/
def Core.failMulti (c : Core) : Core :=
  ((c.jobs.filter (fun j => c.multiModule j)).map (fun j => j.plan)).foldl (fun c h => c.memberFailed h) c

/-- SYNC_NOT_REGAINED (06 R194): 1 s after sync was lost. -/
def execSyncNotRegained (s : State) : Host.Outcome State Fault Refusal :=
  runC (fun _ _ c => if c.fab.syncState == 3 then c.failMulti else c) s

/-! ### Keys (R289) -/

/-- REKEY_START (R289): a direction whose counter has reached 2^39 asks its peer for a new key over the secured session. -/
def execRekeyStart (port : Nat) (s : State) : Host.Outcome State Fault Refusal :=
  runC (fun _ _ c =>
    let pt := c.port port
    if pt.enc && decide (2 ^ 39 ≤ pt.txCtr) && !pt.rekeying && pt.newKey.isNone then
      (c.emit (.vc7 pt.peerId.toNat 5 [port])).modPort port (fun q => { q with rekeying := true })
    else c) s

/-- A LINK_CTL with KEY_PHASE set, naming the next sequence number (Table 08-6). -/
def Core.linkCtlKey (i : Nat) (c : Core) : Core :=
  let pt := c.port i
  c.wire i { vc := 7, typ := 0, dst := pt.peerId, src := BitVec.ofNat 14 c.fab.cfg.own,
             payload := (pt.freed.flatMap (fun v => bytesLE 2 v.toNat)) ++ bytesLE 12 (2 ^ 91 - 1) ++ bytesLE 2 pt.nextSeq.toNat ++ bytesLE 1 2 ++ [0] }

/-- A new transmit key announced by a LINK_CTL with KEY_PHASE, which names the sequence number that it starts at; its counter restarts at 0, and frames
numbered before it keep the old key and its counter (R289, notes/assumptions/32). -/
def Core.switchKey (i : Nat) (c : Core) : Core :=
  match (c.port i).newKey with
  | none => c
  | some (k, salt) =>
    (c.linkCtlKey i).modPort i (fun q =>
      { q with key := k, salt := salt, txCtr := 0, newKey := none, rekeying := false, keyPhase := !q.keyPhase,
               oldKey := some (q.key, q.salt), oldCtr := q.txCtr, keyFrom := q.nextSeq })

/-- Keys agreed with the peer's Volez (R289), answered and installed: the first pair starts encryption on the port, a later one replaces the transmit
key at the announced number and waits for the peer's announcement in the other direction. -/
def keyAgreement (i : Nat) (tx : Option (BitVec 256 × BitVec 32)) (rx : Option (BitVec 256)) (c : Core) : Core :=
  let pt := c.port i
  if !(i == 12 || i == 13) || !pt.encWanted then c
  else
    let c1 := c.emit (.vc7 pt.peerId.toNat 6 [i])
    if pt.enc then
      (c1.modPort i (fun q => { q with newKey := if tx.isSome then tx else q.newKey, rxNew := if rx.isSome then rx else q.rxNew })).switchKey i
    else
      match tx, rx with
      | some (k, salt), some r => c1.modPort i (fun q => { q with key := k, salt := salt, rxKey := r, enc := true, txCtr := 0, oldKey := none })
      | _, _ => c1

/-- LINK_KEY_AGREEMENT (R289): the port, the key and salt of its transmit direction and the key of the other, where the message gives them. -/
def execLinkKeyAgreement (port : Nat) (tx : Option (BitVec 256 × BitVec 32)) (rx : Option (BitVec 256)) (s : State) :
    Host.Outcome State Fault Refusal :=
  runC (fun _ _ c => keyAgreement port tx rx c) s

/-- KEY_EXHAUSTED (R289). -/
def execKeyExhausted (port : Nat) (s : State) : Host.Outcome State Fault Refusal :=
  runC (fun _ _ c =>
    let pt := c.port port
    if pt.enc && decide (2 ^ 40 - 1 ≤ pt.txCtr) && pt.newKey.isNone then (c.logRec (portRec 0x507 4 2 port)).failPort port else c) s

/-! ### Neighbours and die-to-die links -/

/-- PORT_STATE_EXCHANGE (R274): a position of this meadow and its ports out of service. -/
def execPortStateExchange (pos : Nat) (ports : List Nat) (s : State) : Host.Outcome State Fault Refusal :=
  runC (fun _ _ c => c.modFab (fun q => { q with peers := insertKey pos ports q.peers })) s

/-- A die-to-die link lost beyond its lane repair (01 R15). -/
def d2dFailed (k : D2d) (c : Core) : Core :=
  match k with
  | .base => c.permFail
  | .oneOf die => c.logRec (modRec 0x70E 2 2 die 0x0D 0)
  | .pair => c

/-- D2D_LINK_FAILED (01 R15). -/
def execD2dLinkFailed (k : D2d) (s : State) : Host.Outcome State Fault Refusal := runC (fun _ _ c => d2dFailed k c) s

end Sys2Proof.Machine
end

