-- ==== Sys2Proof/Machine/Image.lean ====
section
/-!
DEFINITION. Station instructions as 32-byte words (04 Tables 04-6 to 04-15, 05 Table 05-1): their decoding, their encoding, and the values that each
field may hold (R9, R23, R24, R95 to R108, R129 to R132).
-/

namespace Sys2Proof.Machine

/-- The fields above the common header, by opcode class. -/
inductive StnF where
  | none
  | range (f : RangeF)
  | mma (f : MmaF)
  | vload (f : VloadF)
  | mv (f : MvF)
  | vec (f : VecF)
  | gather (f : GatherF)
  | xfer (f : XferF)
  | coll (f : CollF)
deriving DecidableEq, Repr

/-- A station instruction: SCODE, OPC, header and fields. -/
structure StnWord where
  scode : BitVec 4
  opc : BitVec 8
  hdr : Hdr
  f : StnF
deriving DecidableEq, Repr

/-- `w` bits of an instruction word from bit `lo` on. -/
def bits (w : BitVec 256) (lo n : Nat) : BitVec n := w.extractLsb' lo n

/-- One bit of an instruction word. -/
def bit1 (w : BitVec 256) (i : Nat) : Bool := w.getLsbD i

/-- The common header (Table 04-6). -/
def hdrOf (w : BitVec 256) : Hdr :=
  { outCh := bits w 56 12, inCh := bits w 44 12, issue := bits w 16 28, ind := bit1 w 15, last := bit1 w 14, post := bit1 w 13, wait := bit1 w 12 }

/-- The header's 68 bits. -/
def hdrBits (h : Hdr) (scode : BitVec 4) (opc : BitVec 8) : BitVec 68 :=
  h.outCh ++ (h.inCh ++ (h.issue ++ (BitVec.ofBool h.ind ++ (BitVec.ofBool h.last ++ (BitVec.ofBool h.post ++ (BitVec.ofBool h.wait ++ (scode ++ opc)))))))

/-- MMA fields (Table 04-8). -/
def mmaOf (w : BitVec 256) : MmaF :=
  { cvt := bits w 248 4, outFmt := bits w 244 4, outStride := bits w 224 20, outBase := bits w 201 23, initBase := bits w 178 23, init := bit1 w 177,
    bank := bit1 w 176, shape := bits w 174 2, fmtB := bits w 170 4, fmtA := bits w 166 4, kblk := bits w 154 12, bCstride := bits w 134 20,
    bBase := bits w 111 23, aRstride := bits w 91 20, aBase := bits w 68 23 }

/-- VLOAD fields (Table 04-10). -/
def vloadOf (w : BitVec 256) : VloadF :=
  { bufOff := bits w 114 8, nvecM1 := bits w 112 2, row := bits w 107 5, kblk := bits w 95 12, fmt := bits w 91 4, srcBase := bits w 68 23 }

/-- MV fields (Table 04-11). -/
def mvOf (w : BitVec 256) : MvF :=
  { cvt := bits w 173 4, outFmt := bits w 169 4, outBase := bits w 146 23, initBase := bits w 123 23, init := bit1 w 122, bank := bit1 w 121,
    bufOff := bits w 113 8, nvecM1 := bits w 111 2, kblk := bits w 99 12, vFmt := bits w 95 4, wFmt := bits w 91 4, wBase := bits w 68 23 }

/-- Vector station fields (Table 05-1). -/
def vecOf (w : BitVec 256) : VecF :=
  { flat := bit1 w 255, packed := bit1 w 254, mod := bits w 248 6, imm1 := bits w 232 16, imm0 := bits w 200 32, cvt := bits w 196 4,
    outFmt := bits w 192 4, fmt1 := bits w 188 4, fmt0 := bits w 184 4, count := bits w 160 24, dst := bits w 137 23, src2 := bits w 114 23,
    src1 := bits w 91 23, src0 := bits w 68 23 }

/-- GATHER fields (Table 04-13). -/
def gatherOf (w : BitVec 256) : GatherF :=
  { winEnd := bits w 228 28, tblRows := bits w 196 32, rowUnits := bits w 186 10, dstBase := bits w 163 23, idxCount := bits w 143 20,
    idxBase := bits w 120 23, tspace := bits w 118 2, toff := bits w 70 48 }

/-- XFER fields (Table 04-12). -/
def xferOf (w : BitVec 256) : XferF :=
  { dst := bits w 192 64, src := bits w 128 64, len := bits w 104 24, mode := bits w 100 4, fenceSlot := bits w 94 6, dstCh := bits w 82 12,
    rpost := bit1 w 81, tfmt := bits w 68 4 }

/-- Collective station fields (Table 04-15). -/
def collOf (w : BitVec 256) : CollF :=
  { dst := bits w 184 50, src := bits w 134 50, count := bits w 102 32, cvt := bits w 98 4, outFmt := bits w 94 4, fmtIn := bits w 90 4,
    group := bits w 82 8, clog2 := bits w 77 5, head := bits w 73 4, anch := bit1 w 72, red := bits w 68 4 }

/-- The range of POST and RELEASE (Table 04-7). -/
def rangeOf (w : BitVec 256) : RangeF := { base := bits w 68 23, len := bits w 91 23 }

/-- Whether an opcode of the vector stations is listed (Table 05-2). -/
def vecListed (opc : Nat) : Bool :=
  inRange opc 0x30 13 || inRange opc 0x40 12 || inRange opc 0x50 5 || inRange opc 0x56 5 || opc == 0x5C || opc == 0x60 || opc == 0x61 || opc == 0x6A || opc == 0x6B

/-- Whether an opcode belongs to an SCODE (Table 04-7). -/
def opcListed (scode opc : Nat) : Bool :=
  inRange scode 1 6 &&
  (opc ≤ 2 ||
   match scode with
   | 1 => opc == 0x10
   | 2 => opc == 0x20 || opc == 0x21
   | 3 => vecListed opc
   | 4 => opc == 0x70
   | 5 => opc == 0x80
   | _ => inRange opc 0x90 7)

/-- The fields of a word by its opcode, with the bits that must be 0 tested (R95). -/
def fieldsOf (w : BitVec 256) (scode opc : Nat) : Option StnF :=
  if opc = 0 then (if bits w 68 188 = 0 then some .none else none)
  else if opc ≤ 2 then (if bits w 114 142 = 0 then some (.range (rangeOf w)) else none)
  else match scode with
    | 1 => if bits w 252 4 = 0 then some (.mma (mmaOf w)) else none
    | 2 =>
      if opc = 0x20 then (if bits w 122 134 = 0 then some (.vload (vloadOf w)) else none)
      else if bits w 177 79 = 0 then some (.mv (mvOf w)) else none
    | 3 => some (.vec (vecOf w))
    | 4 => if bits w 68 2 = 0 then some (.gather (gatherOf w)) else none
    | 5 => if bits w 72 9 = 0 then some (.xfer (xferOf w)) else none
    | _ => if bits w 234 22 = 0 then some (.coll (collOf w)) else none

/-- A 32-byte word decoded (R95, R96): none where SCODE, OPC or a bit that must be 0 is reserved. -/
def decodeStn (w : BitVec 256) : Option StnWord :=
  let scode := bits w 8 4
  let opc := bits w 0 8
  if opcListed scode.toNat opc.toNat then
    (fieldsOf w scode.toNat opc.toNat).map (fun f => { scode := scode, opc := opc, hdr := hdrOf w, f := f })
  else none

/-- The 188 bits above the header. -/
def fieldBits : StnF → BitVec 188
  | .none => 0
  | .range f => (0 : BitVec 142) ++ (f.len ++ f.base)
  | .mma f =>
    (0 : BitVec 4) ++ (f.cvt ++ (f.outFmt ++ (f.outStride ++ (f.outBase ++ (f.initBase ++ (BitVec.ofBool f.init ++ (BitVec.ofBool f.bank ++
      (f.shape ++ (f.fmtB ++ (f.fmtA ++ (f.kblk ++ (f.bCstride ++ (f.bBase ++ (f.aRstride ++ f.aBase))))))))))))))
  | .vload f => (0 : BitVec 134) ++ (f.bufOff ++ (f.nvecM1 ++ (f.row ++ (f.kblk ++ (f.fmt ++ f.srcBase)))))
  | .mv f =>
    (0 : BitVec 79) ++ (f.cvt ++ (f.outFmt ++ (f.outBase ++ (f.initBase ++ (BitVec.ofBool f.init ++ (BitVec.ofBool f.bank ++ (f.bufOff ++
      (f.nvecM1 ++ (f.kblk ++ (f.vFmt ++ (f.wFmt ++ f.wBase)))))))))))
  | .vec f =>
    BitVec.ofBool f.flat ++ (BitVec.ofBool f.packed ++ (f.mod ++ (f.imm1 ++ (f.imm0 ++ (f.cvt ++ (f.outFmt ++ (f.fmt1 ++ (f.fmt0 ++ (f.count ++
      (f.dst ++ (f.src2 ++ (f.src1 ++ f.src0))))))))))))
  | .gather f => f.winEnd ++ (f.tblRows ++ (f.rowUnits ++ (f.dstBase ++ (f.idxCount ++ (f.idxBase ++ (f.tspace ++ (f.toff ++ (0 : BitVec 2))))))))
  | .xfer f =>
    f.dst ++ (f.src ++ (f.len ++ (f.mode ++ (f.fenceSlot ++ (f.dstCh ++ (BitVec.ofBool f.rpost ++ ((0 : BitVec 9) ++ f.tfmt)))))))
  | .coll f =>
    (0 : BitVec 22) ++ (f.dst ++ (f.src ++ (f.count ++ (f.cvt ++ (f.outFmt ++ (f.fmtIn ++ (f.group ++ (f.clog2 ++ (f.head ++
      (BitVec.ofBool f.anch ++ f.red))))))))))

/-- A station instruction as its 32-byte word (Table 04-6 and the tables of its opcode). -/
def encodeStn (i : StnWord) : BitVec 256 := fieldBits i.f ++ hdrBits i.hdr i.scode i.opc

/-- The class of fields that an SCODE and opcode carry. -/
def StnF.fits (f : StnF) (scode opc : Nat) : Bool :=
  match f with
  | .none => opc == 0
  | .range _ => opc == 1 || opc == 2
  | .mma _ => scode == 1 && opc == 0x10
  | .vload _ => scode == 2 && opc == 0x20
  | .mv _ => scode == 2 && opc == 0x21
  | .vec _ => scode == 3 && vecListed opc
  | .gather _ => scode == 4 && opc == 0x70
  | .xfer _ => scode == 5 && opc == 0x80
  | .coll _ => scode == 6 && inRange opc 0x90 7

/-- Whether an instruction is one that Table 04-7 lists, with the fields of its opcode. -/
def StnWord.wf (i : StnWord) : Bool := opcListed i.scode.toNat i.opc.toNat && i.f.fits i.scode.toNat i.opc.toNat

/-! ### Values of fields -/

/-- Whether a format code is defined (R23). -/
def fmtListed (c : BitVec 4) : Bool := (fmtOfCode c.toNat).isSome

/-- The MOD bits an opcode defines (Table 05-2). -/
def vecModMask (opc : Nat) : Nat := match opc with | 0x48 => 1 | 0x52 => 3 | 0x56 => 7 | 0x58 => 1 | 0x5C => 1 | 0x60 => 7 | _ => 0

/-- Whether a vector instruction leaves the fields it does not use at 0 (R129, Table 05-2). FLAT counts as used where an operand of the opcode is flat. -/
def vecUnusedOk (opc : Nat) (f : VecF) : Bool :=
  let k := vecSources opc
  let el := vecElementwise opc
  let (u0, u1, u2) := vecUses opc f
  let flat := el || [0x58, 0x59, 0x60, 0x61].contains opc
  let fmt0 := if el then 1 ≤ k else opc != 0x60 && opc != 0x61
  let out := !([0x50, 0x51, 0x56, 0x61].contains opc)
  let imm0 := [0x36, 0x39, 0x3B, 0x52, 0x53, 0x54, 0x56, 0x58, 0x59, 0x61, 0x6A, 0x6B].contains opc
  let imm1 := inRange opc 0x50 8 || [0x58, 0x59, 0x60, 0x6A].contains opc
  (u0 || f.src0 == 0) && (u1 || f.src1 == 0) && (u2 || f.src2 == 0) && (flat || !f.flat) && (fmt0 || f.fmt0 == 0) && ((el && 2 ≤ k) || f.fmt1 == 0) &&
  (out || f.outFmt == 0) && ((out && opc != 0x5C) || f.cvt == 0) && (imm0 || f.imm0 == 0) && (imm1 || f.imm1 == 0) &&
  (f.mod.toNat &&& vecModMask opc) == f.mod.toNat && (opc != 0x56 || field f.mod.toNat 0 2 != 3) && (opc != 0x60 || field f.mod.toNat 0 2 ≤ 1)

/-- Whether every field of an instruction holds a value that is not reserved (R9, R95 to R108, R129). -/
def StnWord.defined (i : StnWord) : Bool :=
  match i.f with
  | .none => true
  | .range _ => true
  | .mma f => f.kblk != 0 && (f.init || f.initBase == 0) && fmtListed f.fmtA && fmtListed f.fmtB && fmtListed f.outFmt && cvtOk f.cvt
  | .vload f => f.kblk != 0 && fmtListed f.fmt
  | .mv f => f.kblk != 0 && (f.init || f.initBase == 0) && fmtListed f.vFmt && fmtListed f.wFmt && fmtListed f.outFmt && cvtOk f.cvt
  | .vec f => f.count != 0 && fmtListed f.fmt0 && fmtListed f.fmt1 && fmtListed f.outFmt && cvtOk f.cvt && vecUnusedOk i.opc.toNat f
  | .gather f => f.rowUnits != 0 && f.idxCount != 0 && f.tspace.toNat ≤ 1 && f.toff.toNat % 64 == 0
  | .xfer f =>
    f.len != 0 && f.mode.toNat ≤ 3 && (f.mode != 3 || f.src == 0) && (f.mode == 1 || f.fenceSlot == 0) &&
    (if f.mode == 2 then decide (f.tfmt.toNat ≤ 2) else f.tfmt == 0) && f.src.toNat % 64 == 0 && f.dst.toNat % 64 == 0
  | .coll f =>
    fmtListed f.fmtIn && fmtListed f.outFmt && cvtOk f.cvt && f.red.toNat ≤ 5 && f.dst.toNat / 2 ^ 48 ≤ 2 && f.src.toNat / 2 ^ 48 ≤ 2

/-- The condition on an immediate (R132, R137). -/
def vecImmOk (opc : Nat) (f : VecF) : Bool :=
  let v := f32 f.imm0
  match opc with
  | 0x39 => !(v.isNan) && (!(v.sign) || v.isZero)
  | 0x52 => !(v.nonFinite) && !(v.isZero) && !(v.sign)
  | 0x53 | 0x54 => !(v.nonFinite) && (!(v.sign) || v.isZero)
  | 0x58 => decide (1 ≤ f.imm0.toNat) && decide (f.imm0.toNat ≤ 1024)
  | _ => true

/-- Whether the formats of a vector instruction fit their roles, flat mode and packed mode (R86, R129, R130, R137, R139). VOPT_ADAMW writes M8S and M8U, which
02 R43 converts with CVT.RND 0b01 alone. -/
def vecFmtOk (opc : Nat) (f : VecF) : Bool :=
  let tile := fun (c : BitVec 4) => decide (c.toNat ≤ 8)
  let flat := fun (c : BitVec 4) => decide (c.toNat ≤ 2)
  let op := if f.flat then flat else tile
  (!f.packed || (inRange opc 0x30 10 && f.fmt0 == 1 && f.outFmt == 1 && (vecSources opc < 2 || f.fmt1 == 1))) &&
  (if vecElementwise opc then op f.fmt0 && op f.fmt1 && op f.outFmt
   else
     match opc with
     | 0x58 => flat f.fmt0 && tile f.outFmt
     | 0x59 => tile f.fmt0 && flat f.outFmt
     | 0x5C => f.fmt0.toNat ≤ 1 && (f.outFmt == 0xB || f.outFmt == 0xC)
     | 0x60 => tile f.fmt0 && tile f.outFmt && field f.cvt.toNat 0 2 == 1
     | _ => tile f.fmt0 && tile f.outFmt)

/-- The values of Table 09-2 in a collective, but for those that need its group (R108, R301). -/
def collFmtOk (opc : Nat) (f : CollF) : Bool :=
  let fp := fun (c : BitVec 4) => decide (c.toNat ≤ 1)
  let plain := fun (c : BitVec 4) => decide (c.toNat ≤ 2)
  let idle := !f.anch && f.head == 0 && f.clog2 == 0
  f.clog2.toNat ≤ 16 && (f.anch || f.head == 0) &&
  match opc with
  | 0x90 | 0x91 =>
    (match f.red.toNat with
     | 1 => fp f.fmtIn && fp f.outFmt && !f.anch
     | 2 => (if f.anch then f.fmtIn == 0xB else fp f.fmtIn) && fp f.outFmt && !(f.cvt.getLsbD 0)
     | 3 => (if f.anch then f.fmtIn == 0xC else fp f.fmtIn) && fp f.outFmt && !(f.cvt.getLsbD 0)
     | 4 | 5 => fp f.fmtIn && f.outFmt == f.fmtIn && !f.anch
     | _ => false)
  | 0x92 | 0x93 | 0x94 => f.red == 0 && plain f.fmtIn && f.outFmt == f.fmtIn && idle
  | 0x95 => f.red == 0 && plain f.fmtIn && plain f.outFmt && idle
  | _ => f.red == 0 && f.fmtIn == 0 && f.outFmt == 0 && f.src == 0 && f.dst == 0 && idle

/-- Whether formats stand in their roles and the limits of an instruction's fields hold (R23, R24, R47, R100, R103, R108, R132, R301). -/
def StnWord.schedOk (i : StnWord) : Bool :=
  let opc := i.opc.toNat
  match i.f with
  | .none => true
  | .range _ => true
  | .mma f =>
    match fmtOfCode f.fmtA.toNat, fmtOfCode f.fmtB.toNat with
    | some a, some b => allowedPair a b && f.outFmt.toNat ≤ 8
    | _, _ => false
  | .vload f =>
    match fmtOfCode f.fmt.toNat with
    | some ft => isArrayOperand ft && f.row.toNat + f.nvecM1.toNat ≤ 31 &&
        f.bufOff.toNat * 64 + (f.nvecM1.toNat + 1) * f.kblk.toNat * (blockBytes ft + boolNat (isMx ft)) ≤ 16384
    | none => false
  | .mv f =>
    match fmtOfCode f.vFmt.toNat, fmtOfCode f.wFmt.toNat with
    | some a, some b => allowedPair a b && f.outFmt.toNat ≤ 8
    | _, _ => false
  | .vec f => vecImmOk opc f && vecFmtOk opc f
  | .gather f => decide (i.hdr.issue.toNat ≤ f.winEnd.toNat)
  | .xfer f => (f.mode == 3 || gaSpace f.src.toNat ≤ 2) && gaSpace f.dst.toNat ≤ 2 && (f.mode != 2 || f.len.toNat % tileUnits (tfmtOf f.tfmt) == 0)
  | .coll f => collFmtOk opc f && f.group != 0xFF

/-- Whether an instruction uses a draw (R197): VDROPOUT, or a CVT that rounds stochastically. -/
def StnWord.draws (i : StnWord) : Bool :=
  i.opc == 0x6A ||
  match i.f with
  | .mma f => f.cvt.getLsbD 0
  | .mv f => f.cvt.getLsbD 0
  | .vec f => f.cvt.getLsbD 0
  | .coll f => f.cvt.getLsbD 0
  | _ => false

end Sys2Proof.Machine
end

