-- ==== Sys2Proof/Machine/Matrix.lean ====
section
/-!
DEFINITION. Matrix array and thin station instructions: MMA (04 R99, 03 R53 to R74, R527), VLOAD (04 R100) and MV (04 R101,
03 R81, R82).
-/

namespace Sys2Proof.Machine

/-- The rows and columns of sub-tiles of a SHAPE (Table 04-8, R55). -/
def shapeDims (s : BitVec 2) : Nat × Nat := (if s.getLsbD 1 then 2 else 1, if s.getLsbD 0 then 2 else 1)

/-- The rate of an operand pair (Table 03-1): 0 two blocks per cycle, 1 one block per cycle, 2 two cycles per block. -/
def pairRate (fa fb : Fmt) : Nat := if fa == .e2m1 && fb == .e2m1 then 0 else if isMx fa then 1 else 2

/-- The cycle, counted from issue, in which K block `k` of sub-tile `s` of `n` has fully entered row 0 (R56, R66). -/
def entryCycle (rate n s k : Nat) : Nat :=
  match rate with
  | 0 => k / 2 * n + s
  | 1 => k * n + s
  | _ => 2 * (k * n + s) + 1

/-- The cycle in which row `r` of sub-tile `s` receives its last accumulation (R66, R67). -/
def lastAcc (rate n kblk s r : Nat) : Nat := entryCycle rate n s (kblk - 1) + r + 5

/-- Read-out cycles of `count` items in order: the first in the cycle after `first`, each at least one cycle after its predecessor and
after its own last accumulation (R68). -/
def drainCycles (acc : Nat → Nat) : Nat → Nat → Nat → List Nat
  | 0, _, _ => []
  | n + 1, i, prev => let d := max (prev + 1) (acc i + 1); d :: drainCycles acc n (i + 1) d

/-- The read-out cycle of each row of each sub-tile, sub-tiles in order and rows 0 to 31 within each (R68). -/
def mmaDrain (rate n kblk : Nat) : List Nat :=
  drainCycles (fun i => lastAcc rate n kblk (i / 32) (i % 32)) (32 * n) 0 (lastAcc rate n kblk 0 0)

/-- The cycle in which the trailer of sub-tile `s` is written (R68). -/
def mmaTrailer (rate n kblk s : Nat) : Nat :=
  max ((mmaDrain rate n kblk).getD (32 * s + 31) 0 + 5) (lastAcc rate n kblk s 31 + 64)

/-- One DPU over the K blocks in ascending order (R33): each block sum added with one rounding. -/
def dpuSum (fa fb : Fmt) (acc : U32) (pairs : List (Block × Block)) : U32 :=
  pairs.foldl (fun a p => f32Add a (blockSum fa fb p.1 p.2)) acc

/-- The accumulators of one sub-tile (R53): row `r`, column `c` sums block `r` of each A tile with block `c` of each B tile. -/
def subTileSum (fa fb : Fmt) (init : List (List U32)) (as bs : List TileIn) : List (List U32) :=
  tabulate 32 (fun r => tabulate 32 (fun c =>
    dpuSum fa fb ((init.getD r []).getD c f32Zero)
      (List.zipWith (fun a b => (a.blocks.getD r ⟨[], 0⟩, b.blocks.getD c ⟨[], 0⟩)) as bs)))

/-- Drained rows converted to blocks of the output format, +0 outside the extent (R68, R527); row `r` draws at its read-out cycle. -/
def Ctx.drainRows (x : Ctx) (fo : Fmt) (cvt : Cvt) (rowsM1 colsM1 : Nat) (cycs : List Nat) (rows : List (List U32)) : List Block :=
  (maskExtent f32Zero false rowsM1 colsM1 rows).mapIdx (fun r row =>
    convertBlock fo cvt (x.rowDraws cvt.sr (x.issue + cycs.getD r 0)) row)

/-- The operand tile addresses of a sub-tile row or column over the K blocks (R99). -/
def tileAddrs (base stride i units kblk : Nat) : List Nat := tabulate kblk (fun k => (base + i * stride + k * units) % 2 ^ 23)

/-- How many cycles before issue the accumulator bank is first used: a load of start values takes one row of a sub-tile per cycle and is complete before
the first block sum is accumulated (R57, R62; notes/assumptions/91). -/
def loadLead (rows first : Nat) : Nat := rows - first

/-- Where an MMA reads and writes, and how long it runs (R62, R99). The rows of a sub-tile are written 4 cycles after they are read out, and its trailer at
`mmaTrailer` (R68). The token's range is as long as all output tiles from the first on, also where OUT_STRIDE leaves a gap between two rows, of which R110 does not
say how one range names it (DESIGN CHOICE, notes/assumptions/95). -/
def mmaSpec (x : Ctx) (f : MmaF) : StnSpec :=
  match fmtOfCode f.fmtA.toNat, fmtOfCode f.fmtB.toNat, fmtOfCode f.outFmt.toNat with
  | some fa, some fb, some fo =>
    let (rs, cs) := shapeDims f.shape
    let k := f.kblk.toNat
    let rate := pairRate fa fb
    let n := rs * cs
    let aT := (List.range rs).flatMap (fun i => (tileAddrs f.aBase.toNat f.aRstride.toNat i (tileUnits fa) k).map (fun a => (a, tileUnits fa)))
    let bT := (List.range cs).flatMap (fun j => (tileAddrs f.bBase.toNat f.bCstride.toNat j (tileUnits fb) k).map (fun a => (a, tileUnits fb)))
    let iT := if f.init then (List.range rs).flatMap (fun i => (List.range cs).map (fun j => ((f.initBase.toNat + i * f.outStride.toNat + j * 65) % 2 ^ 23, 65))) else []
    let outs := (List.range rs).flatMap (fun i => (List.range cs).map (fun j => ((f.outBase.toNat + i * f.outStride.toNat + j * tileUnits fo) % 2 ^ 23, tileUnits fo)))
    let tiles := aT ++ bT ++ iT
    let drain := mmaDrain rate n k
    { opc := 0x10, tiles := tiles, outs := outs
      reads := tiles.map (fun t => (smAddr64 x.lpart t.1, t.2))
      ranges := (tiles ++ outs).map (fun t => (2, x.lpart, t.1, t.2))
      dur := (List.range n).foldl (fun d s => max d (mmaTrailer rate n k s)) 0
      outAt := tabulate n (mmaTrailer rate n k)
      busyAt := (outs.mapIdx (fun s o =>
        [(o.1, o.2 - 1, drain.getD (32 * s) 0 + 4, drain.getD (32 * s + 31) 0 + 4), ((o.1 + o.2 - 1) % 2 ^ 23, 1, mmaTrailer rate n k s, mmaTrailer rate n k s)])).flatten
      bank := some (0, x.inst, boolNat f.bank)
      bankEnd := drain.getLastD 0
      lead := if f.init then loadLead (32 * n) (entryCycle rate n 0 0 + 5) else 0
      entryEnd := entryCycle rate n (n - 1) (k - 1) + 1
      token := (f.outBase.toNat, n * tileUnits fo) }
  | _, _, _ => { opc := 0x10 }

/-- A descriptor's address fields put into an MMA (R116). -/
def mmaSub (f : MmaF) (d : Nat) : Option MmaF :=
  if !f.init && field d 178 23 != 0 then none
  else some { f with outStride := BitVec.ofNat 20 (field d 224 20), outBase := BitVec.ofNat 23 (field d 201 23),
                     initBase := BitVec.ofNat 23 (field d 178 23), bCstride := BitVec.ofNat 20 (field d 134 20),
                     bBase := BitVec.ofNat 23 (field d 111 23), aRstride := BitVec.ofNat 20 (field d 91 20),
                     aBase := BitVec.ofNat 23 (field d 68 23) }

/-- An accumulator register: the value and its parity bit (R55). -/
def withParity (v : U32) : BitVec 33 := BitVec.ofNat 33 (v.toNat + 2 ^ 32 * (popcount 32 v.toNat % 2))

/-- The parity check that every read of a register makes (R55). -/
def parityOk (r : BitVec 33) : Bool := r == withParity (r.setWidth 32)

/-- The `n` accumulator registers of a key; registers never written hold +0.0 (notes/assumptions/3). -/
def MxPart.regs (q : MxPart) (key : Nat × Nat × Nat) (n : Nat) : List (BitVec 33) := (lookup? key q.acc).getD (List.replicate n 0)

/-- Accumulators put into the first registers of a key; the others keep their values. -/
def MxPart.putRegs (key : Nat × Nat × Nat) (n : Nat) (vs : List U32) (q : MxPart) : MxPart :=
  { q with acc := insertKey key (vs.map withParity ++ (q.regs key n).drop vs.length) q.acc }

/-- Accumulators as a drain reads them out: values and whether every parity bit passes (R55, R75). -/
def MxPart.readRegs (q : MxPart) (key : Nat × Nat × Nat) (n k : Nat) : List U32 × Bool :=
  let rs := (q.regs key n).take k
  (rs.map (fun r => r.setWidth 32), rs.all parityOk)

/-- What an array's feeder has put into an operand buffer of 64 KiB, newest bytes first to go when it is full (R60; notes/assumptions/92). -/
def fedBuffer (old new : List Byte) : List Byte := (new.reverse ++ old).take 65536

/-- Tiles fed into the operand buffers of an array (R60). -/
def MxPart.feed (a : Nat) (as bs : List Byte) (q : MxPart) : MxPart :=
  { q with abuf := insertKey a (fedBuffer ((lookup? a q.abuf).getD []) as) q.abuf, bbuf := insertKey a (fedBuffer ((lookup? a q.bbuf).getD []) bs) q.bbuf }

/-- The sub-tiles of an MMA computed, drained and written one after another (R55, R56, R68, R92). `inits` gives the start value of each, `fl` the flags of each. -/
def mmaSubTiles (x : Ctx) (f : MmaF) (fa fb fo : Fmt) (aT bT : List (List TileIn)) (fl : Nat → OutFlags)
    (inits : List (List (List U32))) (m : Mach) : Mach :=
  let (rs, cs) := shapeDims f.shape
  let n := rs * cs
  let rate := pairRate fa fb
  let drain := mmaDrain rate n f.kblk.toNat
  (List.range n).foldl (fun m s =>
    let i := s / cs
    let j := s % cs
    let as := aT.getD i []
    let bs := bT.getD j []
    let acc := subTileSum fa fb (inits.getD s []) as bs
    let rows := match as with | a :: _ => a.trailer.rowsM1.toNat | [] => 0
    let cols := match bs with | b :: _ => b.trailer.colsM1.toNat | [] => 0
    let reg := (0, x.inst, 4 * boolNat f.bank + 2 * i + j)
    let m1 := m.up (fun c => c.modMx x.part (MxPart.putRegs reg 1024 acc.flatten))
    let (vals, whole) := (m1.core.part x.part).mx.readRegs reg 1024 1024
    let blocks := x.drainRows fo (cvtOf f.cvt) rows cols (drain.drop (32 * s)) (chunks 32 vals)
    let out := (f.outBase.toNat + i * f.outStride.toNat + j * tileUnits fo) % 2 ^ 23
    x.writeTile fo false rows cols (fl s).poison ((fl s).checked && whole) (fl s).unsealed 0 blocks x.part out m1) m

/-- The start values of the sub-tiles: FP32 tiles of ORIENT 0 when INIT is set (R57). -/
def Ctx.readInits (x : Ctx) (addrs : List Nat) (m : Mach) : List TileIn × Mach := x.readTiles .fp32 (some false) x.part addrs m

/-- The effect of an MMA (R99): every operand tile is read once, in order, into the operand buffers (R60), then the sub-tiles are summed, drained and written.
The answer is the POISON bit of its completion token: 0, whatever the operands, since R110 does not say that operand poison reaches the token and every output
tile carries it (DESIGN CHOICE, notes/assumptions/93). -/
def mmaBody (f : MmaF) (x : Ctx) (stale : Bool) (m : Mach) : Bool × Mach :=
  match fmtOfCode f.fmtA.toNat, fmtOfCode f.fmtB.toNat, fmtOfCode f.outFmt.toNat with
  | some fa, some fb, some fo =>
    let (rs, cs) := shapeDims f.shape
    let k := f.kblk.toNat
    let (aT, m1) := (List.range rs).foldl (fun (acc : List (List TileIn) × Mach) i =>
      let (ts, m') := x.readTiles fa (some false) x.part (tileAddrs f.aBase.toNat f.aRstride.toNat i (tileUnits fa) k) acc.2
      (acc.1 ++ [ts], m')) ([], m)
    let (bT, m2) := (List.range cs).foldl (fun (acc : List (List TileIn) × Mach) j =>
      let (ts, m') := x.readTiles fb (some true) x.part (tileAddrs f.bBase.toNat f.bCstride.toNat j (tileUnits fb) k) acc.2
      (acc.1 ++ [ts], m')) ([], m1)
    let ia := (List.range rs).flatMap (fun i => (List.range cs).map (fun j => (f.initBase.toNat + i * f.outStride.toNat + j * 65) % 2 ^ 23))
    let (iT, m3) := if f.init then x.readInits ia m2 else ([], m2)
    let fl := fun (s : Nat) => flagsFor stale (aT.flatten ++ bT.flatten ++ iT) (aT.getD (s / cs) [] ++ bT.getD (s % cs) [] ++ (iT.drop s).take 1)
    let fed := fun (ads : List Nat) (ft : Fmt) => (ads.map (fun a => m.sm x.part a (tileUnits ft))).flatten
    let m4 := m3.up (fun c => c.modMx x.part (MxPart.feed x.inst
      (fed ((List.range rs).flatMap (fun i => tileAddrs f.aBase.toNat f.aRstride.toNat i (tileUnits fa) k)) fa)
      (fed ((List.range cs).flatMap (fun j => tileAddrs f.bBase.toNat f.bCstride.toNat j (tileUnits fb) k)) fb)))
    (false, mmaSubTiles x f fa fb fo aT bT fl (iT.map (fun t => tileMatrix .fp32 false t.blocks)) m4)
  | _, _, _ => (false, m)

/-- MMA issues and runs. -/
def mmaRun (granted : Bool) (st : Stn) (h : Hdr) (f : MmaF) : Mach → Mach :=
  issueWith granted (.mma st h f) st h f 0x10 mmaSub (fun _ => mmaSpec) mmaBody

/-- MMA (R99). -/
def execMma (st : Stn) (h : Hdr) (f : MmaF) (s : State) : Host.Outcome State Fault Refusal := runM (mmaRun false st h f) s

/-! ### Thin stations -/

/-- The bytes of a block in the vector buffer: its data, and one scale byte for MX (R100). -/
def bufBlockBytes (f : Fmt) : Nat := blockBytes f + (if isMx f then 1 else 0)

/-- A thin station's vector buffer: 16 KiB. -/
def MxPart.buf (q : MxPart) (tv : Nat) : List Byte := (lookup? tv q.vbuf).getD (List.replicate 16384 0)

/-- Where a VLOAD reads (R100). -/
def vloadSpec (x : Ctx) (f : VloadF) : StnSpec :=
  match fmtOfCode f.fmt.toNat with
  | some ft =>
    let tiles := (tileAddrs f.srcBase.toNat 0 0 (tileUnits ft) f.kblk.toNat).map (fun a => (a, tileUnits ft))
    { opc := 0x20, tiles := tiles
      reads := tiles.map (fun t => (smAddr64 x.lpart t.1, t.2))
      ranges := tiles.map (fun t => (2, x.lpart, t.1, t.2))
      dur := f.kblk.toNat + 12 }
  | none => { opc := 0x20 }

/-- A descriptor's SRC_BASE put into a VLOAD (R116). -/
def vloadSub (f : VloadF) (d : Nat) : Option VloadF := some { f with srcBase := BitVec.ofNat 23 (field d 68 23) }

/-- The effect of a VLOAD (R100): vector v takes row ROW + v of each tile, its blocks one after another. -/
def vloadBody (f : VloadF) (x : Ctx) (stale : Bool) (m : Mach) : Bool × Mach :=
  match fmtOfCode f.fmt.toNat with
  | some ft =>
    let (ts, m1) := x.readTiles ft (some false) x.part (tileAddrs f.srcBase.toNat 0 0 (tileUnits ft) f.kblk.toNat) m
    let vec := fun (v : Nat) => (ts.map (fun t =>
      let b := t.blocks.getD (f.row.toNat + v) ⟨[], 0⟩
      bytesLE (blockBytes ft) (packElems (elemBits ft) b.codes) ++ (if isMx ft then bytesLE 1 b.scale else []))).flatten
    let bytes := (tabulate (f.nvecM1.toNat + 1) vec).flatten
    let off := f.bufOff.toNat * 64
    let fl := flagsOf stale ts
    (false, m1.up (fun c => c.modMx x.part (fun q =>
      { q with vbuf := insertKey x.inst (overwrite (q.buf x.inst) off bytes) q.vbuf
               vflags := ((x.inst, off, bytes.length), (fl.poison, fl.checked, fl.unsealed)) ::
                 q.vflags.filter (fun e => !(e.1.1 == x.inst && within e.1.2.1 e.1.2.2 off bytes.length)) })))
  | none => (false, m)

/-- VLOAD issues and runs. -/
def vloadRun (granted : Bool) (st : Stn) (h : Hdr) (f : VloadF) : Mach → Mach :=
  issueWith granted (.vload st h f) st h f 0x20 vloadSub (fun _ => vloadSpec) vloadBody

/-- VLOAD (R100). -/
def execVload (st : Stn) (h : Hdr) (f : VloadF) (s : State) : Host.Outcome State Fault Refusal := runM (vloadRun false st h f) s

/-- The cycle, from issue, of the last accumulation of group `g` for vector `v` (R81, R82). -/
def mvLast (rate b kblk g v : Nat) : Nat :=
  let c := if rate = 2 then 2 else 1
  ((kblk - 1) * b + v) * c + (c - 1) + g + 5

/-- Read-out cycles of a thin station's drain: vector by vector, the four groups of each in order (R82). -/
def mvDrain (rate b kblk : Nat) : List Nat :=
  drainCycles (fun i => mvLast rate b kblk (i % 4) (i / 4)) (4 * b) 0 (mvLast rate b kblk 0 0)

/-- Where an MV reads and writes, and how long it runs (R101). The station takes the next pass when the last block has entered, as the example after R83 counts
(DEDUCED, notes/assumptions/94). -/
def mvSpec (x : Ctx) (f : MvF) : StnSpec :=
  match fmtOfCode f.wFmt.toNat, fmtOfCode f.outFmt.toNat with
  | some fw, some fo =>
    let k := f.kblk.toNat
    let b := f.nvecM1.toNat + 1
    let rate := pairRate fw fw
    let wT := tabulate (4 * k) (fun i => ((f.wBase.toNat + i * tileUnits fw) % 2 ^ 23, tileUnits fw))
    let iT := if f.init then tabulate 4 (fun g => ((f.initBase.toNat + g * 65) % 2 ^ 23, 65)) else []
    let outs := tabulate 4 (fun g => ((f.outBase.toNat + g * tileUnits fo) % 2 ^ 23, tileUnits fo))
    let tiles := wT ++ iT
    let drain := mvDrain rate b k
    let trailer := fun (g : Nat) => max (drain.getD (4 * (b - 1) + g) 0 + 5) (mvLast rate b k g (b - 1) + 64)
    { opc := 0x21, tiles := tiles, outs := outs
      reads := tiles.map (fun t => (smAddr64 x.lpart t.1, t.2))
      ranges := (tiles ++ outs).map (fun t => (2, x.lpart, t.1, t.2))
      dur := (List.range 4).foldl (fun d g => max d (trailer g)) 0
      outAt := tabulate 4 trailer
      busyAt := (outs.mapIdx (fun g o =>
        [(o.1, o.2 - 1, drain.getD g 0 + 4, drain.getD (4 * (b - 1) + g) 0 + 4), ((o.1 + o.2 - 1) % 2 ^ 23, 1, trailer g, trailer g)])).flatten
      bank := some (1, x.inst, boolNat f.bank)
      bankEnd := drain.getLastD 0
      lead := if f.init then loadLead (4 * b) (mvLast rate b 1 0 0) else 0
      entryEnd := k * b * (if rate = 2 then 2 else 1)
      token := (f.outBase.toNat, 4 * tileUnits fo) }
  | _, _ => { opc := 0x21 }

/-- A descriptor's address fields put into an MV (R116). -/
def mvSub (f : MvF) (d : Nat) : Option MvF :=
  if !f.init && field d 123 23 != 0 then none
  else some { f with outBase := BitVec.ofNat 23 (field d 146 23), initBase := BitVec.ofNat 23 (field d 123 23),
                     wBase := BitVec.ofNat 23 (field d 68 23) }

/-- A block of vector `v` at K block `k` in the buffer (R100). -/
def bufBlock (buf : List Byte) (ft : Fmt) (off kblk v k : Nat) : Block :=
  let bs := slice buf (off + (v * kblk + k) * bufBlockBytes ft) (bufBlockBytes ft)
  { codes := tabulate 32 (blockElem ft (natLE (bs.take (blockBytes ft))))
    scale := if isMx ft then (bs.getD (blockBytes ft) 0).toNat else 0 }

/-- The effect of an MV (R101): output tile g, row v, column u is the dot product of weight row 32g + u with vector v. -/
def mvBody (f : MvF) (x : Ctx) (stale : Bool) (m : Mach) : Bool × Mach :=
  match fmtOfCode f.wFmt.toNat, fmtOfCode f.vFmt.toNat, fmtOfCode f.outFmt.toNat with
  | some fw, some fv, some fo =>
    let k := f.kblk.toNat
    let b := f.nvecM1.toNat + 1
    let rate := pairRate fw fw
    let off := f.bufOff.toNat * 64
    let buf := (m.core.part x.part).mx.buf x.inst
    let vfl := (m.core.part x.part).mx.vflags.filter (fun e => e.1.1 == x.inst && overlaps e.1.2.1 e.1.2.2 off (b * k * bufBlockBytes fv))
    let (wT, m1) := x.readTiles fw (some false) x.part (tabulate (4 * k) (fun i => (f.wBase.toNat + i * tileUnits fw) % 2 ^ 23)) m
    let (iT, m2) := if f.init then x.readInits (tabulate 4 (fun g => (f.initBase.toNat + g * 65) % 2 ^ 23)) m1 else ([], m1)
    let fl := fun (g : Nat) =>
      let fl0 := flagsFor stale (wT ++ iT) ((tabulate k (fun kk => (wT.drop (4 * kk + g)).take 1)).flatten ++ (iT.drop g).take 1)
      ({ poison := fl0.poison || vfl.any (fun e => e.2.1), checked := fl0.checked && vfl.all (fun e => e.2.2.1),
         unsealed := fl0.unsealed || vfl.any (fun e => e.2.2.2) } : OutFlags)
    let drain := mvDrain rate b k
    let outOf := fun (g : Nat) =>
      let init := match iT[g]? with | some t => tileMatrix .fp32 false t.blocks | none => []
      tabulate 32 (fun v => tabulate 32 (fun u =>
        if v < b then
          dpuSum fw fv ((init.getD v []).getD u f32Zero)
            (tabulate k (fun kk => ((wT.getD (4 * kk + g) { blocks := [], trailer := trailerOf [], poison := false, checked := false, unsealed := false }).blocks.getD u ⟨[], 0⟩,
                                    bufBlock buf fv off k v kk)))
        else f32Zero))
    let reg := (1, x.inst, boolNat f.bank)
    let m3 := m2.up (fun c => c.modMx x.part (MxPart.putRegs reg 512
      (tabulate (128 * b) (fun i => ((outOf (i / 32 % 4)).getD (i / 128) []).getD (i % 32) f32Zero))))
    let (vals, whole) := (m3.core.part x.part).mx.readRegs reg 512 (128 * b)
    (false, (List.range 4).foldl (fun m g =>
      let rows := tabulate 32 (fun v => if v < b then (vals.drop (128 * v + 32 * g)).take 32 else List.replicate 32 f32Zero)
      let cols := match wT[g]? with | some t => t.trailer.rowsM1.toNat | none => 0
      let blocks := x.drainRows fo (cvtOf f.cvt) (b - 1) cols (tabulate 32 (fun v => drain.getD (4 * v + g) 0)) rows
      x.writeTile fo false (b - 1) cols (fl g).poison ((fl g).checked && whole) (fl g).unsealed 0 blocks x.part ((f.outBase.toNat + g * tileUnits fo) % 2 ^ 23) m) m3)
  | _, _, _ => (false, m)

/-- MV issues and runs. -/
def mvRun (granted : Bool) (st : Stn) (h : Hdr) (f : MvF) : Mach → Mach :=
  issueWith granted (.mv st h f) st h f 0x21 mvSub (fun _ => mvSpec) mvBody

/-- MV (R101). -/
def execMv (st : Stn) (h : Hdr) (f : MvF) (s : State) : Host.Outcome State Fault Refusal := runM (mvRun false st h f) s

end Sys2Proof.Machine
end

