-- ==== Sys2Proof/Machine/Parse.lean ====
section
/-!
DEFINITION. The plan image read (06_beats_and_determinism.md R177 to R185, 09 R294 to R298): its header, directory and sections, and the tests of Table
06-9 that read only the image.
-/

namespace Sys2Proof.Machine

/-- A test that fails: its status, the section TYPE (0 the header) and the byte offset within it. -/
structure AFail where
  status : Nat
  sect : Nat
  off : Nat
deriving DecidableEq, Repr

/-- The first test of a list that fails. -/
def firstFail (l : List (Option AFail)) : Option AFail := l.findSome? id

/-- A failure where a condition does not hold. -/
def need (b : Bool) (status sect off : Nat) : Option AFail := if b then none else some ⟨status, sect, off⟩

/-- Whether `n` bytes at offset `i` are 0. -/
def zeroAt (bs : List Byte) (i n : Nat) : Bool := (slice bs i n).all (fun b => b == 0)

/-! ### Header and directory (Table 06-7, R179) -/

/-- The header fields. -/
def readHdr (r : List Byte) : PlanHdr :=
  let f := fieldAt r
  { holdLimit := f 104 4, detourHops := f 94 1, stepBeats := f 92 2, beatUs := f 88 4, levelP := bitOf (f 87 1) 0, lends := bitOf (f 87 1) 1,
    onDemand := bitOf (f 87 1) 2, cls := f 86 1, lldMask := f 85 1, lpartMask := f 84 1, grade := f 83 1, profile := f 82 1, logicalModule := f 80 2,
    tx := f 76 1, ty := f 77 1, tz := f 78 1, sliceK := f 75 1, sliceKind := f 74 1, modCount := f 72 2, fwMajor := f 6 2, shapeDigest := slice r 40 32,
    digest := slice r 8 32 }

/-- A section directory entry. -/
structure Sect where
  typ : Nat
  off : Nat
  len : Nat
  scrc : Nat
  pos : Nat
deriving DecidableEq, Repr

/-- The section directory. -/
def sections (r : List Byte) : List Sect :=
  tabulate (fieldAt r 98 2) (fun i =>
    let p := 256 + 16 * i
    { typ := fieldAt r p 2, off := fieldAt r (p + 4) 4, len := fieldAt r (p + 8) 4, scrc := fieldAt r (p + 12) 4, pos := p })

/-- A section's bytes, empty when the image has none of the type. -/
def sectBytes (r : List Byte) (typ : Nat) : List Byte :=
  match (sections r).find? (fun s => s.typ == typ) with | some s => slice r s.off s.len | none => []

/-- Entries of `n` bytes of a section. -/
def entries (r : List Byte) (typ n : Nat) : List (List Byte) := chunks n (sectBytes r typ)

/-- A reserved value in the header (R9, R186): its offset. -/
def hdrReserved (r : List Byte) : Option AFail :=
  let h := readHdr r
  let bad := fun (b : Bool) (o : Nat) => need b 0x308 0 o
  firstFail
    [ bad (decide (1 ≤ h.modCount) && decide (h.modCount ≤ 16384)) 72,
      bad (decide (h.sliceKind ≤ 2)) 74,
      bad (if h.sliceKind = 1 then h.sliceK ≤ 6 else h.sliceK == 0) 75,
      bad (if h.sliceKind = 2 then inRange h.tx 1 8 && inRange h.ty 1 8 && inRange h.tz 1 4 else h.tx == 0 && h.ty == 0 && h.tz == 0) 76,
      bad (zeroAt r 79 1) 79,
      bad (h.logicalModule < 16384 || h.logicalModule == 0xFFFF) 80,
      bad (inRange h.profile 1 3) 82,
      bad (h.grade == 0x0A || h.grade == 0x0E || h.grade == 0xCC) 83,
      bad (h.lldMask < 16) 85,
      bad (h.cls ≤ 2) 86,
      bad (fieldAt r 87 1 < 8 && (!h.onDemand || h.cls == 0)) 87,
      bad (decide (10 ≤ h.beatUs) && decide (h.beatUs ≤ 100000)) 88,
      bad (decide (1 ≤ h.stepBeats)) 92,
      bad (h.detourHops == (if 1 < h.modCount then 1 else 0)) 94,
      bad (zeroAt r 95 3) 95,
      bad (decide (1 ≤ h.holdLimit) && decide (h.holdLimit ≤ 131072)) 104,
      bad (zeroAt r 108 144) 108 ]

/-! ### Station programs (R180) -/

/-- The record that begins at section offset `o`: its program and its length, when its beats lie as R180 says. -/
def readRecord (b : List Byte) (o : Nat) : Option (Prog × Nat) :=
  let sb := fieldAt b (o + 2) 2
  let counts := tabulate sb (fun i => (fieldAt b (o + 4 + 8 * i) 4, fieldAt b (o + 8 + 8 * i) 4))
  let base := 4 + 8 * sb
  let chk := counts.foldl (fun (a : Bool × Nat) e => (a.1 && e.1 == base + 32 * a.2, a.2 + e.2)) (true, 0)
  let len := base + 32 * chk.2
  if chk.1 && decide (o + len ≤ b.length) then
    some ({ lsid := BitVec.ofNat 16 (fieldAt b o 2),
            beats := counts.map (fun e => tabulate e.2 (fun k => BitVec.ofNat 256 (fieldAt b (o + e.1 + 32 * k) 32))) }, len)
  else none

/-- The records of a station program section from offset `o` on, with their offsets; none where the layout breaks R180. `fuel` bounds their number. -/
def readRecords (b : List Byte) : Nat → Nat → Option (List (Nat × Prog))
  | 0, _ => some []
  | n + 1, o =>
    if b.length ≤ o then some []
    else
      match readRecord b o with
      | none => none
      | some (p, len) =>
        let next := 64 * ceilDiv (o + len) 64
        if zeroAt b (o + len) (next - (o + len)) && decide (next ≤ b.length) then (readRecords b n next).map (fun l => (o, p) :: l) else none

/-- The programs of an image. -/
def programs (r : List Byte) : Option (List (Nat × Prog)) := let b := sectBytes r 1; readRecords b (b.length / 64 + 1) 0

/-! ### The BAD_IMAGE tests -/

/-- The section types that an image needs (Table 06-8): 2 when its streams name a control core, 7 when a collective station has a program. That a K is split
(type 8) no other section tells. -/
def neededSections (r : List Byte) : List Nat :=
  let core := fun (b : List Byte) (o : Nat) => field (natLE b) o 4 == 0xF
  let cs := match programs r with | some ps => ps.any (fun p => lsScode p.2.lsid == 6) | none => false
  [1, 3, 4, 5, 6, 9] ++ (if (entries r 3 8).any (fun b => core b 60 || core b 44) then [2] else []) ++ (if cs then [7] else [])

/-- The tests of BAD_IMAGE (Table 06-9); `len` is the image length that the command gives. -/
def badImage (r : List Byte) (len : Nat) : Option AFail :=
  let bad := fun (b : Bool) (o : Nat) => need b 0x301 0 o
  let n := fieldAt r 98 2
  let ss := sections r
  let zeroed := overwrite (overwrite r 8 (List.replicate 32 0)) 252 (List.replicate 4 0)
  firstFail (
    [ bad (decide (256 ≤ r.length)) 0,
      bad (fieldAt r 0 4 == 0x4C505654) 0,
      bad (fieldAt r 4 2 == 1) 4,
      bad (fieldAt r 252 4 == crc32c (slice r 0 252)) 252,
      bad (fieldAt r 100 4 == len && r.length == len && decide (len ≤ 2 ^ 30)) 100,
      bad (slice r 8 32 == sha256 zeroed) 8,
      bad (decide (1 ≤ n) && decide (n ≤ 64)) 98 ] ++
    ss.map (fun s => bad (s.off % 64 == 0 && decide (256 + 16 * n ≤ s.off) && decide (s.off + s.len ≤ len)) s.pos) ++
    ss.map (fun s => bad (!(ss.any (fun t => s.pos != t.pos && (s.typ == t.typ || overlaps s.off s.len t.off t.len)))) s.pos) ++
    ss.map (fun s => bad (crc32c (slice r s.off s.len) == s.scrc) s.pos) ++
    (neededSections r).map (fun t => bad (ss.any (fun s => s.typ == t)) 0) ++
    [need (programs r).isSome 0x301 1 0])

/-! ### Sections read -/

/-- Stream graph entries (R181). -/
def readStreams (r : List Byte) : List StreamEnt :=
  (entries r 3 8).map (fun b =>
    let n := natLE b
    { producer := BitVec.ofNat 16 (field n 48 16), consumer := BitVec.ofNat 16 (field n 32 16), chan := field n 20 12, lpart := field n 17 3, depth := field n 10 7 })

/-- Buffer map entries (R182). -/
def readBufs (r : List Byte) : List BufRange :=
  (entries r 4 16).map (fun b =>
    let n := natLE b
    { off := field n 80 48, units := field n 48 32, space := field n 46 2, lpart := field n 43 3, kind := field n 38 5 })

/-- Slot claim entries (R183). -/
def readClaims (r : List Byte) : List Claim :=
  (entries r 5 32).map (fun b => { lsid := BitVec.ofNat 16 (fieldAt b 0 2), own := BitVec.ofNat 64 (fieldAt b 8 8), lend := BitVec.ofNat 64 (fieldAt b 16 8) })

/-- Check plan entries (R184). -/
def readChecks (r : List Byte) : List CheckEnt :=
  (entries r 6 16).map (fun b =>
    { beat := fieldAt b 0 2, kind := fieldAt b 2 1, lpart := fieldAt b 3 1 % 8, space := fieldAt b 4 1, clog2 := fieldAt b 5 1, off := fieldAt b 8 4,
      units := fieldAt b 12 4 })

/-- Split table entries with their continuation entries (R185). -/
def readSplitsAux : Nat → List (List Byte) → List SplitEnt
  | 0, _ => []
  | _, [] => []
  | n + 1, b :: rest =>
    let count := fieldAt b 2 2
    let more := ceilDiv (count - 4) 8
    let vals := (chunks 2 (b.drop 8 ++ (rest.take more).flatten)).map natLE
    { lsid := BitVec.ofNat 16 (fieldAt b 0 2), count := count, out := fieldAt b 4 4, parts := vals.take count } :: readSplitsAux n (rest.drop more)

/-- The split table. -/
def readSplits (r : List Byte) : List SplitEnt := let es := entries r 8 16; readSplitsAux es.length es

/-- Resource demand entries (R185). -/
def readDemand (r : List Byte) : List DemandEnt :=
  (entries r 9 16).map (fun b => { slot := fieldAt b 0 1, kind := fieldAt b 1 1, inst := fieldAt b 2 1, bytes := fieldAt b 8 8 })

/-- The positions of a member mask in rank order (R298): by m, with the lowest dimension weighing most in a subcube. -/
def memberPositions (mask : Nat) : List Nat :=
  let ps := onesOf 64 mask
  if isCube mask then
    let dims := onesOf 6 (spread mask)
    let key := fun (p : Nat) => dims.foldl (fun a d => 2 * a + boolNat (p.testBit d)) 0
    ps.mergeSort (fun a b => decide (key a ≤ key b))
  else ps

/-- The members of a group entry as logical modules in rank order (R296, R298); `pos` is the number of job positions of a meadow. -/
def groupMembers (h : PlanHdr) (pos : Nat) (b : List Byte) : List Nat :=
  let at1 := fun (i : Nat) => fieldAt b i 1
  (memberPositions (fieldAt b 0 8)).flatMap (fun p =>
    (List.range (at1 19)).flatMap (fun x => (List.range (at1 20)).flatMap (fun y => (List.range (at1 21)).map (fun z =>
      (at1 16 + x + max h.tx 1 * (at1 17 + y + max h.ty 1 * (at1 18 + z))) * pos + p))))

/-- The collective groups of an image (R294), as logical module `lm` sees them. -/
def readGroups (r : List Byte) (h : PlanHdr) (pos lm : Nat) : List GroupEnt :=
  let b := sectBytes r 7
  let n := fieldAt b 0 2
  let moves := ((chunks 32 (b.drop (64 + 128 * n))).take (fieldAt b 4 4)).map (fun e =>
    ({ srcRank := fieldAt e 0 2, dstRank := fieldAt e 2 2, units := fieldAt e 4 4, src := fieldAt e 8 8, dst := fieldAt e 16 8 } : MoveEnt))
  if b.isEmpty then []
  else tabulate n (fun g =>
    let raw := slice b (64 + 128 * g) 128
    let ms := groupMembers h pos raw
    { index := g, members := ms, rank := (List.range ms.length).find? (fun i => ms.getD i 0 == lm), raw := raw,
      moves := (moves.drop (fieldAt raw 64 4)).take (fieldAt raw 68 4) })

/-! ### Reserved values (R9) -/

/-- Whether an LSID of a plan holds no reserved value (R119); the control core code counts where `ctrl` says so. -/
def lsidDefined (ctrl : Bool) (l : Lsid) : Bool :=
  field l.toNat 4 5 == 0 && (inRange (lsScode l) 1 6 || (ctrl && lsScode l == 0xF))

/-- Failures over the entries of a section, at their offsets. -/
def eachEntry (typ n : Nat) (es : List (List Byte)) (ok : List Byte → Bool) (status : Nat) : Option AFail :=
  firstFail (es.mapIdx (fun i b => need (ok b) status typ (n * i)))

/-- The offset of the first entry of a split table, from offset `o` on, that holds a reserved value (R119, R185): an entry has 2 parts or more, all its continuation
entries, and slots beyond the part count 0. -/
def splitFail : Nat → Nat → List (List Byte) → Option Nat
  | 0, _, _ => none
  | _, _, [] => none
  | n + 1, o, b :: rest =>
    let l := fieldAt b 0 2
    let count := fieldAt b 2 2
    let more := ceilDiv (count - 4) 8
    let vals := (chunks 2 (b.drop 8 ++ (rest.take more).flatten)).map natLE
    if 2 ≤ count && more ≤ rest.length && (l == 0xFFFF || lsidDefined false (BitVec.ofNat 16 l)) && (vals.drop count).all (fun v => v == 0) then
      splitFail n (o + 16 * (1 + more)) (rest.drop more)
    else some o

/-- The entries of a split table with their offsets. -/
def splitPlaces : List SplitEnt → Nat → List (SplitEnt × Nat)
  | [], _ => []
  | e :: es, o => (e, o) :: splitPlaces es (o + 16 * (1 + ceilDiv (e.count - 4) 8))

/-- Whether a group entry holds no reserved value (Table 09-1). -/
def groupDefined (b : List Byte) : Bool :=
  let f := fieldAt b
  zeroAt b 8 8 && zeroAt b 55 1 && zeroAt b 72 52 && [1, 3, 15].contains (f 22 1) && inRange (f 23 1) 1 64 && inRange (f 19 1) 1 8 && inRange (f 20 1) 1 8 &&
  inRange (f 21 1) 1 4 && inRange (f 34 2) 10 9991 && f 48 2 ≤ 64 && inRange (f 50 2) 1 4096 && inRange (f 52 2) 1 1023 && inRange (f 54 1) 1 16 && f 68 4 ≤ 2 ^ 20 &&
  gaSpace (f 36 8) ≤ 2 && gaSpace (f 56 8) ≤ 2

/-- Whether a move entry holds no reserved value (Table 09-9). -/
def moveDefined (b : List Byte) : Bool :=
  zeroAt b 24 8 && fieldAt b 4 4 != 0 && gaSpace (fieldAt b 8 8) ≤ 2 && gaSpace (fieldAt b 16 8) ≤ 2 && fieldAt b 8 8 % 64 == 0 && fieldAt b 16 8 % 64 == 0

/-- A reserved value in a section (R9, Table 06-9 RESERVED_VALUE). -/
def bodyReserved (r : List Byte) : Option AFail :=
  let progs := (programs r).getD []
  firstFail
    [ firstFail ((sections r).map (fun s => need (inRange s.typ 1 9 && zeroAt r (s.pos + 2) 2) 0x308 0 s.pos)),
      firstFail (progs.map (fun p => need (lsidDefined false p.2.lsid) 0x308 1 p.1)),
      firstFail (progs.map (fun p => need (p.2.beats.all (fun is => is.all (fun w =>
        match decodeStn w with | some i => i.defined && i.scode.toNat == lsScode p.2.lsid | none => false))) 0x308 1 p.1)),
      eachEntry 3 8 (entries r 3 8) (fun b =>
        let n := natLE b
        field n 0 10 == 0 && inRange (field n 10 7) 1 64 && lsidDefined true (BitVec.ofNat 16 (field n 48 16)) && lsidDefined true (BitVec.ofNat 16 (field n 32 16))) 0x308,
      eachEntry 4 16 (entries r 4 16) (fun b => let n := natLE b; field n 0 38 == 0 && field n 46 2 ≤ 2 && field n 38 5 ≤ 5 && field n 80 48 % 64 == 0) 0x308,
      eachEntry 5 32 (entries r 5 32) (fun b =>
        let own := BitVec.ofNat 64 (fieldAt b 8 8)
        let lend := BitVec.ofNat 64 (fieldAt b 16 8)
        zeroAt b 2 6 && zeroAt b 24 8 && lsidDefined false (BitVec.ofNat 16 (fieldAt b 0 2)) && lend &&& own == lend &&
          ((readHdr r).cls != 2 || lend == 0)) 0x308,
      eachEntry 6 16 (entries r 6 16) (fun b =>
        inRange (fieldAt b 2 1) 1 5 && fieldAt b 3 1 < 8 && fieldAt b 4 1 ≤ 2 && zeroAt b 6 2 && (if fieldAt b 2 1 = 5 then true else fieldAt b 5 1 == 0)) 0x308,
      (let b := sectBytes r 7
       if b.isEmpty then none
       else
         let base := 64 + 128 * fieldAt b 0 2
         firstFail (
           need (inRange (fieldAt b 0 2) 1 255 && zeroAt b 2 2 && zeroAt b 8 52) 0x308 7 0 ::
           (tabulate (fieldAt b 0 2) (fun g => need (groupDefined (slice b (64 + 128 * g) 128)) 0x308 7 (64 + 128 * g)) ++
            ((chunks 32 (b.drop base)).take (fieldAt b 4 4)).mapIdx (fun k e => need (moveDefined e) 0x308 7 (base + 32 * k))))),
      (let es := entries r 8 16
       (splitFail es.length 0 es).map (fun o => ⟨0x308, 8, o⟩)),
      eachEntry 9 16 (entries r 9 16) (fun b => inRange (fieldAt b 1 1) 1 5 && zeroAt b 3 5 && fieldAt b 0 1 < 64) 0x308 ]

/-! ### The plan -/

/-- The words of a program decoded, beat by beat. -/
def Prog.words (p : Prog) : List (List StnWord) := p.beats.map (fun is => is.filterMap decodeStn)

/-- The plan that an image describes, not yet bound; `lm` is this module's logical module, which a LOGICAL_MODULE of 0xFFFF stands for. -/
def readPlan (r : List Byte) (t : TenantId) (pos lm : Nat) : Plan :=
  let h0 := readHdr r
  let h := { h0 with logicalModule := if h0.logicalModule = 0xFFFF then lm else h0.logicalModule, shared := h0.logicalModule == 0xFFFF }
  { handle := 0, tenant := t, hdr := h, progs := ((programs r).getD []).map Prod.snd, ctrl := [], streams := readStreams r, bufs := readBufs r,
    claims := readClaims r, checks := readChecks r, splits := readSplits r, groups := readGroups r h pos lm, demand := readDemand r,
    pmap := List.replicate 8 none, lmap := List.replicate 4 none, binds := [], rings := [],
    progBytes := (sectBytes r 1).length + (sectBytes r 2).length }

/-- Q of a header's profile (Table 06-1). -/
def PlanHdr.q (h : PlanHdr) : Nat := cyclesPerUs (BitVec.ofNat 8 h.profile)

/-- BC of a header (R157). -/
def PlanHdr.bc (h : PlanHdr) : Nat := h.beatUs * h.q

/-- How an instruction of a plan runs at its scheduled cycles, as its opcode describes it. -/
def Plan.specOf (m : Mach) (p : Plan) (l : Lsid) (i : StnWord) : StnSpec :=
  let j : Job := mkJob p 0 0 0 p.hdr.logicalModule []
  let x : Ctx := { job := j, plan := p, lsid := l, die := 0, inst := 0, part := 0, opc := i.opc.toNat, issue := i.hdr.issue.toNat }
  match i.f with
  | .none => { opc := 0 }
  | .range f => { opc := i.opc.toNat, ranges := [(2, lsDie l, f.base.toNat, f.len.toNat)] }
  | .mma f => mmaSpec x f
  | .vload f => vloadSpec x f
  | .mv f => mvSpec x f
  | .vec f => vecSpecOn i.opc.toNat x f (x.vecMemOf i.opc.toNat f [])
  | .gather f => { gatherSpec f x f with dur := f.winEnd.toNat - i.hdr.issue.toNat }
  | .xfer f => xferSpec m x f
  | .coll f => collSpec i.opc.toNat m x f

/-- The first cycle after an instruction's issue at which its station can accept the next one (R69, R128, R528; notes/assumptions/94). -/
def acceptAfter (sp : StnSpec) (i : StnWord) : Nat :=
  match i.f with
  | .mma _ | .mv _ => sp.entryEnd
  | .vec f => f.count.toNat * vecC i.opc.toNat f
  | .xfer _ => max sp.entryEnd 1
  | _ => sp.dur + 1

/-- Cycles that an instruction's token takes after its last trailer (R111, R113): POST posts one of itself (Table 04-7), and an XFER with RPOST no other. -/
def StnWord.tokenCycles (i : StnWord) (sp : StnSpec) : Nat :=
  match i.f with
  | .xfer f => if f.rpost then sp.after else boolNat i.hdr.post
  | _ => boolNat (i.hdr.post || i.opc == 1)

/-- Whether no instruction uses an accumulator bank before the drain of every earlier use of it ends, its load of start values included (R57, R62). -/
def banksFree (l : List (Nat × StnSpec)) : Bool :=
  laterAll (fun a b => match a.2.bank, b.2.bank with
    | some x, some y => x != y || decide (a.1 + a.2.bankEnd + b.2.lead < b.1)
    | _, _ => true) l

/-- Whether a beat of a station program keeps R98, R158 and R163: rising ISSUE, no instruction before the station accepts it and its accumulator bank is
free, LAST on the last alone, and every instruction ended, with its trailers and token, before the edge reserve and inside the station's slots. -/
def beatOk (m : Mach) (p : Plan) (l : Lsid) (own : BitVec 64) (is : List StnWord) : Bool :=
  let bc := p.hdr.bc
  let pairs := is.zip (is.drop 1)
  pairs.all (fun e => e.1.hdr.issue.toNat < e.2.hdr.issue.toNat && e.1.hdr.issue.toNat + acceptAfter (p.specOf m l e.1) e.1 ≤ e.2.hdr.issue.toNat) &&
  banksFree (is.map (fun i => (i.hdr.issue.toNat, p.specOf m l i))) &&
  (is.mapIdx (fun k i => i.hdr.last == (k + 1 == is.length))).all id &&
  is.all (fun i =>
    let a := i.hdr.issue.toNat
    let sp := p.specOf m l i
    let b := a + sp.dur + i.tokenCycles sp
    decide (b + 512 < bc) && (List.range (slotOf bc b + 1 - slotOf bc a)).all (fun k => own.getLsbD (slotOf bc a + k)))

/-- The starts from idle and the stops of a program's array instructions in a beat (R70). -/
def startsStops (m : Mach) (p : Plan) (l : Lsid) (is : List StnWord) : List Nat × List Nat :=
  let ms := is.filter (fun i => i.opc == 0x10)
  let ends := ms.map (fun i => i.hdr.issue.toNat + (p.specOf m l i).entryEnd)
  (ms.zip (0 :: ends)).foldl (fun (a : List Nat × List Nat) e =>
    if e.1.hdr.issue.toNat = e.2 && e.2 ≠ 0 then (a.1, a.2.dropLast ++ [e.1.hdr.issue.toNat + (p.specOf m l e.1).entryEnd])
    else (a.1 ++ [e.1.hdr.issue.toNat], a.2 ++ [e.1.hdr.issue.toNat + (p.specOf m l e.1).entryEnd])) ([], [])

/-- Whether two lists of cycles stay at least 4 apart. -/
def apart (a b : List Nat) : Bool := a.all (fun x => b.all (fun y => x + 4 ≤ y || y + 4 ≤ x))

/-- Whether the starts from idle, and the stops, of all arrays of each die of a plan stay at least 4 cycles apart in every beat (R70). -/
def Plan.spaced (m : Mach) (p : Plan) : Bool :=
  let ps := p.progs.filter (fun q => lsScode q.lsid == 1)
  let far := laterAll (fun x y : Nat => decide (x + 4 ≤ y) || decide (y + 4 ≤ x))
  (List.range p.hdr.stepBeats).all (fun b => (ps.map (fun q => lsDie q.lsid)).eraseDups.all (fun d =>
    let es := (ps.filter (fun q => lsDie q.lsid == d)).map (fun q => startsStops m p q.lsid (q.words.getD b []))
    far (es.flatMap Prod.fst) && far (es.flatMap Prod.snd)))

/-- All starts and stops of a plan on a logical die. -/
def Plan.edges (m : Mach) (p : Plan) (die : Nat) : List Nat × List Nat :=
  (p.progs.filter (fun q => lsScode q.lsid == 1 && lsDie q.lsid == die)).foldl (fun a q =>
    q.words.foldl (fun a is => let e := startsStops m p q.lsid is; (a.1 ++ e.1, a.2 ++ e.2)) a) ([], [])

/-! ### The schedule of a whole step -/

/-- An instruction of a plan at its scheduled cycle, counted from the start of the step. -/
structure Slotted where
  lsid : Lsid
  beat : Nat
  start : Nat
  word : StnWord
  spec : StnSpec

/-- Every instruction of a plan. -/
def Plan.timeline (m : Mach) (p : Plan) : List Slotted :=
  p.progs.flatMap (fun q => (q.words.mapIdx (fun b is => is.map (fun i =>
    ({ lsid := q.lsid, beat := b, start := b * p.hdr.bc + i.hdr.issue.toNat, word := i, spec := p.specOf m q.lsid i } : Slotted)))).flatten)

/-- The logical die whose channels a station takes from and posts to: a collective station's is the plan's lowest (notes/assumptions/80). -/
def Plan.chanDie (p : Plan) (l : Lsid) : Nat := if lsScode l = 6 then (onesOf 8 p.hdr.lpartMask).headD 0 else lsDie l

/-- The ranges an instruction writes, as (space, logical partition, unit, units). -/
def Slotted.writes (e : Slotted) : List (Nat × Nat × Nat × Nat) :=
  e.spec.writes ++ e.spec.outs.map (fun t => (2, lsDie e.lsid, t.1, t.2)) ++
    (if e.spec.opc = 0x70 then [(2, lsDie e.lsid, e.spec.token.1, e.spec.token.2)] else [])

/-- Whether two ranges share a unit. -/
def rangesMeet (a b : Nat × Nat × Nat × Nat) : Bool := a.1 == b.1 && a.2.1 == b.2.1 && overlaps a.2.2.1 a.2.2.2 b.2.2.1 b.2.2.2

/-- Whether an instruction writes into one of a list of ranges. -/
def Slotted.writesInto (e : Slotted) (rs : List (Nat × Nat × Nat × Nat)) : Bool := e.writes.any (fun w => rs.any (rangesMeet w))

/-- The channels an instruction posts its completion to, as (logical die, channel): POST, or RPOST of an XFER whose data come here (04 R111, R113). -/
def Plan.postsTo (p : Plan) (e : Slotted) : List (Nat × Nat) :=
  match e.word.f with
  | .xfer f =>
    if f.rpost then (if gaModule f.dst.toNat = p.hdr.logicalModule then [((splitOff (gaSpace f.dst.toNat) (gaOff f.dst.toNat)).1, f.dstCh.toNat)] else [])
    else if e.word.hdr.post then [(p.chanDie e.lsid, e.word.hdr.outCh.toNat)] else []
  | _ => if e.word.hdr.post || e.word.opc == 1 then [(p.chanDie e.lsid, e.word.hdr.outCh.toNat)] else []

/-- The channel an instruction takes from. -/
def Plan.takesFrom (p : Plan) (e : Slotted) : Option (Nat × Nat) := if e.word.hdr.wait then some (p.chanDie e.lsid, e.word.hdr.inCh.toNat) else none

/-- Whether a reader is ordered with a writer: it issues once the writer has completed, the writer issues once it has ended, or it or an earlier
instruction of its station takes the writer's token (05 R128, 09 R312; notes/assumptions/80). -/
def Plan.orderedWith (p : Plan) (es : List Slotted) (w e : Slotted) : Bool :=
  decide (w.start + w.spec.dur ≤ e.start) || decide (e.start + e.spec.dur < w.start) ||
  es.any (fun k => k.lsid == e.lsid && decide (w.start ≤ k.start) && decide (k.start ≤ e.start) &&
    (match p.takesFrom k with | some c => (p.postsTo w).contains c | none => false))

/-- The flat operands of a vector instruction (05 R128). -/
def Slotted.flats (e : Slotted) : List (Nat × Nat × Nat × Nat) :=
  match e.word.f with
  | .vec f => (if e.word.opc = 0x60 then [(f.src0.toNat, 1)] else (vecMem e.word.opc.toNat f []).flats).map (fun t => (2, lsDie e.lsid, t.1, t.2))
  | _ => []

/-- Whether an instruction, or an earlier one of its station, takes a token that a control core posts. -/
def Plan.coreOrders (p : Plan) (es : List Slotted) (e : Slotted) : Bool :=
  es.any (fun k => k.lsid == e.lsid && decide (k.start ≤ e.start) &&
    (match p.takesFrom k with
     | some c => p.streams.any (fun s => s.lpart == c.1 && s.chan == c.2 && lsScode s.producer == 0xF)
     | none => false))

/-- Whether every flat operand is ordered after its producer (05 R128) and every consumer of a collective's output takes its token or comes no earlier
than ISSUE + B (09 R312, R324). A flat operand that no station of the plan writes comes from a control core, whose token must be taken. -/
def Plan.ordersOk (p : Plan) (es : List Slotted) : Bool :=
  es.all (fun e =>
    let flats := e.flats
    let reads := e.spec.reads.map (fun r => gaRange r.1 r.2)
    flats.all (fun r => es.any (fun w => w.writesInto [r]) || p.coreOrders es e) &&
    es.all (fun w =>
      (e.lsid == w.lsid && e.start == w.start) || p.orderedWith es w e ||
      !(w.writesInto flats || (lsScode w.lsid == 6 && w.writesInto reads))))

/-- The ranges an instruction writes in a cycle of the step: a copy writes four units in each cycle from its first write on (07 R231), an array, a thin or a vector
station in the cycles that its spec gives; what arrives from elsewhere may be written in any cycle of the run (notes/assumptions/80). -/
def Slotted.writesAt (e : Slotted) (cyc : Nat) : List (Nat × Nat × Nat × Nat) :=
  let t := cyc - e.start
  if cyc < e.start || e.start + e.spec.dur < cyc then []
  else
    match e.spec.copyAt with
    | some c => if t < c then [] else e.spec.writes.map (fun w => (w.1, w.2.1, w.2.2.1 + 4 * (t - c), min 4 (w.2.2.2 - 4 * (t - c))))
    | none =>
      if e.spec.busyAt.isEmpty then e.writes
      else (e.spec.busyAt.filter (fun b => decide (b.2.2.1 ≤ t) && decide (t ≤ b.2.2.2))).map (fun b => (2, lsDie e.lsid, b.1, b.2.1))

/-- Whether no RELEASE falls in a cycle in which an instruction writes into the range it releases (04 R97). -/
def releasesOk (es : List Slotted) : Bool :=
  es.all (fun e => e.word.opc != 2 || es.all (fun w => !((w.writesAt e.start).any (fun r => e.spec.ranges.any (rangesMeet r)))))

/-- Whether no instruction of the step writes into a source range of a SHARD_PERMUTE here (09 R327). -/
def Plan.permutesOk (p : Plan) (es : List Slotted) : Bool :=
  es.all (fun e =>
    match e.word.f with
    | .coll f =>
      e.word.opc != 0x96 ||
      (match p.groups.find? (fun g => g.index == f.group.toNat) with
       | some g =>
         let srcs := (g.moves.filter (fun k => some k.srcRank == g.rank)).map (fun k => gaRange k.src k.units)
         es.all (fun w => !(w.writesInto srcs))
       | none => true)
    | _ => true)

/-- The route bound HM, HG of a plan's transfers between two physical modules (08 R271, R284). -/
def Core.routeBound (c : Core) (p : Plan) (src dst : Nat) : Nat × Nat :=
  let axes := (List.range 3).filter (fun a => coord (src / 64) a != coord (dst / 64) a)
  let dist := fun (a : Nat) =>
    let sz := max (c.fab.cfg.size a) 1
    let u := coord (src / 64) a
    let v := coord (dst / 64) a
    if c.fab.plus p.tenant dst a u v then (v + sz - u) % sz else (u + sz - v) % sz
  (c.h0 p + axes.length + p.hdr.detourHops, sumNat (axes.map dist))

/-- The remote arrival budget of a transfer that logical module `src` sends to `dst` (08 R285): the cycle items, the route's time, for a READ twice, and the data
at the reserved rate. RL and WL are those of the D2 row, and of 12 and 8 cycles for station memory (notes/assumptions/80). -/
def Core.arrival (c : Core) (p : Plan) (f : XferF) (read : Bool) (src dst slot : Nat) : Nat :=
  let cfg := c.fab.cfg
  let prof := c.ident.profile
  let phys := fun (l : Nat) =>
    match c.fab.slices.find? (fun s => s.tenant == p.tenant && s.map[p.hdr.logicalModule]? == some cfg.own) with
    | some s => s.map.getD l cfg.own
    | none => cfg.own
  let mem := fun (a : BitVec 64) (rd : Bool) =>
    let sp := gaSpace a.toNat
    if rd then (if sp = 2 then 12 else xferRL prof 0 2 sp) else (if sp = 2 then 8 else xferWL prof 0 2 sp)
  let (hm, hg) := c.routeBound p (phys src) (phys dst)
  (if f.mode == 3 then 0 else mem f.src true) + 96 + mem f.dst false +
    c.toCycles (qAdd ((if read then 2 else 1) * (hm * 96 + hg * c.globHop 112), 1) (if f.mode == 3 then (0, 1) else p.xferNs c.fab read slot f.len.toNat))

/-- Whether an XFER keeps 08 R277: not both addresses remote, no fence on a remote transfer, and a TRANSPOSE only from here. -/
def xferOk (own : Nat) (i : StnWord) : Bool :=
  match i.f with
  | .xfer f =>
    let rs := f.mode != 3 && gaModule f.src.toNat != own
    let rd := gaModule f.dst.toNat != own
    !(rs && rd) && (f.mode != 1 || !(rs || rd)) && (f.mode != 2 || !rs)
  | _ => true

/-- The tokens that an instruction posts to the channels of this module, as (channel, latest cycle, whether it comes from another module): its own, and, for an
image that serves every module of the job, those of the same XFER run on the other modules (06 R189). -/
def Plan.arrivals (c : Core) (p : Plan) (e : Slotted) : List ((Nat × Nat) × Nat × Bool) :=
  let own := p.hdr.logicalModule
  let slot := slotOf p.hdr.bc (e.start % max p.hdr.bc 1)
  (p.postsTo e).flatMap (fun ch =>
    match e.word.f with
    | .xfer f =>
      if !f.rpost then [(ch, e.start + e.spec.dur + 1, false)]
      else
        (if f.mode != 3 && gaModule f.src.toNat != own then (ch, e.start + c.arrival p f true (gaModule f.src.toNat) own slot, true)
         else (ch, e.start + e.spec.dur + 1, false)) ::
        (((List.range (if p.hdr.shared then p.hdr.modCount else 0)).filter (fun l => l != own && xferOk l e.word)).map (fun l =>
          (ch, e.start + c.arrival p f false l own slot, true)))
    | _ => [(ch, e.start + e.spec.dur + 1, false)])

/-- Whether every take of a token that comes from another module is scheduled no earlier than its budget (06 R189): on each channel the tokens are taken in the
order in which they come. -/
def Plan.budgetsOk (c : Core) (p : Plan) (es : List Slotted) : Bool :=
  let posts := es.flatMap (p.arrivals c)
  let takes := es.filterMap (fun e => (p.takesFrom e).map (fun ch => (ch, e.start)))
  (posts.map Prod.fst).eraseDups.all (fun ch =>
    let ps := ((posts.filter (fun e => e.1 == ch)).map Prod.snd).mergeSort (fun a b => decide (a.1 ≤ b.1))
    let ts := ((takes.filter (fun e => e.1 == ch)).map Prod.snd).mergeSort (fun a b => decide (a ≤ b))
    (ps.zip ts).all (fun e => !e.1.2 || decide (e.1.1 ≤ e.2)))

/-- How many XIDs a plan takes: the remote transfers of the beat with the most (08 R278). -/
def Plan.xidCount (p : Plan) : Nat := listMax ((List.range p.hdr.stepBeats).map (fun b => (p.remoteXfers p.hdr.logicalModule b).length))

/-- How many XIDs a plan's collectives take: those of the beat with the most (08 R278). -/
def Plan.collCount (p : Plan) : Nat := listMax ((List.range p.hdr.stepBeats).map (fun b => (p.collsIn b).length))

/-- The lowest run of `n` numbers below `size` that meets none of the runs given as (first, count). -/
def freeRun (size n : Nat) (used : List (Nat × Nat)) : Option Nat :=
  (0 :: used.map (fun r => r.1 + r.2)).mergeSort (fun a b => decide (a ≤ b)) |>.find? (fun b =>
    decide (b + n ≤ size) && !(used.any (fun r => overlaps b n r.1 r.2)))

/-- The lowest run of a plan's XIDs, of 0 to 383, that meets those of no other plan (08 R278; notes/assumptions/31). -/
def Core.freeXids (c : Core) (n : Nat) : Option Nat := freeRun 384 n (c.plans.map (fun q => (q.xidBase, q.xidCount)))

/-- The lowest run of the XIDs of a plan's collectives, of 384 to 511 and counted from 384, that meets those of no other plan (08 R278). -/
def Core.freeCollXids (c : Core) (n : Nat) : Option Nat := freeRun 128 n (c.plans.map (fun q => (q.collBase, q.collCount)))

/-- Stations of each code on a die (Table 04-5, R20). -/
def stationCount (active scode : Nat) : Nat := match scode with | 1 => active | 2 => 4 | 3 => 8 | 4 => 2 | 5 => 8 | 6 => 1 | 0xF => 4 | _ => 0

/-- Whether an LSID lies inside the bounds of R119. -/
def PlanHdr.lsidOk (h : PlanHdr) (l : Lsid) : Bool :=
  let active := if h.grade = 0x0A then 12 else 11
  lsIndex l < stationCount active (lsScode l) &&
  (if lsScode l = 6 then lsDie l < 4 && h.lldMask.testBit (lsDie l) else h.lpartMask.testBit (lsDie l))

/-- Every LSID that a plan names. -/
def Plan.lsids (p : Plan) : List Lsid :=
  p.progs.map (fun q => q.lsid) ++ p.streams.flatMap (fun s => [s.producer, s.consumer]) ++ p.claims.map (fun c => c.lsid) ++
  (p.splits.filter (fun s => s.lsid != 0xFFFF)).map (fun s => s.lsid)

/-- Every LSID that an image names, with the section and the offset of the entry. -/
def lsidPlaces (r : List Byte) : List (Lsid × Nat × Nat) :=
  ((programs r).getD []).map (fun e => (e.2.lsid, 1, e.1)) ++
  ((readStreams r).mapIdx (fun i s => [(s.producer, 3, 8 * i), (s.consumer, 3, 8 * i)])).flatten ++
  (readClaims r).mapIdx (fun i k => (k.lsid, 5, 32 * i)) ++
  ((splitPlaces (readSplits r) 0).filter (fun e => e.1.lsid != 0xFFFF)).map (fun e => (e.1.lsid, 8, e.2))

/-- Whether a station program keeps the limits of class 0 (Table 06-6). -/
def Plan.class0Prog (p : Plan) (q : Prog) : Bool :=
  p.hdr.cls != 0 ||
  q.words.all (fun is => is.all (fun i =>
    !i.hdr.ind && i.scode != 4 &&
    !(i.hdr.wait && p.streams.any (fun s => s.lpart == p.chanDie q.lsid && s.chan == i.hdr.inCh.toNat && lsScode s.producer == 0xF))))

/-- Whether the first instruction of a class-0 plan's step issues within 2 µs (R174), for an ON_DEMAND plan of the step's beginning (R175). -/
def Plan.firstIssueOk (p : Plan) : Bool :=
  let firstOf := fun (b : Nat) => (p.progs.filterMap (fun q => (q.words.getD b []).head?)).map (fun i => i.hdr.issue.toNat)
  p.hdr.cls != 0 ||
  match ((List.range p.hdr.stepBeats).map firstOf).mapIdx (fun b l => (b, l)) |>.find? (fun e => !e.2.isEmpty) with
  | some (b, l) => decide (listMin l ≤ 2 * p.hdr.q) && (!p.hdr.onDemand || b == 0)
  | none => true

/-- The COUNT, SRC and group rules of Table 09-2, R309 and R327 for a collective. -/
def Plan.collOk (p : Plan) (beat : Nat) (i : StnWord) : Bool :=
  match i.f with
  | .coll f =>
    match p.groups.find? (fun g => g.index == f.group.toNat) with
    | none => false
    | some g =>
      let c := popcount 4 (fieldAt g.raw 22 1)
      let n := max g.members.length 1 * max c 1
      (!f.anch || f.count.toNat / 1024 ≤ fieldAt g.raw 44 4) &&
      match i.opc.toNat with
      | 0x90 | 0x91 => f.count.toNat % (n * (if f.red == 2 || f.red == 3 then 1024 else 64)) == 0
      | 0x92 => f.count.toNat % (max c 1 * 64) == 0
      | 0x93 => f.count.toNat % (max c 1 * 64) == 0 && (f.src == 0 || g.rank == some 0)
      | 0x94 | 0x95 => true
      | _ =>
        beat == 0 && f.count.toNat == fieldAt g.raw 68 4 &&
        ((g.moves.zip (List.range g.moves.length)).all (fun (a, k) => (g.moves.zip (List.range g.moves.length)).all (fun (b, l) =>
          (k == l || a.dstRank != b.dstRank || a.dst / 2 ^ 48 != b.dst / 2 ^ 48 || !(overlaps a.dst (a.units * 64) b.dst (b.units * 64))) &&
          (a.dstRank != b.srcRank || a.dst / 2 ^ 48 != b.src / 2 ^ 48 || !(overlaps a.dst (a.units * 64) b.src (b.units * 64))))))
  | _ => true

/-- The schedule cycles at which a collective draws, as (first, one past the last): RED 0x1 and COMBINE with stochastic rounding (09 R306). -/
def StnWord.drawRange (i : StnWord) : Option (Nat × Nat) :=
  match i.f with
  | .coll f =>
    if (cvtOf f.cvt).sr && ((i.opc.toNat = 0x90 || i.opc.toNat = 0x91) && f.red == 1 || i.opc.toNat = 0x95) then
      some (i.hdr.issue.toNat, i.hdr.issue.toNat + ceilDiv f.count.toNat 32)
    else none
  | _ => none

/-- Whether the draws of a collective station's beat keep within a schedule cycle's range and apart (09 R306). -/
def drawsOk (is : List StnWord) : Bool :=
  let rs := is.filterMap StnWord.drawRange
  rs.all (fun r => decide (r.2 < 2 ^ 28)) &&
  ((rs.zip (List.range rs.length)).all (fun (a, k) => (rs.zip (List.range rs.length)).all (fun (b, l) => k == l || !(overlaps a.1 (a.2 - a.1) b.1 (b.2 - b.1)))))

/-- A rule of the schedule that breaks (SCHEDULE_INVALID). The offset is that of the program record or section entry that breaks it, 0 for a rule over several
(DESIGN CHOICE, notes/assumptions/99). -/
def schedInvalid (r : List Byte) (m : Mach) (p : Plan) : Option AFail :=
  let progs := (programs r).getD []
  let bad := fun (b : Bool) (s o : Nat) => need b 0x309 s o
  let own := fun (l : Lsid) => match p.claims.find? (fun c => c.lsid == l) with | some c => c.own &&& ~~~c.lend | none => 0
  let g := sectBytes r 7
  let es := p.timeline m
  firstFail
    [ firstFail ((lsidPlaces r).map (fun e => bad (p.hdr.lsidOk e.1) e.2.1 e.2.2)),
      firstFail (progs.map (fun e => bad (e.2.beats.length == p.hdr.stepBeats && !(progs.any (fun q => q.1 != e.1 && q.2.lsid == e.2.lsid))) 1 e.1)),
      firstFail (progs.map (fun e => bad (e.2.words.all (fun is => is.all StnWord.schedOk)) 1 e.1)),
      firstFail (progs.map (fun e => bad (e.2.words.all (fun is => beatOk m p e.2.lsid (own e.2.lsid) is)) 1 e.1)),
      firstFail (progs.map (fun e => bad ((e.2.words.mapIdx (fun b is => is.all (p.collOk b))).all id) 1 e.1)),
      firstFail (progs.map (fun e => bad (e.2.words.all (fun is => is.all (xferOk p.hdr.logicalModule) && drawsOk is)) 1 e.1)),
      bad (decide (p.xidCount ≤ 384)) 1 0,
      bad (p.ordersOk es && releasesOk es && p.permutesOk es && p.budgetsOk m.core es) 1 0,
      bad (p.spaced m) 1 0,
      eachEntry 3 8 (entries r 3 8) (fun b =>
        let n := natLE b
        let here := fun (l : Nat) => inRange (l / 2 ^ 12) 1 5 || l / 2 ^ 12 == 0xF
        let die := fun (l : Nat) => field l 9 3 == field n 17 3 && here l
        die (field n 48 16) && die (field n 32 16)) 0x309,
      firstFail (p.streams.mapIdx (fun i s => bad (!((p.streams.take i).any (fun t => t.lpart == s.lpart && t.chan == s.chan))) 3 (8 * i))),
      firstFail (p.checks.mapIdx (fun i c => bad (c.kind != 5 || c.clog2 ≤ 16) 6 (16 * i))),
      firstFail (p.demand.mapIdx (fun i d => bad (match d.kind with
        | 1 | 3 => p.hdr.lpartMask.testBit d.inst
        | 2 => d.inst < 4 && (p.hdr.lpartMask.testBit (2 * d.inst) || p.hdr.lpartMask.testBit (2 * d.inst + 1))
        | _ => d.inst ≤ 15) 9 (16 * i))),
      bad (g.isEmpty || (fieldAt g 60 4 == crc32c (slice g 0 60) && 64 + 128 * fieldAt g 0 2 + 32 * fieldAt g 4 4 ≤ g.length)) 7 0,
      firstFail (p.groups.map (fun e => bad (fieldAt e.raw 124 4 == crc32c (slice e.raw 0 124) && fieldAt e.raw 64 4 + fieldAt e.raw 68 4 ≤ fieldAt g 4 4)
        7 (64 + 128 * e.index))),
      firstFail (p.bufs.mapIdx (fun i b => bad (p.hdr.cls != 0 || b.kind != 5) 4 (16 * i))),
      firstFail (progs.map (fun e => bad (p.class0Prog e.2) 1 e.1)),
      bad p.firstIssueOk 1 0 ]

/-- The tests of Table 06-9 that read only the image (13 R462): what a staged PLAN_ADMIT runs. -/
def imageTests (r : List Byte) (len : Nat) (m : Mach) (p : Plan) : Option AFail :=
  let c := m.core
  firstFail
    [ badImage r len,
      hdrReserved r,
      need (p.hdr.fwMajor == c.ident.fwMajor.toNat) 0x302 0 6,
      need (p.hdr.profile == c.ident.profile.toNat) 0x303 0 82,
      need (p.hdr.grade == 0xCC || p.hdr.grade == c.ident.grade.toNat) 0x304 0 83,
      need (c.plans.isEmpty || p.hdr.beatUs == c.clk.beatUs.toNat) 0x306 0 88,
      bodyReserved r,
      schedInvalid r m p ]

end Sys2Proof.Machine
end

