-- ==== Sys2Proof/Machine/Admit.lean ====
section
/-!
DEFINITION. Admission (06_beats_and_determinism.md R186, R187; 04 R120): the tests that read the module's state, the binding it chooses, and the slot
tables that admitted plans give (R168, R170, R173).
-/

namespace Sys2Proof.Machine

/-! ### Bindings (04 R120) -/

/-- The injective maps of a list into another. -/
def injections : List Nat → List Nat → List (List (Nat × Nat))
  | [], _ => [[]]
  | x :: xs, as => as.flatMap (fun a => (injections xs (as.erase a)).map (fun l => (x, a) :: l))

/-- Both orders of each of a list of quadrants. -/
def orders : List Nat → List (List Bool)
  | [] => [[]]
  | _ :: xs => (orders xs).flatMap (fun l => [false :: l, true :: l])

/-- The partitions of a tenant's leases that are in service. -/
def Core.partsOf (c : Core) (t : TenantId) : List Nat :=
  (List.range 8).filter (fun p => c.leases.parts.any (fun l => l.1 == p && l.2.1 == t) && !((c.part p).outOfService))

/-- Active units of a code on a die (03 R77, Table 04-5). Beside a plan with canonical tiling, and for one, the highest of twelve active arrays that no plan binds
stays unbound (03 R59); with all twelve bound it is the twelfth, and no canonical plan fits. -/
def Core.activeUnits (c : Core) (p : Plan) (die scode : Nat) : List Nat :=
  if scode = 1 then
    let on := (List.range 13).filter (fun i => (c.part die).mx.arrays.getD i .retired == .active)
    if on.length = 12 && (p.hdr.grade = 0xCC || c.plans.any (fun q => q.hdr.grade == 0xCC && q.physParts.contains die)) then
      let free := on.filter (fun i => !(c.plans.any (fun q => q.binds.any (fun b => lsScode b.lsid == 1 && b.die == die && b.inst == i))))
      on.erase (free.getLastD (on.getLastD 0))
    else on
  else List.range (stationCount 12 scode)

/-- Control cores of a die that are active (R114, R118). -/
def Core.activeCores (c : Core) (die : Nat) : List Nat :=
  let q := (c.part die).cores
  (List.range 4).filter (fun i => !(q.failed.getLsbD i) && !(q.failing.contains i)) ++ (if q.ballastFor.isSome && !(q.failed.getLsbD 4) then [4] else [])

/-- Where a binding puts logical partitions and link dies, as (logical, physical). -/
structure Placing where
  parts : List (Nat × Nat)
  lds : List (Nat × Nat)
deriving DecidableEq, Repr

/-- The placings of a plan's partitions and link dies that R120 allows, whatever they hold. -/
def placings (h : PlanHdr) : List Placing :=
  let lps := onesOf 8 h.lpartMask
  let quads := (lps.map (fun p => p / 2)).eraseDups
  let lds := injections (onesOf 4 h.lldMask) [0, 1, 2, 3]
  (injections quads [0, 1, 2, 3]).flatMap (fun qs =>
    (orders quads).flatMap (fun os =>
      let flip := quads.zip os
      let ps := lps.map (fun p => (p, 2 * ((lookup? (p / 2) qs).getD 0) + (if (lookup? (p / 2) flip).getD false then 1 - p % 2 else p % 2)))
      lds.map (fun l => { parts := ps, lds := l })))

/-- The logical stations of a plan, and its logical control cores. -/
def Plan.stations (p : Plan) : List Lsid := (p.lsids.filter (fun l => lsScode l != 0xF)).eraseDups

/-- The logical control cores that a plan's streams name. -/
def Plan.coresNamed (p : Plan) : List Lsid := (p.lsids.filter (fun l => lsScode l == 0xF)).eraseDups

/-- The slots a station claims. -/
def Plan.ownOf (p : Plan) (l : Lsid) : BitVec 64 := match p.claims.find? (fun c => c.lsid == l) with | some c => c.own | none => 0

/-- The physical die of a logical station under a placing: a compute die, or a link die. -/
def Placing.die (g : Placing) (l : Lsid) : Option Nat := if lsScode l = 6 then lookup? (lsDie l) g.lds else lookup? (lsDie l) g.parts

/-- The OWN slots that admitted class 0 and 1 plans have on a physical station, and those they offer for lending: none on a collective
station (R170). -/
def Core.owned (c : Core) (scode die inst : Nat) : BitVec 64 × BitVec 64 :=
  (c.plans.filter (fun p => p.hdr.cls != 2)).foldl (fun a p =>
    (p.binds.filter (fun b => lsScode b.lsid == scode && b.die == (if scode = 6 then 0x10 + die else die) && b.inst == inst)).foldl (fun a b =>
      match p.claims.find? (fun k => k.lsid == b.lsid) with
      | some k => (a.1 ||| k.own, if scode = 6 then a.2 else a.2 ||| k.lend)
      | none => a) a) (0, 0)

/-- The slots that class-2 plans have borrowed on a physical station. -/
def Core.borrowed (c : Core) (scode die inst : Nat) : BitVec 64 :=
  (c.plans.filter (fun p => p.hdr.cls == 2 && !p.fillStopped)).foldl (fun a p =>
    (p.binds.filter (fun b => lsScode b.lsid == scode && b.die == (if scode = 6 then 0x10 + die else die) && b.inst == inst)).foldl (fun a b => a ||| p.ownOf b.lsid) a) 0

/-- The collective-station slots that a tenant leases. -/
def Core.linkMask (c : Core) (t : TenantId) : BitVec 64 :=
  (c.leases.links.filter (fun l => l.2 == t)).foldl (fun a l => a ||| (1#64 <<< l.1.1)) 0

/-- Whether a claim finds its slots on a physical station: owned by no other plan, or for class 2 lent or vacant and not borrowed (R173). -/
def Core.claimFits (c : Core) (p : Plan) (scode die inst : Nat) (own : BitVec 64) : Bool :=
  let o := c.owned scode die inst
  let leased := scode != 6 || (own &&& ~~~(c.linkMask p.tenant)) == 0
  leased && (if p.hdr.cls = 2 then (own &&& o.1 &&& ~~~o.2) == 0 && (own &&& c.borrowed scode die inst) == 0 else (own &&& o.1) == 0)

/-- Stations given distinct units whose slots fit their claims. -/
def assignUnits (fits : Nat → BitVec 64 → Bool) : List (Lsid × BitVec 64) → List Nat → Option (List (Lsid × Nat))
  | [], _ => some []
  | (l, own) :: rest, us =>
    us.findSome? (fun u => if fits u own then (assignUnits fits rest (us.erase u)).map (fun r => (l, u) :: r) else none)

/-- Whether a placing lies on leased partitions in service with enough active units and control cores, and gives no channel of a die a second plan
(04 R109; notes/assumptions/100). -/
def Core.feasible (c : Core) (p : Plan) (g : Placing) : Bool :=
  let ok := c.partsOf p.tenant
  let sts := p.stations
  g.parts.all (fun e =>
    ok.contains e.2 &&
    [1, 2, 3, 4, 5].all (fun k => (sts.filter (fun l => lsScode l == k && lsDie l == e.1)).length ≤ (c.activeUnits p e.2 k).length) &&
    (p.hdr.grade != 0xCC || c.plans.all (fun q => q.binds.all (fun b =>
      !(lsScode b.lsid == 1 && b.die == e.2) || (c.activeUnits p e.2 1).contains b.inst))) &&
    (let here := (c.plans.flatMap (fun q => q.ctrl.filter (fun x => q.phys (lsDie x.1) == some e.2))).length
     decide ((p.coresNamed.filter (fun l => lsDie l == e.1)).length + here ≤ (c.activeCores e.2).length)) &&
    !(p.streams.any (fun s => s.lpart == e.1 && (c.part e.2).streams.chans.any (fun k => k.1 == s.chan))))

/-- Whether the array starts and stops of a plan keep R70 against those of the plans already on its dies. -/
def Core.spacedOn (m : Mach) (p : Plan) (g : Placing) : Bool :=
  g.parts.all (fun e =>
    let mine := p.edges m e.1
    m.core.plans.all (fun q =>
      match q.lpOf e.2 with
      | none => true
      | some lp => let o := q.edges m lp; apart mine.1 o.1 && apart mine.2 o.2))

/-- The units of every station under a placing, when every claim finds its slots. -/
def Core.bindUnits (c : Core) (p : Plan) (g : Placing) : Option (List Bind) :=
  let sts := p.stations
  let groups := (g.parts.flatMap (fun e => [1, 2, 3, 4, 5].map (fun k => (k, e.1, e.2))))
  let dies := groups.foldl (fun (a : Option (List Bind)) e =>
    a.bind (fun bs =>
      let ls := (sts.filter (fun l => lsScode l == e.1 && lsDie l == e.2.1)).map (fun l => (l, p.ownOf l))
      (assignUnits (fun u own => c.claimFits p e.1 e.2.2 u own) ls (c.activeUnits p e.2.2 e.1)).map (fun r =>
        bs ++ r.map (fun x => { lsid := x.1, die := e.2.2, inst := x.2 })))) (some [])
  dies.bind (fun bs =>
    let cs := (sts.filter (fun l => lsScode l == 6)).filterMap (fun l => (g.die l).map (fun d => (l, d)))
    if cs.all (fun x => c.claimFits p 6 x.2 0 (p.ownOf x.1)) then
      some (bs ++ cs.map (fun x => { lsid := x.1, die := 0x10 + x.2, inst := 0 }))
    else none)

/-- The control cores of a plan under a placing: the lowest active ones of each die that no plan holds (R171). -/
def Core.bindCores (c : Core) (p : Plan) (g : Placing) : List (Lsid × Nat) :=
  g.parts.flatMap (fun e =>
    let used := c.plans.flatMap (fun q => (q.ctrl.filter (fun x => q.phys (lsDie x.1) == some e.2)).map Prod.snd)
    (p.coresNamed.filter (fun l => lsDie l == e.1)).zip ((c.activeCores e.2).filter (fun k => !(used.contains k))))

/-- The descriptor rings of a plan: the n-th ring range of a logical partition serves its n-th station with IND set (notes/assumptions/4). -/
def Plan.ringsOf (p : Plan) : List (Lsid × Nat) :=
  (List.range 8).flatMap (fun lp =>
    let rs := (p.bufs.filter (fun b => b.kind == 2 && b.lpart == lp)).map (fun b => b.off / 512 % 256)
    let ls := ((p.progs.filter (fun q => lsScode q.lsid != 6 && lsDie q.lsid == lp && q.words.any (fun is => is.any (fun i => i.hdr.ind)))).map (fun q => q.lsid)).mergeSort
      (fun a b => decide (a.toNat ≤ b.toNat))
    ls.zip rs)

/-- The lowest plan handle that no admitted plan holds and no staged admission has reserved (R187). -/
def Core.freeHandle (c : Core) : Nat :=
  let used := c.plans.map (fun p => p.handle) ++ c.tens.flatMap (fun t => match t.2.txn with | some x => x.handles | none => [])
  ((List.range (used.length + 1)).find? (fun i => !(used.contains (i + 1)))).getD used.length + 1

/-- The plan bound under a placing. -/
def Core.seatPlan (c : Core) (p : Plan) (g : Placing) (bs : List Bind) : Plan :=
  { p with
    pmap := tabulate 8 (fun l => lookup? l g.parts)
    lmap := tabulate 4 (fun l => lookup? l g.lds)
    binds := bs
    ctrl := c.bindCores p g
    rings := p.ringsOf
    xidBase := (c.freeXids p.xidCount).getD 0
    collBase := (c.freeCollXids p.collCount).getD 0 }

/-! ### Slices (SHAPE_MISMATCH) -/

/-- Whether a plan's header agrees with the slice of its tenant (08 R287, 06 R529, 12 R418). -/
def Core.shapeOk (c : Core) (p : Plan) : Bool :=
  let h := p.hdr
  if h.modCount = 1 && h.sliceKind = 0 then h.logicalModule == 0 || h.logicalModule == 0xFFFF
  else
    match c.sliceFor p with
    | none => false
    | some s =>
      (if h.sliceKind = 1 then s.k == h.sliceK else s.tx == h.tx && s.ty == h.ty && s.tz == h.tz) &&
      (match (List.range s.map.length).find? (fun l => s.map.getD l 0 == c.fab.cfg.own) with
       | some l => h.logicalModule == 0xFFFF || h.logicalModule == l
       | none => false) &&
      (h.sliceKind != 2 || h.tx * h.ty * h.tz ≤ 1 || c.ident.dedicated == some p.tenant)

/-- The logical modules that a plan's transfers name (08 R275). -/
def Plan.modulesNamed (p : Plan) : List Nat :=
  p.progs.flatMap (fun q => q.words.flatMap (fun is => is.flatMap (fun i =>
    match i.f with
    | .xfer f => (if f.mode = 3 then [] else [gaModule f.src.toNat]) ++ [gaModule f.dst.toNat]
    | _ => [])))

/-- Whether a collective group stays inside the slice (09 R296). A block of no meadows leaves none: its 0 is a reserved value, which is tested later. -/
def groupInside (h : PlanHdr) (pos : Nat) (e : GroupEnt) : Bool :=
  let a := fun (i : Nat) => fieldAt e.raw i 1
  let ps := onesOf 64 (fieldAt e.raw 0 8)
  let one := a 16 == 0 && a 17 == 0 && a 18 == 0 && a 19 == 1 && a 20 == 1 && a 21 == 1
  !ps.isEmpty &&
  match h.sliceKind with
  | 2 => a 16 + a 19 ≤ h.tx && a 17 + a 20 ≤ h.ty && a 18 + a 21 ≤ h.tz && ps.all (fun p => p < pos)
  | 1 => one && ps.all (fun p => p < 2 ^ h.sliceK)
  | _ => one && ps.all (fun p => p == 0)

/-- Whether a group gives a rate to every level that it uses (09 R296); RATE_M is that of DISPATCH, COMBINE and SHARD_PERMUTE too (Table 09-1). -/
def Plan.groupRated (p : Plan) (e : GroupEnt) : Bool :=
  let g := grpOf e
  let exch := p.progs.any (fun q => q.words.any (fun is => is.any (fun i =>
    match i.f with | .coll f => f.group.toNat == e.index && inRange i.opc.toNat 0x94 3 | _ => false)))
  ((g.meadow ≤ 1 && !exch) || g.rateM != 0) && (g.gtx ≤ 1 || g.rateX != 0) && (g.gty ≤ 1 || g.rateY != 0) && (g.gtz ≤ 1 || g.rateZ != 0)

/-! ### Memory (MEMORY) -/

/-- The physical Commons granules of a buffer map range under a binding. -/
def Plan.granulesOf (p : Plan) (b : BufRange) : List (Nat × Nat) :=
  match p.phys b.lpart with
  | some q => if b.space = 1 then tabulate (b.units / 2 ^ 18) (fun i => (q, b.off / 2 ^ 24 + i)) else []
  | none => []

/-- Whether a buffer map range lies in the tenant's leases and keeps R182 and R212. -/
def Core.rangeOk (c : Core) (p : Plan) (b : BufRange) : Bool :=
  match p.phys b.lpart with
  | none => false
  | some q =>
    match b.space with
    | 0 =>
      b.kind != 4 && b.kind != 5 && decide (b.off + 64 * b.units ≤ 2 ^ 36) &&
      (b.units == 0 || (List.range ((b.off + 64 * b.units - 1) / 2 ^ 26 + 1 - b.off / 2 ^ 26)).all (fun i => (lookup? (p.tenant, q, b.off / 2 ^ 26 + i) c.leases.hbm).isSome))
    | 1 =>
      (b.kind == 4 || b.kind == 5) && b.off % 2 ^ 24 == 0 && b.units % 2 ^ 18 == 0 &&
      (p.granulesOf b).all (fun g =>
        g.2 < 48 && lookup? g c.leases.granules == some p.tenant &&
        (match lookup? g c.leases.modes with
         | some .scratch => b.kind == 4
         | some .cache => b.kind == 5
         | _ => true))
    | _ => b.kind != 4 && b.kind != 5 && decide (b.off + 64 * b.units ≤ 2 ^ 29)

/-- The hamper bytes of a step of a plan in the stack of logical partition `lp` (10 R348; notes/assumptions/52). -/
def Plan.hamperDemand (p : Plan) (lp : Nat) : Nat :=
  let words := fun (l : List Prog) => l.flatMap (fun q => q.words.flatMap id)
  let here := p.progs.filter (fun q => lsScode q.lsid != 6 && lsDie q.lsid == lp)
  let ext := (p.checks.filter (fun e => e.kind == 3 && e.lpart == lp)).map (fun e => e.units * 64 + 64)
  let inb := (p.demand.filter (fun d => d.kind == 5)).map (fun d => (d.bytes + 64) * p.hdr.stepBeats)
  let ind := ((words here).filter (fun i => i.hdr.ind)).length * 128
  let tok := here.foldl (fun n q => n + (q.words.flatMap id).countP (fun i =>
    i.hdr.wait && p.streams.any (fun s => s.lpart == lp && s.chan == i.hdr.inCh.toNat && lsScode s.producer == 0xF))) 0 * 128
  let first := lp == ((onesOf 8 p.hdr.lpartMask).headD 0)
  let kites := (words (p.progs.filter (fun q => lsScode q.lsid == 6))).length
  sumNat ext + sumNat inb + ind + tok + (if first then (p.hdr.stepBeats + 2) * 128 + kites * 256 else 0)

/-- Whether every stack's hamper holds three times the demand of the plans bound to it (10 R348). -/
def Core.hamperFits (c : Core) (p : Plan) : Bool :=
  (List.range 8).all (fun s =>
    let d := sumNat ((c.plans ++ [p]).map (fun q => match q.lpOf s with | some lp => q.hamperDemand lp | none => 0))
    decide (3 * d ≤ c.ident.hamperExt * 2 ^ 26))

/-- A tenant's level-1 bandwidth lease on a stack, in GB/s (07 R221). -/
def Core.rateOf (c : Core) (t : TenantId) (stack : Nat) : Nat := (lookup? (t, stack) c.leases.bandwidth).getD 0

/-- Whether a plan's demand of each stack stays inside its tenant's bandwidth lease in every slot (07 R221). -/
def Core.bandwidthOk (c : Core) (p : Plan) : Bool :=
  (onesOf 8 p.hdr.lpartMask).all (fun lp =>
    match p.phys lp with
    | none => false
    | some s => (List.range 64).all (fun k => decide (64 * p.asks 3 lp k ≤ c.rateOf p.tenant s * 1000 * p.hdr.beatUs)))

/-- Whether a plan with a gather has a Commons cache granule of its tenant (04 R105). -/
def Core.gatherOk (c : Core) (p : Plan) : Bool :=
  !(p.progs.any (fun q => q.words.any (fun is => is.any (fun i => i.scode == 4 && i.opc == 0x70)))) ||
  p.bufs.any (fun b => b.kind == 5) || c.leases.modes.any (fun e => e.2 == .cache && lookup? e.1 c.leases.granules == some p.tenant)

/-- Whether every range that a station program names lies inside the plan's buffer map, at addresses that Table 07-1 allows (07 R205). -/
def Plan.rangesOk (m : Mach) (p : Plan) (q : Prog) : Bool :=
  q.words.all (fun is => is.all (fun i =>
    (p.specOf m q.lsid i).ranges.all p.granted &&
    match i.f with
    | .xfer f => (f.mode == 3 || gaFieldsOk f.src.toNat) && gaFieldsOk f.dst.toNat
    | .coll f => gaFieldsOk f.src.toNat && gaFieldsOk f.dst.toNat
    | .gather f => gaFieldsOk (f.tspace.toNat * 2 ^ 48 + f.toff.toNat)
    | _ => true))

/-- Whether the addresses of a group and its moves are ones that Table 07-1 allows, its anchor table lies in an anchor table range of the buffer map (09 R309), and
the staging range that its COMBINEs use lies in the map (09 R323). -/
def Plan.groupPlaces (p : Plan) (e : GroupEnt) : Bool :=
  let f := fieldAt e.raw
  let combines := p.progs.any (fun q => q.words.any (fun is => is.any (fun i =>
    match i.f with | .coll g => g.group.toNat == e.index && i.opc == 0x95 | _ => false)))
  let units := ceilDiv (f 44 4) 64
  let (space, lp, u, n) := gaRange (f 36 8) units
  gaFieldsOk (f 36 8) && gaFieldsOk (f 56 8) && e.moves.all (fun k => gaFieldsOk k.src && gaFieldsOk k.dst) &&
  (units == 0 || p.bufs.any (fun b => b.kind == 3 && b.space == space && b.lpart == lp && within u n (b.off / 64) b.units)) &&
  (!combines || p.granted (gaRange (f 56 8) (e.members.length * f 48 2 * f 50 2 * f 52 2)))

/-- The station programs of a logical partition with their program regions, in the image's order (notes/assumptions/56). -/
def Plan.regions (p : Plan) (lp : Nat) : List (Prog × Option BufRange) :=
  let rs := p.bufs.filter (fun b => b.kind == 1 && b.space == 2 && b.lpart == lp)
  (p.progs.filter (fun q => lsScode q.lsid != 6 && lsDie q.lsid == lp)).mapIdx (fun i q => (q, rs[i]?))

/-- The bytes of a station program record (06 R180). -/
def Prog.bytes (p : Prog) : List Byte :=
  let base := 4 + 8 * p.beats.length
  let heads := (p.beats.foldl (fun (a : List Byte × Nat) is => (a.1 ++ bytesLE 4 (base + 32 * a.2) ++ bytesLE 4 is.length, a.2 + is.length)) ([], 0)).1
  bytesLE 2 p.lsid.toNat ++ bytesLE 2 p.beats.length ++ heads ++ p.beats.flatMap (fun is => is.flatMap (fun w => bytesLE 32 w.toNat))

/-- Whether every compute station with a program has a program region that holds it (06 R180; notes/assumptions/56). -/
def Plan.regionsOk (p : Plan) : Bool :=
  (onesOf 8 p.hdr.lpartMask).all (fun lp => (p.regions lp).all (fun e => match e.2 with | some b => e.1.bytes.length ≤ 64 * b.units | none => false))

/-- The tests of MEMORY (Table 06-9), with the section and the entry that fails. -/
def memoryFail (m : Mach) (r : List Byte) (p : Plan) : Option AFail :=
  let c := m.core
  let bad := fun (b : Bool) (s o : Nat) => need b 0x30C s o
  firstFail
    [ firstFail (p.bufs.mapIdx (fun i b => bad (c.rangeOk p b) 4 (16 * i))),
      firstFail (((programs r).getD []).map (fun e => bad (p.rangesOk m e.2) 1 e.1)),
      firstFail (p.groups.map (fun e => bad (p.groupPlaces e) 7 (64 + 128 * e.index))),
      bad p.regionsOk 4 0,
      bad (decide (sumNat (c.plans.map (fun q => q.progBytes)) + p.progBytes ≤ 3 * 2 ^ 29)) 1 0,
      bad (c.bandwidthOk p) 9 0,
      bad (c.hamperFits p) 6 0,
      bad (c.gatherOk p) 4 0 ]

/-! ### Class 0 (R176) and level P (R197) -/

/-- Half of what a resource moves in a slot: station memory, the Commons of a base die, an HBM stack. -/
def halfSlot (h : PlanHdr) (kind : Nat) : Nat :=
  match kind with
  | 1 => 16384 * h.bc / 128
  | 2 => 5000 * h.q * h.beatUs / 128
  | _ => 2048000 * h.beatUs / 128

/-- Half of what a Celoth port is rated for in a beat, each way (08 Table 08-3). -/
def Fabric.halfBeat (q : Fabric) (h : PlanHdr) (i : Nat) : Nat := q.rated i * 1000 * h.beatUs / 2

/-- What class-0 plans ask of a physical resource in a slot. -/
def askedOf (ps : List Plan) (kind inst slot : Nat) : Nat :=
  sumNat (ps.map (fun p =>
    match kind with
    | 2 => sumNat ((List.range 4).map (fun lq =>
        if (match p.phys (2 * lq) with | some q => some q | none => p.phys (2 * lq + 1)).map (fun q => q / 2) == some inst then p.asks 2 lq slot else 0))
    | 4 => p.asks 4 inst slot
    | 5 => p.asks 5 inst slot
    | _ => match p.lpOf inst with | some lp => p.asks kind lp slot | none => 0))

/-- Whether class-0 plans together keep to half of every resource (R176): memories in each slot, Celoth ports over the beat. -/
def class0Limit (c : Core) (p : Plan) : Bool :=
  if p.hdr.cls ≠ 0 then true
  else
    let ps := c.plans.filter (fun q => q.hdr.cls == 0) ++ [p]
    let kinds := [(1, 8), (2, 4), (3, 8)]
    kinds.all (fun k => (List.range k.2).all (fun i => (List.range 64).all (fun s => decide (askedOf ps k.1 i s ≤ halfSlot p.hdr k.1)))) &&
    [4, 5].all (fun k => (List.range 16).all (fun i => decide (sumNat ((List.range 64).map (askedOf ps k i)) ≤ c.fab.halfBeat p.hdr i))) &&
    p.binds.all (fun b =>
      let slots := sumNat (ps.map (fun q => sumNat ((q.binds.filter (fun x => x.die == b.die && x.inst == b.inst && lsScode x.lsid == lsScode b.lsid)).map (fun x =>
        popcount 64 (q.ownOf x.lsid).toNat))))
      decide (slots ≤ 32))

/-- Whether a LEVEL_P plan uses no draw up to the last beat that holds an anchored result (R197). -/
def Plan.drawsOk (p : Plan) : Bool :=
  if !p.hdr.levelP then true
  else
    let bs := (p.checks.filter (fun e => e.kind == 5)).map (fun e => e.beat)
    bs.isEmpty || p.progs.all (fun q => (q.words.take (listMax bs + 1)).all (fun is => is.all (fun i => !i.draws)))

/-! ### Admission (R186) -/

/-- The logical module that a plan's image serves here (08 R287, 06 R529). -/
def Core.lmOf (c : Core) (h : PlanHdr) (t : TenantId) : Nat :=
  if h.sliceKind = 0 then 0
  else
    match c.fab.slices.find? (fun s => s.tenant == t && s.kind == h.sliceKind && s.map.length == h.modCount) with
    | some s => ((List.range s.map.length).find? (fun l => s.map.getD l 0 == c.fab.cfg.own)).getD 0
    | none => 0

/-- A plan image tested in the order of Table 06-9: the first failure, or the plan bound, with handle 0. -/
def admitTest (m : Mach) (t : TenantId) (r : List Byte) (len : Nat) : AFail ⊕ Plan :=
  let c := m.core
  let p := readPlan r t c.fab.cfg.jobPos (c.lmOf (readHdr r) t)
  let gs := placings p.hdr
  let early := firstFail
    [ badImage r len, hdrReserved r,
      need (p.hdr.fwMajor == c.ident.fwMajor.toNat) 0x302 0 6,
      need (p.hdr.profile == c.ident.profile.toNat) 0x303 0 82,
      need (p.hdr.grade == 0xCC || p.hdr.grade == c.ident.grade.toNat) 0x304 0 83 ]
  match early with
  | some f => .inl f
  | none =>
    let ok := gs.filter (c.feasible p)
    let mid := firstFail
      [ need (!ok.isEmpty) 0x305 0 84,
        need (c.plans.isEmpty || p.hdr.beatUs == c.clk.beatUs.toNat) 0x306 0 88,
        need (c.shapeOk p) 0x307 0 72,
        need (p.modulesNamed.all (fun l => l < p.hdr.modCount)) 0x307 1 0,
        firstFail (p.groups.map (fun e => need (groupInside p.hdr c.fab.cfg.jobPos e) 0x307 7 (64 + 128 * e.index))),
        bodyReserved r,
        schedInvalid r m p,
        firstFail (p.groups.map (fun e => need (p.groupRated e) 0x309 7 (64 + 128 * e.index))),
        need ((c.freeXids p.xidCount).isSome && (c.freeCollXids p.collCount).isSome) 0x309 1 0 ]
    match mid with
    | some f => .inl f
    | none =>
      let sp := ok.filter (Core.spacedOn m p)
      match sp.findSome? (fun g => (c.bindUnits p g).map (fun bs => c.seatPlan p g bs)) with
      | none => .inl (if sp.isEmpty then ⟨0x309, 1, 0⟩ else ⟨0x30A, 5, 0⟩)
      | some q =>
        match firstFail [need (class0Limit c q) 0x30B 9 0, memoryFail m r q, need q.drawsOk 0x30D 1 0] with
        | some f => .inl f
        | none => .inr q

/-- The detail bytes of a failed admission (R186). -/
def AFail.detail (f : AFail) : List Byte := details [(6, 2, f.sect), (8, 4, f.off)]

/-- The detail bytes of an admission (R187). -/
def Plan.admitDetail (p : Plan) : List Byte :=
  let pm := (tabulate 8 (fun l => place (p.pmap.getD l none |>.getD 0xF) (4 * l) 4)).foldl (· + ·) 0
  let lm := (tabulate 4 (fun l => place (p.lmap.getD l none |>.getD 0) (2 * l) 2)).foldl (· + ·) 0
  details [(6, 4, pm), (10, 1, lm), (12, 2, p.handle), (14, 2, p.binds.length)]

/-- The binding records (R187). -/
def Plan.bindRecords (p : Plan) : List Byte :=
  p.binds.flatMap (fun b => bytesLE 8 (place b.lsid.toNat 48 16 + place b.die 40 8 + place b.inst 32 8))

/-! ### Slot tables (R168, R170, R173) -/

/-- Whether a plan's slots have taken effect: its launch edge has come (R186). -/
def Core.launched (c : Core) (p : Plan) : Bool :=
  match c.job? p.handle with | some j => j.phase != .launching | none => false

/-- What a station's slot becomes under the launched plans: owner, vacant, lent. -/
def slotOwner (ps : List Plan) (scode die inst s : Nat) : TenantId × Bool × Bool :=
  let has := fun (p : Plan) =>
    p.binds.any (fun b => lsScode b.lsid == scode && b.die == (if scode = 6 then 0x10 + die else die) && b.inst == inst && (p.ownOf b.lsid).getLsbD s)
  match ps.find? (fun p => p.hdr.cls == 2 && has p), ps.find? (fun p => p.hdr.cls != 2 && has p) with
  | some f, l => (f.tenant, false, l.isSome)
  | none, some p => (p.tenant, false, false)
  | none, none => (0, true, false)

/-- The code and instance of a station index of Table 06-4. -/
def stationAt (i : Nat) : Nat × Nat := if i < 13 then (1, i) else if i < 17 then (2, i - 13) else if i < 25 then (3, i - 17) else if i < 27 then (4, i - 25) else (5, i - 27)

/-- One entry of a partition's table. -/
def slotEntry (ps : List Plan) (die s : Nat) : SlotEntry :=
  let os := tabulate 35 (fun i => let x := stationAt i; slotOwner ps x.1 die x.2 s)
  let bits := fun (f : TenantId × Bool × Bool → Bool) => BitVec.ofNat 40 (sumNat (os.mapIdx (fun i o => place (boolNat (f o)) i 1)))
  { owner := os.map (fun o => o.1), vacant := bits (fun o => o.2.1), lent := bits (fun o => o.2.2) }

/-- Every slot table built again from the plans whose launch edge has come (R168); that of a partition in reset stays vacant. -/
def Core.buildSlots (c : Core) : Core :=
  let ps := c.plans.filter (fun p => c.launched p && !p.fillStopped)
  if ps.isEmpty then
    { c with
      parts := c.parts.map (fun q => { q with slots := { q.slots with table := List.replicate 64 {} } })
      csSlots := List.replicate 64 ([0, 0, 0, 0], 0xF) }
  else
    { c with
      parts := c.parts.mapIdx (fun d q =>
        if !q.outOfService && !(c.rst.parts.contains d) && ps.any (fun p => p.physParts.contains d) then { q with slots := { q.slots with table := tabulate 64 (slotEntry ps d) } }
        else { q with slots := { q.slots with table := List.replicate 64 {} } })
      csSlots := tabulate 64 (fun s =>
        let os := tabulate 4 (fun l => slotOwner ps 6 l 0 s)
        (os.map (fun o => o.1), BitVec.ofNat 4 (sumNat (os.mapIdx (fun i o => place (boolNat o.2.1) i 1))))) }

/-- Whether a plan's slots have taken effect or do so at the edge that now passes (R186). -/
def Core.effective (c : Core) (p : Plan) : Bool :=
  c.launched p || (match c.job? p.handle with | some j => j.phase == .launching && decide (j.lc.toNat ≤ c.clk.count.toNat) | none => false)

/-- Whether a class-2 plan has lost a slot (R173): one it was lent whose lender is gone, or one that another plan now owns and does not lend, its launch edge
included. -/
def Core.fillLost (c : Core) (p : Plan) : Bool :=
  p.binds.any (fun b =>
    let code := lsScode b.lsid
    let die := if code = 6 then b.die - 0x10 else b.die
    let o := (c.plans.filter (fun q => q.hdr.cls != 2 && c.effective q)).foldl (fun (a : BitVec 64 × BitVec 64) q =>
      (q.binds.filter (fun x => lsScode x.lsid == code && x.die == b.die && x.inst == b.inst)).foldl (fun a x =>
        match q.claims.find? (fun k => k.lsid == x.lsid) with | some k => (a.1 ||| k.own, if code = 6 then a.2 else a.2 ||| k.lend) | none => a) a) (0, 0)
    (onesOf 64 (p.ownOf b.lsid).toNat).any (fun s =>
      let wasLent := code != 6 && ((c.part die).slots.table.getD s {}).lent.getLsbD (slotIndex code b.inst)
      (wasLent && !(o.1.getLsbD s)) || (o.1.getLsbD s && !(o.2.getLsbD s))))

/-- Class-2 jobs that lost a slot stop (R173): FILL_REVOKED names the edge, and the plan stays admitted. -/
def Core.revokeFills (c : Core) : Core :=
  let lost := c.plans.filter (fun p => p.hdr.cls == 2 && !p.fillStopped && c.launched p && c.fillLost p)
  lost.foldl (fun c p =>
    ((c.modPlan p.handle (fun p => { p with fillStopped := true })).modJob p.handle (fun j => { j with phase := .filled, holds := [], posts := [] })).unsolicited
      p.tenant.toNat 0xF1 (details [(6, 2, p.handle), (8, 8, c.clk.count.toNat)])) c

/-! ### Loading and withdrawal -/

/-- The program regions of a plan on die `d` written (06 R180). -/
def Mach.loadPrograms (p : Plan) (d : Nat) (m : Mach) : Mach :=
  match p.lpOf d with
  | none => m
  | some lp =>
    (p.regions lp).foldl (fun m x =>
      match x.2 with
      | some b => let bs := x.1.bytes; m.putSm d (b.off / 64) (bs ++ List.replicate ((64 - bs.length % 64) % 64) 0) false
      | none => m) m

/-- The channels that a plan's stream graph gives a die, empty (04 R109). -/
def Plan.channels (p : Plan) (d : Nat) : List (Nat × ChanSt) :=
  (p.streams.filter (fun s => p.phys s.lpart == some d)).map (fun s =>
    (s.chan, { depth := BitVec.ofNat 8 s.depth, tokens := [], producer := s.producer, consumer := s.consumer, plan := p.handle }))

/-- A plan that passed loaded (R186): the beat length of the first (R156), its channels (04 R109), the modes of its granules (07 R212), and its image sent to the
mirror partner (10 R367). A first plan that comes before the edge at which the beat is cleared clears it now. -/
def Core.loadPlan (p : Plan) (img : List Byte) (c : Core) : Core :=
  let modes := p.bufs.foldl (fun l b => (p.granulesOf b).foldl (fun l g => insertKey g (if b.kind = 5 then GranMode.cache else .scratch) l) l) c.leases.modes
  let c1 :=
    { c with
      plans := c.plans ++ [p]
      leases := { c.leases with modes := modes }
      parts := c.parts.mapIdx (fun d q => { q with streams := { q.streams with chans := q.streams.chans ++ p.channels d } })
      clk := if c.plans.isEmpty then { c.clk with beatUs := BitVec.ofNat 17 p.hdr.beatUs, lenSet := true, epoch := 0, epochSet := false, clearAtEdge := false } else c.clk }
  if c1.led.alone then c1 else c1.journalSend p.handle 0 img

/-- The cache granule of a tenant that holds a line of its Commons cache: lines go round the tenant's cache granules of the quadrant (notes/assumptions/16). -/
def Core.lineGranule (c : Core) (t : TenantId) (quad line : Nat) : Nat × Nat :=
  let gs := (c.leases.granules.filter (fun e => e.2 == t && e.1.1 / 2 == quad && lookup? e.1 c.leases.modes == some .cache)).map Prod.fst
  gs.getD (line % max gs.length 1) (8, 0)

/-- A plan withdrawn at an edge: its job, channels, descriptors, fences, records, schedules, snapshots in progress and operations go with it (DESIGN CHOICE for the
snapshots, notes/assumptions/118), and the partner's journal loses the image of the same plan (10 R367); a granule that no plan names any more
loses its mode and a cache granule its lines (07 R212), and the beat is cleared at the next edge when it was the last, at once where no
epoch gives an edge (R156). -/
def Core.dropPlan (h : Nat) (c : Core) : Core :=
  match c.plan? h with
  | none => c
  | some p =>
    let rest := c.plans.filter (fun q => !(q.handle == h))
    let mine := p.bufs.flatMap p.granulesOf
    let kept := rest.flatMap (fun q => q.bufs.flatMap q.granulesOf)
    let gone := mine.filter (fun g => !(kept.contains g))
    { c with
      plans := rest
      jobs := c.jobs.filter (fun j => !(j.plan == h))
      leases := { c.leases with
        modes := c.leases.modes.filter (fun e => !(gone.contains e.1))
        granules := c.leases.granules.filter (fun e => !(gone.contains e.1 && (c.part e.1.1).memp.granOut.contains e.1.2)) }
      commonsLines := c.commonsLines.map (fun e => if e.1.1 == p.tenant then (e.1, e.2.filter (fun l => !(gone.contains (c.lineGranule e.1.1 e.1.2 l)))) else e)
      parts := c.parts.mapIdx (fun d q =>
        let rs := p.rings.filterMap (fun r => if (p.bindOf r.1).any (fun b => b.die == d) then some r.2 else none)
        { q with
          streams := { q.streams with
            chans := q.streams.chans.filter (fun e => !(e.2.plan == h)), fences := q.streams.fences.filter (fun e => !(e.2.plan == h)),
            descs := q.streams.descs.filter (fun e => !(rs.contains e.1.1)), ringPos := q.streams.ringPos.filter (fun e => !(rs.contains e.1)) }
          cores := { q.cores with mail := q.cores.mail.filter (fun b => !(b.plan == h)) } })
      fab := { c.fab with
        kite := c.fab.kite.filter (fun o => !(o.plan == h)), kiteQueue := c.fab.kiteQueue.filter (fun o => !(o.plan == h)),
        kiteSeq := c.fab.kiteSeq.filter (fun e => !(e.1.1 == h)), colls := c.fab.colls.filter (fun r => !(r.plan == h)),
        aborted := c.fab.aborted.filter (fun r => !(r.1 == h)), opens := c.fab.opens.filter (fun o => !(o.plan == some h || o.owner == some h)) }
      led := { c.led with
        records := c.led.records.filter (fun r => !(r.plan == h)), journal := c.led.journal.filter (fun e => !(e.digest == p.hdr.digest)), outXfer := c.led.outXfer.filter (fun o => !(o.plan == h && o.stream != 2)) }
      spool := { c.spool with
        slots := c.spool.slots.map (fun o => o.bind (fun s => if s.plan == h then none else some s)), io := c.spool.io.filter (fun x => x.what == .connect || !(x.plan == h))
        manifests := c.spool.manifests.filter (fun r => !(r.plan == h)), jobs := c.spool.jobs.filter (fun j => !(j.plan == h)), restored := c.spool.restored.filter (fun r => !(r.1 == h)) }
      tens := c.tens.map (fun e => (e.1, { e.2 with queues := e.2.queues.map (fun q =>
        if q.2.kind == .rq && q.2.rqPlan == h then (q.1, { q.2 with rqPlan := 0, tags := [] }) else q) }))
      clk := if !rest.isEmpty then c.clk else if c.clk.epochSet then { c.clk with clearAtEdge := true } else { c.clk with beatUs := 0, lenSet := false, epoch := 0 } }

end Sys2Proof.Machine
end

