-- ==== Sys2Proof/Machine/Leases.lean ====
section
/-!
DEFINITION. Leases (13_host_tenants_commands.md R459, R465, R466; 07 R211, R218, R221; 12 R418): what each lease command grants and revokes.
-/

namespace Sys2Proof.Machine

/-- What evaluating a command answers: its status and detail, whether its reply waits for a later event, and the machine after its effect. -/
structure CmdOut where
  status : Nat := 0
  detail : List Byte := []
  wait : Bool := false
  m : Mach

/-- A command refused with a status and no effect (R456). -/
def refuse (status : Nat) (m : Mach) : CmdOut := { status := status, m := m }

/-- How a command is evaluated: the core it is tested against, which includes every command evaluated before it (R462), whether its effect comes at an edge at
once, and the counter value from which a launch takes its margin, none where that was tested before;
`handle` is the one that a staged admission reserved. -/
structure Ev where
  v : Core
  now : Bool
  since : Option Nat
  handle : Nat := 0

/-! ### Uses (R466) -/

/-- The view entries that a plan uses on a partition's stack: its buffers' and its seal map's. -/
def Core.hbmUsed (c : Core) (p : Plan) (part first n : Nat) : Bool :=
  let hit := fun (lp off units : Nat) => p.phys lp == some part && overlaps (off / 2 ^ 26) ((off % 2 ^ 26 + 64 * units + 2 ^ 26 - 1) / 2 ^ 26) first n
  p.bufs.any (fun b => b.space == 0 && decide (0 < b.units) && hit b.lpart b.off b.units) ||
  (match c.job? p.handle with
   | some j => j.sealMap.any (fun e => [e.curOff.toNat, e.nextOff.toNat].any (fun o => hit (field o 36 3) (field o 0 36) (e.extents * 2 ^ 20)))
   | none => false)

/-- The tenant's admitted plans that satisfy a condition. -/
def Core.users (c : Core) (t : TenantId) (f : Plan → Bool) : List Nat := (c.plans.filter (fun p => p.tenant == t && f p)).map (fun p => p.handle)

/-! ### Stopping plans -/

/-- JOB_STOPPED for a plan that a revoke withdraws, and the abort notice that stops a job of several modules everywhere (R466, 12 R420). -/
def Core.stopForced (h : Nat) (c : Core) : Core :=
  match c.plan? h, c.job? h with
  | some p, some j =>
    let c1 := if decide (1 < p.hdr.modCount) then c.emit (.vc7 0xFFFF 4 [h]) else c
    c1.jobStopped j 4
  | some p, none => c.unsolicited p.tenant.toNat 0xF8 (details [(6, 2, h), (8, 1, 4), (9, 5, 0)])
  | _, _ => c

/-- A plan withdrawn by a revoke. -/
def Core.dropForced (h : Nat) (c : Core) : Core := (c.stopForced h).dropPlan h

/-- A revoke (R466): refused while plans use the resource and FORCE is not set; with FORCE the plans are withdrawn at the next edge, at once
while no epoch gives edges, and then the resource is revoked. -/
def revoke (e : Ev) (force : Bool) (users : List Nat) (undo : Mach → Mach) (detail : Core → List Byte) (m : Mach) : CmdOut :=
  if users.isEmpty then let m1 := undo m; { detail := detail m1.core, m := m1 }
  else if !force then refuse 0x202 m
  else if e.now || !m.core.clk.epochSet then
    let m1 := undo (users.foldl (fun m h => m.up (Core.dropForced h)) m)
    { detail := detail m1.core, m := m1 }
  else { wait := true, m := users.foldl (fun m h => m.up (fun c => c.modPlan h (fun p => { p with forced := true }))) m }

/-! ### Clearing (R211, R218) -/

/-- `n` bytes written with zeros and clean check bits, counted as any write is (07 R215, R235). -/
def Mach.clear (k n : Nat) (m : Mach) : Mach :=
  ((m.write (.zero k n)).write (.poison (k / 64) (n / 64) false)).up (Core.wrote k (n / 64))

/-! ### Partitions -/

/-- Partitions a tenant holds, as a mask. -/
def Core.partMask (c : Core) (t : TenantId) : Nat :=
  sumNat ((List.range 8).map (fun p => if c.leases.parts.any (fun l => l.1 == p && l.2.1 == t) then 2 ^ p else 0))

/-- Granules a tenant holds in a partition's half, as a mask. -/
def Core.granMask (c : Core) (t : TenantId) (p : Nat) : Nat :=
  sumNat ((List.range 48).map (fun g => if lookup? (p, g) c.leases.granules == some t then 2 ^ g else 0))

/-- The leases of a core changed. -/
def Core.modLeases (f : Leases → Leases) (c : Core) : Core := { c with leases := f c.leases }

/-- A partition lease of a tenant revoked with every lease that needs it (R466). -/
def Core.dropPart (t : TenantId) (p : Nat) (c : Core) : Core :=
  c.modLeases (fun l =>
    { l with
      parts := l.parts.filter (fun e => !(e.1 == p && e.2.1 == t))
      granules := l.granules.filter (fun e => !(e.1.1 == p && e.2 == t))
      hbm := l.hbm.filter (fun e => !(e.1.1 == t && e.1.2.1 == p))
      bandwidth := l.bandwidth.filter (fun e => !(e.1 == (t, p))) })

/-- A partition lease granted; a lease the tenant has already changes its kind. -/
def Core.grantPart (t : TenantId) (excl : Bool) (p : Nat) (c : Core) : Core :=
  c.modLeases (fun l => { l with parts := l.parts.filter (fun e => !(e.1 == p && e.2.1 == t)) ++ [(p, t, excl)] })

/-- Whether a tenant holds a partition. -/
def Core.holds (c : Core) (t : TenantId) (p : Nat) : Bool := c.leases.parts.any (fun l => l.1 == p && l.2.1 == t)

/-- LEASE_PARTITION (Table 13-9, R418); a partition out of service is leased to no tenant (12 Table 12-8). -/
def leasePartition (e : Ev) (t : TenantId) (mask op : Nat) (m : Mach) : CmdOut :=
  let v := e.v
  let ps := onesOf 8 mask
  let detail := fun (c : Core) => details [(8, 1, c.partMask t)]
  let clash := match v.ident.dedicated with
    | none => false
    | some d => ps.any (fun p => v.holds d p && (t != d || 2 ≤ op))
  if clash then refuse 0x104 m
  else if op ≤ 1 && ps.any (fun p => (v.part p).outOfService) then refuse 0x201 m
  else if v.ident.dedicated == some t && op ≤ 1 then
    let m1 := (ps.filter (fun p => !(v.holds t p))).foldl (fun m p => m.up (Core.grantPart t (op == 1) p)) m
    { detail := detail m1.core, m := m1 }
  else if op ≤ 1 then
    let bad := ps.any (fun p => v.leases.parts.any (fun l => l.1 == p && l.2.1 != t && (op == 1 || l.2.2)))
    if bad then refuse 0x201 m
    else
      let m1 := ps.foldl (fun m p => m.up (Core.grantPart t (op == 1) p)) m
      { detail := detail m1.core, m := m1 }
  else
    let us := v.users t (fun p => p.physParts.any ps.contains)
    revoke e (op == 3) us (fun m => ps.foldl (fun m p => m.up (Core.dropPart t p)) m) detail m

/-! ### Granules -/

/-- LEASE_GRANULES (R211, Table 13-9). -/
def leaseGranules (e : Ev) (t : TenantId) (p op mask : Nat) (m : Mach) : CmdOut :=
  let v := e.v
  let gs := onesOf 48 mask
  let detail := fun (c : Core) => details [(16, 6, c.granMask t p)]
  if op = 0 then
    let mine := fun (g : Nat) => lookup? (p, g) v.leases.granules == some t
    let bad := gs.any (fun g => !(mine g) && ((lookup? (p, g) v.leases.granules).isSome || (v.part p).memp.granOut.contains g))
    if !(v.holds t p) || bad then refuse 0x201 m
    else
      let m1 := (gs.filter (fun g => !(mine g))).foldl (fun m g =>
        (m.clear (cmKey p g 0) (2 ^ 24)).up (Core.modLeases (fun l => { l with granules := l.granules ++ [((p, g), t)] }))) m
      { detail := detail m1.core, m := m1 }
  else
    let us := v.users t (fun q => q.bufs.any (fun b => (q.granulesOf b).any (fun x => x.1 == p && gs.contains x.2)))
    revoke e (op == 3) us (fun m => m.up (Core.modLeases (fun l =>
      { l with granules := l.granules.filter (fun x => !(x.1.1 == p && gs.contains x.1.2 && x.2 == t)) }))) detail m

/-! ### HBM -/

/-- Leasable extents of each stack (07 R216, R217). -/
def Ident.leasable (i : Ident) : Nat := 988 - i.hamperExt - i.mirrorExt - i.snapExt

/-- The lowest-numbered physical extents of a stack that no tenant holds (07 R218). -/
def Core.freeExtents (c : Core) (p : Nat) : List Nat :=
  let used := c.leases.hbm.map (fun e => e.2)
  (List.range c.ident.leasable).filter (fun x => !(used.contains (p * 1024 + x)))

/-- LEASE_HBM (07 R218, Table 13-9). -/
def leaseHbm (e : Ev) (t : TenantId) (p op first n : Nat) (m : Mach) : CmdOut :=
  let v := e.v
  if op = 0 then
    let free := (v.freeExtents p).take n
    let taken := (List.range n).any (fun i => (lookup? (t, p, first + i) v.leases.hbm).isSome)
    if !(v.holds t p) || free.length < n || taken || 992 < first + n then refuse 0x201 m
    else
      { m := (free.zip (List.range n)).foldl (fun m x =>
          (m.clear (hbmKey p (x.1 * 2 ^ 26)) (2 ^ 26)).up (Core.modLeases (fun l => { l with hbm := l.hbm ++ [((t, p, first + x.2), p * 1024 + x.1)] }))) m }
  else
    revoke e (op == 3) (v.users t (fun q => v.hbmUsed q p first n))
      (fun m => m.up (Core.modLeases (fun l => { l with hbm := l.hbm.filter (fun x => !(x.1.1 == t && x.1.2.1 == p && inRange x.1.2.2 first n)) })))
      (fun _ => []) m

/-! ### Bandwidth and collective-station slots -/

/-- LEASE_BANDWIDTH (07 R221, Table 13-9). -/
def leaseBandwidth (e : Ev) (t : TenantId) (p op rate : Nat) (m : Mach) : CmdOut :=
  let v := e.v
  let others := sumNat ((v.leases.bandwidth.filter (fun x => x.1.2 == p && x.1.1 != t)).map Prod.snd)
  if !(v.holds t p) || 1638 < others + rate then refuse 0x201 m
  else
    let us := v.users t (fun q => match q.lpOf p with
      | some lp => (List.range 64).any (fun k => decide (rate * 1000 * q.hdr.beatUs < 64 * q.asks 3 lp k))
      | none => false)
    revoke e (op == 3) us (fun m => m.up (Core.modLeases (fun l => { l with bandwidth := insertKey (t, p) rate l.bandwidth }))) (fun _ => []) m

/-- LEASE_LINK (R418, Table 13-9). -/
def leaseLink (e : Ev) (t : TenantId) (op mask : Nat) (m : Mach) : CmdOut :=
  let v := e.v
  let ss := onesOf 64 mask
  let detail := fun (c : Core) => details [(16, 8, (c.linkMask t).toNat)]
  let holder := fun (s : Nat) => lookup? (s, 0) v.leases.links
  let clash := match v.ident.dedicated with
    | none => false
    | some d => ss.any (fun s => holder s == some d && (t != d || 2 ≤ op))
  if clash then refuse 0x104 m
  else if op = 0 then
    if ss.any (fun s => (holder s).isSome && holder s != some t) then refuse 0x201 m
    else
      let m1 := (ss.filter (fun s => (holder s).isNone)).foldl (fun m s => m.up (Core.modLeases (fun l => { l with links := l.links ++ [((s, 0), t)] }))) m
      { detail := detail m1.core, m := m1 }
  else
    let us := v.users t (fun q => q.binds.any (fun b => lsScode b.lsid == 6 && (onesOf 64 (q.ownOf b.lsid).toNat).any ss.contains))
    revoke e (op == 3) us (fun m => m.up (Core.modLeases (fun l => { l with links := l.links.filter (fun x => !(ss.contains x.1.1 && x.2 == t)) }))) detail m

/-- Every lease of a tenant revoked (TENANT_DISABLE, R459). -/
def Core.dropLeases (t : TenantId) (c : Core) : Core :=
  c.modLeases (fun l =>
    { l with
      parts := l.parts.filter (fun x => x.2.1 != t), granules := l.granules.filter (fun x => x.2 != t), hbm := l.hbm.filter (fun x => x.1.1 != t),
      bandwidth := l.bandwidth.filter (fun x => x.1.1 != t), links := l.links.filter (fun x => x.2 != t) })

end Sys2Proof.Machine
end

