-- ==== Sys2Proof/Machine/CkptCmd.lean ====
section
/-!
DEFINITION. The checkpoint commands (11_checkpoints.md R381 to R384, R392, R395, R398 to R406, Tables 11-9 and 11-10). The places of the parameters that Table
11-9 does not give, and the layout of the restore buffer, are the model's (notes/assumptions/53).
-/

namespace Sys2Proof.Machine

/-! ### Seal maps (10 R340) -/

/-- A seal map read: its entries, when its header, its CRCs and its reserved bytes are right. -/
def readSealMap (b : List Byte) : Option (List SealEnt) :=
  let n := fieldAt b 0 2
  let es := tabulate n (fun i => slice b (64 + 32 * i) 32)
  if inRange n 1 64 && b.length == 64 + 32 * n && fieldAt b 60 4 == crc32c (slice b 0 60) && zeroAt b 2 58 &&
     es.all (fun e => fieldAt e 28 4 == crc32c (slice e 0 28) && zeroAt e 21 7 && fieldAt e 20 1 ≤ 4 && decide (1 ≤ fieldAt e 16 4)) then
    some (es.map (fun e => { cls := fieldAt e 20 1, extents := fieldAt e 16 4, nextOff := BitVec.ofNat 64 (fieldAt e 8 8), curOff := BitVec.ofNat 64 (fieldAt e 0 8) }))
  else none

/-- The ranges an instruction of a plan writes at addresses of its own through transfer and collective stations, the ones that reach HBM. -/
def StnWord.farWrites (p : Plan) (i : StnWord) : List (Nat × Nat × Nat × Nat) :=
  if i.hdr.ind then []
  else
    match i.f with
    | .xfer f => if gaModule f.dst.toNat = p.hdr.logicalModule then [gaRange f.dst.toNat f.len.toNat] else []
    | .coll f =>
      (match p.groups.find? (fun g => g.index == f.group.toNat) with
       | some g =>
         if i.opc = 0x96 then (g.moves.filter (fun k => some k.dstRank == g.rank)).map (fun k => gaRange k.dst k.units)
         else [gaRange f.dst.toNat (collUnits i.opc.toNat f (grpOf g)).2]
       | none => [])
    | _ => []

/-- Whether no station instruction of a plan writes a CUR range (R342); the seal map comes with the launch, so the launch fails (notes/assumptions/80). -/
def sparesCur (p : Plan) (es : List SealEnt) : Bool :=
  let j := mkJob p 0 0 0 p.hdr.logicalModule es
  p.progs.all (fun q => q.words.all (fun is => is.all (fun i => (i.farWrites p).all (fun r => !(j.inCur r)))))

/-- Whether the anchor tables of the groups that carry anchors lie inside NEXT ranges (R340). -/
def anchorsIn (p : Plan) (es : List SealEnt) : Bool :=
  p.progs.all (fun q => q.words.all (fun is => is.all (fun i =>
    match i.f with
    | .coll f =>
      !f.anch || (match p.groups.find? (fun g => g.index == f.group.toNat) with
        | some g =>
          let o := (grpOf g).anchorOff
          let n := 64 * ceilDiv (fieldAt g.raw 44 4) 64
          es.any (fun e => decide (e.nextOff.toNat ≤ o) && decide (o + n ≤ e.nextOff.toNat + e.extents * 2 ^ 26))
        | none => true)
    | _ => true)))

/-- Whether a seal map's ranges are whole extents of the tenant's view that do not overlap, hold the plan's anchor tables (R340), leave CUR unwritten
(R342), and fit one slot of the partner's mirror region (R365). -/
def Core.sealMapOk (c : Core) (p : Plan) (es : List SealEnt) : Bool :=
  let rs := es.flatMap (fun e => [(e.curOff.toNat, e.extents), (e.nextOff.toNat, e.extents)])
  rs.all (fun r => r.1 % 2 ^ 26 == 0 && decide (r.1 < 2 ^ 39) && decide (field r.1 0 36 + r.2 * 2 ^ 26 ≤ 2 ^ 36) && (c.extKeys p r.1 r.2).all Option.isSome) &&
  (rs.mapIdx (fun i r => (rs.drop (i + 1)).all (fun q => !(overlaps r.1 (r.2 * 2 ^ 26) q.1 (q.2 * 2 ^ 26))))).all id && anchorsIn p es && sparesCur p es &&
  (c.led.alone || decide (sumNat (es.map (fun e => e.extents * 2 ^ 26)) ≤ c.shardSlot))

/-! ### Targets and keys (R392, R404) -/

/-- Whether a target descriptor is well formed. -/
def targetOk (b : List Byte) : Bool :=
  b.length == 512 && fieldAt b 508 4 == crc32c (slice b 0 508) && inRange (fieldAt b 18 1) 1 3 && zeroAt b 19 1 && zeroAt b 24 8 && zeroAt b 256 252 &&
  (slice b 32 224).contains 0

/-- CKPT_TARGET_SET: a target removed, or set and connected to; the reply waits for the connection (R392, R393). -/
def ckptTargetSet (a : Accepted) (data : List Byte) (m : Mach) : CmdOut :=
  let t := a.target
  let i := a.par 8 1
  if a.par 16 8 = 0 then { m := m.up (Core.modSpool (fun q => { q with targets := eraseKey (t, i) q.targets, io := q.io.filter (fun x => !(x.tenant == t && x.target == i)) })) }
  else if !(targetOk data) then refuse 0x502 m
  else { wait := true, m := m.up (fun c => (c.modSpool (fun q => { q with targets := insertKey (t, i) { desc := data, waiting := some a } q.targets })).connect t i) }

/-- CKPT_KEY_SET: 32 zero bytes unset the key (R404). -/
def ckptKeySet (a : Accepted) (m : Mach) : CmdOut :=
  let key := slice a.packet 8 32
  let k := (a.target, a.par 40 1)
  { m := m.up (Core.modSpool (fun q => { q with keys := if key.all (fun b => b == 0) then eraseKey k q.keys else insertKey k key q.keys })) }

/-! ### Snapshots -/

/-- Whether a schedule block's SCRC passes and it holds no reserved value (Table 11-1). -/
def scheduleOk (b : List Byte) : Bool :=
  b.length == 256 && fieldAt b 252 4 == crc32c (slice b 0 252) && zeroAt b 192 60 && zeroAt b 40 24 && zeroAt b 14 2 && inRange (fieldAt b 12 2) 1 3600 &&
  fieldAt b 11 1 ≤ 3 && fieldAt b 10 1 ≤ 7 && inRange (fieldAt b 9 1) 1 8 && inRange (fieldAt b 8 1) 2 15 && fieldAt b 5 1 ≤ 1 && inRange (fieldAt b 4 1) 1 2 &&
  !((slice b 128 64).contains 0xFF)

/-- The plan and job that a checkpoint command names, when they are the tenant's. -/
def Core.jobOf (c : Core) (t : TenantId) (h : Nat) : Option (Plan × Job) :=
  match c.plan? h, c.job? h with
  | some p, some j => if p.tenant == t then some (p, j) else none
  | _, _ => none

/-- Whether a restore runs for a plan (R405). -/
def Core.restoring (c : Core) (h : Nat) : Bool := c.spool.restores.any (fun r => r.plan == h)

/-- SNAP_SCHEDULE (R381, R383). -/
def snapSchedule (e : Ev) (a : Accepted) (b : List Byte) (m : Mach) : CmdOut :=
  let h := a.par 8 2
  match e.v.jobOf a.target h with
  | none => refuse 0x506 m
  | some (_, j) =>
    let size := storedBytes (snapKind b) j.sealMap
    if !(scheduleOk b) then refuse 0x2 m
    else if (List.range (snapTcount b)).any (fun i => !((e.v.targetOf a.target i).connected)) || !((e.v.targetOf a.target (snapManTarget b)).connected) then refuse 0x502 m
    else if e.v.isWriter h b && (lookup? (a.target, fieldAt b 11 1) e.v.spool.keys).isNone then refuse 0x503 m
    else if e.v.slotBytes < size then refuse 0x504 m
    else if snapAreaLbas b * 4096 < size then refuse 0x505 m
    else if e.v.restoring h then refuse 0x50D m
    else
      { m := m.up (fun c =>
          match c.snapJob? h with
          | some _ => (c.modSnap h (fun s => { s with next := some b })).modSpool (fun q => { q with lastTenant := a.target })
          | none => c.modSpool (fun q =>
              { q with jobs := q.jobs ++ [{ plan := h, block := b, seq := BitVec.ofNat 32 (fieldAt b 36 4) }], lastTenant := a.target })) }

/-- The first step of a job that seals at least 100 ms from now (R384). -/
def Core.stepAfter (c : Core) (p : Plan) (j : Job) : StepNo :=
  let len := max (c.clk.beatUs.toNat * 1000) 1
  let ends := j.edge.toNat + (p.hdr.stepBeats - j.beat) * len
  j.step + BitVec.ofNat 40 (ceilDiv (c.clk.count.toNat + 100000000 - ends) (p.hdr.stepBeats * len))

/-- SNAP_NOW (R384): the manifest writer names the step to every module. -/
def snapNow (a : Accepted) (m : Mach) : CmdOut :=
  let c := m.core
  let h := a.par 8 2
  match c.jobOf a.target h, c.snapJob? h with
  | some (p, j), some s =>
    if !(c.isWriter h s.block) then refuse 0x506 m
    else if c.restoring h then refuse 0x50D m
    else
      let n := c.stepAfter p j
      { m := m.up (fun c => (c.emit (.vc7 0xFFFF 13 [h, n.toNat])).modSnap h (fun s => { s with nowStep := some n })) }
  | _, _ => refuse 0x506 m

/-- SPOOL_RATE (R395). -/
def spoolRate (a : Accepted) (m : Mach) : CmdOut := { m := m.up (Core.modSpool (fun q => { q with rate := a.par 8 1 })) }

/-- SNAP_ABANDON (R405): a snapshot whose manifest write has begun is completed instead. -/
def snapAbandon (a : Accepted) (m : Mach) : CmdOut :=
  let c := m.core
  let h := a.par 8 2
  let n := BitVec.ofNat 32 (a.par 12 4)
  match c.jobOf a.target h, c.snapJob? h, c.slotOf h n with
  | some _, some s, some (_, sl) =>
    if !(c.isWriter h s.block) then refuse 0x506 m
    else if c.spool.manifests.any (fun r => r.plan == h && r.seq == n && r.writing.isSome) then refuse 0x50D m
    else { m := m.up (Core.snapFailAll h sl.step n 7) }
  | _, _, _ => refuse 0x506 m

/-- The code of a slot's state: 0 free, 1 copying, 2 draining, 3 flushed, 4 failed. -/
def slotState (o : Option SnapSlot) : Nat :=
  match o with
  | none => 0
  | some s => match s.phase with | .copying => 1 | .draining => 2 | .flushed => 3 | .failed => 4

/-- SNAP_QUERY (Table 11-9). -/
def snapQuery (a : Accepted) (m : Mach) : CmdOut :=
  let c := m.core
  let h := a.par 8 2
  match c.plan? h with
  | some p =>
    if p.tenant != a.target then refuse 0x506 m
    else
      let l := ((c.snapJob? h).bind (fun s => s.last)).getD (0, 0)
      { m := m, detail := details [(6, 4, l.1.toNat), (10, 5, l.2.toNat), (15, 1, slotState (c.spool.slots.getD 0 none)), (16, 1, slotState (c.spool.slots.getD 1 none))] }
  | none => refuse 0x506 m

/-! ### RESTORE (R398 to R403, R406) -/

/-- Whether a manifest is valid under a key (R398). -/
def manifestValid (b key : List Byte) (keyId : Nat) : Bool :=
  let n := fieldAt b (b.length - 64) 4
  decide (320 ≤ b.length) && fieldAt b 0 4 == 0x4E414D53 && fieldAt b 4 2 == 1 && n == b.length && fieldAt b (n - 60) 1 == keyId &&
  slice b (n - 56) 32 == hmac key (b.take (n - 56))

/-- The shard entries of a manifest. -/
def manifestShards (b : List Byte) : List (List Byte) := tabulate (fieldAt b 52 4) (fun i => slice b (256 + 128 * i) 128)

/-- The slice that a manifest's header describes, in a plan header (Table 11-3). -/
def manifestHdr (b : List Byte) (h : PlanHdr) : PlanHdr :=
  let at1 := fun (i : Nat) => fieldAt b (80 + i) 1
  { h with modCount := fieldAt b 46 2, sliceKind := at1 0, sliceK := at1 1, tx := at1 2, ty := at1 3, tz := at1 4 }

/-- Whether a shard belongs to a logical module (R400); `pos` is the number of job positions of a meadow. -/
def shardFor (h : PlanHdr) (pos lm : Nat) (s : List Byte) : Bool :=
  if fieldAt s 10 1 = 0xFE then fieldAt s 8 2 == lm
  else (groupMembers h pos (slice s 32 8 ++ List.replicate 8 0 ++ slice s 40 6)).contains lm

/-- The digest of piece `i` of a shard. -/
def pieceDigest (b s : List Byte) (i : Nat) : List Byte :=
  slice b (256 + 128 * fieldAt b 52 4 + 32 * fieldAt b 56 4 + 32 * (fieldAt s 28 4 + i)) 32

/-- BF16 bytes widened to FP32 (02 R39). -/
def widenBytes (bs : List Byte) : List Byte := (chunks 2 bs).flatMap (fun w => [0, 0] ++ padTo 2 w)

/-- Bytes written from an HBM global offset of a plan on, counted and dropped from the Commons caches as any write is (07 R215, R235). -/
def Mach.putAt (p : Plan) (off : Nat) (bs : List Byte) (m : Mach) : Mach :=
  (chunks (2 ^ 26) bs).mapIdx (fun i b => (i, b)) |>.foldl (fun m e =>
    match (m.core.extKeys p (off + e.1 * 2 ^ 26) 1).headD none with
    | some k => m.store k e.2
    | none => m) m

/-- The shard of a seal-map entry for a logical module. -/
def entryShard (b : List Byte) (h : PlanHdr) (pos lm e : Nat) : Option (List Byte) :=
  (manifestShards b).find? (fun s => fieldAt s 11 1 == e && shardFor h pos lm s)

/-- The load map's entries (R402): old module, entry, first piece, pieces, destination. -/
def loadMap (b : List Byte) : List (Nat × Nat × Nat × Nat × Nat) :=
  (chunks 32 b).map (fun e => (fieldAt e 0 2, fieldAt e 2 1, fieldAt e 4 4, fieldAt e 8 4, fieldAt e 16 8))

/-- LBAs that a restore has read: the manifest and the pieces (R409). -/
def restoreLbas (b : List Byte) (ps : List (List (List Byte))) : Nat :=
  ceilDiv b.length 4096 + sumNat (ps.map (fun x => sumNat (x.map (fun d => ceilDiv d.length 4096))))

/-- RESTORE (R399 to R403): `man` is the manifest read from the target, none when the read failed, and `reads` the pieces read for each seal-map entry, or for
each load-map entry with RESHAPE, none when a read failed. The reply waits until the mirror partner holds the restored state. -/
def restore (a : Accepted) (buf : List Byte) (man : Option (List Byte)) (reads : Option (List (List (List Byte)))) (m : Mach) : CmdOut :=
  let c := m.core
  let h := a.par 8 2
  match c.plan? h with
  | none => refuse 0x506 m
  | some p =>
    let t := a.target
    let tgt := fieldAt buf 0 1
    let keyId := fieldAt buf 20 1
    let exportOk := bitOf (fieldAt buf 21 1) 0
    let reshape := bitOf (fieldAt buf 21 1) 1
    let n := fieldAt buf 64 2
    let sealBytes := slice buf 64 (64 + 32 * n)
    let loads := loadMap (buf.drop (128 + 32 * n))
    let ready := match c.job? h with | none => true | some j => j.phase == .stoppedLimit || j.phase == .stoppedFallback
    let lm := c.lmOf p.hdr t
    if p.tenant != t || !ready then refuse 0x506 m
    else if (lookup? (t, tgt) c.spool.targets).isNone then refuse 0x502 m
    else if !((c.targetOf t tgt).connected) then refuse 0x501 m
    else
      match lookup? (t, keyId) c.spool.keys, readSealMap sealBytes, man with
      | none, _, _ => refuse 0x503 m
      | some _, none, _ => refuse 0x508 m
      | some _, some _, none => refuse 0x50A m
      | some key, some es, some b =>
        let kind := fieldAt b 45 1
        let hdr := manifestHdr b p.hdr
        let g := (if c.fab.cfg.celoth1 then 32 else 64) - fieldAt b 85 1
        let old := fun (l : Nat × Nat × Nat × Nat × Nat) => entryShard b hdr g l.1 l.2.1
        let shards := tabulate es.length (fun i => (i, entryShard b hdr g lm i))
        let fits := if reshape then
            loads.all (fun l => (old l).any (fun s => decide (l.2.2.1 + l.2.2.2.1 ≤ fieldAt s 18 4)))
          else
            fieldAt b 46 2 == p.hdr.modCount && slice b 80 16 == c.sliceBytes p &&
            shards.all (fun x => match x.2, es[x.1]? with
              | some s, some e => fieldAt s 12 1 == e.cls && fieldAt s 14 4 == e.extents
              | _, _ => false)
        if !(manifestValid b key keyId) then refuse 0x507 m
        else if kind = 2 && !exportOk then refuse 0x50C m
        else if !fits || !(c.sealMapOk p es) then refuse 0x508 m
        else
          match reads with
          | none => refuse 0x50A m
          | some ps =>
            let names : List (Option (List Byte) × Nat × Nat × Bool) :=
              if reshape then loads.map (fun l =>
                (old l, l.2.2.1, l.2.2.2.2, false))
              else shards.map (fun x => (x.2, 0, (match es[x.1]? with | some e => e.curOff.toNat | none => 0), (match es[x.1]? with | some e => kind == 2 && e.cls == 0 | none => false)))
            let good := (names.zip ps).all (fun x =>
              match x.1.1 with
              | none => false
              | some s =>
                (x.2.mapIdx (fun i d => sha256 d == pieceDigest b s (x.1.2.1 + i))).all id &&
                (reshape || (x.2.length == fieldAt s 18 4 && slice s 48 32 == sha256 (x.2.flatMap sha256)))) && ps.length == names.length
            if !good then refuse 0x509 m
            else if c.restoring h then refuse 0x50D m
            else
              let step := BitVec.ofNat 40 (fieldAt b 24 5)
              let m1 := (names.zip ps).foldl (fun m x =>
                let data := x.2.flatten
                m.putAt p x.1.2.2.1 (if x.1.2.2.2 then widenBytes data else data)) m
              let m2 := (m1.up (Core.countLbas (restoreLbas b ps))).up (Core.modSpool (fun q =>
                { q with restored := q.restored.filter (fun r => !(r.1 == h)) ++ [(h, sealBytes, if reshape then none else some step)] }))
              if reshape || m2.core.led.alone then
                { m := if reshape then m2 else m2.up (fun c => c.modJob h (fun j => { j with sealMap := es, lastSealed := step, sealedValid := true, mirrored := true })) }
              else
                let j : Job := { mkJob p 0 (step + 1) 0 lm es with step := step + 1, lastSealed := step, sealedValid := true }
                { wait := true,
                  m := (m2.up (Core.modSpool (fun q => { q with restores := q.restores ++ [{ plan := h, step := step, reply := a }] }))).mirrorStep p j step }

end Sys2Proof.Machine
end

