-- ==== Sys2Proof/Machine/HostCmd.lean ====
section
/-!
DEFINITION. Command packets tested and evaluated (13_host_tenants_commands.md R454 to R466): the tests of Table 13-5, plan and job commands, slices,
transactions, and the common course of every command.
-/

namespace Sys2Proof.Machine

/-! ### Tests 1 to 3 (R456) -/

/-- Whether Table 13-8 lists an opcode. -/
def opListed (op : Nat) : Bool :=
  inRange op 0x101 8 || inRange op 0x201 7 || inRange op 0x210 2 || inRange op 0x301 4 || inRange op 0x308 2 || inRange op 0x401 4 || inRange op 0x501 8 ||
  inRange op 0x601 3 || inRange op 0x701 4

/-- Whether only tenant 0 may issue an opcode. -/
def opAdmin (op : Nat) : Bool := inRange op 0x102 7 || inRange op 0x201 7 || inRange op 0x401 4 || inRange op 0x601 3

/-- Whether an opcode may be staged. -/
def opStageable (op : Nat) : Bool := inRange op 0x203 5 || inRange op 0x301 3 || op == 0x402 || op == 0x403 || op == 0x503

/-- The parameter bytes that an opcode names, as (offset, bytes) (Table 13-9, Table 11-9, 15 R505, 14 R488, Table 12-12). -/
def opParams (op : Nat) : List (Nat × Nat) :=
  match op with
  | 0x102 => [(8, 1)] | 0x103 => [(8, 2)] | 0x104 => [(8, 6)] | 0x105 => [(8, 12)] | 0x106 => [(8, 1)] | 0x107 => [(8, 3), (12, 4)] | 0x108 => [(8, 3)]
  | 0x203 => [(8, 2)] | 0x204 => [(8, 2), (16, 6)] | 0x205 => [(8, 6)] | 0x206 => [(8, 4)] | 0x207 => [(9, 1), (16, 8)]
  | 0x210 => [(8, 9), (18, 2), (24, 16)] | 0x211 => [(8, 2)]
  | 0x301 => [(8, 12), (24, 12)] | 0x302 => [(8, 3), (16, 5)] | 0x303 => [(8, 2), (12, 36)] | 0x304 => [(8, 2)] | 0x308 | 0x309 => [(8, 20)]
  | 0x401 => [(8, 9)] | 0x402 => [(8, 10), (20, 4)] | 0x403 => [(8, 1)] | 0x404 => [(8, 2)]
  | 0x501 => [(8, 1), (16, 8)] | 0x502 => [(8, 33)] | 0x503 => [(8, 2), (16, 8)] | 0x504 => [(8, 2)] | 0x505 => [(8, 1)] | 0x506 => [(8, 2), (12, 4)]
  | 0x507 => [(8, 2), (16, 8)] | 0x508 => [(8, 2)]
  | 0x601 => [(8, 13)] | 0x602 => [(8, 4)]
  | 0x701 => [(8, 2)] | 0x702 => [(8, 8)]
  | _ => []

/-- The highest power cap of a profile in W (01 R19). -/
def ceilingW (profile : BitVec 8) : Nat := if profile == 1 then 1500 else if profile == 2 then 1250 else 1000

/-- Whether Table 12-3 lists a DIE code. -/
def dieCode (d : Nat) : Bool := d ≤ 0x0B || inRange d 0x10 4 || inRange d 0x20 2 || inRange d 0x28 2 || inRange d 0x30 8 || d == 0xFF

/-- Whether Table 12-3 lists a BLOCK code. -/
def blockCode (b : Nat) : Bool := b ≤ 6 || inRange b 8 0x10

/-- Whether a packet's named parameters hold no reserved value (R9), and its host addresses are aligned (R457). -/
def paramsDefined (profile : BitVec 8) (a : Accepted) : Bool :=
  let p := a.par
  match a.opcode with
  | 0x102 => inRange (p 8 1) 1 3
  | 0x103 => p 8 1 ≤ 1 && (p 8 1 == 0 || p 9 1 != 0)
  | 0x105 | 0x401 => p 8 8 % 64 == 0
  | 0x106 => p 8 1 ≤ 1
  | 0x107 =>
    let cap := p 8 2
    (cap == 0 || (300 ≤ cap && cap ≤ ceilingW profile)) && p 10 1 ≤ 1 && 100 ≤ p 12 4 && p 12 4 ≤ 50000 && (p 10 1 == 0 || cap == 0 || cap == ceilingW profile)
  | 0x108 =>
    p 8 1 ≤ 3 && p 10 1 ≤ 1 && (p 10 1 == 0 || p 8 1 == 1) && (match p 8 1 with | 1 => p 9 1 ≤ 7 | 2 => p 9 1 ≤ 0x11 | _ => p 9 1 == 0)
  | 0x201 | 0x202 => a.target != 0
  | 0x203 => p 9 1 ≤ 3
  | 0x204 | 0x205 => p 8 1 ≤ 7 && (p 9 1 == 0 || p 9 1 == 2 || p 9 1 == 3)
  | 0x206 => p 8 1 ≤ 7 && (p 9 1 == 0 || p 9 1 == 3)
  | 0x207 => p 9 1 == 0 || p 9 1 == 2 || p 9 1 == 3
  | 0x210 => (p 14 1 ≤ 63 || p 14 1 == 0xFF) && p 15 1 != 0
  | 0x301 => p 8 8 % 64 == 0 && p 24 8 % 64 == 0
  | 0x302 => p 10 1 ≤ 1
  | 0x303 => p 29 3 == 0 && p 40 8 % 64 == 0
  | 0x308 | 0x309 => p 8 8 % 64 == 0 && p 24 4 != 0 && p 16 8 < 2 ^ 49 && p 16 8 % 64 == 0
  | 0x402 => p 8 1 ≤ 63 && inRange (p 9 1) 1 2
  | 0x403 => p 8 1 ≤ 63
  | 0x404 => (p 8 1 == 12 || p 8 1 == 13) && p 9 1 ≤ 1
  | 0x501 => p 8 1 ≤ 7 && p 16 8 % 64 == 0
  | 0x503 | 0x507 => p 16 8 % 64 == 0
  | 0x502 => p 40 1 ≤ 3
  | 0x505 => inRange (p 8 1) 1 150
  | 0x601 => p 8 8 % 64 == 0 && p 20 1 ≤ 1
  | 0x602 => p 8 1 ≤ 2 && (p 8 1 == 2 || dieCode (p 9 1)) && (p 8 1 != 0 || blockCode (p 10 1))
  | 0x701 => p 8 2 ≤ 600
  | _ => true

/-- Whether unnamed parameter bytes are 0, FLAGS holds no reserved bit and TAG is not reserved (R454). -/
def packetClean (a : Accepted) : Bool :=
  fieldAt a.packet 2 1 < 4 && a.tag != 0xFFFFFFFF &&
  (List.range 56).all (fun i => (opParams a.opcode).any (fun r => inRange (8 + i) r.1 r.2) || fieldAt a.packet (8 + i) 1 == 0)

/-- Tests 1 to 3 of Table 13-5: the status of the first that fails. A module out of service takes only what 14 R493 lists. -/
def packetTest (c : Core) (a : Accepted) : Option Nat :=
  if !(opListed a.opcode) then some 1
  else if !(packetClean a && paramsDefined c.ident.profile a) then some 2
  else if (c.rst.moduleOut || c.rst.mustPass) && !(a.tenant == 0 && (a.opcode == 0x101 || a.opcode == 0x108 || inRange a.opcode 0x601 3)) then some 3
  else if (opAdmin a.opcode && a.tenant != 0) || (a.target != a.tenant && !(a.tenant == 0 && opAdmin a.opcode)) then some 3
  else none

/-! ### Plans and jobs -/

/-- PLAN_ADMIT evaluated (06 R186, R187). -/
def planAdmit (e : Ev) (a : Accepted) (img : List Byte) (m : Mach) : CmdOut :=
  match admitTest { m with core := e.v } a.target img (a.par 16 4) with
  | .inl f => { status := f.status, detail := f.detail, m := m }
  | .inr p =>
    let q := { p with handle := if e.handle = 0 then e.v.freeHandle else e.handle }
    { detail := q.admitDetail,
      m := (q.physParts.foldl (fun m d => m.loadPrograms q d) m).up (fun c =>
        (c.loadPlan q img).emit (.dma a.tenant (BitVec.ofNat 64 (a.par 24 8)) (q.bindRecords.take (a.par 32 4)))) }

/-- The tenant's admitted plan that a packet names. -/
def Core.planNamed (c : Core) (t : TenantId) (h : Nat) : Option Plan := (c.plan? h).bind (fun p => if p.tenant == t then some p else none)

/-- PLAN_WITHDRAW evaluated (Table 13-9): the reply comes at the edge of withdrawal. -/
def planWithdraw (e : Ev) (a : Accepted) (m : Mach) : CmdOut :=
  let h := a.par 8 2
  let after := BitVec.ofNat 40 (a.par 16 5)
  match e.v.planNamed a.target h with
  | none => refuse 0x30F m
  | some p =>
    if p.withdrawAt.isSome || p.withdrawAfter.isSome || p.forced then refuse 6 m
    else if a.par 10 1 = 1 then { wait := !e.now, m := m.up (fun c => c.modPlan h (fun p => { p with withdrawAfter := some after })) }
    else if e.now || !m.core.clk.epochSet then
      { detail := details [(8, 8, m.core.clk.count.toNat)], m := m.up (fun c => (c.dropPlan h).buildSlots) }
    else { wait := true, m := m.up (fun c => c.modPlan h (fun p => { p with withdrawAt := some (c.edgeAfter (c.clk.count.toNat + 1)) })) }

/-- JOB_LAUNCH evaluated (06 R195, 10 R340, 11 R403). -/
def jobLaunch (e : Ev) (a : Accepted) (smap : List Byte) (m : Mach) : CmdOut :=
  let h := a.par 8 2
  let lc := a.par 16 8
  let first := BitVec.ofNat 40 (a.par 24 5)
  let ck := e.v.clk
  match e.v.planNamed a.target h with
  | none => refuse 0x30F m
  | some p =>
    let rest := e.v.spool.restored.find? (fun r => r.1 == h)
    let state := match e.v.job? h with
      | none => true
      | some j => (j.phase == .stoppedLimit || j.phase == .stoppedFallback) && rest.isSome
    let late := lc % 1000 != 0 || (ck.epochSet && (max lc ck.epoch.toNat - min lc ck.epoch.toNat) % max (ck.beatUs.toNat * 1000) 1 != 0) ||
      (match e.since with | some t => decide (lc < t + 1000000) | none => false)
    let seals := if smap.length == a.par 12 4 then (readSealMap smap).filter (e.v.sealMapOk p) else none
    if m.pwr.halted || !state || e.v.restoring h then refuse 0x310 m
    else if late then refuse 0x30E m
    else
      match seals with
      | none => refuse 0x30C m
      | some es =>
        let bad := match rest with
          | some (_, b, st) => b != smap || (match st with | some s => first != s + 1 | none => false)
          | none => false
        if bad then refuse 0x50B m
        else
          let j0 := mkJob p (BitVec.ofNat 64 lc) first (BitVec.ofNat 64 (a.par 32 8)) (e.v.lmOf p.hdr p.tenant) es
          let j := match rest with
            | some (_, _, some s) => { j0 with lastSealed := s, sealedValid := true, mirrored := true }
            | _ => j0
          let m1 := m.up (fun c =>
            { c with
              jobs := c.jobs.filter (fun k => !(k.plan == h)) ++ [j]
              clk := if c.clk.epochSet then c.clk else { c.clk with epoch := BitVec.ofNat 64 lc, epochSet := true }
              spool := { c.spool with restored := c.spool.restored.filter (fun r => !(r.1 == h)) } })
          { detail := details [(8, 8, m1.core.clk.epoch.toNat)], m := m1 }

/-- STATE of KD_JOB_SEAL (10 Table 10-9). -/
def Job.state (j : Job) : Nat := match j.phase with | .localReplay => 2 | .rollbackWait => 3 | .stoppedLimit => 4 | .stoppedFallback => 5 | _ => 1

/-- JOB_QUERY (Table 13-9). -/
def jobQuery (a : Accepted) (m : Mach) : CmdOut :=
  match m.core.planNamed a.target (a.par 8 2) with
  | none => refuse 0x30F m
  | some p =>
    match m.core.job? p.handle with
    | none => { m := m }
    | some j => { m := m, detail := details [(6, 5, j.lastSealed.toNat), (11, 1, j.state), (12, 5, j.step.toNat), (17, 2, j.beat), (19, 1, (j.tryOf (j.lastSealed + 1)).attempt)] }

/-! ### Data (R460) -/

/-- Whether any of a list of keys lies in the CUR ranges of a running job, or in its NEXT ranges while they are write-held (10 R342). -/
def Core.sealGuard (c : Core) (put : Bool) (keys : List Nat) : Bool :=
  c.jobs.any (fun j =>
    match c.plan? j.plan with
    | none => false
    | some p =>
      j.phase != .stoppedLimit && j.phase != .stoppedFallback &&
      j.sealMap.any (fun e =>
        let hit := fun (off : Nat) => (c.extKeys p off e.extents).any (fun o => match o with
          | some b => keys.any (fun k => inRange k b (2 ^ 26))
          | none => false)
        hit e.curOff.toNat || (put && j.writeHold && hit e.nextOff.toNat)))

/-- The keys of a host DMA's units in the tenant's view; partitions are physical (notes/assumptions/54). -/
def Core.hostKeys (c : Core) (t : TenantId) (addr units : Nat) : Option (List Nat) := c.resolveUnits t some (gaSpace addr) (gaOff addr) units

/-- DATA_PUT (R460). -/
def dataPut (a : Accepted) (data : List Byte) (m : Mach) : CmdOut :=
  match m.core.hostKeys a.target (a.par 16 8) (a.par 24 4) with
  | none => refuse 0x30C m
  | some ks => if m.core.sealGuard true ks then refuse 0x30C m else { m := m.putUnits ks (padTo (64 * ks.length) data) false }

/-- DATA_GET (R460): `a.par 8 8` is the host address. -/
def dataGet (a : Accepted) (m : Mach) : CmdOut :=
  match m.core.hostKeys a.target (a.par 16 8) (a.par 24 4) with
  | none => refuse 0x30C m
  | some ks =>
    if m.core.sealGuard false ks then refuse 0x30C m
    else { m := m.up (Core.emit (.dma a.tenant (BitVec.ofNat 64 (a.par 8 8)) (m.units ks))) }

/-! ### Slices (08 R287) -/

/-- The physical module IDs of a subcube slice's logical positions. -/
def subcubeMap (meadow mask base : Nat) : List Nat :=
  let ds := onesOf 6 mask
  tabulate (2 ^ ds.length) (fun i => meadow * 64 + base + sumNat (ds.mapIdx (fun b d => if i.testBit b then 2 ^ d else 0)))

/-- The physical module IDs of a torus-block slice. -/
def torusMap (g : FabCfg) (x0 y0 z0 tx ty tz : Nat) : List Nat :=
  tabulate (tx * ty * tz * g.jobPos) (fun l =>
    let lm := l / g.jobPos
    let x := (x0 + lm % tx) % g.sx
    let y := (y0 + lm / tx % ty) % g.sy
    let z := (z0 + lm / (tx * ty)) % g.sz
    (x + 8 * y + 64 * z) * 64 + l % g.jobPos)

/-- SLICE_CREATE evaluated (08 R287, Table 13-9). -/
def sliceCreate (e : Ev) (a : Accepted) (m : Mach) : CmdOut :=
  let p := a.par
  let g := e.v.fab.cfg
  let kind := p 9 1
  let mask := p 10 1
  let inTorus := if kind = 1 then mask < 64 && p 11 1 < 64 && mask &&& p 11 1 == 0 && p 15 1 == 0 && p 16 1 == 0 && p 17 1 == 0
    else p 12 1 < g.sx && p 13 1 < g.sy && p 14 1 < g.sz && inRange (p 15 1) 1 g.sx && inRange (p 16 1) 1 g.sy && inRange (p 17 1) 1 g.sz && mask == 0 && p 11 1 == 0
  let map := if kind = 1 then subcubeMap g.meadow mask (p 11 1) else torusMap g (p 12 1) (p 13 1) (p 14 1) (p 15 1) (p 16 1) (p 17 1)
  let clash := e.v.fab.slices.any (fun s => s.id == p 8 1 || s.map.any map.contains) || map.any (fun x => decide (g.jobPos ≤ x % 64))
  if !inTorus || !g.loaded then refuse 0x401 m
  else if clash then refuse 0x402 m
  else
    { m := m.up (fun c => c.modFab (fun q => { q with slices := q.slices ++
        [{ id := p 8 1, tenant := a.target, kind := kind, k := popcount 6 mask, mask := mask, base := p 11 1, x0 := p 12 1, y0 := p 13 1, z0 := p 14 1,
           tx := if kind = 2 then p 15 1 else 1, ty := if kind = 2 then p 16 1 else 1, tz := if kind = 2 then p 17 1 else 1,
           ckey := BitVec.ofNat 32 (p 20 4), map := map }] })) }

/-- SLICE_DELETE evaluated: IN_USE while a plan is admitted on the slice. -/
def sliceDelete (e : Ev) (a : Accepted) (m : Mach) : CmdOut :=
  match e.v.fab.slices.find? (fun s => s.id == a.par 8 1) with
  | none => refuse 0x401 m
  | some s =>
    if e.v.plans.any (fun p => (e.v.sliceFor p).any (fun x => x.id == s.id)) then refuse 0x202 m
    else { m := m.up (fun c => c.modFab (fun q => { q with slices := q.slices.filter (fun x => !(x.id == s.id)) })) }

/-! ### Stageable commands evaluated -/

/-- A stageable command evaluated. -/
def evalOp (e : Ev) (a : Accepted) (data : List Byte) (m : Mach) : CmdOut :=
  let p := a.par
  match a.opcode with
  | 0x203 => leasePartition e a.target (p 8 1) (p 9 1) m
  | 0x204 => leaseGranules e a.target (p 8 1) (p 9 1) (p 16 6) m
  | 0x205 => leaseHbm e a.target (p 8 1) (p 9 1) (p 10 2) (p 12 2) m
  | 0x206 => leaseBandwidth e a.target (p 8 1) (p 9 1) (p 10 2) m
  | 0x207 => leaseLink e a.target (p 9 1) (p 16 8) m
  | 0x301 => planAdmit e a data m
  | 0x302 => planWithdraw e a m
  | 0x303 => jobLaunch e a data m
  | 0x402 => sliceCreate e a m
  | 0x403 => sliceDelete e a m
  | 0x503 => snapSchedule e a data m
  | _ => { m := m }

/-- A staged command of a tenant as an accepted one. -/
def Staged.cmd (t : TenantId) (s : Staged) : Accepted := { tenant := t, sq := 0, cq := 0, tag := 0, packet := s.packet }

/-- The staged commands of a transaction evaluated in order, each against the machine as the ones before it leave it: the first that fails as (index, status,
detail), and the machine after them (R462). -/
def evalStaged (t : TenantId) (since : Option Nat) : List Staged → Nat → Mach → Option (Nat × Nat × List Byte) × Mach
  | [], _, m => (none, m)
  | s :: ss, i, m =>
    let o := evalOp { v := m.core, now := true, since := since, handle := s.handle } (s.cmd t) s.data m
    if o.status = 0 then evalStaged t since ss (i + 1) o.m else (some (i, o.status, o.detail), m)

/-- The evaluated commits, in the order of their evaluation. -/
def Core.commits (c : Core) : List (Nat × Txn) :=
  (c.tens.filterMap (fun e => e.2.txn.bind (fun x => if x.commit.isSome then some (e.1, x) else none))).mergeSort (fun a b => decide (a.2.order ≤ b.2.order))

/-- A revoke with FORCE that waits for its edge, or a TENANT_DISABLE that does. -/
def Accepted.forcing (a : Accepted) : Bool := a.started && inRange a.opcode 0x202 6

/-- A tenant's host-facing state when it is disabled (R459): its queues and what waits for them are gone; its other registers keep their values (notes/assumptions/88). -/
def Ten.disable (x : Ten) : Ten :=
  { x with enabled := false, queues := [], adminShadow := x.adminShadow &&& ~~~1, adminLive := false, fifo := [], txn := none }

/-- Every lease of a tenant revoked with FORCE, its queues deleted, its manifest keys unset, and the tenant disabled (R459, R418). -/
def Core.disableTenant (t : TenantId) (c : Core) : Core :=
  let hs := c.users t (fun _ => true)
  let c1 := (hs.foldl (fun c h => c.dropForced h) c).dropLeases t
  { c1 with
    tens := insertKey t.toNat (c1.ten t.toNat).disable c1.tens
    accepted := c1.accepted.filter (fun a => !(a.tenant == t))
    spool := { c1.spool with keys := c1.spool.keys.filter (fun k => !(k.1.1 == t)) }
    ident := if c1.ident.dedicated == some t then { c1.ident with dedicated := none } else c1.ident }

/-- A revoke that waited for its edge carried out. -/
def forceNow (a : Accepted) (m : Mach) : CmdOut :=
  if a.opcode = 0x202 then { m := m.up (Core.disableTenant a.target) }
  else evalOp { v := m.core, now := true, since := none } a [] m

/-- The machine that later commands are evaluated against: with every waiting revoke and every evaluated commit applied (R462, R466). -/
def Mach.view (m : Mach) : Core :=
  let m1 := (m.core.accepted.filter Accepted.forcing).foldl (fun m a => (forceNow a m).m) m
  (m1.core.commits.foldl (fun m x => (evalStaged (BitVec.ofNat 8 x.1) none x.2.staged 0 m).2) m1).core

/-! ### Transactions (R462, R463) -/

/-- The open transaction of a tenant. -/
def Core.txn? (c : Core) (t : TenantId) : Option Txn := (c.ten t.toNat).txn

/-- A tenant's transaction set. -/
def Core.setTxn (t : TenantId) (x : Option Txn) (c : Core) : Core := c.modTen t.toNat (fun q => { q with txn := x })

/-- A command staged: its index, or for an admission the handle that it reserves. What its content alone shows wrong refuses it now (R462). -/
def stage (a : Accepted) (data : List Byte) (m : Mach) : CmdOut :=
  let t := a.tenant
  match m.core.txn? t with
  | none => refuse 0x701 m
  | some x =>
    if x.commit.isSome then refuse 0x701 m
    else if !(opStageable a.opcode) then refuse 0x703 m
    else if 64 ≤ x.staged.length then refuse 0x706 m
    else
      let c := m.core
      if a.opcode = 0x301 then
        let p := readPlan data a.target c.fab.cfg.jobPos (c.lmOf (readHdr data) a.target)
        match imageTests data (a.par 16 4) m p with
        | some f => { status := f.status, detail := f.detail, m := m }
        | none =>
          let h := c.freeHandle
          { detail := details [(12, 2, h)],
            m := m.up (Core.setTxn t (some { x with staged := x.staged ++ [{ packet := a.packet, data := data, handle := h }], handles := x.handles ++ [h] })) }
      else if a.opcode = 0x503 && !(scheduleOk data) then refuse 2 m
      else if a.opcode = 0x303 && (data.length != a.par 12 4 || (readSealMap data).isNone) then refuse 0x30C m
      else
        { detail := details [(6, 2, x.staged.length)],
          m := m.up (Core.setTxn t (some { x with staged := x.staged ++ [{ packet := a.packet, data := data }] })) }

/-- TXN_BEGIN. -/
def txnBegin (a : Accepted) (m : Mach) : CmdOut :=
  let c := m.core
  match c.txn? a.tenant with
  | some _ => refuse 0x702 m
  | none =>
    let n := (c.ten a.tenant.toNat).nextTxn
    let x : Txn := { id := n, timeout := if a.par 8 2 = 0 then 10 else a.par 8 2 }
    { detail := details [(6, 2, n.toNat)], m := m.up (fun c => c.modTen a.tenant.toNat (fun q => { q with txn := some x, nextTxn := if n == 0xFFFF then 1 else n + 1 })) }

/-- The edge at which a commit applies: the one named, or the first whose edge reserve has not begun; none when it is too late (R462). -/
def Core.commitEdge (c : Core) (at_ : Nat) : Option (BitVec 64) :=
  let now := c.clk.count.toNat
  if at_ = 0 then some (c.edgeAfter (now + ceilDiv (512 * 1000) (cyclesPerUs c.ident.profile)))
  else
    let e := BitVec.ofNat 64 at_
    if c.clk.epochSet && now + 1000000 ≤ at_ && c.edgeAfter at_ == e then some e else none

/-- TXN_COMMIT (R462): every staged command is evaluated; all take effect at the edge, or at once while no beat is set. -/
def txnCommit (a : Accepted) (m : Mach) : CmdOut :=
  let c := m.core
  let t := a.tenant
  match c.txn? t with
  | none => refuse 0x701 m
  | some x =>
    if x.commit.isSome then refuse 0x701 m
    else
      match c.commitEdge (a.par 8 8) with
      | none => { status := 0x705, m := m.up (Core.setTxn t none) }
      | some edge =>
        let v := { m with core := m.view }
        match (evalStaged t (some c.clk.count.toNat) x.staged 0 v).1 with
        | some (i, st, d) => { status := 0x704, detail := (details [(6, 2, i), (8, 2, st)]).take 4 ++ d.take 22, m := m.up (Core.setTxn t none) }
        | none =>
          if c.clk.epochSet then
            { wait := true, m := m.up (Core.setTxn t (some { x with commit := some edge, order := c.commits.length + (listMax (c.commits.map (fun y => y.2.order))), reply := some a })) }
          else
            let m1 := (evalStaged t none x.staged 0 (m.up (Core.setTxn t none))).2
            { detail := details [(8, 8, c.clk.count.toNat)], m := m1.up Core.buildSlots }

/-- TXN_ROLLBACK (R463). -/
def txnRollback (a : Accepted) (m : Mach) : CmdOut :=
  match m.core.txn? a.tenant with
  | some x => if x.commit.isSome then refuse 0x701 m else { m := m.up (Core.setTxn a.tenant none) }
  | none => refuse 0x701 m

/-- TXN_QUERY (Table 13-9); that a query keeps the transaction from being idle (R463) lies in when TXN_IDLE_TIMEOUT comes (notes/assumptions/76). -/
def txnQuery (a : Accepted) (m : Mach) : CmdOut :=
  match m.core.txn? a.tenant with
  | none => { m := m, detail := [] }
  | some x => { m := m, detail := details [(6, 1, 1), (7, 1, x.staged.length), (8, 2, x.timeout)] }

/-! ### The course of a command (R450 to R457) -/

/-- The plan handle that a command names (Table 13-9, 11 Table 11-9). -/
def Accepted.names (a : Accepted) : Option Nat :=
  let op := a.opcode
  if inRange op 0x302 3 || op == 0x503 || op == 0x504 || inRange op 0x506 3 then some (a.par 8 2)
  else if op == 0x210 && a.par 10 1 == 3 then some (a.par 18 2)
  else none

/-- The accepted command that an event names, when it is of an opcode and nothing of the order of R451 keeps it from starting. -/
def Core.cmd? (c : Core) (op : Nat) (t : TenantId) (sq : Nat) (tag : BitVec 32) : Option Accepted :=
  match c.accepted.span (fun a => !(a.tenant == t && a.sq == sq && a.tag == tag && a.opcode == op && !a.started)) with
  | (before, a :: _) =>
    let mine := before.filter (fun b => b.tenant == t)
    let ordered := bitOf (fieldAt a.packet 2 1) 1
    let blocked := (ordered && !mine.isEmpty) || mine.any (fun b => !b.started && (b.sq == sq || (a.names.isSome && b.names == a.names)))
    if blocked then none else some a
  | _ => none

/-- An accepted command run (R456): staged, or refused where a buffer it names cannot be reached, or evaluated and answered, unless its reply waits. -/
def runCmd (op : Nat) (t : TenantId) (sq : Nat) (tag : BitVec 32) (bufOk : Bool) (data : List Byte) (eval : Ev → Accepted → Mach → CmdOut) (m : Mach) : Mach :=
  match m.core.cmd? op t sq tag with
  | none => m
  | some a =>
    let staging := bitOf (fieldAt a.packet 2 1) 0
    let o :=
      if staging && (match m.core.txn? a.tenant with | some x => !(opStageable op) || x.commit.isSome || decide (64 ≤ x.staged.length) | none => true) then stage a data m
      else if !bufOk then refuse 4 m
      else if staging then stage a data m
      else eval { v := m.view, now := false, since := some m.core.clk.count.toNat } a m
    if o.status = 0 && o.wait then o.m.up (Core.awaitReply a) else o.m.up (fun c => c.reply a o.status o.detail)

/-- A stageable command run. -/
def runStageable (op : Nat) (t : TenantId) (sq : Nat) (tag : BitVec 32) (bufOk : Bool) (data : List Byte) (m : Mach) : Mach :=
  runCmd op t sq tag bufOk data (fun e a => evalOp e a data) m

end Sys2Proof.Machine
end

