-- ==== Sys2Proof/Machine/HostRows.lean ====
section
/-!
DEFINITION. The host interface's rows (13_host_tenants_commands.md): doorbells, fetch, interrupts, apertures, and the commands of tenants, leases, queues,
plans, data, fabric, transactions and checkpoints.
-/

namespace Sys2Proof.Machine

/-! ### Doorbells (R445, R447, R453, R468) -/

/-- A queue that takes doorbells: it exists, its tenant is enabled, it is not in error and its deletion does not run. -/
def Core.ringable (c : Core) (t : TenantId) (qn : Nat) : Option Queue :=
  let deleting := c.accepted.any (fun a => a.tenant == t && a.opcode == 0x211 && a.started && a.par 8 2 == qn)
  if c.rst.phase == 6 && (c.ten t.toNat).enabled && !deleting then (lookup? qn (c.ten t.toNat).queues).filter (fun q => !q.err) else none

/-- A queue of a tenant changed. -/
def Core.modQueue (t : TenantId) (qn : Nat) (f : Queue → Queue) (c : Core) : Core :=
  c.modTen t.toNat (fun x => { x with queues := x.queues.map (fun p => if p.1 == qn then (p.1, f p.2) else p) })

/-- A submission queue's tail doorbell: an index of E or more puts the queue in error. -/
def sqDoorbell (t : TenantId) (qn : Nat) (v : BitVec 32) (c : Core) : Core :=
  match c.ringable t qn with
  | some q => if q.kind != .sq then c else if q.entries ≤ v.toNat then c.queueError t.toNat qn 1 else c.modQueue t qn (fun q => { q with tail := v.toNat })
  | none => c

/-- SQ_TAIL_DOORBELL (R445, R453). -/
def execSqTailDoorbell (tenant : TenantId) (queue : Nat) (value : BitVec 32) (s : State) : Host.Outcome State Fault Refusal :=
  runC (fun _ _ c => sqDoorbell tenant queue value c) s

/-- Waiting unsolicited entries written while queue 1 has free slots (R458). -/
def Core.drainFifo (t : TenantId) : Nat → Core → Core
  | 0, c => c
  | n + 1, c =>
    match (c.ten t.toNat).fifo with
    | u :: us =>
      if c.cq1Free t.toNat then
        Core.drainFifo t n ((c.modTen t.toNat (fun x => { x with fifo := us })).cqWrite t.toNat 1 (entryBytes 0xFFFFFFFF u.status.toNat u.detail))
      else c
    | [] => c

/-- A completion queue's head doorbell: it frees slots; an index that does not lie between the old head and the tail puts the queue in error. -/
def cqDoorbell (t : TenantId) (qn : Nat) (v : BitVec 32) (c : Core) : Core :=
  match c.ringable t qn with
  | some q =>
    if q.kind != .cq then c
    else if v.toNat < q.entries && (v.toNat + q.entries - q.head) % q.entries ≤ q.used then
      (c.modQueue t qn (fun q => { q with head := v.toNat })).drainFifo t 64
    else c.queueError t.toNat qn 1
  | none => c

/-- CQ_HEAD_DOORBELL (R453). -/
def execCqHeadDoorbell (tenant : TenantId) (queue : Nat) (value : BitVec 32) (s : State) : Host.Outcome State Fault Refusal :=
  runC (fun _ _ c => cqDoorbell tenant queue value c) s

/-- A request queue's doorbell: the tag is queued, or dropped with QUEUE_ERROR when the queue is full (R468). -/
def rqDoorbell (t : TenantId) (qn : Nat) (tag : BitVec 32) (c : Core) : Core :=
  match c.ringable t qn with
  | some q =>
    if q.kind != .rq then c
    else if q.depth ≤ q.tags.length then c.unsolicited t.toNat 0xF6 (bytesLE 2 qn ++ bytesLE 1 4)
    else c.modQueue t qn (fun q => { q with tags := q.tags ++ [tag] })
  | none => c

/-- RQ_DOORBELL (R468). -/
def execRqDoorbell (tenant : TenantId) (queue : Nat) (tag : BitVec 32) (s : State) : Host.Outcome State Fault Refusal :=
  runC (fun _ _ c => rqDoorbell tenant queue tag c) s

/-! ### Fetch and interrupts (R449 to R452) -/

/-- The command at the head of a submission queue fetched and accepted, when a slot of its completion queue can be reserved; a failed read puts the queue in
error, and so does a failed write of its shadow, which stops no command that is accepted (R453). A packet that fails tests 1 to 3 is answered at once (R456). -/
def fetch (t : TenantId) (qn : Nat) (packet : Option Fetched) (c : Core) : Core :=
  match c.ringable t qn with
  | none => c
  | some q =>
    let free := match lookup? q.bound (c.ten t.toNat).queues with | some cq => cq.hasFree | none => false
    if q.kind != .sq || q.head == q.tail || !free then c
    else
      match packet with
      | none => c.queueError t.toNat qn 2
      | some ⟨b, shadowOk⟩ =>
        let a : Accepted := { tenant := t, sq := qn, cq := q.bound, tag := BitVec.ofNat 32 (fieldAt b 4 4), packet := padTo 64 b }
        let h := (q.head + 1) % max q.entries 1
        let c1 := (c.modQueue t qn (fun q => { q with head := h })).modQueue t q.bound (fun q => { q with reserved := q.reserved + 1 })
        let c2 := { (if shadowOk then c1.emit (.shadow t qn h) else c1.queueError t.toNat qn 3) with accepted := c1.accepted ++ [a] }
        match packetTest c2 a with
        | some st => c2.reply a st []
        | none => c2

/-- COMMAND_FETCH (R450): tenant, queue, the packet read from the ring with whether the shadow can be written, none when the host read fails. -/
def execCommandFetch (tenant : TenantId) (queue : Nat) (packet : Option Fetched) (s : State) : Host.Outcome State Fault Refusal :=
  runC (fun _ _ c => fetch tenant queue packet c) s

/-- INTERRUPT_COALESCE_TIMER (R452); a write of an entry or of the shadow that failed puts the queue in error instead (R453). -/
def execInterruptCoalesceTimer (tenant : TenantId) (queue : CoalQueue) (s : State) : Host.Outcome State Fault Refusal :=
  runC (fun _ _ c =>
    let written := queue.written
    let queue := queue.queue
    match lookup? queue (c.ten tenant.toNat).queues with
    | some q =>
      if q.kind == .cq && decide (0 < q.unsignalled) && !q.err && !written then c.queueError tenant.toNat queue 3
      else if q.kind == .cq && decide (0 < q.unsignalled) && !q.err then
        let c1 := c.modQueue tenant queue (fun q => { q with unsignalled := 0 })
        if q.vector = 0xFF then c1 else c1.emit (.msix tenant q.vector)
      else c
    | none => c) s

/-! ### Apertures (R446, R472) -/

/-- The key of a byte of a tenant's aperture and whether its window allows writes, when it lies in a valid window and in range. -/
def Core.apKey (c : Core) (t : TenantId) (addr : Nat) : Option (Nat × Bool) :=
  let w := ((lookup? (addr / 2 ^ 30) (c.ten t.toNat).apertures).getD 0).toNat
  let o := addr % 2 ^ 30
  let p := field w 57 3
  if !(bitOf w 63) then none
  else
    let k := match field w 60 2 with
      | 0 => c.hbmView t p (field w 30 6 * 2 ^ 30 + o)
      | 1 =>
        let g := o / 2 ^ 24
        if field w 30 6 = 0 && lookup? (p, g) c.leases.granules = some t && lookup? (p, g) c.leases.modes ≠ some GranMode.cache then some (cmKey p g (o % 2 ^ 24)) else none
      | _ => none
    k.map (fun k => (k, bitOf w 62))

/-- A read of `n` bytes through the aperture; poison travels as the EP bit (R228). -/
def apertureRead (t : TenantId) (addr n : Nat) (found : List MemErr) (m : Mach) : Mach :=
  let c := m.core
  if !((c.ten t.toNat).enabled) || c.rst.phase != 6 then m.up (Core.emit .ur)
  else
    let ks := (List.range n).map (fun i => c.apKey t (addr + i))
    if ks.any Option.isNone || n = 0 then
      m.up (fun c => (c.modTen t.toNat (fun x => { x with apReadErrs := satInc x.apReadErrs })).emit .ur)
    else
      let m1 := m.scrub 0 found
      let keys := ks.filterMap (fun o => o.map Prod.fst)
      m1.up (fun c =>
        let c1 := c.emit (.data (keys.map (fun k => memByte m1.mem k)))
        if keys.any m1.bad then c1.emit .poisoned else c1)

/-- APERTURE_READ (R446): tenant, aperture byte, bytes, and the memory errors that the read finds. -/
def execApertureRead (tenant : TenantId) (addr : BitVec 34) (n : Nat) (found : List MemErr) (s : State) : Host.Outcome State Fault Refusal :=
  runM (apertureRead tenant addr.toNat n found) s

/-- A write through the aperture: whole units set the poison bit that the request carries (R229), others are patched. -/
def apertureWrite (t : TenantId) (addr : Nat) (bs : List Byte) (ep : Bool) (m : Mach) : Mach :=
  let c := m.core
  if !((c.ten t.toNat).enabled) || c.rst.phase != 6 || bs.isEmpty then m
  else
    let ks := (List.range bs.length).map (fun i => c.apKey t (addr + i))
    let keys := ks.filterMap (fun o => o.map Prod.fst)
    let bad := ks.any (fun o => match o with | some (_, w) => !w | none => true) || c.sealGuard true keys
    if bad then m.up (fun c => c.modTen t.toNat (fun x => { x with apWriteErrs := satInc x.apWriteErrs }))
    else
      let units := (keys.map (fun k => k / 64)).eraseDups
      units.foldl (fun m u =>
        let here := (keys.zip bs).filter (fun e => e.1 / 64 == u)
        match here with
        | [] => m
        | e :: _ => if here.length = 64 then m.putUnit (u * 64) (here.map Prod.snd) ep else m.patch e.1 (here.map Prod.snd)) m

/-- APERTURE_WRITE (R446): tenant, aperture byte, bytes, and whether the request carries the EP bit. -/
def execApertureWrite (tenant : TenantId) (addr : BitVec 34) (bytes : List (BitVec 8)) (ep : Bool) (s : State) : Host.Outcome State Fault Refusal :=
  runM (apertureWrite tenant addr.toNat bytes ep) s

/-- PCIE_ATOMICOP (07 R233). -/
def execPcieAtomicop (s : State) : Host.Outcome State Fault Refusal := runC (fun _ _ c => c.emit .ur) s

/-! ### Module commands -/

/-- VZ_MODULE_IDENT (01 Table 01-12). -/
def Ident.word (i : Ident) : BitVec 64 :=
  BitVec.ofNat 64 (place 0x14 48 8 + place i.grade.toNat 40 8 + place i.stepping.toNat 32 8 + place i.activeArrays.toNat 24 8 + place i.profile.toNat 16 8)

/-- MODULE_INFO (Table 13-9). -/
def execModuleInfo (t : TenantId) (sq : Nat) (tag : BitVec 32) (s : State) : Host.Outcome State Fault Refusal :=
  runM (runCmd 0x101 t sq tag true [] (fun _ _ m =>
    let i := m.core.ident
    { m := m
      detail := details [(6, 2, i.fwMajor.toNat), (8, 2, i.fwMinor.toNat), (10, 8, i.word.toNat), (18, 8, Config.serial.toNat),
        (26, 1, boolNat m.core.health.volezStandby), (27, 1, boolNat i.dedicated.isSome), (28, 1, match i.dedicated with | some t => t.toNat | none => 0)] })) s

/-- Whether a plan is admitted, or staged for admission in an open transaction (Table 13-6 PLAN_ADMITTED). -/
def Core.anyPlan (c : Core) : Bool :=
  !c.plans.isEmpty || c.tens.any (fun e => match e.2.txn with | some x => x.staged.any (fun s => fieldAt s.packet 0 2 == 0x301) | none => false)

/-- PROFILE_SET (00 R12). -/
def execProfileSet (t : TenantId) (sq : Nat) (tag : BitVec 32) (s : State) : Host.Outcome State Fault Refusal :=
  runM (runCmd 0x102 t sq tag true [] (fun e a m =>
    if e.v.anyPlan || m.core.anyPlan then refuse 0x101 m
    else { m := m.up (fun c => { c with ident := { c.ident with profile := BitVec.ofNat 8 (a.par 8 1) } }) })) s

/-- The configuration made dedicated to a tenant (12 R418). -/
def Core.dedicate (t : TenantId) (c : Core) : Core :=
  let c1 := ((List.range 8).filter (fun p => !((c.part p).outOfService))).foldl (fun c p => c.grantPart t true p) c
  { c1 with
    leases := { c1.leases with links := tabulate 64 (fun s => ((s, 0), t)) }
    ident := { c1.ident with dedicated := some t } }

/-- CONFIG_MODE (12 R418). -/
def execConfigMode (t : TenantId) (sq : Nat) (tag : BitVec 32) (s : State) : Host.Outcome State Fault Refusal :=
  runM (runCmd 0x103 t sq tag true [] (fun e a m =>
    let d := BitVec.ofNat 8 (a.par 9 1)
    let l := e.v.leases
    let others := l.parts.any (fun x => x.2.1 != d) || l.granules.any (fun x => x.2 != d) || l.hbm.any (fun x => x.1.1 != d) ||
      l.bandwidth.any (fun x => x.1.1 != d && x.2 != 0) || l.links.any (fun x => x.2 != d)
    if e.v.anyPlan || m.core.anyPlan then refuse 0x101 m
    else if a.par 8 1 = 0 then { m := m.up (fun c => { c with ident := { c.ident with dedicated := none } }) }
    else if others then refuse 0x104 m
    else { m := m.up (Core.dedicate d) })) s

/-- HBM_REGIONS_SET (07 R217). -/
def execHbmRegionsSet (t : TenantId) (sq : Nat) (tag : BitVec 32) (s : State) : Host.Outcome State Fault Refusal :=
  runM (runCmd 0x104 t sq tag true [] (fun e a m =>
    let h := a.par 8 2
    let mi := a.par 10 2
    let sn := a.par 12 2
    if e.v.anyPlan || m.core.anyPlan then refuse 0x101 m
    else if !(inRange h 8 121) || 988 ≤ h + mi + sn then refuse 0x401 m
    else if e.v.leases.hbm.any (fun x => decide (988 - h - mi - sn ≤ x.2 % 1024)) then refuse 0x102 m
    else { m := m.up (fun c => { c with ident := { c.ident with hamperExt := h, mirrorExt := mi, snapExt := sn } }) })) s

/-- Whether a firmware image's signature verifies under an unrevoked key, and what its header declares (15 R515). -/
def readFw (b : List Byte) : FwImage :=
  let h := Config.fwHeader b
  { valid := Config.signatureOk 1 b, major := h.setWidth 16, minor := (h >>> 16).setWidth 16, sec := (h >>> 32).setWidth 64 }

/-- FW_STAGE: a firmware image that passes its checks is written into the flash image not in use (15 R515). -/
def execFwStage (t : TenantId) (sq : Nat) (tag : BitVec 32) (image : Option (List (BitVec 8))) (s : State) : Host.Outcome State Fault Refusal :=
  runM (runCmd 0x105 t sq tag image.isSome [] (fun _ a m =>
    let b := image.getD []
    let f := readFw b
    if !f.valid || b.length != a.par 16 4 || decide (2 ^ 25 < b.length) || decide (f.sec.toNat < m.core.ident.fwSec.toNat) then refuse 0x103 m
    else { m := m.up (fun c => { c with ident := { c.ident with images := setAt c.ident.images (1 - c.ident.fwRun) f } }) })) s

/-- FW_ACTIVATE: takes effect at the next cold or module warm reset. -/
def execFwActivate (t : TenantId) (sq : Nat) (tag : BitVec 32) (s : State) : Host.Outcome State Fault Refusal :=
  runM (runCmd 0x106 t sq tag true [] (fun _ a m =>
    let i := a.par 8 1
    let f := m.core.ident.images.getD i {}
    if !f.valid || decide (f.sec.toNat < m.core.ident.fwSec.toNat) then refuse 0x103 m
    else { m := m.up (fun c => { c with ident := { c.ident with fwBoot := i } }) })) s

/-! ### Tenants and leases -/

/-- TENANT_ENABLE (R443). -/
def execTenantEnable (t : TenantId) (sq : Nat) (tag : BitVec 32) (s : State) : Host.Outcome State Fault Refusal :=
  runM (runCmd 0x201 t sq tag true [] (fun _ a m => { m := m.up (fun c => c.modTen a.target.toNat (fun x => { x with enabled := true })) })) s

/-- TENANT_DISABLE (R459): every lease is revoked with FORCE. -/
def execTenantDisable (t : TenantId) (sq : Nat) (tag : BitVec 32) (s : State) : Host.Outcome State Fault Refusal :=
  runM (runCmd 0x202 t sq tag true [] (fun e a m =>
    revoke e true (e.v.users a.target (fun _ => true)) (fun m => m.up (Core.disableTenant a.target)) (fun _ => []) m)) s

/-- LEASE_PARTITION (R465, R466). -/
def execLeasePartition (t : TenantId) (sq : Nat) (tag : BitVec 32) (s : State) : Host.Outcome State Fault Refusal := runM (runStageable 0x203 t sq tag true []) s

/-- LEASE_GRANULES (07 R211). -/
def execLeaseGranules (t : TenantId) (sq : Nat) (tag : BitVec 32) (s : State) : Host.Outcome State Fault Refusal := runM (runStageable 0x204 t sq tag true []) s

/-- LEASE_HBM (07 R218). -/
def execLeaseHbm (t : TenantId) (sq : Nat) (tag : BitVec 32) (s : State) : Host.Outcome State Fault Refusal := runM (runStageable 0x205 t sq tag true []) s

/-- LEASE_BANDWIDTH (07 R221). -/
def execLeaseBandwidth (t : TenantId) (sq : Nat) (tag : BitVec 32) (s : State) : Host.Outcome State Fault Refusal := runM (runStageable 0x206 t sq tag true []) s

/-- LEASE_LINK (R465). -/
def execLeaseLink (t : TenantId) (sq : Nat) (tag : BitVec 32) (s : State) : Host.Outcome State Fault Refusal := runM (runStageable 0x207 t sq tag true []) s

/-! ### Queues (R448) -/

/-- QUEUE_CREATE evaluated. -/
def queueCreate (e : Ev) (a : Accepted) (m : Mach) : CmdOut :=
  let p := a.par
  let t := a.target
  let qs := (m.core.ten t.toNat).queues
  let qn := p 8 2
  let kind := p 10 1
  let cqOk := match lookup? (p 12 2) qs with | some q => q.kind == .cq | none => false
  let ring := p 11 1 ≤ 12 && p 24 8 % 4096 == 0 && p 32 8 % 8 == 0
  let ok := inRange qn 2 1022 && (match kind with | 1 => ring && cqOk | 2 => ring | 3 => cqOk | _ => false)
  if !ok then refuse 0x203 m
  else if (lookup? qn qs).isSome then refuse 0x204 m
  else
    let base : Queue := { kind := .sq, entries := 2 ^ (p 11 1 + 4), base := BitVec.ofNat 64 (p 24 8), shadow := BitVec.ofNat 64 (p 32 8), bound := p 12 2 }
    let add := fun (q : Queue) (c : Core) => c.modTen t.toNat (fun x => { x with queues := x.queues ++ [(qn, q)] })
    match kind with
    | 1 => { m := m.up (add base) }
    | 2 => { m := m.up (add { base with kind := .cq, vector := p 14 1, coalCount := p 15 1, coalUs := p 16 1 }) }
    | _ =>
      let h := p 18 2
      match e.v.planNamed t h with
      | some pl =>
        if pl.hdr.onDemand && pl.hdr.cls == 0 then
          { m := m.up (fun c => (add { kind := .rq, depth := p 11 1 + 1, bound := p 12 2, rqPlan := h } c).modPlan h (fun p => { p with rq := some qn })) }
        else refuse 0x30F m
      | none => refuse 0x30F m

/-- QUEUE_CREATE (R448, Table 13-9). -/
def execQueueCreate (t : TenantId) (sq : Nat) (tag : BitVec 32) (s : State) : Host.Outcome State Fault Refusal :=
  runM (runCmd 0x210 t sq tag true [] queueCreate) s

/-- A queue removed; a request queue leaves its plan. -/
def Core.dropQueue (t : TenantId) (qn : Nat) (c : Core) : Core :=
  let c1 := c.modTen t.toNat (fun x => { x with queues := eraseKey qn x.queues })
  { c1 with plans := c1.plans.map (fun p => if p.tenant == t && p.rq == some qn then { p with rq := none } else p) }

/-- Whether a submission queue still has accepted commands without a reply, other than the one that deletes it. -/
def Core.sqBusy (c : Core) (a : Accepted) : Bool := c.accepted.any (fun b => b.tenant == a.target && b.sq == a.par 8 2 && !(b.same a))

/-- QUEUE_DELETE evaluated: BUSY while another command deletes the queue (R456). -/
def queueDelete (a : Accepted) (m : Mach) : CmdOut :=
  let t := a.target
  let qs := (m.core.ten t.toNat).queues
  let qn := a.par 8 2
  match lookup? qn qs with
  | none => refuse 0x203 m
  | some q =>
    if !(inRange qn 2 1022) then refuse 0x203 m
    else if m.core.accepted.any (fun b => b.started && b.opcode == 0x211 && b.target == t && b.par 8 2 == qn) then refuse 6 m
    else if q.kind == .cq && qs.any (fun x => x.2.kind != .cq && x.2.bound == qn) then refuse 0x204 m
    else if q.kind == .sq && m.core.sqBusy a then { wait := true, m := m }
    else { m := m.up (Core.dropQueue t qn) }

/-- A deletion that waited for its queue's last reply completed. -/
def deleteWaiting (t : TenantId) (sq : Nat) (tag : BitVec 32) (m : Mach) : Mach :=
  match m.core.accepted.find? (fun a => a.tenant == t && a.sq == sq && a.tag == tag && a.opcode == 0x211 && a.started) with
  | some a => if m.core.sqBusy a then m else m.up (fun c => (c.reply a 0 []).dropQueue a.target (a.par 8 2))
  | none => runCmd 0x211 t sq tag true [] (fun _ a m => queueDelete a m) m

/-- QUEUE_DELETE (R460): issued again for a deletion that waits, it completes it once every accepted command of the queue has replied. -/
def execQueueDelete (t : TenantId) (sq : Nat) (tag : BitVec 32) (s : State) : Host.Outcome State Fault Refusal := runM (deleteWaiting t sq tag) s

/-! ### Plans, jobs and data -/

/-- PLAN_ADMIT (06 R186): the image read from host memory, none when it cannot be read, and whether the binding record buffer can be written. -/
def execPlanAdmit (t : TenantId) (sq : Nat) (tag : BitVec 32) (image : Option (List (BitVec 8))) (writable : Bool) (s : State) : Host.Outcome State Fault Refusal :=
  runM (runStageable 0x301 t sq tag (image.isSome && writable) (image.getD [])) s

/-- PLAN_WITHDRAW (R460). -/
def execPlanWithdraw (t : TenantId) (sq : Nat) (tag : BitVec 32) (s : State) : Host.Outcome State Fault Refusal := runM (runStageable 0x302 t sq tag true []) s

/-- JOB_LAUNCH (06 R195): the seal map read from host memory, none when it cannot be read. -/
def execJobLaunch (t : TenantId) (sq : Nat) (tag : BitVec 32) (sealMap : Option (List (BitVec 8))) (s : State) : Host.Outcome State Fault Refusal :=
  runM (runStageable 0x303 t sq tag sealMap.isSome (sealMap.getD [])) s

/-- JOB_QUERY (R460). -/
def execJobQuery (t : TenantId) (sq : Nat) (tag : BitVec 32) (s : State) : Host.Outcome State Fault Refusal :=
  runM (runCmd 0x304 t sq tag true [] (fun _ a m => jobQuery a m)) s

/-- DATA_PUT (R460): the bytes read from host memory, none when they cannot be read. -/
def execDataPut (t : TenantId) (sq : Nat) (tag : BitVec 32) (data : Option (List (BitVec 8))) (s : State) : Host.Outcome State Fault Refusal :=
  runM (runCmd 0x308 t sq tag data.isSome [] (fun _ a m => dataPut a (data.getD []) m)) s

/-- DATA_GET (R460): whether the host buffer can be written, and the memory errors that the reads find. -/
def execDataGet (t : TenantId) (sq : Nat) (tag : BitVec 32) (writable : Bool) (found : List MemErr) (s : State) : Host.Outcome State Fault Refusal :=
  runM (runCmd 0x309 t sq tag writable [] (fun _ a m => dataGet a (m.scrub 0 found))) s

/-! ### Fabric -/

/-- A fabric configuration block read (Table 13-10). -/
def readFabric (g : FabCfg) (meadow : Nat) (b : List Byte) : FabCfg :=
  let own := meadow * 64 + g.position
  { g with
    loaded := true, ballast := fieldAt b 5 1, timeRoot := own == fieldAt b 6 2, meadow := meadow, digest := BitVec.ofNat 32 (fieldAt b 1020 4),
    sx := fieldAt b 2 1, sy := fieldAt b 3 1, sz := fieldAt b 4 1, fibreMax := fieldAt b 8 4, axes := tabulate 64 (fun p => fieldAt b (64 + 8 * p) 1),
    gates := tabulate 64 (fun p => tabulate 3 (fun a => (fieldAt b (66 + 8 * p + 2 * a) 1, fieldAt b (67 + 8 * p + 2 * a) 1))),
    pools := tabulate 6 (fun i => 128 * fieldAt b (12 + i) 1), pfcPrio := fieldAt b 18 1 }

/-- Whether a fabric configuration block passes (R461, 08 R250 to R253; in Celoth-1 mode 08 Table 08-14). -/
def fabricOk (celoth1 : Bool) (b : List Byte) (meadow : Nat) : Bool :=
  let sizes := [fieldAt b 2 1, fieldAt b 3 1, fieldAt b 4 1]
  let bal := fieldAt b 5 1
  let axis := fun (p : Nat) => fieldAt b (64 + 8 * p) 1
  let near := neighbours celoth1
  b.length == 1024 && fieldAt b 0 2 == 1 && fieldAt b 1020 4 == crc32c (slice b 0 1020) && zeroAt b 19 45 && zeroAt b 576 444 && fieldAt b 18 1 ≤ 7 &&
  inRange (fieldAt b 2 1) 1 8 && inRange (fieldAt b 3 1) 1 8 && inRange (fieldAt b 4 1) 1 4 && (if celoth1 then [0, 2, 4].contains bal && sizes == [1, 1, 1] else [0, 2, 4, 8].contains bal) &&
  sumNat (tabulate 6 (fun i => fieldAt b (12 + i) 1)) == 64 &&
  meadow % 8 < fieldAt b 2 1 && meadow / 8 % 8 < fieldAt b 3 1 && meadow / 64 < fieldAt b 4 1 &&
  (List.range 64).all (fun p =>
    fieldAt b (65 + 8 * p) 1 == 0 && (if (if celoth1 then 32 else 64) - bal ≤ p then axis p == 0 else celoth1 && axis p == 0 || inRange (axis p) 1 3) &&
    (List.range 3).all (fun a =>
      (sizes.getD a 1 ≤ 1 || 2 ≤ ((near p).filter (fun q => axis q == a + 1)).length) &&
      let g1 := fieldAt b (66 + 8 * p + 2 * a) 1
      let g2 := fieldAt b (67 + 8 * p + 2 * a) 1
      if sizes.getD a 1 ≤ 1 || axis p == a + 1 then g1 == 0xFF && g2 == 0xFF
      else g1 != g2 && (near p).contains g1 && (near p).contains g2 && axis g1 == a + 1 && axis g2 == a + 1))

/-- FABRIC_CONFIG (R461): the block read from host memory, none when it cannot be read. -/
def execFabricConfig (t : TenantId) (sq : Nat) (tag : BitVec 32) (block : Option (List (BitVec 8))) (s : State) : Host.Outcome State Fault Refusal :=
  runM (runCmd 0x401 t sq tag block.isSome [] (fun e a m =>
    let b := block.getD []
    if e.v.anyPlan || m.core.anyPlan then refuse 0x101 m
    else if !(fabricOk m.core.fab.cfg.celoth1 b (a.par 16 1)) then refuse 0x401 m
    else { m := m.up (fun c => c.modFab (fun q => { q with cfg := readFabric q.cfg (a.par 16 1) b })) })) s

/-- SLICE_CREATE (08 R287). -/
def execSliceCreate (t : TenantId) (sq : Nat) (tag : BitVec 32) (s : State) : Host.Outcome State Fault Refusal := runM (runStageable 0x402 t sq tag true []) s

/-- SLICE_DELETE (R460). -/
def execSliceDelete (t : TenantId) (sq : Nat) (tag : BitVec 32) (s : State) : Host.Outcome State Fault Refusal := runM (runStageable 0x403 t sq tag true []) s

/-- LINK_ENCRYPT (08 R289): whether the link peer agrees keys. -/
def execLinkEncrypt (t : TenantId) (sq : Nat) (tag : BitVec 32) (agreed : Bool) (s : State) : Host.Outcome State Fault Refusal :=
  runM (runCmd 0x404 t sq tag true [] (fun _ a m =>
    let i := a.par 8 1
    if a.par 9 1 = 1 && !agreed then refuse 0x403 m
    else if a.par 9 1 = 1 then { m := m.up (fun c => c.modPort i (fun q => { q with encWanted := true })) }
    else { m := m.up (fun c => c.modPort i (fun q => { q with encWanted := false, enc := false, newKey := none, rxNew := none, rekeying := false, txCtr := 0 })) })) s

/-! ### Transactions -/

/-- TXN_BEGIN (R462). -/
def execTxnBegin (t : TenantId) (sq : Nat) (tag : BitVec 32) (s : State) : Host.Outcome State Fault Refusal :=
  runM (runCmd 0x701 t sq tag true [] (fun _ a m => txnBegin a m)) s

/-- TXN_COMMIT (R462). -/
def execTxnCommit (t : TenantId) (sq : Nat) (tag : BitVec 32) (s : State) : Host.Outcome State Fault Refusal :=
  runM (runCmd 0x702 t sq tag true [] (fun _ a m => txnCommit a m)) s

/-- TXN_ROLLBACK (R463). -/
def execTxnRollback (t : TenantId) (sq : Nat) (tag : BitVec 32) (s : State) : Host.Outcome State Fault Refusal :=
  runM (runCmd 0x703 t sq tag true [] (fun _ a m => txnRollback a m)) s

/-- TXN_QUERY (R460). -/
def execTxnQuery (t : TenantId) (sq : Nat) (tag : BitVec 32) (s : State) : Host.Outcome State Fault Refusal :=
  runM (runCmd 0x704 t sq tag true [] (fun _ a m => txnQuery a m)) s

/-- TXN_IDLE_TIMEOUT (R463): an open transaction that has been idle is rolled back, unless its commit waits for its edge. -/
def execTxnIdleTimeout (tenant : TenantId) (s : State) : Host.Outcome State Fault Refusal :=
  runC (fun _ _ c =>
    match c.txn? tenant with
    | some x =>
      if x.commit.isSome then c
      else (c.setTxn tenant none).unsolicited tenant.toNat 0xF7 (details [(6, 2, x.id.toNat), (8, 1, x.staged.length)])
    | none => c) s

/-! ### Checkpoints -/

/-- CKPT_TARGET_SET (11 R392): the descriptor read from host memory, none when it cannot be read. -/
def execCkptTargetSet (t : TenantId) (sq : Nat) (tag : BitVec 32) (desc : Option (List (BitVec 8))) (s : State) : Host.Outcome State Fault Refusal :=
  runM (runCmd 0x501 t sq tag desc.isSome [] (fun _ a m => ckptTargetSet a (desc.getD []) m)) s

/-- CKPT_KEY_SET (11 R404). -/
def execCkptKeySet (t : TenantId) (sq : Nat) (tag : BitVec 32) (s : State) : Host.Outcome State Fault Refusal :=
  runM (runCmd 0x502 t sq tag true [] (fun _ a m => ckptKeySet a m)) s

/-- SNAP_SCHEDULE (11 R381): the schedule block read from host memory, none when it cannot be read. -/
def execSnapSchedule (t : TenantId) (sq : Nat) (tag : BitVec 32) (block : Option (List (BitVec 8))) (s : State) : Host.Outcome State Fault Refusal :=
  runM (runStageable 0x503 t sq tag block.isSome (block.getD [])) s

/-- SNAP_NOW (11 R384). -/
def execSnapNow (t : TenantId) (sq : Nat) (tag : BitVec 32) (s : State) : Host.Outcome State Fault Refusal :=
  runM (runCmd 0x504 t sq tag true [] (fun _ a m => snapNow a m)) s

/-- SPOOL_RATE (11 R395). -/
def execSpoolRate (t : TenantId) (sq : Nat) (tag : BitVec 32) (s : State) : Host.Outcome State Fault Refusal :=
  runM (runCmd 0x505 t sq tag true [] (fun _ a m => spoolRate a m)) s

/-- SNAP_ABANDON (11 R405). -/
def execSnapAbandon (t : TenantId) (sq : Nat) (tag : BitVec 32) (s : State) : Host.Outcome State Fault Refusal :=
  runM (runCmd 0x506 t sq tag true [] (fun _ a m => snapAbandon a m)) s

/-- RESTORE (11 R399): the restore buffer, the manifest, and the pieces read; none for what could not be read. -/
def execRestore (t : TenantId) (sq : Nat) (tag : BitVec 32) (buf man : Option (List (BitVec 8))) (reads : Option (List (List (List (BitVec 8))))) (s : State) :
    Host.Outcome State Fault Refusal :=
  runM (runCmd 0x507 t sq tag buf.isSome [] (fun _ a m => restore a (buf.getD []) man reads m)) s

/-- SNAP_QUERY (11 R404). -/
def execSnapQuery (t : TenantId) (sq : Nat) (tag : BitVec 32) (s : State) : Host.Outcome State Fault Refusal :=
  runM (runCmd 0x508 t sq tag true [] (fun _ a m => snapQuery a m)) s

end Sys2Proof.Machine
end

