-- ==== Sys2Proof/Machine/Rebind.lean ====
section
/-!
DEFINITION. Ballast rebinding at a beat edge or at option load (03 R79, 04 R118, 07 R209, R224), with the program regions of a replaced bank (07 R210).
-/

namespace Sys2Proof.Machine

/-- A plan's bindings moved from one unit to another. -/
def Plan.rebind (code die a b : Nat) (p : Plan) : Plan :=
  { p with binds := p.binds.map (fun x => if lsScode x.lsid == code && x.die == die && x.inst == a then { x with inst := b } else x) }

/-- The record of a rebinding, which names both units (06 R187; notes/assumptions/57). -/
def rebindRec (die block a b : Nat) : Rec := { modRec 0x107 2 2 die block a with detail := bytesLE 2 b }

/-- The arrays of die `p` that wait for retirement: all become retired, and then each that was active, in ascending index, is replaced by the lowest ballast
array left (R77, R79). -/
def Core.rebindArrays (p : Nat) (c : Core) : Core :=
  let old := (c.part p).mx
  let out := old.retiring.mergeSort (fun a b => decide (a ≤ b))
  let c0 := c.modMx p (fun q =>
    { q with retiring := [], arrays := out.foldl (fun l a => setAt l a .retired) q.arrays, rowHist := q.rowHist.filter (fun h => !(out.contains h.1.1)) })
  (out.filter (fun a => old.arrays.getD a .retired == .active)).foldl (fun c a =>
    match (List.range 13).find? (fun i => (c.part p).mx.arrays.getD i .retired == .ballast) with
    | none => c
    | some b =>
      ({ (c.modMx p (fun q => { q with arrays := setAt q.arrays b .active })) with plans := c.plans.map (Plan.rebind 1 p a b) }).logRec (rebindRec p 1 a b)) c0

/-- A failed control core of die `p` replaced by the ballast core (04 R118). -/
def Core.rebindCores (p : Nat) (c : Core) : Core :=
  match (c.part p).cores.failing with
  | [] => c
  | k :: _ =>
    let c1 := c.modCores p (fun q => { q with failing := [], ballastFor := some k, failed := q.failed ||| BitVec.ofNat 5 (2 ^ k) })
    let moved := fun (pl : Plan) => pl.ctrl.map (fun x => if x.2 == k && pl.phys (lsDie x.1) == some p then (x.1, 4) else x)
    let c2 : Core := { c1 with plans := c1.plans.map (fun pl => { pl with ctrl := moved pl }) }
    c2.logRec (rebindRec p 8 k 4)

/-- The banks of die `p` that wait are retired, and the first that serves a logical bank is replaced by the ballast bank, every unit of it poisoned; the program
regions are written again, and jobs with station memory on the die replay their step at collective scope (07 R209, R235, R245). -/
def Mach.rebindBanks (p : Nat) (m : Mach) : Mach :=
  let out := (m.core.part p).memp.smRetiring
  let m0 := m.up (fun c => c.modMem p (fun q => { q with smRetiring := [], smRetired := out.foldl (fun r b => r ||| BitVec.ofNat 33 (2 ^ b)) q.smRetired }))
  let mp := (m0.core.part p).memp
  match (if mp.smBallastUsed || mp.smRetired.getLsbD 32 then none else out.head?) with
  | none => if out.isEmpty then m else m0
  | some b =>
    let k := smKey p 32 0
    let m1 := ((m0.write (.zero k (2 ^ 24))).write (.poison (k / 64) (2 ^ 18) true)).up (fun c =>
      (c.modMem p (fun q => { q with smBallastUsed := true, smSubst := BitVec.ofNat 5 b })).wrote k (2 ^ 18))
    let m2 := m1.core.plans.foldl (fun m pl => m.loadPrograms pl p) m1
    m2.up (fun c => c.plans.foldl (fun c pl =>
      if pl.bufs.any (fun x => x.space == 2 && pl.phys x.lpart == some p) then c.modJob pl.handle (Job.unclean causeFault) else c) c)

/-- A channel whose copy is complete replaced by the ballast channel of the stack (07 R224 step 4). -/
def Core.rebindChannel (p : Nat) (c : Core) : Core :=
  let mp := (c.part p).memp
  if mp.migState == 2 then
    (c.logRec (modRec 0x406 2 1 (0x30 + p) 0x0B mp.migSrc.toNat)).modMem p (fun q =>
      { q with migState := 0, chRetiring := none, ballastLeft := false, chRetired := q.chRetired ||| BitVec.ofNat 32 (2 ^ q.migSrc.toNat),
               chMap := q.chMap.map (fun x => if x == q.migSrc.toNat then q.ballastCh.toNat else x) })
  else c

/-- Every rebinding that is due on a partition: at a beat edge (06 Table 06-2 step 3), or at the option load of a reset that reaches it (03 R79). -/
def Mach.rebindPart (p : Nat) (m : Mach) : Mach :=
  (m.up (fun c => ((c.rebindArrays p).rebindCores p).rebindChannel p)).rebindBanks p

/-- Every rebinding that is due. -/
def Mach.rebindAll (m : Mach) : Mach := (List.range 8).foldl (fun m p => m.rebindPart p) m

/-- The copy of a channel whose retirement a reset interrupted begins again (07 R224, 12 R423; notes/assumptions/109). -/
def Core.resumeCopy (p : Nat) (c : Core) : Core :=
  match (c.part p).memp.chRetiring with
  | some ch => if (c.part p).memp.migState == 0 then c.modMem p (fun q => { q with migState := 1, migSrc := BitVec.ofNat 5 ch, migAt := c.clk.count }) else c
  | none => c

end Sys2Proof.Machine
end

