-- ==== Sys2Proof/Machine/Resets.lean ====
section
/-!
DEFINITION. Reset, hang capture and escalation (14_reset_and_recovery.md): what each reach clears, the combining of sources, the sequences, partition, tenant
and port resets, captures, suspect replay and escalation.
-/

namespace Sys2Proof.Machine

/-- The reset controller changed. -/
def Core.modRst (f : Rst → Rst) (c : Core) : Core := { c with rst := f c.rst }

/-! ### What each reach clears (Table 14-2) -/

/-- Extents of a stack that can be leased (07 R217). -/
def Ident.leasableExt (i : Ident) : Nat := 988 - i.hamperExt - i.mirrorExt - i.snapExt

/-- A partition's part under a reset that reaches it: units keep their maps and histories, error counts of R85 and R247 stay. A migration under way is over; the
retirement it serves stands, and its copy starts again at Ready (12 R423; notes/assumptions/109). -/
def Part.cleared (q : Part) : Part :=
  { q with
    mx := { q.mx with acc := [], abuf := [], bbuf := [], vbuf := [], vflags := [], busy := [], lastGrant := none }
    streams := { chans := q.streams.chans.map (fun e => (e.1, { e.2 with tokens := [], poisonSeen := false, fullHold := false, emptyHold := false })) }
    slots := {}
    memp := { q.memp with migState := 0, migSrc := 0 }
    cores := { q.cores with lines := [], ilines := [], l2 := [], reserved := [], mail := [] } }

/-- What a partition's part keeps in flash through a cold reset (15 Table 15-11). -/
def Part.flash (q : Part) : Part :=
  { mx := { arrays := q.mx.arrays, retiring := q.mx.retiring }
    memp :=
      { smRetired := q.memp.smRetired, smBallastUsed := q.memp.smBallastUsed, smSubst := q.memp.smSubst, smRetiring := q.memp.smRetiring,
        granOut := q.memp.granOut, chMap := q.memp.chMap, chRetired := q.memp.chRetired, ballastCh := q.memp.ballastCh, ballastLeft := q.memp.ballastLeft,
        migState := if q.memp.chRetiring.isNone then 0 else 2, migSrc := BitVec.ofNat 5 (q.memp.chRetiring.getD 0), chRetiring := q.memp.chRetiring }
    cores := { failed := q.cores.failed, ballastFor := q.cores.ballastFor, failing := q.cores.failing }
    outOfService := q.outOfService }

/-- Bytes and poison of a range of the store cleared. -/
def Mach.wipe (k n : Nat) (m : Mach) : Mach := (m.write (.zero k n)).write (.poison (k / 64) (n / 64) false)

/-- Compute die, Commons half and control state of partition `p` cleared. -/
def Mach.clearPart (p : Nat) (m : Mach) : Mach :=
  ((m.wipe (smKey p 0 0) (33 * 2 ^ 24)).wipe (cmKey p 0 0) (48 * 2 ^ 24)).up (fun c =>
    let c1 := c.modPart p Part.cleared
    { c1 with
      commonsLines := c1.commonsLines.filter (fun e => !(e.1.2 == p / 2))
      fab := { c1.fab with remote := c1.fab.remote.filter (fun r => !(r.part == p)) } })

/-- The core after a cold reset: what flash and the reset controller hold is kept. -/
def Core.coldClear (c : Core) : Core :=
  let gone := (List.range 8).filter (fun p => (c.part p).outOfService)
  { ident := { c.ident with dedicated := none }
    parts := c.parts.map Part.flash
    log := { history := c.log.history }
    health :=
      { temps := c.health.temps, volts := c.health.volts, aging := c.health.aging, pkg := c.health.pkg }
    fab := { cfg := { position := c.fab.cfg.position, celoth1 := c.fab.cfg.celoth1 } }
    led := { failed := c.led.failed }
    spool := { keys := c.spool.keys }
    rst := { c.rst with
      warmTimes := [], partTimes := [], hangs := [], newest := [], parts := [], capturing := [], moduleOut := false, outActed := false, delayed := none,
      mustPass := c.rst.mustPass || c.rst.moduleOut, partCold := gone, capSel := 0 }
    nonce := c.nonce
    out := c.out }

/-- A job through a module warm reset: its verdict is unclean with cause fault, and it is held until it rejoins (Table 14-2). -/
def Job.stopped (j : Job) : Job :=
  if j.phase == .running || j.phase == .localReplay || j.phase == .idle then
    { j.unclean causeFault with holds := [{ lsid := 0, cause := .rollback, instr := none }], posts := [], replay := none, checks := [] }
  else j

/-- A link die's counts kept through a module warm reset (09 R336, R338). -/
def LinkDie.warm (l : LinkDie) : LinkDie :=
  { issued := l.issued, received := l.received, ignored := l.ignored, lastCause := l.lastCause, epochDrops := l.epochDrops }

/-- The core after a module warm reset. -/
def Core.warmClear (c : Core) : Core :=
  { c with
    clk := { c.clk with latch := none }
    parts := c.parts.map Part.cleared
    csSlots := List.replicate 64 ([0, 0, 0, 0], 0xF)
    jobs := c.jobs.map Job.stopped
    commonsLines := []
    tens := c.tens.map (fun e => (e.1, { enabled := e.2.enabled }))
    accepted := []
    resetReplies := []
    health := { c.health with monSel := 0, eventEn := 0, run := none, retests := [], warmAtEdge := false }
    fab := { c.fab with
      ports := c.fab.ports.map (fun q => { q.fresh with theta := 0 }), lds := c.fab.lds.map LinkDie.warm, opens := [], remote := [], kite := [], kiteSeq := [], kiteQueue := [],
      colls := [], aborted := [], peers := [], unreach := [], syncState := 0, lostSeen := false, xidNext := 0 }
    led := { c.led with inXfer := [], outXfer := [], jobSel := [0, 0], highWater := [0, 0] }
    spool := { c.spool with
      rate := 25, lastSeq := 0, io := [], restores := [], lbas := 0, lbasOvf := false
      targets := c.spool.targets.map (fun e => (e.1, { e.2 with connected := false, waiting := none })) }
    rst := { c.rst with parts := [], capturing := [], delayed := none, capSel := 0 } }

/-- The machine under a module reset of a reach (1 cold, 2 module warm). -/
def Mach.clearModule (reach : Nat) (m : Mach) : Mach :=
  let m1 := ((m.wipe 0 (8 * 33 * 2 ^ 24)).wipe (2 ^ 40) (8 * 48 * 2 ^ 24))
  if reach = 1 then (m1.wipe (2 ^ 41) (2 ^ 39)).up Core.coldClear else m1.up Core.warmClear

/-! ### Captures in memory (R490) -/

/-- The key of a capture slot: the first bytes of the module reserved area (notes/assumptions/55). -/
def capKey (p slot : Nat) : Nat := hbmKey p (988 * 2 ^ 26 + slot * 2 ^ 23)

/-- The capture header (Table 14-8). -/
def HangRun.header (h : HangRun) : List Byte :=
  let b := padTo 252 (bytesLE 4 0x50414348 ++ bytesLE 2 1 ++ bytesLE 1 h.part ++ bytesLE 1 h.cause ++ bytesLE 8 h.time.toNat ++ bytesLE 2 h.capUs ++
    bytesLE 1 (boolNat h.valid) ++ bytesLE 1 (min h.suspects.length 32) ++ bytesLE 1 h.outcome ++ bytesLE 1 h.guilty)
  b ++ bytesLE 4 (crc32c b)

/-- A suspect entry (Table 14-9). -/
def Suspect.bytes (s : Suspect) : List Byte :=
  padTo 32 (bytesLE 2 s.plan ++ [s.tenant] ++ bytesLE 1 (boolNat s.held) ++ bytesLE 5 s.step.toNat ++ bytesLE 2 s.beat ++ [0] ++ bytesLE 4 s.cycle ++ bytesLE 1 s.result)

/-- The suspects that have an entry: with more than 32, the held job and the 31 others of lowest plan handle (R491). -/
def HangRun.listed (h : HangRun) : List Suspect :=
  if h.suspects.length ≤ 32 then h.suspects
  else
    let others := (h.suspects.filter (fun s => !s.held)).take 31
    h.suspects.filter (fun s => s.held || others.contains s)

/-- Header and suspect entries of a capture written. -/
def Mach.writeHead (h : HangRun) (m : Mach) : Mach :=
  let k := capKey h.part h.slot
  (m.store k { h with suspects := h.listed }.header).store (k + 0x100) (padTo 1024 (h.listed.flatMap Suspect.bytes))

/-- The state of a stream channel as PART_STREAM_STATE shows it (04 Table 04-20). -/
def ChanSt.word (s : ChanSt) : BitVec 64 :=
  BitVec.ofNat 64 (place s.depth.toNat 56 8 + place s.tokens.length 48 8 + place s.producer.toNat 32 16 + place s.consumer.toNat 16 16 +
    place (boolNat s.poisonSeen) 2 1 + place (boolNat s.fullHold) 1 1 + boolNat s.emptyHold)

/-- The 64 bytes of a slot table entry (06 Table 06-4). An entry that no longer passes its check reads with an ECRC that does not match. -/
def SlotEntry.bytes (e : SlotEntry) : List Byte :=
  let b := padTo 60 (e.owner ++ bytesLE 5 e.vacant.toNat ++ bytesLE 5 e.lent.toNat)
  b ++ bytesLE 4 (if e.bad then (~~~crc32c b : BitVec 32) else BitVec.ofNat 32 (crc32c b)).toNat

/-- The number of a hold cause in a capture (notes/assumptions/55). -/
def HoldCause.num : HoldCause → Nat
  | .operand => 1 | .gather => 2 | .chanEmpty => 3 | .chanFull => 4 | .descriptor => 5 | .slot => 6 | .grant => 7 | .nextHeld => 8 | .replay => 9 | .rollback => 10 | .behind => 11

/-- A station record of a capture: LSID, tenant, state (1 held), ISSUE, cycles run, hold cause (Table 14-7; places: notes/assumptions/55). -/
def Core.stationRec (c : Core) (p i : Nat) : List Byte :=
  let x := stationAt i
  let found := c.plans.findSome? (fun pl => (pl.binds.find? (fun b => lsScode b.lsid == x.1 && b.die == p && b.inst == x.2)).map (fun b => (pl, b)))
  match found with
  | none => List.replicate 64 0
  | some (pl, b) =>
    match c.job? pl.handle with
    | none => padTo 64 (bytesLE 2 b.lsid.toNat ++ [pl.tenant])
    | some j =>
      let h := j.holds.find? (fun q => q.lsid == b.lsid)
      padTo 64 (bytesLE 2 b.lsid.toNat ++ [pl.tenant] ++ bytesLE 1 (boolNat h.isSome) ++ bytesLE 4 j.sched ++ bytesLE 4 j.runEnd ++
        bytesLE 1 (match h with | some q => q.cause.num | none => 0))

/-- The number of a queue kind. -/
def QKind.num : QKind → Nat
  | .sq => 1 | .cq => 2 | .rq => 3

/-- The sections of a capture as (offset, bytes) (Table 14-7); what is not listed is 0. -/
def Core.capSections (c : Core) (h : HangRun) : List (Nat × List Byte) :=
  let q := c.part h.part
  let chans := q.streams.chans.map (fun e =>
    (0x2000 + 16 * e.1, bytesLE 8 e.2.word.toNat ++ bytesLE 8 (match e.2.tokens with | t :: _ => tokenBits t | [] => 0)))
  let descs := q.streams.descs.map (fun d => (0x12000 + 32 * (16 * d.1.1 + d.1.2), bytesLE 32 d.2.toNat))
  let fences := q.streams.fences.map (fun f =>
    (0x32000 + 64 * f.1, padTo 64 ([f.2.tenant, BitVec.ofNat 8 (boolNat f.2.stale), 0, 0] ++ bytesLE 4 f.2.dstUnits ++ bytesLE 8 f.2.dstAddr ++ bytesLE 8 f.2.refSum.toNat)))
  let slots := q.slots.table.mapIdx (fun i e => (0x33000 + 64 * i, e.bytes))
  let cores := q.cores.reserved.map (fun r => (0x34000 + 8192 * r.1, [BitVec.ofNat 8 1, r.2.1] ++ bytesLE 8 r.2.2))
  let mail := q.cores.mail.map (fun b => (0x34000 + 8192 * b.core + 64 + 16 * b.index, bytesLE 2 b.plan ++ [BitVec.ofNat 8 (boolNat b.go), 0] ++ bytesLE 4 b.addr.toNat))
  let tens := (h.listed.map (fun s => s.tenant)).eraseDups.mapIdx (fun i t =>
    (c.ten t.toNat).queues.map (fun x => (0x40000 + 16384 * i + 16 * x.1,
      bytesLE 1 x.2.kind.num ++ bytesLE 1 (boolNat x.2.err) ++ bytesLE 2 x.2.reserved ++ bytesLE 4 x.2.head ++ bytesLE 4 x.2.tail)))
  let l2 := q.cores.l2.mapIdx (fun i l => (0x100000 + 64 * i, padTo 64 l.bytes))
  ((List.range 35).map (fun i => (0x1000 + 64 * i, c.stationRec h.part i))) ++ chans ++ descs ++ fences ++ slots ++ cores ++ mail ++ tens.flatten ++ l2

/-- A capture written into its slot, all of whose units are written (07 R235). -/
def Mach.writeCapture (h : HangRun) (m : Mach) : Mach :=
  let k := capKey h.part h.slot
  let m1 := (m.wipe k (2 ^ 23)).up (Core.wrote k (2 ^ 17))
  ((m.core.capSections h).foldl (fun m s => m.write (.bytes (k + s.1) s.2)) m1).writeHead h

/-! ### Module episodes (R481) -/

/-- Whether a module-reach level source is asserted. -/
def Rst.level (r : Rst) : Bool := r.pgLow || r.pwrOkLow || r.resetLow || r.perstLow

/-- The wider of two reaches: cold, then module warm. -/
def wider (a b : Nat) : Nat := if a = 1 || b = 1 then 1 else max a b

/-- Hangs that a module episode takes over end escalated (Table 14-8). -/
def Mach.endHangs (m : Mach) : Mach :=
  (m.core.rst.hangs.foldl (fun m h => m.writeHead { h with outcome := 3 }) m).up (Core.modRst (fun r => { r with hangs := [] }))

/-- A module-reach source asserts: bit `bit` of SOURCES, its reach, and for an escalation its cause (R481 rules 1 to 5). -/
def Mach.moduleSource (bit reach cause : Nat) (m : Mach) : Mach :=
  let r := m.core.rst
  let fresh := r.phase == 6
  let latched := if fresh then reach else wider r.latched reach
  let src := (if fresh then 0 else r.sources) ||| BitVec.ofNat 8 (2 ^ bit) ||| (if inRange r.phase 1 5 then 1 else 0)
  (m.endHangs.clearModule reach).up (Core.modRst (fun r =>
    { r with phase := 0, latched := latched, sources := src, recovery := false,
             escCause := if cause ≠ 0 then BitVec.ofNat 8 cause else if fresh then 0 else r.escCause }))

/-- The sequence of the latched reach starts when no level source is asserted (R481 rule 4). -/
def Core.startSeq (c : Core) : Core := if c.rst.level then c else c.modRst (fun r => { r with phase := 1, release := c.clk.count })

/-- A level source asserts. -/
def Mach.levelAssert (bit reach : Nat) (low : Rst → Bool) (set : Rst → Rst) (m : Mach) : Mach :=
  if low m.core.rst then m else (m.moduleSource bit reach 0).up (Core.modRst set)

/-- A level source releases. -/
def Mach.levelRelease (low : Rst → Bool) (clear : Rst → Rst) (m : Mach) : Mach :=
  if low m.core.rst then (m.up (Core.modRst clear)).up Core.startSeq else m

/-- An event of module warm reach (R476). -/
def Mach.warmEvent (bit cause : Nat) (m : Mach) : Mach := (m.moduleSource bit 2 cause).up Core.startSeq

/-- A counted module warm reset (R492): the second within an hour puts the module out of service. -/
def Mach.countedWarm (bit cause : Nat) (m : Mach) : Mach :=
  let now := m.core.clk.count
  let kept := m.core.rst.warmTimes.filter (fun t => withinTicks now t hour)
  (m.warmEvent bit cause).up (Core.modRst (fun r => { r with warmTimes := kept ++ [now], moduleOut := r.moduleOut || !kept.isEmpty }))

/-- RESET_N_ASSERT (R476). -/
def execResetNAssert (s : State) : Host.Outcome State Fault Refusal :=
  runM (Mach.levelAssert 5 2 (fun r => r.resetLow) (fun r => { r with resetLow := true })) s

/-- RESET_N_RELEASE (R481). -/
def execResetNRelease (s : State) : Host.Outcome State Fault Refusal :=
  runM (Mach.levelRelease (fun r => r.resetLow) (fun r => { r with resetLow := false })) s

/-- PERST_ASSERT (R476). -/
def execPerstAssert (s : State) : Host.Outcome State Fault Refusal :=
  runM (Mach.levelAssert 4 2 (fun r => r.perstLow) (fun r => { r with perstLow := true })) s

/-- PERST_RELEASE (R481). -/
def execPerstRelease (s : State) : Host.Outcome State Fault Refusal :=
  runM (Mach.levelRelease (fun r => r.perstLow) (fun r => { r with perstLow := false })) s

/-! ### Rollbacks that a reset starts (R484, R485) -/

/-- A rollback to the seal of step `l` named for the first edge at least 10 ms away, with its notice to every module of the job (R485, 15 R510). -/
def Core.noticeRollback (h : Nat) (l : StepNo) (c : Core) : Core :=
  let edge := c.edgeAfter (c.clk.count.toNat + 10000000)
  (c.emit (.vc7 0xFFFF 14 [h, l.toNat, edge.toNat])).modJob h (Job.nameRollback edge l)

/-- A job stops for a partition reset: its verdict is unclean with cause fault, nothing more of it issues, and it rolls back to the last mirrored step. -/
def Core.partStop (h : Nat) (c : Core) : Core :=
  match c.job? h with
  | none => c
  | some j =>
    if j.phase == .running || j.phase == .localReplay || j.phase == .idle then
      (c.modJob h Job.stopped).noticeRollback h j.lastMirrored
    else if j.phase == .rollbackWait then c.noticeRollback h j.lastMirrored
    else c

/-- A partition's sequence begins (R484): discarded in a module episode and while one of the partition runs (R481, R482). `counted` says that it counts toward
escalation. -/
def Mach.partReset (p : Nat) (counted : Bool) (m : Mach) : Mach :=
  let r := m.core.rst
  if r.phase != 6 || r.parts.contains p || 8 ≤ p then m
  else
    let hs := (m.core.jobs.filter (m.core.usesPart p)).map (fun j => j.plan)
    let now := m.core.clk.count
    (hs.foldl (fun m h => m.up (Core.partStop h)) (m.clearPart p)).up (Core.modRst (fun r =>
      { r with parts := insertRising p r.parts, capturing := r.capturing.filter (fun q => !(q == p)),
               partTimes := if counted then r.partTimes ++ [(p, now)] else r.partTimes }))

/-- An uncorrectable error in control state contained (12 Table 12-7): `some p` in the control state of partition p, none in module-wide control state. -/
def Mach.contain (part : Option Nat) (m : Mach) : Mach :=
  if m.core.rst.phase != 6 then m
  else
    match part with
    | none => m.countedWarm 1 1
    | some p => if m.core.ident.dedicated.isSome then m.countedWarm 1 2 else m.partReset p true

/-- PARTITION_RESET (R484): a reset by containment, of the partition whose control state is in error, or of the module where the error is module-wide. -/
def execPartitionReset (part : Option Nat) (s : State) : Host.Outcome State Fault Refusal := runM (Mach.contain part) s

/-- PARTITION_SEQUENCE_TIMEOUT (R492): a partition sequence that is not at Ready within 1 s escalates. -/
def execPartitionSequenceTimeout (part : Nat) (s : State) : Host.Outcome State Fault Refusal :=
  runM (fun m => if m.core.rst.parts.contains part then m.countedWarm 2 4 else m) s

/-! ### Hangs (R489 to R491) -/

/-- The suspects of a hang on a partition: the jobs that own or borrow a slot of its stations or run there, in ascending plan handle. -/
def Core.suspects (c : Core) (p held : Nat) : List Suspect :=
  let ps := (c.plans.filter (fun q => q.physParts.contains p && c.launched q && !q.fillStopped)).mergeSort (fun a b => decide (a.handle ≤ b.handle))
  ps.filterMap (fun q => (c.job? q.handle).bind (fun j =>
    if j.phase == .running || j.phase == .localReplay || j.phase == .idle || j.phase == .rollbackWait then
      some { plan := q.handle, tenant := q.tenant, held := q.handle == held, step := j.step, beat := j.beat, cycle := j.sched }
    else none))

/-- A capture of a partition starts (R490), into the slot that does not hold the newest one. -/
def Core.startCapture (p cause held : Nat) (outcome guilty : Nat) (ss : List Suspect) (c : Core) : Core :=
  if c.rst.phase != 6 || c.rst.parts.contains p || c.rst.capturing.contains p then c
  else
    let slot := match lookup? p c.rst.newest with | some s => 1 - s | none => 0
    c.modRst (fun r =>
      { r with capturing := insertRising p r.capturing,
               hangs := r.hangs ++ [{ part := p, cause := cause, slot := slot, time := c.clk.count, plan := held, suspects := ss, outcome := outcome, guilty := guilty }] })

/-- The hang whose suspect replay a plan is running, and the suspect's index. -/
def Core.replaying (c : Core) (h : Nat) : Option (HangRun × Nat) :=
  c.rst.hangs.findSome? (fun r => match r.released with
    | some i => if r.outcome == 0 && (r.suspects[i]?).any (fun s => s.plan == h) then some (r, i) else none
    | none => none)

/-- Whether a job is a suspect that waits for its replay (R491). -/
def Core.suspectHeld (c : Core) (h : Nat) : Bool :=
  c.rst.hangs.any (fun r => r.outcome == 0 && (List.range r.suspects.length).any (fun i =>
    (r.suspects[i]?).any (fun s => s.plan == h && s.result == 0) && r.released != some i))

/-- A guilty job stops on every module (R491, 12 R420): the abort notice, and JOB_STOPPED. -/
def Core.stopGuilty (h : Nat) (c : Core) : Core :=
  match c.job? h with
  | none => c
  | some j => ((c.emit (.vc7 0xFFFF 4 [h])).abortNotice h).jobStopped j 4

/-- A hang of a job on the partitions where it has a station, by cause (R489): a capture of each, and for a suspect that hangs again in its own replay the end
of that replay. -/
def Mach.hang (h cause : Nat) (ps : List Nat) (m : Mach) : Mach :=
  match m.core.replaying h with
  | some (r, i) =>
    let ss := r.suspects.mapIdx (fun k s => if k = i then { s with result := 2 } else if k > i then { s with result := 3 } else s)
    let done : HangRun := { r with suspects := ss, outcome := 1, guilty := i }
    let m1 := (m.writeHead done).up (Core.modRst (fun q => { q with hangs := q.hangs.filter (fun x => !(x == r)) }))
    (ps.foldl (fun m p => m.up (Core.startCapture p cause h 1 i ss)) m1).up (Core.stopGuilty h)
  | none => ps.foldl (fun m p => m.up (fun c => c.startCapture p cause h 0 0xFF (c.suspects p h))) m

/-- A failed attempt that a hang on a remote producer makes (R489): it counts toward the escalation of 10 R364. -/
def Core.remoteHang (h : Nat) (c : Core) : Core :=
  match c.job? h with
  | none => c
  | some j =>
    let t := j.tryOf (j.lastSealed + 1)
    let t1 := { t with failed := t.failed + 1, own := t.own + 1 }
    let c1 := (c.modJob h (fun j => (j.unclean causeFault).putTry t1)).noticeRollback h j.lastSealed
    if 7 ≤ t.attempt then (c1.logRec (jobRec j (modRec 0x606 2 3 0x28 0x0F 0))).modJob h (fun j => { j with abort := true })
    else if t1.failed == 3 && 2 ≤ t1.own then
      let c2 := c1.memberFailed h
      { c2 with led := { c2.led with escalated := satInc c2.led.escalated } }
    else c1

/-- A job has been held past HOLD_LIMIT (R489): `remote` says that the channel it waits on is fed by another module. -/
def holdLimit (h : Nat) (remote : Bool) (m : Mach) : Mach :=
  match m.core.job? h, m.core.plan? h with
  | some j, some p =>
    if !(j.phase == .running || j.phase == .localReplay) || j.holds.isEmpty || j.holdBeats ≤ p.hdr.holdLimit || j.rollback.isSome then m
    else if remote && j.holds.any (fun q => q.cause == .chanEmpty) then m.up (Core.remoteHang h)
    else m.hang h 1 p.physParts
  | _, _ => m

/-- HOLD_LIMIT_REACHED (R489): the plan, and whether the job waits on a remote producer. -/
def execHoldLimitReached (plan : Nat) (remote : Bool) (s : State) : Host.Outcome State Fault Refusal := runM (holdLimit plan remote) s

/-- An instruction of a station has not completed 65,536 cycles after its fixed completion (R489). -/
def overrun (h : Nat) (lsid : Lsid) (m : Mach) : Mach :=
  match m.core.plan? h with
  | none => m
  | some p =>
    match p.bindOf lsid with
    | none => m
    | some b =>
      if m.core.rst.phase != 6 then m
      else if lsScode lsid = 6 then m.countedWarm 2 3
      else m.hang h 2 [b.die]

/-- ENGINE_OVERRUN (R489): the plan and the station. -/
def execEngineOverrun (plan : Nat) (lsid : Lsid) (s : State) : Host.Outcome State Fault Refusal := runM (overrun plan lsid) s

/-- A capture ends (R490): whole, after `us` microseconds, or abandoned; the partition reset goes ahead, counted unless it was commanded. -/
def captureEnd (p us : Nat) (valid : Bool) (m : Mach) : Mach :=
  match m.core.rst.hangs.find? (fun h => h.part == p && m.core.rst.capturing.contains p && h.released.isNone && h.capUs == 0 && !h.valid) with
  | none => m
  | some h =>
    let h1 : HangRun := { h with capUs := us, valid := valid }
    let m1 := if valid then m.writeCapture h1 else m.writeHead h1
    let m2 := m1.up (Core.modRst (fun r => { r with hangs := r.hangs.map (fun x => if x == h then h1 else x), newest := insertKey p h.slot r.newest }))
    m2.partReset p (h.cause != 3)

/-- CAPTURE_DONE (R490): the partition, and the capture's duration in µs. -/
def execCaptureDone (part us : Nat) (s : State) : Host.Outcome State Fault Refusal := runM (captureEnd part (max us 1) true) s

/-- CAPTURE_TIMEOUT (R490). -/
def execCaptureTimeout (part : Nat) (s : State) : Host.Outcome State Fault Refusal := runM (captureEnd part 2000 false) s

/-- The next suspect of a hang released, or the replay over with none guilty (R491). -/
def HangRun.next (h : HangRun) (i : Nat) : HangRun := if i < h.suspects.length then { h with released := some i } else { h with released := none, outcome := 2 }

/-- Whether a suspect has completed the job beat after the beat of detection. -/
def Suspect.passed (s : Suspect) (p : Plan) (j : Job) : Bool :=
  decide (s.beat + 2 ≤ (j.step - s.step).toNat % 2 ^ 39 * p.hdr.stepBeats + j.beat) && j.phase == .running

/-- A released suspect has passed (R491). -/
def suspectPass (p : Nat) (m : Mach) : Mach :=
  match m.core.rst.hangs.find? (fun h => h.part == p && h.outcome == 0 && h.released.isSome) with
  | none => m
  | some h =>
    let i := h.released.getD 0
    match (h.suspects[i]?).bind (fun s => (m.core.plan? s.plan).bind (fun q => (m.core.job? s.plan).bind (fun j => if s.passed q j then some s else none))) with
    | none => m
    | some _ =>
      let h1 := ({ h with suspects := modAt h.suspects i (fun s => { s with result := 1 }) } : HangRun).next (i + 1)
      (m.writeHead h1).up (Core.modRst (fun r => { r with hangs := if h1.outcome = 0 then r.hangs.map (fun x => if x == h then h1 else x) else r.hangs.filter (fun x => !(x == h)) }))

/-- SUSPECT_REPLAY_PASS (R491): the partition whose hang it is. -/
def execSuspectReplayPass (part : Nat) (s : State) : Host.Outcome State Fault Refusal := runM (suspectPass part) s

/-! ### Tenant and port resets (R486, R487) -/

/-- A started command whose reply is written nowhere: it keeps its course and names no queue. -/
def Accepted.orphan (t : TenantId) (a : Accepted) : Accepted := if a.tenant == t then { a with cq := 1024 } else a

/-- A tenant reset (R486). -/
def Core.tenantReset (t : TenantId) (c : Core) : Core :=
  let x := c.ten t.toNat
  let txn := x.txn.bind (fun y => if y.commit.isSome then some { y with reply := none } else none)
  { c with
    tens := insertKey t.toNat { enabled := x.enabled, txn := txn, nextTxn := x.nextTxn } c.tens
    accepted := (c.accepted.filter (fun a => !(a.tenant == t && !a.started))).map (Accepted.orphan t)
    resetReplies := c.resetReplies.map (fun e => (e.1, e.2.orphan t))
    plans := c.plans.map (fun p => if p.tenant == t then { p with rq := none } else p)
    spool := { c.spool with
      restores := c.spool.restores.map (fun r => { r with reply := r.reply.orphan t })
      targets := c.spool.targets.map (fun e => (e.1, { e.2 with waiting := e.2.waiting.map (Accepted.orphan t) })) } }

/-- A function-level reset (R486): function 0 is the physical function and reaches every tenant. -/
def functionReset (f : Nat) (c : Core) : Core :=
  if c.rst.phase != 6 then c
  else if f = 0 then (c.tens.map Prod.fst).foldl (fun c t => c.tenantReset (BitVec.ofNat 8 t)) c
  else c.tenantReset (BitVec.ofNat 8 f)

/-- FUNCTION_LEVEL_RESET (R486): the function, 0 for the physical one, t for the virtual function of tenant t. -/
def execFunctionLevelReset (function : BitVec 8) (s : State) : Host.Outcome State Fault Refusal := runC (fun _ _ c => functionReset function.toNat c) s

/-- A port reset (R487): the replay buffer is discarded, as R267 gives for a port that carried frames, and the port trains afresh. -/
def Core.portReset (i : Nat) (c : Core) : Core :=
  let pt := c.port i
  let c1 := if pt.usable || !pt.held.isEmpty || !pt.waiting.isEmpty then c.failPort i else c
  c1.modPort i Port.fresh

/-- A storage port reset (R487): every connection on it is lost and established again (11 R394). -/
def Core.storageReset (i : Nat) (c : Core) : Core :=
  (c.spool.targets.filter (fun e => e.2.port == i)).foldl (fun c e => connectionLost e.1.1 e.1.2 c) c

/-! ### The RESET command (R488) -/

/-- RESET evaluated. -/
def resetCmd (a : Accepted) (m : Mach) : CmdOut :=
  let now := details [(8, 8, m.core.clk.count.toNat)]
  match a.par 8 1 with
  | 0 => { m := m.up (Core.modRst (fun r => { r with delayed := some none })) }
  | 1 =>
    let p := a.par 9 1
    let m1 := m.up (fun c => { c with resetReplies := c.resetReplies ++ [(p, a)] })
    if bitOf (a.par 10 1) 0 then { wait := true, m := m1.up (Core.startCapture p 3 0 4 0xFF []) } else { wait := true, m := m1.partReset p false }
  | 2 => if a.par 9 1 < 16 then { detail := now, m := m.up (Core.portReset (a.par 9 1)) } else { detail := now, m := m.up (Core.storageReset (a.par 9 1 - 16)) }
  | _ => if a.target == 0 then { m := m.up (Core.modRst (fun r => { r with delayed := some (some 0) })) } else { detail := now, m := m.up (Core.tenantReset a.target) }

/-- RESET (R488). -/
def execReset (t : TenantId) (sq : Nat) (tag : BitVec 32) (s : State) : Host.Outcome State Fault Refusal :=
  runM (runCmd 0x108 t sq tag true [] (fun _ a m => resetCmd a m)) s

/-- RESET_START_DELAY (R488): 1 ms after its reply the commanded reset starts. -/
def execResetStartDelay (s : State) : Host.Outcome State Fault Refusal :=
  runM (fun m =>
    match m.core.rst.delayed with
    | none => m
    | some none => (m.up (Core.modRst (fun r => { r with delayed := none }))).warmEvent 3 0
    | some (some t) => m.up (fun c => (c.tenantReset t).modRst (fun r => { r with delayed := none }))) s

/-! ### Sequences (R478 to R480, 15 R515, R516) -/

/-- Whether a firmware image is valid. -/
def Ident.imageOk (i : Ident) (n : Nat) : Bool := let f := i.images.getD n {}; f.valid && decide (i.fwSec.toNat ≤ f.sec.toNat)

/-- Firmware boot (15 R516): the image that FW_ACTIVATE selects, else the other with FW_FALLBACK, else recovery. -/
def Core.bootFw (c : Core) : Core :=
  let i := c.ident
  let run := fun (n : Nat) (c : Core) =>
    let f := c.ident.images.getD n {}
    { c with ident := { c.ident with fwRun := n, fwMajor := f.major, fwMinor := f.minor } }
  if i.imageOk i.fwBoot then run i.fwBoot c
  else
    let c1 := c.logRec { modRec 0x70D 4 2 0x20 0 0 with detail := bytesLE 1 i.fwBoot }
    if i.imageOk (1 - i.fwBoot) then run (1 - i.fwBoot) c1
    else (c1.modRst (fun r => { r with recovery := true, faultN := true })).emit (.pin "FAULT_N" true)

/-- A phase completes (R478): the option load of a cold sequence reads the straps (15 R513; POS0 to POS5 and C1_MODE, which selects Celoth-1 mode when low), the
fourth phase leads to firmware boot, and the fifth ends with RESET_READY. -/
def phaseDone (straps : BitVec 7) (c : Core) : Core :=
  if inRange c.rst.phase 1 4 then
    let c0 := if c.rst.phase = 2 && c.rst.latched = 1 then
        { c with fab := { c.fab with cfg := { c.fab.cfg with position := straps.toNat % 64, celoth1 := !(straps.getLsbD 6) } } }
      else c
    let c1 := c0.modRst (fun r => { r with phase := r.phase + 1 })
    if c1.rst.phase = 5 then c1.bootFw else c1
  else c

/-- A trip that Volez finds when it boots, entered into the log and the fault history (15 R507). -/
def Core.tripRecord (p : Power) (c : Core) : Core :=
  if p.tripNew != 0 && c.rst.phase == 5 && !c.rst.recovery then c.logRec { modRec 0x70C 2 3 0x20 0 0 with detail := bytesLE 1 p.tripNew.toNat } else c

/-- RESET_PHASE_DONE (R478): with what the straps read. -/
def execResetPhaseDone (straps : BitVec 7) (s : State) : Host.Outcome State Fault Refusal :=
  runP (fun c p => if c.rst.phase == 4 && (c.ident.imageOk 0 || c.ident.imageOk 1) then { p with tripNew := 0 } else p)
    (fun old m => m.up (fun c => if c.rst.phase = 4 then (phaseDone straps c).tripRecord old else phaseDone straps c)) s

/-- Firmware that first reaches Ready with a security version above the fused one raises it (15 R515). -/
def Ident.fuse (i : Ident) : Ident := let f := i.images.getD i.fwRun {}; if i.fwSec.toNat < f.sec.toNat then { i with fwSec := f.sec } else i

/-- A job at Ready after a module warm reset (R480): it rolls back to its seal and rejoins, and an unmirrored seal is mirrored again. -/
def Mach.rejoin (h : Nat) (m : Mach) : Mach :=
  match m.core.job? h with
  | none => m
  | some j =>
    let due := j.phase == .running || j.phase == .localReplay || j.phase == .idle || (j.phase == .launching && decide (j.lc.toNat < m.core.clk.count.toNat))
    let l := match j.rollback with | some (_, l) => l | none => j.lastSealed
    let m1 := if due then m.rollbackStart h l else m.up (fun c => c.modJob h (fun j => { j with resumeAt := none }))
    match m1.core.job? h, m1.core.plan? h with
    | some k, some p => if k.sealedValid && !k.mirrored && k.phase == .rollbackWait then m1.mirrorStep p k k.lastSealed else m1
    | _, _ => m1

/-- The actions of a module out of service (R493): it has reported itself failed, asserted FAULT_N and written UNIT_RETIRED, and every lease is revoked with FORCE. -/
def Core.leaveService (c : Core) : Core :=
  if !c.rst.moduleOut then c
  else
    let c1 := if c.rst.outActed then c else c.permFail
    let c2 := (c1.plans.map (fun p => p.handle)).foldl (fun c h => c.dropForced h) c1
    { c2 with leases := {}, ident := { c2.ident with dedicated := none } }

/-- The spool after a module warm reset (11 R386, R394): connections are made again, each unfinished stripe starts again from its first piece, and a manifest or
the zeroing of its slot from its first LBA. -/
def Mach.spoolAgain (m : Mach) : Mach :=
  let m1 := m.up (fun c => (c.spool.targets.map Prod.fst).foldl (fun c e => c.connect e.1 e.2) c)
  let m2 := m1.up (fun c => c.spool.manifests.foldl (fun c r =>
    match c.job? r.plan, c.slotOf r.plan r.seq with
    | some j, some (_, s) => if r.writing.isSome then c.manifestIo j s.block r 0 else c
    | _, _ => c) c)
  let m3 := m2.up (fun c => c.spool.jobs.foldl (fun c s => match s.zeroing with | some step => c.zeroSlot s step | none => c) c)
  m3.drainNext

/-- Program regions of every plan on a die written again (07 R210), after the poison that a rebinding left is cleared. -/
def Mach.reload (p : Nat) (m : Mach) : Mach :=
  m.core.plans.foldl (fun m q => m.loadPrograms q p) (m.write (.poison (smKey p 0 0 / 64) (33 * 2 ^ 18) false))

/-- Module Ready (R480, R497). -/
def moduleReady (m : Mach) : Mach :=
  let r := m.core.rst
  if r.phase != 5 || r.recovery || r.level then m
  else
    let m1 := m.up (Core.modRst (fun r =>
      { r with phase := 6, reach := r.latched, lastSources := r.sources, lastEsc := r.escCause,
               lastRelease := if r.latched = 1 then 0 else r.release.setWidth 48 }))
    let m2 := (List.range 8).foldl (fun m p => (m.reload p).up (Core.resumeCopy p)) m1.rebindAll
    let m3 := if r.latched = 1 then m2 else ((m2.core.jobs.map (fun j => j.plan)).foldl (fun m h => m.rejoin h) (m2.up Core.buildSlots)).spoolAgain
    m3.up (fun c =>
      let c1 : Core := { c with ident := c.ident.fuse }
      let c2 := c1.leaveService
      if r.latched = 1 then (c2.emit (.pin "FAULT_N" false)).modRst (fun r => { r with faultN := false }) else c2)

/-- The seal-map extents of a job that lie on a stack, written from the mirror partner's slot (R485): where a piece is missing no mirror can serve. -/
def Mach.rewriteSeals (p : Nat) (pieces : List MirrorPiece) (h : Nat) (m : Mach) : Mach :=
  match m.core.job? h, m.core.plan? h with
  | some j, some q =>
    if !j.sealedValid || j.phase == .stoppedLimit || j.phase == .stoppedFallback || j.phase == .filled || j.phase == .launching then m
    else
      let l := match j.rollback with | some (_, l) => l | none => j.lastSealed
      let exts := (List.range j.sealMap.length).zip j.sealMap |>.flatMap (fun ie =>
        (m.core.extKeys q (if j.phase == .rollbackWait then ie.2.curOff.toNat else j.sealedOff l ie.2) ie.2.extents).mapIdx (fun x k => (ie.1, x, k)))
      let here := exts.filterMap (fun e => e.2.2.bind (fun k => if (k - 2 ^ 41) / 2 ^ 36 = p then some (e.1, e.2.1, k) else none))
      if here.all (fun e => pieces.any (fun x => x.plan == h && x.entry == e.1 && x.ext == e.2.1)) then
        here.foldl (fun m e =>
          match pieces.find? (fun x => x.plan == h && x.entry == e.1 && x.ext == e.2.1) with
          | some x => m.store e.2.2 (x.bytes.take (2 ^ 26))
          | none => m) m
      else m.up (Core.fallback h)
  | _, _ => m

/-- The counted resets of a partition within 10 minutes (R492). -/
def Core.partCount (c : Core) (p : Nat) : Nat := (c.rst.partTimes.filter (fun e => e.1 == p && withinTicks c.clk.count e.2 (600 * 10 ^ 9))).length

/-- A partition's sequence ends (R484, R485, R492): at Ready, or out of service at the third counted reset within 10 minutes. -/
def partReady (p : Nat) (pieces : List MirrorPiece) (m : Mach) : Mach :=
  if !(m.core.rst.parts.contains p) then m
  else
    let m1 := (m.wipe (hbmKey p 0) (m.core.ident.leasableExt * 2 ^ 26)).up (fun c =>
      (c.wrote (hbmKey p 0) (m.core.ident.leasableExt * 2 ^ 20)).modRst (fun r => { r with parts := r.parts.filter (fun q => !(q == p)) }))
    let answer := fun (m : Mach) =>
      (m.core.resetReplies.filter (fun e => e.1 == p)).foldl (fun m e =>
        m.up (fun c => ({ c with resetReplies := c.resetReplies.erase e } : Core).reply e.2 0 (details [(8, 8, c.clk.count.toNat)]))) m
    if 3 ≤ m1.core.partCount p then answer (m1.up (fun c => ((c.partOut p).logRec (modRec 0x107 2 2 p 0 0))))
    else
      let hs := (m1.core.jobs.filter (m1.core.usesPart p)).map (fun j => j.plan)
      let m2 := hs.foldl (fun m h => m.rewriteSeals p pieces h) ((((m1.rebindPart p).reload p).up (Core.resumeCopy p)).up Core.buildSlots)
      answer (m2.up (Core.modRst (fun r =>
        { r with hangs := (r.hangs.map (fun h => if h.part == p && h.outcome == 0 && h.released.isNone then h.next 0 else h)).filter (fun h => h.outcome == 0 || !(h.part == p)) })))

end Sys2Proof.Machine
end

