-- ==== Sys2Proof/Machine/PowerMgmt.lean ====
section
/-!
DEFINITION. Power, cooling, the halt input and the management buses (15_power_physical_management.md), with the reset rows that power and the halt take part in.
-/

namespace Sys2Proof.Machine

/-! ### Throttling (R504 to R506) -/

/-- Signed readings compared. -/
def sle (a b : BitVec 16) : Bool := decide (a.toInt ≤ b.toInt)

/-- Temperature readings taken, with their peaks (12 R425, R439). -/
def Core.takeTemps (rs : List Reading) (c : Core) : Core :=
  { c with health := rs.foldl (fun h r =>
      let k := (r.die, r.index)
      let peak := match lookup? k h.peakTemp with | some p => if sle r.value p then p else r.value | none => r.value
      { h with temps := insertKey k r.value h.temps, peakTemp := insertKey k peak h.peakTemp }) c.health }

/-- Voltage readings taken, with the lowest of each (12 R425, R439). -/
def Core.takeVolts (rs : List Reading) (c : Core) : Core :=
  { c with health := rs.foldl (fun h r =>
      let k := (r.die, r.index)
      let peak := match lookup? k h.peakVolt with | some p => if r.value.toNat < p.toNat then r.value else p | none => r.value
      { h with volts := insertKey k r.value h.volts, peakVolt := insertKey k peak h.peakVolt }) c.health }

/-- Whether a die code is an HBM stack (12 Table 12-3). -/
def isStack (die : Nat) : Bool := inRange die 0x30 8

/-- Sensors that thermal control uses (12 R426). -/
def Core.liveTemps (c : Core) : List ((Nat × Nat) × BitVec 16) := c.health.temps.filter (fun t => !(c.health.excluded.contains t.1))

/-- Whether a die reads 110 °C or more, or a stack 95 °C or more (Table 15-6). -/
def Core.hot (c : Core) : Bool := c.liveTemps.any (fun t => sle (if isStack t.1.1 then 760 else 880) t.2)

/-- Whether every die reads below 107 °C and every stack below 92 °C. -/
def Core.cool (c : Core) : Bool := c.liveTemps.all (fun t => !(sle (if isStack t.1.1 then 736 else 856) t.2))

/-- A ratio lowered by one step, and raised by one step (R506). -/
def ratioDown (r : Nat) : Nat := max 4 (r - 1)

/-- A ratio raised by one step. -/
def ratioUp (r : Nat) : Nat := min 16 (r + 1)

/-- THERMAL_THROTTLE_TICK (R506): the readings, and whether 1 ms has passed since the ratio was last raised. -/
def execThermalThrottleTick (readings : List Reading) (ms : Bool) (s : State) : Host.Outcome State Fault Refusal :=
  runP (fun c p =>
      let c1 := c.takeTemps readings
      { p with thermal := if c1.hot then ratioDown p.thermal else if c1.cool && ms then ratioUp p.thermal else p.thermal })
    (fun _ m => m.up (Core.takeTemps readings)) s

/-- CURRENT_THROTTLE (R506): the input current averaged over 10 µs in 10 mA exceeds 45 A, and the ratio drops to 8 or below. How far below is not stated: the
ratio is a free value from 4 to 8 (notes/assumptions/58). -/
def execCurrentThrottle (iin : BitVec 16) (s : State) : Host.Outcome State Fault Refusal :=
  runP (fun c p => if 4500 < iin.toNat then { p with iin := iin, current := min p.current (4 + (Config.freeWord c.nonce).toNat % 5) } else { p with iin := iin })
    (fun _ m => m.up (fun c => { c with nonce := c.nonce + 1 })) s

/-- A power cause's ratio after 1 ms against a limit in W (R506): down above it, up at 3 % or more below it. -/
def wattRatio (r pin limit : Nat) : Nat := if limit < pin then ratioDown r else if 100 * pin ≤ 97 * limit then ratioUp r else r

/-- THROTTLE_RATIO_TICK (R506): every 1 ms, with the readings of that time: input voltage in mV, current in 10 mA, power in W, the highest compute-die voltage in
mV, and the state of the voltage loops (1 saturated at VMAX with the margin short, 2 margin met below VMAX), and
the voltage monitors' readings. -/
def execThrottleRatioTick (vin iin pin cdMv : BitVec 16) (loops : Nat) (volts : List Reading) (s : State) : Host.Outcome State Fault Refusal :=
  runP (fun c p =>
      let top := ceilingW c.ident.profile
      { p with
        vinMv := vin, iin := iin, pinW := pin, cdMv := cdMv
        current := if iin.toNat < 4000 then ratioUp p.current else p.current
        margin := if loops = 1 then ratioDown p.margin else if loops = 2 then ratioUp p.margin else p.margin
        ceiling := wattRatio p.ceiling pin.toNat top
        cap := if p.capW = 0 then ratioUp p.cap else wattRatio p.cap pin.toNat (min p.capW top) })
    (fun _ m => m.up (Core.takeVolts volts)) s

/-- Whether a loop may write its record: none within the last second (R504). -/
def Power.limitDue (p : Power) (now : BitVec 64) (kind inst : Nat) : Bool :=
  match lookup? (kind, inst) p.limits with | some t => decide (10 ^ 9 ≤ (now - t).toNat) | none => true

/-- The record of a saturated loop: a core rail (0, by die code), an HBM PHY (1, by stack), or a lane equalizer (2, by port; 16 and 17 the storage ports). -/
def limitRec (kind inst : Nat) : Rec :=
  match kind with
  | 0 => modRec 0x709 6 1 inst 0 0
  | 1 => modRec 0x709 6 1 (0x30 + inst) 0x0B 0
  | _ => if inst < 16 then portRec 0x709 6 1 inst else modRec 0x709 6 1 0x21 0x13 (inst - 16)

/-- POLICY_LIMIT (R504): a loop saturates, which PWR_LOOP counts. -/
def execPolicyLimit (kind inst : Nat) (s : State) : Host.Outcome State Fault Refusal :=
  runP (fun c p =>
      let p1 := if kind = 0 then { p with voltLimits := satInc p.voltLimits } else { p with eqLimits := satInc p.eqLimits }
      if p.limitDue c.clk.count kind inst then { p1 with limits := insertKey (kind, inst) c.clk.count p1.limits } else p1)
    (fun old m => if old.limitDue m.core.clk.count kind inst then m.up (Core.logRec (limitRec kind inst)) else m) s

/-- COOLANT_ALARM (R508): inlet and outlet readings; the outlet has read more than 22 °C above the inlet for 1 s. -/
def execCoolantAlarm (inlet outlet : BitVec 16) (s : State) : Host.Outcome State Fault Refusal :=
  runP (fun _ p => { p with coolIn := inlet, coolOut := outlet })
    (fun _ m => if 176 < outlet.toInt - inlet.toInt then m.up (Core.logRec (modRec 0x70A 6 1 0x20 0x14 0)) else m) s

/-- POWER_POLICY (R505): the values are tested with the packet. -/
def powerPolicy (c : Core) (t : TenantId) (sq : Nat) (tag : BitVec 32) (p : Power) : Power :=
  match c.cmd? 0x107 t sq tag with
  | some a =>
    if bitOf (fieldAt a.packet 2 1) 0 then p
    else
      let w := a.par 8 2
      { p with capW := if w = ceilingW c.ident.profile then 0 else w, detLock := a.par 10 1 == 1, discUs := a.par 12 4 }
  | none => p

/-- POWER_POLICY (R505). -/
def execPowerPolicy (t : TenantId) (sq : Nat) (tag : BitVec 32) (s : State) : Host.Outcome State Fault Refusal :=
  runP (fun c p => powerPolicy c t sq tag p)
    (fun _ m => runCmd 0x107 t sq tag true [] (fun _ _ m =>
      { m := m, detail := details [(8, 2, m.pwr.capW), (10, 1, boolNat m.pwr.detLock), (12, 4, m.pwr.discUs)] }) m) s

/-! ### Input, trips and PWR_OK (R500 to R503, R507) -/

/-- STATUS_WORD: bit 13 an input fault, bit 2 a temperature fault (notes/assumptions/59). -/
def Power.statusWord (p : Power) : BitVec 16 := BitVec.ofNat 16 (place (boolNat (p.pmInput != 0)) 13 1 + place (boolNat (p.pmTemp != 0)) 2 1)

/-- PMB_ALERT_N, asserted while any bit of STATUS_WORD is set, is driven where a command changes it (R517). -/
def Core.pmAlert (old p : Power) (c : Core) : Core :=
  if (old.statusWord != 0) != (p.statusWord != 0) then c.emit (.pin "PMB_ALERT_N" (p.statusWord != 0)) else c

/-- The rails go: internal power good is low. -/
def Mach.powerLow (bit : Nat) (set : Rst → Rst) (m : Mach) : Mach := (m.moduleSource bit 1 0).up (Core.modRst (fun r => set { r with pgLow := true }))

/-- POWER_TRIP (R507): 1 thermal, 2 overcurrent. -/
def execPowerTrip (kind : BitVec 2) (s : State) : Host.Outcome State Fault Refusal :=
  runP (fun _ p => if p.rails && (kind == 1 || kind == 2) then
      { p with rails := false, tripped := 1, lastTrip := kind, tripNew := kind,
               pmInput := if kind == 2 then p.pmInput ||| 4 else p.pmInput, pmTemp := if kind == 1 then p.pmTemp ||| 0x80 else p.pmTemp } else p)
    (fun old m => if old.rails && (kind == 1 || kind == 2) then
        ((m.powerLow 7 (fun r => { r with faultN := true })).up (Core.emit (.pin "FAULT_N" true))).up (Core.pmAlert old m.pwr) else m) s

/-- TRIP_RESTART (R507): after a trip and a cycle of PWR_OK, every die sensor reads below 100 °C and the rails start. -/
def execTripRestart (readings : List Reading) (s : State) : Host.Outcome State Fault Refusal :=
  runP (fun c p =>
      let cold := (c.takeTemps readings).liveTemps.all (fun t => isStack t.1.1 || !(sle 800 t.2))
      if p.tripped = 3 && p.off = 0 && cold then { p with tripped := 0, rails := true } else p)
    (fun _ m => m.up (Core.takeTemps readings)) s

/-- PWR_OK_ASSERT (R502, R481): the cold source releases and the rails come up, unless a trip keeps them off. -/
def execPwrOkAssert (s : State) : Host.Outcome State Fault Refusal :=
  runP (fun _ p => if p.off ≠ 0 then p else if p.tripped = 0 then { p with rails := true } else if p.tripped = 2 then { p with tripped := 3 } else p)
    (fun old m => if old.off ≠ 0 then m else m.levelRelease (fun r => r.pwrOkLow) (fun r => { r with pwrOkLow := false })) s

/-- PWR_OK_DEASSERT (R503): cold reset asserts and the core and HBM rails go. -/
def execPwrOkDeassert (s : State) : Host.Outcome State Fault Refusal :=
  runP (fun _ p => if p.off ≠ 0 then p else { p with rails := false, tripped := if p.tripped = 0 then 0 else 2 })
    (fun old m => if old.off ≠ 0 || m.core.rst.pwrOkLow then m else m.powerLow 6 (fun r => { r with pwrOkLow := true })) s

/-- POWER_GOOD_RELEASE (R502): every rail is in regulation. -/
def execPowerGoodRelease (s : State) : Host.Outcome State Fault Refusal :=
  runM (fun m => if m.pwr.rails && m.pwr.off = 0 && m.core.rst.pgLow then
      (m.levelRelease (fun r => r.pgLow) (fun r => { r with pgLow := false, faultN := true })).up (Core.emit (.pin "FAULT_N" true)) else m) s

/-- The housekeeping domain without the input: flash keeps the policy. -/
def Power.lost (p : Power) (why : Nat) (vin : BitVec 16) : Power :=
  { capW := p.capW, detLock := p.detLock, discUs := p.discUs, off := why, rails := false, vinMv := vin, iin := 0, pinW := 0, aLow := p.aLow, bLow := p.bLow }

/-- Retirements that were decided and not yet carried out, of which flash knows nothing, are lost with the input (03 R79; notes/assumptions/110). -/
def Core.loseRetiring (c : Core) : Core :=
  { c with parts := c.parts.map (fun q =>
      { q with mx := { q.mx with retiring := [] }, memp := { q.memp with smRetiring := [], chRetiring := none, migState := 0, migSrc := 0 },
               cores := { q.cores with failing := [] } }) }

/-- INPUT_TURN_OFF (R503): the input in mV falls below 39 V or rises above 61 V, and every rail goes. -/
def execInputTurnOff (vin : BitVec 16) (s : State) : Host.Outcome State Fault Refusal :=
  runP (fun _ p => if p.off = 0 && (vin.toNat < 39000 || 61000 < vin.toNat) then p.lost (if vin.toNat < 39000 then 1 else 2) vin else p)
    (fun old m => if old.off = 0 && (vin.toNat < 39000 || 61000 < vin.toNat) then
        ((m.up Core.loseRetiring).powerLow 7 (fun r => { r with pwrOkLow := true, warmTimes := [], partTimes := [] })).up (Core.emit (.pin "PRSNT_N" true)) else m) s

/-- INPUT_TURN_ON (R502): the input rises through 41 V, and the standby rails and the housekeeping domain come up. -/
def execInputTurnOn (s : State) : Host.Outcome State Fault Refusal :=
  runP (fun _ p => if p.off = 1 then { p with off := 0, vinMv := 41000 } else p)
    (fun old m => if old.off = 1 then m.up (Core.emit (.pin "PRSNT_N" false)) else m) s

/-- OVERVOLTAGE_TURN_ON (R500): after an overvoltage turn-off the input falls through 60 V. -/
def execOvervoltageTurnOn (s : State) : Host.Outcome State Fault Refusal :=
  runP (fun _ p => if p.off = 2 then { p with off := 0, vinMv := 60000 } else p)
    (fun old m => if old.off = 2 then m.up (Core.emit (.pin "PRSNT_N" false)) else m) s

/-- INPUT_OUT_OF_RANGE (R500): the input in mV leaves or enters the operating range of 40 to 60 V; ALERT_N says which. -/
def execInputOutOfRange (vin : BitVec 16) (s : State) : Host.Outcome State Fault Refusal :=
  runP (fun _ p =>
      let low := decide (vin.toNat < 40000)
      let high := decide (60000 < vin.toNat)
      let bits : BitVec 8 := if low then p.pmInput ||| 0x20 else if high then p.pmInput ||| 0x40 else p.pmInput
      if p.off = 0 then { p with vinMv := vin, alert := low || high, pmInput := bits } else p)
    (fun old m => (if old.off = 0 && old.alert != m.pwr.alert then m.up (Core.emit (.pin "ALERT_N" m.pwr.alert)) else m).up (Core.pmAlert old m.pwr)) s

/-! ### The halt input (R509, R510) -/

/-- A halt requested; one already requested stands, and a halted module stays halted. -/
def Power.request (now : BitVec 64) (p : Power) : Power := if p.halted then { p with leaving := false } else { p with haltReq := some (p.haltReq.getD now) }

/-- HALT_CHANNELS_ASSERTED (R509). -/
def execHaltChannelsAsserted (s : State) : Host.Outcome State Fault Refusal :=
  runP (fun c p => if p.off ≠ 0 then p else ({ p with aLow := true, bLow := true, runFault := false } : Power).request c.clk.count) (fun _ m => m) s

/-- HALT_INPUT_FAULT (R509): a run of disagreement reaches DISC_US; `a` says that channel A is the one asserted. -/
def execHaltInputFault (a : Bool) (s : State) : Host.Outcome State Fault Refusal :=
  runP (fun c p => if p.off ≠ 0 then p else ({ p with aLow := a, bLow := !a, inputFault := true, runFault := true } : Power).request c.clk.count)
    (fun old m => if old.off ≠ 0 then m else m.up (Core.logRec (modRec 0x70B 5 2 0x20 0 0))) s

/-- HALT_DISAGREEMENT_END (R509): a run of `n` samples ends with both channels released. -/
def execHaltDisagreementEnd (n : Nat) (s : State) : Host.Outcome State Fault Refusal :=
  runP (fun _ p => { p with aLow := false, bLow := false, runFault := false, discCount := if !p.runFault && 1 ≤ n then satInc p.discCount else p.discCount })
    (fun _ m => m) s

/-- The jobs of a module that halts (R510): each multi-module job is rolled back everywhere, and every job enters the rollback wait. -/
def Mach.haltJobs (m : Mach) : Mach :=
  m.core.jobs.foldl (fun m j =>
    let moving := j.phase == .running || j.phase == .localReplay || j.phase == .idle
    let m1 := if (moving || j.resumeAt.isSome) && m.core.multiModule j then m.up (Core.noticeRollback j.plan j.lastSealed) else m
    if moving then m1.rollbackStart j.plan j.lastSealed else m1.up (fun c => c.modJob j.plan (fun j => { j with resumeAt := none }))) m

/-- A pending halt taking effect on power. -/
def Power.halt (p : Power) : Power := { p with halted := true, haltReq := none, leaving := false, haltedUs := 0 }

/-- Whether a halt is pending where no beat is set. -/
def haltsNow (c : Core) (p : Power) : Bool := p.haltReq.isSome && !p.halted && !c.clk.epochSet && c.rst.phase == 6

/-- HALT_NO_BEAT (R510). -/
def execHaltNoBeat (s : State) : Host.Outcome State Fault Refusal :=
  runP (fun c p => if haltsNow c p then p.halt else p) (fun old m => if haltsNow m.core old then m.haltJobs else m) s

/-- HALT_RELEASE (R510): both channels have read released for 10,000 samples. With INPUT_FAULT clear the module leaves the halt at the next edge, or at once when no
beat is set. -/
def execHaltRelease (s : State) : Host.Outcome State Fault Refusal :=
  runP (fun c p =>
      let p1 := { p with aLow := false, bLow := false }
      if p.halted && !p.inputFault then (if c.clk.epochSet then { p1 with leaving := true } else { p1 with halted := false, leaving := false }) else p1)
    (fun _ m => m) s

/-- HALT_TIMEOUT (R510): halted for 10 s, the module reports itself permanently failed to its multi-module jobs, and its own copies of them stop. -/
def execHaltTimeout (s : State) : Host.Outcome State Fault Refusal :=
  runM (fun m => if m.pwr.halted then
      ((m.core.jobs.filter (fun j => m.core.multiModule j && j.phase != .stoppedLimit && j.phase != .stoppedFallback && j.phase != .filled)).map (fun j => j.plan)).foldl
        (fun m h => m.up (fun c => (c.memberFailed h).modJob h (fun j => { j with phase := .stoppedLimit, holds := [], posts := [], rollback := none }))) m
    else m) s

/-- INPUT_FAULT_CLEAR (R521). -/
def execInputFaultClear (s : State) : Host.Outcome State Fault Refusal :=
  runP (fun c p => if c.rst.phase == 6 && !p.aLow && !p.bLow then { p with inputFault := false } else p) (fun _ m => m) s

/-- PWR_LOOP_CLEAR (R522). -/
def execPwrLoopClear (s : State) : Host.Outcome State Fault Refusal := runP (fun c p => if c.rst.phase == 6 then { p with voltLimits := 0, eqLimits := 0 } else p) (fun _ m => m) s

/-- THROTTLE_TIME_CLEAR (R524). -/
def execThrottleTimeClear (s : State) : Host.Outcome State Fault Refusal := runP (fun c p => if c.rst.phase == 6 then { p with throttleUs := 0, throttleOvf := false } else p) (fun _ m => m) s

/-! ### Ready (14 R478, R480, R483) -/

/-- Power at a module Ready: what the reach covers takes its reset values, and a halt that is requested or in force takes effect. -/
def Power.ready (latched : Nat) (p : Power) : Power :=
  let p1 := if latched = 1 then { p with thermal := 16, current := 16, margin := 16, ceiling := 16, cap := 16, voltLimits := 0, eqLimits := 0, limits := [] } else p
  let p2 := { p1 with throttleUs := 0, throttleOvf := false }
  if p.haltReq.isSome || p.inputFault || (p.aLow && p.bLow) then { p2 with halted := true, haltReq := none, leaving := false, haltedUs := if p.halted then p.haltedUs else 0 }
  else { p2 with halted := p.halted && !p.leaving, leaving := false }

/-- Whether the module's sequence can reach Ready. -/
def Rst.canReady (r : Rst) : Bool := r.phase == 5 && !r.recovery && !r.level

/-- RESET_READY (14 R478, R480, R484): the module, or a partition with the pieces of the mirror partner's slots. -/
def execResetReady (part : Option Nat) (pieces : List MirrorPiece) (s : State) : Host.Outcome State Fault Refusal :=
  runP (fun c p => if part.isNone && c.rst.canReady then p.ready c.rst.latched else p)
    (fun _ m => match part with
      | some p => partReady p pieces m
      | none => if m.core.rst.canReady then (let m1 := moduleReady m; if m1.pwr.halted then m1.haltJobs else m1) else m) s

/-- FLASH_OWN_N (R514): the pin falls (`low`) or rises; when it is honoured and rises, the baseboard may have written an image. -/
def execFlashOwnN (low : Bool) (write : Option FlashWrite) (s : State) : Host.Outcome State Fault Refusal :=
  runC (fun _ _ c =>
    let r := c.rst
    if low then (if (r.phase == 0 && (r.pwrOkLow || r.resetLow)) || r.recovery then c.modRst (fun r => { r with flashOwned := true }) else c)
    else if r.flashOwned then
      let c1 := c.modRst (fun r => { r with flashOwned := false })
      match write with
      | some w => { c1 with ident := { c1.ident with images := setAt c1.ident.images w.image (readFw w.bytes) } }
      | none => c1
    else c) s

/-! ### I3C (R517) -/

/-- CRC-8 of SMBus packet error checking. -/
def pec (bs : List Byte) : Byte :=
  bs.foldl (fun (crc : Byte) b => (List.range 8).foldl (fun (x : Byte) _ => if x.getLsbD 7 then (x <<< 1) ^^^ 7 else x <<< 1) (crc ^^^ b)) 0

/-- The target address: the dynamic one, or 0x50 + POS0. -/
def Power.i3cAddr (p : Power) (c : Core) : BitVec 7 := p.i3c.getD (0x50 + BitVec.ofNat 7 (c.fab.cfg.position % 2))

/-- A block read answered: its count, its bytes and the packet error code. -/
def Core.block (p : Power) (cmd : Byte) (bs : List Byte) (c : Core) : Core :=
  let a := (p.i3cAddr c).setWidth 8
  let body := BitVec.ofNat 8 bs.length :: bs
  c.emit (.data (body ++ [pec ([a <<< 1, cmd, (a <<< 1) ||| 1] ++ body)]))

/-- I3C_MODULE_IDENT (R517). -/
def execI3cModuleIdent (s : State) : Host.Outcome State Fault Refusal := runC (fun p _ c => c.block p 0 (bytesLE 8 c.ident.word.toNat)) s

/-- I3C_STATUS_BYTES (R517): PHASE, LAST_TRIP, HALTED, INPUT_FAULT, MODULE_OUT. -/
def execI3cStatusBytes (s : State) : Host.Outcome State Fault Refusal :=
  runC (fun p _ c => c.block p 1 (bytesLE 1 c.rst.phase ++ [p.lastTrip.setWidth 8] ++ bytesLE 1 (boolNat p.halted) ++ bytesLE 1 (boolNat p.inputFault) ++
    bytesLE 1 (boolNat c.rst.moduleOut))) s

/-- The hottest sensor in use, with its die (R523): 25 °C on CD0 where none is listed (notes/assumptions/5). -/
def Core.hottest (c : Core) : Nat × BitVec 16 :=
  (c.liveTemps.foldl (fun (b : Option (Nat × BitVec 16)) t =>
    match b with | some q => if sle t.2 q.2 then some q else some (t.1.1, t.2) | none => some (t.1.1, t.2)) none).getD (0, 200)

/-- I3C_HOTTEST_TEMP (R517). -/
def execI3cHottestTemp (s : State) : Host.Outcome State Fault Refusal := runC (fun p _ c => c.block p 2 (bytesLE 2 c.hottest.2.toNat)) s

/-- I3C_INPUT_POWER (R517). -/
def execI3cInputPower (s : State) : Host.Outcome State Fault Refusal := runC (fun p _ c => c.block p 3 (bytesLE 2 p.pinW.toNat)) s

/-- I3C_FAULT_COUNT (R517): busy until Ready. -/
def execI3cFaultCount (s : State) : Host.Outcome State Fault Refusal :=
  runC (fun p _ c => if c.rst.phase == 6 then c.block p 4 (bytesLE 2 c.log.history.length) else c.emit .nack) s

/-- I3C_FAULT_RECORD_NEXT (R517): the record at the read position, oldest first, and the position moves on (notes/assumptions/59); busy until Ready. -/
def execI3cFaultRecordNext (s : State) : Host.Outcome State Fault Refusal :=
  runP (fun c p => if c.rst.phase == 6 && !c.log.history.isEmpty then { p with faultPos := (p.faultPos + 1) % c.log.history.length } else p)
    (fun old m => m.up (fun c =>
      if c.rst.phase == 6 then c.block old 5 (match c.log.history.reverse[old.faultPos]? with | some r => recBytes r | none => []) else c.emit .nack)) s

/-- I3C_DYNAMIC_ADDRESS (R517). -/
def execI3cDynamicAddress (addr : BitVec 7) (s : State) : Host.Outcome State Fault Refusal := runP (fun _ p => { p with i3c := some addr }) (fun _ m => m) s

/-! ### PMBus (R517) -/

/-- A value `num / den` in LINEAR11: the smallest exponent that holds it, rounded to nearest (notes/assumptions/59). -/
def linear11 (num : Int) (den : Nat) : BitVec 16 :=
  let scaled := fun (e : Int) => if e < 0 then (2 * num * 2 ^ (-e).toNat + den) / (2 * den) else (2 * num + den * 2 ^ e.toNat) / (2 * den * 2 ^ e.toNat)
  let e := ((tabulate 32 (fun i => ((i : Nat) : Int) - 16)).find? (fun e => decide (-1024 ≤ scaled e) && decide (scaled e ≤ 1023))).getD 15
  BitVec.ofNat 16 (place (unsigned 5 e) 11 5 + unsigned 11 (scaled e))

/-- A PMBus read answered. -/
def pmRead (f : Power → Core → List Byte) (s : State) : Host.Outcome State Fault Refusal := runC (fun p _ c => c.emit (.data (f p c))) s

/-- CLEAR_FAULTS (R517). -/
def execClearFaults (s : State) : Host.Outcome State Fault Refusal :=
  runP (fun _ p => { p with pmInput := 0, pmTemp := 0 }) (fun old m => m.up (Core.pmAlert old m.pwr)) s

/-- CAPABILITY (R517): packet error checking, 400 kHz and an alert line (notes/assumptions/59). -/
def execCapability (s : State) : Host.Outcome State Fault Refusal := pmRead (fun _ _ => [0xB0]) s

/-- STATUS_BYTE (R517). -/
def execStatusByte (s : State) : Host.Outcome State Fault Refusal := pmRead (fun p _ => [p.statusWord.setWidth 8]) s

/-- STATUS_WORD (R517). -/
def execStatusWord (s : State) : Host.Outcome State Fault Refusal := pmRead (fun p _ => bytesLE 2 p.statusWord.toNat) s

/-- STATUS_INPUT (R517). -/
def execStatusInput (s : State) : Host.Outcome State Fault Refusal := pmRead (fun p _ => [p.pmInput]) s

/-- STATUS_TEMPERATURE (R517). -/
def execStatusTemperature (s : State) : Host.Outcome State Fault Refusal := pmRead (fun p _ => [p.pmTemp]) s

/-- READ_VIN (R517), in V. -/
def execReadVin (s : State) : Host.Outcome State Fault Refusal := pmRead (fun p _ => bytesLE 2 (linear11 p.vinMv.toNat 1000).toNat) s

/-- READ_IIN (R517), in A. -/
def execReadIin (s : State) : Host.Outcome State Fault Refusal := pmRead (fun p _ => bytesLE 2 (linear11 p.iin.toNat 100).toNat) s

/-- READ_PIN (R517), in W. -/
def execReadPin (s : State) : Host.Outcome State Fault Refusal := pmRead (fun p _ => bytesLE 2 (linear11 p.pinW.toNat 1).toNat) s

/-- READ_TEMPERATURE_1 (R517): the hottest die in °C. -/
def execReadTemperature1 (s : State) : Host.Outcome State Fault Refusal := pmRead (fun _ c => bytesLE 2 (linear11 c.hottest.2.toInt 8).toNat) s

/-- READ_TEMPERATURE_2 (R517): the coolant outlet in °C. -/
def execReadTemperature2 (s : State) : Host.Outcome State Fault Refusal := pmRead (fun p _ => bytesLE 2 (linear11 p.coolOut.toInt 8).toNat) s

/-- PMBUS_REVISION (R517). -/
def execPmbusRevision (s : State) : Host.Outcome State Fault Refusal := pmRead (fun _ _ => [0x44]) s

/-- MFR_ID (R517): "GYNYX". -/
def execMfrId (s : State) : Host.Outcome State Fault Refusal := pmRead (fun _ _ => [5, 0x47, 0x59, 0x4E, 0x59, 0x58]) s

/-- MFR_MODEL (R517): "TV20". -/
def execMfrModel (s : State) : Host.Outcome State Fault Refusal := pmRead (fun _ _ => [4, 0x54, 0x56, 0x32, 0x30]) s

/-- MFR_REVISION (R517): "B1". -/
def execMfrRevision (s : State) : Host.Outcome State Fault Refusal := pmRead (fun _ _ => [2, 0x42, 0x31]) s

/-- PMBUS_WRITE_REFUSED (R517). -/
def execPmbusWriteRefused (s : State) : Host.Outcome State Fault Refusal := runC (fun _ _ c => c.emit .nack) s

/-! ### JTAG (R517) and SPDM (R518) -/

/-- A JTAG instruction loaded: 0 BYPASS, 1 IDCODE, 2 SAMPLE/PRELOAD, 3 EXTEST, 4 CLAMP, 5 HIGHZ (numbers of the model's own). -/
def jtag (n : Nat) (f : Core → Core) (s : State) : Host.Outcome State Fault Refusal := runP (fun _ p => { p with jtagIr := n }) (fun _ m => m.up f) s

/-- BYPASS (R517). -/
def execBypass (s : State) : Host.Outcome State Fault Refusal := jtag 0 id s

/-- IDCODE (R517): 0x3201_4B87. -/
def execIdcode (s : State) : Host.Outcome State Fault Refusal := jtag 1 (Core.emit (.data (bytesLE 4 0x32014B87))) s

/-- SAMPLE/PRELOAD (R517). -/
def execSamplePreload (s : State) : Host.Outcome State Fault Refusal := jtag 2 id s

/-- EXTEST (R517). -/
def execExtest (s : State) : Host.Outcome State Fault Refusal := jtag 3 id s

/-- CLAMP (R517). -/
def execClamp (s : State) : Host.Outcome State Fault Refusal := jtag 4 id s

/-- HIGHZ (R517). -/
def execHighz (s : State) : Host.Outcome State Fault Refusal := jtag 5 id s

/-- A measurement (Table 15-13). -/
def Core.measure (p : Power) (c : Core) (i : Nat) : List Byte :=
  let d := c.ident
  let fw := bytesLE 2 d.fwMajor.toNat ++ bytesLE 2 d.fwMinor.toNat ++ bytesLE 8 (d.images.getD d.fwRun {}).sec.toNat
  match i with
  | 1 => Config.digest384 1 []
  | 2 => Config.digest384 2 fw ++ fw
  | 3 => [0x14, d.grade, d.stepping] ++ bytesLE 8 d.fwSec.toNat
  | 4 => (match c.health.pkg with | some k => bytesLE 4 k.seq.toNat ++ Config.digest384 4 k.image | none => bytesLE 4 0)
  | 5 => bytesLE 4 c.fab.cfg.digest.toNat ++ bytesLE 2 c.fab.cfg.own ++ bytesLE 1 (boolNat c.fab.cfg.celoth1)
  | 6 => bytesLE 2 p.capW ++ bytesLE 1 (boolNat p.detLock) ++ bytesLE 4 p.discUs ++ [d.profile]
  | 7 => [0]
  | _ => []

/-- SPDM_REQUEST (R518): answered by Volez once it runs, and in recovery. -/
def execSpdmRequest (req : SpdmReq) (s : State) : Host.Outcome State Fault Refusal :=
  runC (fun p _ c =>
    if c.rst.phase != 6 && !c.rst.recovery then c.emit .nack
    else
      match req with
      | .certificate => c.emit (.data (Config.spdmAnswer 0))
      | .measurement i => c.emit (.data (c.measure p i))
      | .session => c.emit (.data (Config.spdmAnswer 1))) s

end Sys2Proof.Machine
end

