-- ==== Sys2Proof/Machine/Edge.lean ====
section
/-!
DEFINITION. The module beat edge (06_beats_and_determinism.md R156 to R164, R173, R174, R195; Table 06-2) and the start of a slot (R169).
-/

namespace Sys2Proof.Machine

/-! ### When an edge comes (R156, 15 R510) -/

/-- Whether a counter value is a beat edge that has not passed. -/
def Core.atEdge (c : Core) (edge : BitVec 64) : Bool :=
  let len := c.clk.beatUs.toNat * 1000
  let e := c.clk.epoch.toNat
  c.clk.epochSet && decide (0 < len) && (max e edge.toNat - min e edge.toNat) % max len 1 == 0 && decide (c.clk.count.toNat ≤ edge.toNat)

/-- Whether a pending halt takes effect at an edge: it was requested at least 2 µs before. -/
def Power.haltsAt (p : Power) (edge : BitVec 64) : Bool :=
  !p.halted && match p.haltReq with | some t => decide (t.toNat + 2000 ≤ edge.toNat) | none => false

/-- Power at an edge (step 1, R510). -/
def Power.atEdge (c : Core) (edge : BitVec 64) (p : Power) : Power :=
  let p1 := p.elapse c.clk.count.toNat edge.toNat
  if c.rst.phase != 6 then p1
  else if p1.haltsAt edge then p1.halt
  else if p1.halted && p1.leaving then { p1 with halted := false, leaving := false }
  else p1

/-! ### Step 2: channels and checks of beats that end (R112, 10 R349) -/

/-- Core cycles from the last edge to the one at a counter value (R157, R166): what the beat cycle count then shows. Without throttling a beat holds BC - 2 to BC + 2
cycles; the model takes exactly BC, and no more for edges that passed unseen (DESIGN CHOICE, notes/assumptions/101). -/
def Mach.edgeCycles (edge : BitVec 64) (m : Mach) : Nat :=
  min m.core.beatCycles ((m.core.clk.run m.core.ident.profile m.pwr.ratio (edge.toNat - m.core.clk.count.toNat)).beatAcc / 16000)

/-- Whether a job's beat ends at an edge: it is under way and its work is complete. -/
def Job.ends (p : Plan) (avail : Nat) (j : Job) : Bool := (j.phase == .running || j.phase == .localReplay) && j.beatDone p avail

/-- Whether a job is in the middle of a beat. -/
def Job.active (j : Job) : Bool := j.phase == .running || j.phase == .localReplay

/-- The channels of a job whose beat ends checked: a token that is left is discarded with a record, and the step's verdict becomes unclean (R112). -/
def Core.checkChans (h : Nat) (c : Core) : Core :=
  match c.job? h with
  | none => c
  | some j =>
    let left := (List.range 8).flatMap (fun p => ((c.part p).streams.chans.filter (fun e => e.2.plan == h && !e.2.tokens.isEmpty)).map (fun e => (p, e.1)))
    if left.isEmpty then c
    else
      let c1 := left.foldl (fun c x => c.logRec (jobRec j (modRec 0x204 7 2 x.1 0x16 x.2))) c
      (c1.emptyChans h).modJob h (fun j => (j.noteOrigin 7 0x204).unclean causeFault)

/-- Step 2 for every job whose beat ends. -/
def Mach.edgeChecks (hs : List Nat) (m : Mach) : Mach := hs.foldl (fun m h => m.up (fun c => (c.checkChans h).evalChecks m.mem h)) m

/-! ### Steps 4 and 5: commits, withdrawals, lent slots (R173, 13 R462, R466) -/

/-- The waiting revokes carried out and answered. -/
def Mach.edgeForces (m : Mach) : Mach :=
  let m1 := (m.core.accepted.filter Accepted.forcing).foldl (fun m a => let o := forceNow a m; o.m.up (fun c => c.reply a o.status o.detail)) m
  (m1.core.plans.filter (fun p => p.forced)).foldl (fun m p => m.up (Core.dropForced p.handle)) m1

/-- The evaluated commits whose edge has come applied in order and answered (13 R462). -/
def Mach.edgeCommits (edge : BitVec 64) (m : Mach) : Mach :=
  (m.core.commits.filter (fun x => x.2.commit.any (fun e => decide (e.toNat ≤ edge.toNat)))).foldl (fun m x =>
    let t := BitVec.ofNat 8 x.1
    let m1 := (evalStaged t none x.2.staged 0 (m.up (Core.setTxn t none))).2
    match x.2.reply with
    | some a => m1.up (fun c => c.reply a 0 (details [(8, 8, edge.toNat)]))
    | none => m1) m

/-- Whether a plan's withdrawal after a step is due: its job has ended that step, or does not run (Table 13-9). `ending` says that the job's step ends now. -/
def Core.withdrawDue (c : Core) (p : Plan) (ending : Bool) : Bool :=
  match p.withdrawAfter with
  | none => false
  | some s =>
    match c.job? p.handle with
    | none => true
    | some j =>
      match j.phase with
      | .running => stepLater j.step s || (ending && !(stepLater s j.step))
      | .idle => stepLater j.step s
      | .launching => false
      | .localReplay => false
      | .rollbackWait => false
      | _ => true

/-- A plan withdrawn at its edge, and the command that asked for it answered. -/
def Core.withdrawNow (edge : BitVec 64) (h : Nat) (c : Core) : Core :=
  match c.plan? h with
  | none => c
  | some p =>
    let ask := c.accepted.filter (fun a => a.started && a.opcode == 0x302 && a.target == p.tenant && a.par 8 2 == h)
    ask.foldl (fun c a => c.reply a 0 (details [(8, 8, edge.toNat)])) (c.dropPlan h)

/-- The withdrawals due at an edge; `ended` are the jobs whose last beat of a step ends. -/
def Core.edgeWithdraws (edge : BitVec 64) (ended : List Nat) (c : Core) : Core :=
  ((c.plans.filter (fun p => p.withdrawAt.any (fun e => decide (e.toNat ≤ edge.toNat)) || c.withdrawDue p (ended.contains p.handle))).map (fun p => p.handle)).foldl
    (fun c h => c.withdrawNow edge h) c

/-! ### Step 6: request doorbells (R174, 13 R468) -/

/-- The oldest tag of an ON_DEMAND plan's request queue taken, when a slot of its completion queue can be reserved. -/
def Core.sampleRequest (p : Plan) (c : Core) : Option (BitVec 32) × Core :=
  match p.rq.bind (fun qn => (lookup? qn (c.ten p.tenant.toNat).queues).map (fun q => (qn, q))) with
  | none => (none, c)
  | some (qn, q) =>
    match q.tags with
    | [] => (none, c)
    | tag :: rest =>
      let free := match lookup? q.bound (c.ten p.tenant.toNat).queues with | some cq => cq.hasFree | none => false
      if free then
        (some tag, (c.modQueue p.tenant qn (fun q => { q with tags := rest })).modQueue p.tenant q.bound (fun x => { x with reserved := x.reserved + 1 }))
      else (none, c)

/-- STEP_DONE into the slot that its request reserved (Table 13-7). -/
def Core.stepDone (p : Plan) (j : Job) (c : Core) : Core :=
  match j.reqTag, p.rq.bind (fun qn => lookup? qn (c.ten p.tenant.toNat).queues) with
  | some tag, some q =>
    let c1 := c.modQueue p.tenant q.bound (fun x => { x with reserved := x.reserved - 1 })
    (c1.cqWrite p.tenant.toNat q.bound (entryBytes 0xFFFFFFFF 0xF5 (details [(6, 2, j.plan), (8, 5, j.step.toNat), (16, 4, tag.toNat), (20, 8, c.clk.count.toNat)]))).modJob
      j.plan (fun j => { j with reqTag := none })
  | _, _ => c

/-! ### Step 7: the next beats (R164, R174, R195; 10 R356, R361, R363) -/

/-- The next step of a job begins, on demand only when a request has been sampled. -/
def Mach.nextStep (h : Nat) (m : Mach) : Mach :=
  match m.core.plan? h with
  | none => m
  | some p =>
    if p.hdr.onDemand then
      match m.core.sampleRequest p with
      | (some tag, c) => ({ m with core := c.modJob h (fun j => { j with phase := .running, reqTag := some tag }) }).stepStart h true
      | (none, c) => { m with core := c.modJob h (fun j => { j with phase := .idle }) }
    else (m.up (fun c => c.modJob h (fun j => { j with phase := .running }))).stepStart h true

/-- The beat cycles that the state holds counted from the edge that now passes, `avail` cycles after the last: what is drained or complete by then is left out. -/
def Core.passEdge (avail : Nat) (c : Core) : Core :=
  { c with
    parts := c.parts.map (fun q =>
      { q with mx := { q.mx with
          busy := q.mx.busy.filterMap (fun e => if e.2 < avail then none else some (e.1, e.2 - avail)), lastGrant := q.mx.lastGrant.map (fun g => g - avail) } })
    jobs := c.jobs.map (fun j =>
      { j with ripening := j.ripening.filterMap (fun r => if r.2.2.2 ≤ avail then none else some (r.1, r.2.1, r.2.2.1, r.2.2.2 - avail)) }) }

/-- A job that slips past an edge (R164, R165): counted on every partition of the job, and recorded; its beat cycles start again while its schedule goes on, or
stands still where it is held (R160). -/
def Core.slip (avail h : Nat) (c : Core) : Core :=
  match c.job? h, c.plan? h with
  | some j, some p =>
    let c1 := p.physParts.foldl (fun c d =>
      let q := (c.part d).slots
      let full := satOvf q.slips 1
      let top := q.slips.toNat + 1 == 2 ^ 48 - 1
      (c.modSlots d (fun q => { q with slips := satInc q.slips, slipsOvf := q.slipsOvf || full || top })).counterEvent 2 ((full || top) && !q.slipsOvf) 3 d 0x100) c
    (c1.logRec (jobRec j (modRec 0x205 6 0 0x20 0x0F 0))).modJob h (fun j =>
      { j with slips := j.slips + 1, holdBeats := if j.holds.isEmpty then 0 else j.holdBeats + 1,
               offset := j.offset - avail })
  | _, _ => c

/-- A job's next beat (R164): the next one of its step, or, after its last, beat 0 of the next step. -/
def Mach.nextBeat (h : Nat) (m : Mach) : Mach :=
  match m.core.job? h, m.core.plan? h with
  | some j, some p =>
    if j.beat + 1 < p.hdr.stepBeats then
      (m.up (fun c => c.modJob h (fun j =>
        { j with beat := j.beat + 1, sched := 0, edge := c.clk.count, done := [], accept := [], runEnd := 0, offset := 0, holdBeats := 0 }))).beatStart h
    else
      (m.up (fun c => (c.stepDone p j).modJob h (fun j =>
        { j.modVerdict j.step (fun v => { v with beatsDone := true }) with
          step := j.step + 1, attempt := (j.tryOf (j.step + 1)).attempt, beat := 0, sched := 0, holdBeats := 0 }))).nextStep h
  | _, _ => m

/-- Whether a job in rollback wait submits its resume vote (10 R363, 14 R485, R491, 15 R510): its partitions are in service and it is no suspect that waits. -/
def Mach.mayResume (h : Nat) (m : Mach) : Bool :=
  match m.core.plan? h with
  | none => false
  | some p => !m.pwr.halted && !(m.core.suspectHeld h) && !(p.physParts.any (fun d => m.core.rst.parts.contains d || m.core.rst.capturing.contains d))

/-- One job at an edge: a rollback that is named, a launch, a resume, a replay that is due, the next beat, or a slip. `ends` says that its beat ends. -/
def Mach.edgeJob (edge : BitVec 64) (avail : Nat) (ends : Bool) (h : Nat) (m : Mach) : Mach :=
  match m.core.job? h with
  | none => m
  | some j =>
    let due := fun (e : BitVec 64) => decide (e.toNat ≤ edge.toNat)
    match j.rollback with
    | some (e, l) => if due e && j.phase != .stoppedLimit && j.phase != .stoppedFallback && j.phase != .filled then
        let m1 := m.rollbackStart h l
        if m1.mayResume h then m1.up (Core.resumeVote h) else m1
      else if ends then m.nextBeat h
      else if j.active then m.up (Core.slip avail h) else m
    | none =>
      match j.phase with
      | .launching => if due j.lc then m.nextStep h else m
      | .idle => m.nextStep h
      | .rollbackWait =>
        match j.resumeAt with
        | some e => if due e && m.mayResume h then m.resume h else m
        | none => if m.mayResume h then m.up (Core.resumeVote h) else m
      | .running | .localReplay =>
        if j.replay.any (fun r => !r.begun) then (m.up (Core.slip avail h)).replayStart h
        else if ends then m.nextBeat h
        else m.up (Core.slip avail h)
      | _ => m

/-- Slice maps changed at the edge that a remap notice named (10 R371). -/
def Core.edgeRemaps (edge : BitVec 64) (c : Core) : Core :=
  let now := c.led.remaps.filter (fun r => decide (r.2.2.2.toNat ≤ edge.toNat))
  let c1 := now.foldl (fun c r => c.modFab (fun q => { q with slices := q.slices.map (fun s => if s.id == r.1 then { s with map := setAt s.map r.2.1 r.2.2.1 } else s) })) c
  c1.modLed (fun l => { l with remaps := l.remaps.filter (fun r => !(decide (r.2.2.2.toNat ≤ edge.toNat))) })

/-- The module beat cleared (R156). -/
def Core.clearBeat (c : Core) : Core := { c with clk := { c.clk with beatUs := 0, lenSet := false, epoch := 0, epochSet := false, clearAtEdge := false } }

/-- Steps 2 to 7 of Table 06-2, `avail` cycles after the last edge; a module that has left service revokes every lease with FORCE (14 R493). -/
def Mach.edgeSteps (edge : BitVec 64) (avail : Nat) (m : Mach) : Mach :=
  let clear := m.core.clk.clearAtEdge
  let ends := m.core.jobs.filter (fun j => (m.core.plan? j.plan).any (fun p => j.ends p avail))
  let hs := ends.map (fun j => j.plan)
  let last := (ends.filter (fun j => (m.core.plan? j.plan).any (fun p => j.beat + 1 == p.hdr.stepBeats && j.phase == .running))).map (fun j => j.plan)
  let m2 := m.edgeChecks hs
  let m3 := ((m2.rebindAll).up Core.beatRepairs).up Core.leaveService
  let m4 := m3.edgeForces.edgeCommits edge
  let m5 := (m4.up (Core.edgeWithdraws edge last)).up Core.revokeFills
  let m6 := (m5.up (Core.edgeRemaps edge)).up (Core.passEdge avail)
  let m7 := (m6.core.jobs.map (fun j => j.plan)).foldl (fun m h => m.edgeJob edge avail (hs.contains h) h) m6
  (m7.up Core.buildSlots).up (fun c => if clear && c.clk.clearAtEdge then c.clearBeat else c)

/-- A beat edge: a module warm reset that waits for it (12 Table 12-7), a halt, or the steps that follow. -/
def Mach.edgeWork (edge : BitVec 64) (halts : Bool) (m : Mach) : Mach :=
  let m1 := m.up (fun c =>
    { c with clk := { c.clk with count := edge, beatAcc := 0 }, parts := c.parts.map (fun q => { q with streams := { q.streams with hbmRuns := [] } }) })
  if m1.core.rst.phase != 6 then m1
  else if halts then m1.haltJobs
  else if m1.pwr.halted then m1
  else if m1.core.health.warmAtEdge then m1.countedWarm 1 2
  else m1.edgeSteps edge (m.edgeCycles edge)

/-- BEAT_EDGE (R159): the counter value that arrives. -/
def execBeatEdge (edge : BitVec 64) (s : State) : Host.Outcome State Fault Refusal :=
  runP (fun c p => if c.atEdge edge then p.atEdge c edge else p)
    (fun old m => if m.core.atEdge edge then m.edgeWork edge (m.pwr.halted && !old.halted) else m) s

/-! ### Slots (R169) -/

/-- A slot begins on a partition: an entry that fails its check blocks the slot, with a record; Volez rewrites it before the next edge, and a rewrite that fails is
an error in control state (12 Table 12-7). -/
def slotBegin (p slot : Nat) (ok rewritten : Bool) (m : Mach) : Mach :=
  if m.core.rst.phase != 6 || m.core.rst.parts.contains p || 8 ≤ p || 64 ≤ slot then m
  else if ok then m.up (fun c => c.modSlots p (fun q => { q with table := modAt q.table slot (fun e => { e with bad := false, blocked := false }) }))
  else
    let m1 := m.up (fun c => (c.logRec (modRec 0x207 1 1 p 0x15 slot)).modSlots p (fun q =>
      { q with table := modAt q.table slot (fun e => { e with bad := true, blocked := true }) }))
    if rewritten then m1 else m1.contain (some p)

/-- SLOT_START (R169): partition and slot, whether the entry passes its ECRC, and whether the rewrite of a failing one succeeds. -/
def execSlotStart (part slot : Nat) (ok rewritten : Bool) (s : State) : Host.Outcome State Fault Refusal := runM (slotBegin part slot ok rewritten) s

end Sys2Proof.Machine
end

