-- ==== Sys2Proof/Machine/Health.lean ====
section
/-!
DEFINITION. Aging and sensor alarms, sentinel packages and tests, and the takeovers of Volez and the ledger dies (12_health_and_errors.md R424 to R435,
10_seal_replay_tether.md R347).
-/

namespace Sys2Proof.Machine

/-- The health state changed. -/
def Core.modHealth (f : Health → Health) (c : Core) : Core := { c with health := f c.health }

/-! ### Monitors (R426) -/

/-- An aging reading in ppm taken: above 15,000 it is recorded once per pair, above 30,000 the module becomes suspect and a full run is due. -/
def agingSample (die index : Nat) (ppm : BitVec 32) (c : Core) : Core :=
  let k := (die, index)
  let c1 := c.modHealth (fun h => { h with aging := insertKey k ppm h.aging })
  let c2 := if 15000 < ppm.toNat && !(c1.health.agingWarned.contains k) then
      (c1.logRec (modRec 0x704 6 1 die 0x14 index)).modHealth (fun h => { h with agingWarned := h.agingWarned ++ [k] })
    else c1
  if 30000 < ppm.toNat then c2.modHealth (fun h => { h with agingSuspect := true, fullPending := true }) else c2

/-- AGING_SAMPLE (R426): the pair's die and number, and its slowdown. -/
def execAgingSample (die index : Nat) (ppm : BitVec 32) (s : State) : Host.Outcome State Fault Refusal := runC (fun _ _ c => agingSample die index ppm c) s

/-- A temperature sensor that differs too much from the others of its die recorded and excluded. -/
def sensorMismatch (r : Reading) (c : Core) : Core :=
  let c1 := c.takeTemps [r]
  if c1.health.excluded.contains (r.die, r.index) then c1
  else (c1.modHealth (fun h => { h with excluded := h.excluded ++ [(r.die, r.index)] })).logRec (modRec 0x70A 6 1 r.die 0x14 r.index)

/-- SENSOR_MISMATCH (R426): the sensor and its reading, which has been more than 10 °C off for 1 s. -/
def execSensorMismatch (r : Reading) (s : State) : Host.Outcome State Fault Refusal := runC (fun _ _ c => sensorMismatch r c) s

/-! ### Sentinel packages (R429 to R432) -/

/-- A test entry (Table 12-11). -/
def readTest (b : List Byte) : SentTest :=
  { id := BitVec.ofNat 16 (fieldAt b 0 2), target := BitVec.ofNat 8 (fieldAt b 2 1), entry := bitOf (fieldAt b 3 1) 0 }

/-- The form of a package (Tables 12-10, 12-11): magic, format, lengths, and reserved bytes and bits that are 0. -/
def pkgForm (b : List Byte) : Bool :=
  let n := fieldAt b 12 4
  let zero := fun (i k : Nat) => fieldAt b i k == 0
  fieldAt b 0 4 == 0x544E4553 && fieldAt b 4 2 == 1 && fieldAt b 7 1 ≤ 1 && fieldAt b 8 4 != 0 && inRange n 1 4096 && fieldAt b 16 4 == b.length &&
  decide (b.length ≤ 2 ^ 24) && decide (256 + 64 * n + 96 ≤ b.length) && zero 22 2 && zero 24 232 &&
  (List.range n).all (fun i => let o := 256 + 64 * i; fieldAt b (o + 3) 1 < 4 && zero (o + 56) 8)

/-- Why a package is refused (R431; notes/assumptions/60): the status, 0 when it is accepted. -/
def pkgStatus (c : Core) (b : List Byte) : Nat :=
  if !(pkgForm b) || !(Config.signatureOk 2 b) then 0x601
  else if BitVec.ofNat 8 (fieldAt b 6 1) != c.ident.stepping || c.ident.fwMajor.toNat < fieldAt b 20 2 then 0x603
  else
    match c.health.pkg with
    | some k => if fieldAt b 8 4 ≤ k.seq.toNat && k.image != b then 0x602 else 0
    | none => 0

/-- A package that passes its tests stored; one equal to the stored package changes nothing, and the answer says whether it was new. -/
def storePkg (b : List Byte) (c : Core) : Bool × Core :=
  if c.health.pkg.any (fun k => k.image == b) then (false, c)
  else
    let tests := tabulate (fieldAt b 12 4) (fun i => readTest (slice b (256 + 64 * i) 64))
    (true, c.modHealth (fun h => { h with pkg := some { seq := BitVec.ofNat 32 (fieldAt b 8 4), tests := tests, image := b } }))

/-- The package sent over VC7 to the positions across dimensions below `d` (R432), of which Celoth-1 mode has five (08 Table 08-14): the sequence number
names it. -/
def forwardPkg (d : Nat) (b : List Byte) (c : Core) : Core :=
  (List.range (if c.fab.cfg.celoth1 then min d 5 else d)).foldl (fun c i => c.emit (.vc7 (c.fab.cfg.position ^^^ 2 ^ i) 15 [i, fieldAt b 8 4])) c

/-- SENTINEL_REJECTED. -/
def rejectPkg (c : Core) : Core := c.logRec (modRec 0x703 4 2 0x20 0x10 0)

/-- SENTINEL_LOAD (R431, R432): the package, where the buffer can be read. -/
def execSentinelLoad (t : TenantId) (sq : Nat) (tag : BitVec 32) (package : Option (List (BitVec 8))) (s : State) : Host.Outcome State Fault Refusal :=
  runM (runCmd 0x601 t sq tag package.isSome [] (fun _ a m =>
    let b := package.getD []
    let st := if b.length == a.par 16 4 then pkgStatus m.core b else 0x601
    if st ≠ 0 then { status := st, m := m.up rejectPkg }
    else { m := m.up (fun c => let (new, c1) := storePkg b c; if new && bitOf (a.par 20 1) 0 then forwardPkg 6 b c1 else c1) })) s

/-- SENTINEL_FORWARD_RECEIVED (R432): the dimension it came on, and the package. -/
def execSentinelForwardReceived (d : Nat) (package : List (BitVec 8)) (s : State) : Host.Outcome State Fault Refusal :=
  runC (fun _ _ c =>
    if c.rst.phase != 6 then c
    else if pkgStatus c package ≠ 0 then rejectPkg c
    else let (new, c1) := storePkg package c; if new then forwardPkg (min d 6) package c1 else c1) s

/-! ### Sentinel runs (R433 to R435) -/

/-- SENTINEL_RUN (R435): SENTINEL_BUSY while a run of wider scope is in progress. -/
def execSentinelRun (t : TenantId) (sq : Nat) (tag : BitVec 32) (s : State) : Host.Outcome State Fault Refusal :=
  runM (runCmd 0x602 t sq tag true [] (fun _ a m =>
    let scope := a.par 8 1
    if m.core.health.run.any (fun r => decide (scope < r.scope)) then refuse 0x604 m
    else { m := m.up (fun c => c.modHealth (fun h =>
      if h.pkg.isSome then { h with run := some { scope := scope, die := a.par 9 1, block := a.par 10 1, inst := a.par 11 1 } } else h)) })) s

/-- SUSPECT_SWAP (R435): `ballast` says whether a warm ballast position remains in the meadow. -/
def execSuspectSwap (t : TenantId) (sq : Nat) (tag : BitVec 32) (ballast : Bool) (s : State) : Host.Outcome State Fault Refusal :=
  runM (runCmd 0x603 t sq tag true [] (fun _ _ m =>
    if !ballast then refuse 0x605 m else { m := m.up (fun c => c.modHealth (fun h => { h with swapPending := true })) })) s

/-- A unit retired by a sentinel failure (Table 12-8). -/
def Core.retireUnit (die block inst : Nat) (c : Core) : Core :=
  let gone := c.logRec (modRec 0x107 2 2 die block inst)
  match block with
  | 0x01 => c.retireArray die inst
  | 0x02 | 0x03 | 0x04 | 0x05 => gone.partOut die
  | 0x06 | 0x0E => gone.permFail
  | 0x08 =>
    let q := (c.part die).cores
    if q.failed.getLsbD inst || q.failing.contains inst then c
    else if inst = 4 && q.ballastFor.isNone then gone.modCores die (fun q => { q with failed := q.failed ||| 16 })
    else if q.ballastFor.isSome || !q.failing.isEmpty || q.failed.getLsbD 4 then gone.permFail
    else c.modCores die (fun q => { q with failing := q.failing ++ [inst] })
  | 0x09 => c.retireBank die inst
  | 0x0A => c.retireGranule ((die - 8) * 2 + inst / 48) (inst % 48)
  | 0x0B => c.retireChannel (die - 0x30) inst
  | 0x0C => c.failPort (inst % 4096)
  | _ => gone

/-- A transient sentinel failure counted toward a unit's retirement rule (R434, Table 12-8): on an array one failure of every row. -/
def Core.countSentinel (die block inst : Nat) (c : Core) : Core :=
  let now := c.clk.count
  let again := fun (o : Option (BitVec 64)) => match o with | some t => withinTicks now t day | none => false
  match block with
  | 0x01 => c.countRows die inst (List.range 32)
  | 0x02 | 0x03 | 0x04 | 0x05 => c.countUnit die block inst
  | 0x06 | 0x0E =>
    let k := (die, block, inst)
    let c1 := c.modHealth (fun h => { h with unitHist := insertKey k now h.unitHist })
    if again (lookup? k c.health.unitHist) then c1.retireUnit die block inst else c1
  | 0x08 =>
    let c1 := c.modCores die (fun q => { q with hist := insertKey inst now q.hist })
    if again (lookup? inst (c.part die).cores.hist) then c1.retireUnit die block inst else c1
  | _ => c

/-- A full run that has ended (R428, Table 12-8): one that passed every test clears SUSPECT and puts back in service what a cold reset left waiting for it. -/
def Core.fullRunEnd (passed : Bool) (c : Core) : Core :=
  let c1 := c.modHealth (fun h => { h with doneAt := c.clk.count, passedAt := if passed then some c.clk.count else h.passedAt, fullPending := false, suspect := h.suspect && !passed, agingSuspect := h.agingSuspect && !passed })
  if passed then
    { c1 with
      parts := c1.parts.mapIdx (fun i q => if c1.rst.partCold.contains i then { q with outOfService := false } else q)
      rst := { c1.rst with partCold := [], mustPass := false } }
  else c1

/-- A sentinel test ends: a first failure waits for its second run, which settles it (R434). `last` says that the run has done every test over every unit of its
scope. -/
def testDone (test : BitVec 16) (die block inst : Nat) (pass last : Bool) (c : Core) : Core :=
  match c.health.pkg with
  | none => c
  | some k =>
    if c.rst.phase != 6 || !(k.tests.any (fun x => x.id == test && x.target.toNat == block)) then c
    else
      let e := (test, die, block, inst)
      let again := c.health.retests.contains e
      let detail := bytesLE 2 test.toNat ++ bytesLE 4 k.seq.toNat
      let run := match c.health.run with | some r => some r | none => if c.health.fullPending then some { scope := 2, die := 0, block := 0, inst := 0 } else none
      let c1 := c.modHealth (fun h => { h with
        run := run.map (fun r => { r with failed := r.failed || !pass })
        retests := if again then h.retests.erase e else if pass then h.retests else h.retests ++ [e] })
      let c2 :=
        if again && pass then (c1.logRec { modRec 0x702 1 1 die block inst with detail := detail }).countSentinel die block inst
        else if again then
          ((c1.logRec { modRec 0x701 2 2 die block inst with detail := detail }).modHealth (fun h => { h with failCount := satInc h.failCount })).retireUnit die block inst
        else c1
      match c2.health.run with
      | some r => if last then (let c3 := c2.modHealth (fun h => { h with run := none }); if r.scope = 2 then c3.fullRunEnd (!r.failed) else c3) else c2
      | none => c2

/-- SENTINEL_TEST_DONE (R434): the test, its unit, whether it passed, and whether it is the last of its run. -/
def execSentinelTestDone (test : BitVec 16) (die block inst : Nat) (pass last : Bool) (s : State) : Host.Outcome State Fault Refusal :=
  runC (fun _ _ c => testDone test die block inst pass last c) s

/-! ### Takeovers -/

/-- What an accepted command that a failover answers has started is taken back (R424): it has no effect. -/
def Core.undo (a : Accepted) (c : Core) : Core :=
  if !a.started then c
  else
    match a.opcode with
    | 0x302 => c.modPlan (a.par 8 2) (fun p => { p with withdrawAt := none, withdrawAfter := none })
    | 0x501 => { c with spool := { c.spool with targets := c.spool.targets.filter (fun g => !(g.2.waiting.any (fun w => w.same a))) } }
    | 0x507 => { c with spool := { c.spool with restores := c.spool.restores.filter (fun r => !(r.reply.same a)) } }
    | 0x108 => { c with resetReplies := c.resetReplies.filter (fun e => !(e.2.same a)) }
    | _ => c

/-- The standby Volez takes over (R424, 13 R464): commands accepted and not answered reply FAILOVER, but for evaluated commits, and open transactions roll back. A
second mismatch within 24 hours is a permanent module failure (Table 12-8). -/
def volezFailover (c : Core) : Core :=
  if c.rst.phase != 6 then c
  else
    let now := c.clk.count
    let again := c.health.volezHist.any (fun t => withinTicks now t day)
    let c1 := (c.logRec (modRec 0x707 1 2 0x20 0x10 0)).modHealth (fun h => { h with volezHist := h.volezHist ++ [now], volezStandby := true })
    if again then c1.permFail
    else
      let asks := c1.accepted.filter (fun a => !(a.started && a.opcode == 0x702))
      let c2 := asks.foldl (fun c a => (c.undo a).reply a 5 []) c1
      { c2 with
        plans := c2.plans.map (fun p => { p with forced := false })
        tens := c2.tens.map (fun e => (e.1, { e.2 with txn := e.2.txn.bind (fun x => if x.commit.isSome then some x else none) })) }

/-- VOLEZ_FAILOVER (R424). -/
def execVolezFailover (s : State) : Host.Outcome State Fault Refusal := runC (fun _ _ c => volezFailover c) s

/-- A ledger die fails (10 R347): the other takes over the whole index; with both gone the module fails for good. -/
def ledgerFailover (k : Nat) (c : Core) : Core :=
  if 2 ≤ k || c.led.failed.getD k false then c
  else
    let c1 := { c.logRec (modRec 0x706 2 2 (0x28 + k) 0x0F 0) with led := { c.led with failed := setAt c.led.failed k true, takeover := setAt c.led.takeover (1 - k) true } }
    if c.led.failed.getD (1 - k) false then c1.permFail else c1

/-- LEDGER_FAILOVER (10 R347): the ledger die that fails. -/
def execLedgerFailover (k : Nat) (s : State) : Host.Outcome State Fault Refusal := runC (fun _ _ c => ledgerFailover k c) s

end Sys2Proof.Machine
end

