-- ==== Sys2Proof/Machine/Regs.lean ====
section
/-!
DEFINITION. The registers as they read (the "Registers" sections of 01 and 03 to 15; 13 Table 13-3): each block's registers as functions of the state.
-/

namespace Sys2Proof.Machine

/-- A register word from its fields, as (value, lowest bit, width). -/
def regWord (fs : List (Nat × Nat × Nat)) : BitVec 64 := BitVec.ofNat 64 (sumNat (fs.map (fun f => place f.1 f.2.1 f.2.2)))

/-- A mask of the numbers that satisfy a condition, below `n`. -/
def maskOf (n : Nat) (f : Nat → Bool) : Nat := sumNat ((List.range n).map (fun i => place (boolNat (f i)) i 1))

/-! ### VZ and RST -/

/-- STATE of VZ_SENTINEL_STATUS (12 Table 12-14). -/
def Health.sentState (h : Health) : Nat := if h.pkg.isNone then 0 else if h.run.isSome then 2 else if h.fullPending then 3 else 1

/-- MAX_THETA: the largest |θ| taken over synced links in the last 16,384 ticks, in units of 0.125 ns (06 R199). -/
def Core.maxTheta (c : Core) : Nat :=
  listMax ((c.fab.ports.filter (fun p => p.synced && decide ((c.clk.count - p.thetaAt).toNat ≤ 16384))).map (fun p => p.thetaMag.toNat))

/-- The VZ block: 01 R21, 06 R198 to R200, 07 R244, 08 R290, R291, 12 R438. -/
def readVz (c : Core) (off : Nat) : BitVec 64 :=
  let g := c.fab.cfg
  let h := c.health
  match off with
  | 0x10 => c.ident.word
  | 0x40 => c.clk.count
  | 0x48 => regWord [((c.fab.ports.filter (fun p => p.synced)).length, 48, 8), (c.maxTheta, 32, 16), (c.fab.syncState.toNat, 2, 2),
      (boolNat g.timeRoot, 1, 1), (boolNat c.fab.lostSeen, 0, 1)]
  | 0x50 => regWord [(boolNat c.clk.epochSet, 63, 1), (boolNat c.clk.lenSet, 62, 1), (c.clk.beatUs.toNat, 0, 17)]
  | 0x58 => c.clk.epoch
  | 0x60 => regWord [(c.ident.leasableExt, 50, 10), (c.ident.snapExt, 40, 10), (c.ident.mirrorExt, 30, 10), (c.ident.hamperExt, 20, 10)]
  | 0x70 => regWord [(g.ballast, 56, 4), (boolNat g.celoth1, 55, 1), (boolNat g.timeRoot, 54, 1), (g.meadow, 40, 8), (g.position, 32, 6), (g.digest.toNat, 0, 32)]
  | 0x78 => regWord [(g.sz, 48, 4), (g.sy, 44, 4), (g.sx, 40, 4), (g.axes.getD g.position 0, 32, 2), (g.fibreMax, 18, 14)]
  | 0x80 => regWord [((match h.pkg with | some k => k.seq.toNat | none => 0), 32, 32), (h.sentState, 29, 3), (h.failCount.toNat, 0, 16)]
  | 0x88 => h.eventEn.setWidth 64
  | 0x90 => h.doneAt
  | _ => 0

/-- The capture slot that RST_CAP_SEL names: its key (14 R499). -/
def Core.capSlot (c : Core) : Nat := capKey (field c.rst.capSel.toNat 57 3) (field c.rst.capSel.toNat 56 1)

/-- The RST block (14 R496 to R499). -/
def readRst (mem : Mem) (c : Core) (off : Nat) : BitVec 64 :=
  let r := c.rst
  match off with
  | 0 => regWord [(r.phase, 61, 3), (r.reach, 59, 2), (maskOf 8 r.parts.contains, 48, 8), (maskOf 8 r.capturing.contains, 40, 8)]
  | 8 => regWord [(r.lastSources.toNat, 56, 8), (r.lastEsc.toNat, 48, 8), (r.lastRelease.toNat, 0, 48)]
  | 0x10 => regWord ([(boolNat r.moduleOut, 63, 1), (min 2 (r.warmTimes.filter (fun t => withinTicks c.clk.count t hour)).length, 61, 2),
      (maskOf 8 (fun p => (c.part p).outOfService && !(r.partCold.contains p)), 48, 8)] ++ (List.range 8).map (fun p => (min 3 (c.partCount p), 2 * p, 2)))
  | 0x18 => regWord [(fieldAt (memBytes mem (c.capSlot + 18) 1) 0 1, 63, 1), (field r.capSel.toNat 56 4, 56, 4), (field r.capSel.toNat 0 7, 0, 7)]
  | _ =>
    if inRange off 0x100000 0x10000 then
      BitVec.ofNat 64 (natLE (memBytes mem (c.capSlot + field r.capSel.toNat 0 7 * 65536 + (off - 0x100000)) 8))
    else 0

/-! ### PWR and THM -/

/-- CAUSE of PWR_STATUS (15 Table 15-14): the cause whose ratio governs; of several, the one of lowest code. -/
def Power.cause (p : Power) : Nat :=
  if p.ratio = 16 then 0 else if p.thermal = p.ratio then 1 else if p.current = p.ratio then 2 else if p.margin = p.ratio then 3 else if p.ceiling = p.ratio then 4 else 5

/-- How many monitors of a kind a die has (12 Table 12-9): kinds 0 temperature, 1 voltage, 2 process, 3 aging. The spec names one rail of each logic die, its core
rail (notes/assumptions/5). -/
def monCount (die kind : Nat) : Nat :=
  if die < 8 then [16, 2, 32, 8].getD kind 0
  else if inRange die 0x08 4 then [8, 2, 8, 2].getD kind 0
  else if inRange die 0x10 4 || inRange die 0x20 2 then [4, 2, 8, 2].getD kind 0
  else if inRange die 0x28 2 then [2, 2, 8, 2].getD kind 0
  else if isStack die then [1, 0, 0, 0].getD kind 0
  else 0

/-- THM_MON_DATA (12 R439). -/
def Core.monData (c : Core) : BitVec 64 :=
  let sel := c.health.monSel.toNat
  let die := field sel 8 8
  let i := field sel 0 6
  let kind := field sel 6 2
  if monCount die kind ≤ i then 0
  else
    let h := c.health
    match kind with
    | 0 =>
      let v := reading h.temps die i 200
      regWord [(1, 63, 1), (boolNat (h.excluded.contains (die, i)), 62, 1), ((reading h.peakTemp die i v).toNat, 32, 16), ((v.signExtend 32).toNat, 0, 32)]
    | 1 => let v := reading h.volts die i 750; regWord [(1, 63, 1), ((reading h.peakVolt die i v).toNat, 32, 16), (v.toNat, 0, 32)]
    | 2 => regWord [(1, 63, 1), ((Config.processReading die i).toNat, 0, 32)]
    | _ => regWord [(1, 63, 1), ((reading h.aging die i 0).toNat, 0, 32)]

/-- The PWR and THM block (15 R519 to R524, 12 R439). -/
def readPwr (p : Power) (c : Core) (off : Nat) : BitVec 64 :=
  match off with
  | 0 => regWord [(p.vinMv.toNat, 48, 16), (p.iin.toNat, 32, 16), (p.pinW.toNat, 16, 16), (p.ratio, 11, 5), (p.cause, 8, 3), (p.lastTrip.toNat, 0, 2)]
  | 8 => regWord [(p.capW, 48, 16), (p.discUs, 32, 16), (boolNat p.detLock, 16, 1)]
  | 0x10 => regWord [(boolNat p.halted, 63, 1), (boolNat p.inputFault, 62, 1), (boolNat p.aLow, 61, 1), (boolNat p.bLow, 60, 1), (p.discCount.toNat, 32, 16),
      (p.haltedUs.toNat, 0, 32)]
  | 0x18 => regWord [(p.voltLimits.toNat, 48, 16), (p.eqLimits.toNat, 32, 16), (p.cdMv.toNat, 16, 16)]
  | 0x100 => regWord [(c.hottest.2.toNat, 48, 16), (p.coolIn.toNat, 32, 16), (p.coolOut.toNat, 16, 16), (c.hottest.1, 8, 8), (boolNat (decide (p.thermal < 16)), 0, 1)]
  | 0x108 => regWord [(boolNat p.throttleOvf, 48, 1), (p.throttleUs.toNat, 0, 48)]
  | 0x400 => c.health.monSel.setWidth 64
  | 0x408 => c.monData
  | _ => 0

/-! ### Partitions -/

/-- A mask of the arrays in a state. -/
def arrMask (q : MxPart) (s : ArrSt) : Nat := maskOf 13 (fun i => q.arrays.getD i .retired == s)

/-- The block of partition `p` (03 R84, R85, 04 R121 to R124, 05 R155, 06 R201, R202, 07 R245 to R247). -/
def readPart (c : Core) (p off : Nat) : BitVec 64 :=
  let q := c.part p
  let x := q.mx
  let y := q.memp
  let st := q.streams
  match off with
  | 0x100 => regWord [(boolNat q.slots.slipsOvf, 48, 1), (q.slots.slips.toNat, 0, 48)]
  | 0x108 => regWord [(q.slots.selSlot.toNat, 3, 6), (q.slots.selWord.toNat, 0, 3)]
  | 0x110 => BitVec.ofNat 64 (fieldAt (q.slots.table.getD q.slots.selSlot.toNat {}).bytes (8 * q.slots.selWord.toNat) 8)
  | 0x200 => regWord [(popcount 13 (arrMask x .ballast), 52, 4), (c.ident.activeArrays.toNat / 8, 48, 4), (arrMask x .retired, 32, 13), (arrMask x .ballast, 16, 13),
      (arrMask x .active, 0, 13)]
  | 0x208 => regWord [(x.mismatchCount.toNat, 48, 16), (x.lastUnit.toNat, 44, 4), (x.lastTv.toNat, 40, 2), (x.lastRow.toNat, 35, 5), (x.lastKind.toNat, 33, 2),
      (x.checkPathCount.toNat, 16, 16)]
  | 0x300 => st.sel.setWidth 64
  | 0x308 => match lookup? st.sel.toNat st.chans with | some s => s.word | none => 0
  | 0x310 => regWord [(boolNat st.holdOvf, 48, 1), (st.holdCycles.toNat, 0, 48)]
  | 0x318 => regWord [(st.lateOperand.toNat, 48, 16), (st.lateGather.toNat, 32, 16), (st.streamFull.toNat, 16, 16), (st.descInvalid.toNat, 0, 16)]
  | 0x400 => regWord [(boolNat st.skippedOvf, 48, 1), (st.skipped.toNat, 0, 48)]
  | 0x500 => regWord [(boolNat y.smBallastUsed, 53, 1), (if y.smBallastUsed then y.smSubst.toNat else 0, 48, 5), (y.smRetired.toNat, 0, 33)]
  | 0x508 =>
    let busy := y.migState != 0
    regWord [(y.migState.toNat, 62, 2), (if busy then y.migSrc.toNat else 0, 57, 5), (if y.ballastLeft then y.ballastCh.toNat else 0, 52, 5), (boolNat y.ballastLeft, 51, 1),
      (if y.migState == 2 then 2048 else if busy then min 2048 ((c.clk.count - y.migAt).toNat / 2 ^ 15) else 0, 32, 12), (y.chRetired.toNat, 0, 32)]
  | 0x510 => regWord [(y.hbmCe.toNat, 48, 16), (y.hbmUe.toNat, 32, 16), (y.smCe.toNat, 16, 16), (y.smUe.toNat, 0, 16)]
  | 0x518 => regWord [(y.cmCe.toNat, 32, 16), (y.cmUe.toNat, 16, 16), (y.staleCount.toNat, 0, 16)]
  | _ => 0

/-! ### Link dies -/

/-- STATE of LD_PORT_STATUS (08 Table 08-17). -/
def PortSt.num : PortSt → Nat
  | .off => 0 | .train => 1 | .up => 2 | .retrain => 3 | .failed => 4

/-- LD_PORT_STATUS of a port (08 R292). -/
def Port.status (q : Port) : BitVec 64 :=
  regWord [(q.st.num, 61, 3), (q.lanesOk.toNat, 56, 5), (q.spareFor.toNat, 53, 3), (boolNat q.enc, 52, 1), (q.peerId.toNat, 36, 14), (q.peerPort.toNat, 32, 4),
    (q.oneway.toNat, 18, 14), (boolNat q.disable, 0, 1)]

/-- The block of link die `l` (06 R203, 08 R292, R293, 09 R335 to R338). -/
def readLd (c : Core) (l off : Nat) : BitVec 64 :=
  let d := c.fab.lds.getD l {}
  let pt := fun (base : Nat) => c.port (portAt l ((off - base) / 8))
  if inRange off 0x100 32 then (pt 0x100).status
  else if inRange off 0x140 32 then
    let q := pt 0x140
    regWord [(q.crcErr.toNat, 48, 16), (q.replayTo.toNat, 32, 16), (q.fecUncorr.toNat, 16, 16), (q.retrains.toNat, 0, 16)]
  else if inRange off 0x800 32 then regWord [((pt 0x800).theta.toNat, 32, 32), ((pt 0x800).asym.toNat, 0, 32)]
  else
    match off with
    | 0x200 =>
      match c.fab.colls.find? (fun r => !r.done && r.die == l) with
      | some r => regWord [(if r.aborted then 5 else r.state.toNat, 61, 3), (r.level.toNat, 58, 3), (r.cid.group, 48, 8), (r.cid.inst, 40, 8), (r.cid.step.toNat, 0, 40)]
      | none => regWord [(7, 58, 3)]
    | 0x208 => regWord [(d.issued.toNat, 48, 16), (d.received.toNat, 32, 16), (d.ignored.toNat, 16, 16), (d.lastCause.toNat, 8, 8)]
    | 0x210 => regWord [(boolNat d.opsOvf, 48, 1), (d.ops.toNat, 0, 48)]
    | 0x218 => d.epochDrops.setWidth 64
    | _ => 0

/-! ### Ledger dies and HD1 -/

/-- MiB of a number of bytes, rounded up (10 R379). -/
def mib (n : Nat) : Nat := ceilDiv n (2 ^ 20)

/-- The block of ledger die `k` (10 R375 to R380, 12 R440). -/
def readKd (c : Core) (k off : Nat) : BitVec 64 :=
  let d := c.led
  let sel := d.jobSel.getD k 0
  let job := (c.plan? sel.toNat).bind (fun p => c.job? p.handle)
  let h := c.health
  match off with
  | 0x100 => sel.setWidth 64
  | 0x108 =>
    match job with
    | some j => regWord [(j.lastSealed.toNat, 24, 40), (j.state, 21, 3), ((j.tryOf (j.lastSealed + 1)).attempt, 18, 3), (boolNat j.mirrored, 17, 1), (boolNat j.sealedValid, 16, 1)]
    | none => 0
  | 0x110 => match job with | some j => regWord [(j.step.toNat, 24, 40), (j.beat, 8, 16)] | none => 0
  | 0x118 => regWord [(d.localReplays.toNat, 48, 16), (d.collective.toNat, 32, 16), (d.escalated.toNat, 16, 16), (d.lastCause.toNat, 8, 8)]
  | 0x120 => regWord [(boolNat (d.takeover.getD k false), 63, 1), (mib (d.highWater.getD k 0), 24, 24), (mib (d.used k), 1, 23)]
  | 0x128 => regWord [(d.mode.toNat, 61, 3), (d.partner.toNat, 47, 14), (boolNat d.mirrorValid, 40, 1), (d.mirroredStep.toNat, 0, 40)]
  | 0x130 => regWord [(boolNat (h.suspect || h.agingSuspect), 63, 1), (h.lastCount, 48, 11), (h.threshold.toNat, 32, 16), (h.lateMin.toNat, 16, 16), (h.lastLate.toNat, 0, 16)]
  | _ => 0

/-- STATE of HD1_SPOOL_STATUS (11 Table 11-11); of several, the one of highest code (notes/assumptions/61). -/
def Spool.state (q : Spool) : Nat :=
  let any := fun (p : SnapPhase) => q.slots.any (fun s => match s with | some x => x.phase == p | none => false)
  if !q.restores.isEmpty then 4 else if q.manifests.any (fun m => m.writing.isSome) then 3 else if any .draining then 2 else if any .copying then 1 else 0

/-- The HD1 block (11 R407 to R409). -/
def readHd1 (c : Core) (off : Nat) : BitVec 64 :=
  let q := c.spool
  match off with
  | 0x100 => regWord [(q.state, 61, 3), (q.rate, 48, 8), (maskOf 2 (fun i => (q.slots.getD i none).isSome), 40, 2),
      (maskOf 8 (fun t => match lookup? (q.lastTenant, t) q.targets with | some g => g.connected | none => false), 32, 8), (q.lastSeq.toNat, 0, 32)]
  | 0x108 => regWord [(q.skipped.toNat, 48, 16), (q.failed.toNat, 32, 16), (q.retries.toNat, 16, 16)]
  | 0x110 => regWord [(boolNat q.lbasOvf, 48, 1), (q.lbas.toNat, 0, 48)]
  | _ => 0

/-! ### The error log and tenant pages -/

/-- The error log block (12 R437): the record window reads 0 where no record stands. -/
def readErr (c : Core) (off : Nat) : BitVec 64 :=
  match off with
  | 0 => c.log.written.setWidth 64
  | 8 => regWord [(c.log.overrun.toNat, 48, 16), (c.log.read.toNat, 0, 32)]
  | _ =>
    if inRange off 0x10000 0x40000 then
      match c.log.recs.find? (fun r => r.seq.toNat % 4096 == (off - 0x10000) / 64) with
      | some r => BitVec.ofNat 64 (fieldAt (recBytes r) (off % 64) 8)
      | none => 0
    else 0

/-- The record that TEN_LOG_SEL selects, when it is available (13 R474). -/
def Core.selRec (c : Core) (t : Nat) : Option Rec :=
  let sel := (c.ten t).logSel.toNat
  c.log.recs.find? (fun r => r.seq.toNat == field sel 0 32 && (t == 0 || r.tenant == some (BitVec.ofNat 8 t)))

/-- The register page of tenant `t` (13 R470 to R474); the MSI-X table lies at 0x8000 and the pending bits, which read 0, at 0xC000. -/
def readTen (c : Core) (t off : Nat) : BitVec 64 :=
  let x := c.ten t
  if inRange off 0x100 128 then (lookup? ((off - 0x100) / 8) x.apertures).getD 0
  else if inRange off 0x8000 0x400 then (lookup? ((off - 0x8000) / 8) x.msix).getD 0
  else
    match off with
    | 0 => regWord [(t, 8, 8), (boolNat (c.ident.dedicated == some (BitVec.ofNat 8 t)), 1, 1), (boolNat x.enabled, 0, 1)]
    | 8 => regWord [(x.unsolLost.toNat, 48, 16), (x.eventsUnposted.toNat, 32, 16), ((match x.txn with | some y => y.staged.length | none => 0), 8, 8),
        (boolNat x.txn.isSome, 2, 1), (boolNat c.health.volezStandby, 1, 1), (boolNat x.adminLive, 0, 1)]
    | 0x10 => x.adminSq
    | 0x18 => x.adminCq
    | 0x20 => x.adminShadow
    | 0x180 => regWord [(x.apWriteErrs.toNat, 48, 16), (x.apReadErrs.toNat, 32, 16)]
    | 0x200 => regWord [(boolNat (c.selRec t).isSome, 63, 1), (field x.logSel.toNat 0 35, 0, 35)]
    | 0x208 => match c.selRec t with | some r => BitVec.ofNat 64 (fieldAt (recBytes r) (8 * field x.logSel.toNat 32 3) 8) | none => 0
    | _ => 0

/-! ### Places and reads (13 Table 13-3, 00 R6) -/

/-- The block base index, instance and offset of a byte of PF BAR0 (Table 13-3; the indexes of 12 Table 12-5); none between the blocks. -/
def pfPlace (off : Nat) : Option (Nat × Nat × Nat) :=
  let rows : List (Nat × Nat × Nat × Nat) :=
    [(0, 0, 1, 2 ^ 24), (0x1000000, 1, 1, 2 ^ 24), (0x2000000, 2, 1, 2 ^ 24), (0x4000000, 3, 8, 2 ^ 22), (0x6000000, 4, 4, 2 ^ 22), (0x8000000, 5, 4, 2 ^ 22),
     (0xA000000, 6, 2, 2 ^ 22), (0xC000000, 7, 1, 2 ^ 24), (0xE000000, 8, 1, 2 ^ 24), (0xF000000, 9, 256, 2 ^ 16)]
  (rows.find? (fun r => inRange off r.1 (r.2.2.1 * r.2.2.2))).map (fun r => (r.2.1, (off - r.1) / r.2.2.2, (off - r.1) % r.2.2.2))

/-- Where an access falls: a virtual function reaches only its own page (13 R444). -/
def RegAcc.place (a : RegAcc) : Option (Nat × Nat × Nat) :=
  if a.fn = 0 then pfPlace a.off else if a.off < 2 ^ 16 then some (9, a.fn.toNat, a.off) else none

/-- The whole register at an 8-byte aligned offset of a block; one that names no register reads 0 (00 R6). -/
def regRead (p : Power) (mem : Mem) (c : Core) (blk inst off : Nat) : BitVec 64 :=
  match blk with
  | 0 => readVz c off
  | 1 => readRst mem c off
  | 2 => readPwr p c off
  | 3 => readPart c inst off
  | 5 => readLd c inst off
  | 6 => readKd c inst off
  | 7 => readHd1 c off
  | 8 => readErr c off
  | 9 => readTen c inst off
  | _ => 0

/-- Whether an access has a size and alignment that R6 accepts; the windows of 12 R437 and 14 R499 take 8-byte reads only. -/
def RegAcc.good (a : RegAcc) (pl : Option (Nat × Nat × Nat)) : Bool :=
  let window := match pl with
    | some (8, _, off) => inRange off 0x10000 0x40000
    | some (1, _, off) => inRange off 0x100000 0x10000
    | _ => false
  (a.size == 8 || (a.size == 4 && !window)) && a.off % max a.size 1 == 0

/-- Whether a place reads before Ready (14 R479): the RST block and VZ_MODULE_IDENT. -/
def readsEarly (pl : Option (Nat × Nat × Nat)) : Bool :=
  match pl with
  | some (1, _, _) => true
  | some (0, _, off) => off / 8 == 2
  | _ => false

/-- Whether a place is the register page of a disabled tenant (13 R443). -/
def Core.pageOff (c : Core) (pl : Option (Nat × Nat × Nat)) : Bool :=
  match pl with
  | some (9, t, _) => !(c.ten t).enabled
  | _ => false

/-- REGISTER_ACCESS (00 R6, 12 R531): `vol` says that Volez performs the access. -/
def accessRec (a : RegAcc) (vol : Bool) (pl : Option (Nat × Nat × Nat)) : Rec :=
  let (blk, inst, off) := pl.getD (0xFF, 0, a.off)
  { modRec 0x708 3 1 0x20 (if vol then 0x10 else 0x12) 0 with
    oper := 6, tenant := some a.fn, detail := bytesLE 1 blk ++ bytesLE 1 inst ++ bytesLE 4 off ++ bytesLE 1 a.size }

/-- The value a good access reads: the register, or the half that it names; bytes 4 to 7 of VZ_CELOTH_COUNT come from the latch (06 R198). -/
def regValue (p : Power) (mem : Mem) (c : Core) (a : RegAcc) (pl : Option (Nat × Nat × Nat)) : List Byte :=
  match pl with
  | none => List.replicate a.size 0
  | some (blk, inst, off) =>
    let w := regRead p mem c blk inst (off / 8 * 8)
    if a.size = 8 then bytesLE 8 w.toNat
    else if off % 8 = 0 then bytesLE 4 w.toNat
    else
      match (if blk = 0 && off = 0x44 then c.clk.latch else none) with
      | some v => bytesLE 4 v.toNat
      | none => bytesLE 4 (w >>> 32).toNat

/-- A 4-byte read of bytes 0 to 3 of VZ_CELOTH_COUNT latches the rest (06 R198). -/
def Core.latchCount (c : Core) : Core := { c with clk := { c.clk with latch := some ((c.clk.count >>> 32).setWidth 32) } }

/-- A register read (00 R6, 14 R479): what the reader gets, and the machine after it. -/
def readGives (p : Power) (mem : Mem) (a : RegAcc) (vol : Bool) (c : Core) : List Byte × Core :=
  let pl := a.place
  if c.rst.phase != 6 then
    (if !(readsEarly pl) then List.replicate a.size 0 else if a.good pl then regValue p mem c a pl else List.replicate a.size 0xFF, c)
  else if c.pageOff pl then (List.replicate a.size 0, c)
  else if !(a.good pl) then (List.replicate a.size 0xFF, c.logRec (accessRec a vol pl))
  else (regValue p mem c a pl, if pl == some (0, 0, 0x40) && a.size = 4 then c.latchCount else c)

/-- A register read from the host, answered (00 R6). -/
def readAccess (p : Power) (mem : Mem) (a : RegAcc) (vol : Bool) (c : Core) : Core :=
  let (v, c1) := readGives p mem a vol c
  c1.emit (.data v)

end Sys2Proof.Machine
end

