-- ==== Sys2Proof/Machine/RegRows.lean ====
section
/-!
DEFINITION. Writes of registers (00 R6 to R9), each clear and control bit as an operation of its own, the rows that are those writes, and register access over the
host interface and over the fabric (08 R282, 12 R531).
-/

namespace Sys2Proof.Machine

/-! ### Clears -/

/-- PART_MX_FAULT.CLEAR_COUNTS (03 R85). -/
def clearCounts (p : Nat) : Core → Core := Core.modMx p (fun q => { q with mismatchCount := 0, checkPathCount := 0 })

/-- PART_HOLD_STATS.CLEAR (04 R123). -/
def clearHold (p : Nat) : Core → Core :=
  Core.modStreams p (fun q => { q with holdCycles := 0, holdOvf := false, lateOperand := 0, lateGather := 0, streamFull := 0, descInvalid := 0 })

/-- PART_VS_SKIP.CLEAR (05 R155). -/
def clearSkip (p : Nat) : Core → Core := Core.modStreams p (fun q => { q with skipped := 0, skippedOvf := false })

/-- PART_BEAT_STATS.CLEAR (06 R201). -/
def clearSlips (p : Nat) : Core → Core := Core.modSlots p (fun q => { q with slips := 0, slipsOvf := false })

/-- PART_MEM_ECC_CM.CLEAR (07 R247). -/
def clearEcc (p : Nat) : Core → Core :=
  Core.modMem p (fun q => { q with hbmCe := 0, hbmUe := 0, smCe := 0, smUe := 0, cmCe := 0, cmUe := 0, staleCount := 0 })

/-- The flags of the selected channel that a write names cleared (04 R122): POISON_SEEN, FULL_HOLD, EMPTY_HOLD in bits 2 to 0. -/
def clearStream (p : Nat) (flags : BitVec 3) : Core → Core :=
  Core.modStreams p (fun q =>
    match lookup? q.sel.toNat q.chans with
    | none => q
    | some s =>
      let r : ChanSt := { s with
        poisonSeen := s.poisonSeen && !(flags.getLsbD 2), fullHold := s.fullHold && !(flags.getLsbD 1), emptyHold := s.emptyHold && !(flags.getLsbD 0) }
      { q with chans := insertKey q.sel.toNat r q.chans })

/-- LOST_SEEN cleared (06 R199). -/
def clearLost : Core → Core := Core.modFab (fun q => { q with lostSeen := false })

/-- LD_PORT_STATUS.CLEAR_ERR (08 R292). -/
def clearErr (i : Nat) : Core → Core := Core.modPort i (fun q => { q with crcErr := 0, replayTo := 0, fecUncorr := 0, retrains := 0 })

/-- DISABLE written (08 R265, R292): set, the port is held in OFF, and a port that carried frames fails first; cleared, it trains when it finds a peer. -/
def portDisable (i : Nat) (on : Bool) (c : Core) : Core :=
  if on then (if (c.port i).disable then c else (c.portReset i).modPort i (fun q => { q with disable := true }))
  else c.modPort i (fun q => { q with disable := false })

/-- LD_CS_ABORTS.CLEAR (09 R336). -/
def clearAborts (l : Nat) : Core → Core :=
  Core.modFab (fun q => { q with lds := modAt q.lds l (fun d => { d with issued := 0, received := 0, ignored := 0 }) })

/-- LD_KITE_STATS.CLEAR (09 R337). -/
def clearKite (l : Nat) : Core → Core :=
  Core.modFab (fun q => { q with lds := modAt q.lds l (fun d => { d with ops := 0, opsOvf := false, epochDrops := 0 }) })

/-- KD_REPLAY_STATS.CLEAR (10 R378). -/
def clearReplays : Core → Core := Core.modLed (fun l => { l with localReplays := 0, collective := 0, escalated := 0 })

/-- KD_HAMPER_STATUS.CLEAR_HW (10 R379). -/
def clearHighWater (k : Nat) : Core → Core := Core.modLed (fun l => { l with highWater := setAt l.highWater k (l.used k) })

/-- HD1_SPOOL_ERRS.CLEAR (11 R408). -/
def clearSpoolErrs (c : Core) : Core := { c with spool := { c.spool with skipped := 0, failed := 0, retries := 0 } }

/-- HD1_SPOOL_BYTES.CLEAR (11 R409). -/
def clearSpoolBytes (c : Core) : Core := { c with spool := { c.spool with lbas := 0, lbasOvf := false } }

/-- ERR_LOG_READ.CLEAR_OVR (12 R437). -/
def clearOvr (c : Core) : Core := { c with log := { c.log with overrun := 0 } }

/-- TEN_STATUS.CLEAR (13 R470). -/
def clearTen (t : Nat) : Core → Core := Core.modTen t (fun x => { x with unsolLost := 0, eventsUnposted := 0 })

/-- TEN_APERTURE_ERRS.CLEAR (13 R473). -/
def clearAperture (t : Nat) : Core → Core := Core.modTen t (fun x => { x with apReadErrs := 0, apWriteErrs := 0 })

/-- 1 written to ENABLE (13 R471, R448): the admin pair starts with the bases and sizes set, unless it was started before or a size is reserved. -/
def adminEnable (t : Nat) (c : Core) : Core :=
  let x := c.ten t
  if x.adminShadow.getLsbD 0 then c
  else
    let c1 := c.modTen t (fun x => { x with adminShadow := x.adminShadow ||| 1 })
    let size := fun (w : BitVec 64) => w.toNat % 16
    if 12 < size x.adminSq || 12 < size x.adminCq then c1
    else
      let base := fun (w : BitVec 64) => BitVec.ofNat 64 (w.toNat / 4096 * 4096)
      let sh := x.adminShadow.toNat / 16 * 16
      let sq : Queue := { kind := .sq, entries := 2 ^ (size x.adminSq + 4), base := base x.adminSq, shadow := BitVec.ofNat 64 sh, bound := 1 }
      let cq : Queue := { kind := .cq, entries := 2 ^ (size x.adminCq + 4), base := base x.adminCq, shadow := BitVec.ofNat 64 (sh + 8) }
      (c1.modTen t (fun x => { x with adminLive := true, queues := [(0, sq), (1, cq)] ++ x.queues.filter (fun q => decide (2 ≤ q.1)) })).drainFifo (BitVec.ofNat 8 t) 64

/-- 0 written to ENABLE (13 R471): no command is fetched any more, and the pair stops once the accepted ones have replied. -/
def adminDisable (t : Nat) (c : Core) : Core :=
  let c1 := c.modTen t (fun x =>
    { x with adminShadow := x.adminShadow &&& ~~~1, queues := if x.adminLive then x.queues.filter (fun q => !(q.1 == 0)) else x.queues.filter (fun q => decide (2 ≤ q.1)) })
  c1.adminSettle t

/-! ### Writes -/

/-- An RW field of a register after a write of the bits `mask` of `v`, its lowest bit being `lo`. -/
def rwField {w : Nat} (mask v : BitVec 64) (lo : Nat) (old : BitVec w) : BitVec w :=
  let k := (mask >>> lo).setWidth w
  (old &&& ~~~k) ||| ((v >>> lo).setWidth w &&& k)

/-- Whether a write of the bits `mask` of `v` writes 1 to bit `i`. -/
def wrote (mask v : BitVec 64) (i : Nat) : Bool := mask.getLsbD i && v.getLsbD i

/-- A change made when a bit is written with 1. -/
def onBit (b : Bool) (f : Core → Core) (c : Core) : Core := if b then f c else c

/-- The register at an 8-byte aligned offset of a block written (00 R6, R7): the bits of `mask`. -/
def regWrite (blk inst off : Nat) (mask v : BitVec 64) (c : Core) : Core :=
  let hit := wrote mask v
  match blk, off with
  | 0, 0x48 => onBit (hit 0) clearLost c
  | 0, 0x88 => c.modHealth (fun h => { h with eventEn := rwField mask v 0 h.eventEn })
  | 1, 0x18 => c.modRst (fun r => { r with capSel := rwField (mask &&& 0x0F0000000000007F) v 0 r.capSel })
  | 2, 0x400 => c.modHealth (fun h => { h with monSel := rwField mask v 0 h.monSel })
  | 3, 0x100 => onBit (hit 63) (clearSlips inst) c
  | 3, 0x108 => c.modSlots inst (fun q => { q with selSlot := rwField mask v 3 q.selSlot, selWord := rwField mask v 0 q.selWord })
  | 3, 0x208 => onBit (hit 0) (clearCounts inst) c
  | 3, 0x300 => c.modStreams inst (fun q => { q with sel := rwField mask v 0 q.sel })
  | 3, 0x308 => clearStream inst ((v &&& mask).setWidth 3) c
  | 3, 0x310 => onBit (hit 63) (clearHold inst) c
  | 3, 0x400 => onBit (hit 63) (clearSkip inst) c
  | 3, 0x518 => onBit (hit 63) (clearEcc inst) c
  | 5, 0x208 => onBit (hit 0) (clearAborts inst) c
  | 5, 0x210 => onBit (hit 63) (clearKite inst) c
  | 5, _ =>
    if inRange off 0x100 32 then
      let i := portAt inst ((off - 0x100) / 8)
      let c1 := onBit (hit 1) (clearErr i) c
      if mask.getLsbD 0 then portDisable i (v.getLsbD 0) c1 else c1
    else if inRange off 0x800 32 then c.modPort (portAt inst ((off - 0x800) / 8)) (fun q => { q with asym := rwField mask v 0 q.asym })
    else c
  | 6, 0x100 => c.modLed (fun l => { l with jobSel := modAt l.jobSel inst (rwField mask v 0) })
  | 6, 0x118 => onBit (hit 0) clearReplays c
  | 6, 0x120 => onBit (hit 0) (clearHighWater inst) c
  | 6, 0x130 => c.modHealth (fun h => { h with threshold := rwField mask v 32 h.threshold, lateMin := rwField mask v 16 h.lateMin })
  | 7, 0x108 => onBit (hit 0) clearSpoolErrs c
  | 7, 0x110 => onBit (hit 63) clearSpoolBytes c
  | 8, 8 => onBit (hit 32) clearOvr { c with log := { c.log with read := rwField mask v 0 c.log.read } }
  | 9, 8 => onBit (hit 16) (clearTen inst) c
  | 9, 0x10 => c.modTen inst (fun x => { x with adminSq := rwField (mask &&& 0xFFFFFFFFFFFFF00F) v 0 x.adminSq })
  | 9, 0x18 => c.modTen inst (fun x => { x with adminCq := rwField (mask &&& 0xFFFFFFFFFFFFF00F) v 0 x.adminCq })
  | 9, 0x20 =>
    let c1 := c.modTen inst (fun x => { x with adminShadow := rwField (mask &&& 0xFFFFFFFFFFFFFFF0) v 0 x.adminShadow })
    if mask.getLsbD 0 then (if v.getLsbD 0 then adminEnable inst c1 else adminDisable inst c1) else c1
  | 9, 0x180 => onBit (hit 0) (clearAperture inst) c
  | 9, 0x200 => c.modTen inst (fun x => { x with logSel := rwField (mask &&& 0x7FFFFFFFF) v 0 x.logSel })
  | 9, _ =>
    if inRange off 0x100 128 then
      c.modTen inst (fun x =>
        let n := (off - 0x100) / 8
        { x with apertures := insertKey n (rwField (mask &&& 0xFE00000FC0000000) v 0 ((lookup? n x.apertures).getD 0)) x.apertures })
    else if inRange off 0x8000 0x400 then
      c.modTen inst (fun x =>
        let n := (off - 0x8000) / 8
        { x with msix := insertKey n (rwField mask v 0 ((lookup? n x.msix).getD 0)) x.msix })
    else c
  | _, _ => c

/-- INPUT_FAULT written with 1 clears while both channels read released (15 R521). -/
def Power.faultClear (p : Power) : Power := if !p.aLow && !p.bLow then { p with inputFault := false } else p

/-- A register write's effect on the housekeeping domain (15 R521, R522, R524). -/
def powerWrite (blk off : Nat) (mask v : BitVec 64) (p : Power) : Power :=
  match blk, off with
  | 2, 0x10 => if wrote mask v 62 then p.faultClear else p
  | 2, 0x18 => if wrote mask v 0 then { p with voltLimits := 0, eqLimits := 0 } else p
  | 2, 0x108 => if wrote mask v 63 then { p with throttleUs := 0, throttleOvf := false } else p
  | _, _ => p

/-- The bits that a good access writes. -/
def RegAcc.mask (a : RegAcc) : BitVec 64 := if a.size = 8 then -1 else if a.off % 8 = 0 then 0xFFFFFFFF else 0xFFFFFFFF00000000

/-- The value written, at the place of the half that a 4-byte access names. -/
def RegAcc.value (a : RegAcc) (v : BitVec 64) : BitVec 64 := if a.size = 4 && a.off % 8 != 0 then v <<< 32 else v

/-- Whether an access writes: the module is Ready, the page is that of an enabled tenant, and size and alignment are good. -/
def RegAcc.writes (a : RegAcc) (c : Core) : Bool := c.rst.phase == 6 && !(c.pageOff a.place) && a.good a.place

/-- A register write (00 R6, 14 R479): one of bad size or alignment is discarded with a record. -/
def writeAccess (a : RegAcc) (v : BitVec 64) (vol : Bool) (c : Core) : Core :=
  let pl := a.place
  if a.writes c then
    match pl with
    | some (blk, inst, off) => regWrite blk inst (off / 8 * 8) a.mask (a.value v) c
    | none => c
  else if c.rst.phase != 6 || c.pageOff pl then c
  else c.logRec (accessRec a vol pl)

/-- What a write does to the housekeeping domain. -/
def writePower (a : RegAcc) (v : BitVec 64) (c : Core) (p : Power) : Power :=
  if a.writes c then
    match a.place with
    | some (blk, _, off) => powerWrite blk (off / 8 * 8) a.mask (a.value v) p
    | none => p
  else p

/-! ### Rows: accesses -/

/-- REGISTER_WRITE (00 R6, R7). -/
def execRegisterWrite (a : RegAcc) (v : BitVec 64) (s : State) : Host.Outcome State Fault Refusal :=
  runP (writePower a v) (fun _ m => m.up (writeAccess a v false)) s

/-- REGISTER_ACCESS (00 R6): an access of any size and alignment, a read, or a write of a value. -/
def execRegisterAccess (a : RegAcc) (v : Option (BitVec 64)) (s : State) : Host.Outcome State Fault Refusal :=
  match v with
  | some w => runP (writePower a w) (fun _ m => m.up (writeAccess a w false)) s
  | none => runC (fun p mem c => readAccess p mem a false c) s

/-- CELOTH_COUNT_LOW_READ (06 R198). -/
def execCelothCountLowRead (s : State) : Host.Outcome State Fault Refusal :=
  runC (fun p mem c => readAccess p mem { fn := 0, off := 0x40, size := 4 } false c) s

/-- Whether a remote register access is accepted (08 R282): TENANT 0 with the CKEY of a slice of tenant 0, from a module of the machine, to an offset in range.
The answer is the reason of a REJECT, 0 for none (Table 08-13). -/
def regTest (c : Core) (f : Frame) : Nat :=
  let b := padTo 32 f.payload
  let addr := fieldAt b 0 8
  let g := c.fab.cfg
  let far := f.src.toNat / 64
  let here := decide (far % 8 < g.sx) && decide (far / 8 % 8 < g.sy) && decide (far / 64 < g.sz)
  if f.tenant != 0 || !(c.fab.slices.any (fun s => s.tenant == 0 && s.ckey.toNat == fieldAt b 8 4)) || !here then 1
  else if gaSpace addr ≠ 3 then 2
  else if field addr 28 20 ≠ 0 || field addr 0 3 ≠ 0 then 3
  else 0

/-- The access that a remote register frame asks for: 8 bytes of PF BAR0 (notes/assumptions/44). -/
def regFar (f : Frame) : RegAcc := { fn := 0, off := fieldAt (padTo 32 f.payload) 0 8 % 2 ^ 28, size := 8 }

/-- The answer to a remote register read, which follows the rules of a local one (R6, 14 R479): RD_RSP with the value in its first 8 bytes
(notes/assumptions/44). -/
def regAnswer (p : Power) (f : Frame) (m : Mach) : Mach :=
  let (v, c) := readGives p m.mem (regFar f) true m.core
  { m with core := c }.up (Core.sendFrame { vc := 6, typ := 5, dst := f.src, src := 0, tenant := 0, xid := f.xid, payload := padTo 64 v })

/-- REG_RD (08 R282): a frame on a port. -/
def execRegRd (port : Nat) (f : Frame) (s : State) : Host.Outcome State Fault Refusal :=
  runM (Mach.arrive port { f with typ := 8 } (fun f m =>
    let r := regTest m.core f
    if r ≠ 0 then m.up (Core.refuseFar f r (fieldAt (padTo 32 f.payload) 0 8)) else regAnswer m.pwr f m)) s

/-- Whether a frame on a port is the next one for this module, so that it is taken now. -/
def Core.takes (c : Core) (port : Nat) (f : Frame) : Bool :=
  let pt := c.port port
  pt.st == .up && f.seq == pt.expect && vcAllows f.typ.toNat f.vc.toNat && f.dst.toNat == c.fab.cfg.own

/-- REG_WR (08 R282): a frame on a port, its value in payload bytes 16 to 23 (notes/assumptions/44). -/
def execRegWr (port : Nat) (f : Frame) (s : State) : Host.Outcome State Fault Refusal :=
  let g : Frame := { f with typ := 9 }
  let v := BitVec.ofNat 64 (fieldAt (padTo 32 f.payload) 16 8)
  runP (fun c p => if c.takes port g && regTest c g = 0 then writePower (regFar g) v c p else p)
    (fun _ m => m.arrive port g (fun f m =>
      let r := regTest m.core f
      if r ≠ 0 then m.up (Core.refuseFar f r (fieldAt (padTo 32 f.payload) 0 8))
      else m.up (fun c => (writeAccess (regFar f) v true c).sendFrame { vc := 6, typ := 7, dst := f.src, src := 0, tenant := 0, xid := f.xid }))) s

/-! ### Rows: clears and controls -/

/-- A write of a clear or control bit over the host interface: discarded until Ready (14 R479). -/
def bitRow (f : Core → Core) (s : State) : Host.Outcome State Fault Refusal := runC (fun _ _ c => if c.rst.phase == 6 then f c else c) s

/-- A write to the register page of a tenant, discarded while it is disabled (13 R443). -/
def pageRow (t : TenantId) (f : Core → Core) (s : State) : Host.Outcome State Fault Refusal :=
  runC (fun _ _ c => if c.rst.phase == 6 && (c.ten t.toNat).enabled then f c else c) s

/-- CLEAR_COUNTS (03 R85). -/
def execClearCounts (part : Nat) (s : State) : Host.Outcome State Fault Refusal := bitRow (clearCounts part) s

/-- PART_HOLD_STATS_CLEAR (04 R123). -/
def execPartHoldStatsClear (part : Nat) (s : State) : Host.Outcome State Fault Refusal := bitRow (clearHold part) s

/-- PART_VS_SKIP_CLEAR (05 R155). -/
def execPartVsSkipClear (part : Nat) (s : State) : Host.Outcome State Fault Refusal := bitRow (clearSkip part) s

/-- PART_BEAT_STATS_CLEAR (06 R201). -/
def execPartBeatStatsClear (part : Nat) (s : State) : Host.Outcome State Fault Refusal := bitRow (clearSlips part) s

/-- PART_MEM_ECC_CLEAR (07 R247). -/
def execPartMemEccClear (part : Nat) (s : State) : Host.Outcome State Fault Refusal := bitRow (clearEcc part) s

/-- STREAM_STATE_FLAG_CLEAR (04 R122): the flags written with 1. -/
def execStreamStateFlagClear (part : Nat) (flags : BitVec 3) (s : State) : Host.Outcome State Fault Refusal := bitRow (clearStream part flags) s

/-- LOST_SEEN_CLEAR (06 R199). -/
def execLostSeenClear (s : State) : Host.Outcome State Fault Refusal := bitRow clearLost s

/-- CLEAR_ERR (08 R292). -/
def execClearErr (port : Nat) (s : State) : Host.Outcome State Fault Refusal := bitRow (clearErr port) s

/-- PORT_DISABLE_WRITE (08 R292). -/
def execPortDisableWrite (port : Nat) (disable : Bool) (s : State) : Host.Outcome State Fault Refusal := bitRow (portDisable port disable) s

/-- CS_ABORTS_CLEAR (09 R336). -/
def execCsAbortsClear (ld : Nat) (s : State) : Host.Outcome State Fault Refusal := bitRow (clearAborts ld) s

/-- KITE_STATS_CLEAR (09 R337). -/
def execKiteStatsClear (ld : Nat) (s : State) : Host.Outcome State Fault Refusal := bitRow (clearKite ld) s

/-- REPLAY_STATS_CLEAR (10 R378). -/
def execReplayStatsClear (s : State) : Host.Outcome State Fault Refusal := bitRow clearReplays s

/-- CLEAR_HW (10 R379): the ledger die. -/
def execClearHw (k : Nat) (s : State) : Host.Outcome State Fault Refusal := bitRow (clearHighWater k) s

/-- SPOOL_ERRS_CLEAR (11 R408). -/
def execSpoolErrsClear (s : State) : Host.Outcome State Fault Refusal := bitRow clearSpoolErrs s

/-- SPOOL_BYTES_CLEAR (11 R409). -/
def execSpoolBytesClear (s : State) : Host.Outcome State Fault Refusal := bitRow clearSpoolBytes s

/-- CLEAR_OVR (12 R437). -/
def execClearOvr (s : State) : Host.Outcome State Fault Refusal := bitRow clearOvr s

/-- TEN_STATUS_CLEAR (13 R470). -/
def execTenStatusClear (tenant : TenantId) (s : State) : Host.Outcome State Fault Refusal := pageRow tenant (clearTen tenant.toNat) s

/-- ADMIN_QUEUE_ENABLE (13 R471). -/
def execAdminQueueEnable (tenant : TenantId) (s : State) : Host.Outcome State Fault Refusal := pageRow tenant (adminEnable tenant.toNat) s

/-- ADMIN_QUEUE_DISABLE (13 R471). -/
def execAdminQueueDisable (tenant : TenantId) (s : State) : Host.Outcome State Fault Refusal := pageRow tenant (adminDisable tenant.toNat) s

/-- APERTURE_ERRS_CLEAR (13 R473). -/
def execApertureErrsClear (tenant : TenantId) (s : State) : Host.Outcome State Fault Refusal := pageRow tenant (clearAperture tenant.toNat) s

end Sys2Proof.Machine
end

