-- ==== Sys2Proof/Machine/Retry.lean ====
section
/-!
DEFINITION. The release of beat holds (03 R64, 06 R161 to R163): held instructions issue again in the order they were held.
-/

namespace Sys2Proof.Machine

/-- A held station instruction issued again; other commands are never held. -/
def reissue (granted : Bool) (i : Instr) (m : Mach) : Mach :=
  match i with
  | .nop st h => nopRun granted st h m
  | .post st h f => postRun granted st h f m
  | .release st h f => releaseRun granted st h f m
  | .mma st h f => mmaRun granted st h f m
  | .vload st h f => vloadRun granted st h f m
  | .mv st h f => mvRun granted st h f m
  | .vadd st h f => vecRun 0x30 granted (.vadd st h f) st h f m
  | .vsub st h f => vecRun 0x31 granted (.vsub st h f) st h f m
  | .vmul st h f => vecRun 0x32 granted (.vmul st h f) st h f m
  | .vfma st h f => vecRun 0x33 granted (.vfma st h f) st h f m
  | .vmax st h f => vecRun 0x34 granted (.vmax st h f) st h f m
  | .vmin st h f => vecRun 0x35 granted (.vmin st h f) st h f m
  | .vaxpy st h f => vecRun 0x36 granted (.vaxpy st h f) st h f m
  | .vabs st h f => vecRun 0x37 granted (.vabs st h f) st h f m
  | .vneg st h f => vecRun 0x38 granted (.vneg st h f) st h f m
  | .vclamp st h f => vecRun 0x39 granted (.vclamp st h f) st h f m
  | .vcvt st h f => vecRun 0x3A granted (.vcvt st h f) st h f m
  | .vfill st h f => vecRun 0x3B granted (.vfill st h f) st h f m
  | .vrope st h f => vecRun 0x3C granted (.vrope st h f) st h f m
  | .vexp st h f => vecRun 0x40 granted (.vexp st h f) st h f m
  | .vexp2 st h f => vecRun 0x41 granted (.vexp2 st h f) st h f m
  | .vlog st h f => vecRun 0x42 granted (.vlog st h f) st h f m
  | .vrcp st h f => vecRun 0x43 granted (.vrcp st h f) st h f m
  | .vsqrt st h f => vecRun 0x44 granted (.vsqrt st h f) st h f m
  | .vrsqrt st h f => vecRun 0x45 granted (.vrsqrt st h f) st h f m
  | .vtanh st h f => vecRun 0x46 granted (.vtanh st h f) st h f m
  | .vsigmoid st h f => vecRun 0x47 granted (.vsigmoid st h f) st h f m
  | .vgelu st h f => vecRun 0x48 granted (.vgelu st h f) st h f m
  | .vsilu st h f => vecRun 0x49 granted (.vsilu st h f) st h f m
  | .vsin st h f => vecRun 0x4A granted (.vsin st h f) st h f m
  | .vcos st h f => vecRun 0x4B granted (.vcos st h f) st h f m
  | .vrsum st h f => vecRun 0x50 granted (.vrsum st h f) st h f m
  | .vrmax st h f => vecRun 0x51 granted (.vrmax st h f) st h f m
  | .vsoftmax st h f => vecRun 0x52 granted (.vsoftmax st h f) st h f m
  | .vrmsnorm st h f => vecRun 0x53 granted (.vrmsnorm st h f) st h f m
  | .vlayernorm st h f => vecRun 0x54 granted (.vlayernorm st h f) st h f m
  | .vtopk st h f => vecRun 0x56 granted (.vtopk st h f) st h f m
  | .vrowscale st h f => vecRun 0x57 granted (.vrowscale st h f) st h f m
  | .vform st h f => vecRun 0x58 granted (.vform st h f) st h f m
  | .vunform st h f => vecRun 0x59 granted (.vunform st h f) st h f m
  | .vrequant st h f => vecRun 0x5A granted (.vrequant st h f) st h f m
  | .vasacc st h f => vecRun 0x5C granted (.vasacc st h f) st h f m
  | .voptAdamw st h f => vecRun 0x60 granted (.voptAdamw st h f) st h f m
  | .vsqnorm st h f => vecRun 0x61 granted (.vsqnorm st h f) st h f m
  | .vdropout st h f => vecRun 0x6A granted (.vdropout st h f) st h f m
  | .vmask st h f => vecRun 0x6B granted (.vmask st h f) st h f m
  | .allreduce st h f peers => collRun 0x90 granted (.allreduce st h f peers) st h f peers m
  | .reduceScatter st h f peers => collRun 0x91 granted (.reduceScatter st h f peers) st h f peers m
  | .allGather st h f peers => collRun 0x92 granted (.allGather st h f peers) st h f peers m
  | .broadcast st h f peers => collRun 0x93 granted (.broadcast st h f peers) st h f peers m
  | .dispatch st h f peers => collRun 0x94 granted (.dispatch st h f peers) st h f peers m
  | .combine st h f peers => collRun 0x95 granted (.combine st h f peers) st h f peers m
  | .shardPermute st h f peers => collRun 0x96 granted (.shardPermute st h f peers) st h f peers m
  | .gather st h f => gatherRun granted st h f m
  | .xfer st h f => xferRun granted st h f m
  | _ => m

/-- The instructions of a list of holds issued again in order. -/
def reissueAll (granted : Bool) : List Held → Mach → Mach
  | [], m => m
  | q :: qs, m =>
    match q.instr with
    | some i => reissueAll false qs (reissue granted i m)
    | none => reissueAll false qs m

/-- Whether a hold ends only by an event of its own: a post that waits, or a replay or rollback. -/
def Held.waits (q : Held) : Bool :=
  match q.cause with
  | .chanFull => q.instr.isNone
  | .replay => true
  | .rollback => true
  | _ => false

/-- The holds of a job tested again (R64, R161): when the first held instruction passes, the hold has lasted `cycles` core cycles, and every instruction
behind it issues in turn. When it fails as before, the hold goes on and nothing changes; when it fails for another cause, that cause's hold follows without a
gap, with its own record. -/
def holdRelease (granted : Bool) (plan cycles : Nat) (m : Mach) : Mach :=
  match m.core.job? plan with
  | none => m
  | some j =>
    if j.holds.isEmpty || j.holds.any Held.waits then m
    else
      let m0 := m.up (Core.endHold plan cycles)
      match j.holds with
      | [] => m
      | q :: qs =>
        let m1 := reissueAll granted [q] m0
        let stuck := if q.instr.isSome then (m1.core.job? plan).bind (fun k => k.holds.find? (fun e => e.instr == q.instr)) else none
        match stuck with
        | none => reissueAll false qs m1
        | some e =>
          if e.cause == q.cause then m
          else m1.up (fun c => c.modJob plan (fun k => { k with holds := k.holds ++ qs, holdBeats := j.holdBeats }))

/-- ISSUE_HOLD_RELEASE (R64): the plan, and the core cycles its hold lasted. -/
def execIssueHoldRelease (plan cycles : Nat) (s : State) : Host.Outcome State Fault Refusal := runM (holdRelease false plan cycles) s

/-- Where the first held instruction of a job waits for a start grant: its die and physical array. -/
def Core.grantAt (c : Core) (j : Job) : Option (Nat × Nat) :=
  match j.holds with
  | q :: _ => if q.cause == .grant then (c.plan? j.plan).bind (fun p => (p.bindOf q.lsid).map (fun b => (b.die, b.inst))) else none
  | [] => none

/-- The beat cycle in which the first held instruction of a job would start after a hold of `cycles` cycles. -/
def Job.startCycle (j : Job) (cycles : Nat) : Int :=
  match j.holds.head?.bind (fun q => q.instr) with
  | some (.mma _ h _) => (h.issue.toNat : Int) + j.offset + cycles
  | _ => j.offset + cycles

/-- Whether a die gives a start grant to a job's array now: no idle array of a lower physical index waits there, and the last grant lies 4 cycles back (R162). -/
def Core.grantDue (c : Core) (j : Job) (cycles : Nat) : Bool :=
  match c.grantAt j with
  | none => false
  | some (die, a) =>
    c.jobs.all (fun k => match c.grantAt k with | some x => x.1 != die || decide (a ≤ x.2) | none => true) &&
    (match (c.part die).mx.lastGrant with | some g => decide (g + 4 ≤ j.startCycle cycles) | none => true)

/-- A start grant (R162) goes to the first array instruction of a job that waits for one, when the die gives it. -/
def startGrant (plan cycles : Nat) (m : Mach) : Mach :=
  match m.core.job? plan with
  | none => m
  | some j =>
    match m.core.grantAt j with
    | none => m
    | some (die, _) =>
      if m.core.grantDue j cycles then
        (holdRelease true plan cycles m).up (fun c => c.modMx die (fun q => { q with lastGrant := some (j.startCycle cycles) }))
      else m

/-- START_GRANT (R162): the plan whose array instruction has the grant, and the core cycles it waited. -/
def execStartGrant (plan cycles : Nat) (s : State) : Host.Outcome State Fault Refusal := runM (startGrant plan cycles) s

end Sys2Proof.Machine
end

