-- ==== Sys2Proof/Machine/Dispatch.lean ====
section
/-!
DEFINITION. The meaning of every command, one arm per constructor of Instr, each one direct call of that command's own
definition in its family's file.
-/

namespace Sys2Proof.Machine

def exec (i : Instr) (s : State) : Host.Outcome State Fault Refusal :=
  match i with
  | .nop st h => Sys2Proof.Machine.execNop st h s
  | .post st h f => Sys2Proof.Machine.execPost st h f s
  | .release st h f => Sys2Proof.Machine.execRelease st h f s
  | .mma st h f => Sys2Proof.Machine.execMma st h f s
  | .vload st h f => Sys2Proof.Machine.execVload st h f s
  | .mv st h f => Sys2Proof.Machine.execMv st h f s
  | .vadd st h f => Sys2Proof.Machine.execVadd st h f s
  | .vsub st h f => Sys2Proof.Machine.execVsub st h f s
  | .vmul st h f => Sys2Proof.Machine.execVmul st h f s
  | .vfma st h f => Sys2Proof.Machine.execVfma st h f s
  | .vmax st h f => Sys2Proof.Machine.execVmax st h f s
  | .vmin st h f => Sys2Proof.Machine.execVmin st h f s
  | .vaxpy st h f => Sys2Proof.Machine.execVaxpy st h f s
  | .vabs st h f => Sys2Proof.Machine.execVabs st h f s
  | .vneg st h f => Sys2Proof.Machine.execVneg st h f s
  | .vclamp st h f => Sys2Proof.Machine.execVclamp st h f s
  | .vcvt st h f => Sys2Proof.Machine.execVcvt st h f s
  | .vfill st h f => Sys2Proof.Machine.execVfill st h f s
  | .vrope st h f => Sys2Proof.Machine.execVrope st h f s
  | .vexp st h f => Sys2Proof.Machine.execVexp st h f s
  | .vexp2 st h f => Sys2Proof.Machine.execVexp2 st h f s
  | .vlog st h f => Sys2Proof.Machine.execVlog st h f s
  | .vrcp st h f => Sys2Proof.Machine.execVrcp st h f s
  | .vsqrt st h f => Sys2Proof.Machine.execVsqrt st h f s
  | .vrsqrt st h f => Sys2Proof.Machine.execVrsqrt st h f s
  | .vtanh st h f => Sys2Proof.Machine.execVtanh st h f s
  | .vsigmoid st h f => Sys2Proof.Machine.execVsigmoid st h f s
  | .vgelu st h f => Sys2Proof.Machine.execVgelu st h f s
  | .vsilu st h f => Sys2Proof.Machine.execVsilu st h f s
  | .vsin st h f => Sys2Proof.Machine.execVsin st h f s
  | .vcos st h f => Sys2Proof.Machine.execVcos st h f s
  | .vrsum st h f => Sys2Proof.Machine.execVrsum st h f s
  | .vrmax st h f => Sys2Proof.Machine.execVrmax st h f s
  | .vsoftmax st h f => Sys2Proof.Machine.execVsoftmax st h f s
  | .vrmsnorm st h f => Sys2Proof.Machine.execVrmsnorm st h f s
  | .vlayernorm st h f => Sys2Proof.Machine.execVlayernorm st h f s
  | .vtopk st h f => Sys2Proof.Machine.execVtopk st h f s
  | .vrowscale st h f => Sys2Proof.Machine.execVrowscale st h f s
  | .vform st h f => Sys2Proof.Machine.execVform st h f s
  | .vunform st h f => Sys2Proof.Machine.execVunform st h f s
  | .vrequant st h f => Sys2Proof.Machine.execVrequant st h f s
  | .vasacc st h f => Sys2Proof.Machine.execVasacc st h f s
  | .voptAdamw st h f => Sys2Proof.Machine.execVoptAdamw st h f s
  | .vsqnorm st h f => Sys2Proof.Machine.execVsqnorm st h f s
  | .vdropout st h f => Sys2Proof.Machine.execVdropout st h f s
  | .vmask st h f => Sys2Proof.Machine.execVmask st h f s
  | .gather st h f => Sys2Proof.Machine.execGather st h f s
  | .xfer st h f => Sys2Proof.Machine.execXfer st h f s
  | .allreduce st h f peers => Sys2Proof.Machine.execAllreduce st h f peers s
  | .reduceScatter st h f peers => Sys2Proof.Machine.execReduceScatter st h f peers s
  | .allGather st h f peers => Sys2Proof.Machine.execAllGather st h f peers s
  | .broadcast st h f peers => Sys2Proof.Machine.execBroadcast st h f peers s
  | .dispatch st h f peers => Sys2Proof.Machine.execDispatch st h f peers s
  | .combine st h f peers => Sys2Proof.Machine.execCombine st h f peers s
  | .shardPermute st h f peers => Sys2Proof.Machine.execShardPermute st h f peers s
  | .issueHoldRelease plan cycles => Sys2Proof.Machine.execIssueHoldRelease plan cycles s
  | .startGrant plan cycles => Sys2Proof.Machine.execStartGrant plan cycles s
  | .streamPostDeferred plan lsid cycles => Sys2Proof.Machine.execStreamPostDeferred plan lsid cycles s
  | .lateGather plan lsid winEnd => Sys2Proof.Machine.execLateGather plan lsid winEnd s
  | .residueMismatch plan lsid rows col mask fmt tiles cycle => Sys2Proof.Machine.execResidueMismatch plan lsid rows col mask fmt tiles cycle s
  | .descriptorWrite plan part core ring slot v => Sys2Proof.Machine.execDescriptorWrite plan part core ring slot v s
  | .kiteMailboxSubmit plan part core index addr ctrl => Sys2Proof.Machine.execKiteMailboxSubmit plan part core index addr ctrl s
  | .controlCoreFailure p core => Sys2Proof.Machine.execControlCoreFailure p core s
  | .beatEdge edge => Sys2Proof.Machine.execBeatEdge edge s
  | .localReplayEnd plan => Sys2Proof.Machine.execLocalReplayEnd plan s
  | .slotStart part slot ok rewritten => Sys2Proof.Machine.execSlotStart part slot ok rewritten s
  | .holdLimitReached plan remote => Sys2Proof.Machine.execHoldLimitReached plan remote s
  | .engineOverrun plan lsid => Sys2Proof.Machine.execEngineOverrun plan lsid s
  | .captureDone part us => Sys2Proof.Machine.execCaptureDone part us s
  | .captureTimeout part => Sys2Proof.Machine.execCaptureTimeout part s
  | .suspectReplayPass part => Sys2Proof.Machine.execSuspectReplayPass part s
  | .verdictFinal plan step => Sys2Proof.Machine.execVerdictFinal plan step s
  | .sealVoteResult plan res err => Sys2Proof.Machine.execSealVoteResult plan res err s
  | .mirrorVoteResult plan res err => Sys2Proof.Machine.execMirrorVoteResult plan res err s
  | .resumeVoteResult plan res err => Sys2Proof.Machine.execResumeVoteResult plan res err s
  | .snapshotVoteResult plan res err => Sys2Proof.Machine.execSnapshotVoteResult plan res err s
  | .latenessVoteResult plan res err => Sys2Proof.Machine.execLatenessVoteResult plan res err s
  | .kiteOperationComplete plan g seq res => Sys2Proof.Machine.execKiteOperationComplete plan g seq res s
  | .kiteTimeout plan g seq => Sys2Proof.Machine.execKiteTimeout plan g seq s
  | .partnerSilent plan lsid group => Sys2Proof.Machine.execPartnerSilent plan lsid group s
  | .kiteAbortReceived port f => Sys2Proof.Machine.execKiteAbortReceived port f s
  | .failureNoticeReceived plan lost edge => Sys2Proof.Machine.execFailureNoticeReceived plan lost edge s
  | .remapNoticeReceived plan lm phys edge cfg => Sys2Proof.Machine.execRemapNoticeReceived plan lm phys edge cfg s
  | .rollbackNoticeReceived plan l edge => Sys2Proof.Machine.execRollbackNoticeReceived plan l edge s
  | .abortNoticeReceived plan => Sys2Proof.Machine.execAbortNoticeReceived plan s
  | .partnerLost warm => Sys2Proof.Machine.execPartnerLost warm s
  | .entryCheckDone pass next => Sys2Proof.Machine.execEntryCheckDone pass next s
  | .ballastStreamDone => Sys2Proof.Machine.execBallastStreamDone s
  | .mirrorFrameReceived port f => Sys2Proof.Machine.execMirrorFrameReceived port f s
  | .frameBadCrc port tag fec => Sys2Proof.Machine.execFrameBadCrc port tag fec s
  | .frameInvalid port f => Sys2Proof.Machine.execFrameInvalid port f s
  | .linkCtl port f => Sys2Proof.Machine.execLinkCtl port f s
  | .sync port head t1 t2 t3 t4 => Sys2Proof.Machine.execSync port head t1 t2 t3 t4 s
  | .xopen port f found => Sys2Proof.Machine.execXopen port f found s
  | .xdata port f => Sys2Proof.Machine.execXdata port f s
  | .rdReq port f found => Sys2Proof.Machine.execRdReq port f found s
  | .rdRsp port f => Sys2Proof.Machine.execRdRsp port f s
  | .wrReq port f => Sys2Proof.Machine.execWrReq port f s
  | .wrAck port f => Sys2Proof.Machine.execWrAck port f s
  | .regRd port f => Sys2Proof.Machine.execRegRd port f s
  | .regWr port f => Sys2Proof.Machine.execRegWr port f s
  | .kite port f => Sys2Proof.Machine.execKite port f s
  | .reject port f => Sys2Proof.Machine.execReject port f s
  | .linkInit port f => Sys2Proof.Machine.execLinkInit port f s
  | .portStateExchange pos ports => Sys2Proof.Machine.execPortStateExchange pos ports s
  | .peerDetected port => Sys2Proof.Machine.execPeerDetected port s
  | .trainingDone port oneway lanes => Sys2Proof.Machine.execTrainingDone port oneway lanes s
  | .trainingFailed port => Sys2Proof.Machine.execTrainingFailed port s
  | .linkInitResend port => Sys2Proof.Machine.execLinkInitResend port s
  | .laneFailure port lane => Sys2Proof.Machine.execLaneFailure port lane s
  | .replayTimeout port => Sys2Proof.Machine.execReplayTimeout port s
  | .retrainNoProgress port => Sys2Proof.Machine.execRetrainNoProgress port s
  | .fastRetrainDone port => Sys2Proof.Machine.execFastRetrainDone port s
  | .fastRetrainFailed port => Sys2Proof.Machine.execFastRetrainFailed port s
  | .ackTimer port => Sys2Proof.Machine.execAckTimer port s
  | .creditUpdateTimer port => Sys2Proof.Machine.execCreditUpdateTimer port s
  | .syncExchangeTimer port => Sys2Proof.Machine.execSyncExchangeTimer port s
  | .syncLost => Sys2Proof.Machine.execSyncLost s
  | .syncNotRegained => Sys2Proof.Machine.execSyncNotRegained s
  | .rekeyStart port => Sys2Proof.Machine.execRekeyStart port s
  | .keyExhausted port => Sys2Proof.Machine.execKeyExhausted port s
  | .d2dLinkFailed k => Sys2Proof.Machine.execD2dLinkFailed k s
  | .ledgerFailover k => Sys2Proof.Machine.execLedgerFailover k s
  | .volezFailover => Sys2Proof.Machine.execVolezFailover s
  | .channelCopyDone part found => Sys2Proof.Machine.execChannelCopyDone part found s
  | .scrubPass found => Sys2Proof.Machine.execScrubPass found s
  | .sentinelTestDone test die block inst pass last => Sys2Proof.Machine.execSentinelTestDone test die block inst pass last s
  | .sentinelForwardReceived d package => Sys2Proof.Machine.execSentinelForwardReceived d package s
  | .agingSample die index ppm => Sys2Proof.Machine.execAgingSample die index ppm s
  | .sensorMismatch r => Sys2Proof.Machine.execSensorMismatch r s
  | .coolantAlarm inlet outlet => Sys2Proof.Machine.execCoolantAlarm inlet outlet s
  | .policyLimit kind inst => Sys2Proof.Machine.execPolicyLimit kind inst s
  | .thermalThrottleTick readings ms => Sys2Proof.Machine.execThermalThrottleTick readings ms s
  | .currentThrottle iin => Sys2Proof.Machine.execCurrentThrottle iin s
  | .throttleRatioTick vin iin pin cdMv loops volts => Sys2Proof.Machine.execThrottleRatioTick vin iin pin cdMv loops volts s
  | .powerTrip kind => Sys2Proof.Machine.execPowerTrip kind s
  | .haltChannelsAsserted => Sys2Proof.Machine.execHaltChannelsAsserted s
  | .haltInputFault a => Sys2Proof.Machine.execHaltInputFault a s
  | .haltDisagreementEnd n => Sys2Proof.Machine.execHaltDisagreementEnd n s
  | .haltNoBeat => Sys2Proof.Machine.execHaltNoBeat s
  | .haltRelease => Sys2Proof.Machine.execHaltRelease s
  | .haltTimeout => Sys2Proof.Machine.execHaltTimeout s
  | .inputTurnOn => Sys2Proof.Machine.execInputTurnOn s
  | .inputTurnOff vin => Sys2Proof.Machine.execInputTurnOff vin s
  | .pwrOkAssert => Sys2Proof.Machine.execPwrOkAssert s
  | .pwrOkDeassert => Sys2Proof.Machine.execPwrOkDeassert s
  | .resetNAssert => Sys2Proof.Machine.execResetNAssert s
  | .resetNRelease => Sys2Proof.Machine.execResetNRelease s
  | .perstAssert => Sys2Proof.Machine.execPerstAssert s
  | .perstRelease => Sys2Proof.Machine.execPerstRelease s
  | .powerGoodRelease => Sys2Proof.Machine.execPowerGoodRelease s
  | .resetPhaseDone straps => Sys2Proof.Machine.execResetPhaseDone straps s
  | .resetReady part pieces => Sys2Proof.Machine.execResetReady part pieces s
  | .partitionReset part => Sys2Proof.Machine.execPartitionReset part s
  | .partitionSequenceTimeout part => Sys2Proof.Machine.execPartitionSequenceTimeout part s
  | .functionLevelReset function => Sys2Proof.Machine.execFunctionLevelReset function s
  | .flashOwnN low write => Sys2Proof.Machine.execFlashOwnN low write s
  | .sqTailDoorbell tenant queue value => Sys2Proof.Machine.execSqTailDoorbell tenant queue value s
  | .cqHeadDoorbell tenant queue value => Sys2Proof.Machine.execCqHeadDoorbell tenant queue value s
  | .rqDoorbell tenant queue tag => Sys2Proof.Machine.execRqDoorbell tenant queue tag s
  | .commandFetch tenant queue packet => Sys2Proof.Machine.execCommandFetch tenant queue packet s
  | .interruptCoalesceTimer tenant queue => Sys2Proof.Machine.execInterruptCoalesceTimer tenant queue s
  | .apertureRead tenant addr n found => Sys2Proof.Machine.execApertureRead tenant addr n found s
  | .apertureWrite tenant addr bytes ep => Sys2Proof.Machine.execApertureWrite tenant addr bytes ep s
  | .pcieAtomicop => Sys2Proof.Machine.execPcieAtomicop s
  | .txnIdleTimeout tenant => Sys2Proof.Machine.execTxnIdleTimeout tenant s
  | .moduleInfo t sq tag => Sys2Proof.Machine.execModuleInfo t sq tag s
  | .profileSet t sq tag => Sys2Proof.Machine.execProfileSet t sq tag s
  | .configMode t sq tag => Sys2Proof.Machine.execConfigMode t sq tag s
  | .hbmRegionsSet t sq tag => Sys2Proof.Machine.execHbmRegionsSet t sq tag s
  | .fwStage t sq tag image => Sys2Proof.Machine.execFwStage t sq tag image s
  | .fwActivate t sq tag => Sys2Proof.Machine.execFwActivate t sq tag s
  | .powerPolicy t sq tag => Sys2Proof.Machine.execPowerPolicy t sq tag s
  | .reset t sq tag => Sys2Proof.Machine.execReset t sq tag s
  | .tenantEnable t sq tag => Sys2Proof.Machine.execTenantEnable t sq tag s
  | .tenantDisable t sq tag => Sys2Proof.Machine.execTenantDisable t sq tag s
  | .leasePartition t sq tag => Sys2Proof.Machine.execLeasePartition t sq tag s
  | .leaseGranules t sq tag => Sys2Proof.Machine.execLeaseGranules t sq tag s
  | .leaseHbm t sq tag => Sys2Proof.Machine.execLeaseHbm t sq tag s
  | .leaseBandwidth t sq tag => Sys2Proof.Machine.execLeaseBandwidth t sq tag s
  | .leaseLink t sq tag => Sys2Proof.Machine.execLeaseLink t sq tag s
  | .queueCreate t sq tag => Sys2Proof.Machine.execQueueCreate t sq tag s
  | .queueDelete t sq tag => Sys2Proof.Machine.execQueueDelete t sq tag s
  | .planAdmit t sq tag image writable => Sys2Proof.Machine.execPlanAdmit t sq tag image writable s
  | .planWithdraw t sq tag => Sys2Proof.Machine.execPlanWithdraw t sq tag s
  | .jobLaunch t sq tag sealMap => Sys2Proof.Machine.execJobLaunch t sq tag sealMap s
  | .jobQuery t sq tag => Sys2Proof.Machine.execJobQuery t sq tag s
  | .dataPut t sq tag data => Sys2Proof.Machine.execDataPut t sq tag data s
  | .dataGet t sq tag writable found => Sys2Proof.Machine.execDataGet t sq tag writable found s
  | .fabricConfig t sq tag block => Sys2Proof.Machine.execFabricConfig t sq tag block s
  | .sliceCreate t sq tag => Sys2Proof.Machine.execSliceCreate t sq tag s
  | .sliceDelete t sq tag => Sys2Proof.Machine.execSliceDelete t sq tag s
  | .linkEncrypt t sq tag agreed => Sys2Proof.Machine.execLinkEncrypt t sq tag agreed s
  | .txnBegin t sq tag => Sys2Proof.Machine.execTxnBegin t sq tag s
  | .txnCommit t sq tag => Sys2Proof.Machine.execTxnCommit t sq tag s
  | .txnRollback t sq tag => Sys2Proof.Machine.execTxnRollback t sq tag s
  | .txnQuery t sq tag => Sys2Proof.Machine.execTxnQuery t sq tag s
  | .ckptTargetSet t sq tag desc => Sys2Proof.Machine.execCkptTargetSet t sq tag desc s
  | .ckptKeySet t sq tag => Sys2Proof.Machine.execCkptKeySet t sq tag s
  | .snapSchedule t sq tag block => Sys2Proof.Machine.execSnapSchedule t sq tag block s
  | .snapNow t sq tag => Sys2Proof.Machine.execSnapNow t sq tag s
  | .spoolRate t sq tag => Sys2Proof.Machine.execSpoolRate t sq tag s
  | .snapAbandon t sq tag => Sys2Proof.Machine.execSnapAbandon t sq tag s
  | .restore t sq tag buf man reads => Sys2Proof.Machine.execRestore t sq tag buf man reads s
  | .snapQuery t sq tag => Sys2Proof.Machine.execSnapQuery t sq tag s
  | .sentinelLoad t sq tag package => Sys2Proof.Machine.execSentinelLoad t sq tag package s
  | .sentinelRun t sq tag => Sys2Proof.Machine.execSentinelRun t sq tag s
  | .suspectSwap t sq tag ballast => Sys2Proof.Machine.execSuspectSwap t sq tag ballast s
  | .snapStepNotice plan step => Sys2Proof.Machine.execSnapStepNotice plan step s
  | .snapshotCopyDone plan found => Sys2Proof.Machine.execSnapshotCopyDone plan found s
  | .stripeFlushed plan seq => Sys2Proof.Machine.execStripeFlushed plan seq s
  | .stripeReportReceived plan seq rep => Sys2Proof.Machine.execStripeReportReceived plan seq rep s
  | .manifestWaitTimeout plan seq => Sys2Proof.Machine.execManifestWaitTimeout plan seq s
  | .snapCompleteNotice plan seq step => Sys2Proof.Machine.execSnapCompleteNotice plan seq step s
  | .snapFailureNotice plan seq cause => Sys2Proof.Machine.execSnapFailureNotice plan seq cause s
  | .nvmeCompletion id ok lim found => Sys2Proof.Machine.execNvmeCompletion id ok lim found s
  | .nvmeConnectionLost tenant target => Sys2Proof.Machine.execNvmeConnectionLost tenant target s
  | .targetUnconnectedTimeout tenant target => Sys2Proof.Machine.execTargetUnconnectedTimeout tenant target s
  | .keepAlive => Sys2Proof.Machine.execKeepAlive s
  | .clearCounts part => Sys2Proof.Machine.execClearCounts part s
  | .partHoldStatsClear part => Sys2Proof.Machine.execPartHoldStatsClear part s
  | .partVsSkipClear part => Sys2Proof.Machine.execPartVsSkipClear part s
  | .partBeatStatsClear part => Sys2Proof.Machine.execPartBeatStatsClear part s
  | .partMemEccClear part => Sys2Proof.Machine.execPartMemEccClear part s
  | .streamStateFlagClear part flags => Sys2Proof.Machine.execStreamStateFlagClear part flags s
  | .lostSeenClear => Sys2Proof.Machine.execLostSeenClear s
  | .clearErr port => Sys2Proof.Machine.execClearErr port s
  | .portDisableWrite port disable => Sys2Proof.Machine.execPortDisableWrite port disable s
  | .csAbortsClear ld => Sys2Proof.Machine.execCsAbortsClear ld s
  | .kiteStatsClear ld => Sys2Proof.Machine.execKiteStatsClear ld s
  | .replayStatsClear => Sys2Proof.Machine.execReplayStatsClear s
  | .clearHw k => Sys2Proof.Machine.execClearHw k s
  | .spoolErrsClear => Sys2Proof.Machine.execSpoolErrsClear s
  | .spoolBytesClear => Sys2Proof.Machine.execSpoolBytesClear s
  | .clearOvr => Sys2Proof.Machine.execClearOvr s
  | .tenStatusClear tenant => Sys2Proof.Machine.execTenStatusClear tenant s
  | .adminQueueEnable tenant => Sys2Proof.Machine.execAdminQueueEnable tenant s
  | .adminQueueDisable tenant => Sys2Proof.Machine.execAdminQueueDisable tenant s
  | .apertureErrsClear tenant => Sys2Proof.Machine.execApertureErrsClear tenant s
  | .inputFaultClear => Sys2Proof.Machine.execInputFaultClear s
  | .pwrLoopClear => Sys2Proof.Machine.execPwrLoopClear s
  | .throttleTimeClear => Sys2Proof.Machine.execThrottleTimeClear s
  | .celothCountLowRead => Sys2Proof.Machine.execCelothCountLowRead s
  | .registerWrite a v => Sys2Proof.Machine.execRegisterWrite a v s
  | .registerAccess a v => Sys2Proof.Machine.execRegisterAccess a v s
  | .i3cModuleIdent => Sys2Proof.Machine.execI3cModuleIdent s
  | .i3cStatusBytes => Sys2Proof.Machine.execI3cStatusBytes s
  | .i3cHottestTemp => Sys2Proof.Machine.execI3cHottestTemp s
  | .i3cInputPower => Sys2Proof.Machine.execI3cInputPower s
  | .i3cFaultCount => Sys2Proof.Machine.execI3cFaultCount s
  | .i3cFaultRecordNext => Sys2Proof.Machine.execI3cFaultRecordNext s
  | .i3cDynamicAddress addr => Sys2Proof.Machine.execI3cDynamicAddress addr s
  | .clearFaults => Sys2Proof.Machine.execClearFaults s
  | .capability => Sys2Proof.Machine.execCapability s
  | .statusByte => Sys2Proof.Machine.execStatusByte s
  | .statusWord => Sys2Proof.Machine.execStatusWord s
  | .statusInput => Sys2Proof.Machine.execStatusInput s
  | .statusTemperature => Sys2Proof.Machine.execStatusTemperature s
  | .readVin => Sys2Proof.Machine.execReadVin s
  | .readIin => Sys2Proof.Machine.execReadIin s
  | .readPin => Sys2Proof.Machine.execReadPin s
  | .readTemperature1 => Sys2Proof.Machine.execReadTemperature1 s
  | .readTemperature2 => Sys2Proof.Machine.execReadTemperature2 s
  | .pmbusRevision => Sys2Proof.Machine.execPmbusRevision s
  | .mfrId => Sys2Proof.Machine.execMfrId s
  | .mfrModel => Sys2Proof.Machine.execMfrModel s
  | .mfrRevision => Sys2Proof.Machine.execMfrRevision s
  | .pmbusWriteRefused => Sys2Proof.Machine.execPmbusWriteRefused s
  | .bypass => Sys2Proof.Machine.execBypass s
  | .idcode => Sys2Proof.Machine.execIdcode s
  | .samplePreload => Sys2Proof.Machine.execSamplePreload s
  | .extest => Sys2Proof.Machine.execExtest s
  | .clamp => Sys2Proof.Machine.execClamp s
  | .highz => Sys2Proof.Machine.execHighz s
  | .spdmRequest req => Sys2Proof.Machine.execSpdmRequest req s
  | .controlCoreLoad plan part core addr lineErr found => Sys2Proof.Machine.execControlCoreLoad plan part core addr lineErr found s
  | .controlCoreStore plan part core addr bytes lineErr found => Sys2Proof.Machine.execControlCoreStore plan part core addr bytes lineErr found s
  | .loadReserved plan part core addr found => Sys2Proof.Machine.execLoadReserved plan part core addr found s
  | .storeConditional plan part core addr bytes => Sys2Proof.Machine.execStoreConditional plan part core addr bytes s
  | .clean plan part core addr => Sys2Proof.Machine.execClean plan part core addr s
  | .inval plan part core addr => Sys2Proof.Machine.execInval plan part core addr s
  | .fence plan part core => Sys2Proof.Machine.execFence plan part core s
  | .controlCoreTokenPost plan part lsid ch t => Sys2Proof.Machine.execControlCoreTokenPost plan part lsid ch t s
  | .inputOutOfRange vin => Sys2Proof.Machine.execInputOutOfRange vin s
  | .overvoltageTurnOn => Sys2Proof.Machine.execOvervoltageTurnOn s
  | .tripRestart readings => Sys2Proof.Machine.execTripRestart readings s
  | .linkKeyAgreement port tx rx => Sys2Proof.Machine.execLinkKeyAgreement port tx rx s
  | .ballastClaim twin => Sys2Proof.Machine.execBallastClaim twin s
  | .resetStartDelay => Sys2Proof.Machine.execResetStartDelay s
  | .targetConnectTimeout tenant target => Sys2Proof.Machine.execTargetConnectTimeout tenant target s

end Sys2Proof.Machine
end

