-- ==== Sys2Proof/Safety.lean ====
section
/-!
DEFINITION. What counts as a safe state of the block, and the conditions and names in the terms of which the statements speak.
-/

namespace Sys2Proof.Machine

/-- Every throttle ratio lies in 4 to 16 sixteenths (15 R506). -/
def Power.legal (p : Power) : Prop :=
  (4 ≤ p.thermal ∧ p.thermal ≤ 16) ∧ (4 ≤ p.current ∧ p.current ≤ 16) ∧ (4 ≤ p.margin ∧ p.margin ≤ 16) ∧ (4 ≤ p.ceiling ∧ p.ceiling ≤ 16) ∧
    (4 ≤ p.cap ∧ p.cap ≤ 16)

/-- A safe state: the memories in canonical form, and the throttle within its range. -/
def State.safe (s : State) : Prop := Memory.wf s.mem = true ∧ s.pwr.legal

/-- Power and reset agree: an asserted level source holds the module in reset (14 R481); power good is low while the rails are down, and PWR_OK low takes them
down (15 R502, R503); the rails are up only with no trip and the input on, and a trip waits for a cycle of PWR_OK (15 R507). -/
structure State.powerAgrees (s : State) : Prop where
  held : s.core.rst.level = true → s.core.rst.phase = 0
  good : s.pwr.rails = false → s.core.rst.pgLow = true
  down : s.core.rst.pwrOkLow = true → s.pwr.rails = false
  clear : s.pwr.rails = true → s.pwr.tripped = 0 ∧ s.pwr.off = 0
  cycled : s.pwr.tripped = 3 → s.core.rst.pwrOkLow = false
  bounds : s.pwr.tripped ≤ 3 ∧ s.pwr.off ≤ 2

/-! ### Station instructions -/

/-- The vector station instructions: opcode (05 Table 05-2), station, header and fields. -/
def vecRow : Instr → Option (Nat × Stn × Hdr × VecF)
  | .vadd st h f => some (0x30, st, h, f)
  | .vsub st h f => some (0x31, st, h, f)
  | .vmul st h f => some (0x32, st, h, f)
  | .vfma st h f => some (0x33, st, h, f)
  | .vmax st h f => some (0x34, st, h, f)
  | .vmin st h f => some (0x35, st, h, f)
  | .vaxpy st h f => some (0x36, st, h, f)
  | .vabs st h f => some (0x37, st, h, f)
  | .vneg st h f => some (0x38, st, h, f)
  | .vclamp st h f => some (0x39, st, h, f)
  | .vcvt st h f => some (0x3A, st, h, f)
  | .vfill st h f => some (0x3B, st, h, f)
  | .vrope st h f => some (0x3C, st, h, f)
  | .vexp st h f => some (0x40, st, h, f)
  | .vexp2 st h f => some (0x41, st, h, f)
  | .vlog st h f => some (0x42, st, h, f)
  | .vrcp st h f => some (0x43, st, h, f)
  | .vsqrt st h f => some (0x44, st, h, f)
  | .vrsqrt st h f => some (0x45, st, h, f)
  | .vtanh st h f => some (0x46, st, h, f)
  | .vsigmoid st h f => some (0x47, st, h, f)
  | .vgelu st h f => some (0x48, st, h, f)
  | .vsilu st h f => some (0x49, st, h, f)
  | .vsin st h f => some (0x4A, st, h, f)
  | .vcos st h f => some (0x4B, st, h, f)
  | .vrsum st h f => some (0x50, st, h, f)
  | .vrmax st h f => some (0x51, st, h, f)
  | .vsoftmax st h f => some (0x52, st, h, f)
  | .vrmsnorm st h f => some (0x53, st, h, f)
  | .vlayernorm st h f => some (0x54, st, h, f)
  | .vtopk st h f => some (0x56, st, h, f)
  | .vrowscale st h f => some (0x57, st, h, f)
  | .vform st h f => some (0x58, st, h, f)
  | .vunform st h f => some (0x59, st, h, f)
  | .vrequant st h f => some (0x5A, st, h, f)
  | .vasacc st h f => some (0x5C, st, h, f)
  | .voptAdamw st h f => some (0x60, st, h, f)
  | .vsqnorm st h f => some (0x61, st, h, f)
  | .vdropout st h f => some (0x6A, st, h, f)
  | .vmask st h f => some (0x6B, st, h, f)
  | _ => none

/-- The collective station instructions: opcode (04 Table 04-7), station, header, fields, and what the other members send. -/
def collRow : Instr → Option (Nat × Stn × Hdr × CollF × List PeerData)
  | .allreduce st h f ps => some (0x90, st, h, f, ps)
  | .reduceScatter st h f ps => some (0x91, st, h, f, ps)
  | .allGather st h f ps => some (0x92, st, h, f, ps)
  | .broadcast st h f ps => some (0x93, st, h, f, ps)
  | .dispatch st h f ps => some (0x94, st, h, f, ps)
  | .combine st h f ps => some (0x95, st, h, f, ps)
  | .shardPermute st h f ps => some (0x96, st, h, f, ps)
  | _ => none

/-- When a station instruction without IND issues as its command comes: its plan, job and binding exist and the die issues (06 R163, 14 R484, 15 R510);
the job runs and is not held (06 R161); the station's slots cover its cycles, none of them offered for lending (06 R163, R173); the token it waits for, `tok`, is there (04 R111);
its operands are resident and its output space free (03 R62); no NEXT range of a held snapshot write is written (10 R342); and no start grant is
wanted (06 R162). -/
structure Issues (m : Mach) (st : Stn) (h : Hdr) (opc : Nat) (sp : StnSpec) (x : Ctx) (tok : Option Token) : Prop where
  context : m.ctx st h opc = some x
  running : x.job.phase = .running
  unheld : x.job.holds = []
  slots : m.core.cyclesGiven (lsScode x.lsid) x.part (if lsScode x.lsid = 6 then x.die - 0x10 else x.inst) (x.job.actual x.issue)
    (x.job.actual x.issue + sp.dur + max (boolNat h.post) sp.after) x.tenant x.idleSlots = true
  token : tok = if h.wait then m.core.headToken x.part h.inCh.toNat else none
  waited : h.wait = true → tok.isSome = true
  direct : h.ind = false
  ready : x.operandsReady sp tok m.core = true
  writable : x.job.writeHold = false
  ungranted : x.needsGrant = false

/-- The machine with a job's schedule cycle moved on to an instruction's ISSUE (06 R160). -/
def Mach.reach (plan issue : Nat) (m : Mach) : Mach := m.up (fun c => c.modJob plan (fun j => { j with sched := max j.sched issue }))

/-- The number a finite value stands for (02 R25); 0 for the others. -/
def FVal.rat : FVal → ℚ
  | .fin s m e => (if s then -1 else 1) * (m : ℚ) * (2 : ℚ) ^ e
  | _ => 0

/-- Blocks that a tile of a format can hold: 32 blocks of 32 element codes, with a scale byte in the MX formats (02 R28, 04 R86). -/
def tileFits (f : Fmt) (bs : List Block) : Prop :=
  bs.length = 32 ∧ ∀ b ∈ bs, b.codes.length = 32 ∧ (∀ k ∈ b.codes, k < 2 ^ elemBits f) ∧ (if isMx f then b.scale < 256 else b.scale = 0)

/-- Whether a key lies in the station memory of die `p`. -/
def onDie (p k : Nat) : Prop := p * 33 * 2 ^ 24 ≤ k ∧ k < (p + 1) * 33 * 2 ^ 24

/-- An error log whose records are numbered without a gap, newest first (12 R411, R416): at most 4,096 in the ring, and at most 256, all of CLASS 0x2 or 0x4, in the
fault history. -/
structure Log.numbered (l : Log) : Prop where
  seq : ∀ i r, l.recs[i]? = some r → r.seq = l.written - 1 - BitVec.ofNat 32 i
  ring : l.recs.length ≤ 4096
  history : l.history.length ≤ 256 ∧ ∀ r ∈ l.history, r.cls = 2 ∨ r.cls = 4

/-! ### Command packets -/

/-- A command packet of an opcode, with STAGE clear, that waits for Volez and may start (13 R451), its completion queue being there and not in error (13 R450, R453). -/
structure State.asks (s : State) (op : Nat) (t : TenantId) (sq : Nat) (tag : BitVec 32) (a : Accepted) : Prop where
  next : s.core.cmd? op t sq tag = some a
  direct : bitOf (fieldAt a.packet 2 1) 0 = false
  queue : ((lookup? a.cq (s.core.ten a.tenant.toNat).queues).any fun q => !q.err) = true

/-- A state is `want` with an accepted command answered (13 R450, R455): the reply goes to its completion queue, it is accepted no more, and nothing else differs
but the tenant's completion queue, and its admin pair where that stops with the reply (13 R471). -/
structure State.answered (u want : State) (a : Accepted) (status : Nat) (detail : List Byte) : Prop where
  mem : u.mem = want.mem
  pwr : u.pwr = want.pwr
  core : u.core = { want.core with tens := u.core.tens, accepted := want.core.accepted.eraseP (fun b => b.same a), out := u.core.out }
  others : ∀ x, x ≠ a.tenant.toNat → u.core.ten x = want.core.ten x
  own : ∃ qs live, u.core.ten a.tenant.toNat = { want.core.ten a.tenant.toNat with queues := qs, adminLive := live } ∧
    ∀ n, n ≠ a.cq → 2 ≤ n → lookup? n qs = lookup? n (want.core.ten a.tenant.toNat).queues
  reply : ∃ k, Out.cqEntry a.tenant a.cq k (entryBytes a.tag.toNat status detail) ∈ u.core.out

/-- A state is `want` with a command's effect begun and its reply still to come (13 R456). -/
structure State.waits (u want : State) (a : Accepted) : Prop where
  mem : u.mem = want.mem
  pwr : u.pwr = want.pwr
  core : u.core = { want.core with accepted := want.core.accepted.map (fun b => if b.same a then { b with started := true } else b), out := u.core.out }

/-- The core against which a command is tested: with every waiting revoke and evaluated commit applied (13 R462, R466). -/
def State.view (s : State) : Core := (startMach s).view

/-- The state with another core. -/
def State.upd (s : State) (f : Core → Core) : State := { s with core := f s.core }

end Sys2Proof.Machine
end

