-- ==== Sys2Proof/Certificates/Slice0/Obligations.lean ====
section
/-!
DEFINITION. The statements for the provers, one definition each.
-/

open Sys2Proof Sys2Proof.Machine

/-- A step runs the command at the front of the queue with the queue's rest. Rests on 00_scope.md, 98_reader.md. -/
def Obligations.StepRunsFrontCommand : Prop :=
  ∀ (c : Instr) (rest : List Instr) (s : State), step { s with pending := c :: rest } = exec c { s with pending := rest }

/-- On an empty queue a step advances the Celoth counter by one tick and changes no memory (model choice, log entry 6). Rests on 06_beats_and_determinism.md R190. -/
def Obligations.EmptyQueueCountsOneTick : Prop :=
  ∀ s : State, s.pending = [] → ∃ t, step s = .next t ∧ t.core.clk.count = s.core.clk.count + 1 ∧ t.mem = s.mem ∧ t.pending = [] ∧
    t.core.plans = s.core.plans ∧ t.core.jobs = s.core.jobs ∧ t.core.tens = s.core.tens ∧ t.core.log = s.core.log

/-- Every command answers a next state and leaves the queue as it is. Rests on 00_scope.md, 13_host_tenants_commands.md. -/
def Obligations.CommandsNeverStop : Prop :=
  ∀ (i : Instr) (s : State), ∃ t, exec i s = .next t ∧ t.pending = s.pending

/-- The reset state is safe. Rests on 15_power_physical_management.md R506. -/
def Obligations.ResetStateIsSafe : Prop := State.reset.safe

/-- Every step keeps the memories canonical and every throttle ratio within 4 to 16. Rests on 15_power_physical_management.md R506. -/
def Obligations.StepKeepsStateSafe : Prop :=
  ∀ s t : State, s.safe → step s = .next t → t.safe

/-- A vector instruction whose issue conditions hold runs its own opcode's effect at its ISSUE cycle. Rests on 04_stations_and_streams.md R111, 05_vector_stations.md R126, 05_vector_stations.md R131. -/
def Obligations.VectorInstructionRuns : Prop :=
  ∀ (i : Instr) (opc : Nat) (st : Stn) (h : Hdr) (f : VecF) (s : State) (x : Ctx) (tok : Option Token), vecRow i = some (opc, st, h, f) →
    Issues (startMach s) st h opc (vecSpec opc ((startMach s).reach st.plan h.issue.toNat) x f) x tok →
    ∃ t m, exec i s = .next t ∧
      m = x.runStn st h (vecSpec opc ((startMach s).reach st.plan h.issue.toNat) x f) tok (vecBody opc f) ((startMach s).reach st.plan h.issue.toNat) ∧
      t.core = m.core ∧ t.mem = applyWrs s.mem m.wr.reverse ∧ t.pwr = s.pwr ∧ t.pending = s.pending

/-- MMA, VLOAD and MV run their own effect when their issue conditions hold. Rests on 03_matrix_arrays.md R62, 04_stations_and_streams.md R99, 04_stations_and_streams.md R100, 04_stations_and_streams.md R101. -/
def Obligations.ArrayAndThinInstructionsRun : Prop :=
  (∀ (st : Stn) (h : Hdr) (f : MmaF) (s : State) (x : Ctx) (tok : Option Token), Issues (startMach s) st h 0x10 (mmaSpec x f) x tok →
    ∃ t m, exec (.mma st h f) s = .next t ∧
      m = x.runStn st h (mmaSpec x f) tok (mmaBody f) ((startMach s).reach st.plan h.issue.toNat) ∧
      t.core = m.core ∧ t.mem = applyWrs s.mem m.wr.reverse ∧ t.pwr = s.pwr ∧ t.pending = s.pending) ∧
  (∀ (st : Stn) (h : Hdr) (f : VloadF) (s : State) (x : Ctx) (tok : Option Token), Issues (startMach s) st h 0x20 (vloadSpec x f) x tok →
    ∃ t m, exec (.vload st h f) s = .next t ∧
      m = x.runStn st h (vloadSpec x f) tok (vloadBody f) ((startMach s).reach st.plan h.issue.toNat) ∧
      t.core = m.core ∧ t.mem = applyWrs s.mem m.wr.reverse ∧ t.pwr = s.pwr ∧ t.pending = s.pending) ∧
  (∀ (st : Stn) (h : Hdr) (f : MvF) (s : State) (x : Ctx) (tok : Option Token), Issues (startMach s) st h 0x21 (mvSpec x f) x tok →
    ∃ t m, exec (.mv st h f) s = .next t ∧
      m = x.runStn st h (mvSpec x f) tok (mvBody f) ((startMach s).reach st.plan h.issue.toNat) ∧
      t.core = m.core ∧ t.mem = applyWrs s.mem m.wr.reverse ∧ t.pwr = s.pwr ∧ t.pending = s.pending)

/-- XFER, GATHER and the seven collectives run their own effect when their issue conditions hold. Rests on 04_stations_and_streams.md R102, 04_stations_and_streams.md R104, 09_collectives_and_mapping.md R302. -/
def Obligations.TransferGatherAndCollectivesRun : Prop :=
  (∀ (st : Stn) (h g : Hdr) (f : XferF) (s : State) (x : Ctx) (tok : Option Token), g = (if f.rpost then { h with post := false } else h) →
    Issues (startMach s) st g 0x80 (xferSpec ((startMach s).reach st.plan g.issue.toNat) x f) x tok →
    ∃ t m, exec (.xfer st h f) s = .next t ∧
      m = x.runStn st g (xferSpec ((startMach s).reach st.plan g.issue.toNat) x f) tok (xferBody f) ((startMach s).reach st.plan g.issue.toNat) ∧
      t.core = m.core ∧ t.mem = applyWrs s.mem m.wr.reverse ∧ t.pwr = s.pwr ∧ t.pending = s.pending) ∧
  (∀ (st : Stn) (h : Hdr) (f : GatherF) (s : State) (x : Ctx) (tok : Option Token), Issues (startMach s) st h 0x70 (gatherSpec f x f) x tok →
    ∃ t m, exec (.gather st h f) s = .next t ∧
      m = x.runStn st h (gatherSpec f x f) tok (gatherBody f f) ((startMach s).reach st.plan h.issue.toNat) ∧
      t.core = m.core ∧ t.mem = applyWrs s.mem m.wr.reverse ∧ t.pwr = s.pwr ∧ t.pending = s.pending) ∧
  (∀ (i : Instr) (opc : Nat) (st : Stn) (h : Hdr) (f : CollF) (ps : List PeerData) (s : State) (x : Ctx) (tok : Option Token),
    collRow i = some (opc, st, h, f, ps) → (startMach s).collReady st f opc ps = true →
    Issues (startMach s) st h opc (collSpec opc ((startMach s).reach st.plan h.issue.toNat) x f) x tok →
    ∃ t m, exec i s = .next t ∧
      m = x.runStn st h (collSpec opc ((startMach s).reach st.plan h.issue.toNat) x f) tok (collBody opc ps f) ((startMach s).reach st.plan h.issue.toNat) ∧
      t.core = m.core ∧ t.mem = applyWrs s.mem m.wr.reverse ∧ t.pwr = s.pwr ∧ t.pending = s.pending)

/-- A vector, array or thin instruction changes no byte of memory outside the station memory of its own die. Rests on 04_stations_and_streams.md R94, 07_memory.md R206. -/
def Obligations.ComputeStationsWriteOnlyTheirDie : Prop :=
  ∀ (i : Instr) (opc : Nat) (st : Stn) (h : Hdr) (sp : StnSpec) (s : State) (x : Ctx) (tok : Option Token), st.found = [] →
    ((∃ f, vecRow i = some (opc, st, h, f) ∧ sp = vecSpec opc ((startMach s).reach st.plan h.issue.toNat) x f) ∨
      (∃ f, i = .mma st h f ∧ opc = 0x10 ∧ sp = mmaSpec x f) ∨ (∃ f, i = .vload st h f ∧ opc = 0x20 ∧ sp = vloadSpec x f) ∨
      (∃ f, i = .mv st h f ∧ opc = 0x21 ∧ sp = mvSpec x f)) →
    Issues (startMach s) st h opc sp x tok →
    ∃ t, exec i s = .next t ∧ (∀ k, ¬onDie x.part k → memByte t.mem k = memByte s.mem k) ∧ (Memory.wf s.mem = true → Memory.wf t.mem = true)

/-- NOP with WAIT takes the oldest token of IN_CH and changes no memory, no residency and no other channel. Rests on 04_stations_and_streams.md R96, 04_stations_and_streams.md R111. -/
def Obligations.NopTakesItsToken : Prop :=
  ∀ (st : Stn) (h : Hdr) (s : State) (x : Ctx) (tok : Option Token) (ch : ChanSt), st.found = [] → h.wait = true → h.post = false →
    Issues (startMach s) st h 0x00 { opc := 0x00 } x tok → lookup? h.inCh.toNat (s.core.part x.part).streams.chans = some ch →
    ∃ t ch' j, exec (.nop st h) s = .next t ∧ t.mem = s.mem ∧ t.pwr = s.pwr ∧
      lookup? h.inCh.toNat (t.core.part x.part).streams.chans = some ch' ∧ ch'.tokens = ch.tokens.drop 1 ∧
      (∀ k, k ≠ h.inCh.toNat → lookup? k (t.core.part x.part).streams.chans = lookup? k (s.core.part x.part).streams.chans) ∧
      t.core.job? st.plan = some j ∧ j.resident = x.job.resident ∧ (h.last = true → st.lsid ∈ j.done)

/-- POST enters into OUT_CH, whatever its POST bit, a token naming its base, its length and the beat of the step. Rests on 04_stations_and_streams.md R96, 04_stations_and_streams.md R110, 04_stations_and_streams.md R111. -/
def Obligations.PostNamesItsRange : Prop :=
  ∀ (st : Stn) (h : Hdr) (f : RangeF) (s : State) (x : Ctx) (ch : ChanSt), st.found = [] → h.wait = false →
    1 ≤ f.len.toNat → f.len.toNat ≤ 4095 →
    Issues (startMach s) st { h with post := true } 0x01
      { opc := 0x01, ranges := [(2, x.lpart, f.base.toNat, f.len.toNat)], token := (f.base.toNat, f.len.toNat) } x none →
    lookup? h.outCh.toNat (s.core.part x.part).streams.chans = some ch → ch.tokens.length < ch.depth.toNat →
    ∃ t ch' j, exec (.post st h f) s = .next t ∧ t.mem = s.mem ∧ t.pwr = s.pwr ∧
      lookup? h.outCh.toNat (t.core.part x.part).streams.chans = some ch' ∧
      ch'.tokens = ch.tokens ++ [{ beat := BitVec.ofNat 16 x.job.beat, poison := false, ntiles := BitVec.ofNat 12 f.len.toNat, addr := f.base }] ∧
      t.core.job? st.plan = some j ∧ j.resident = x.job.resident ∧ (h.last = true → st.lsid ∈ j.done)

/-- RELEASE takes its range, and no other unit, out of residency, and ends every fence slot, on any die, whose destination it meets, and no other. Rests on 04_stations_and_streams.md R97, 07_memory.md R238. -/
def Obligations.ReleaseEndsResidency : Prop :=
  ∀ (st : Stn) (h : Hdr) (f : RangeF) (s : State) (x : Ctx) (tok : Option Token), st.found = [] → h.post = false →
    Issues (startMach s) st h 0x02
      { opc := 0x02, ranges := [(2, x.lpart, f.base.toNat, f.len.toNat)], token := (f.base.toNat, f.len.toNat) } x tok →
    ∃ t j, exec (.release st h f) s = .next t ∧ t.mem = s.mem ∧ t.pwr = s.pwr ∧ t.core.job? st.plan = some j ∧
      (∀ p a, residentUnit j.resident p a =
        (residentUnit x.job.resident p a && !(p == x.part && decide (f.base.toNat ≤ a) && decide (a < f.base.toNat + f.len.toNat)))) ∧
      (∀ p, (t.core.part p).streams.fences = (s.core.part p).streams.fences.filter (fun e =>
        !(s.core.meetsFence x.tenant x.plan.pm (smAddr64 x.lpart f.base.toNat) f.len.toNat e.2))) ∧
      (h.last = true → st.lsid ∈ j.done)

/-- A WAIT on an empty channel holds the job with LATE_OPERAND and runs nothing. Rests on 04_stations_and_streams.md R111, 04_stations_and_streams.md R124, 06_beats_and_determinism.md R161. -/
def Obligations.EmptyChannelHoldsTheJob : Prop :=
  ∀ (st : Stn) (h : Hdr) (s : State) (x : Ctx), h.wait = true → x.part < s.core.parts.length → (startMach s).ctx st h 0x00 = some x →
    x.job.phase = .running → x.job.holds = [] →
    s.core.cyclesGiven (lsScode x.lsid) x.part (if lsScode x.lsid = 6 then x.die - 0x10 else x.inst) (x.job.actual x.issue)
      (x.job.actual x.issue + boolNat h.post) x.tenant x.idleSlots = true →
    s.core.headToken x.part h.inCh.toNat = none →
    ∃ t j r, exec (.nop st h) s = .next t ∧ t.mem = s.mem ∧ t.pwr = s.pwr ∧ t.core.job? st.plan = some j ∧
      j.holds = [{ lsid := st.lsid, cause := .chanEmpty, instr := some (.nop st h) }] ∧
      t.core.log.recs.head? = some r ∧ r.code = 0x201 ∧ r.cls = 6 ∧ r.block = 0x16 ∧ r.inst = BitVec.ofNat 16 h.inCh.toNat ∧
      (t.core.part x.part).streams.lateOperand = satInc (s.core.part x.part).streams.lateOperand

/-- A flat elementwise unit writes its opcode's results on the old operands and nothing else. Rests on 05_vector_stations.md R126, 05_vector_stations.md R130, 05_vector_stations.md R131. -/
def Obligations.FlatElementwiseUnitResult : Prop :=
  ∀ (x : Ctx) (opc : Nat) (f : VecF) (stale : Bool) (u : Nat) (m : Mach), 0x30 ≤ opc → opc ≤ 0x4B → f.flat = true → vecFmtOk opc f = true →
    Memory.wf m.mem = true →
    let vals := fun (ft : Fmt) (base : SmAddr) =>
      flatVals ft (m.sm x.part ((base.toNat + u * unitUnits true ft) % 2 ^ 23) (unitUnits true ft))
    let o : VecOut := { fmt := fmtD f.outFmt, cvt := if f.packed then ⟨false, false⟩ else cvtOf f.cvt, cyc0 := x.issue + u * vecC opc f, piece := 0 }
    let a := (f.dst.toNat + u * unitUnits true o.fmt) % 2 ^ 23
    (x.elemUnit opc f stale u m).sm x.part a (unitUnits true o.fmt) =
        x.flatBytes o 0 (vecElems opc f false (vals (fmtD f.fmt0) f.src0) (vals (fmtD f.fmt1) f.src1) (vals (fmtD f.fmt1) f.src2)) ∧
      ∀ k, (∀ i < unitUnits true o.fmt, ¬(m.core.smUnit x.part ((a + i) % 2 ^ 23) ≤ k ∧ k < m.core.smUnit x.part ((a + i) % 2 ^ 23) + 64)) →
        memByte (x.elemUnit opc f stale u m).mem k = memByte m.mem k

/-- Rounding to FP32 gives a nearest finite value, an even one at a tie, and overflows only at or beyond half a step above the largest. Rests on 02_number_formats.md R25, 02_number_formats.md R36, 02_number_formats.md R37, 05_vector_stations.md R125. -/
def Obligations.Fp32RoundingIsNearestTiesToEven : Prop :=
  ∀ (s : Bool) (m : Nat) (e : Int),
    ((f32 (toF32 (.fin s m e))).nonFinite = false → ∀ w : U32, (f32 w).nonFinite = false →
      |(FVal.fin s m e).rat - (f32 (toF32 (.fin s m e))).rat| ≤ |(FVal.fin s m e).rat - (f32 w).rat| ∧
      (|(FVal.fin s m e).rat - (f32 (toF32 (.fin s m e))).rat| = |(FVal.fin s m e).rat - (f32 w).rat| →
        (f32 w).rat ≠ (f32 (toF32 (.fin s m e))).rat → (toF32 (.fin s m e)).getLsbD 0 = false)) ∧
    ((f32 (toF32 (.fin s m e))).nonFinite = true → (2 : ℚ) ^ 128 - 2 ^ 103 ≤ |(FVal.fin s m e).rat|)

/-- Sums, products and comparisons of finite values are exact before their one rounding. Rests on 02_number_formats.md R33, 05_vector_stations.md R125, 05_vector_stations.md R131. -/
def Obligations.ExactSumsProductsAndOrder : Prop :=
  ∀ (s t : Bool) (m n : Nat) (e f : Int),
    ((FVal.fin s m e).add (.fin t n f)).rat = (FVal.fin s m e).rat + (FVal.fin t n f).rat ∧
    ((FVal.fin s m e).mul (.fin t n f)).rat = (FVal.fin s m e).rat * (FVal.fin t n f).rat ∧
    ((FVal.fin s m e).lt (.fin t n f) = true ↔ (FVal.fin s m e).rat < (FVal.fin t n f).rat) ∧
    ((FVal.fin s m e).rat + (FVal.fin t n f).rat = 0 → s ≠ t → ((FVal.fin s m e).add (.fin t n f)).sign = false)

/-- Each elementwise opcode of Table 05-2 from VADD to VFILL computes its expression, rounded once to FP32. Rests on 05_vector_stations.md R125, 05_vector_stations.md R131. -/
def Obligations.ElementwiseResultsPerOpcode : Prop :=
  ∀ (f : VecF) (o : Bool) (a b c : List U32), f.packed = false →
    vecElems 0x30 f o a b c = List.zipWith f32Add a b ∧ vecElems 0x31 f o a b c = List.zipWith f32Sub a b ∧
    vecElems 0x32 f o a b c = List.zipWith f32Mul a b ∧
    vecElems 0x33 f o a b c = List.zipWith (fun x (yz : U32 × U32) => f32Fma x yz.1 yz.2) a (b.zip c) ∧
    (∀ x y, ((f32 x).isNan || (f32 y).isNan) = true → vecElems 0x34 f o [x] [y] c = [f32NaN] ∧ vecElems 0x35 f o [x] [y] c = [f32NaN]) ∧
    vecElems 0x34 f o [0x80000000] [0] c = [0] ∧ vecElems 0x34 f o [0] [0x80000000] c = [0] ∧
    vecElems 0x36 f o a b c = List.zipWith (fun x y => toF32 (((f32 (toF32 (f32 f.imm0))).mul (f32 x)).add (f32 y))) a b ∧
    vecElems 0x37 f o a b c = a.map (fun x => toF32 (f32 x).abs) ∧ vecElems 0x38 f o a b c = a.map (fun x => toF32 (f32 x).neg) ∧
    vecElems 0x39 f o a b c = a.map (fun x =>
      let v := f32 (toF32 (f32 f.imm0))
      let i := if v.isZero then .fin false 0 0 else v
      toF32 (((f32 x).vmax i.neg).vmin i)) ∧
    vecElems 0x3A f o a b c = a.map (fun x => toF32 (f32 x)) ∧
    vecElems 0x3B f o a b c = List.replicate 1024 (toF32 (f32 (toF32 (f32 f.imm0))))

/-- A tile written by a station reads back with the same elements, extent and flags and fails no check. Rests on 04_stations_and_streams.md R86, 04_stations_and_streams.md R89, 04_stations_and_streams.md R90, 04_stations_and_streams.md R91, 04_stations_and_streams.md R92, 04_stations_and_streams.md R93. -/
def Obligations.TileReadsBackAsWritten : Prop :=
  ∀ (x : Ctx) (f : Fmt) (o : Bool) (r c : Nat) (po ch un : Bool) (an : Nat) (bs : List Block) (p a : Nat) (m : Mach),
    Memory.wf m.mem = true → r < 32 → c < 32 → an < 256 → tileFits f bs →
    let m' := x.writeTile f o r c po ch un an bs p a m
    (x.readTile f (some o) p a m').2 = m' ∧ (x.readTile f (some o) p a m').1.blocks = bs ∧
      (x.readTile f (some o) p a m').1.poison = po ∧ (x.readTile f (some o) p a m').1.checked = ch ∧
      (x.readTile f (some o) p a m').1.trailer.orient = o ∧ (x.readTile f (some o) p a m').1.trailer.rowsM1.toNat = r ∧
      (x.readTile f (some o) p a m').1.trailer.colsM1.toNat = c ∧ (x.readTile f (some o) p a m').1.trailer.step = x.job.step ∧
      (x.readTile f (some o) p a m').1.trailer.producer = x.lsid

/-- Decoding the 32-byte word of any well-formed station instruction gives the instruction back. Rests on 04_stations_and_streams.md R95, 04_stations_and_streams.md R96, 05_vector_stations.md R129. -/
def Obligations.StationWordsRoundTrip : Prop :=
  ∀ i : StnWord, i.wf = true → decodeStn (encodeStn i) = some i

/-- Words written out from Tables 04-6 to 04-8 decode to the instructions they stand for. Rests on 04_stations_and_streams.md R95, 04_stations_and_streams.md R96. -/
def Obligations.StationWordBitsOfTables : Prop :=
  decodeStn 0 = none ∧
  decodeStn (BitVec.ofNat 256 (3 * 2 ^ 8 + 2 ^ 12 + 2 ^ 13 + 5 * 2 ^ 16)) =
    some { scode := 3, opc := 0, hdr := { outCh := 0, inCh := 0, issue := 5, ind := false, last := false, post := true, wait := true }, f := .none } ∧
  decodeStn (BitVec.ofNat 256 (1 + 1 * 2 ^ 8 + 7 * 2 ^ 68 + 9 * 2 ^ 91)) =
    some { scode := 1, opc := 1, hdr := { outCh := 0, inCh := 0, issue := 0, ind := false, last := false, post := false, wait := false },
           f := .range { base := 7, len := 9 } } ∧
  decodeStn (BitVec.ofNat 256 (1 + 1 * 2 ^ 8 + 2 ^ 114)) = none ∧ decodeStn (BitVec.ofNat 256 (0x3D + 3 * 2 ^ 8)) = none

/-- The end of a hold issues the held instruction with the schedule behind by the cycles held; a test that fails as before changes nothing, and one that fails for another cause begins that hold. Rests on 03_matrix_arrays.md R64, 06_beats_and_determinism.md R160, 06_beats_and_determinism.md R161, 06_beats_and_determinism.md R162. -/
def Obligations.HoldReleaseIssuesTheHeldInstruction : Prop :=
  ∀ (granted : Bool) (plan cycles : Nat) (s : State) (j : Job) (p : Plan) (q : Held) (i : Instr), s.core.job? plan = some j →
    s.core.plan? plan = some p → j.holds = [q] → q.waits = false → q.instr = some i → (granted = true → q.cause = .grant ∧ s.core.grantDue j cycles = true) →
    let fin : Core → Core := fun c => match (if granted then s.core.grantAt j else none) with
      | some (d, _) => c.modMx d (fun y => { y with lastGrant := some (j.startCycle cycles) })
      | none => c
    let c := if granted then Instr.startGrant plan cycles else Instr.issueHoldRelease plan cycles
    let m0 := (startMach s).up (Core.endHold plan cycles)
    let m := reissue granted i m0
    (∃ k, m0.core.job? plan = some k ∧ k.holds = [] ∧ k.offset = j.offset + cycles ∧ k.holdCycles = j.holdCycles + cycles) ∧
    ((∀ k, m.core.job? plan = some k → k.holds.all (fun e => e.instr != some i) = true) →
      ∃ t, exec c s = .next t ∧ t.core = fin m.core ∧ t.mem = applyWrs s.mem m.wr.reverse ∧ t.pwr = s.pwr) ∧
    (∀ k e, m.core.job? plan = some k → k.holds.find? (fun e => e.instr == some i) = some e →
      ∃ t, exec c s = .next t ∧ t.pwr = s.pwr ∧
        (e.cause = q.cause → t.core = fin { s.core with out := [] } ∧ t.mem = s.mem) ∧
        (e.cause ≠ q.cause → t.core = fin (m.core.modJob plan (fun k => { k with holdBeats := j.holdBeats })) ∧
          t.mem = applyWrs s.mem m.wr.reverse))

/-- A token kept in a post register enters its channel when it has space, and that hold ends. Rests on 04_stations_and_streams.md R111. -/
def Obligations.DeferredPostEntersItsChannel : Prop :=
  ∀ (plan cycles : Nat) (lsid : Lsid) (s : State) (j : Job) (p : Plan) (q : PostReg) (ch : ChanSt), s.core.job? plan = some j →
    s.core.plan? plan = some p → j.posts.find? (fun e => e.lsid == lsid) = some q →
    lookup? q.chan (s.core.part q.part).streams.chans = some ch → ch.tokens.length < ch.depth.toNat →
    ∃ t ch' k, exec (.streamPostDeferred plan lsid cycles) s = .next t ∧ t.mem = s.mem ∧ t.pwr = s.pwr ∧
      lookup? q.chan (t.core.part q.part).streams.chans = some ch' ∧ ch'.tokens = ch.tokens ++ [q.token] ∧
      t.core.job? plan = some k ∧ k.posts = j.posts.filter (fun e => !(e.lsid == lsid)) ∧
      k.holds = j.holds.filter (fun e => !(e.lsid == lsid && e.cause == .chanFull && e.instr.isNone))

/-- A late gather holds its job with LATE_GATHER; a failed array check records the tile and starts a local replay. Rests on 03_matrix_arrays.md R75, 03_matrix_arrays.md R85, 04_stations_and_streams.md R107, 10_seal_replay_tether.md R356. -/
def Obligations.LateGatherAndFailedCheck : Prop :=
  (∀ (plan : Nat) (lsid : Lsid) (w : Cycle) (s : State) (p : Plan) (j : Job) (b : Bind), s.core.plan? plan = some p → s.core.job? plan = some j →
    p.bindOf lsid = some b → j.phase = .running → ∃ t k r, exec (.lateGather plan lsid w) s = .next t ∧ t.mem = s.mem ∧ t.pwr = s.pwr ∧
      t.core.job? plan = some k ∧ k.holds = j.holds ++ [{ lsid := lsid, cause := .gather, instr := none }] ∧ w.toNat ≤ k.sched ∧
      t.core.log.recs.head? = some r ∧ r.code = 0x202 ∧ r.cls = 6 ∧ r.tenant = some j.tenant) ∧
  (∀ (plan : Nat) (lsid : Lsid) (rows : List Nat) (col mask : Nat) (fmt : BitVec 4) (tiles : List SmAddr) (cyc : Cycle) (s : State) (p : Plan) (j : Job)
      (b : Bind), s.core.plan? plan = some p → s.core.job? plan = some j → p.bindOf lsid = some b → lsScode lsid = 1 → b.die < s.core.parts.length →
    j.phase = .running → j.replay = none → (j.verdict j.step).localFaults < 2 →
    ∃ t k r, exec (.residueMismatch plan lsid rows col mask fmt tiles cyc) s = .next t ∧ t.pwr = s.pwr ∧ t.core.job? plan = some k ∧
      k.replay = some { endBeat := j.beat, endCycle := cyc.toNat, begun := false, restarts := 0 } ∧
      (∃ c ∈ k.checks, c.die = b.die ∧ c.inst = b.inst ∧ c.rows = rows) ∧
      r ∈ t.core.log.recs.take 3 ∧ r.code = 0x101 ∧ r.cls = 7 ∧ r.sev = 2 ∧
      (t.core.part b.die).mx.mismatchCount = satInc (s.core.part b.die).mx.mismatchCount)

/-- A control core writes a descriptor slot that is not VALID, is refused one that is, and posts tokens of its own choosing. Rests on 04_stations_and_streams.md R110, 04_stations_and_streams.md R114, 04_stations_and_streams.md R115. -/
def Obligations.ControlCoreDescriptorsAndTokens : Prop :=
  (∀ (plan part core ring slot : Nat) (v : BitVec 256) (s : State), s.core.coresRun plan part = true → part < 8 → part < s.core.parts.length →
    ring < 256 → slot < 16 →
    ∃ t, exec (.descriptorWrite plan part core ring slot v) s = .next t ∧ t.mem = s.mem ∧ t.pwr = s.pwr ∧
      let old := (lookup? (ring, slot) (s.core.part part).streams.descs).getD 0
      (old.getLsbD 0 = false → lookup? (ring, slot) (t.core.part part).streams.descs = some v) ∧
      (old.getLsbD 0 = true → (t.core.part part).streams.descs = (s.core.part part).streams.descs ∧
        ∃ r, t.core.log.recs.head? = some r ∧ r.code = 0x304 ∧ r.cls = 3 ∧ r.inst = BitVec.ofNat 16 ring ∧
          r.detail = [BitVec.ofNat 8 slot] ∧ (t.core.part part).streams = (s.core.part part).streams.countLate 0x304)) ∧
  (∀ (plan part : Nat) (lsid : Lsid) (ch : Chan) (tok : Token) (s : State) (cs : ChanSt), s.core.coresRun plan part = true →
    lookup? ch.toNat (s.core.part part).streams.chans = some cs → cs.plan = plan → cs.producer = lsid → cs.tokens.length < cs.depth.toNat →
    ∃ t cs', exec (.controlCoreTokenPost plan part lsid ch tok) s = .next t ∧ t.mem = s.mem ∧ t.pwr = s.pwr ∧
      lookup? ch.toNat (t.core.part part).streams.chans = some cs' ∧ cs'.tokens = cs.tokens ++ [tok])

/-- A failing control core loses its cached lines, reservation and mailboxes, and the ballast core takes over at the next edge. Rests on 04_stations_and_streams.md R118. -/
def Obligations.ControlCoreFailureLosesItsWork : Prop :=
  ∀ (p core : Nat) (s : State), p < 8 → p < s.core.parts.length → core < 4 → (s.core.part p).cores.failed.getLsbD core = false →
    ∃ t, exec (.controlCoreFailure p core) s = .next t ∧ t.mem = s.mem ∧ t.pwr = s.pwr ∧
      (∀ l ∈ (t.core.part p).cores.lines, l.core ≠ core) ∧ (∀ r ∈ (t.core.part p).cores.reserved, r.1 ≠ core) ∧
      (∀ b ∈ (t.core.part p).cores.mail, b.core ≠ core) ∧
      (∀ l ∈ (s.core.part p).cores.lines, l.core ≠ core → l ∈ (t.core.part p).cores.lines) ∧
      ((s.core.part p).cores.ballastFor = none → (s.core.part p).cores.failing = [] → (s.core.part p).cores.failed.getLsbD 4 = false →
        (t.core.part p).cores.failing = [core]) ∧
      ((s.core.part p).cores.ballastFor.isSome = true → t.core.health.permFailed = true)

/-- A slot entry that fails its check blocks the slot with a record; a beat edge moves the counter; a halt requested 2 us before takes effect there. Rests on 06_beats_and_determinism.md R156, 06_beats_and_determinism.md R169, 15_power_physical_management.md R510. -/
def Obligations.SlotEntryCheckAndEdges : Prop :=
  (∀ (part slot : Nat) (ok : Bool) (s : State), s.core.rst.phase = 6 → s.core.rst.parts.contains part = false → part < 8 → slot < 64 →
    part < s.core.parts.length → slot < (s.core.part part).slots.table.length →
    ∃ t e, exec (.slotStart part slot ok true) s = .next t ∧ t.mem = s.mem ∧ t.pwr = s.pwr ∧
      (t.core.part part).slots.table[slot]? = some e ∧ e.blocked = !ok ∧ e.bad = !ok ∧
      (ok = false → ∃ r, t.core.log.recs.head? = some r ∧ r.code = 0x207 ∧ r.cls = 1 ∧ r.block = 0x15 ∧ r.inst = BitVec.ofNat 16 slot)) ∧
  (∀ (edge : BitVec 64) (s : State), s.core.atEdge edge = false →
    ∃ t, exec (.beatEdge edge) s = .next t ∧ t.pwr = s.pwr ∧ t.mem = s.mem ∧ t.core.clk = s.core.clk ∧ t.core.jobs = s.core.jobs) ∧
  (∀ (edge : BitVec 64) (s : State) (r : BitVec 64), s.core.atEdge edge = true → s.core.rst.phase = 6 → s.pwr.halted = false →
    s.pwr.haltReq = some r → r.toNat + 2000 ≤ edge.toNat →
    ∃ t, exec (.beatEdge edge) s = .next t ∧ t.pwr.halted = true ∧ t.pwr.haltReq = none ∧ t.core.clk.count = edge)

/-- Each throttle cause moves its own ratio by the steps of Table 15-6, and never outside 4 to 16. Rests on 15_power_physical_management.md R506, 15_power_physical_management.md R519. -/
def Obligations.ThrottleCausesMoveByTheirRules : Prop :=
  ∀ (s : State), s.pwr.legal →
  (∀ (rs : List Reading) (ms : Bool), ∃ t, exec (.thermalThrottleTick rs ms) s = .next t ∧ t.mem = s.mem ∧
    let c := s.core.takeTemps rs
    (c.hot = true → t.pwr.thermal = max 4 (s.pwr.thermal - 1)) ∧
    (c.hot = false → c.cool = true → ms = true → t.pwr.thermal = min 16 (s.pwr.thermal + 1)) ∧
    (c.hot = false → (c.cool = false ∨ ms = false) → t.pwr.thermal = s.pwr.thermal) ∧
    t.pwr = { s.pwr with thermal := t.pwr.thermal } ∧ t.core.health = c.health ∧
    (∀ r ∈ rs, ∃ v, lookup? (r.die, r.index) t.core.health.temps = some v ∧ ∃ q ∈ rs, (q.die, q.index) = (r.die, r.index) ∧ q.value = v)) ∧
  (∀ (iin : BitVec 16), ∃ t, exec (.currentThrottle iin) s = .next t ∧ t.mem = s.mem ∧ t.pwr.iin = iin ∧
    t.pwr = { s.pwr with iin := iin, current := t.pwr.current } ∧
    (4500 < iin.toNat → 4 ≤ t.pwr.current ∧ t.pwr.current ≤ 8 ∧ t.pwr.current ≤ s.pwr.current) ∧
    (iin.toNat ≤ 4500 → t.pwr.current = s.pwr.current)) ∧
  (∀ (vin iin pin cdMv : BitVec 16) (loops : Nat) (volts : List Reading), ∃ t, exec (.throttleRatioTick vin iin pin cdMv loops volts) s = .next t ∧
    t.mem = s.mem ∧ t.pwr.thermal = s.pwr.thermal ∧ t.pwr.vinMv = vin ∧ t.pwr.iin = iin ∧ t.pwr.pinW = pin ∧ t.pwr.cdMv = cdMv ∧
    t.pwr.current = (if iin.toNat < 4000 then min 16 (s.pwr.current + 1) else s.pwr.current) ∧
    t.pwr.margin = (if loops = 1 then max 4 (s.pwr.margin - 1) else if loops = 2 then min 16 (s.pwr.margin + 1) else s.pwr.margin) ∧
    (ceilingW s.core.ident.profile < pin.toNat → t.pwr.ceiling = max 4 (s.pwr.ceiling - 1)) ∧
    (100 * pin.toNat ≤ 97 * ceilingW s.core.ident.profile → t.pwr.ceiling = min 16 (s.pwr.ceiling + 1)) ∧
    (97 * ceilingW s.core.ident.profile < 100 * pin.toNat → pin.toNat ≤ ceilingW s.core.ident.profile → t.pwr.ceiling = s.pwr.ceiling) ∧
    (s.pwr.capW ≠ 0 → s.pwr.capW ≤ ceilingW s.core.ident.profile → s.pwr.capW < pin.toNat → t.pwr.cap = max 4 (s.pwr.cap - 1)))

/-- A trip, PWR_OK and the input take the rails away and give them back under the conditions of R500 to R507. Rests on 15_power_physical_management.md R500, 15_power_physical_management.md R502, 15_power_physical_management.md R503, 15_power_physical_management.md R507. -/
def Obligations.PowerGoesAndComesBack : Prop :=
  ∀ (s : State),
  (∀ (kind : BitVec 2), s.pwr.rails = true → (kind = 1 ∨ kind = 2) → ∃ t, exec (.powerTrip kind) s = .next t ∧ t.pwr.rails = false ∧ t.pwr.lastTrip = kind ∧
    t.pwr.tripped = 1 ∧ t.core.rst.phase = 0 ∧ t.core.rst.latched = 1 ∧ t.core.rst.pgLow = true ∧ .pin "FAULT_N" true ∈ t.core.out) ∧
  (∀ (rs : List Reading), s.pwr.tripped = 3 → s.pwr.off = 0 →
    ((s.core.takeTemps rs).liveTemps.all (fun e => isStack e.1.1 || decide (e.2.toInt < 800))) = true →
    ∃ t, exec (.tripRestart rs) s = .next t ∧ t.pwr = { s.pwr with tripped := 0, rails := true } ∧ t.mem = s.mem ∧ t.core.rst = s.core.rst) ∧
  (s.pwr.off = 0 → s.core.rst.pwrOkLow = false → ∃ t, exec .pwrOkDeassert s = .next t ∧ t.pwr.rails = false ∧ t.core.rst.phase = 0 ∧ t.core.rst.latched = 1 ∧
    t.core.rst.pwrOkLow = true ∧ t.core.rst.pgLow = true ∧ (s.pwr.tripped = 0 → t.pwr.tripped = 0) ∧ (s.pwr.tripped ≠ 0 → t.pwr.tripped = 2)) ∧
  (s.pwr.off = 0 → ∃ t, exec .pwrOkAssert s = .next t ∧ t.mem = s.mem ∧ t.core.rst.pwrOkLow = false ∧
    (s.pwr.tripped = 0 → t.pwr = { s.pwr with rails := true }) ∧ (s.pwr.tripped = 2 → t.pwr = { s.pwr with tripped := 3 })) ∧
  (s.pwr.rails = true → s.pwr.off = 0 → s.core.rst.pgLow = true → ∃ t, exec .powerGoodRelease s = .next t ∧ t.mem = s.mem ∧ t.pwr = s.pwr ∧
    t.core.rst.pgLow = false ∧ (s.core.rst.pwrOkLow = false → s.core.rst.resetLow = false → s.core.rst.perstLow = false →
      t.core.rst.phase = 1 ∧ t.core.rst.release = s.core.clk.count) ∧ .pin "FAULT_N" true ∈ t.core.out) ∧
  (∀ (vin : BitVec 16), s.pwr.off = 0 → (vin.toNat < 39000 ∨ 61000 < vin.toNat) → ∃ t, exec (.inputTurnOff vin) s = .next t ∧ t.pwr.rails = false ∧
    t.pwr.off = (if vin.toNat < 39000 then 1 else 2) ∧ t.pwr.lastTrip = 0 ∧ t.pwr.inputFault = false ∧ t.pwr.capW = s.pwr.capW ∧
    t.core.rst.phase = 0 ∧ t.core.rst.latched = 1 ∧ .pin "PRSNT_N" true ∈ t.core.out) ∧
  (s.pwr.off = 1 → ∃ t, exec .inputTurnOn s = .next t ∧ t.pwr = { s.pwr with off := 0, vinMv := 41000 } ∧ t.mem = s.mem ∧
    t.core = { s.core with out := [.pin "PRSNT_N" false] }) ∧
  (s.pwr.off = 2 → ∃ t, exec .overvoltageTurnOn s = .next t ∧ t.pwr = { s.pwr with off := 0, vinMv := 60000 } ∧ t.mem = s.mem ∧
    t.core = { s.core with out := [.pin "PRSNT_N" false] }) ∧
  (∀ (vin : BitVec 16), s.pwr.off = 0 → ∃ t, exec (.inputOutOfRange vin) s = .next t ∧ t.mem = s.mem ∧ t.pwr.vinMv = vin ∧
    t.pwr.alert = decide (vin.toNat < 40000 ∨ 60000 < vin.toNat) ∧
    (t.pwr.alert ≠ s.pwr.alert → .pin "ALERT_N" t.pwr.alert ∈ t.core.out) ∧
    ((t.pwr.statusWord = 0 ↔ s.pwr.statusWord ≠ 0) → .pin "PMB_ALERT_N" (decide (t.pwr.statusWord ≠ 0)) ∈ t.core.out) ∧ { t.core with out := [] } = { s.core with out := [] })

/-- The halt channels request a halt, count or latch disagreements, and release it; a halt without a beat takes effect and stops every job. Rests on 15_power_physical_management.md R509, 15_power_physical_management.md R510, 15_power_physical_management.md R521. -/
def Obligations.HaltInputRequestsAndReleases : Prop :=
  ∀ (s : State),
  (s.pwr.off = 0 → s.pwr.halted = false → ∃ t, exec .haltChannelsAsserted s = .next t ∧
    t.pwr = { s.pwr with aLow := true, bLow := true, runFault := false, haltReq := some (s.pwr.haltReq.getD s.core.clk.count) } ∧
    t.mem = s.mem ∧ t.core = { s.core with out := [] }) ∧
  (∀ (a : Bool), s.pwr.off = 0 → s.pwr.halted = false → ∃ t r, exec (.haltInputFault a) s = .next t ∧
    t.pwr = { s.pwr with aLow := a, bLow := !a, inputFault := true, runFault := true, haltReq := some (s.pwr.haltReq.getD s.core.clk.count) } ∧
    t.mem = s.mem ∧ t.core.log.recs.head? = some r ∧ r.code = 0x70B ∧ r.cls = 5 ∧ t.core.log.written = s.core.log.written + 1) ∧
  (∀ (n : Nat), ∃ t, exec (.haltDisagreementEnd n) s = .next t ∧ t.mem = s.mem ∧ t.core = { s.core with out := [] } ∧
    t.pwr = { s.pwr with aLow := false, bLow := false, runFault := false,
                         discCount := if s.pwr.runFault = false ∧ 1 ≤ n then satInc s.pwr.discCount else s.pwr.discCount }) ∧
  (∀ (r : BitVec 64), s.pwr.haltReq = some r → s.pwr.halted = false → s.core.clk.epochSet = false → s.core.rst.phase = 6 →
    ∃ t, exec .haltNoBeat s = .next t ∧ t.pwr = { s.pwr with halted := true, haltReq := none, leaving := false, haltedUs := 0 }) ∧
  (s.pwr.halted = true → ∃ t, exec .haltRelease s = .next t ∧ t.mem = s.mem ∧ t.core = { s.core with out := [] } ∧ t.pwr.aLow = false ∧ t.pwr.bLow = false ∧
    (s.pwr.inputFault = true → t.pwr.halted = true) ∧
    (s.pwr.inputFault = false → s.core.clk.epochSet = true → t.pwr.halted = true ∧ t.pwr.leaving = true) ∧
    (s.pwr.inputFault = false → s.core.clk.epochSet = false → t.pwr.halted = false)) ∧
  (s.pwr.halted = true → ∃ t, exec .haltTimeout s = .next t ∧ t.mem = s.mem ∧ t.pwr = s.pwr ∧
    ∀ j ∈ t.core.jobs, s.core.multiModule j = true → j.phase = .stoppedLimit ∨ j.phase = .stoppedFallback ∨ j.phase = .filled) ∧
  (s.core.rst.phase = 6 → ∃ t, exec .inputFaultClear s = .next t ∧ t.mem = s.mem ∧ t.core = { s.core with out := [] } ∧
    t.pwr = { s.pwr with inputFault := s.pwr.inputFault && (s.pwr.aLow || s.pwr.bLow) })

/-- Saturated loops are counted and recorded once a second; coolant, aging and mismatched sensors raise their records. Rests on 15_power_physical_management.md R504, 15_power_physical_management.md R508, 15_power_physical_management.md R522, 12_health_and_errors.md R426. -/
def Obligations.LoopsAndMonitorsRaiseTheirRecords : Prop :=
  ∀ (s : State),
  (∀ (kind inst : Nat), ∃ t, exec (.policyLimit kind inst) s = .next t ∧ t.mem = s.mem ∧
    t.pwr.voltLimits = (if kind = 0 then satInc s.pwr.voltLimits else s.pwr.voltLimits) ∧
    t.pwr.eqLimits = (if kind = 0 then s.pwr.eqLimits else satInc s.pwr.eqLimits) ∧
    (s.pwr.limitDue s.core.clk.count kind inst = true → lookup? (kind, inst) t.pwr.limits = some s.core.clk.count ∧
      ∃ r, t.core.log.recs.head? = some r ∧ r.code = 0x709 ∧ r.cls = 6 ∧ t.core.log.written = s.core.log.written + 1) ∧
    (s.pwr.limitDue s.core.clk.count kind inst = false → t.core = { s.core with out := [] })) ∧
  (∀ (i o : BitVec 16), ∃ t, exec (.coolantAlarm i o) s = .next t ∧ t.mem = s.mem ∧ t.pwr = { s.pwr with coolIn := i, coolOut := o } ∧
    (176 < o.toInt - i.toInt → ∃ r, t.core.log.recs.head? = some r ∧ r.code = 0x70A ∧ r.cls = 6) ∧
    (o.toInt - i.toInt ≤ 176 → t.core = { s.core with out := [] })) ∧
  (∀ (die index : Nat) (ppm : BitVec 32), ∃ t, exec (.agingSample die index ppm) s = .next t ∧ t.mem = s.mem ∧ t.pwr = s.pwr ∧
    lookup? (die, index) t.core.health.aging = some ppm ∧
    (15000 < ppm.toNat → (die, index) ∉ s.core.health.agingWarned → (die, index) ∈ t.core.health.agingWarned ∧
      ∃ r, t.core.log.recs.head? = some r ∧ r.code = 0x704 ∧ r.cls = 6) ∧
    (ppm.toNat ≤ 15000 → t.core.log = s.core.log) ∧
    (t.core.health.agingSuspect = (s.core.health.agingSuspect || decide (30000 < ppm.toNat)))) ∧
  (∀ (r : Reading), ∃ t, exec (.sensorMismatch r) s = .next t ∧ t.mem = s.mem ∧ t.pwr = s.pwr ∧ (r.die, r.index) ∈ t.core.health.excluded ∧
    lookup? (r.die, r.index) t.core.health.temps = some r.value ∧
    ((r.die, r.index) ∈ s.core.health.excluded → t.core.log = s.core.log) ∧
    ((r.die, r.index) ∉ s.core.health.excluded → ∃ q, t.core.log.recs.head? = some q ∧ q.code = 0x70A ∧ q.cls = 6)) ∧
  (s.core.rst.phase = 6 → ∃ t, exec .pwrLoopClear s = .next t ∧ t.mem = s.mem ∧ t.core = { s.core with out := [] } ∧
    t.pwr = { s.pwr with voltLimits := 0, eqLimits := 0 })

/-- PWR_POLICY reads the policy in force, and no command but POWER_POLICY changes it. States 15_power_physical_management.md R520. -/
def Obligations.PowerPolicyRegister : Prop :=
  (∀ (s : State), s.pwr.capW < 2 ^ 16 → s.pwr.discUs < 2 ^ 16 →
    let w := regRead s.pwr s.mem s.core 2 0 8
    (w >>> 48).toNat = s.pwr.capW ∧ ((w >>> 32).setWidth 16).toNat = s.pwr.discUs ∧ w.getLsbD 16 = s.pwr.detLock ∧
      (w >>> 17).setWidth 15 = 0#15 ∧ w.setWidth 16 = 0#16) ∧
  (∀ (c : Instr) (s t : State), (∀ tn sq tag, c ≠ .powerPolicy tn sq tag) → exec c s = .next t →
    t.pwr.capW = s.pwr.capW ∧ t.pwr.discUs = s.pwr.discUs ∧ t.pwr.detLock = s.pwr.detLock) ∧
  (∀ (s t : State), s.pending = [] → step s = .next t → t.pwr.capW = s.pwr.capW ∧ t.pwr.discUs = s.pwr.discUs ∧ t.pwr.detLock = s.pwr.detLock)

/-- THM_THROTTLE_TIME counts the microseconds below 16, saturates with OVF, raises no event, and clears. States 15_power_physical_management.md R524. -/
def Obligations.ThrottleTimeRegister : Prop :=
  (∀ (s : State),
    let w := regRead s.pwr s.mem s.core 2 0 0x108
    w.setWidth 48 = s.pwr.throttleUs ∧ w.getLsbD 48 = s.pwr.throttleOvf ∧ w >>> 49 = 0) ∧
  (∀ (s : State), s.pending = [] → s.core.clk.count.toNat + 1 < 2 ^ 64 → ∃ t, step s = .next t ∧ t.core.log = s.core.log ∧
    (s.pwr.ratio < 16 → (s.core.clk.count.toNat + 1) % 1000 = 0 →
      t.pwr.throttleUs.toNat = min (2 ^ 48 - 1) (s.pwr.throttleUs.toNat + 1) ∧
      t.pwr.throttleOvf = (s.pwr.throttleOvf || decide (2 ^ 48 - 1 ≤ s.pwr.throttleUs.toNat))) ∧
    (s.pwr.ratio = 16 ∨ (s.core.clk.count.toNat + 1) % 1000 ≠ 0 →
      t.pwr.throttleUs = s.pwr.throttleUs ∧ t.pwr.throttleOvf = s.pwr.throttleOvf)) ∧
  (∀ (s : State), s.core.rst.phase = 6 → ∃ t, exec .throttleTimeClear s = .next t ∧ t.mem = s.mem ∧ t.core = { s.core with out := [] } ∧
    t.pwr = { s.pwr with throttleUs := 0, throttleOvf := false }) ∧
  (∀ (s : State) (v : BitVec 64), s.core.rst.phase = 6 → v.getLsbD 63 = true →
    ∃ t, exec (.registerWrite { fn := 0, off := 0x2000108, size := 8 } v) s = .next t ∧ t.mem = s.mem ∧ t.core = { s.core with out := [] } ∧
      t.pwr = { s.pwr with throttleUs := 0, throttleOvf := false }) ∧
  State.reset.pwr.throttleUs = 0 ∧ State.reset.pwr.throttleOvf = false

/-- Every step keeps power and reset in agreement: level sources hold reset, rails follow PWR_OK, trips and the input. Rests on 15_power_physical_management.md R502, 15_power_physical_management.md R503, 15_power_physical_management.md R507, 14_reset_and_recovery.md R481. -/
def Obligations.PowerAndResetAgree : Prop :=
  (∀ (s t : State), s.powerAgrees → step s = .next t → t.powerAgrees) ∧ State.reset.powerAgrees

/-- The I3C status map, PMBus, JTAG and SPDM answer with the values of R517 and R518. Rests on 15_power_physical_management.md R517, 15_power_physical_management.md R518. -/
def Obligations.ManagementBusesAnswer : Prop :=
  ∀ (s : State),
  let answers := fun (c : Instr) (o : Out) => ∃ t, exec c s = .next t ∧ t.core = { s.core with out := [o] } ∧ t.pwr = s.pwr ∧ t.mem = s.mem
  let block := fun (cmd : Byte) (bs : List Byte) => Out.data (BitVec.ofNat 8 bs.length :: bs ++
    [pec ([(s.pwr.i3cAddr s.core).setWidth 8 <<< 1, cmd, ((s.pwr.i3cAddr s.core).setWidth 8 <<< 1) ||| 1] ++ BitVec.ofNat 8 bs.length :: bs)])
  let word := fun (num : Int) (den : Nat) => Out.data (bytesLE 2 (linear11 num den).toNat)
  answers .i3cModuleIdent (block 0 (bytesLE 8 s.core.ident.word.toNat)) ∧
  answers .i3cStatusBytes (block 1 [BitVec.ofNat 8 s.core.rst.phase, s.pwr.lastTrip.setWidth 8, BitVec.ofNat 8 (boolNat s.pwr.halted),
    BitVec.ofNat 8 (boolNat s.pwr.inputFault), BitVec.ofNat 8 (boolNat s.core.rst.moduleOut)]) ∧
  answers .i3cHottestTemp (block 2 (bytesLE 2 s.core.hottest.2.toNat)) ∧
  answers .i3cInputPower (block 3 (bytesLE 2 s.pwr.pinW.toNat)) ∧
  answers .i3cFaultCount (if s.core.rst.phase = 6 then block 4 (bytesLE 2 s.core.log.history.length) else .nack) ∧
  (s.core.rst.phase ≠ 6 → answers .i3cFaultRecordNext .nack) ∧
  (∀ r, s.core.rst.phase = 6 → s.core.log.history.reverse[s.pwr.faultPos]? = some r → ∃ t, exec .i3cFaultRecordNext s = .next t ∧ t.mem = s.mem ∧
    t.pwr = { s.pwr with faultPos := (s.pwr.faultPos + 1) % s.core.log.history.length } ∧ t.core = { s.core with out := [block 5 (recBytes r)] }) ∧
  (∀ a, ∃ t, exec (.i3cDynamicAddress a) s = .next t ∧ t.mem = s.mem ∧ t.core = { s.core with out := [] } ∧ t.pwr = { s.pwr with i3c := some a }) ∧
  (∃ t, exec .clearFaults s = .next t ∧ t.mem = s.mem ∧ t.pwr = { s.pwr with pmInput := 0, pmTemp := 0 } ∧ t.pwr.statusWord = 0 ∧
    t.core = { s.core with out := if s.pwr.statusWord = 0 then [] else [.pin "PMB_ALERT_N" false] }) ∧
  answers .capability (.data [0xB0]) ∧ answers .statusByte (.data [s.pwr.statusWord.setWidth 8]) ∧ answers .statusWord (.data (bytesLE 2 s.pwr.statusWord.toNat)) ∧
  answers .statusInput (.data [s.pwr.pmInput]) ∧ answers .statusTemperature (.data [s.pwr.pmTemp]) ∧ answers .readVin (word s.pwr.vinMv.toNat 1000) ∧
  answers .readIin (word s.pwr.iin.toNat 100) ∧ answers .readPin (word s.pwr.pinW.toNat 1) ∧ answers .readTemperature1 (word s.core.hottest.2.toInt 8) ∧
  answers .readTemperature2 (word s.pwr.coolOut.toInt 8) ∧ answers .pmbusRevision (.data [0x44]) ∧ answers .mfrId (.data [5, 0x47, 0x59, 0x4E, 0x59, 0x58]) ∧
  answers .mfrModel (.data [4, 0x54, 0x56, 0x32, 0x30]) ∧ answers .mfrRevision (.data [2, 0x42, 0x31]) ∧ answers .pmbusWriteRefused .nack ∧
  (∀ c ∈ [(Instr.bypass, 0), (.samplePreload, 2), (.extest, 3), (.clamp, 4), (.highz, 5)], ∃ t, exec c.1 s = .next t ∧ t.mem = s.mem ∧
    t.core = { s.core with out := [] } ∧ t.pwr = { s.pwr with jtagIr := c.2 }) ∧
  (∃ t, exec .idcode s = .next t ∧ t.mem = s.mem ∧ t.core = { s.core with out := [.data [0x87, 0x4B, 0x01, 0x32]] } ∧ t.pwr = { s.pwr with jtagIr := 1 }) ∧
  (∀ q, s.core.rst.phase ≠ 6 → s.core.rst.recovery = false → answers (.spdmRequest q) .nack) ∧
  (∀ i, (s.core.rst.phase = 6 ∨ s.core.rst.recovery = true) → answers (.spdmRequest (.measurement i)) (.data (s.core.measure s.pwr i))) ∧
  ((s.core.rst.phase = 6 ∨ s.core.rst.recovery = true) → answers (.spdmRequest .certificate) (.data (Config.spdmAnswer 0)) ∧
    answers (.spdmRequest .session) (.data (Config.spdmAnswer 1)))

/-- RESET_N and PERST# hold the module in warm reset, keep HBM and the plans, clear station memory and Commons, and start the sequence when the last one releases. Rests on 14_reset_and_recovery.md R476, 14_reset_and_recovery.md R478, 14_reset_and_recovery.md R480, 14_reset_and_recovery.md R481, 14_reset_and_recovery.md R488. -/
def Obligations.ModuleResetsAssertAndRelease : Prop :=
  ∀ (s : State),
  let cleared := fun (t : State) => t.core.plans = s.core.plans ∧ t.core.clk.count = s.core.clk.count ∧ t.core.clk.latch = none ∧ t.core.log = s.core.log ∧
    t.core.rst.latched = 2 ∧ (∀ k, k < 8 * 33 * 2 ^ 24 → memByte t.mem k = 0) ∧
    (∀ k, 2 ^ 40 ≤ k → k < 2 ^ 40 + 8 * 48 * 2 ^ 24 → memByte t.mem k = 0) ∧ (∀ k, 2 ^ 41 ≤ k → memByte t.mem k = memByte s.mem k)
  (s.core.rst.resetLow = false → ∃ t, exec .resetNAssert s = .next t ∧ t.pwr = s.pwr ∧ t.core.rst.phase = 0 ∧ t.core.rst.resetLow = true ∧
    (s.core.rst.phase = 6 → s.core.rst.hangs = [] → cleared t)) ∧
  (s.core.rst.perstLow = false → ∃ t, exec .perstAssert s = .next t ∧ t.pwr = s.pwr ∧ t.core.rst.phase = 0 ∧ t.core.rst.perstLow = true ∧
    (s.core.rst.phase = 6 → s.core.rst.hangs = [] → cleared t)) ∧
  (s.core.rst.resetLow = true → ∃ t, exec .resetNRelease s = .next t ∧ t.mem = s.mem ∧ t.pwr = s.pwr ∧ t.core.rst.resetLow = false ∧
    (t.core.rst.level = false → t.core.rst.phase = 1 ∧ t.core.rst.release = s.core.clk.count) ∧
    (t.core.rst.level = true → t.core.rst.phase = s.core.rst.phase)) ∧
  (s.core.rst.perstLow = true → ∃ t, exec .perstRelease s = .next t ∧ t.mem = s.mem ∧ t.pwr = s.pwr ∧ t.core.rst.perstLow = false ∧
    (t.core.rst.level = false → t.core.rst.phase = 1 ∧ t.core.rst.release = s.core.clk.count) ∧
    (t.core.rst.level = true → t.core.rst.phase = s.core.rst.phase)) ∧
  (s.core.rst.delayed = some none → s.core.rst.level = false → ∃ t, exec .resetStartDelay s = .next t ∧ t.pwr = s.pwr ∧ t.core.rst.phase = 1 ∧
    t.core.rst.delayed = none) ∧
  (∀ (tn : TenantId), s.core.rst.delayed = some (some tn) → ∃ t, exec .resetStartDelay s = .next t ∧ t.pwr = s.pwr ∧ t.mem = s.mem ∧
    t.core.rst.delayed = none ∧ (t.core.ten tn.toNat).queues = [] ∧ (t.core.ten tn.toNat).enabled = (s.core.ten tn.toNat).enabled)

/-- A reset sequence goes through its phases, reads the straps in a cold option load, boots a valid image or recovers, and reaches Ready. Rests on 14_reset_and_recovery.md R478, 14_reset_and_recovery.md R480, 14_reset_and_recovery.md R483, 14_reset_and_recovery.md R486, 15_power_physical_management.md R513, 15_power_physical_management.md R514, 15_power_physical_management.md R516. -/
def Obligations.ResetSequenceRunsToReady : Prop :=
  ∀ (s : State),
  (∀ (straps : BitVec 7), 1 ≤ s.core.rst.phase → s.core.rst.phase ≤ 3 → ∃ t, exec (.resetPhaseDone straps) s = .next t ∧ t.mem = s.mem ∧ t.pwr = s.pwr ∧
    t.core.rst = { s.core.rst with phase := s.core.rst.phase + 1 } ∧
    (s.core.rst.phase = 2 ∧ s.core.rst.latched = 1 → t.core.fab.cfg.position = straps.toNat % 64 ∧ t.core.fab.cfg.celoth1 = !straps.getLsbD 6) ∧
    (s.core.rst.phase ≠ 2 ∨ s.core.rst.latched ≠ 1 → t.core.fab = s.core.fab)) ∧
  (∀ (straps : BitVec 7), s.core.rst.phase = 4 → s.core.ident.fwBoot ≤ 1 → ∃ t, exec (.resetPhaseDone straps) s = .next t ∧ t.mem = s.mem ∧
    t.core.rst.phase = 5 ∧
    (s.core.ident.imageOk s.core.ident.fwBoot = true → t.core.ident.fwRun = s.core.ident.fwBoot ∧ t.core.rst.recovery = s.core.rst.recovery) ∧
    (s.core.ident.imageOk s.core.ident.fwBoot = false → s.core.ident.imageOk (1 - s.core.ident.fwBoot) = true →
      t.core.ident.fwRun = 1 - s.core.ident.fwBoot ∧ ∃ r ∈ t.core.log.recs.take 2, r.code = 0x70D ∧ r.cls = 4) ∧
    (s.core.ident.imageOk 0 = false → s.core.ident.imageOk 1 = false → t.core.rst.recovery = true ∧ .pin "FAULT_N" true ∈ t.core.out)) ∧
  (∀ (straps : BitVec 7), s.core.rst.phase = 0 ∨ 5 ≤ s.core.rst.phase → ∃ t, exec (.resetPhaseDone straps) s = .next t ∧
    t.mem = s.mem ∧ t.pwr = s.pwr ∧ t.core = { s.core with out := [] }) ∧
  (∀ (pieces : List MirrorPiece), s.core.rst.phase = 5 → s.core.rst.recovery = false → s.core.rst.level = false → ∃ t,
    exec (.resetReady none pieces) s = .next t ∧ t.core.rst.phase = 6 ∧ t.core.rst.reach = s.core.rst.latched ∧
    t.pwr.halted = (s.pwr.haltReq.isSome || s.pwr.inputFault || (s.pwr.aLow && s.pwr.bLow) || (s.pwr.halted && !s.pwr.leaving)) ∧ t.pwr.haltReq = none) ∧
  (∀ (f : BitVec 8), s.core.rst.phase = 6 → ∃ t, exec (.functionLevelReset f) s = .next t ∧ t.mem = s.mem ∧ t.pwr = s.pwr ∧
    (f ≠ 0 → (t.core.ten f.toNat).queues = []) ∧ (f = 0 → ∀ e ∈ s.core.tens, e.1 < 256 → (t.core.ten e.1).queues = [])) ∧
  (∀ (w : Option FlashWrite), ∃ t, exec (.flashOwnN true w) s = .next t ∧ t.mem = s.mem ∧ t.pwr = s.pwr ∧
    t.core = { s.core with out := [], rst := { s.core.rst with flashOwned := s.core.rst.flashOwned ||
      (s.core.rst.phase == 0 && (s.core.rst.pwrOkLow || s.core.rst.resetLow)) || s.core.rst.recovery } }) ∧
  (∀ (w : FlashWrite), s.core.rst.flashOwned = true → w.image < s.core.ident.images.length → ∃ t, exec (.flashOwnN false (some w)) s = .next t ∧
    t.mem = s.mem ∧ t.pwr = s.pwr ∧ t.core.rst.flashOwned = false ∧ t.core.ident.images[w.image]? = some (readFw w.bytes))

/-- A partition reset clears its die and Commons half, leaves every other partition and HBM as they were, and is discarded when one is running. Rests on 14_reset_and_recovery.md R477, 14_reset_and_recovery.md R482, 14_reset_and_recovery.md R484, 14_reset_and_recovery.md R492. -/
def Obligations.PartitionResetClearsOnlyItsPartition : Prop :=
  ∀ (s : State),
  (∀ (p : Nat), s.core.rst.phase = 6 → p < 8 → s.core.parts.length = 8 → s.core.ident.dedicated = none → s.core.rst.parts.contains p = false → ∃ t,
    exec (.partitionReset (some p)) s = .next t ∧ t.pwr = s.pwr ∧ t.core.rst.parts.contains p = true ∧ (p, s.core.clk.count) ∈ t.core.rst.partTimes ∧
    (∀ k, (onDie p k ∨ cmKey p 0 0 ≤ k ∧ k < cmKey p 0 0 + 48 * 2 ^ 24) → memByte t.mem k = 0) ∧
    (∀ k, ¬ onDie p k → ¬ (cmKey p 0 0 ≤ k ∧ k < cmKey p 0 0 + 48 * 2 ^ 24) → memByte t.mem k = memByte s.mem k) ∧
    (t.core.part p).streams = { chans := (s.core.part p).streams.chans.map (fun e =>
      (e.1, { e.2 with tokens := [], poisonSeen := false, fullHold := false, emptyHold := false })) } ∧ (t.core.part p).slots = {} ∧ (∀ q, q ≠ p → t.core.part q = s.core.part q) ∧ t.core.plans = s.core.plans) ∧
  (∀ (p : Nat), s.core.rst.phase ≠ 6 ∨ s.core.ident.dedicated = none ∧ s.core.rst.parts.contains p = true → ∃ t,
    exec (.partitionReset (some p)) s = .next t ∧ t.mem = s.mem ∧ t.pwr = s.pwr ∧ t.core = { s.core with out := [] }) ∧
  (s.core.rst.phase = 6 → s.core.rst.level = false → ∃ t, exec (.partitionReset none) s = .next t ∧ t.pwr = s.pwr ∧ t.core.rst.phase = 1 ∧
    t.core.rst.latched = 2 ∧ t.core.rst.escCause = 1) ∧
  (∀ (p : Nat), s.core.rst.parts.contains p = true → s.core.rst.level = false → ∃ t, exec (.partitionSequenceTimeout p) s = .next t ∧ t.pwr = s.pwr ∧
    t.core.rst.phase = 1 ∧ t.core.rst.escCause = 4) ∧
  (∀ (p : Nat) (pieces : List MirrorPiece), s.core.rst.parts.contains p = true → ∃ t, exec (.resetReady (some p) pieces) s = .next t ∧ t.pwr = s.pwr ∧
    t.core.rst.parts.contains p = false ∧ t.core.rst.phase = s.core.rst.phase)

/-- A hang starts a capture of its partition; the capture's end resets it; suspects run one after another. Rests on 14_reset_and_recovery.md R489, 14_reset_and_recovery.md R490, 14_reset_and_recovery.md R491. -/
def Obligations.HangsAreCapturedAndTheirSuspectsReplayed : Prop :=
  ∀ (s : State),
  let free := fun (p : Nat) => s.core.rst.phase = 6 ∧ s.core.rst.parts.contains p = false ∧ s.core.rst.capturing.contains p = false
  (∀ (h : Nat) (j : Job) (p : Plan), s.core.job? h = some j → s.core.plan? h = some p → j.phase = .running → j.holds ≠ [] → j.rollback = none →
    p.hdr.holdLimit < j.holdBeats → s.core.replaying h = none → ∃ t, exec (.holdLimitReached h false) s = .next t ∧ t.pwr = s.pwr ∧ t.mem = s.mem ∧
    t.core.jobs = s.core.jobs ∧ ∀ q ∈ p.physParts, free q → t.core.rst.capturing.contains q = true ∧
      ∃ r ∈ t.core.rst.hangs, r.part = q ∧ r.cause = 1 ∧ r.plan = h ∧ r.time = s.core.clk.count ∧ r.suspects = s.core.suspects q h) ∧
  (∀ (h : Nat) (j : Job) (p : Plan), s.core.job? h = some j → s.core.plan? h = some p → j.phase = .running → j.rollback = none →
    p.hdr.holdLimit < j.holdBeats → j.holds.any (fun q => q.cause == .chanEmpty) = true → ∃ t k, exec (.holdLimitReached h true) s = .next t ∧ t.pwr = s.pwr ∧
    t.mem = s.mem ∧ t.core.job? h = some k ∧ k.rollback.isSome = true ∧ causeFault ≤ (k.verdict k.step).cause) ∧
  (∀ (h : Nat) (lsid : Lsid) (p : Plan) (b : Bind), s.core.plan? h = some p → p.bindOf lsid = some b → free b.die → lsScode lsid ≠ 6 →
    s.core.replaying h = none → ∃ t, exec (.engineOverrun h lsid) s = .next t ∧ t.pwr = s.pwr ∧ t.mem = s.mem ∧
    t.core.rst.capturing.contains b.die = true ∧ ∃ r ∈ t.core.rst.hangs, r.part = b.die ∧ r.cause = 2 ∧ r.plan = h) ∧
  (∀ (h : Nat) (lsid : Lsid) (p : Plan) (b : Bind), s.core.plan? h = some p → p.bindOf lsid = some b → s.core.rst.phase = 6 → lsScode lsid = 6 →
    s.core.rst.level = false → ∃ t, exec (.engineOverrun h lsid) s = .next t ∧ t.core.rst.phase = 1 ∧ t.core.rst.latched = 2 ∧ t.core.rst.escCause = 3) ∧
  (∀ (p us : Nat) (r : HangRun), s.core.rst.phase = 6 → p < 8 → s.core.rst.parts.contains p = false → s.core.rst.capturing.contains p = true →
    s.core.rst.hangs = [r] → r.part = p → r.released = none → r.capUs = 0 → r.valid = false →
    (∃ t, exec (.captureDone p us) s = .next t ∧ t.pwr = s.pwr ∧ t.core.rst.parts.contains p = true ∧ t.core.rst.capturing.contains p = false ∧
      lookup? p t.core.rst.newest = some r.slot) ∧
    (∃ t, exec (.captureTimeout p) s = .next t ∧ t.pwr = s.pwr ∧ t.core.rst.parts.contains p = true ∧ t.core.rst.capturing.contains p = false ∧
      lookup? p t.core.rst.newest = some r.slot ∧ t.core.rst.hangs = [{ r with capUs := 2000, valid := false }])) ∧
  (∀ (p i : Nat) (r : HangRun) (x : Suspect) (q : Plan) (j : Job), s.core.rst.hangs = [r] → r.part = p → r.outcome = 0 → r.released = some i →
    i + 1 = r.suspects.length → r.suspects[i]? = some x → s.core.plan? x.plan = some q → s.core.job? x.plan = some j → x.passed q j = true →
    ∃ t, exec (.suspectReplayPass p) s = .next t ∧ t.pwr = s.pwr ∧ t.core.rst.hangs = [] ∧ t.core.jobs = s.core.jobs)

/-- A step's verdict becomes final with its record once its beats are done and its frames acknowledged; a local replay ends with the job live and its checks settled. Rests on 10_seal_replay_tether.md R350, 10_seal_replay_tether.md R356, 10_seal_replay_tether.md R357. -/
def Obligations.VerdictsBecomeFinalAndReplaysEnd : Prop :=
  (∀ (s : State) (h : Nat) (st : StepNo) (j : Job) (p : Plan) (v : Verdict), s.core.job? h = some j → s.core.plan? h = some p → j.phase = .running →
    j.step ≠ st → (j.verdicts.filter (fun v => v.step == st)) = [v] → v.final = false → v.beatsDone = true →
    s.core.unacked h st = false → ∃ t k, exec (.verdictFinal h st) s = .next t ∧ t.mem = s.mem ∧ t.pwr = s.pwr ∧ t.core.job? h = some k ∧ (k.verdict st).final = true ∧
      (k.verdict st).finalAt = s.core.clk.count ∧ v.cause ≤ (k.verdict st).cause ∧
      (s.core.health.permFailed = false → s.core.fab.syncState ≠ 3 → (k.verdict st).cause = v.cause) ∧
      ∃ r ∈ t.core.led.records, r.plan = h ∧ r.step = st ∧ r.body = .verdict (k.verdict st).cause) ∧
  (∀ (s : State) (h : Nat) (st : StepNo) (j : Job), s.core.job? h = some j → j.step ≠ st →
    ((∀ v ∈ j.verdicts, v.step = st → v.beatsDone = false) ∨ s.core.unacked h st = true) →
    ∃ t, exec (.verdictFinal h st) s = .next t ∧ t.mem = s.mem ∧ t.pwr = s.pwr ∧ t.core = { s.core with out := [] }) ∧
  (∀ (s : State) (h : Nat) (j : Job) (r : Replay), s.core.job? h = some j → j.phase = .localReplay → j.replay = some r → r.begun = true → r.endBeat ≤ j.beat →
    ∃ t k, exec (.localReplayEnd h) s = .next t ∧ t.pwr = s.pwr ∧ t.core.job? h = some k ∧ k.phase = .running ∧ k.replay = none ∧ k.checks = [] ∧
      r.endCycle ≤ k.sched ∧ k.step = j.step ∧ k.beat = j.beat)

/-- A clean seal vote seals its step, a failed one names a rollback, a mirror vote frees the step's records, a resume vote names the edge of the next attempt. Rests on 10_seal_replay_tether.md R351, 10_seal_replay_tether.md R352, 10_seal_replay_tether.md R353, 10_seal_replay_tether.md R363, 12_health_and_errors.md R427. -/
def Obligations.VotesSealMirrorResumeAndFail : Prop :=
  ∀ (s : State) (h : Nat) (j : Job) (p : Plan) (o : KiteOp), s.core.job? h = some j → s.core.plan? h = some p → s.core.fab.kite = [o] →
    s.core.fab.kiteQueue = [] → o.plan = h → o.group = 0xFF → o.submitter = 1 → o.result = none → o.error = false →
  (∀ (res : List Byte), o.seq = 0 → j.votes.contains (0, j.step - 1) = true → stepLater (j.step - 1) j.lastSealed = true → j.rollback = none →
    ∃ t k, exec (.sealVoteResult h res true) s = .next t ∧ t.pwr = s.pwr ∧ t.mem = s.mem ∧ t.core.fab.kite = [] ∧ t.core.job? h = some k ∧
      k.lastSealed = j.lastSealed ∧ k.rollback = some (s.core.clk.count + 20000000, j.lastSealed)) ∧
  (∀ (res : List Byte), o.seq = 0 → j.votes.contains (0, j.step - 1) = true → stepLater (j.step - 1) j.lastSealed = true →
    sealConsistent (padTo 64 res) (j.verdict (j.step - 1)).attempt = true → lane (padTo 64 res) 0 = 0 → lane (padTo 64 res) 1 = (j.step - 1).toNat →
    ∃ t k, exec (.sealVoteResult h res false) s = .next t ∧ t.pwr = s.pwr ∧ t.core.job? h = some k ∧ k.lastSealed = j.step - 1 ∧ k.sealedValid = true) ∧
  (∀ (res : List Byte), o.seq = 1 → laneAgree (padTo 64 res) 1 = true → lane (padTo 64 res) 1 = j.lastSealed.toNat →
    ∃ t k, exec (.mirrorVoteResult h res false) s = .next t ∧ t.pwr = s.pwr ∧ t.mem = s.mem ∧ t.core.fab.kite = [] ∧ t.core.job? h = some k ∧
      k.mirrored = true ∧ k.lastSealed = j.lastSealed ∧ k.writeHold = s.core.copyHolds j ∧
      ∀ r ∈ t.core.led.records, r.plan = h → r.step ≠ j.lastSealed) ∧
  (∀ (res : List Byte), o.seq = 0x3FFF → laneAgree (padTo 64 res) 1 = true → lane (padTo 64 res) 1 = j.lastSealed.toNat → lane (padTo 64 res) 6 = j.attempt →
    ∃ t k, exec (.resumeVoteResult h res false) s = .next t ∧ t.pwr = s.pwr ∧ t.mem = s.mem ∧ t.core.fab.kite = [] ∧ t.core.job? h = some k ∧
      k.resumeAt = some (BitVec.ofNat 64 (lane (padTo 64 res) 5)) ∧ k.lastSealed = j.lastSealed) ∧
  (∀ (res : List Byte), (o.seq = 1 → ∃ t, exec (.mirrorVoteResult h res true) s = .next t ∧ t.core.fab.kite = [] ∧ t.core.jobs = s.core.jobs ∧ t.mem = s.mem) ∧
    (o.seq = 0x3FFF → ∃ t, exec (.resumeVoteResult h res true) s = .next t ∧ t.core.fab.kite = [] ∧ t.core.jobs = s.core.jobs ∧ t.mem = s.mem) ∧
    (∀ e, o.seq = 0x3FFD → ∃ t, exec (.latenessVoteResult h res e) s = .next t ∧ t.pwr = s.pwr ∧ t.mem = s.mem ∧ t.core.fab.kite = [] ∧
      t.core.jobs = s.core.jobs))

/-- Failure, rollback and abort notices name a rollback of the job; a lost partner and a failed step do so too. Rests on 10_seal_replay_tether.md R361, 10_seal_replay_tether.md R369, 10_seal_replay_tether.md R371, 12_health_and_errors.md R420, 14_reset_and_recovery.md R485. -/
def Obligations.NoticesNameRollbacks : Prop :=
  ∀ (s : State) (h : Nat) (j : Job), s.core.job? h = some j →
  (∀ (p : Plan) (lost : Nat) (edge : BitVec 64), s.core.plan? h = some p → lost < p.hdr.modCount → j.rollback = none → ∃ t k,
    exec (.failureNoticeReceived h lost edge) s = .next t ∧ t.mem = s.mem ∧ t.pwr = s.pwr ∧ t.core.job? h = some k ∧
      k.rollback = some (edge, j.lastMirrored) ∧ k.step = j.step ∧ k.lastSealed = j.lastSealed ∧ k.phase = j.phase) ∧
  (∀ (l : StepNo) (edge : BitVec 64), ∃ t k, exec (.rollbackNoticeReceived h l edge) s = .next t ∧ t.mem = s.mem ∧ t.pwr = s.pwr ∧
    t.core.job? h = some k ∧ (j.rollback = none → k = { j with rollback := some (edge, l) }) ∧
    (∀ e q, j.rollback = some (e, q) → stepLater q l = false → k = j) ∧
    (∀ e q, j.rollback = some (e, q) → stepLater q l = true → k = { j with rollback := some (edge, l) })) ∧
  (j.rollback = none → ∃ t k, exec (.abortNoticeReceived h) s = .next t ∧ t.mem = s.mem ∧ t.pwr = s.pwr ∧ t.core.job? h = some k ∧
    k = { j with abort := true, rollback := some (s.core.edgeAfter (s.core.clk.count.toNat + 1), j.lastSealed) }) ∧
  (∀ (p : Plan) (sl : Slice) (lm phys : Nat) (edge : BitVec 64), s.core.plan? h = some p → s.core.sliceFor p = some sl → ∃ t,
    exec (.remapNoticeReceived h lm phys edge none) s = .next t ∧ t.mem = s.mem ∧ t.pwr = s.pwr ∧ t.core.jobs = s.core.jobs ∧
      t.core.fab = s.core.fab ∧ t.core.led.remaps = s.core.led.remaps ++ [(sl.id, lm, phys, edge)]) ∧
  (∀ (w : Option Nat), s.core.led.alone = true → ∃ t, exec (.partnerLost w) s = .next t ∧ t.mem = s.mem ∧ t.pwr = s.pwr ∧ t.core = { s.core with out := [] }) ∧
  (s.core.led.alone = false → ∃ t, exec (.partnerLost none) s = .next t ∧ t.pwr = s.pwr ∧ t.core.led.mode = 0 ∧ t.core.led.lost = true)

/-- A warm ballast module is claimed and checked; its twin completes the admission when the check has passed and the stream is done. Rests on 10_seal_replay_tether.md R365, 10_seal_replay_tether.md R368, 10_seal_replay_tether.md R369, 10_seal_replay_tether.md R371, 10_seal_replay_tether.md R372, 10_seal_replay_tether.md R374. -/
def Obligations.BallastModulesAreClaimedCheckedAndStreamedTo : Prop :=
  ∀ (s : State),
  (∀ (twin : Nat), s.core.warm = false ∨ s.core.led.entry.isSome = true →
    ∃ t, exec (.ballastClaim twin) s = .next t ∧ t.mem = s.mem ∧ t.pwr = s.pwr ∧ t.core = { s.core with out := [] }) ∧
  (∀ (twin : Nat) (x : BitVec 64), s.core.fab.cfg.loaded = true → s.core.fab.cfg.jobPos ≤ s.core.fab.cfg.position → s.core.jobs = [] →
    (∀ q ∈ s.core.fab.ports, q.st = .up ∨ q.st = .off) → s.core.health.passedAt = some x → withinTicks s.core.clk.count x day = true →
    s.core.led.entry = none →
    ∃ t, exec (.ballastClaim twin) s = .next t ∧ t.mem = s.mem ∧ t.pwr = s.pwr ∧ t.core.led.entry = some s.core.clk.count ∧ t.core.led.claimed = twin ∧
      t.core.led.entryPassed = false) ∧
  (∀ (pass : Bool) (nx : Option Nat) (e : BitVec 64), s.core.led.rescue = none → s.core.led.entry = some e → ∃ t, exec (.entryCheckDone pass nx) s = .next t ∧
    t.mem = s.mem ∧ t.pwr = s.pwr ∧ t.core.out = [.vc7 s.core.led.claimed 7 [boolNat pass]] ∧ t.core.led.entryPassed = pass ∧
    t.core.led.entry = (if pass then some e else none)) ∧
  (∀ (nx : Option Nat) (r : Rescue), s.core.led.rescue = some r → r.streamed = false → ∃ t, exec (.entryCheckDone true nx) s = .next t ∧ t.mem = s.mem ∧
    t.pwr = s.pwr ∧ t.core.led = { s.core.led with rescue := some { r with passed := true } }) ∧
  (∀ (r : Rescue), s.core.led.rescue = some r → ∃ t, exec (.entryCheckDone false none) s = .next t ∧ t.mem = s.mem ∧ t.pwr = s.pwr ∧
    t.core.led.rescue = none ∧ t.core.led.mode = 0 ∧
    ∀ h ∈ r.plans, ∀ k, t.core.job? h = some k → k.phase = .stoppedFallback) ∧
  (∀ (r : Rescue), s.core.led.rescue = some r → s.core.led.outXfer.any (fun o => o.stream == 2) = true → ∃ t, exec .ballastStreamDone s = .next t ∧
    t.mem = s.mem ∧ t.pwr = s.pwr ∧ t.core = { s.core with out := [] }) ∧
  (∀ (r : Rescue), s.core.led.rescue = some r → s.core.led.outXfer.any (fun o => o.stream == 2) = false → r.passed = false → ∃ t,
    exec .ballastStreamDone s = .next t ∧ t.mem = s.mem ∧ t.pwr = s.pwr ∧ t.core.led = { s.core.led with rescue := some { r with streamed := true } }) ∧
  (∀ (r : Rescue), s.core.led.rescue = some r → s.core.led.outXfer.any (fun o => o.stream == 2) = false → r.passed = true → ∃ t,
    exec .ballastStreamDone s = .next t ∧ t.mem = s.mem ∧ t.pwr = s.pwr ∧ t.core.led.rescue = none ∧ t.core.led.mode = 2 ∧ t.core.led.partner = s.core.led.partner ∧
      (∀ e ∈ s.core.led.remaps, e ∈ t.core.led.remaps)) ∧
  (∀ (port : Nat) (f : Frame), (s.core.port port).st = .up → port < s.core.fab.ports.length → f.seq = (s.core.port port).expect → ∃ t,
    exec (.mirrorFrameReceived port f) s = .next t ∧ t.pwr = s.pwr ∧ (t.core.port port).expect = (s.core.port port).expect + 1 ∧
    (2 < f.xid.toNat → t.mem = s.mem) ∧
    (∀ (x : MirrorIn), f.vc = 4 → f.dst.toNat = s.core.fab.cfg.own → f.xid.toNat ≤ 2 → f.payload.length = 512 →
      s.core.led.inXfer.find? (fun x => x.port == port && x.stream == f.xid.toNat) = some x →
      let n := min 512 (x.bytes - f.chunk.toNat * 512)
      let k := s.core.mirrorKey (x.start + f.chunk.toNat * 512)
      (∀ i < n, memByte t.mem (k + i) = f.payload.getD i 0) ∧ (∀ a, ¬ (k ≤ a ∧ a < k + n) → memByte t.mem a = memByte s.mem a)))

/-- Mailboxes, results, timeouts and aborts of the kite line act on the operation, the hamper, the counts and the verdict they name. Rests on 09_collectives_and_mapping.md R314, 09_collectives_and_mapping.md R318, 09_collectives_and_mapping.md R319, 09_collectives_and_mapping.md R330, 09_collectives_and_mapping.md R331, 09_collectives_and_mapping.md R332, 09_collectives_and_mapping.md R334. -/
def Obligations.KiteOperationsAndAborts : Prop :=
  ∀ (s : State), s.core.fab.lds.length = 4 → s.core.fab.ports.length = 16 →
  (∀ (plan part core index : Nat) (a : SmAddr) (ctrl : BitVec 64), s.core.coresRun plan part = true → index < 8 → part < s.core.parts.length →
    let busy := (s.core.part part).cores.mail.any (fun b => b.core == core && b.index == index && b.go)
    let k := s.core.smUnit part ((a.toNat + 1) % 2 ^ 23)
    ∃ t, exec (.kiteMailboxSubmit plan part core index a ctrl) s = .next t ∧ t.pwr = s.pwr ∧
    (busy = true → t.mem = s.mem ∧ ∃ r, t.core.log.recs.head? = some r ∧ r.code = 0x304 ∧ r.cls = 3 ∧ r.oper = BitVec.ofNat 16 index) ∧
    (busy = false → ctrl.getLsbD 63 = false → (∀ i < 8, memByte t.mem (k + i) = (bytesLE 8 ctrl.toNat).getD i 0) ∧
      (∀ x, ¬ (k ≤ x ∧ x < k + 64) → memByte t.mem x = memByte s.mem x) ∧ t.core.fab = s.core.fab) ∧
    (busy = false → ctrl.getLsbD 63 = true → field ctrl.toNat 48 8 ≠ 0xFF → kiteCombines (field ctrl.toNat 44 4) = true → Memory.wf s.mem = true →
      t.core.kiteNext plan (field ctrl.toNat 48 8) = s.core.kiteNext plan (field ctrl.toNat 48 8) + 1 ∧
      ∃ b ∈ (t.core.part part).cores.mail, b.core = core ∧ b.index = index ∧ b.plan = plan ∧ b.go = false) ∧
    (busy = false → ctrl.getLsbD 63 = true → field ctrl.toNat 44 4 ≠ 8 → kiteCombines (field ctrl.toNat 44 4) = false → Memory.wf s.mem = true →
      t.core.fab = s.core.fab ∧ (t.core.part part).cores.mail = (s.core.part part).cores.mail)) ∧
  (∀ (port : Nat) (f : Frame) (p : Plan) (j : Job) (o : KiteOp), s.core.kitePlan f.tenant (field f.xid.toNat 0 8) = some p → s.core.job? p.handle = some j →
    (s.core.port port).st = .up → port < 16 → f.seq = (s.core.port port).expect → f.vc = 0 → s.core.fab.cfg.own < 2 ^ 14 →
    field f.chunk.toNat 16 4 = o.op.toNat → kiteCombines o.op.toNat = true → field f.chunk.toNat 14 2 = o.width.toNat → bitOf f.chunk.toNat 20 = true →
    j.epochOk f.pmask (field f.chunk.toNat 0 14) = true →
    s.core.kiteOp? p.handle (BitVec.ofNat 8 (field f.xid.toNat 0 8)) (BitVec.ofNat 14 (field f.chunk.toNat 0 14)) f.pmask = some o →
    ∃ t, exec (.kite port f) s = .next t ∧ t.mem = s.mem ∧ t.pwr = s.pwr ∧ { o with result := some f.payload } ∈ t.core.fab.kite) ∧
  (∀ (plan : Nat) (o : KiteOp) (p : Plan) (j : Job) (res r : List Byte), s.core.plan? plan = some p → s.core.job? plan = some j → s.core.fab.kite = [o] →
    s.core.fab.kiteQueue = [] → o.plan = plan → o.submitter ≤ 2 → o.error = false → o.result = some r →
    ∃ t, exec (.kiteOperationComplete plan o.group o.seq res) s = .next t ∧ t.mem = s.mem ∧ t.pwr = s.pwr ∧ t.core.fab.kite = [] ∧
      (j.phase ≠ .localReplay → ∃ q ∈ t.core.led.records, q.plan = plan ∧ q.step = j.step ∧ q.body = .kiteResult o.group.toNat o.seq.toNat r)) ∧
  (∀ (plan : Nat) (o : KiteOp) (p : Plan) (j : Job), s.core.plan? plan = some p → s.core.job? plan = some j → s.core.fab.kite = [o] → o.plan = plan →
    o.submitter ≤ 2 → o.result = none → ∃ t k r, exec (.kiteTimeout plan o.group o.seq) s = .next t ∧ t.mem = s.mem ∧ t.pwr = s.pwr ∧
      t.core.fab.kite = [{ o with error := true }] ∧ t.core.job? plan = some k ∧
      (o.sparesVerdict = false → causeFault ≤ (k.verdict j.step).cause) ∧ (o.sparesVerdict = true → t.core.jobs = s.core.jobs) ∧
      t.core.log.recs.head? = some r ∧ r.code = 0x602 ∧ r.cls = 7 ∧ r.tenant = some j.tenant) ∧
  (∀ (i : Instr) (opc : Nat) (st : Stn) (h : Hdr) (f : CollF) (ps : List PeerData), collRow i = some (opc, st, h, f, ps) →
    (startMach s).collReady st f opc ps = false → ∃ t, exec i s = .next t ∧ t.mem = s.mem ∧ t.pwr = s.pwr ∧ t.core.jobs = s.core.jobs ∧
      t.core.parts = s.core.parts) ∧
  (∀ (plan group : Nat) (lsid : Lsid) (p : Plan) (j : Job), s.core.plan? plan = some p → s.core.job? plan = some j → s.core.kiteDie p group < 4 →
    let cid : Cid := { step := j.step, beat := j.beat, group := group, inst := s.core.collInst plan lsid j.step j.beat group }
    s.core.fab.aborted.contains (plan, cid) = false → ∃ t k r, exec (.partnerSilent plan lsid group) s = .next t ∧ t.mem = s.mem ∧ t.pwr = s.pwr ∧
      (plan, cid) ∈ t.core.fab.aborted ∧ (t.core.ld (s.core.kiteDie p group)).issued = satInc (s.core.ld (s.core.kiteDie p group)).issued ∧
      t.core.log.recs.head? = some r ∧ r.code = 0x603 ∧ r.cls = 7 ∧ t.core.job? plan = some k ∧ causeFault ≤ (k.verdict j.step).cause) ∧
  (∀ (port : Nat) (f : Frame) (p : Plan) (j : Job), s.core.kitePlan f.tenant (field f.xid.toNat 0 8) = some p → s.core.job? p.handle = some j →
    (s.core.port port).st = .up → port < 16 → f.seq = (s.core.port port).expect → f.vc = 0 → s.core.fab.cfg.own < 2 ^ 14 →
    s.core.kiteDie p (field f.xid.toNat 0 8) < 4 →
    s.core.fab.aborted.contains (p.handle, { step := BitVec.ofNat 40 (fieldAt f.payload 0 5), beat := fieldAt f.payload 5 2, group := field f.xid.toNat 0 8, inst := fieldAt f.payload 7 1 }) = true →
    ∃ t, exec (.kiteAbortReceived port f) s = .next t ∧ t.mem = s.mem ∧ t.pwr = s.pwr ∧ t.core.jobs = s.core.jobs ∧
      (t.core.ld (s.core.kiteDie p (field f.xid.toNat 0 8))).ignored = satInc (s.core.ld (s.core.kiteDie p (field f.xid.toNat 0 8))).ignored)

/-- Acknowledgement, credit, replay and sync timers, bad and invalid frames and LINK_CTL act on their port as R259 to R265 and R191 say. Rests on 08_celoth_fabric.md R259, 08_celoth_fabric.md R261, 08_celoth_fabric.md R262, 08_celoth_fabric.md R263, 08_celoth_fabric.md R264, 08_celoth_fabric.md R265, 06_beats_and_determinism.md R190, 06_beats_and_determinism.md R191, 06_beats_and_determinism.md R194, 06_beats_and_determinism.md R199. -/
def Obligations.LinkTimersFramesAndSync : Prop :=
  ∀ (s : State) (i : Nat), i < s.core.fab.ports.length →
  let pt := s.core.port i
  (pt.st = .up → pt.enc = false →
    (0 < pt.unacked → ∃ t b, exec (.ackTimer i) s = .next t ∧ t.mem = s.mem ∧ t.pwr = s.pwr ∧ t.core.out = [.frame i 7 0 b] ∧ (t.core.port i).unacked = 0 ∧
      (t.core.port i).toldFreed = pt.freed) ∧
    (pt.freed ≠ pt.toldFreed → ∃ t b, exec (.creditUpdateTimer i) s = .next t ∧ t.mem = s.mem ∧ t.pwr = s.pwr ∧ t.core.out = [.frame i 7 0 b] ∧
      (t.core.port i).toldFreed = pt.freed) ∧
    (pt.held ≠ [] → ∃ t, exec (.replayTimeout i) s = .next t ∧ t.mem = s.mem ∧ t.pwr = s.pwr ∧ (t.core.port i).replayTo = satInc pt.replayTo ∧
      (t.core.port i).held = pt.held ∧ (pt.resends < 7 → (t.core.port i).st = .up ∧ t.core.out.length = pt.held.length) ∧
      (7 ≤ pt.resends → (t.core.port i).st = .retrain)) ∧
    (pt.held ≠ [] → ∃ t, exec (.retrainNoProgress i) s = .next t ∧ t.mem = s.mem ∧ t.pwr = s.pwr ∧ (t.core.port i).st = .retrain ∧
      (t.core.port i).retrains = satInc pt.retrains) ∧
    (∀ (fec : Nat), ∃ t b, exec (.frameBadCrc i false fec) s = .next t ∧ t.mem = s.mem ∧ t.pwr = s.pwr ∧ t.core.out = [.frame i 7 0 b] ∧
      (t.core.port i).crcErr = satInc pt.crcErr ∧ (t.core.port i).fecUncorr.toNat = min 0xFFFF (pt.fecUncorr.toNat + fec) ∧
      (t.core.port i).expect = pt.expect) ∧
    (∀ (ack : BitVec 16) (t1 t2 t3 t4 : BitVec 64), pt.waiting = [] → ∃ t b, exec (.sync i ⟨false, ack⟩ t1 t2 t3 t4) s = .next t ∧ t.mem = s.mem ∧
      t.pwr = s.pwr ∧ t.core.out = [.frame i 7 1 b] ∧ t.core.clk = s.core.clk ∧
      (t.core.port i).held = pt.held.dropWhile (fun f => decide ((ack - f.seq).toNat < 2 ^ 15))) ∧
    (∃ t b, exec (.syncExchangeTimer i) s = .next t ∧ t.mem = s.mem ∧ t.pwr = s.pwr ∧ t.core.out = [.frame i 7 1 b])) ∧
  (pt.st = .up → ∀ (f : Frame), f.seq = pt.expect → vcAllows f.typ.toNat f.vc.toNat = false → f.typ ≠ 1 → f.typ ≠ 0xD → ∃ t, exec (.frameInvalid i f) s = .next t ∧
    t.mem = s.mem ∧ t.pwr = s.pwr ∧ (t.core.port i).expect = pt.expect + 1 ∧ ∃ r, t.core.log.recs.head? = some r ∧ r.code = 0x501 ∧ r.cls = 5) ∧
  (pt.st = .up → ∀ (f : Frame), ∃ t, exec (.linkCtl i f) s = .next t ∧ t.mem = s.mem ∧ t.pwr = s.pwr ∧
    (t.core.port i).peerFreed = tabulate 8 (fun v => BitVec.ofNat 16 (fieldAt (padTo 32 f.payload) (2 * v) 2)) ∧ (t.core.port i).expect = pt.expect) ∧
  (pt.st = .up → ∀ (ack : BitVec 16) (t1 t2 t3 t4 : BitVec 64), ∃ t, exec (.sync i ⟨true, ack⟩ t1 t2 t3 t4) s = .next t ∧ t.mem = s.mem ∧ t.pwr = s.pwr ∧
    let th := thetaPs t1 t2 t3 t4 pt.asym
    (t.core.port i).theta = BitVec.ofInt 32 th ∧ (t.core.port i).thetaMag.toNat = min 0xFFFF (th.natAbs / 125) ∧ (t.core.port i).synced = true ∧
    (s.core.clk.acquired = false → s.core.jobs = [] → s.core.fab.cfg.timeRoot = false →
      t.core.clk.count = BitVec.ofInt 64 ((s.core.clk.count.toNat : Int) + th / 1000)) ∧
    (s.core.clk.acquired = true ∨ s.core.jobs ≠ [] ∨ s.core.fab.cfg.timeRoot = true → t.core.clk.count = s.core.clk.count)) ∧
  (s.core.fab.syncState ≠ 3 → ∃ t r, exec .syncLost s = .next t ∧ t.mem = s.mem ∧ t.pwr = s.pwr ∧ t.core.fab.syncState = 3 ∧ t.core.fab.lostSeen = true ∧
    t.core.log.recs.head? = some r ∧ r.code = 0x509 ∧ (t.core.port i).synced = false ∧
    ∀ j ∈ t.core.jobs, t.core.multiModule j = true → causeFault ≤ (j.verdict j.step).cause) ∧
  (s.core.fab.syncState = 3 → ∃ t, exec .syncNotRegained s = .next t ∧ t.mem = s.mem ∧ t.pwr = s.pwr ∧
    ∀ j ∈ s.core.jobs, s.core.multiModule j = true → .vc7 0xFFFF 1 [j.plan] ∈ t.core.out)

/-- A port trains when it finds its peer, comes up after LINK_INIT, survives one failed lane, and fails as R255 to R267 and R289 say. Rests on 08_celoth_fabric.md R255, 08_celoth_fabric.md R264, 08_celoth_fabric.md R265, 08_celoth_fabric.md R266, 08_celoth_fabric.md R267, 08_celoth_fabric.md R274, 08_celoth_fabric.md R289, 08_celoth_fabric.md R292. -/
def Obligations.PortsTrainComeUpAndFail : Prop :=
  ∀ (s : State) (i : Nat), i < s.core.fab.ports.length → (s.core.port i).held = [] → (s.core.port i).waiting = [] →
  let pt := s.core.port i
  let runs := fun (c : Instr) (P : Core → Port → Prop) => ∃ t, exec c s = .next t ∧ t.mem = s.mem ∧ t.pwr = s.pwr ∧ P t.core (t.core.port i)
  (pt.st = .off → pt.disable = false → 4 ≤ s.core.rst.phase → runs (.peerDetected i) (fun _ q => q.st = .train)) ∧
  (pt.st = .train →
    (∀ w, pt.enc = false → runs (.trainingDone i w 31) (fun c q => q.st = .train ∧ q.trained = true ∧ q.oneway = w ∧ q.lanesOk = 31 ∧ q.spareFor = 7 ∧
      ∃ b, c.out = [.frame i 7 0xD b])) ∧
    (∀ w, pt.enc = false → runs (.trainingDone i w 30) (fun c q => q.st = .train ∧ q.trained = true ∧ q.lanesOk = 30 ∧ q.spareFor = 0 ∧
      (∃ b, .frame i 7 0xD b ∈ c.out) ∧ ∃ r, c.log.recs.head? = some r ∧ r.code = 0x508)) ∧
    (∀ w, runs (.trainingDone i w 28) (fun _ q => q.st = .failed)) ∧ runs (.trainingFailed i) (fun _ q => q.st = .failed)) ∧
  (pt.st = .train → pt.trained = true → pt.enc = false → runs (.linkInitResend i) (fun c _ => ∃ b, c.out = [.frame i 7 0xD b])) ∧
  (∀ (f : Frame), pt.st = .train → pt.trained = true →
    let peer := fieldAt f.payload 0 2
    (s.core.fab.cfg.peerOf i = some (peer, fieldAt f.payload 2 1) → fieldAt f.payload 3 1 = boolNat s.core.fab.cfg.celoth1 →
      fieldAt f.payload 4 4 = s.core.fab.cfg.digest.toNat → runs (.linkInit i f) (fun _ q => q.st = .up ∧ q.peerId = BitVec.ofNat 14 peer)) ∧
    (s.core.fab.cfg.peerOf i ≠ some (peer, fieldAt f.payload 2 1) →
      runs (.linkInit i f) (fun c q => q.st = .failed ∧ ∃ r, c.log.recs.head? = some r ∧ r.code = 0x502 ∧ r.cls = 5)) ∧
    (s.core.fab.cfg.peerOf i = some (peer, fieldAt f.payload 2 1) → fieldAt f.payload 3 1 ≠ boolNat s.core.fab.cfg.celoth1 ∨
      fieldAt f.payload 4 4 ≠ s.core.fab.cfg.digest.toNat →
      runs (.linkInit i f) (fun c q => q.st = .failed ∧ ∃ r, c.log.recs.head? = some r ∧ r.code = 0x503 ∧ r.cls = 5))) ∧
  (∀ l, l < 4 → pt.st = .up → pt.lanesOk = 31 → runs (.laneFailure i l) (fun _ q => q.st = .retrain ∧ q.spareFor = BitVec.ofNat 3 l ∧ q.lanesOk.getLsbD l = false)) ∧
  (∀ l, l < 4 → pt.st = .up → pt.lanesOk.getLsbD l = true → lanesBad pt.lanesOk ≠ [] → runs (.laneFailure i l) (fun _ q => q.st = .failed)) ∧
  (pt.st = .retrain → runs (.fastRetrainDone i) (fun _ q => q.st = .up) ∧ runs (.fastRetrainFailed i) (fun _ q => q.st = .train ∧ q.held = pt.held)) ∧
  (pt.enc = true → pt.newKey = none → pt.rekeying = false → 2 ^ 39 ≤ pt.txCtr → runs (.rekeyStart i) (fun c q => q.rekeying = true ∧ c.out = [.vc7 pt.peerId.toNat 5 [i]])) ∧
  (pt.enc = true → pt.newKey = none → 2 ^ 40 - 1 ≤ pt.txCtr → runs (.keyExhausted i) (fun c q => q.st = .failed ∧ ∃ r, c.log.recs.head? = some r ∧ r.code = 0x507 ∧ r.cls = 4)) ∧
  (∀ k salt r, i = 12 ∨ i = 13 → pt.encWanted = true → pt.enc = false →
    runs (.linkKeyAgreement i (some (k, salt)) (some r)) (fun _ q => q.enc = true ∧ q.key = k ∧ q.salt = salt ∧ q.rxKey = r ∧ q.txCtr = 0)) ∧
  (∀ pos ps, runs (.portStateExchange pos ps) (fun c _ => lookup? pos c.fab.peers = some ps)) ∧
  (s.core.rst.phase = 6 → pt.disable = false → runs (.portDisableWrite i true) (fun _ q => q.st = .off ∧ q.disable = true)) ∧
  (s.core.rst.phase = 6 → runs (.portDisableWrite i false) (fun _ q => q = { pt with disable := false }))

/-- Accepted remote writes store exactly their bytes; rejected ones store none; answers reach the control core that asked; remote register writes act as local ones. Rests on 08_celoth_fabric.md R276, 08_celoth_fabric.md R277, 08_celoth_fabric.md R279, 08_celoth_fabric.md R281, 08_celoth_fabric.md R282. -/
def Obligations.RemoteOperationsTakeEffectWhereTheyMay : Prop :=
  ∀ (s : State) (port : Nat) (f : Frame),
  let taken := fun (typ : BitVec 4) => s.core.takes port { f with typ := typ } = true
  let b := padTo 96 f.payload
  let ok := fun (c : Instr) (P : State → Prop) => ∃ t, exec c s = .next t ∧ t.pwr = s.pwr ∧ P t
  (taken 6 → ∀ e, s.core.remoteTest { f with typ := 6 } (fieldAt b 8 4) (fieldAt b 0 8) 1 true = .error e → ok (.wrReq port f) (fun t => t.mem = s.mem ∧
    ∃ r, t.core.log.recs.head? = some r ∧ r.code = 0x307 ∧ r.cls = 3 ∧ r.tenant = some f.tenant)) ∧
  (taken 6 → ∀ p k, s.core.remoteTest { f with typ := 6 } (fieldAt b 8 4) (fieldAt b 0 8) 1 true = .ok (p, [k]) → k % 64 = 0 → Memory.wf s.mem = true →
    ok (.wrReq port f) (fun t => (∀ i < 64, memByte t.mem (k + i) = if bitOf (fieldAt b 16 8) i then b.getD (32 + i) 0 else memByte s.mem (k + i)) ∧
      ∀ a, ¬ (k ≤ a ∧ a < k + 64) → memByte t.mem a = memByte s.mem a)) ∧
  (taken 4 → ok (.rdReq port f []) (fun t => t.mem = s.mem ∧ (t.core.port port).expect = (s.core.port port).expect + 1)) ∧
  (taken 2 → bitOf (fieldAt (padTo 32 f.payload) 19 1) 0 = true → ok (.xopen port f []) (fun t => t.mem = s.mem)) ∧
  (taken 2 → ∀ p ks, bitOf (fieldAt (padTo 32 f.payload) 19 1) 0 = false → bitOf (fieldAt (padTo 32 f.payload) 19 1) 1 = false →
    s.core.remoteTest { f with typ := 2 } (fieldAt (padTo 32 f.payload) 24 4) (fieldAt (padTo 32 f.payload) 0 8) (fieldAt (padTo 32 f.payload) 16 3) true = .ok (p, ks) →
    ok (.xopen port f []) (fun t => t.mem = s.mem ∧ ∃ o ∈ t.core.fab.opens, o.src = f.src ∧ o.xid = f.xid ∧ o.tenant = f.tenant ∧ o.keys = ks ∧ o.got = 0 ∧ o.plan = none ∧
      o.owner = some p.handle)) ∧
  (taken 3 → ∀ o h p, s.core.fab.opens.find? (fun o => o.src == f.src && o.xid == f.xid && o.tenant == f.tenant) = some o → o.plan = none →
    o.owner = some h → s.core.plan? h = some p → o.keys ≠ [] →
    let n := ((o.keys.drop (8 * f.chunk.toNat)).take (chunks 64 f.payload).length).length
    o.got + n < o.keys.length → ok (.xdata port f) (fun t =>
      (∀ a, (∀ k ∈ (o.keys.drop (8 * f.chunk.toNat)).take n, ¬ (k ≤ a ∧ a < k + 64)) → memByte t.mem a = memByte s.mem a) ∧
      ∃ q ∈ t.core.fab.opens, q.src = o.src ∧ q.xid = o.xid ∧ q.got = o.got + n)) ∧
  (taken 5 → ∀ o, s.core.remoteOp f false = some o → ok (.rdRsp port f) (fun t => t.mem = s.mem ∧ t.core.fab.remote = s.core.fab.remote.erase o ∧
    (if f.pmask.getLsbD 0 then Out.dataAbort o.part o.core else .data (padTo 64 f.payload)) ∈ t.core.out)) ∧
  (taken 7 → ∀ o, s.core.remoteOp f true = some o → ok (.wrAck port f) (fun t => t.mem = s.mem ∧ t.core.fab.remote = s.core.fab.remote.erase o)) ∧
  (taken 0xC → f.xid.toNat < 384 → ok (.reject port f) (fun t => t.mem = s.mem ∧
    ((∀ o ∈ s.core.fab.opens, o.plan.isSome = true → o.src = f.src → o.xid = f.xid → o.rpost = true → fieldAt b 0 1 ≠ 3) →
      ∃ r, t.core.log.recs.head? = some r ∧ r.code = 0x307 ∧ r.cls = 3 ∧ r.tenant = some f.tenant))) ∧
  (taken 8 → ok (.regRd port f) (fun t => t.mem = s.mem ∧ (t.core.port port).expect = (s.core.port port).expect + 1)) ∧
  (taken 9 → regTest s.core f = 0 → fieldAt (padTo 32 f.payload) 0 8 % 2 ^ 28 = 0x88 → s.core.rst.phase = 6 →
    ok (.regWr port f) (fun t => t.mem = s.mem ∧ t.core.health.eventEn = BitVec.ofNat 5 (fieldAt (padTo 32 f.payload) 16 8)))

/-- Module commands identify, set profile, configuration, regions, firmware and power policy, and reset, or reply the status of the test they fail. Rests on 13_host_tenants_commands.md R456, 13_host_tenants_commands.md R460, 13_host_tenants_commands.md R450, 13_host_tenants_commands.md R455, 01_module_architecture.md R21, 12_health_and_errors.md R418, 07_memory.md R217, 15_power_physical_management.md R505, 15_power_physical_management.md R515, 14_reset_and_recovery.md R488. -/
def Obligations.ModuleCommandsAnswer : Prop :=
  ∀ (s : State) (t : TenantId) (sq : Nat) (tag : BitVec 32) (a : Accepted),
  let i := s.core.ident
  let v := s.view
  let plans := v.anyPlan || s.core.anyPlan
  let runs := fun (c : Instr) (want : State) (status : Nat) (d : List Byte) => ∃ u, exec c s = .next u ∧ u.answered want a status d
  (s.asks 0x101 t sq tag a → runs (.moduleInfo t sq tag) s 0 (details [(6, 2, i.fwMajor.toNat), (8, 2, i.fwMinor.toNat), (10, 8, i.word.toNat),
    (18, 8, Config.serial.toNat), (26, 1, if s.core.health.volezStandby then 1 else 0), (27, 1, if i.dedicated.isSome then 1 else 0),
    (28, 1, (i.dedicated.getD 0).toNat)])) ∧
  (s.asks 0x102 t sq tag a → if plans then runs (.profileSet t sq tag) s 0x101 []
    else runs (.profileSet t sq tag) (s.upd fun c => { c with ident := { i with profile := BitVec.ofNat 8 (a.par 8 1) } }) 0 []) ∧
  (s.asks 0x103 t sq tag a → let d := BitVec.ofNat 8 (a.par 9 1)
    (plans = true → runs (.configMode t sq tag) s 0x101 []) ∧
    (plans = false → a.par 8 1 = 0 → runs (.configMode t sq tag) (s.upd fun c => { c with ident := { i with dedicated := none } }) 0 []) ∧
    (plans = false → a.par 8 1 = 1 → (∃ x ∈ v.leases.parts, x.2.1 ≠ d) → runs (.configMode t sq tag) s 0x104 []) ∧
    (plans = false → a.par 8 1 = 1 → (∀ x ∈ v.leases.parts, x.2.1 = d) → (∀ x ∈ v.leases.granules, x.2 = d) → (∀ x ∈ v.leases.hbm, x.1.1 = d) →
      (∀ x ∈ v.leases.bandwidth, x.1.1 = d) → (∀ x ∈ v.leases.links, x.2 = d) →
      ∃ ps ls, runs (.configMode t sq tag) (s.upd fun c => { c with ident := { i with dedicated := some d }, leases := { c.leases with parts := ps, links := ls } }) 0 [] ∧
        (∀ p < 8, (s.core.part p).outOfService = false → (p, d, true) ∈ ps ∧ ∀ x ∈ ps, x.1 = p → x.2.1 = d → x.2.2 = true) ∧ ∀ k < 64, lookup? (k, 0) ls = some d)) ∧
  (s.asks 0x104 t sq tag a → let h := a.par 8 2
    let n := h + a.par 10 2 + a.par 12 2
    if plans then runs (.hbmRegionsSet t sq tag) s 0x101 []
    else if h < 8 ∨ 128 < h ∨ 988 ≤ n then runs (.hbmRegionsSet t sq tag) s 0x401 []
    else if ∃ x ∈ v.leases.hbm, 988 - n ≤ x.2 % 1024 then runs (.hbmRegionsSet t sq tag) s 0x102 []
    else runs (.hbmRegionsSet t sq tag) (s.upd fun c => { c with ident := { i with hamperExt := h, mirrorExt := a.par 10 2, snapExt := a.par 12 2 } }) 0 []) ∧
  (s.asks 0x105 t sq tag a → runs (.fwStage t sq tag none) s 4 [] ∧ ∀ b,
    ((Config.signatureOk 1 b = false ∨ 2 ^ 25 < b.length ∨ (readFw b).sec.toNat < i.fwSec.toNat) → runs (.fwStage t sq tag (some b)) s 0x103 []) ∧
    (Config.signatureOk 1 b = true → b.length = a.par 16 4 → b.length ≤ 2 ^ 25 → i.fwSec.toNat ≤ (readFw b).sec.toNat →
      runs (.fwStage t sq tag (some b)) (s.upd fun c => { c with ident := { i with images := i.images.set (1 - i.fwRun) (readFw b) } }) 0 [])) ∧
  (s.asks 0x106 t sq tag a → let f := i.images.getD (a.par 8 1) {}
    if f.valid = true ∧ i.fwSec.toNat ≤ f.sec.toNat then runs (.fwActivate t sq tag) (s.upd fun c => { c with ident := { i with fwBoot := a.par 8 1 } }) 0 []
    else runs (.fwActivate t sq tag) s 0x103 []) ∧
  (s.asks 0x107 t sq tag a → let w := if a.par 8 2 = ceilingW i.profile then 0 else a.par 8 2
    runs (.powerPolicy t sq tag) { s with pwr := { s.pwr with capW := w, detLock := a.par 10 1 == 1, discUs := a.par 12 4 } } 0
      (details [(8, 2, w), (10, 1, if a.par 10 1 = 1 then 1 else 0), (12, 4, a.par 12 4)])) ∧
  (s.asks 0x108 t sq tag a → let now := details [(8, 8, s.core.clk.count.toNat)]
    (a.par 8 1 = 0 → runs (.reset t sq tag) (s.upd fun c => { c with rst := { c.rst with delayed := some none } }) 0 []) ∧
    (a.par 8 1 = 1 → ∃ u, exec (.reset t sq tag) s = .next u ∧ u.pwr = s.pwr ∧ (a.par 9 1, a) ∈ u.core.resetReplies ∧
      ∀ b ∈ u.core.accepted, b.same a = true → b.started = true) ∧
    (a.par 8 1 = 2 → a.par 9 1 < 16 → runs (.reset t sq tag) (s.upd fun c => ({ c with out := [] }).portReset (a.par 9 1)) 0 now) ∧
    (a.par 8 1 = 3 → a.target = 0 → runs (.reset t sq tag) (s.upd fun c => { c with rst := { c.rst with delayed := some (some 0) } }) 0 []) ∧
    (a.par 8 1 = 3 → a.target ≠ 0 → a.target ≠ a.tenant → runs (.reset t sq tag) (s.upd fun c => ({ c with out := [] }).tenantReset a.target) 0 now))

/-- Tenants and leases: grants need what R465 asks, revokes are refused while plans use the resource, memory is cleared before a grant. Rests on 13_host_tenants_commands.md R456, 13_host_tenants_commands.md R459, 13_host_tenants_commands.md R460, 13_host_tenants_commands.md R465, 13_host_tenants_commands.md R466, 07_memory.md R211, 07_memory.md R218, 07_memory.md R221, 12_health_and_errors.md R418. -/
def Obligations.TenantAndLeaseCommandsAnswer : Prop :=
  ∀ (s : State) (t : TenantId) (sq : Nat) (tag : BitVec 32) (a : Accepted),
  let T := a.target
  let v := s.view
  let l := s.core.leases
  let runs := fun (c : Instr) (want : State) (status : Nat) (d : List Byte) => ∃ u, exec c s = .next u ∧ u.answered want a status d
  let lease := fun (x : Leases) => s.upd (fun c => { c with leases := x })
  let forces := fun (c : Instr) (us : List Nat) => ∃ u, exec c s = .next u ∧
    u.waits (s.upd fun c => { c with plans := c.plans.map (fun p => if us.contains p.handle then { p with forced := true } else p) }) a
  let cleared := fun (u : State) (k n : Nat) => (∀ x, k ≤ x → x < k + n → memByte u.mem x = 0) ∧ memPoisoned u.mem (k / 64) (n / 64) = false
  (s.asks 0x201 t sq tag a → runs (.tenantEnable t sq tag) (s.upd fun c => c.modTen T.toNat (fun x => { x with enabled := true })) 0 []) ∧
  (s.asks 0x202 t sq tag a → T ≠ t → v.users T (fun _ => true) = [] → s.core.users T (fun _ => true) = [] → ∃ u k, exec (.tenantDisable t sq tag) s = .next u ∧ u.mem = s.mem ∧ u.pwr = s.pwr ∧
    u.core.ten T.toNat = { s.core.ten T.toNat with enabled := false, queues := [], adminShadow := (s.core.ten T.toNat).adminShadow &&& ~~~1#64, adminLive := false, fifo := [], txn := none } ∧ u.core.plans = s.core.plans ∧ u.core.jobs = s.core.jobs ∧ u.core.leases = { l with
      parts := l.parts.filter (fun x => x.2.1 != T), granules := l.granules.filter (fun x => x.2 != T), hbm := l.hbm.filter (fun x => x.1.1 != T),
      bandwidth := l.bandwidth.filter (fun x => x.1.1 != T), links := l.links.filter (fun x => x.2 != T) } ∧
    u.core.spool = { s.core.spool with keys := s.core.spool.keys.filter (fun x => x.1.1 != T) } ∧
    u.core.ident.dedicated = (if s.core.ident.dedicated = some T then none else s.core.ident.dedicated) ∧
    Out.cqEntry a.tenant a.cq k (entryBytes a.tag.toNat 0 []) ∈ u.core.out) ∧
  (s.asks 0x203 t sq tag a → v.ident.dedicated = none → let ps := onesOf 8 (a.par 8 1)
    let op := a.par 9 1
    let us := v.users T (fun p => p.physParts.any ps.contains)
    let c := Instr.leasePartition t sq tag
    let mask := fun (x : Leases) => details [(8, 1, (lease x).core.partMask T)]
    (op ≤ 1 → (∀ p ∈ ps, (v.part p).outOfService = false) → (∀ x ∈ v.leases.parts, x.1 ∈ ps → x.2.1 ≠ T → op = 0 ∧ x.2.2 = false) → ∃ ks, runs c (lease { l with parts := ks }) 0 (mask { l with parts := ks }) ∧
      ∀ x, x ∈ ks ↔ if x.1 ∈ ps ∧ x.2.1 = T then x.2.2 = (op == 1) else x ∈ l.parts) ∧
    (op ≤ 1 → ((∃ p ∈ ps, (v.part p).outOfService = true) ∨ ∃ x ∈ v.leases.parts, x.1 ∈ ps ∧ x.2.1 ≠ T ∧ (op = 1 ∨ x.2.2 = true)) → runs c s 0x201 []) ∧
    (2 ≤ op → us = [] → let x := { l with parts := l.parts.filter (fun x => !(ps.contains x.1 && x.2.1 == T)), granules := l.granules.filter (fun x => !(ps.contains x.1.1 && x.2 == T)), hbm := l.hbm.filter (fun x => !(x.1.1 == T && ps.contains x.1.2.1)), bandwidth := l.bandwidth.filter (fun x => !(x.1.1 == T && ps.contains x.1.2)) }
      runs c (lease x) 0 (mask x)) ∧
    (op = 2 → us ≠ [] → runs c s 0x202 []) ∧ (op = 3 → us ≠ [] → s.core.clk.epochSet = true → forces c us)) ∧
  (s.asks 0x204 t sq tag a → let p := a.par 8 1
    let gs := onesOf 48 (a.par 16 6)
    let op := a.par 9 1
    let us := v.users T (fun q => q.bufs.any (fun b => (q.granulesOf b).any (fun x => x.1 == p && gs.contains x.2)))
    let c := Instr.leaseGranules t sq tag
    let mask := fun (x : Leases) => details [(16, 6, (lease x).core.granMask T p)]
    (op = 0 → v.holds T p = false → runs c s 0x201 []) ∧
    (op = 0 → v.holds T p = true → (∀ g ∈ gs, lookup? (p, g) v.leases.granules = none ∧ g ∉ (v.part p).memp.granOut) →
      let x := { l with granules := l.granules ++ gs.map (fun g => ((p, g), T)) }
      ∃ u, exec c s = .next u ∧ u.answered { s with mem := u.mem, core := { s.core with leases := x, gens := u.core.gens, commonsLines := u.core.commonsLines } } a 0 (mask x) ∧
        (∀ g ∈ gs, cleared u (cmKey p g 0) (2 ^ 24)) ∧ ∀ k, (∀ g ∈ gs, ¬ (cmKey p g 0 ≤ k ∧ k < cmKey p g 0 + 2 ^ 24)) → memByte u.mem k = memByte s.mem k) ∧
    (2 ≤ op → us = [] → let x := { l with granules := l.granules.filter (fun x => !(x.1.1 == p && gs.contains x.1.2 && x.2 == T)) }
      runs c (lease x) 0 (mask x)) ∧
    (op = 2 → us ≠ [] → runs c s 0x202 []) ∧ (op = 3 → us ≠ [] → s.core.clk.epochSet = true → forces c us)) ∧
  (s.asks 0x205 t sq tag a → let p := a.par 8 1
    let op := a.par 9 1
    let first := a.par 10 2
    let n := a.par 12 2
    let free := (v.freeExtents p).take n
    let us := v.users T (fun q => v.hbmUsed q p first n)
    let c := Instr.leaseHbm t sq tag
    (op = 0 → (v.holds T p = false ∨ free.length < n ∨ 992 < first + n ∨ ∃ i < n, (lookup? (T, p, first + i) v.leases.hbm).isSome = true) → runs c s 0x201 []) ∧
    (op = 0 → v.holds T p = true → free.length = n → first + n ≤ 992 → (∀ i < n, lookup? (T, p, first + i) v.leases.hbm = none) →
      ∃ u, exec c s = .next u ∧ u.answered { s with mem := u.mem, core := { s.core with gens := u.core.gens, commonsLines := u.core.commonsLines, leases := { l with hbm := l.hbm ++ free.mapIdx (fun i x => ((T, p, first + i), p * 1024 + x)) } } } a 0 [] ∧
        (∀ x ∈ free, cleared u (hbmKey p (x * 2 ^ 26)) (2 ^ 26)) ∧
        ∀ k, (∀ x ∈ free, ¬ (hbmKey p (x * 2 ^ 26) ≤ k ∧ k < hbmKey p (x * 2 ^ 26) + 2 ^ 26)) → memByte u.mem k = memByte s.mem k) ∧
    (2 ≤ op → us = [] → runs c (lease { l with hbm := l.hbm.filter (fun x => !(x.1.1 == T && x.1.2.1 == p && inRange x.1.2.2 first n)) }) 0 []) ∧
    (op = 2 → us ≠ [] → runs c s 0x202 []) ∧ (op = 3 → us ≠ [] → s.core.clk.epochSet = true → forces c us)) ∧
  (s.asks 0x206 t sq tag a → let p := a.par 8 1
    let rate := a.par 10 2
    let others := sumNat ((v.leases.bandwidth.filter (fun x => x.1.2 == p && x.1.1 != T)).map Prod.snd)
    (v.holds T p = false ∨ 1638 < others + rate → runs (.leaseBandwidth t sq tag) s 0x201 []) ∧
    (v.holds T p = true → others + rate ≤ 1638 → v.users T (fun _ => true) = [] →
      runs (.leaseBandwidth t sq tag) (lease { l with bandwidth := insertKey (T, p) rate l.bandwidth }) 0 [])) ∧
  (s.asks 0x207 t sq tag a → v.ident.dedicated = none → let ss := onesOf 64 (a.par 16 8)
    let c := Instr.leaseLink t sq tag
    let mask := fun (x : Leases) => details [(16, 8, ((lease x).core.linkMask T).toNat)]
    (a.par 9 1 = 0 → (∃ k ∈ ss, ∃ o, lookup? (k, 0) v.leases.links = some o ∧ o ≠ T) → runs c s 0x201 []) ∧
    (a.par 9 1 = 0 → (∀ k ∈ ss, lookup? (k, 0) v.leases.links = none) → let x := { l with links := l.links ++ ss.map (fun k => ((k, 0), T)) }
      runs c (lease x) 0 (mask x)) ∧
    (2 ≤ a.par 9 1 → v.users T (fun _ => true) = [] → let x := { l with links := l.links.filter (fun x => !(ss.contains x.1.1 && x.2 == T)) }
      runs c (lease x) 0 (mask x)))

/-- Queues are made and deleted, doorbells move their indices or put them in error, commands are fetched into reserved slots, waiting entries interrupt. Rests on 13_host_tenants_commands.md R445, 13_host_tenants_commands.md R448, 13_host_tenants_commands.md R449, 13_host_tenants_commands.md R450, 13_host_tenants_commands.md R451, 13_host_tenants_commands.md R452, 13_host_tenants_commands.md R453, 13_host_tenants_commands.md R458, 13_host_tenants_commands.md R460, 13_host_tenants_commands.md R468, 13_host_tenants_commands.md R471. -/
def Obligations.QueuesDoorbellsAndFetchWork : Prop :=
  ∀ (s : State) (t : TenantId) (qn : Nat),
  let x := s.core.ten t.toNat
  let goes := fun (f : Core → Core) => (Host.Outcome.next (s.upd fun c => f { c with out := [] }) : Host.Outcome State Fault Refusal)
  let errs := fun (i : Instr) => ∃ u q, exec i s = .next u ∧ u.mem = s.mem ∧ u.pwr = s.pwr ∧ lookup? qn (u.core.ten t.toNat).queues = some q ∧ q.err = true ∧
    u.core = { s.core with tens := u.core.tens, out := u.core.out } ∧ ∀ y, y ≠ t.toNat → u.core.ten y = s.core.ten y
  (∀ q, s.core.ringable t qn = some q → q.kind = .sq → ∀ v : BitVec 32,
    (v.toNat < q.entries → exec (.sqTailDoorbell t qn v) s = goes (fun c => c.modQueue t qn (fun q => { q with tail := v.toNat }))) ∧
    (q.entries ≤ v.toNat → 2 ≤ qn → errs (.sqTailDoorbell t qn v))) ∧
  (∀ q, s.core.ringable t qn = some q → q.kind = .cq → ∀ v : BitVec 32, let moved := fun (c : Core) => c.modQueue t qn (fun q => { q with head := v.toNat })
    (v.toNat < q.entries → (v.toNat + q.entries - q.head) % q.entries ≤ q.used → x.fifo = [] → exec (.cqHeadDoorbell t qn v) s = goes moved) ∧
    (v.toNat < q.entries → (v.toNat + q.entries - q.head) % q.entries ≤ q.used → (moved s.core).cq1Free t.toNat = true → ∀ e, x.fifo.head? = some e →
      ∃ u k, exec (.cqHeadDoorbell t qn v) s = .next u ∧ u.mem = s.mem ∧ u.pwr = s.pwr ∧ Out.cqEntry t 1 k (entryBytes 0xFFFFFFFF e.status.toNat e.detail) ∈ u.core.out) ∧
    (q.entries ≤ v.toNat → 2 ≤ qn → errs (.cqHeadDoorbell t qn v))) ∧
  (∀ q, s.core.ringable t qn = some q → q.kind = .rq → ∀ tag : BitVec 32,
    (q.tags.length < q.depth → exec (.rqDoorbell t qn tag) s = goes (fun c => c.modQueue t qn (fun q => { q with tags := q.tags ++ [tag] }))) ∧
    (q.depth ≤ q.tags.length → exec (.rqDoorbell t qn tag) s = goes (fun c => c.unsolicited t.toNat 0xF6 (bytesLE 2 qn ++ [4])))) ∧
  (∀ q cq, s.core.ringable t qn = some q → q.kind = .sq → q.head ≠ q.tail → lookup? q.bound x.queues = some cq → cq.hasFree = true →
    (2 ≤ qn → errs (.commandFetch t qn none)) ∧
    ∀ b, b.length = 64 → let a : Accepted := { tenant := t, sq := qn, cq := q.bound, tag := BitVec.ofNat 32 (fieldAt b 4 4), packet := b }
      let h := if q.head + 1 < q.entries then q.head + 1 else 0
      let taken := fun (c : Core) => ({ ((c.modQueue t qn (fun q => { q with head := h })).modQueue t q.bound (fun q => { q with reserved := q.reserved + 1 })) with
        accepted := c.accepted ++ [a] } : Core)
      q.head < q.entries →
      (packetTest s.core a = none → exec (.commandFetch t qn (some ⟨b, true⟩)) s = goes (fun c => (taken c).emit (.shadow t qn h)) ∧
        (2 ≤ qn → ∃ u y, exec (.commandFetch t qn (some ⟨b, false⟩)) s = .next u ∧ u.mem = s.mem ∧ u.pwr = s.pwr ∧ u.core.accepted = s.core.accepted ++ [a] ∧
          lookup? qn (u.core.ten t.toNat).queues = some y ∧ y.err = true ∧ y.head = h)) ∧
      (∀ st, packetTest s.core a = some st → ∃ u, exec (.commandFetch t qn (some ⟨b, true⟩)) s = .next u ∧ u.answered (s.upd taken) a st [])) ∧
  (∀ q, lookup? qn x.queues = some q → q.kind = .cq → q.err = false → 0 < q.unsignalled → q.vector ≠ 0xFF →
    exec (.interruptCoalesceTimer t ⟨qn, true⟩) s = goes (fun c => (c.modQueue t qn (fun q => { q with unsignalled := 0 })).emit (.msix t q.vector)) ∧
    (2 ≤ qn → errs (.interruptCoalesceTimer t ⟨qn, false⟩))) ∧
  (s.core.rst.phase = 6 → x.enabled = true →
    (x.adminShadow.getLsbD 0 = false → x.adminSq.toNat % 16 ≤ 12 → x.adminCq.toNat % 16 ≤ 12 → x.fifo = [] → ∃ u a b, exec (.adminQueueEnable t) s = .next u ∧
      u.mem = s.mem ∧ u.pwr = s.pwr ∧ (u.core.ten t.toNat).adminLive = true ∧ (u.core.ten t.toNat).adminShadow = x.adminShadow ||| 1 ∧
      lookup? 0 (u.core.ten t.toNat).queues = some a ∧ a.kind = .sq ∧ a.entries = 2 ^ (x.adminSq.toNat % 16 + 4) ∧ a.base.toNat = x.adminSq.toNat / 4096 * 4096 ∧
      a.bound = 1 ∧ a.head = 0 ∧ a.tail = 0 ∧ lookup? 1 (u.core.ten t.toNat).queues = some b ∧ b.kind = .cq ∧ b.entries = 2 ^ (x.adminCq.toNat % 16 + 4) ∧
      b.base.toNat = x.adminCq.toNat / 4096 * 4096 ∧ b.head = 0 ∧ b.tail = 0) ∧
    ((∀ a ∈ s.core.accepted, a.tenant = t → a.cq ≠ 1) → ∃ u, exec (.adminQueueDisable t) s = .next u ∧ u.mem = s.mem ∧ u.pwr = s.pwr ∧
      (u.core.ten t.toNat).adminLive = false ∧ (u.core.ten t.toNat).queues = x.queues.filter (fun q => 2 ≤ q.1) ∧ u.core.accepted = s.core.accepted)) ∧
  (∀ sq tag a, let T := a.target
    let n := a.par 8 2
    let qs := (s.core.ten T.toNat).queues
    let runs := fun (i : Instr) (want : State) (status : Nat) => ∃ u, exec i s = .next u ∧ u.answered want a status []
    (s.asks 0x210 t sq tag a → let k := a.par 10 1
      let i := Instr.queueCreate t sq tag
      let ring := a.par 11 1 ≤ 12 ∧ a.par 24 8 % 4096 = 0 ∧ a.par 32 8 % 8 = 0
      let bound := ∃ q, lookup? (a.par 12 2) qs = some q ∧ q.kind = .cq
      let add := fun (q : Queue) => s.upd (fun c => c.modTen T.toNat (fun x => { x with queues := x.queues ++ [(n, q)] }))
      let ok := 2 ≤ n ∧ n ≤ 1023 ∧ ((k = 1 ∧ ring ∧ bound) ∨ (k = 2 ∧ ring) ∨ (k = 3 ∧ bound))
      let q : Queue := { kind := .sq, entries := 2 ^ (a.par 11 1 + 4), base := BitVec.ofNat 64 (a.par 24 8), shadow := BitVec.ofNat 64 (a.par 32 8), bound := a.par 12 2 }
      (¬ ok → runs i s 0x203) ∧ (ok → (lookup? n qs).isSome = true → runs i s 0x204) ∧
      (ok → lookup? n qs = none → k = 1 → runs i (add q) 0) ∧
      (ok → lookup? n qs = none → k = 2 → runs i (add { q with kind := .cq, vector := a.par 14 1, coalCount := a.par 15 1, coalUs := a.par 16 1 }) 0) ∧
      (ok → lookup? n qs = none → k = 3 → s.view.planNamed T (a.par 18 2) = none → runs i s 0x30F) ∧
      (ok → lookup? n qs = none → k = 3 → ∀ p, s.view.planNamed T (a.par 18 2) = some p → p.hdr.onDemand = true → p.hdr.cls = 0 →
        runs i ((add { kind := .rq, depth := a.par 11 1 + 1, bound := a.par 12 2, rqPlan := a.par 18 2 }).upd fun c => c.modPlan (a.par 18 2) (fun p => { p with rq := some n })) 0)) ∧
    (s.asks 0x211 t sq tag a → (∀ b ∈ s.core.accepted, b.started = false ∨ b.opcode ≠ 0x211) →
      (lookup? n qs = none → runs (.queueDelete t sq tag) s 0x203) ∧
      (∀ q, lookup? n qs = some q → 2 ≤ n → n ≤ 1023 → n ≠ a.cq →
        (q.kind = .cq → (∃ y ∈ qs, y.2.kind ≠ .cq ∧ y.2.bound = n) → runs (.queueDelete t sq tag) s 0x204) ∧
        ((q.kind = .cq ∧ (∀ y ∈ qs, y.2.kind ≠ .cq → y.2.bound ≠ n) ∨ q.kind = .rq ∨ q.kind = .sq ∧ ∀ b ∈ s.core.accepted, b.tenant = T → b.sq = n → b.same a = true) →
          ∃ u, exec (.queueDelete t sq tag) s = .next u ∧ u.mem = s.mem ∧ u.pwr = s.pwr ∧ lookup? n (u.core.ten T.toNat).queues = none ∧
            (∃ k, Out.cqEntry a.tenant a.cq k (entryBytes a.tag.toNat 0 []) ∈ u.core.out) ∧ ∀ y, y ≠ T.toNat → y ≠ t.toNat → u.core.ten y = s.core.ten y))))

/-- Plans are admitted, withdrawn, launched and queried, and data copied, as Table 13-9 and R186, R195 and R340 say, or the status of the failing test replied. Rests on 13_host_tenants_commands.md R456, 13_host_tenants_commands.md R457, 13_host_tenants_commands.md R460, 06_beats_and_determinism.md R156, 06_beats_and_determinism.md R186, 06_beats_and_determinism.md R187, 06_beats_and_determinism.md R195, 10_seal_replay_tether.md R340, 10_seal_replay_tether.md R342. -/
def Obligations.PlanJobAndDataCommandsAnswer : Prop :=
  ∀ (s : State) (t : TenantId) (sq : Nat) (tag : BitVec 32) (a : Accepted),
  let T := a.target
  let v := s.view
  let h := a.par 8 2
  let now := s.core.clk.count.toNat
  let runs := fun (c : Instr) (want : State) (status : Nat) (d : List Byte) => ∃ u, exec c s = .next u ∧ u.answered want a status d
  (s.asks 0x301 t sq tag a → runs (.planAdmit t sq tag none true) s 4 [] ∧ ∀ img, runs (.planAdmit t sq tag (some img) false) s 4 [] ∧
    (∀ f, admitTest { startMach s with core := v } T img (a.par 16 4) = .inl f → runs (.planAdmit t sq tag (some img) true) s f.status (details [(6, 2, f.sect), (8, 4, f.off)])) ∧
    ∀ p, admitTest { startMach s with core := v } T img (a.par 16 4) = .inr p → let q := { p with handle := v.freeHandle }
      ∃ u k, exec (.planAdmit t sq tag (some img) true) s = .next u ∧ u.pwr = s.pwr ∧ u.core.plans = s.core.plans ++ [q] ∧
        u.core.jobs.map (fun j => j.plan) = s.core.jobs.map (fun j => j.plan) ∧ (s.core.led.alone = true → u.core.jobs = s.core.jobs) ∧
        u.core.parts = s.core.parts.mapIdx (fun d x => { x with streams := { x.streams with chans := x.streams.chans ++ q.channels d } }) ∧
        Out.cqEntry a.tenant a.cq k (entryBytes a.tag.toNat 0 q.admitDetail) ∈ u.core.out ∧
        Out.dma a.tenant (BitVec.ofNat 64 (a.par 24 8)) (q.bindRecords.take (a.par 32 4)) ∈ u.core.out ∧
        (s.core.plans = [] → u.core.clk = { s.core.clk with beatUs := BitVec.ofNat 17 q.hdr.beatUs, lenSet := true, epoch := 0, epochSet := false, clearAtEdge := false }) ∧ (s.core.plans ≠ [] → u.core.clk = s.core.clk) ∧
        ∀ x, (∀ d ∈ q.physParts, ¬ onDie d x) → memByte u.mem x = memByte s.mem x) ∧
  (s.asks 0x302 t sq tag a → let c := Instr.planWithdraw t sq tag
    (v.planNamed T h = none → runs c s 0x30F []) ∧
    ∀ p, v.planNamed T h = some p →
      (p.withdrawAt.isSome = true ∨ p.withdrawAfter.isSome = true ∨ p.forced = true → runs c s 6 []) ∧
      (p.withdrawAt = none → p.withdrawAfter = none → p.forced = false →
        (a.par 10 1 = 1 → ∃ u, exec c s = .next u ∧ u.waits (s.upd fun c => c.modPlan h (fun p => { p with withdrawAfter := some (BitVec.ofNat 40 (a.par 16 5)) })) a) ∧
        (a.par 10 1 = 0 → s.core.clk.epochSet = true →
          ∃ u, exec c s = .next u ∧ u.waits (s.upd fun c => c.modPlan h (fun p => { p with withdrawAt := some (c.edgeAfter (now + 1)) })) a) ∧
        (a.par 10 1 = 0 → s.core.clk.epochSet = false → ∃ u k, exec c s = .next u ∧ u.mem = s.mem ∧ u.pwr = s.pwr ∧
          u.core.plans = s.core.plans.filter (fun p => p.handle != h) ∧ (s.core.plan? h ≠ none → u.core.jobs = s.core.jobs.filter (fun j => j.plan != h)) ∧
          Out.cqEntry a.tenant a.cq k (entryBytes a.tag.toNat 0 (details [(8, 8, now)])) ∈ u.core.out))) ∧
  (s.asks 0x303 t sq tag a → let c := fun (b : Option (List Byte)) => Instr.jobLaunch t sq tag b
    let lc := a.par 16 8
    let good := lc % 1000 = 0 ∧ now + 1000000 ≤ lc ∧
      (v.clk.epochSet = true → (max lc v.clk.epoch.toNat - min lc v.clk.epoch.toNat) % max (v.clk.beatUs.toNat * 1000) 1 = 0)
    runs (c none) s 4 [] ∧ ∀ b, (v.planNamed T h = none → runs (c (some b)) s 0x30F []) ∧
    ∀ p, v.planNamed T h = some p →
      (s.pwr.halted = true ∨ v.restoring h = true ∨ (∃ j, v.job? h = some j ∧ j.phase ≠ .stoppedLimit ∧ j.phase ≠ .stoppedFallback) → runs (c (some b)) s 0x310 []) ∧
      (s.pwr.halted = false → v.restoring h = false → v.job? h = none → (∀ r ∈ v.spool.restored, r.1 ≠ h) →
        (¬ good → runs (c (some b)) s 0x30E []) ∧
        (good → (b.length ≠ a.par 12 4 ∨ readSealMap b = none ∨ (∃ es, readSealMap b = some es ∧ v.sealMapOk p es = false)) → runs (c (some b)) s 0x30C []) ∧
        (good → b.length = a.par 12 4 → ∀ es, readSealMap b = some es → v.sealMapOk p es = true → ∃ u j k, exec (c (some b)) s = .next u ∧ u.mem = s.mem ∧ u.pwr = s.pwr ∧
          u.core.plans = s.core.plans ∧ u.core.job? h = some j ∧ j.phase = .launching ∧ j.tenant = p.tenant ∧ j.lc.toNat = lc ∧ j.step = BitVec.ofNat 40 (a.par 24 5) ∧
          j.sealMap = es ∧ (∀ x, x ≠ h → u.core.job? x = s.core.job? x) ∧
          u.core.clk = (if s.core.clk.epochSet then s.core.clk else { s.core.clk with epoch := BitVec.ofNat 64 lc, epochSet := true }) ∧
          Out.cqEntry a.tenant a.cq k (entryBytes a.tag.toNat 0 (details [(8, 8, u.core.clk.epoch.toNat)])) ∈ u.core.out))) ∧
  (s.asks 0x304 t sq tag a → (s.core.planNamed T h = none → runs (.jobQuery t sq tag) s 0x30F []) ∧
    ∀ p j, s.core.planNamed T h = some p → s.core.job? h = some j →
      runs (.jobQuery t sq tag) s 0 (details [(6, 5, j.lastSealed.toNat), (11, 1, j.state), (12, 5, j.step.toNat), (17, 2, j.beat), (19, 1, (j.tryOf (j.lastSealed + 1)).attempt)])) ∧
  (s.asks 0x308 t sq tag a → runs (.dataPut t sq tag none) s 4 [] ∧ ∀ data, let ks := s.core.hostKeys T (a.par 16 8) (a.par 24 4)
    (ks = none → runs (.dataPut t sq tag (some data)) s 0x30C []) ∧
    ∀ l, ks = some l → (s.core.sealGuard true l = true → runs (.dataPut t sq tag (some data)) s 0x30C []) ∧
      (s.core.sealGuard true l = false → l.Nodup → (∀ k ∈ l, k % 64 = 0) → data.length = 64 * l.length → ∃ u, exec (.dataPut t sq tag (some data)) s = .next u ∧
        u.answered { s with mem := u.mem, core := { s.core with gens := u.core.gens, commonsLines := u.core.commonsLines } } a 0 [] ∧
        (∀ i < l.length, ∀ x < 64, memByte u.mem (l.getD i 0 + x) = data.getD (64 * i + x) 0) ∧ (∀ k ∈ l, memPoisoned u.mem (k / 64) 1 = false) ∧
        ∀ x, (∀ k ∈ l, ¬ (k ≤ x ∧ x < k + 64)) → memByte u.mem x = memByte s.mem x)) ∧
  (s.asks 0x309 t sq tag a → runs (.dataGet t sq tag false []) s 4 [] ∧ let ks := s.core.hostKeys T (a.par 16 8) (a.par 24 4)
    (ks = none → runs (.dataGet t sq tag true []) s 0x30C []) ∧
    ∀ l, ks = some l → (s.core.sealGuard false l = true → runs (.dataGet t sq tag true []) s 0x30C []) ∧
      (s.core.sealGuard false l = false → ∃ u, exec (.dataGet t sq tag true []) s = .next u ∧ u.answered s a 0 [] ∧
        Out.dma a.tenant (BitVec.ofNat 64 (a.par 8 8)) (l.map (fun k => memBytes s.mem (k / 64 * 64) 64)).flatten ∈ u.core.out))

/-- Fabric, slice and encryption commands set what they name; transactions open, stage, commit, roll back, expire and are queried as R462 and R463 say. Rests on 13_host_tenants_commands.md R456, 13_host_tenants_commands.md R460, 13_host_tenants_commands.md R461, 13_host_tenants_commands.md R462, 13_host_tenants_commands.md R463, 08_celoth_fabric.md R287, 08_celoth_fabric.md R289. -/
def Obligations.FabricAndTransactionCommandsAnswer : Prop :=
  ∀ (s : State) (t : TenantId) (sq : Nat) (tag : BitVec 32) (a : Accepted),
  let v := s.view
  let g := s.core.fab
  let x := s.core.txn? t
  let now := s.core.clk.count.toNat
  let plans := v.anyPlan || s.core.anyPlan
  let runs := fun (c : Instr) (want : State) (status : Nat) (d : List Byte) => ∃ u, exec c s = .next u ∧ u.answered want a status d
  let fab := fun (q : Fabric) => s.upd (fun c => { c with fab := q })
  let txn := fun (y : Option Txn) => s.upd (fun c => c.setTxn t y)
  (s.asks 0x401 t sq tag a → runs (.fabricConfig t sq tag none) s 4 [] ∧ ∀ b, let c := Instr.fabricConfig t sq tag (some b)
    (plans = true → runs c s 0x101 []) ∧ (plans = false → fabricOk g.cfg.celoth1 b (a.par 16 1) = false → runs c s 0x401 []) ∧
    (plans = false → fabricOk g.cfg.celoth1 b (a.par 16 1) = true → runs c (fab { g with cfg := readFabric g.cfg (a.par 16 1) b }) 0 [])) ∧
  (s.asks 0x402 t sq tag a → let c := Instr.sliceCreate t sq tag
    let p := a.par
    let k := v.fab.cfg
    let free := fun (map : List Nat) => (∀ y ∈ v.fab.slices, y.id ≠ p 8 1 ∧ ∀ m ∈ y.map, m ∉ map) ∧ ∀ m ∈ map, m % 64 < k.jobPos
    let base : Slice := { id := p 8 1, tenant := a.target, kind := p 9 1, k := popcount 6 (p 10 1), mask := p 10 1, base := p 11 1, x0 := p 12 1, y0 := p 13 1, z0 := p 14 1, ckey := BitVec.ofNat 32 (p 20 4), map := [] }
    let cube := p 10 1 < 64 ∧ p 11 1 < 64 ∧ p 10 1 &&& p 11 1 = 0 ∧ p 15 1 = 0 ∧ p 16 1 = 0 ∧ p 17 1 = 0
    let torus := p 12 1 < k.sx ∧ p 13 1 < k.sy ∧ p 14 1 < k.sz ∧ (1 ≤ p 15 1 ∧ p 15 1 ≤ k.sx) ∧ (1 ≤ p 16 1 ∧ p 16 1 ≤ k.sy) ∧ (1 ≤ p 17 1 ∧ p 17 1 ≤ k.sz) ∧
      p 10 1 = 0 ∧ p 11 1 = 0
    (k.loaded = false → runs c s 0x401 []) ∧ (p 9 1 = 1 → ¬ cube → runs c s 0x401 []) ∧ (p 9 1 = 2 → ¬ torus → runs c s 0x401 []) ∧
    (p 9 1 = 1 → k.loaded = true → cube → let m := subcubeMap k.meadow (p 10 1) (p 11 1)
      (¬ free m → runs c s 0x402 []) ∧ (free m → runs c (fab { g with slices := g.slices ++ [{ base with map := m }] }) 0 [])) ∧
    (p 9 1 = 2 → k.loaded = true → torus → let m := torusMap k (p 12 1) (p 13 1) (p 14 1) (p 15 1) (p 16 1) (p 17 1)
      (¬ free m → runs c s 0x402 []) ∧
      (free m → runs c (fab { g with slices := g.slices ++ [{ base with tx := p 15 1, ty := p 16 1, tz := p 17 1, map := m }] }) 0 []))) ∧
  (s.asks 0x403 t sq tag a → let c := Instr.sliceDelete t sq tag
    ((∀ y ∈ v.fab.slices, y.id ≠ a.par 8 1) → runs c s 0x401 []) ∧
    ((∃ y ∈ v.fab.slices, y.id = a.par 8 1) →
      ((∃ p ∈ v.plans, ∃ y, v.sliceFor p = some y ∧ y.id = a.par 8 1) → runs c s 0x202 []) ∧
      ((∀ p ∈ v.plans, ∀ y, v.sliceFor p = some y → y.id ≠ a.par 8 1) → runs c (fab { g with slices := g.slices.filter (fun y => y.id != a.par 8 1) }) 0 []))) ∧
  (s.asks 0x404 t sq tag a → let i := a.par 8 1
    (a.par 9 1 = 1 → runs (.linkEncrypt t sq tag false) s 0x403 [] ∧
      runs (.linkEncrypt t sq tag true) (s.upd fun c => c.modPort i (fun q => { q with encWanted := true })) 0 []) ∧
    (a.par 9 1 = 0 → ∀ b, ∃ u, exec (.linkEncrypt t sq tag b) s = .next u ∧ u.answered (s.upd fun c => c.modPort i (fun _ => u.core.port i)) a 0 [] ∧
      (i < g.ports.length → (u.core.port i).encWanted = false ∧ (u.core.port i).enc = false))) ∧
  (s.asks 0x701 t sq tag a → let n := (s.core.ten t.toNat).nextTxn
    (x.isSome = true → runs (.txnBegin t sq tag) s 0x702 []) ∧
    (x = none → runs (.txnBegin t sq tag) (s.upd fun c => c.modTen t.toNat (fun q => { q with txn := some { id := n, timeout := if a.par 8 2 = 0 then 10 else a.par 8 2 }, nextTxn := if n = 0xFFFF then 1 else n + 1 })) 0
      (details [(6, 2, n.toNat)]))) ∧
  (s.core.cmd? 0x203 t sq tag = some a → bitOf (fieldAt a.packet 2 1) 0 = true → ((lookup? a.cq (s.core.ten t.toNat).queues).any fun q => !q.err) = true →
    let c := Instr.leasePartition t sq tag
    (x = none → runs c s 0x701 []) ∧
    (∀ y, x = some y → y.commit = none → 64 ≤ y.staged.length → runs c s 0x706 []) ∧
    (∀ y, x = some y → y.commit = none → y.staged.length < 64 →
      runs c (txn (some { y with staged := y.staged ++ [{ packet := a.packet, data := [] }] })) 0 (details [(6, 2, y.staged.length)]))) ∧
  (s.core.cmd? 0x201 t sq tag = some a → bitOf (fieldAt a.packet 2 1) 0 = true → ((lookup? a.cq (s.core.ten t.toNat).queues).any fun q => !q.err) = true →
    ∀ y, x = some y → y.commit = none → runs (.tenantEnable t sq tag) s 0x703 []) ∧
  (s.asks 0x702 t sq tag a → let c := Instr.txnCommit t sq tag
    (x = none → runs c s 0x701 []) ∧
    ∀ y, x = some y → (y.commit.isSome = true → runs c s 0x701 []) ∧
    (y.commit = none →
      (s.core.commitEdge (a.par 8 8) = none → runs c (txn none) 0x705 []) ∧
      ∀ e, s.core.commitEdge (a.par 8 8) = some e → let out := (evalStaged t (some now) y.staged 0 { startMach s with core := v }).1
        (∀ i st d, out = some (i, st, d) → runs c (txn none) 0x704 ((details [(6, 2, i), (8, 2, st)]).take 4 ++ d.take 22)) ∧
        (out = none → s.core.clk.epochSet = true → ∃ u n, exec c s = .next u ∧ u.waits (txn (some { y with commit := some e, order := n, reply := some a })) a ∧
          ∀ z ∈ s.core.commits, z.2.order ≤ n) ∧
        (y.staged = [] → s.core.clk.epochSet = false → runs c ((txn none).upd Core.buildSlots) 0 (details [(8, 8, now)])))) ∧
  (s.asks 0x703 t sq tag a → ((x = none ∨ ∃ y, x = some y ∧ y.commit.isSome = true) → runs (.txnRollback t sq tag) s 0x701 []) ∧
    (∀ y, x = some y → y.commit = none → runs (.txnRollback t sq tag) (txn none) 0 [])) ∧
  (s.asks 0x704 t sq tag a → (x = none → runs (.txnQuery t sq tag) s 0 []) ∧
    (∀ y, x = some y → runs (.txnQuery t sq tag) s 0 (details [(6, 1, 1), (7, 1, y.staged.length), (8, 2, y.timeout)]))) ∧
  (∀ y, x = some y →
    (y.commit.isSome = true → exec (.txnIdleTimeout t) s = .next (s.upd fun c => { c with out := [] })) ∧
    (y.commit = none → exec (.txnIdleTimeout t) s = .next (s.upd fun c =>
      (({ c with out := [] } : Core).setTxn t none).unsolicited t.toNat 0xF7 (details [(6, 2, y.id.toNat), (8, 1, y.staged.length)]))))

/-- Checkpoint commands set targets, keys, schedules and rates, name steps, abandon and query snapshots, and restore, or reply the status they fail with. Rests on 11_checkpoints.md R381, 11_checkpoints.md R383, 11_checkpoints.md R384, 11_checkpoints.md R392, 11_checkpoints.md R395, 11_checkpoints.md R398, 11_checkpoints.md R399, 11_checkpoints.md R400, 11_checkpoints.md R403, 11_checkpoints.md R404, 11_checkpoints.md R405, 13_host_tenants_commands.md R456. -/
def Obligations.CheckpointCommandsAnswer : Prop :=
  ∀ (s : State) (t : TenantId) (sq : Nat) (tag : BitVec 32) (a : Accepted),
  let T := a.target
  let q := s.core.spool
  let h := a.par 8 2
  let runs := fun (c : Instr) (want : State) (status : Nat) (d : List Byte) => ∃ u, exec c s = .next u ∧ u.answered want a status d
  let spool := fun (y : Spool) => s.upd (fun c => { c with spool := y })
  (s.asks 0x501 t sq tag a → let i := a.par 8 1
    runs (.ckptTargetSet t sq tag none) s 4 [] ∧ ∀ b, let c := Instr.ckptTargetSet t sq tag (some b)
    (a.par 16 8 = 0 → runs c (spool { q with targets := eraseKey (T, i) q.targets, io := q.io.filter (fun x => !(x.tenant == T && x.target == i)) }) 0 []) ∧
    (a.par 16 8 ≠ 0 → targetOk b = false → runs c s 0x502 []) ∧
    (a.par 16 8 ≠ 0 → targetOk b = true → ∃ u x l, exec c s = .next u ∧ u.mem = s.mem ∧ u.pwr = s.pwr ∧ u.core.spool.io = q.io ++ [x] ∧ x.what = .connect ∧
      x.tenant = T ∧ x.target = i ∧ Out.nvme i 0x7F l ∈ u.core.out ∧ lookup? (T, i) u.core.spool.targets = some { desc := b, waiting := some a } ∧
      u.core.accepted = s.core.accepted.map (fun b => if b.same a then { b with started := true } else b))) ∧
  (s.asks 0x502 t sq tag a → let key := slice a.packet 8 32
    let k := (T, a.par 40 1)
    runs (.ckptKeySet t sq tag) (spool { q with keys := if ∀ b ∈ key, b = 0 then eraseKey k q.keys else insertKey k key q.keys }) 0 []) ∧
  (s.asks 0x503 t sq tag a → let v := s.view
    let c := fun (b : List Byte) => Instr.snapSchedule t sq tag (some b)
    runs (.snapSchedule t sq tag none) s 4 [] ∧ ∀ b,
    (v.jobOf T h = none → runs (c b) s 0x506 []) ∧
    ∀ p j, v.jobOf T h = some (p, j) →
      (scheduleOk b = false → runs (c b) s 2 []) ∧
      (scheduleOk b = true → (∃ i < snapTcount b, (v.targetOf T i).connected = false) → runs (c b) s 0x502 []) ∧
      (scheduleOk b = true → (∀ i < snapTcount b, (v.targetOf T i).connected = true) → (v.targetOf T (snapManTarget b)).connected = true →
        (v.isWriter h b = true → lookup? (T, fieldAt b 11 1) v.spool.keys = none → runs (c b) s 0x503 []) ∧
        ((v.isWriter h b = true → (lookup? (T, fieldAt b 11 1) v.spool.keys).isSome = true) → let size := storedBytes (snapKind b) j.sealMap
          (v.slotBytes < size → runs (c b) s 0x504 []) ∧ (size ≤ v.slotBytes → snapAreaLbas b * 4096 < size → runs (c b) s 0x505 []) ∧
          (size ≤ v.slotBytes → size ≤ snapAreaLbas b * 4096 → v.restoring h = true → runs (c b) s 0x50D []) ∧
          (size ≤ v.slotBytes → size ≤ snapAreaLbas b * 4096 → v.restoring h = false →
            runs (c b) (spool { q with jobs := if (s.core.snapJob? h).isSome then q.jobs.map (fun y => if y.plan == h then { y with next := some b } else y)
              else q.jobs ++ [{ plan := h, block := b, seq := BitVec.ofNat 32 (fieldAt b 36 4) }], lastTenant := T }) 0 [])))) ∧
  (s.asks 0x504 t sq tag a → let c := Instr.snapNow t sq tag
    ((s.core.jobOf T h = none ∨ s.core.snapJob? h = none) → runs c s 0x506 []) ∧
    ∀ p j y, s.core.jobOf T h = some (p, j) → s.core.snapJob? h = some y → (s.core.isWriter h y.block = false → runs c s 0x506 []) ∧
      (s.core.isWriter h y.block = true → s.core.restoring h = true → runs c s 0x50D []) ∧
      (s.core.isWriter h y.block = true → s.core.restoring h = false → let n := s.core.stepAfter p j
        ∃ u, exec c s = .next u ∧ u.answered (s.upd fun c => c.modSnap h (fun y => { y with nowStep := some n })) a 0 [] ∧ Out.vc7 0xFFFF 13 [h, n.toNat] ∈ u.core.out)) ∧
  (s.asks 0x505 t sq tag a → runs (.spoolRate t sq tag) (spool { q with rate := a.par 8 1 }) 0 []) ∧
  (s.asks 0x506 t sq tag a → let c := Instr.snapAbandon t sq tag
    let n := BitVec.ofNat 32 (a.par 12 4)
    ((s.core.jobOf T h = none ∨ s.core.slotOf h n = none) → runs c s 0x506 []) ∧
    ∀ p j y i sl, s.core.jobOf T h = some (p, j) → s.core.snapJob? h = some y → s.core.slotOf h n = some (i, sl) → s.core.isWriter h y.block = true →
      ((∃ r ∈ q.manifests, r.plan = h ∧ r.seq = n ∧ r.writing.isSome = true) → runs c s 0x50D []) ∧
      ((∀ r ∈ q.manifests, r.plan = h → r.seq = n → r.writing = none) → ∃ u k, exec c s = .next u ∧ u.mem = s.mem ∧ u.pwr = s.pwr ∧ u.core.slotOf h n = none ∧
        Out.vc7 0xFFFF 12 [h, n.toNat, 7] ∈ u.core.out ∧ u.core.spool.failed = satInc q.failed ∧
        Out.cqEntry a.tenant a.cq k (entryBytes a.tag.toNat 0 []) ∈ u.core.out)) ∧
  (s.asks 0x508 t sq tag a → (s.core.plan? h = none → runs (.snapQuery t sq tag) s 0x506 []) ∧
    ∀ p, s.core.plan? h = some p → p.tenant = T → let l := ((s.core.snapJob? h).bind (fun y => y.last)).getD (0, 0)
      runs (.snapQuery t sq tag) s 0 (details [(6, 4, l.1.toNat), (10, 5, l.2.toNat), (15, 1, slotState (q.slots.getD 0 none)), (16, 1, slotState (q.slots.getD 1 none))])) ∧
  (s.asks 0x507 t sq tag a → ∀ buf man reads, let c := Instr.restore t sq tag (some buf) man reads
    runs (.restore t sq tag none man reads) s 4 [] ∧ (s.core.plan? h = none → runs c s 0x506 []) ∧
    ∀ p, s.core.plan? h = some p → p.tenant = T → let tgt := fieldAt buf 0 1
      let sealBytes := slice buf 64 (64 + 32 * fieldAt buf 64 2)
      let keyOf := lookup? (T, fieldAt buf 20 1) q.keys
      ((∃ j, s.core.job? h = some j ∧ j.phase ≠ .stoppedLimit ∧ j.phase ≠ .stoppedFallback) → runs c s 0x506 []) ∧
      ((∀ j, s.core.job? h = some j → j.phase = .stoppedLimit ∨ j.phase = .stoppedFallback) →
        (lookup? (T, tgt) q.targets = none → runs c s 0x502 []) ∧
        ((lookup? (T, tgt) q.targets).isSome = true → (s.core.targetOf T tgt).connected = false → runs c s 0x501 []) ∧
        ((lookup? (T, tgt) q.targets).isSome = true → (s.core.targetOf T tgt).connected = true → (keyOf = none → runs c s 0x503 []) ∧
          ∀ key, keyOf = some key → (readSealMap sealBytes = none → runs c s 0x508 []) ∧
          ∀ es, readSealMap sealBytes = some es → (man = none → runs c s 0x50A []) ∧
          ∀ b, man = some b → (manifestValid b key (fieldAt buf 20 1) = false → runs c s 0x507 []) ∧
          (manifestValid b key (fieldAt buf 20 1) = true → let ex := fieldAt b 45 1 = 2
            let step := BitVec.ofNat 40 (fieldAt b 24 5)
            (ex → bitOf (fieldAt buf 21 1) 0 = false → runs c s 0x50C []) ∧
            ((ex → bitOf (fieldAt buf 21 1) 0 = true) → bitOf (fieldAt buf 21 1) 1 = false → (fieldAt b 46 2 ≠ p.hdr.modCount ∨ s.core.sealMapOk p es = false) → runs c s 0x508 []) ∧
            ((ex → bitOf (fieldAt buf 21 1) 0 = true) → bitOf (fieldAt buf 21 1) 1 = false → fieldAt b 46 2 = p.hdr.modCount → slice b 80 16 = s.core.sliceBytes p →
              s.core.sealMapOk p es = true → s.core.restoring h = false → q.restored = [] → s.core.led.alone = true → ∀ ps, reads = some ps → ps.length = es.length →
              (∀ i e, es[i]? = some e → ∃ sh pc, entryShard b (manifestHdr b p.hdr) ((if s.core.fab.cfg.celoth1 then 32 else 64) - fieldAt b 85 1) (s.core.lmOf p.hdr T) i = some sh ∧ ps[i]? = some pc ∧
                fieldAt sh 12 1 = e.cls ∧ fieldAt sh 14 4 = e.extents ∧ pc.length = e.extents ∧ fieldAt sh 18 4 = e.extents ∧
                (∀ k d, pc[k]? = some d → d.length = pieceBytes (fieldAt b 45 1) e.cls ∧ sha256 d = pieceDigest b sh k) ∧ slice sh 48 32 = sha256 (pc.flatMap sha256)) →
              ∃ u k, exec c s = .next u ∧ u.pwr = s.pwr ∧ u.core.spool = { (s.core.countLbas (restoreLbas b ps)).spool with restored := [(h, sealBytes, some step)] } ∧
                Out.cqEntry a.tenant a.cq k (entryBytes a.tag.toNat 0 []) ∈ u.core.out ∧
                (∀ j, u.core.job? h = some j → j.sealMap = es ∧ j.lastSealed = step ∧ j.sealedValid = true) ∧
                (∀ x, (∀ e ∈ es, ∀ y, some y ∈ s.core.extKeys p e.curOff.toNat e.extents → ¬ (y ≤ x ∧ x < y + 2 ^ 26)) → memByte u.mem x = memByte s.mem x) ∧
                ∀ e d y, es = [e] → ps = [[d]] → s.core.extKeys p e.curOff.toNat 1 = [some y] → ∀ i < 2 ^ 26,
                  memByte u.mem (y + i) = (if fieldAt b 45 1 = 2 ∧ e.cls = 0 then widenBytes d else d).getD i 0)))))

/-- Control cores reach station memory uncached and HBM lines cached; reservations decide conditional stores; CLEAN, INVAL and FENCE act on the line. Rests on 07_memory.md R228, 07_memory.md R239, 07_memory.md R240, 07_memory.md R241, 07_memory.md R242, 07_memory.md R243, 04_stations_and_streams.md R114. -/
def Obligations.ControlCoreLoadsAndStores : Prop :=
  ∀ (plan part core : Nat) (addr : BitVec 64) (s : State) (p : Plan) (j : Job), s.core.coreOf plan part core = some (p, j) → part < s.core.parts.length →
  let q := (s.core.part part).cores
  let off := addr.toNat % 64
  (s.core.coreAddr p j addr.toNat = .none → ∀ bs,
    (∃ t, exec (.controlCoreLoad plan part core addr false []) s = .next t ∧ t.mem = s.mem ∧ t.core = { s.core with out := [.dataAbort part core] }) ∧
    (∃ t, exec (.controlCoreStore plan part core addr bs false []) s = .next t ∧ t.mem = s.mem ∧ t.core = { s.core with out := [.dataAbort part core] })) ∧
  (∀ k, s.core.coreAddr p j addr.toNat = .sm k →
    (memPoisoned s.mem (k / 64) 1 = false → ∃ t, exec (.controlCoreLoad plan part core addr false []) s = .next t ∧ t.mem = s.mem ∧
      t.core = { s.core with out := [.data (memBytes s.mem (k / 64 * 64) 64)] }) ∧
    (∀ bs, ∃ t, exec (.controlCoreStore plan part core addr bs false []) s = .next t ∧ t.pwr = s.pwr ∧
      (∀ i < min bs.length (64 - off), memByte t.mem (k + off + i) = bs.getD i 0) ∧
      (∀ a, ¬ (k + off ≤ a ∧ a < k + off + min bs.length (64 - off)) → memByte t.mem a = memByte s.mem a))) ∧
  (∀ tn l e, s.core.cachedLine plan part core addr = some (tn, l) →
    q.lines.find? (fun x => x.core == core && x.tenant == tn && x.line == l) = some e → (q.lines.filter (fun x => x.core == core)).length ≤ 512 → e.bytes.length = 64 →
    (∃ t, exec (.loadReserved plan part core addr ⟨[], false⟩) s = .next t ∧ t.mem = s.mem ∧ t.core.out = [.data e.bytes] ∧
      (core, tn, l) ∈ (t.core.part part).cores.reserved ∧ (t.core.part part).cores.lines = q.lines) ∧
    (∀ bs, (core, tn, l) ∈ q.reserved → ∃ t x, exec (.storeConditional plan part core addr ⟨bs, false⟩) s = .next t ∧ t.mem = s.mem ∧ t.core.out = [.storeOk true] ∧
      x ∈ (t.core.part part).cores.lines ∧ x.core = core ∧ x.tenant = tn ∧ x.line = l ∧ x.dirty = true ∧
      (∀ i < min bs.length (64 - off), x.bytes.getD (off + i) 0 = bs.getD i 0) ∧
      (∀ y ∈ (t.core.part part).cores.lines, y.tenant = tn → y.line = l → y.core = core) ∧
      ∀ r ∈ (t.core.part part).cores.reserved, ¬ (r.2.1 = tn ∧ r.2.2 = l)) ∧
    (∀ bs, (core, tn, l) ∉ q.reserved → ∃ t, exec (.storeConditional plan part core addr ⟨bs, false⟩) s = .next t ∧ t.mem = s.mem ∧ t.core.out = [.storeOk false] ∧
      (t.core.part part).cores.lines = q.lines)) ∧
  (∀ tn l d, s.core.cachedLine plan part core addr = some (tn, l) → q.lines.find? (fun x => x.tenant == tn && x.line == l && x.dirty) = some d →
    q.l2.length < 16384 → d.bytes.length = 64 → ∃ t, exec (.clean plan part core ⟨addr, false⟩) s = .next t ∧ t.pwr = s.pwr ∧
      (∀ i < 64, memByte t.mem (l * 64 + i) = d.bytes.getD i 0) ∧ (∀ a, ¬ (l * 64 ≤ a ∧ a < l * 64 + 64) → memByte t.mem a = memByte s.mem a) ∧
      (∀ x ∈ (t.core.part part).cores.lines, x.tenant = tn → x.line = l → x.dirty = false) ∧
      (∀ x ∈ (t.core.part part).cores.l2, x.tenant = tn → x.line = l → x.dirty = false)) ∧
  (∀ tn l, s.core.cachedLine plan part core addr = some (tn, l) → ∃ t, exec (.inval plan part core addr) s = .next t ∧ t.mem = s.mem ∧ t.pwr = s.pwr ∧
    (∀ x ∈ (t.core.part part).cores.lines, ¬ (x.tenant = tn ∧ x.line = l)) ∧ (∀ x ∈ (t.core.part part).cores.l2, ¬ (x.tenant = tn ∧ x.line = l))) ∧
  (∃ t, exec (.fence plan part core) s = .next t ∧ t.mem = s.mem ∧ t.pwr = s.pwr ∧ t.core = { s.core with out := [] })

/-- A store of one control core to a cached line is what the next load of another core of the die reads. Rests on 07_memory.md R239, 07_memory.md R240, 07_memory.md R241. -/
def Obligations.CoreStoresAreSeenByTheOtherCores : Prop :=
  ∀ (plan part a b : Nat) (addr : BitVec 64) (bs : List Byte) (s : State) (p : Plan) (j : Job) (k : Nat), s.core.coreOf plan part a = some (p, j) →
    s.core.coreOf plan part b = some (p, j) → a ≠ b → part < s.core.parts.length → s.core.coreAddr p j addr.toNat = .line k →
    memPoisoned s.mem (k / 64) 1 = false →
    (s.core.part part).cores.l2.length + 2 < 16384 → (s.core.part part).cores.lines.length + 2 < 512 →
    (∀ x ∈ (s.core.part part).cores.lines, x.bytes.length = 64) → (∀ x ∈ (s.core.part part).cores.l2, x.bytes.length = 64) →
    ∃ t u d, exec (.controlCoreStore plan part a addr bs false []) s = .next t ∧ t.mem = s.mem ∧
      exec (.controlCoreLoad plan part b addr false []) t = .next u ∧ u.core.out = [.data d] ∧ d.length = 64 ∧
      ∀ i < min bs.length (64 - addr.toNat % 64), d.getD (addr.toNat % 64 + i) 0 = bs.getD i 0

/-- Failovers, link and channel events, scrub and sentinel packages, runs and tests do what R230, R232, R347, R424 and R429 to R435 say. Rests on 12_health_and_errors.md R424, 12_health_and_errors.md R428, 12_health_and_errors.md R429, 12_health_and_errors.md R431, 12_health_and_errors.md R432, 12_health_and_errors.md R433, 12_health_and_errors.md R434, 12_health_and_errors.md R435, 07_memory.md R224, 07_memory.md R230, 10_seal_replay_tether.md R347, 01_module_architecture.md R18. -/
def Obligations.HealthEventsAndSentinelsAct : Prop :=
  ∀ s : State,
  let g := s.core.health
  let d := s.core.led
  let now := s.core.clk.count
  (∀ k < 2, d.failed.length = 2 → d.takeover.length = 2 → d.failed.getD k false = false → ∃ t r, exec (.ledgerFailover k) s = .next t ∧ t.mem = s.mem ∧ t.pwr = s.pwr ∧
    t.core.led.failed.getD k false = true ∧ t.core.led.takeover.getD (1 - k) false = true ∧ r ∈ t.core.log.recs.take 2 ∧ r.code = 0x706 ∧ r.die.toNat = 0x28 + k ∧
    (d.failed.getD (1 - k) false = true → t.core.health.permFailed = true) ∧
    (d.failed.getD (1 - k) false = false → t.core.jobs = s.core.jobs ∧ t.core.plans = s.core.plans ∧ t.core.health = g)) ∧
  (s.core.rst.phase = 6 → (∀ x ∈ g.volezHist, withinTicks now x day = false) → ∃ t r, exec .volezFailover s = .next t ∧ t.mem = s.mem ∧ t.pwr = s.pwr ∧
    t.core.health.volezStandby = true ∧ t.core.health.volezHist = g.volezHist ++ [now] ∧ t.core.log.recs.head? = some r ∧ r.code = 0x707 ∧
    (∀ x, ∀ y, t.core.txn? x = some y → y.commit.isSome = true) ∧
    (∀ a ∈ s.core.accepted, (a.started = false ∨ a.opcode ≠ 0x702) →
      ((lookup? a.cq (s.core.ten a.tenant.toNat).queues).any fun q => !q.err) = true → 2 ≤ a.cq → ∃ k, Out.cqEntry a.tenant a.cq k (entryBytes a.tag.toNat 5 []) ∈ t.core.out) ∧
    ((∀ a ∈ s.core.accepted, a.started = true ∧ a.opcode = 0x702) → t.core.accepted = s.core.accepted)) ∧
  (s.core.rst.phase = 6 → (∃ x ∈ g.volezHist, withinTicks now x day = true) → ∃ t, exec .volezFailover s = .next t ∧ t.core.health.permFailed = true) ∧
  (∃ t, exec (.d2dLinkFailed .base) s = .next t ∧ t.core.health.permFailed = true) ∧
  (∀ die, ∃ t r, exec (.d2dLinkFailed (.oneOf die)) s = .next t ∧ t.mem = s.mem ∧ t.pwr = s.pwr ∧ t.core.log.recs.head? = some r ∧ r.code = 0x70E ∧ r.die = BitVec.ofNat 8 die) ∧
  (∀ p < s.core.parts.length, (s.core.part p).memp.migState = 1 → ∃ t, exec (.channelCopyDone p []) s = .next t ∧ t.mem = s.mem ∧ t.pwr = s.pwr ∧
    t.core = { s.core with out := [], parts := t.core.parts } ∧ (t.core.part p).memp = { (s.core.part p).memp with migState := 2 } ∧
    ∀ x, x ≠ p → t.core.part x = s.core.part x) ∧
  (∃ t, exec (.scrubPass []) s = .next t ∧ t.mem = s.mem ∧ t.pwr = s.pwr ∧ t.core = { s.core with out := [] }) ∧
  (∀ e : MemErr, e.repair = [] → (e.unc = false → lookup? (recUnit (e.key * 64)) (s.core.part (keyPlace (e.key * 64)).1).memp.ceSeen = none) → ∃ t r, exec (.scrubPass [e]) s = .next t ∧ t.pwr = s.pwr ∧ r ∈ t.core.log.recs ∧ r.code = (if e.unc then 0x402 else 0x401) ∧ r.oper = 3 ∧
    (e.unc = true → memPoisoned t.mem e.key 1 = true) ∧ (e.unc = false → t.mem = s.mem)) ∧
  (∀ t sq tag a, s.asks 0x601 t sq tag a → let runs := fun (b : Option (List Byte)) (want : State) (st : Nat) => ∃ u, exec (.sentinelLoad t sq tag b) s = .next u ∧ u.answered want a st []
    runs none s 4 ∧ ∀ b,
      (b.length = a.par 16 4 → pkgStatus s.core b = 0 → g.pkg.any (fun k => k.image == b) = true → runs (some b) s 0) ∧
      (b.length = a.par 16 4 → pkgStatus s.core b = 0 → g.pkg.any (fun k => k.image == b) = false →
        ∃ u k, exec (.sentinelLoad t sq tag (some b)) s = .next u ∧ u.answered (s.upd fun c => { c with health := { g with pkg := some k } }) a 0 [] ∧ k.image = b ∧
          k.seq.toNat = fieldAt b 8 4 ∧ k.tests.length = fieldAt b 12 4 ∧
          (bitOf (a.par 20 1) 0 = true → ∀ i < (if s.core.fab.cfg.celoth1 then 5 else 6), Out.vc7 (s.core.fab.cfg.position ^^^ 2 ^ i) 15 [i, fieldAt b 8 4] ∈ u.core.out)) ∧
      (b.length = a.par 16 4 → pkgStatus s.core b ≠ 0 → runs (some b) (s.upd (fun c => rejectPkg { c with out := [] })) (pkgStatus s.core b)) ∧
      (b.length ≠ a.par 16 4 → runs (some b) (s.upd (fun c => rejectPkg { c with out := [] })) 0x601)) ∧
  (s.core.rst.phase = 6 → ∀ dim < 6, ∀ b,
    (pkgStatus s.core b ≠ 0 → exec (.sentinelForwardReceived dim b) s = .next (s.upd fun c => rejectPkg { c with out := [] })) ∧
    (pkgStatus s.core b = 0 → g.pkg.any (fun k => k.image == b) = true → exec (.sentinelForwardReceived dim b) s = .next (s.upd fun c => { c with out := [] })) ∧
    (pkgStatus s.core b = 0 → g.pkg.any (fun k => k.image == b) = false → ∃ u k, exec (.sentinelForwardReceived dim b) s = .next u ∧ u.mem = s.mem ∧ u.pwr = s.pwr ∧
      u.core = { s.core with out := u.core.out, health := { g with pkg := some k } } ∧ k.image = b ∧
      ∀ i, (i < (if s.core.fab.cfg.celoth1 then min dim 5 else dim) ↔ Out.vc7 (s.core.fab.cfg.position ^^^ 2 ^ i) 15 [i, fieldAt b 8 4] ∈ u.core.out))) ∧
  (∀ t sq tag a, s.asks 0x602 t sq tag a → let runs := fun (want : State) (st : Nat) => ∃ u, exec (.sentinelRun t sq tag) s = .next u ∧ u.answered want a st []
    (∀ r, g.run = some r → a.par 8 1 < r.scope → runs s 0x604) ∧
    ((∀ r, g.run = some r → r.scope ≤ a.par 8 1) → runs (if g.pkg.isSome then
      s.upd (fun c => { c with health := { g with run := some { scope := a.par 8 1, die := a.par 9 1, block := a.par 10 1, inst := a.par 11 1 } } }) else s) 0)) ∧
  (∀ t sq tag a, s.asks 0x603 t sq tag a → let runs := fun (b : Bool) (want : State) (st : Nat) => ∃ u, exec (.suspectSwap t sq tag b) s = .next u ∧ u.answered want a st []
    runs false s 0x605 ∧ runs true (s.upd fun c => { c with health := { g with swapPending := true } }) 0) ∧
  (s.core.rst.phase = 6 → ∀ k x r die inst, g.pkg = some k → x ∈ k.tests → g.run = some r → let e := (x.id, die, x.target.toNat, inst)
    let c := fun (pass : Bool) => Instr.sentinelTestDone x.id die x.target.toNat inst pass false
    (e ∉ g.retests → ∃ t, exec (c false) s = .next t ∧ t.mem = s.mem ∧ t.pwr = s.pwr ∧
      t.core = { s.core with out := [], health := { g with run := some { r with failed := true }, retests := g.retests ++ [e] } }) ∧
    (e ∉ g.retests → ∃ t, exec (c true) s = .next t ∧ t.mem = s.mem ∧ t.pwr = s.pwr ∧ t.core = { s.core with out := [] }) ∧
    (e ∈ g.retests → ∃ t y, exec (c true) s = .next t ∧ t.mem = s.mem ∧ y ∈ t.core.log.recs ∧ y.code = 0x702 ∧ t.core.health.retests = g.retests.erase e ∧
      t.core.health.failCount = g.failCount) ∧
    (e ∈ g.retests → ∃ t y, exec (c false) s = .next t ∧ t.mem = s.mem ∧ y ∈ t.core.log.recs ∧ y.code = 0x701 ∧ t.core.health.retests = g.retests.erase e ∧
      t.core.health.failCount = satInc g.failCount))

/-- Snapshots take the lowest free slot on a clean vote, are copied, drained, reported, completed or failed; NVMe commands go on, are retried, or fail. Rests on 11_checkpoints.md R384, 11_checkpoints.md R385, 11_checkpoints.md R386, 11_checkpoints.md R387, 11_checkpoints.md R393, 11_checkpoints.md R394, 11_checkpoints.md R395, 11_checkpoints.md R396, 11_checkpoints.md R397, 11_checkpoints.md R401. -/
def Obligations.SnapshotsAreTakenDrainedAndEnded : Prop :=
  ∀ (s : State) (h : Nat) (j : Job) (p : Plan) (y : SnapJob), s.core.job? h = some j → s.core.plan? h = some p → s.core.snapJob? h = some y →
    s.core.spool.slots.length = 2 →
  let q := s.core.spool
  let goes := fun (f : Core → Core) => (Host.Outcome.next (s.upd fun c => f { c with out := [] }) : Host.Outcome State Fault Refusal)
  let still := fun (t : State) => t.mem = s.mem ∧ t.pwr = s.pwr
  (∀ step, exec (.snapStepNotice h step) s = goes (fun c => { c with spool := { q with jobs := q.jobs.map (fun y => if y.plan == h then { y with nowStep := some step } else y) } })) ∧
  (∀ (o : KiteOp) (step : StepNo) (res : List Byte), s.core.fab.kite = [o] → s.core.fab.kiteQueue = [] → o.plan = h → o.group = 0xFF → o.submitter = 1 → o.result = none →
    o.error = false → o.seq = 0x3FFE → y.voted = some step → let b := padTo 64 res
    let clean := laneAgree b 1 = true ∧ laneAgree b 3 = true ∧ laneAgree b 5 = true ∧ lane b 0 = 0 ∧ lane b 1 = step.toNat ∧ lane b 3 = fieldAt y.block 252 4 ∧ lane b 5 = y.seq.toNat
    (clean → ∀ i < 2, q.slots.getD i none = none → (i = 1 → q.slots.getD 0 none ≠ none) → ∃ t sl, exec (.snapshotVoteResult h res false) s = .next t ∧ still t ∧
      t.core.spool.slots = q.slots.set i (some sl) ∧ sl.plan = h ∧ sl.step = step ∧ sl.seq = y.seq ∧ sl.block = y.block ∧ sl.phase = .copying ∧ sl.done = 0) ∧
    (¬ clean → ∃ t, exec (.snapshotVoteResult h res false) s = .next t ∧ still t ∧ t.core.spool.slots = q.slots ∧ t.core.spool.skipped = satInc q.skipped) ∧
    (∃ t, exec (.snapshotVoteResult h res true) s = .next t ∧ still t ∧ t.core.spool.slots = q.slots ∧ t.core.spool.skipped = satInc q.skipped)) ∧
  (∀ i < 2, ∀ sl, q.slots.getD i none = some sl → sl.plan = h → sl.phase = .copying →
    (i = 1 → ∀ z, q.slots.getD 0 none = some z → z.plan = h → z.phase ≠ .copying) → s.mem.poison = [] → snapCheck sl.block = false →
    storedBytes (snapKind sl.block) j.sealMap ≤ s.core.slotBytes → ∃ t z, exec (.snapshotCopyDone h []) s = .next t ∧ t.pwr = s.pwr ∧
      t.core.spool.slots.getD i none = some z ∧ z = { sl with phase := .draining } ∧
      (∀ x, (∀ o < s.core.slotBytes, x ≠ s.core.slotKey i o) → memByte t.mem x = memByte s.mem x) ∧
      ∀ e k, j.sealMap = [e] → s.core.snapSources p j sl = [(0, 0, some k)] → snapKind sl.block = 1 → (∀ o < 2 ^ 26, ∀ o' < 2 ^ 26, s.core.slotKey i o ≠ k + o') →
        ∀ o < 2 ^ 26, memByte t.mem (s.core.slotKey i o) = memByte s.mem (k + o)) ∧
  (∀ n i sl, s.core.slotOf h n = some (i, sl) →
    (sl.phase = .draining → sl.done = sl.stripes.length → sl.complete = false → s.core.isWriter h sl.block = false → ∃ t, exec (.stripeFlushed h n) s = .next t ∧ still t ∧
      t.core.spool.slots = q.slots.set i (some { sl with phase := .flushed }) ∧
      ∀ r ∈ sl.stripes, ∃ l, Out.vc7 (s.core.physOf p (snapWriter sl.block)) 10 (h :: n.toNat :: r.entry :: l) ∈ t.core.out) ∧
    (∀ step, sl.phase = .flushed → ∃ t, exec (.snapCompleteNotice h n step) s = .next t ∧ still t ∧ t.core.slotOf h n = none ∧
      ∀ z, t.core.snapJob? h = some z → z.last = some (n, step)) ∧
    (∀ step, sl.phase ≠ .flushed → ∃ t, exec (.snapCompleteNotice h n step) s = .next t ∧ still t ∧ t.core.spool.slots = q.slots.set i (some { sl with complete := true })) ∧
    (∀ cause, s.core.isWriter h sl.block = false → ∃ t, exec (.snapFailureNotice h n cause) s = .next t ∧ still t ∧ t.core.slotOf h n = none ∧
      t.core.spool.failed = satInc q.failed ∧ t.core.out = []) ∧
    (∀ cause, s.core.isWriter h sl.block = true → ∃ t, exec (.snapFailureNotice h n cause) s = .next t ∧ still t ∧ t.core.slotOf h n = none ∧
      t.core.spool.failed = satInc q.failed ∧ Out.vc7 0xFFFF 12 [h, n.toNat, cause] ∈ t.core.out) ∧
    (∀ r, q.manifests.find? (fun r => r.plan == h && r.seq == n) = some r →
      (r.writing.isSome = true → exec (.manifestWaitTimeout h n) s = goes id ∧ ∀ rep, exec (.stripeReportReceived h n rep) s = goes id) ∧
      (r.writing = none → ∃ t, exec (.manifestWaitTimeout h n) s = .next t ∧ still t ∧ t.core.slotOf h n = none ∧ Out.vc7 0xFFFF 12 [h, n.toNat, 5] ∈ t.core.out ∧
        t.core.spool.failed = satInc q.failed) ∧
      (∀ rep, r.writing = none → (∃ x ∈ r.reports, x.writer = rep.writer ∧ x.entry = rep.entry) → exec (.stripeReportReceived h n rep) s = goes id) ∧
      (∀ rep, r.writing = none → (∀ x ∈ r.reports, ¬ (x.writer = rep.writer ∧ x.entry = rep.entry)) →
        (covered p.hdr.modCount j.sealMap.length (r.reports ++ [rep]) = false → ∃ t, exec (.stripeReportReceived h n rep) s = .next t ∧ still t ∧
          { r with reports := r.reports ++ [rep] } ∈ t.core.spool.manifests ∧ t.core.out = [] ∧ t.core.spool.slots = q.slots) ∧
        (covered p.hdr.modCount j.sealMap.length (r.reports ++ [rep]) = true → ∃ t, exec (.stripeReportReceived h n rep) s = .next t ∧ still t ∧
          (t.core.slotOf h n = none ∨ ∃ z ∈ t.core.spool.manifests, z.plan = h ∧ z.seq = n ∧ z.writing.isSome = true ∧ ∃ l, Out.nvme (snapManTarget sl.block) 1 l ∈ t.core.out))))) ∧
  (∀ x lim, q.io.find? (fun z => z.id == x.id) = some x →
    (∀ n i sl k r, s.core.slotOf h n = some (i, sl) → x.plan = h → x.seq = n → x.what = .stripe k → sl.stripes[k]? = some r →
      x.lba + x.lbas < r.lba + r.count * (pieceBytes (snapKind sl.block) r.cls / 4096) → ∃ t z, exec (.nvmeCompletion x.id true lim []) s = .next t ∧ still t ∧
        z ∈ t.core.spool.io ∧ z.what = .stripe k ∧ z.lba = x.lba + x.lbas ∧ z.retries = 0 ∧ t.core.spool.slots = q.slots) ∧
    (∀ g, x.what = .connect → lookup? (x.tenant, x.target) q.targets = some g → ∃ t z, exec (.nvmeCompletion x.id true lim []) s = .next t ∧ still t ∧
      lookup? (x.tenant, x.target) t.core.spool.targets = some z ∧ z.desc = g.desc ∧ z.connected = decide (16 ≤ lim) ∧ z.waiting = none ∧ z.maxLbas = min lim 256) ∧
    (x.retries < 3 → ∃ t l, exec (.nvmeCompletion x.id false lim []) s = .next t ∧ still t ∧ t.core.spool.retries = satInc q.retries ∧ t.core.spool.slots = q.slots ∧
      t.core.out = [Out.nvme x.target x.op l] ∧ ∃ z ∈ t.core.spool.io, z.id = x.id ∧ z.retries = x.retries + 1) ∧
    (3 ≤ x.retries → x.what = .connect → exec (.nvmeCompletion x.id false lim []) s = goes (fun c => { c with spool := { q with io := q.io.filter (fun z => !(z.id == x.id)) } })) ∧
    (3 ≤ x.retries → x.what = .manifestFlush → x.plan = h → ∀ n i sl, s.core.slotOf h n = some (i, sl) → x.seq = n → s.core.isWriter h sl.block = true →
      ∃ t, exec (.nvmeCompletion x.id false lim []) s = .next t ∧ still t ∧ t.core.slotOf h n = none ∧ t.core.spool.failed = satInc q.failed)) ∧
  (∀ t i g, lookup? (t, i) q.targets = some g →
    (g.connected = false → exec (.nvmeConnectionLost t i) s = goes id) ∧
    (g.connected = true → exec (.targetUnconnectedTimeout t i) s = goes id ∧ ∃ u z, exec (.nvmeConnectionLost t i) s = .next u ∧ still u ∧
      lookup? (t, i) u.core.spool.targets = some { g with connected := false } ∧ u.core.spool.io = q.io ++ [z] ∧ z.what = .connect ∧ z.tenant = t ∧ z.target = i) ∧
    (g.connected = false → (∀ k, ∀ sl, q.slots.getD k none = some sl → snapManTarget sl.block ≠ i ∧ ∀ r ∈ sl.stripes, r.target ≠ i) →
      (∀ x ∈ q.io, x.tenant = t → x.target = i → x.what ≠ .zeroLba ∧ x.what ≠ .zeroFlush) →
      exec (.targetUnconnectedTimeout t i) s = goes id) ∧
    (∀ a, g.waiting = some a → ((lookup? a.cq (s.core.ten a.tenant.toNat).queues).any fun q => !q.err) = true → ∃ u, exec (.targetConnectTimeout t i) s = .next u ∧ u.answered (s.upd fun c =>
      { c with spool := { q with targets := eraseKey (t, i) q.targets, io := q.io.filter (fun x => !(x.what == .connect && x.tenant == t && x.target == i)) } }) a 0x501 []) ∧
    (g.waiting = none → exec (.targetConnectTimeout t i) s = goes id)) ∧
  exec .keepAlive s = goes (fun c => { c with out := (q.targets.filter (fun e => e.2.connected)).map (fun e => Out.nvme e.1.2 0x18 [e.2.port, e.1.1.toNat]) })

/-- Aperture reads answer bytes and poison, writes store exactly their bytes where the window allows, refused ones are counted, AtomicOps are refused. Rests on 13_host_tenants_commands.md R443, 13_host_tenants_commands.md R446, 13_host_tenants_commands.md R472, 13_host_tenants_commands.md R473, 07_memory.md R228, 07_memory.md R229, 07_memory.md R233. -/
def Obligations.AperturesReachTenantMemory : Prop :=
  ∀ (s : State) (t : TenantId),
  let x := s.core.ten t.toNat
  let goes := fun (f : Core → Core) => (Host.Outcome.next (s.upd fun c => f { c with out := [] }) : Host.Outcome State Fault Refusal)
  exec .pcieAtomicop s = goes (fun c => { c with out := [.ur] }) ∧
  (x.enabled = false → ∀ addr n found bs ep, exec (.apertureRead t addr n found) s = goes (fun c => { c with out := [.ur] }) ∧ exec (.apertureWrite t addr bs ep) s = goes id) ∧
  (x.enabled = true → s.core.rst.phase = 6 → ∀ addr : BitVec 34, let key := fun (i : Nat) => s.core.apKey t (addr.toNat + i)
    (∀ n, (∃ i < n, key i = none) → exec (.apertureRead t addr n []) s = goes (fun c =>
      { c.modTen t.toNat (fun y => { y with apReadErrs := satInc y.apReadErrs }) with out := [.ur] })) ∧
    (∀ ks : List Nat, ks ≠ [] → (∀ i < ks.length, (key i).map Prod.fst = some (ks.getD i 0)) → exec (.apertureRead t addr ks.length []) s = goes (fun c =>
      { c with out := .data (ks.map (fun k => memByte s.mem k)) :: (if ks.any (fun k => memPoisoned s.mem (k / 64) 1) then [.poisoned] else []) })) ∧
    (∀ bs ep, bs ≠ [] → ((∃ i < bs.length, ∀ k, key i ≠ some (k, true)) ∨ s.core.sealGuard true ((List.range bs.length).filterMap (fun i => (key i).map Prod.fst)) = true) →
      exec (.apertureWrite t addr bs ep) s = goes (fun c => c.modTen t.toNat (fun y => { y with apWriteErrs := satInc y.apWriteErrs }))) ∧
    (∀ (ks : List Nat) bs ep, bs ≠ [] → bs.length = ks.length → (∀ i < ks.length, key i = some (ks.getD i 0, true)) → s.core.sealGuard true ks = false →
      (∀ i < ks.length, ∀ l < ks.length, ks.getD i 0 / 64 = ks.getD l 0 / 64 → (addr.toNat + i) / 64 = (addr.toNat + l) / 64) →
      ∃ u, exec (.apertureWrite t addr bs ep) s = .next u ∧ u.pwr = s.pwr ∧
        u.core = { s.core with out := [], gens := u.core.gens, commonsLines := u.core.commonsLines } ∧
        (∀ i < ks.length, memByte u.mem (ks.getD i 0) = bs.getD i 0) ∧ (∀ k, k ∉ ks → memByte u.mem k = memByte s.mem k) ∧
        (∀ k ∈ ks, memPoisoned u.mem (k / 64) 1 = if (∀ b < 64, k / 64 * 64 + b ∈ ks) then ep else memPoisoned s.mem (k / 64) 1)))

/-- Each CLEAR bit sets exactly the counters its register names to 0 and changes nothing else. Rests on 03_matrix_arrays.md R85, 04_stations_and_streams.md R122, 04_stations_and_streams.md R123, 05_vector_stations.md R155, 06_beats_and_determinism.md R199, 06_beats_and_determinism.md R201, 07_memory.md R247, 08_celoth_fabric.md R292, 09_collectives_and_mapping.md R336, 10_seal_replay_tether.md R378, 11_checkpoints.md R408, 13_host_tenants_commands.md R470. -/
def Obligations.ClearsZeroTheirCounters : Prop :=
  ∀ (s : State) (p k i : Nat) (t : TenantId), s.core.rst.phase = 6 →
  let goes := fun (c : Instr) (f : Core → Core) => exec c s = .next (s.upd fun c => f { c with out := [] })
  let on := fun (f : Part → Part) (c : Core) => { c with parts := c.parts.modify p f }
  goes (.clearCounts p) (on fun q => { q with mx := { q.mx with mismatchCount := 0, checkPathCount := 0 } }) ∧
  goes (.partHoldStatsClear p) (on fun q => { q with streams := { q.streams with holdCycles := 0, holdOvf := false, lateOperand := 0, lateGather := 0, streamFull := 0, descInvalid := 0 } }) ∧
  goes (.partVsSkipClear p) (on fun q => { q with streams := { q.streams with skipped := 0, skippedOvf := false } }) ∧
  goes (.partBeatStatsClear p) (on fun q => { q with slots := { q.slots with slips := 0, slipsOvf := false } }) ∧
  goes (.partMemEccClear p) (on fun q => { q with memp := { q.memp with hbmCe := 0, hbmUe := 0, smCe := 0, smUe := 0, cmCe := 0, cmUe := 0, staleCount := 0 } }) ∧
  (∀ (flags : BitVec 3) (x : ChanSt), p < s.core.parts.length → let st := (s.core.part p).streams
    lookup? st.sel.toNat st.chans = some x → ∃ u, exec (.streamStateFlagClear p flags) s = .next u ∧ u.mem = s.mem ∧ u.pwr = s.pwr ∧
      u.core = { s.core with out := [], parts := u.core.parts } ∧ (∀ y, y ≠ p → u.core.part y = s.core.part y) ∧
      u.core.part p = { s.core.part p with streams := { st with chans := (u.core.part p).streams.chans } } ∧
      (∀ n, n ≠ st.sel.toNat → lookup? n (u.core.part p).streams.chans = lookup? n st.chans) ∧
      lookup? st.sel.toNat (u.core.part p).streams.chans = some { x with
        poisonSeen := x.poisonSeen && !flags.getLsbD 2, fullHold := x.fullHold && !flags.getLsbD 1, emptyHold := x.emptyHold && !flags.getLsbD 0 }) ∧
  goes .lostSeenClear (fun c => { c with fab := { c.fab with lostSeen := false } }) ∧
  goes (.clearErr i) (fun c => { c with fab := { c.fab with ports := c.fab.ports.modify i (fun q => { q with crcErr := 0, replayTo := 0, fecUncorr := 0, retrains := 0 }) } }) ∧
  goes (.csAbortsClear k) (fun c => { c with fab := { c.fab with lds := c.fab.lds.modify k (fun d => { d with issued := 0, received := 0, ignored := 0 }) } }) ∧
  goes (.kiteStatsClear k) (fun c => { c with fab := { c.fab with lds := c.fab.lds.modify k (fun d => { d with ops := 0, opsOvf := false, epochDrops := 0 }) } }) ∧
  goes .replayStatsClear (fun c => { c with led := { c.led with localReplays := 0, collective := 0, escalated := 0 } }) ∧
  goes (.clearHw k) (fun c => { c with led := { c.led with highWater := c.led.highWater.set k (c.led.used k) } }) ∧
  goes .spoolErrsClear (fun c => { c with spool := { c.spool with skipped := 0, failed := 0, retries := 0 } }) ∧
  goes .spoolBytesClear (fun c => { c with spool := { c.spool with lbas := 0, lbasOvf := false } }) ∧
  goes .clearOvr (fun c => { c with log := { c.log with overrun := 0 } }) ∧
  ((s.core.ten t.toNat).enabled = true → goes (.tenStatusClear t) (fun c => c.modTen t.toNat (fun x => { x with unsolLost := 0, eventsUnposted := 0 })) ∧
    goes (.apertureErrsClear t) (fun c => c.modTen t.toNat (fun x => { x with apReadErrs := 0, apWriteErrs := 0 }))) ∧
  ((s.core.ten t.toNat).enabled = false → goes (.tenStatusClear t) id ∧ goes (.apertureErrsClear t) id)

/-- The counter read low latches its high half; accesses of good size read and write the named half, others return all-ones with a record; a disabled page reads 0. Rests on 00_scope.md R6, 00_scope.md R7, 06_beats_and_determinism.md R198, 12_health_and_errors.md R437, 12_health_and_errors.md R438, 12_health_and_errors.md R439, 12_health_and_errors.md R531, 13_host_tenants_commands.md R443, 14_reset_and_recovery.md R479. -/
def Obligations.RegisterAccessesReadAndLatch : Prop :=
  ∀ s : State,
  let goes := fun (c : Instr) (f : Core → Core) => exec c s = .next (s.upd fun c => f { c with out := [] })
  let data := fun (l : List Byte) (c : Core) => ({ c with out := [.data l] } : Core)
  let n := s.core.clk.count
  let at_ := fun (off size : Nat) => ({ fn := 0, off := off, size := size } : RegAcc)
  (s.core.rst.phase = 6 →
    goes .celothCountLowRead (fun c => { c with clk := { c.clk with latch := some ((n >>> 32).setWidth 32) }, out := [.data (bytesLE 4 n.toNat)] }) ∧
    goes (.registerAccess (at_ 0x40 4) none) (fun c => { c with clk := { c.clk with latch := some ((n >>> 32).setWidth 32) }, out := [.data (bytesLE 4 n.toNat)] }) ∧
    goes (.registerAccess (at_ 0x44 4) none) (data (bytesLE 4 (match s.core.clk.latch with | some v => v.toNat | none => n.toNat / 2 ^ 32))) ∧
    goes (.registerAccess (at_ 0x40 8) none) (data (bytesLE 8 n.toNat)) ∧
    (∀ (a : RegAcc) blk inst off, a.place = some (blk, inst, off) → (blk = 9 → (s.core.ten inst).enabled = true) → (blk = 0 → off / 8 ≠ 8) → let w := regRead s.pwr s.mem s.core blk inst (off / 8 * 8)
      (a.size = 8 → a.off % 8 = 0 → goes (.registerAccess a none) (data (bytesLE 8 w.toNat))) ∧
      (a.size = 4 → a.off % 4 = 0 → blk ≠ 8 → blk ≠ 1 → goes (.registerAccess a none) (data (bytesLE 4 (if off % 8 = 0 then w.toNat else w.toNat / 2 ^ 32))))) ∧
    (∀ (a : RegAcc), a.place = none → (a.size = 8 ∨ a.size = 4) → a.off % a.size = 0 → ∀ v, goes (.registerAccess a none) (data (List.replicate a.size 0)) ∧
      goes (.registerWrite a v) id) ∧
    (∀ (a : RegAcc), ¬ ((a.size = 8 ∨ a.size = 4) ∧ a.off % a.size = 0) → (∀ t off, a.place = some (9, t, off) → (s.core.ten t).enabled = true) → ∀ v, ∃ t u r r',
      exec (.registerAccess a none) s = .next t ∧ exec (.registerWrite a v) s = .next u ∧ t.mem = s.mem ∧ t.pwr = s.pwr ∧ u.mem = s.mem ∧ u.pwr = s.pwr ∧
      .data (List.replicate a.size 0xFF) ∈ t.core.out ∧ t.core.log.recs.head? = some r ∧ r.code = 0x708 ∧ r.tenant = some a.fn ∧
      u.core.log.recs.head? = some r' ∧ r'.code = 0x708 ∧ r'.tenant = some a.fn ∧ { t.core with log := s.core.log, tens := s.core.tens, out := [] } = { s.core with out := [] } ∧
      { u.core with log := s.core.log, tens := s.core.tens, out := [] } = { s.core with out := [] }) ∧
    (∀ (a : RegAcc) t off v, a.place = some (9, t, off) → (s.core.ten t).enabled = false → goes (.registerAccess a none) (data (List.replicate a.size 0)) ∧ goes (.registerWrite a v) id) ∧
    (∀ v : BitVec 64, goes (.registerWrite (at_ 0x10 8) v) id ∧ (∀ o < 0x8000, goes (.registerWrite (at_ (0xE010000 + 8 * o) 8) v) id) ∧
      goes (.registerWrite (at_ 0xE000008 4) v) (fun c => { c with log := { c.log with read := v.setWidth 32 } }) ∧
      goes (.registerWrite (at_ 0x88 8) v) (fun c => { c with health := { c.health with eventEn := v.setWidth 5 } }) ∧
      goes (.registerWrite (at_ 0x2000400 8) v) (fun c => { c with health := { c.health with monSel := v.setWidth 16 } }))) ∧
  (s.core.rst.phase ≠ 6 → ∀ (a : RegAcc) v, goes (.registerWrite a v) id ∧ goes .celothCountLowRead (data [0, 0, 0, 0]))

/-- A record enters the ring under the next SEQ, overwrites the oldest and counts it unless read, and reads back from slot SEQ mod 4,096. Rests on 12_health_and_errors.md R411, 12_health_and_errors.md R416, 12_health_and_errors.md R437. -/
def Obligations.ErrorRecordsEnterAndReadBack : Prop :=
  State.reset.core.log.numbered ∧
  (∀ (l : Log) (r : Rec), l.numbered → r.seq = l.written → (l.push r).numbered ∧ (l.push r).written = l.written + 1 ∧ (l.push r).recs.head? = some r ∧
    (l.push r).read = l.read ∧ (l.push r).overrun = (if l.recs.length = 4096 ∧ readPassed l.read (l.written - 4096) = false then satInc l.overrun else l.overrun) ∧
    (r.cls = 2 ∨ r.cls = 4 → (l.push r).history.head? = some r) ∧ (r.cls ≠ 2 → r.cls ≠ 4 → (l.push r).history = l.history)) ∧
  (∀ (r : Rec) (c : Core), ∃ q, (c.logRec r).log = c.log.push q ∧ q.seq = c.log.written ∧ q.time = c.clk.count ∧ q.code = r.code ∧ q.cls = r.cls ∧ q.tenant = r.tenant ∧
    q.die = r.die ∧ q.step = r.step ∧ q.detail = r.detail) ∧
  ∀ s : State, s.core.rst.phase = 6 → s.core.log.numbered → let reads := fun (off : Nat) (d : List Byte) => exec (.registerAccess { fn := 0, off := 0xE000000 + off, size := 8 } none) s = .next (s.upd fun c => { c with out := [.data d] })
    (∀ r ∈ s.core.log.recs, ∀ j < 8, reads (0x10000 + r.seq.toNat % 4096 * 64 + 8 * j) (slice (recBytes r) (8 * j) 8)) ∧
    (∀ k < 4096, (∀ r ∈ s.core.log.recs, r.seq.toNat % 4096 ≠ k) → ∀ j < 8, reads (0x10000 + k * 64 + 8 * j) (List.replicate 8 0)) ∧
    reads 0 (bytesLE 8 s.core.log.written.toNat) ∧ reads 8 (bytesLE 8 (s.core.log.read.toNat + s.core.log.overrun.toNat * 2 ^ 48))
end

