-- ==== Sys2Proof/Laws/Memory.lean ====
section
/-!
SUPPORT. Laws of the memory store: every write keeps the canonical form, a read after a write gives what was written, and a write leaves every
other byte and poison bit as it was.
-/

namespace Sys2Proof.Machine

theorem rising_iff (l : List Nat) : rising l = true ↔ l.Pairwise (· < ·) := by
  induction l with
  | nil => simp [rising]
  | cons x r ih =>
    cases r with
    | nil => simp [rising]
    | cons y r =>
      rw [rising, Bool.and_eq_true, ih, decide_eq_true_eq, List.pairwise_cons (a := x)]
      constructor
      · rintro ⟨h, h2⟩
        refine ⟨fun z hz => ?_, h2⟩
        rcases List.mem_cons.1 hz with rfl | hz
        · exact h
        · exact h.trans ((List.pairwise_cons.1 h2).1 z hz)
      · rintro ⟨h, h2⟩
        exact ⟨h y (by simp), h2⟩

/-- The canonical form of a store, said in three parts. -/
theorem Memory.wf_iff (m : Mem) : Memory.wf m = true ↔
    (m.cells.map Prod.fst).Pairwise (· < ·) ∧ (∀ c ∈ m.cells, c.2 ≠ 0) ∧ m.poison.Pairwise (· < ·) := by
  simp [Memory.wf, rising_iff, and_assoc]

theorem Memory.wf_empty : Memory.wf {} = true := rfl

theorem mem_cellsFrom {k : Nat} {bs : List Byte} {c : Host.Cell} (h : c ∈ cellsFrom k bs) :
    k ≤ c.1 ∧ c.1 < k + bs.length ∧ c.2 ≠ 0 := by
  induction bs generalizing k with
  | nil => simp [cellsFrom] at h
  | cons b r ih =>
    simp only [cellsFrom] at h
    split at h
    · have h2 := ih h
      rw [List.length_cons]
      exact ⟨by omega, by omega, h2.2.2⟩
    · rcases List.mem_cons.1 h with rfl | h
      · simp_all
      · have h2 := ih h
        rw [List.length_cons]
        exact ⟨by omega, by omega, h2.2.2⟩

theorem pairwise_cellsFrom (k : Nat) (bs : List Byte) : ((cellsFrom k bs).map Prod.fst).Pairwise (· < ·) := by
  induction bs generalizing k with
  | nil => simp [cellsFrom]
  | cons b r ih =>
    simp only [cellsFrom]
    split
    · exact ih _
    · rw [List.map_cons, List.pairwise_cons]
      refine ⟨fun z hz => ?_, ih _⟩
      obtain ⟨c, hc, rfl⟩ := List.mem_map.1 hz
      have := mem_cellsFrom hc
      simp only
      omega

/-- Cells spliced into a canonical list of cells keep it canonical. -/
theorem spliceCells_wf {k n : Nat} {new cells : List Host.Cell} (hn : (new.map Prod.fst).Pairwise (· < ·))
    (hb : ∀ c ∈ new, k ≤ c.1 ∧ c.1 < k + n ∧ c.2 ≠ 0) (hc : (cells.map Prod.fst).Pairwise (· < ·)) (hz : ∀ c ∈ cells, c.2 ≠ 0) :
    ((spliceCells k n new cells).map Prod.fst).Pairwise (· < ·) ∧ ∀ c ∈ spliceCells k n new cells, c.2 ≠ 0 := by
  rw [List.pairwise_map] at hn hc
  constructor
  · rw [List.pairwise_map, spliceCells, List.pairwise_append, List.pairwise_append]
    refine ⟨⟨hc.filter _, hn, ?_⟩, hc.filter _, ?_⟩
    · intro a ha b hb'
      have h1 := (List.mem_filter.1 ha).2
      have h2 := hb b hb'
      simp only [decide_eq_true_eq] at h1
      omega
    · intro a ha b hb'
      have h2 := (List.mem_filter.1 hb').2
      simp only [decide_eq_true_eq] at h2
      rcases List.mem_append.1 ha with ha | ha
      · have h1 := (List.mem_filter.1 ha).2
        simp only [decide_eq_true_eq] at h1
        omega
      · have h1 := hb a ha
        omega
  · intro c hc'
    rcases List.mem_append.1 hc' with hc' | hc'
    · rcases List.mem_append.1 hc' with hc' | hc'
      · exact hz c (List.mem_filter.1 hc').1
      · exact (hb c hc').2.2
    · exact hz c (List.mem_filter.1 hc').1

/-- Every write keeps the canonical form. -/
theorem applyWr_wf {m : Mem} (w : Wr) (h : Memory.wf m = true) : Memory.wf (applyWr m w) = true := by
  rw [Memory.wf_iff] at h ⊢
  obtain ⟨hc, hz, hp⟩ := h
  cases w with
  | bytes k bs =>
    have h2 := spliceCells_wf (pairwise_cellsFrom k bs) (fun c hc => mem_cellsFrom hc) hc hz
    exact ⟨h2.1, h2.2, hp⟩
  | zero k n =>
    have h2 := spliceCells_wf (k := k) (n := n) (new := []) List.Pairwise.nil (by simp) hc hz
    exact ⟨h2.1, h2.2, hp⟩
  | copy d s n =>
    have h2 := spliceCells_wf (k := d) (n := n) (new := movedCells d s n m.cells) (by
      rw [List.pairwise_map] at hc ⊢
      rw [movedCells, List.pairwise_map]
      refine (hc.filter _).imp_of_mem ?_
      intro a b ha hb hab
      have h1 := (List.mem_filter.1 ha).2
      have h3 := (List.mem_filter.1 hb).2
      simp only [Bool.and_eq_true, decide_eq_true_eq] at h1 h3
      simp only
      omega) (by
      intro c hc'
      obtain ⟨a, ha, rfl⟩ := List.mem_map.1 hc'
      have h1 := (List.mem_filter.1 ha).2
      simp only [Bool.and_eq_true, decide_eq_true_eq] at h1
      refine ⟨by simp only; omega, by simp only; omega, hz a (List.mem_filter.1 ha).1⟩) hc hz
    exact ⟨h2.1, h2.2, hp⟩
  | poison u n b =>
    refine ⟨hc, hz, ?_⟩
    simp only [applyWr]
    rw [List.pairwise_append, List.pairwise_append]
    have hmid : ∀ x ∈ (if b then List.range' u n else []), u ≤ x ∧ x < u + n := by
      intro x hx
      cases b
      · simp at hx
      · simpa [List.mem_range'_1] using hx
    refine ⟨⟨hp.filter _, ?_, ?_⟩, hp.filter _, ?_⟩
    · cases b
      · simp
      · exact List.pairwise_lt_range'
    · intro x hx y hy
      have h1 := (List.mem_filter.1 hx).2
      have h2 := hmid y hy
      simp only [decide_eq_true_eq] at h1
      omega
    · intro x hx y hy
      have h2 := (List.mem_filter.1 hy).2
      simp only [decide_eq_true_eq] at h2
      rcases List.mem_append.1 hx with hx | hx
      · have h1 := (List.mem_filter.1 hx).2
        simp only [decide_eq_true_eq] at h1
        omega
      · have h1 := hmid x hx
        omega

/-- A list of writes keeps the canonical form. -/
theorem applyWrs_wf {m : Mem} (ws : List Wr) (h : Memory.wf m = true) : Memory.wf (applyWrs m ws) = true := by
  induction ws generalizing m with
  | nil => exact h
  | cons w r ih => exact ih (applyWr_wf w h)

/-! ### Reading after writing -/

theorem cellAt_append (k : Nat) (a b : List Host.Cell) (h : ∀ c ∈ a, c.1 ≠ k) : cellAt k (a ++ b) = cellAt k b := by
  induction a with
  | nil => rfl
  | cons c r ih =>
    have hc : c.1 ≠ k := h c (by simp)
    simp only [List.cons_append, cellAt, hc, if_false]
    exact ih (fun d hd => h d (by simp [hd]))

theorem cellAt_none (k : Nat) (a : List Host.Cell) (h : ∀ c ∈ a, c.1 ≠ k) : cellAt k a = 0 := by
  simpa [cellAt] using cellAt_append k a [] h

theorem cellAt_filter (k : Nat) (a : List Host.Cell) (p : Host.Cell → Bool) (h : ∀ c : Host.Cell, c.1 = k → p c = true) :
    cellAt k (a.filter p) = cellAt k a := by
  induction a with
  | nil => rfl
  | cons c r ih =>
    by_cases hc : c.1 = k
    · rw [List.filter_cons_of_pos (h c hc)]
      simp [cellAt, hc]
    · by_cases hp : p c = true
      · rw [List.filter_cons_of_pos hp]
        simp [cellAt, hc, ih]
      · rw [List.filter_cons_of_neg hp]
        simp [cellAt, hc, ih]

theorem cellAt_append_left (k : Nat) (a b : List Host.Cell) (h : ∀ c ∈ b, c.1 ≠ k) : cellAt k (a ++ b) = cellAt k a := by
  induction a with
  | nil => simpa [cellAt] using cellAt_none k b h
  | cons c r ih =>
    simp only [List.cons_append, cellAt]
    split
    · rfl
    · exact ih

theorem cellAt_cellsFrom (k : Nat) (bs : List Byte) (i : Nat) : cellAt (k + i) (cellsFrom k bs) = bs.getD i 0 := by
  induction bs generalizing k i with
  | nil => simp [cellsFrom, cellAt]
  | cons b r ih =>
    simp only [cellsFrom]
    cases i with
    | zero =>
      split
      · rename_i hb
        rw [cellAt_none]
        · simp [hb]
        · intro c hc
          have := mem_cellsFrom hc
          omega
      · simp [cellAt]
    | succ i =>
      have e : k + (i + 1) = k + 1 + i := by omega
      split
      · rw [e, ih]
        rfl
      · have hk : k ≠ k + 1 + i := by omega
        rw [e]
        simp only [cellAt, hk, if_false]
        rw [ih]
        rfl

/-- What a spliced list of cells holds at a key. -/
theorem cellAt_splice (k n a : Nat) (new cells : List Host.Cell) (hb : ∀ c ∈ new, k ≤ c.1 ∧ c.1 < k + n) :
    cellAt a (spliceCells k n new cells) = if k ≤ a ∧ a < k + n then cellAt a new else cellAt a cells := by
  have hlo : ∀ c ∈ cells.filter (fun c => decide (c.1 < k)), c.1 < k := fun c hc => by simpa using (List.mem_filter.1 hc).2
  have hhi : ∀ c ∈ cells.filter (fun c => decide (k + n ≤ c.1)), k + n ≤ c.1 := fun c hc => by simpa using (List.mem_filter.1 hc).2
  rw [spliceCells, List.append_assoc]
  split
  · rename_i h
    rw [cellAt_append _ _ _ (fun c hc => by have := hlo c hc; omega)]
    exact cellAt_append_left _ _ _ (fun c hc => by have := hhi c hc; omega)
  · rename_i h
    by_cases ha : a < k
    · rw [cellAt_append_left]
      · exact cellAt_filter _ _ _ (fun c hc => by simp; omega)
      · intro c hc
        rcases List.mem_append.1 hc with hc | hc
        · have := hb c hc
          omega
        · have := hhi c hc
          omega
    · rw [cellAt_append _ _ _ (fun c hc => by have := hlo c hc; omega),
        cellAt_append _ _ _ (fun c hc => by have := hb c hc; omega)]
      exact cellAt_filter _ _ _ (fun c hc => by simp; omega)

/-- A byte after bytes were written at a key. -/
theorem memByte_bytes (m : Mem) (k a : Nat) (bs : List Byte) :
    memByte (applyWr m (.bytes k bs)) a = if k ≤ a ∧ a < k + bs.length then bs.getD (a - k) 0 else memByte m a := by
  simp only [memByte, applyWr]
  rw [cellAt_splice _ _ _ _ _ (fun c hc => ⟨(mem_cellsFrom hc).1, (mem_cellsFrom hc).2.1⟩)]
  split
  · rename_i h
    have e : a = k + (a - k) := by omega
    rw [e, cellAt_cellsFrom]
    congr 1
    omega
  · rfl

/-- A byte after a range was filled with zero. -/
theorem memByte_zero (m : Mem) (k n a : Nat) :
    memByte (applyWr m (.zero k n)) a = if k ≤ a ∧ a < k + n then 0 else memByte m a := by
  simp only [memByte, applyWr]
  rw [cellAt_splice _ _ _ _ _ (by simp)]
  rfl

theorem cellAt_moved (d s n a : Nat) (cells : List Host.Cell) (h1 : d ≤ a) (h2 : a < d + n) :
    cellAt a (movedCells d s n cells) = cellAt (a - d + s) cells := by
  induction cells with
  | nil => rfl
  | cons c r ih =>
    rw [movedCells] at ih
    rw [movedCells, List.filter_cons, cellAt]
    by_cases hp : s ≤ c.1 ∧ c.1 < s + n
    · rw [if_pos (by simp [hp]), List.map_cons, cellAt, ih]
      by_cases he : c.1 - s + d = a
      · rw [if_pos he, if_pos (by omega)]
      · rw [if_neg he, if_neg (by omega)]
    · rw [if_neg (by simpa using hp), ih, if_neg (by omega)]

/-- A byte after a range was copied to another place. -/
theorem memByte_copy (m : Mem) (d s n a : Nat) :
    memByte (applyWr m (.copy d s n)) a = if d ≤ a ∧ a < d + n then memByte m (a - d + s) else memByte m a := by
  simp only [memByte, applyWr]
  rw [cellAt_splice]
  · split
    · rename_i h
      exact cellAt_moved d s n a m.cells h.1 h.2
    · rfl
  · intro c hc
    obtain ⟨b, hb, rfl⟩ := List.mem_map.1 hc
    have h1 := (List.mem_filter.1 hb).2
    simp only [Bool.and_eq_true, decide_eq_true_eq] at h1
    simp only
    omega

/-- A poison write leaves every byte as it was. -/
theorem memByte_poison (m : Mem) (u n a : Nat) (b : Bool) : memByte (applyWr m (.poison u n b)) a = memByte m a := rfl

/-- The range of keys a write may change. -/
def Wr.range : Wr → Nat × Nat
  | .bytes k bs => (k, bs.length)
  | .zero k n => (k, n)
  | .copy d _ n => (d, n)
  | .poison _ _ _ => (0, 0)

/-- A write changes no byte outside its range. -/
theorem memByte_outside (m : Mem) (w : Wr) (a : Nat) (h : ¬(w.range.1 ≤ a ∧ a < w.range.1 + w.range.2)) :
    memByte (applyWr m w) a = memByte m a := by
  cases w with
  | bytes k bs => exact (memByte_bytes m k a bs).trans (if_neg h)
  | zero k n => exact (memByte_zero m k n a).trans (if_neg h)
  | copy d s n => exact (memByte_copy m d s n a).trans (if_neg h)
  | poison u n b => rfl

/-- The poison bit of a unit after a poison write. -/
theorem memPoisoned_poison (m : Mem) (u n v : Nat) (b : Bool) :
    memPoisoned (applyWr m (.poison u n b)) v 1 = if u ≤ v ∧ v < u + n then b else memPoisoned m v 1 := by
  have key : ∀ l : List Nat, (l.any (fun x => decide (v ≤ x) && decide (x < v + 1))) = l.contains v := by
    intro l
    rw [Bool.eq_iff_iff]
    simp only [List.any_eq_true, Bool.and_eq_true, decide_eq_true_eq, List.contains_eq_mem]
    exact ⟨fun ⟨x, hx, h1, h2⟩ => (show x = v by omega) ▸ hx, fun hx => ⟨v, hx, by omega, by omega⟩⟩
  simp only [memPoisoned, applyWr, key]
  rw [Bool.eq_iff_iff]
  have hm : ∀ l : List Nat, (m.poison.filter (fun x => decide (x < u)) ++ l ++ m.poison.filter (fun x => decide (u + n ≤ x))).contains v = true ↔
      (v ∈ m.poison ∧ v < u) ∨ v ∈ l ∨ (v ∈ m.poison ∧ u + n ≤ v) := by
    intro l
    simp [or_assoc]
  rw [hm]
  by_cases h : u ≤ v ∧ v < u + n
  · rw [if_pos h]
    cases b
    · simp only [Bool.false_eq_true, if_false, List.not_mem_nil, false_or, iff_false]
      rintro (⟨_, h2⟩ | ⟨_, h2⟩) <;> omega
    · simp only [if_true, List.mem_range'_1, iff_true]
      exact .inr (.inl h)
  · rw [if_neg h]
    have h2 : v ∉ (if b then List.range' u n else []) := by
      cases b
      · simp
      · simpa [List.mem_range'_1] using h
    simp only [h2, false_or, List.contains_eq_mem, decide_eq_true_eq]
    constructor
    · rintro (h | h) <;> exact h.1
    · intro hv
      by_cases hu : v < u
      · exact .inl ⟨hv, hu⟩
      · exact .inr ⟨hv, by omega⟩

/-- A write of bytes leaves every poison bit as it was. -/
theorem memPoisoned_bytes (m : Mem) (k u n : Nat) (bs : List Byte) : memPoisoned (applyWr m (.bytes k bs)) u n = memPoisoned m u n := rfl

/-- The bytes read from a key on are the bytes at each key. -/
theorem memBytes_eq (m : Mem) (k n : Nat) (h : Memory.wf m = true) :
    memBytes m k n = (List.range n).map (fun i => memByte m (k + i)) := by
  have main : ∀ (n k : Nat) (l : List Host.Cell), (l.map Prod.fst).Pairwise (· < ·) → (∀ c ∈ l, k ≤ c.1) →
      fillFrom n k l = (List.range n).map (fun i => cellAt (k + i) l) := by
    intro n
    induction n with
    | zero => intros; simp [fillFrom]
    | succ n ih =>
      intro k l hp hk
      rw [List.range_succ_eq_map, List.map_cons, List.map_map]
      cases l with
      | nil =>
        rw [fillFrom, ih (k + 1) [] (by simp) (by simp)]
        rfl
      | cons c r =>
        rw [List.map_cons, List.pairwise_cons] at hp
        have hr : ∀ d ∈ r, c.1 < d.1 := fun d hd => hp.1 d.1 (List.mem_map_of_mem hd)
        have hck := hk c (by simp)
        rw [fillFrom]
        split
        · rename_i hc
          rw [ih (k + 1) r hp.2 (fun d hd => by have := hr d hd; omega)]
          congr 1
          · simp [cellAt, hc]
          · refine List.map_congr_left (fun i _ => ?_)
            have : c.1 ≠ k + (i + 1) := by omega
            simp only [Function.comp, Nat.succ_eq_add_one, cellAt, this, if_false]
            congr 1
            omega
        · rename_i hc
          rw [ih (k + 1) (c :: r) (by rw [List.map_cons, List.pairwise_cons]; exact hp) (fun d hd => by
            rcases List.mem_cons.1 hd with rfl | hd
            · omega
            · have := hr d hd
              omega)]
          congr 1
          · rw [cellAt_none]
            intro d hd
            rcases List.mem_cons.1 hd with rfl | hd
            · simpa using hc
            · have := hr d hd
              omega
          · refine List.map_congr_left (fun i _ => ?_)
            simp only [Function.comp, Nat.succ_eq_add_one]
            congr 1
            omega
  have hw := (Memory.wf_iff m).1 h
  rw [memBytes, main]
  · refine List.map_congr_left (fun i hi => ?_)
    rw [memByte, cellAt_filter]
    intro c hc
    have := List.mem_range.1 hi
    simp only [Bool.and_eq_true, decide_eq_true_eq]
    omega
  · have h2 := hw.1
    rw [List.pairwise_map] at h2 ⊢
    exact h2.filter _
  · intro c hc
    have := (List.mem_filter.1 hc).2
    simp only [Bool.and_eq_true, decide_eq_true_eq] at this
    exact this.1

theorem memBytes_length (m : Mem) (k n : Nat) : (memBytes m k n).length = n := by
  have main : ∀ (n k : Nat) (l : List Host.Cell), (fillFrom n k l).length = n := by
    intro n
    induction n with
    | zero => intros; rfl
    | succ n ih =>
      intro k l
      cases l with
      | nil => simp [fillFrom, ih]
      | cons c r =>
        rw [fillFrom]
        split <;> simp [ih]
  exact main _ _ _

end Sys2Proof.Machine
end

