-- ==== Sys2Proof/Laws/State.lean ====
section
/-!
SUPPORT. What each shared update of the state leaves in each field, and what each kind of effect can do, said once.
-/

namespace Sys2Proof.Machine

/-! ### `Core.emit` -/

@[simp] theorem Core.emit_ident (c : Core) (o : Out) : (c.emit o).ident = c.ident := rfl
@[simp] theorem Core.emit_clk (c : Core) (o : Out) : (c.emit o).clk = c.clk := rfl
@[simp] theorem Core.emit_parts (c : Core) (o : Out) : (c.emit o).parts = c.parts := rfl
@[simp] theorem Core.emit_csSlots (c : Core) (o : Out) : (c.emit o).csSlots = c.csSlots := rfl
@[simp] theorem Core.emit_plans (c : Core) (o : Out) : (c.emit o).plans = c.plans := rfl
@[simp] theorem Core.emit_jobs (c : Core) (o : Out) : (c.emit o).jobs = c.jobs := rfl
@[simp] theorem Core.emit_log (c : Core) (o : Out) : (c.emit o).log = c.log := rfl
@[simp] theorem Core.emit_gens (c : Core) (o : Out) : (c.emit o).gens = c.gens := rfl
@[simp] theorem Core.emit_leases (c : Core) (o : Out) : (c.emit o).leases = c.leases := rfl
@[simp] theorem Core.emit_commonsLines (c : Core) (o : Out) : (c.emit o).commonsLines = c.commonsLines := rfl
@[simp] theorem Core.emit_tens (c : Core) (o : Out) : (c.emit o).tens = c.tens := rfl
@[simp] theorem Core.emit_accepted (c : Core) (o : Out) : (c.emit o).accepted = c.accepted := rfl
@[simp] theorem Core.emit_health (c : Core) (o : Out) : (c.emit o).health = c.health := rfl
@[simp] theorem Core.emit_fab (c : Core) (o : Out) : (c.emit o).fab = c.fab := rfl
@[simp] theorem Core.emit_led (c : Core) (o : Out) : (c.emit o).led = c.led := rfl
@[simp] theorem Core.emit_spool (c : Core) (o : Out) : (c.emit o).spool = c.spool := rfl
@[simp] theorem Core.emit_rst (c : Core) (o : Out) : (c.emit o).rst = c.rst := rfl
@[simp] theorem Core.emit_resetReplies (c : Core) (o : Out) : (c.emit o).resetReplies = c.resetReplies := rfl
@[simp] theorem Core.emit_nonce (c : Core) (o : Out) : (c.emit o).nonce = c.nonce := rfl
@[simp] theorem Core.emit_out (c : Core) (o : Out) : (c.emit o).out = c.out ++ [o] := rfl

/-! ### `Core.modPart` -/

@[simp] theorem Core.modPart_ident (c : Core) (p : Nat) (f : Part → Part) : (c.modPart p f).ident = c.ident := rfl
@[simp] theorem Core.modPart_clk (c : Core) (p : Nat) (f : Part → Part) : (c.modPart p f).clk = c.clk := rfl
@[simp] theorem Core.modPart_parts (c : Core) (p : Nat) (f : Part → Part) : (c.modPart p f).parts = modAt c.parts p f := rfl
@[simp] theorem Core.modPart_csSlots (c : Core) (p : Nat) (f : Part → Part) : (c.modPart p f).csSlots = c.csSlots := rfl
@[simp] theorem Core.modPart_plans (c : Core) (p : Nat) (f : Part → Part) : (c.modPart p f).plans = c.plans := rfl
@[simp] theorem Core.modPart_jobs (c : Core) (p : Nat) (f : Part → Part) : (c.modPart p f).jobs = c.jobs := rfl
@[simp] theorem Core.modPart_log (c : Core) (p : Nat) (f : Part → Part) : (c.modPart p f).log = c.log := rfl
@[simp] theorem Core.modPart_gens (c : Core) (p : Nat) (f : Part → Part) : (c.modPart p f).gens = c.gens := rfl
@[simp] theorem Core.modPart_leases (c : Core) (p : Nat) (f : Part → Part) : (c.modPart p f).leases = c.leases := rfl
@[simp] theorem Core.modPart_commonsLines (c : Core) (p : Nat) (f : Part → Part) : (c.modPart p f).commonsLines = c.commonsLines := rfl
@[simp] theorem Core.modPart_tens (c : Core) (p : Nat) (f : Part → Part) : (c.modPart p f).tens = c.tens := rfl
@[simp] theorem Core.modPart_accepted (c : Core) (p : Nat) (f : Part → Part) : (c.modPart p f).accepted = c.accepted := rfl
@[simp] theorem Core.modPart_health (c : Core) (p : Nat) (f : Part → Part) : (c.modPart p f).health = c.health := rfl
@[simp] theorem Core.modPart_fab (c : Core) (p : Nat) (f : Part → Part) : (c.modPart p f).fab = c.fab := rfl
@[simp] theorem Core.modPart_led (c : Core) (p : Nat) (f : Part → Part) : (c.modPart p f).led = c.led := rfl
@[simp] theorem Core.modPart_spool (c : Core) (p : Nat) (f : Part → Part) : (c.modPart p f).spool = c.spool := rfl
@[simp] theorem Core.modPart_rst (c : Core) (p : Nat) (f : Part → Part) : (c.modPart p f).rst = c.rst := rfl
@[simp] theorem Core.modPart_resetReplies (c : Core) (p : Nat) (f : Part → Part) : (c.modPart p f).resetReplies = c.resetReplies := rfl
@[simp] theorem Core.modPart_nonce (c : Core) (p : Nat) (f : Part → Part) : (c.modPart p f).nonce = c.nonce := rfl
@[simp] theorem Core.modPart_out (c : Core) (p : Nat) (f : Part → Part) : (c.modPart p f).out = c.out := rfl

/-! ### `Core.modMx` -/

@[simp] theorem Core.modMx_ident (c : Core) (p : Nat) (f : MxPart → MxPart) : (c.modMx p f).ident = c.ident := rfl
@[simp] theorem Core.modMx_clk (c : Core) (p : Nat) (f : MxPart → MxPart) : (c.modMx p f).clk = c.clk := rfl
@[simp] theorem Core.modMx_parts (c : Core) (p : Nat) (f : MxPart → MxPart) : (c.modMx p f).parts = modAt c.parts p (fun q => { q with mx := f q.mx }) := rfl
@[simp] theorem Core.modMx_csSlots (c : Core) (p : Nat) (f : MxPart → MxPart) : (c.modMx p f).csSlots = c.csSlots := rfl
@[simp] theorem Core.modMx_plans (c : Core) (p : Nat) (f : MxPart → MxPart) : (c.modMx p f).plans = c.plans := rfl
@[simp] theorem Core.modMx_jobs (c : Core) (p : Nat) (f : MxPart → MxPart) : (c.modMx p f).jobs = c.jobs := rfl
@[simp] theorem Core.modMx_log (c : Core) (p : Nat) (f : MxPart → MxPart) : (c.modMx p f).log = c.log := rfl
@[simp] theorem Core.modMx_gens (c : Core) (p : Nat) (f : MxPart → MxPart) : (c.modMx p f).gens = c.gens := rfl
@[simp] theorem Core.modMx_leases (c : Core) (p : Nat) (f : MxPart → MxPart) : (c.modMx p f).leases = c.leases := rfl
@[simp] theorem Core.modMx_commonsLines (c : Core) (p : Nat) (f : MxPart → MxPart) : (c.modMx p f).commonsLines = c.commonsLines := rfl
@[simp] theorem Core.modMx_tens (c : Core) (p : Nat) (f : MxPart → MxPart) : (c.modMx p f).tens = c.tens := rfl
@[simp] theorem Core.modMx_accepted (c : Core) (p : Nat) (f : MxPart → MxPart) : (c.modMx p f).accepted = c.accepted := rfl
@[simp] theorem Core.modMx_health (c : Core) (p : Nat) (f : MxPart → MxPart) : (c.modMx p f).health = c.health := rfl
@[simp] theorem Core.modMx_fab (c : Core) (p : Nat) (f : MxPart → MxPart) : (c.modMx p f).fab = c.fab := rfl
@[simp] theorem Core.modMx_led (c : Core) (p : Nat) (f : MxPart → MxPart) : (c.modMx p f).led = c.led := rfl
@[simp] theorem Core.modMx_spool (c : Core) (p : Nat) (f : MxPart → MxPart) : (c.modMx p f).spool = c.spool := rfl
@[simp] theorem Core.modMx_rst (c : Core) (p : Nat) (f : MxPart → MxPart) : (c.modMx p f).rst = c.rst := rfl
@[simp] theorem Core.modMx_resetReplies (c : Core) (p : Nat) (f : MxPart → MxPart) : (c.modMx p f).resetReplies = c.resetReplies := rfl
@[simp] theorem Core.modMx_nonce (c : Core) (p : Nat) (f : MxPart → MxPart) : (c.modMx p f).nonce = c.nonce := rfl
@[simp] theorem Core.modMx_out (c : Core) (p : Nat) (f : MxPart → MxPart) : (c.modMx p f).out = c.out := rfl

/-! ### `Core.modStreams` -/

@[simp] theorem Core.modStreams_ident (c : Core) (p : Nat) (f : StreamPart → StreamPart) : (c.modStreams p f).ident = c.ident := rfl
@[simp] theorem Core.modStreams_clk (c : Core) (p : Nat) (f : StreamPart → StreamPart) : (c.modStreams p f).clk = c.clk := rfl
@[simp] theorem Core.modStreams_parts (c : Core) (p : Nat) (f : StreamPart → StreamPart) : (c.modStreams p f).parts = modAt c.parts p (fun q => { q with streams := f q.streams }) := rfl
@[simp] theorem Core.modStreams_csSlots (c : Core) (p : Nat) (f : StreamPart → StreamPart) : (c.modStreams p f).csSlots = c.csSlots := rfl
@[simp] theorem Core.modStreams_plans (c : Core) (p : Nat) (f : StreamPart → StreamPart) : (c.modStreams p f).plans = c.plans := rfl
@[simp] theorem Core.modStreams_jobs (c : Core) (p : Nat) (f : StreamPart → StreamPart) : (c.modStreams p f).jobs = c.jobs := rfl
@[simp] theorem Core.modStreams_log (c : Core) (p : Nat) (f : StreamPart → StreamPart) : (c.modStreams p f).log = c.log := rfl
@[simp] theorem Core.modStreams_gens (c : Core) (p : Nat) (f : StreamPart → StreamPart) : (c.modStreams p f).gens = c.gens := rfl
@[simp] theorem Core.modStreams_leases (c : Core) (p : Nat) (f : StreamPart → StreamPart) : (c.modStreams p f).leases = c.leases := rfl
@[simp] theorem Core.modStreams_commonsLines (c : Core) (p : Nat) (f : StreamPart → StreamPart) : (c.modStreams p f).commonsLines = c.commonsLines := rfl
@[simp] theorem Core.modStreams_tens (c : Core) (p : Nat) (f : StreamPart → StreamPart) : (c.modStreams p f).tens = c.tens := rfl
@[simp] theorem Core.modStreams_accepted (c : Core) (p : Nat) (f : StreamPart → StreamPart) : (c.modStreams p f).accepted = c.accepted := rfl
@[simp] theorem Core.modStreams_health (c : Core) (p : Nat) (f : StreamPart → StreamPart) : (c.modStreams p f).health = c.health := rfl
@[simp] theorem Core.modStreams_fab (c : Core) (p : Nat) (f : StreamPart → StreamPart) : (c.modStreams p f).fab = c.fab := rfl
@[simp] theorem Core.modStreams_led (c : Core) (p : Nat) (f : StreamPart → StreamPart) : (c.modStreams p f).led = c.led := rfl
@[simp] theorem Core.modStreams_spool (c : Core) (p : Nat) (f : StreamPart → StreamPart) : (c.modStreams p f).spool = c.spool := rfl
@[simp] theorem Core.modStreams_rst (c : Core) (p : Nat) (f : StreamPart → StreamPart) : (c.modStreams p f).rst = c.rst := rfl
@[simp] theorem Core.modStreams_resetReplies (c : Core) (p : Nat) (f : StreamPart → StreamPart) : (c.modStreams p f).resetReplies = c.resetReplies := rfl
@[simp] theorem Core.modStreams_nonce (c : Core) (p : Nat) (f : StreamPart → StreamPart) : (c.modStreams p f).nonce = c.nonce := rfl
@[simp] theorem Core.modStreams_out (c : Core) (p : Nat) (f : StreamPart → StreamPart) : (c.modStreams p f).out = c.out := rfl

/-! ### `Core.modSlots` -/

@[simp] theorem Core.modSlots_ident (c : Core) (p : Nat) (f : SlotPart → SlotPart) : (c.modSlots p f).ident = c.ident := rfl
@[simp] theorem Core.modSlots_clk (c : Core) (p : Nat) (f : SlotPart → SlotPart) : (c.modSlots p f).clk = c.clk := rfl
@[simp] theorem Core.modSlots_parts (c : Core) (p : Nat) (f : SlotPart → SlotPart) : (c.modSlots p f).parts = modAt c.parts p (fun q => { q with slots := f q.slots }) := rfl
@[simp] theorem Core.modSlots_csSlots (c : Core) (p : Nat) (f : SlotPart → SlotPart) : (c.modSlots p f).csSlots = c.csSlots := rfl
@[simp] theorem Core.modSlots_plans (c : Core) (p : Nat) (f : SlotPart → SlotPart) : (c.modSlots p f).plans = c.plans := rfl
@[simp] theorem Core.modSlots_jobs (c : Core) (p : Nat) (f : SlotPart → SlotPart) : (c.modSlots p f).jobs = c.jobs := rfl
@[simp] theorem Core.modSlots_log (c : Core) (p : Nat) (f : SlotPart → SlotPart) : (c.modSlots p f).log = c.log := rfl
@[simp] theorem Core.modSlots_gens (c : Core) (p : Nat) (f : SlotPart → SlotPart) : (c.modSlots p f).gens = c.gens := rfl
@[simp] theorem Core.modSlots_leases (c : Core) (p : Nat) (f : SlotPart → SlotPart) : (c.modSlots p f).leases = c.leases := rfl
@[simp] theorem Core.modSlots_commonsLines (c : Core) (p : Nat) (f : SlotPart → SlotPart) : (c.modSlots p f).commonsLines = c.commonsLines := rfl
@[simp] theorem Core.modSlots_tens (c : Core) (p : Nat) (f : SlotPart → SlotPart) : (c.modSlots p f).tens = c.tens := rfl
@[simp] theorem Core.modSlots_accepted (c : Core) (p : Nat) (f : SlotPart → SlotPart) : (c.modSlots p f).accepted = c.accepted := rfl
@[simp] theorem Core.modSlots_health (c : Core) (p : Nat) (f : SlotPart → SlotPart) : (c.modSlots p f).health = c.health := rfl
@[simp] theorem Core.modSlots_fab (c : Core) (p : Nat) (f : SlotPart → SlotPart) : (c.modSlots p f).fab = c.fab := rfl
@[simp] theorem Core.modSlots_led (c : Core) (p : Nat) (f : SlotPart → SlotPart) : (c.modSlots p f).led = c.led := rfl
@[simp] theorem Core.modSlots_spool (c : Core) (p : Nat) (f : SlotPart → SlotPart) : (c.modSlots p f).spool = c.spool := rfl
@[simp] theorem Core.modSlots_rst (c : Core) (p : Nat) (f : SlotPart → SlotPart) : (c.modSlots p f).rst = c.rst := rfl
@[simp] theorem Core.modSlots_resetReplies (c : Core) (p : Nat) (f : SlotPart → SlotPart) : (c.modSlots p f).resetReplies = c.resetReplies := rfl
@[simp] theorem Core.modSlots_nonce (c : Core) (p : Nat) (f : SlotPart → SlotPart) : (c.modSlots p f).nonce = c.nonce := rfl
@[simp] theorem Core.modSlots_out (c : Core) (p : Nat) (f : SlotPart → SlotPart) : (c.modSlots p f).out = c.out := rfl

/-! ### `Core.modMem` -/

@[simp] theorem Core.modMem_ident (c : Core) (p : Nat) (f : MemPart → MemPart) : (c.modMem p f).ident = c.ident := rfl
@[simp] theorem Core.modMem_clk (c : Core) (p : Nat) (f : MemPart → MemPart) : (c.modMem p f).clk = c.clk := rfl
@[simp] theorem Core.modMem_parts (c : Core) (p : Nat) (f : MemPart → MemPart) : (c.modMem p f).parts = modAt c.parts p (fun q => { q with memp := f q.memp }) := rfl
@[simp] theorem Core.modMem_csSlots (c : Core) (p : Nat) (f : MemPart → MemPart) : (c.modMem p f).csSlots = c.csSlots := rfl
@[simp] theorem Core.modMem_plans (c : Core) (p : Nat) (f : MemPart → MemPart) : (c.modMem p f).plans = c.plans := rfl
@[simp] theorem Core.modMem_jobs (c : Core) (p : Nat) (f : MemPart → MemPart) : (c.modMem p f).jobs = c.jobs := rfl
@[simp] theorem Core.modMem_log (c : Core) (p : Nat) (f : MemPart → MemPart) : (c.modMem p f).log = c.log := rfl
@[simp] theorem Core.modMem_gens (c : Core) (p : Nat) (f : MemPart → MemPart) : (c.modMem p f).gens = c.gens := rfl
@[simp] theorem Core.modMem_leases (c : Core) (p : Nat) (f : MemPart → MemPart) : (c.modMem p f).leases = c.leases := rfl
@[simp] theorem Core.modMem_commonsLines (c : Core) (p : Nat) (f : MemPart → MemPart) : (c.modMem p f).commonsLines = c.commonsLines := rfl
@[simp] theorem Core.modMem_tens (c : Core) (p : Nat) (f : MemPart → MemPart) : (c.modMem p f).tens = c.tens := rfl
@[simp] theorem Core.modMem_accepted (c : Core) (p : Nat) (f : MemPart → MemPart) : (c.modMem p f).accepted = c.accepted := rfl
@[simp] theorem Core.modMem_health (c : Core) (p : Nat) (f : MemPart → MemPart) : (c.modMem p f).health = c.health := rfl
@[simp] theorem Core.modMem_fab (c : Core) (p : Nat) (f : MemPart → MemPart) : (c.modMem p f).fab = c.fab := rfl
@[simp] theorem Core.modMem_led (c : Core) (p : Nat) (f : MemPart → MemPart) : (c.modMem p f).led = c.led := rfl
@[simp] theorem Core.modMem_spool (c : Core) (p : Nat) (f : MemPart → MemPart) : (c.modMem p f).spool = c.spool := rfl
@[simp] theorem Core.modMem_rst (c : Core) (p : Nat) (f : MemPart → MemPart) : (c.modMem p f).rst = c.rst := rfl
@[simp] theorem Core.modMem_resetReplies (c : Core) (p : Nat) (f : MemPart → MemPart) : (c.modMem p f).resetReplies = c.resetReplies := rfl
@[simp] theorem Core.modMem_nonce (c : Core) (p : Nat) (f : MemPart → MemPart) : (c.modMem p f).nonce = c.nonce := rfl
@[simp] theorem Core.modMem_out (c : Core) (p : Nat) (f : MemPart → MemPart) : (c.modMem p f).out = c.out := rfl

/-! ### `Core.modCores` -/

@[simp] theorem Core.modCores_ident (c : Core) (p : Nat) (f : CorePart → CorePart) : (c.modCores p f).ident = c.ident := rfl
@[simp] theorem Core.modCores_clk (c : Core) (p : Nat) (f : CorePart → CorePart) : (c.modCores p f).clk = c.clk := rfl
@[simp] theorem Core.modCores_parts (c : Core) (p : Nat) (f : CorePart → CorePart) : (c.modCores p f).parts = modAt c.parts p (fun q => { q with cores := f q.cores }) := rfl
@[simp] theorem Core.modCores_csSlots (c : Core) (p : Nat) (f : CorePart → CorePart) : (c.modCores p f).csSlots = c.csSlots := rfl
@[simp] theorem Core.modCores_plans (c : Core) (p : Nat) (f : CorePart → CorePart) : (c.modCores p f).plans = c.plans := rfl
@[simp] theorem Core.modCores_jobs (c : Core) (p : Nat) (f : CorePart → CorePart) : (c.modCores p f).jobs = c.jobs := rfl
@[simp] theorem Core.modCores_log (c : Core) (p : Nat) (f : CorePart → CorePart) : (c.modCores p f).log = c.log := rfl
@[simp] theorem Core.modCores_gens (c : Core) (p : Nat) (f : CorePart → CorePart) : (c.modCores p f).gens = c.gens := rfl
@[simp] theorem Core.modCores_leases (c : Core) (p : Nat) (f : CorePart → CorePart) : (c.modCores p f).leases = c.leases := rfl
@[simp] theorem Core.modCores_commonsLines (c : Core) (p : Nat) (f : CorePart → CorePart) : (c.modCores p f).commonsLines = c.commonsLines := rfl
@[simp] theorem Core.modCores_tens (c : Core) (p : Nat) (f : CorePart → CorePart) : (c.modCores p f).tens = c.tens := rfl
@[simp] theorem Core.modCores_accepted (c : Core) (p : Nat) (f : CorePart → CorePart) : (c.modCores p f).accepted = c.accepted := rfl
@[simp] theorem Core.modCores_health (c : Core) (p : Nat) (f : CorePart → CorePart) : (c.modCores p f).health = c.health := rfl
@[simp] theorem Core.modCores_fab (c : Core) (p : Nat) (f : CorePart → CorePart) : (c.modCores p f).fab = c.fab := rfl
@[simp] theorem Core.modCores_led (c : Core) (p : Nat) (f : CorePart → CorePart) : (c.modCores p f).led = c.led := rfl
@[simp] theorem Core.modCores_spool (c : Core) (p : Nat) (f : CorePart → CorePart) : (c.modCores p f).spool = c.spool := rfl
@[simp] theorem Core.modCores_rst (c : Core) (p : Nat) (f : CorePart → CorePart) : (c.modCores p f).rst = c.rst := rfl
@[simp] theorem Core.modCores_resetReplies (c : Core) (p : Nat) (f : CorePart → CorePart) : (c.modCores p f).resetReplies = c.resetReplies := rfl
@[simp] theorem Core.modCores_nonce (c : Core) (p : Nat) (f : CorePart → CorePart) : (c.modCores p f).nonce = c.nonce := rfl
@[simp] theorem Core.modCores_out (c : Core) (p : Nat) (f : CorePart → CorePart) : (c.modCores p f).out = c.out := rfl

/-! ### `Core.modTen` -/

@[simp] theorem Core.modTen_ident (c : Core) (t : Nat) (f : Ten → Ten) : (c.modTen t f).ident = c.ident := rfl
@[simp] theorem Core.modTen_clk (c : Core) (t : Nat) (f : Ten → Ten) : (c.modTen t f).clk = c.clk := rfl
@[simp] theorem Core.modTen_parts (c : Core) (t : Nat) (f : Ten → Ten) : (c.modTen t f).parts = c.parts := rfl
@[simp] theorem Core.modTen_csSlots (c : Core) (t : Nat) (f : Ten → Ten) : (c.modTen t f).csSlots = c.csSlots := rfl
@[simp] theorem Core.modTen_plans (c : Core) (t : Nat) (f : Ten → Ten) : (c.modTen t f).plans = c.plans := rfl
@[simp] theorem Core.modTen_jobs (c : Core) (t : Nat) (f : Ten → Ten) : (c.modTen t f).jobs = c.jobs := rfl
@[simp] theorem Core.modTen_log (c : Core) (t : Nat) (f : Ten → Ten) : (c.modTen t f).log = c.log := rfl
@[simp] theorem Core.modTen_gens (c : Core) (t : Nat) (f : Ten → Ten) : (c.modTen t f).gens = c.gens := rfl
@[simp] theorem Core.modTen_leases (c : Core) (t : Nat) (f : Ten → Ten) : (c.modTen t f).leases = c.leases := rfl
@[simp] theorem Core.modTen_commonsLines (c : Core) (t : Nat) (f : Ten → Ten) : (c.modTen t f).commonsLines = c.commonsLines := rfl
@[simp] theorem Core.modTen_tens (c : Core) (t : Nat) (f : Ten → Ten) : (c.modTen t f).tens = insertKey t (f (c.ten t)) c.tens := rfl
@[simp] theorem Core.modTen_accepted (c : Core) (t : Nat) (f : Ten → Ten) : (c.modTen t f).accepted = c.accepted := rfl
@[simp] theorem Core.modTen_health (c : Core) (t : Nat) (f : Ten → Ten) : (c.modTen t f).health = c.health := rfl
@[simp] theorem Core.modTen_fab (c : Core) (t : Nat) (f : Ten → Ten) : (c.modTen t f).fab = c.fab := rfl
@[simp] theorem Core.modTen_led (c : Core) (t : Nat) (f : Ten → Ten) : (c.modTen t f).led = c.led := rfl
@[simp] theorem Core.modTen_spool (c : Core) (t : Nat) (f : Ten → Ten) : (c.modTen t f).spool = c.spool := rfl
@[simp] theorem Core.modTen_rst (c : Core) (t : Nat) (f : Ten → Ten) : (c.modTen t f).rst = c.rst := rfl
@[simp] theorem Core.modTen_resetReplies (c : Core) (t : Nat) (f : Ten → Ten) : (c.modTen t f).resetReplies = c.resetReplies := rfl
@[simp] theorem Core.modTen_nonce (c : Core) (t : Nat) (f : Ten → Ten) : (c.modTen t f).nonce = c.nonce := rfl
@[simp] theorem Core.modTen_out (c : Core) (t : Nat) (f : Ten → Ten) : (c.modTen t f).out = c.out := rfl

/-! ### `Core.modJob` -/

@[simp] theorem Core.modJob_ident (c : Core) (h : Nat) (f : Job → Job) : (c.modJob h f).ident = c.ident := rfl
@[simp] theorem Core.modJob_clk (c : Core) (h : Nat) (f : Job → Job) : (c.modJob h f).clk = c.clk := rfl
@[simp] theorem Core.modJob_parts (c : Core) (h : Nat) (f : Job → Job) : (c.modJob h f).parts = c.parts := rfl
@[simp] theorem Core.modJob_csSlots (c : Core) (h : Nat) (f : Job → Job) : (c.modJob h f).csSlots = c.csSlots := rfl
@[simp] theorem Core.modJob_plans (c : Core) (h : Nat) (f : Job → Job) : (c.modJob h f).plans = c.plans := rfl
@[simp] theorem Core.modJob_jobs (c : Core) (h : Nat) (f : Job → Job) : (c.modJob h f).jobs = c.jobs.map (fun j => if j.plan == h then f j else j) := rfl
@[simp] theorem Core.modJob_log (c : Core) (h : Nat) (f : Job → Job) : (c.modJob h f).log = c.log := rfl
@[simp] theorem Core.modJob_gens (c : Core) (h : Nat) (f : Job → Job) : (c.modJob h f).gens = c.gens := rfl
@[simp] theorem Core.modJob_leases (c : Core) (h : Nat) (f : Job → Job) : (c.modJob h f).leases = c.leases := rfl
@[simp] theorem Core.modJob_commonsLines (c : Core) (h : Nat) (f : Job → Job) : (c.modJob h f).commonsLines = c.commonsLines := rfl
@[simp] theorem Core.modJob_tens (c : Core) (h : Nat) (f : Job → Job) : (c.modJob h f).tens = c.tens := rfl
@[simp] theorem Core.modJob_accepted (c : Core) (h : Nat) (f : Job → Job) : (c.modJob h f).accepted = c.accepted := rfl
@[simp] theorem Core.modJob_health (c : Core) (h : Nat) (f : Job → Job) : (c.modJob h f).health = c.health := rfl
@[simp] theorem Core.modJob_fab (c : Core) (h : Nat) (f : Job → Job) : (c.modJob h f).fab = c.fab := rfl
@[simp] theorem Core.modJob_led (c : Core) (h : Nat) (f : Job → Job) : (c.modJob h f).led = c.led := rfl
@[simp] theorem Core.modJob_spool (c : Core) (h : Nat) (f : Job → Job) : (c.modJob h f).spool = c.spool := rfl
@[simp] theorem Core.modJob_rst (c : Core) (h : Nat) (f : Job → Job) : (c.modJob h f).rst = c.rst := rfl
@[simp] theorem Core.modJob_resetReplies (c : Core) (h : Nat) (f : Job → Job) : (c.modJob h f).resetReplies = c.resetReplies := rfl
@[simp] theorem Core.modJob_nonce (c : Core) (h : Nat) (f : Job → Job) : (c.modJob h f).nonce = c.nonce := rfl
@[simp] theorem Core.modJob_out (c : Core) (h : Nat) (f : Job → Job) : (c.modJob h f).out = c.out := rfl

/-! ### `Core.modPlan` -/

@[simp] theorem Core.modPlan_ident (c : Core) (h : Nat) (f : Plan → Plan) : (c.modPlan h f).ident = c.ident := rfl
@[simp] theorem Core.modPlan_clk (c : Core) (h : Nat) (f : Plan → Plan) : (c.modPlan h f).clk = c.clk := rfl
@[simp] theorem Core.modPlan_parts (c : Core) (h : Nat) (f : Plan → Plan) : (c.modPlan h f).parts = c.parts := rfl
@[simp] theorem Core.modPlan_csSlots (c : Core) (h : Nat) (f : Plan → Plan) : (c.modPlan h f).csSlots = c.csSlots := rfl
@[simp] theorem Core.modPlan_plans (c : Core) (h : Nat) (f : Plan → Plan) : (c.modPlan h f).plans = c.plans.map (fun p => if p.handle == h then f p else p) := rfl
@[simp] theorem Core.modPlan_jobs (c : Core) (h : Nat) (f : Plan → Plan) : (c.modPlan h f).jobs = c.jobs := rfl
@[simp] theorem Core.modPlan_log (c : Core) (h : Nat) (f : Plan → Plan) : (c.modPlan h f).log = c.log := rfl
@[simp] theorem Core.modPlan_gens (c : Core) (h : Nat) (f : Plan → Plan) : (c.modPlan h f).gens = c.gens := rfl
@[simp] theorem Core.modPlan_leases (c : Core) (h : Nat) (f : Plan → Plan) : (c.modPlan h f).leases = c.leases := rfl
@[simp] theorem Core.modPlan_commonsLines (c : Core) (h : Nat) (f : Plan → Plan) : (c.modPlan h f).commonsLines = c.commonsLines := rfl
@[simp] theorem Core.modPlan_tens (c : Core) (h : Nat) (f : Plan → Plan) : (c.modPlan h f).tens = c.tens := rfl
@[simp] theorem Core.modPlan_accepted (c : Core) (h : Nat) (f : Plan → Plan) : (c.modPlan h f).accepted = c.accepted := rfl
@[simp] theorem Core.modPlan_health (c : Core) (h : Nat) (f : Plan → Plan) : (c.modPlan h f).health = c.health := rfl
@[simp] theorem Core.modPlan_fab (c : Core) (h : Nat) (f : Plan → Plan) : (c.modPlan h f).fab = c.fab := rfl
@[simp] theorem Core.modPlan_led (c : Core) (h : Nat) (f : Plan → Plan) : (c.modPlan h f).led = c.led := rfl
@[simp] theorem Core.modPlan_spool (c : Core) (h : Nat) (f : Plan → Plan) : (c.modPlan h f).spool = c.spool := rfl
@[simp] theorem Core.modPlan_rst (c : Core) (h : Nat) (f : Plan → Plan) : (c.modPlan h f).rst = c.rst := rfl
@[simp] theorem Core.modPlan_resetReplies (c : Core) (h : Nat) (f : Plan → Plan) : (c.modPlan h f).resetReplies = c.resetReplies := rfl
@[simp] theorem Core.modPlan_nonce (c : Core) (h : Nat) (f : Plan → Plan) : (c.modPlan h f).nonce = c.nonce := rfl
@[simp] theorem Core.modPlan_out (c : Core) (h : Nat) (f : Plan → Plan) : (c.modPlan h f).out = c.out := rfl

/-! ### `Core.modFab` -/

@[simp] theorem Core.modFab_ident (c : Core) (f : Fabric → Fabric) : (c.modFab f).ident = c.ident := rfl
@[simp] theorem Core.modFab_clk (c : Core) (f : Fabric → Fabric) : (c.modFab f).clk = c.clk := rfl
@[simp] theorem Core.modFab_parts (c : Core) (f : Fabric → Fabric) : (c.modFab f).parts = c.parts := rfl
@[simp] theorem Core.modFab_csSlots (c : Core) (f : Fabric → Fabric) : (c.modFab f).csSlots = c.csSlots := rfl
@[simp] theorem Core.modFab_plans (c : Core) (f : Fabric → Fabric) : (c.modFab f).plans = c.plans := rfl
@[simp] theorem Core.modFab_jobs (c : Core) (f : Fabric → Fabric) : (c.modFab f).jobs = c.jobs := rfl
@[simp] theorem Core.modFab_log (c : Core) (f : Fabric → Fabric) : (c.modFab f).log = c.log := rfl
@[simp] theorem Core.modFab_gens (c : Core) (f : Fabric → Fabric) : (c.modFab f).gens = c.gens := rfl
@[simp] theorem Core.modFab_leases (c : Core) (f : Fabric → Fabric) : (c.modFab f).leases = c.leases := rfl
@[simp] theorem Core.modFab_commonsLines (c : Core) (f : Fabric → Fabric) : (c.modFab f).commonsLines = c.commonsLines := rfl
@[simp] theorem Core.modFab_tens (c : Core) (f : Fabric → Fabric) : (c.modFab f).tens = c.tens := rfl
@[simp] theorem Core.modFab_accepted (c : Core) (f : Fabric → Fabric) : (c.modFab f).accepted = c.accepted := rfl
@[simp] theorem Core.modFab_health (c : Core) (f : Fabric → Fabric) : (c.modFab f).health = c.health := rfl
@[simp] theorem Core.modFab_fab (c : Core) (f : Fabric → Fabric) : (c.modFab f).fab = f c.fab := rfl
@[simp] theorem Core.modFab_led (c : Core) (f : Fabric → Fabric) : (c.modFab f).led = c.led := rfl
@[simp] theorem Core.modFab_spool (c : Core) (f : Fabric → Fabric) : (c.modFab f).spool = c.spool := rfl
@[simp] theorem Core.modFab_rst (c : Core) (f : Fabric → Fabric) : (c.modFab f).rst = c.rst := rfl
@[simp] theorem Core.modFab_resetReplies (c : Core) (f : Fabric → Fabric) : (c.modFab f).resetReplies = c.resetReplies := rfl
@[simp] theorem Core.modFab_nonce (c : Core) (f : Fabric → Fabric) : (c.modFab f).nonce = c.nonce := rfl
@[simp] theorem Core.modFab_out (c : Core) (f : Fabric → Fabric) : (c.modFab f).out = c.out := rfl

/-! ### `Core.modLed` -/

@[simp] theorem Core.modLed_ident (c : Core) (f : Ledger → Ledger) : (c.modLed f).ident = c.ident := rfl
@[simp] theorem Core.modLed_clk (c : Core) (f : Ledger → Ledger) : (c.modLed f).clk = c.clk := rfl
@[simp] theorem Core.modLed_parts (c : Core) (f : Ledger → Ledger) : (c.modLed f).parts = c.parts := rfl
@[simp] theorem Core.modLed_csSlots (c : Core) (f : Ledger → Ledger) : (c.modLed f).csSlots = c.csSlots := rfl
@[simp] theorem Core.modLed_plans (c : Core) (f : Ledger → Ledger) : (c.modLed f).plans = c.plans := rfl
@[simp] theorem Core.modLed_jobs (c : Core) (f : Ledger → Ledger) : (c.modLed f).jobs = c.jobs := rfl
@[simp] theorem Core.modLed_log (c : Core) (f : Ledger → Ledger) : (c.modLed f).log = c.log := rfl
@[simp] theorem Core.modLed_gens (c : Core) (f : Ledger → Ledger) : (c.modLed f).gens = c.gens := rfl
@[simp] theorem Core.modLed_leases (c : Core) (f : Ledger → Ledger) : (c.modLed f).leases = c.leases := rfl
@[simp] theorem Core.modLed_commonsLines (c : Core) (f : Ledger → Ledger) : (c.modLed f).commonsLines = c.commonsLines := rfl
@[simp] theorem Core.modLed_tens (c : Core) (f : Ledger → Ledger) : (c.modLed f).tens = c.tens := rfl
@[simp] theorem Core.modLed_accepted (c : Core) (f : Ledger → Ledger) : (c.modLed f).accepted = c.accepted := rfl
@[simp] theorem Core.modLed_health (c : Core) (f : Ledger → Ledger) : (c.modLed f).health = c.health := rfl
@[simp] theorem Core.modLed_fab (c : Core) (f : Ledger → Ledger) : (c.modLed f).fab = c.fab := rfl
@[simp] theorem Core.modLed_led (c : Core) (f : Ledger → Ledger) : (c.modLed f).led = f c.led := rfl
@[simp] theorem Core.modLed_spool (c : Core) (f : Ledger → Ledger) : (c.modLed f).spool = c.spool := rfl
@[simp] theorem Core.modLed_rst (c : Core) (f : Ledger → Ledger) : (c.modLed f).rst = c.rst := rfl
@[simp] theorem Core.modLed_resetReplies (c : Core) (f : Ledger → Ledger) : (c.modLed f).resetReplies = c.resetReplies := rfl
@[simp] theorem Core.modLed_nonce (c : Core) (f : Ledger → Ledger) : (c.modLed f).nonce = c.nonce := rfl
@[simp] theorem Core.modLed_out (c : Core) (f : Ledger → Ledger) : (c.modLed f).out = c.out := rfl

/-! ### `Core.modHealth` -/

@[simp] theorem Core.modHealth_ident (c : Core) (f : Health → Health) : (c.modHealth f).ident = c.ident := rfl
@[simp] theorem Core.modHealth_clk (c : Core) (f : Health → Health) : (c.modHealth f).clk = c.clk := rfl
@[simp] theorem Core.modHealth_parts (c : Core) (f : Health → Health) : (c.modHealth f).parts = c.parts := rfl
@[simp] theorem Core.modHealth_csSlots (c : Core) (f : Health → Health) : (c.modHealth f).csSlots = c.csSlots := rfl
@[simp] theorem Core.modHealth_plans (c : Core) (f : Health → Health) : (c.modHealth f).plans = c.plans := rfl
@[simp] theorem Core.modHealth_jobs (c : Core) (f : Health → Health) : (c.modHealth f).jobs = c.jobs := rfl
@[simp] theorem Core.modHealth_log (c : Core) (f : Health → Health) : (c.modHealth f).log = c.log := rfl
@[simp] theorem Core.modHealth_gens (c : Core) (f : Health → Health) : (c.modHealth f).gens = c.gens := rfl
@[simp] theorem Core.modHealth_leases (c : Core) (f : Health → Health) : (c.modHealth f).leases = c.leases := rfl
@[simp] theorem Core.modHealth_commonsLines (c : Core) (f : Health → Health) : (c.modHealth f).commonsLines = c.commonsLines := rfl
@[simp] theorem Core.modHealth_tens (c : Core) (f : Health → Health) : (c.modHealth f).tens = c.tens := rfl
@[simp] theorem Core.modHealth_accepted (c : Core) (f : Health → Health) : (c.modHealth f).accepted = c.accepted := rfl
@[simp] theorem Core.modHealth_health (c : Core) (f : Health → Health) : (c.modHealth f).health = f c.health := rfl
@[simp] theorem Core.modHealth_fab (c : Core) (f : Health → Health) : (c.modHealth f).fab = c.fab := rfl
@[simp] theorem Core.modHealth_led (c : Core) (f : Health → Health) : (c.modHealth f).led = c.led := rfl
@[simp] theorem Core.modHealth_spool (c : Core) (f : Health → Health) : (c.modHealth f).spool = c.spool := rfl
@[simp] theorem Core.modHealth_rst (c : Core) (f : Health → Health) : (c.modHealth f).rst = c.rst := rfl
@[simp] theorem Core.modHealth_resetReplies (c : Core) (f : Health → Health) : (c.modHealth f).resetReplies = c.resetReplies := rfl
@[simp] theorem Core.modHealth_nonce (c : Core) (f : Health → Health) : (c.modHealth f).nonce = c.nonce := rfl
@[simp] theorem Core.modHealth_out (c : Core) (f : Health → Health) : (c.modHealth f).out = c.out := rfl

/-! ### `Core.modLeases` -/

@[simp] theorem Core.modLeases_ident (c : Core) (f : Leases → Leases) : (c.modLeases f).ident = c.ident := rfl
@[simp] theorem Core.modLeases_clk (c : Core) (f : Leases → Leases) : (c.modLeases f).clk = c.clk := rfl
@[simp] theorem Core.modLeases_parts (c : Core) (f : Leases → Leases) : (c.modLeases f).parts = c.parts := rfl
@[simp] theorem Core.modLeases_csSlots (c : Core) (f : Leases → Leases) : (c.modLeases f).csSlots = c.csSlots := rfl
@[simp] theorem Core.modLeases_plans (c : Core) (f : Leases → Leases) : (c.modLeases f).plans = c.plans := rfl
@[simp] theorem Core.modLeases_jobs (c : Core) (f : Leases → Leases) : (c.modLeases f).jobs = c.jobs := rfl
@[simp] theorem Core.modLeases_log (c : Core) (f : Leases → Leases) : (c.modLeases f).log = c.log := rfl
@[simp] theorem Core.modLeases_gens (c : Core) (f : Leases → Leases) : (c.modLeases f).gens = c.gens := rfl
@[simp] theorem Core.modLeases_leases (c : Core) (f : Leases → Leases) : (c.modLeases f).leases = f c.leases := rfl
@[simp] theorem Core.modLeases_commonsLines (c : Core) (f : Leases → Leases) : (c.modLeases f).commonsLines = c.commonsLines := rfl
@[simp] theorem Core.modLeases_tens (c : Core) (f : Leases → Leases) : (c.modLeases f).tens = c.tens := rfl
@[simp] theorem Core.modLeases_accepted (c : Core) (f : Leases → Leases) : (c.modLeases f).accepted = c.accepted := rfl
@[simp] theorem Core.modLeases_health (c : Core) (f : Leases → Leases) : (c.modLeases f).health = c.health := rfl
@[simp] theorem Core.modLeases_fab (c : Core) (f : Leases → Leases) : (c.modLeases f).fab = c.fab := rfl
@[simp] theorem Core.modLeases_led (c : Core) (f : Leases → Leases) : (c.modLeases f).led = c.led := rfl
@[simp] theorem Core.modLeases_spool (c : Core) (f : Leases → Leases) : (c.modLeases f).spool = c.spool := rfl
@[simp] theorem Core.modLeases_rst (c : Core) (f : Leases → Leases) : (c.modLeases f).rst = c.rst := rfl
@[simp] theorem Core.modLeases_resetReplies (c : Core) (f : Leases → Leases) : (c.modLeases f).resetReplies = c.resetReplies := rfl
@[simp] theorem Core.modLeases_nonce (c : Core) (f : Leases → Leases) : (c.modLeases f).nonce = c.nonce := rfl
@[simp] theorem Core.modLeases_out (c : Core) (f : Leases → Leases) : (c.modLeases f).out = c.out := rfl

/-! ### `Core.modRst` -/

@[simp] theorem Core.modRst_ident (c : Core) (f : Rst → Rst) : (c.modRst f).ident = c.ident := rfl
@[simp] theorem Core.modRst_clk (c : Core) (f : Rst → Rst) : (c.modRst f).clk = c.clk := rfl
@[simp] theorem Core.modRst_parts (c : Core) (f : Rst → Rst) : (c.modRst f).parts = c.parts := rfl
@[simp] theorem Core.modRst_csSlots (c : Core) (f : Rst → Rst) : (c.modRst f).csSlots = c.csSlots := rfl
@[simp] theorem Core.modRst_plans (c : Core) (f : Rst → Rst) : (c.modRst f).plans = c.plans := rfl
@[simp] theorem Core.modRst_jobs (c : Core) (f : Rst → Rst) : (c.modRst f).jobs = c.jobs := rfl
@[simp] theorem Core.modRst_log (c : Core) (f : Rst → Rst) : (c.modRst f).log = c.log := rfl
@[simp] theorem Core.modRst_gens (c : Core) (f : Rst → Rst) : (c.modRst f).gens = c.gens := rfl
@[simp] theorem Core.modRst_leases (c : Core) (f : Rst → Rst) : (c.modRst f).leases = c.leases := rfl
@[simp] theorem Core.modRst_commonsLines (c : Core) (f : Rst → Rst) : (c.modRst f).commonsLines = c.commonsLines := rfl
@[simp] theorem Core.modRst_tens (c : Core) (f : Rst → Rst) : (c.modRst f).tens = c.tens := rfl
@[simp] theorem Core.modRst_accepted (c : Core) (f : Rst → Rst) : (c.modRst f).accepted = c.accepted := rfl
@[simp] theorem Core.modRst_health (c : Core) (f : Rst → Rst) : (c.modRst f).health = c.health := rfl
@[simp] theorem Core.modRst_fab (c : Core) (f : Rst → Rst) : (c.modRst f).fab = c.fab := rfl
@[simp] theorem Core.modRst_led (c : Core) (f : Rst → Rst) : (c.modRst f).led = c.led := rfl
@[simp] theorem Core.modRst_spool (c : Core) (f : Rst → Rst) : (c.modRst f).spool = c.spool := rfl
@[simp] theorem Core.modRst_rst (c : Core) (f : Rst → Rst) : (c.modRst f).rst = f c.rst := rfl
@[simp] theorem Core.modRst_resetReplies (c : Core) (f : Rst → Rst) : (c.modRst f).resetReplies = c.resetReplies := rfl
@[simp] theorem Core.modRst_nonce (c : Core) (f : Rst → Rst) : (c.modRst f).nonce = c.nonce := rfl
@[simp] theorem Core.modRst_out (c : Core) (f : Rst → Rst) : (c.modRst f).out = c.out := rfl

/-! ### `Core.modSpool` -/

@[simp] theorem Core.modSpool_ident (c : Core) (f : Spool → Spool) : (c.modSpool f).ident = c.ident := rfl
@[simp] theorem Core.modSpool_clk (c : Core) (f : Spool → Spool) : (c.modSpool f).clk = c.clk := rfl
@[simp] theorem Core.modSpool_parts (c : Core) (f : Spool → Spool) : (c.modSpool f).parts = c.parts := rfl
@[simp] theorem Core.modSpool_csSlots (c : Core) (f : Spool → Spool) : (c.modSpool f).csSlots = c.csSlots := rfl
@[simp] theorem Core.modSpool_plans (c : Core) (f : Spool → Spool) : (c.modSpool f).plans = c.plans := rfl
@[simp] theorem Core.modSpool_jobs (c : Core) (f : Spool → Spool) : (c.modSpool f).jobs = c.jobs := rfl
@[simp] theorem Core.modSpool_log (c : Core) (f : Spool → Spool) : (c.modSpool f).log = c.log := rfl
@[simp] theorem Core.modSpool_gens (c : Core) (f : Spool → Spool) : (c.modSpool f).gens = c.gens := rfl
@[simp] theorem Core.modSpool_leases (c : Core) (f : Spool → Spool) : (c.modSpool f).leases = c.leases := rfl
@[simp] theorem Core.modSpool_commonsLines (c : Core) (f : Spool → Spool) : (c.modSpool f).commonsLines = c.commonsLines := rfl
@[simp] theorem Core.modSpool_tens (c : Core) (f : Spool → Spool) : (c.modSpool f).tens = c.tens := rfl
@[simp] theorem Core.modSpool_accepted (c : Core) (f : Spool → Spool) : (c.modSpool f).accepted = c.accepted := rfl
@[simp] theorem Core.modSpool_health (c : Core) (f : Spool → Spool) : (c.modSpool f).health = c.health := rfl
@[simp] theorem Core.modSpool_fab (c : Core) (f : Spool → Spool) : (c.modSpool f).fab = c.fab := rfl
@[simp] theorem Core.modSpool_led (c : Core) (f : Spool → Spool) : (c.modSpool f).led = c.led := rfl
@[simp] theorem Core.modSpool_spool (c : Core) (f : Spool → Spool) : (c.modSpool f).spool = f c.spool := rfl
@[simp] theorem Core.modSpool_rst (c : Core) (f : Spool → Spool) : (c.modSpool f).rst = c.rst := rfl
@[simp] theorem Core.modSpool_resetReplies (c : Core) (f : Spool → Spool) : (c.modSpool f).resetReplies = c.resetReplies := rfl
@[simp] theorem Core.modSpool_nonce (c : Core) (f : Spool → Spool) : (c.modSpool f).nonce = c.nonce := rfl
@[simp] theorem Core.modSpool_out (c : Core) (f : Spool → Spool) : (c.modSpool f).out = c.out := rfl

/-! ### `Core.bumpGen` -/

@[simp] theorem Core.bumpGen_ident (c : Core) (r n : Nat) : (c.bumpGen r n).ident = c.ident := rfl
@[simp] theorem Core.bumpGen_clk (c : Core) (r n : Nat) : (c.bumpGen r n).clk = c.clk := rfl
@[simp] theorem Core.bumpGen_parts (c : Core) (r n : Nat) : (c.bumpGen r n).parts = c.parts := rfl
@[simp] theorem Core.bumpGen_csSlots (c : Core) (r n : Nat) : (c.bumpGen r n).csSlots = c.csSlots := rfl
@[simp] theorem Core.bumpGen_plans (c : Core) (r n : Nat) : (c.bumpGen r n).plans = c.plans := rfl
@[simp] theorem Core.bumpGen_jobs (c : Core) (r n : Nat) : (c.bumpGen r n).jobs = c.jobs := rfl
@[simp] theorem Core.bumpGen_log (c : Core) (r n : Nat) : (c.bumpGen r n).log = c.log := rfl
@[simp] theorem Core.bumpGen_gens (c : Core) (r n : Nat) : (c.bumpGen r n).gens = insertKey r (c.gen r + BitVec.ofNat 48 n) c.gens := rfl
@[simp] theorem Core.bumpGen_leases (c : Core) (r n : Nat) : (c.bumpGen r n).leases = c.leases := rfl
@[simp] theorem Core.bumpGen_commonsLines (c : Core) (r n : Nat) : (c.bumpGen r n).commonsLines = c.commonsLines := rfl
@[simp] theorem Core.bumpGen_tens (c : Core) (r n : Nat) : (c.bumpGen r n).tens = c.tens := rfl
@[simp] theorem Core.bumpGen_accepted (c : Core) (r n : Nat) : (c.bumpGen r n).accepted = c.accepted := rfl
@[simp] theorem Core.bumpGen_health (c : Core) (r n : Nat) : (c.bumpGen r n).health = c.health := rfl
@[simp] theorem Core.bumpGen_fab (c : Core) (r n : Nat) : (c.bumpGen r n).fab = c.fab := rfl
@[simp] theorem Core.bumpGen_led (c : Core) (r n : Nat) : (c.bumpGen r n).led = c.led := rfl
@[simp] theorem Core.bumpGen_spool (c : Core) (r n : Nat) : (c.bumpGen r n).spool = c.spool := rfl
@[simp] theorem Core.bumpGen_rst (c : Core) (r n : Nat) : (c.bumpGen r n).rst = c.rst := rfl
@[simp] theorem Core.bumpGen_resetReplies (c : Core) (r n : Nat) : (c.bumpGen r n).resetReplies = c.resetReplies := rfl
@[simp] theorem Core.bumpGen_nonce (c : Core) (r n : Nat) : (c.bumpGen r n).nonce = c.nonce := rfl
@[simp] theorem Core.bumpGen_out (c : Core) (r n : Nat) : (c.bumpGen r n).out = c.out := rfl

/-! ### Effects -/

@[simp] theorem Mach.up_core (m : Mach) (f : Core → Core) : (m.up f).core = f m.core := rfl
@[simp] theorem Mach.up_pwr (m : Mach) (f : Core → Core) : (m.up f).pwr = m.pwr := rfl
@[simp] theorem Mach.up_mem (m : Mach) (f : Core → Core) : (m.up f).mem = m.mem := rfl
@[simp] theorem Mach.up_wr (m : Mach) (f : Core → Core) : (m.up f).wr = m.wr := rfl
@[simp] theorem Mach.write_core (m : Mach) (w : Wr) : (m.write w).core = m.core := rfl
@[simp] theorem Mach.write_pwr (m : Mach) (w : Wr) : (m.write w).pwr = m.pwr := rfl
@[simp] theorem Mach.write_mem (m : Mach) (w : Wr) : (m.write w).mem = applyWr m.mem w := rfl
@[simp] theorem Mach.write_wr (m : Mach) (w : Wr) : (m.write w).wr = w :: m.wr := rfl

/-- An effect on the core alone: it answers a next state whose queue, power and memory are as before. -/
theorem runC_next {f : Power → Mem → Core → Core} {s t : State} (h : runC f s = .next t) :
    t.pending = s.pending ∧ t.pwr = s.pwr ∧ t.mem = s.mem ∧ t.core = f s.pwr s.mem { s.core with out := [] } := by
  cases h
  exact ⟨rfl, rfl, rfl, rfl⟩

/-- An effect on core and memory: it answers a next state whose queue and power are as before, and whose memory has its form when it had it. -/
theorem runM_next {f : Mach → Mach} {s t : State} (h : runM f s = .next t) :
    t.pending = s.pending ∧ t.pwr = s.pwr ∧ t.core = (f (startMach s)).core ∧ t.mem = applyWrs s.mem (f (startMach s)).wr.reverse ∧
      (Memory.wf s.mem = true → Memory.wf t.mem = true) := by
  cases h
  exact ⟨rfl, rfl, rfl, rfl, applyWrs_wf _⟩

/-- An effect on power, core and memory: it answers a next state whose queue is as before, and whose memory has its form when it had it. -/
theorem runP_next {g : Core → Power → Power} {f : Power → Mach → Mach} {s t : State} (h : runP g f s = .next t) :
    t.pending = s.pending ∧ t.pwr = g s.core s.pwr ∧ (Memory.wf s.mem = true → Memory.wf t.mem = true) := by
  cases h
  exact ⟨rfl, rfl, applyWrs_wf _⟩

/-! ### Association lists -/

theorem lookup?_insertKey_self {α β : Type} [BEq α] [LawfulBEq α] (k : α) (v : β) (l : List (α × β)) : lookup? k (insertKey k v l) = some v := by
  induction l with
  | nil => simp [insertKey, lookup?]
  | cons p r ih =>
    obtain ⟨k2, v2⟩ := p
    by_cases h : k2 == k
    · simp [insertKey, lookup?, h]
    · simp [insertKey, lookup?, h, ih]

theorem lookup?_insertKey_of_ne {α β : Type} [BEq α] [LawfulBEq α] {k k' : α} (v : β) (l : List (α × β)) (h : k ≠ k') :
    lookup? k' (insertKey k v l) = lookup? k' l := by
  induction l with
  | nil => simp [insertKey, lookup?, h]
  | cons p r ih =>
    obtain ⟨k2, v2⟩ := p
    by_cases h2 : k2 == k
    · have e : k2 = k := eq_of_beq h2
      subst e
      simp [insertKey, lookup?, h]
    · simp [insertKey, lookup?, h2, ih]

/-- The partition that was changed, and any other. -/
theorem Core.part_modPart (c : Core) (p q : Nat) (f : Part → Part) :
    (c.modPart p f).part q = if p = q ∧ q < c.parts.length then f (c.part q) else c.part q := by
  simp only [Core.part, Core.modPart_parts, modAt, List.getD_eq_getElem?_getD, List.getElem?_modify]
  by_cases h : p = q
  · subst h
    by_cases h2 : p < c.parts.length
    · simp [h2]
    · simp [h2]
  · simp [h]

end Sys2Proof.Machine
end

