-- ==== Sys2Proof/Laws/Issue.lean ====
section
/-!
SUPPORT. What an issuing station instruction does, said once.
-/

namespace Sys2Proof.Machine

theorem Core.job?_plan {c : Core} {h : Nat} {j : Job} (e : c.job? h = some j) : j.plan = h := by
  have := List.find?_some e
  simpa using this

/-- What a context holds. -/
theorem Mach.ctx_some {m : Mach} {st : Stn} {h : Hdr} {opc : Nat} {x : Ctx} (e : m.ctx st h opc = some x) :
    m.core.job? st.plan = some x.job ∧ m.core.plan? st.plan = some x.plan ∧ x.lsid = st.lsid ∧ x.opc = opc ∧ x.issue = h.issue.toNat := by
  unfold Mach.ctx at e
  split at e
  · rename_i p j hp hj
    split at e
    · split at e
      · cases e
        exact ⟨hj, hp, rfl, rfl, rfl⟩
      · cases e
    · cases e
  · cases e

/-- An instruction whose conditions hold runs. -/
theorem issueWith_runs {F : Type} {granted : Bool} {i : Instr} {st : Stn} {h : Hdr} {f : F} {opc : Nat} {sub : F → Nat → Option F}
    {spec : Mach → Ctx → F → StnSpec} {body : F → Ctx → Bool → Mach → Bool × Mach} {m : Mach} {x : Ctx} {tok : Option Token}
    (q : Issues m st h opc (spec (m.reach st.plan h.issue.toNat) x f) x tok) :
    issueWith granted i st h f opc sub spec body m =
      x.runStn st h (spec (m.reach st.plan h.issue.toNat) x f) tok (body f) (m.reach st.plan h.issue.toNat) := by
  obtain ⟨hj, hp, hl, ho, hi⟩ := Mach.ctx_some q.context
  have hg : m.giveBackTo st.plan x.job.sched x.issue = m := by
    simp [Mach.giveBackTo, hj, q.running]
  have htok : (if h.wait = true then m.core.headToken x.part h.inCh.toNat else none) = tok := q.token.symm
  have hs : ((m.reach st.plan h.issue.toNat).core.cyclesGiven (lsScode x.lsid) x.part (if lsScode x.lsid = 6 then x.die - 0x10 else x.inst)
      (x.job.actual x.issue) (x.job.actual x.issue + (spec (m.reach st.plan h.issue.toNat) x f).dur +
        max (boolNat h.post) (spec (m.reach st.plan h.issue.toNat) x f).after) x.tenant x.idleSlots) = true := q.slots
  have hr : x.operandsReady (spec (m.reach st.plan h.issue.toNat) x f) tok (m.reach st.plan h.issue.toNat).core = true := q.ready
  have ht : (if h.wait = true then (m.reach st.plan h.issue.toNat).core.headToken x.part h.inCh.toNat else none) = tok := htok
  have hm : (m.giveBackTo st.plan x.job.sched x.issue).up (fun c => c.modJob st.plan (fun j => { j with sched := max j.sched x.issue })) =
      m.reach st.plan h.issue.toNat := by rw [hg, hi]; rfl
  unfold issueWith
  simp only [q.context]
  rw [hm]
  simp only [q.unheld, List.isEmpty_nil, Bool.not_true, Bool.false_eq_true, if_false, hs, ht, q.direct, Bool.false_and, Option.isNone_some,
    Bool.or_self, hr, q.writable, q.ungranted]
  have hw : (h.wait && tok.isNone) = false := by
    cases hh : h.wait
    · rfl
    · have := q.waited hh
      cases tok <;> simp_all
  simp only [hw, Bool.false_eq_true, if_false]

end Sys2Proof.Machine
end

