-- ==== Sys2Proof/Laws/Units.lean ====
section
/-!
SUPPORT. Station memory units: where they lie, what a write of whole units leaves in memory, and that reading them back gives what was written.
-/

namespace Sys2Proof.Machine

theorem field_lt (n lo w : Nat) : field n lo w < 2 ^ w := Nat.mod_lt _ (by positivity)

theorem MemPart.bank_le (mp : MemPart) {l : Nat} (h : l < 32) : mp.bank l ≤ 32 := by
  unfold MemPart.bank
  split <;> omega

theorem MemPart.bank_inj (mp : MemPart) {l k : Nat} (hl : l < 32) (hk : k < 32) (h : mp.bank l = mp.bank k) : l = k := by
  unfold MemPart.bank at h
  split at h <;> split at h
  · simp_all
  · omega
  · omega
  · exact h

/-- A station memory address is told from its bank, line and unit (R206). -/
theorem smAddr_ext {a b : Nat} (ha : a < 2 ^ 23) (hb : b < 2 ^ 23) (h1 : field a 3 5 = field b 3 5) (h2 : field a 8 15 = field b 8 15)
    (h3 : field a 0 3 = field b 0 3) : a = b := by
  simp only [field, Nat.shiftRight_eq_div_pow] at h1 h2 h3
  omega

theorem Core.smUnit_eq (c : Core) (p a : Nat) : ∃ b o, b ≤ 32 ∧ o < 2 ^ 24 ∧ o % 64 = 0 ∧ c.smUnit p a = (p * 33 + b) * 2 ^ 24 + o := by
  refine ⟨_, _, MemPart.bank_le _ (field_lt a 3 5), ?_, ?_, rfl⟩
  · have h1 := field_lt a 8 15
    have h2 := field_lt a 0 3
    omega
  · omega

theorem Core.smUnit_mod (c : Core) (p a : Nat) : c.smUnit p a % 64 = 0 := by
  obtain ⟨b, o, _, _, h, e⟩ := c.smUnit_eq p a
  rw [e]
  omega

/-- Two station memory addresses of a die have different keys. -/
theorem Core.smUnit_inj (c : Core) (p : Nat) {a b : Nat} (ha : a < 2 ^ 23) (hb : b < 2 ^ 23) (h : c.smUnit p a = c.smUnit p b) : a = b := by
  simp only [Core.smUnit, smKey] at h
  have h1 := field_lt a 8 15
  have h2 := field_lt a 0 3
  have h3 := field_lt b 8 15
  have h4 := field_lt b 0 3
  have hbank : ((c.part p).memp.bank (field a 3 5)) = ((c.part p).memp.bank (field b 3 5)) := by omega
  exact smAddr_ext ha hb (MemPart.bank_inj _ (field_lt a 3 5) (field_lt b 3 5) hbank) (by omega) (by omega)

/-! ### One unit written -/

@[simp] theorem Mach.putUnit_pwr (k : Nat) (bs : List Byte) (q : Bool) (m : Mach) : (m.putUnit k bs q).pwr = m.pwr := rfl

theorem Mach.putUnit_mem (k : Nat) (bs : List Byte) (q : Bool) (m : Mach) :
    (m.putUnit k bs q).mem = applyWr (applyWr m.mem (.bytes k (padTo 64 bs))) (.poison (k / 64) 1 q) := rfl

theorem Mach.putUnit_core (k : Nat) (bs : List Byte) (q : Bool) (m : Mach) :
    (m.putUnit k bs q).core = { m.core with gens := (m.putUnit k bs q).core.gens, commonsLines := (m.putUnit k bs q).core.commonsLines } := by
  simp only [Mach.putUnit, Mach.up, Mach.write, Core.bumpGen, Core.dropLines]
  split <;> rfl

theorem padTo_length (n : Nat) (bs : List Byte) : (padTo n bs).length = n := by
  simp [padTo]
  omega

theorem Mach.putUnit_byte (k a : Nat) (bs : List Byte) (q : Bool) (m : Mach) :
    memByte (m.putUnit k bs q).mem a = if k ≤ a ∧ a < k + 64 then (padTo 64 bs).getD (a - k) 0 else memByte m.mem a := by
  rw [Mach.putUnit_mem, memByte_poison, memByte_bytes, padTo_length]

theorem Mach.putUnit_poison (k v : Nat) (bs : List Byte) (q : Bool) (m : Mach) :
    memPoisoned (m.putUnit k bs q).mem v 1 = if v = k / 64 then q else memPoisoned m.mem v 1 := by
  rw [Mach.putUnit_mem, memPoisoned_poison, memPoisoned_bytes]
  by_cases h : v = k / 64
  · rw [if_pos h, if_pos (by omega)]
  · rw [if_neg h, if_neg (by omega)]

theorem Mach.putUnit_wf (k : Nat) (bs : List Byte) (q : Bool) (m : Mach) (h : Memory.wf m.mem = true) :
    Memory.wf (m.putUnit k bs q).mem = true := by
  rw [Mach.putUnit_mem]
  exact applyWr_wf _ (applyWr_wf _ h)

/-! ### Several units written -/

/-- Units written, one piece for each key. -/
def Mach.putPieces (l : List (Nat × List Byte)) (q : Bool) (m : Mach) : Mach := l.foldl (fun acc kb => acc.putUnit kb.1 kb.2 q) m

theorem Mach.putUnits_eq (keys : List Nat) (bs : List Byte) (q : Bool) (m : Mach) :
    m.putUnits keys bs q = m.putPieces (keys.zip (chunks 64 bs)) q := rfl

theorem Mach.putPieces_cons (p : Nat × List Byte) (r : List (Nat × List Byte)) (q : Bool) (m : Mach) :
    m.putPieces (p :: r) q = (m.putUnit p.1 p.2 q).putPieces r q := rfl

theorem Mach.putPieces_core (l : List (Nat × List Byte)) (q : Bool) (m : Mach) :
    ∃ g ls, (m.putPieces l q).core = { m.core with gens := g, commonsLines := ls } := by
  induction l generalizing m with
  | nil => exact ⟨_, _, rfl⟩
  | cons p r ih =>
    obtain ⟨g, ls, e⟩ := ih (m.putUnit p.1 p.2 q)
    have h2 := m.putUnit_core p.1 p.2 q
    rw [h2] at e
    exact ⟨g, ls, e⟩

theorem Mach.putPieces_pwr (l : List (Nat × List Byte)) (q : Bool) (m : Mach) : (m.putPieces l q).pwr = m.pwr := by
  induction l generalizing m with
  | nil => rfl
  | cons p r ih => exact ih _

theorem Mach.putPieces_wf (l : List (Nat × List Byte)) (q : Bool) (m : Mach) (h : Memory.wf m.mem = true) :
    Memory.wf (m.putPieces l q).mem = true := by
  induction l generalizing m with
  | nil => exact h
  | cons p r ih => exact ih _ (m.putUnit_wf _ _ _ h)

/-- A byte outside every written unit keeps its value. -/
theorem Mach.putPieces_outside (l : List (Nat × List Byte)) (q : Bool) (m : Mach) (a : Nat)
    (h : ∀ p ∈ l, ¬(p.1 ≤ a ∧ a < p.1 + 64)) : memByte (m.putPieces l q).mem a = memByte m.mem a := by
  induction l generalizing m with
  | nil => rfl
  | cons p r ih =>
    refine (ih _ (fun x hx => h x (by simp [hx]))).trans ?_
    rw [Mach.putUnit_byte, if_neg (h p (by simp))]

/-- A byte of a written unit, the keys being distinct multiples of 64. -/
theorem Mach.putPieces_inside (l : List (Nat × List Byte)) (q : Bool) (m : Mach) (hd : (l.map Prod.fst).Nodup)
    (h64 : ∀ p ∈ l, p.1 % 64 = 0) (p : Nat × List Byte) (hp : p ∈ l) (i : Nat) (hi : i < 64) :
    memByte (m.putPieces l q).mem (p.1 + i) = (padTo 64 p.2).getD i 0 := by
  induction l generalizing m with
  | nil => simp at hp
  | cons r rest ih =>
    rw [List.map_cons, List.nodup_cons] at hd
    rcases List.mem_cons.1 hp with rfl | hp
    · refine (Mach.putPieces_outside rest q _ _ ?_).trans ?_
      · intro x hx
        have h1 := h64 p (by simp)
        have h2 := h64 x (by simp [hx])
        have h3 : p.1 ≠ x.1 := fun e => hd.1 (e ▸ List.mem_map_of_mem hx)
        omega
      · rw [Mach.putUnit_byte, if_pos (by omega)]
        congr 1
        omega
    · exact ih _ hd.2 (fun x hx => h64 x (by simp [hx])) hp

/-- A unit's poison bit when it is none of the written ones. -/
theorem Mach.putPieces_poison_outside (l : List (Nat × List Byte)) (q : Bool) (m : Mach) (v : Nat) (h : ∀ p ∈ l, v ≠ p.1 / 64) :
    memPoisoned (m.putPieces l q).mem v 1 = memPoisoned m.mem v 1 := by
  induction l generalizing m with
  | nil => rfl
  | cons p r ih =>
    refine (ih _ (fun x hx => h x (by simp [hx]))).trans ?_
    rw [Mach.putUnit_poison, if_neg (h p (by simp))]

/-- The poison bit of a written unit. -/
theorem Mach.putPieces_poison_inside (l : List (Nat × List Byte)) (q : Bool) (m : Mach) (v : Nat)
    (h : (∃ p ∈ l, v = p.1 / 64) ∨ memPoisoned m.mem v 1 = q) : memPoisoned (m.putPieces l q).mem v 1 = q := by
  induction l generalizing m with
  | nil =>
    rcases h with ⟨_, hp, _⟩ | h
    · simp at hp
    · exact h
  | cons r rest ih =>
    refine ih _ ?_
    by_cases hr : v = r.1 / 64
    · exact .inr (by rw [Mach.putUnit_poison, if_pos hr])
    · rcases h with ⟨z, hz, e⟩ | h
      · rcases List.mem_cons.1 hz with rfl | hz
        · exact absurd e hr
        · exact .inl ⟨z, hz, e⟩
      · exact .inr (by rw [Mach.putUnit_poison, if_neg hr]; exact h)

/-! ### Station memory written and read back -/

theorem chunksAux_eq {α : Type} (n : Nat) (hn : 0 < n) : ∀ (k fuel : Nat) (l : List α), l.length = n * k → k ≤ fuel →
    chunksAux n fuel l = (List.range k).map (fun i => (l.drop (n * i)).take n) := by
  intro k
  induction k with
  | zero =>
    intro fuel l hl _
    have : l = [] := List.length_eq_zero_iff.1 (by simpa using hl)
    subst this
    cases fuel <;> rfl
  | succ k ih =>
    intro fuel l hl hf
    obtain ⟨fuel, rfl⟩ : ∃ g, fuel = g + 1 := ⟨fuel - 1, by omega⟩
    cases l with
    | nil =>
      simp only [List.length_nil] at hl
      exact absurd hl (Nat.mul_pos hn (Nat.succ_pos k)).ne
    | cons x xs =>
      have hl2 : ((x :: xs).drop n).length = n * k := by
        rw [List.length_drop, hl, Nat.mul_succ]
        omega
      rw [chunksAux, ih fuel _ hl2 (by omega), List.range_succ_eq_map, List.map_cons, List.map_map]
      · congr 1
        refine List.map_congr_left (fun i _ => ?_)
        rw [List.drop_drop]
        simp only [Function.comp, Nat.succ_eq_add_one, Nat.mul_add, Nat.mul_one]
        congr 2
        omega
      · simp

/-- A list cut into pieces of `n`: the pieces in order. -/
theorem chunks_eq {α : Type} {n k : Nat} (hn : 0 < n) (l : List α) (h : l.length = n * k) :
    chunks n l = (List.range k).map (fun i => (l.drop (n * i)).take n) :=
  chunksAux_eq n hn k _ l h (by rw [h]; exact Nat.le_mul_of_pos_left k hn)

/-- The pieces written by `putSm`. -/
def Core.smPieces (c : Core) (p a : Nat) (bs : List Byte) : List (Nat × List Byte) :=
  (c.smUnits p a (bs.length / 64)).zip (chunks 64 bs)

theorem Mach.putSm_eq (p a : Nat) (bs : List Byte) (q : Bool) (m : Mach) : m.putSm p a bs q = m.putPieces (m.core.smPieces p a bs) q := rfl

theorem Core.smPieces_eq (c : Core) (p a : Nat) {n : Nat} {bs : List Byte} (h : bs.length = 64 * n) :
    c.smPieces p a bs = (List.range n).map (fun i => (c.smUnit p ((a + i) % 2 ^ 23), (bs.drop (64 * i)).take 64)) := by
  have hn : bs.length / 64 = n := by omega
  rw [Core.smPieces, chunks_eq (by norm_num) bs h, hn, Core.smUnits, tabulate]
  rw [List.zip_map']

theorem Core.smPieces_nodup (c : Core) (p a : Nat) {n : Nat} {bs : List Byte} (h : bs.length = 64 * n) (hn : n ≤ 2 ^ 23) :
    ((c.smPieces p a bs).map Prod.fst).Nodup := by
  rw [Core.smPieces_eq c p a h, List.map_map]
  refine List.Nodup.map_on ?_ List.nodup_range
  intro i hi j hj e
  have h1 := List.mem_range.1 hi
  have h2 := List.mem_range.1 hj
  have := c.smUnit_inj p (Nat.mod_lt _ (by norm_num)) (Nat.mod_lt _ (by norm_num)) e
  omega

theorem Core.smUnit_parts {c d : Core} (h : c.parts = d.parts) (p a : Nat) : c.smUnit p a = d.smUnit p a := by
  simp only [Core.smUnit, Core.part, h]

theorem Mach.putSm_parts (p a : Nat) (bs : List Byte) (q : Bool) (m : Mach) : (m.putSm p a bs q).core.parts = m.core.parts := by
  obtain ⟨g, ls, e⟩ := Mach.putPieces_core (m.core.smPieces p a bs) q m
  rw [Mach.putSm_eq, e]

theorem Mach.putSm_wf (p a : Nat) (bs : List Byte) (q : Bool) (m : Mach) (h : Memory.wf m.mem = true) :
    Memory.wf (m.putSm p a bs q).mem = true := Mach.putPieces_wf _ _ _ h

/-- A byte outside the units written keeps its value. -/
theorem Mach.putSm_outside (p a : Nat) {n : Nat} {bs : List Byte} (q : Bool) (m : Mach) (h : bs.length = 64 * n) (k : Nat)
    (hk : ∀ i < n, ¬(m.core.smUnit p ((a + i) % 2 ^ 23) ≤ k ∧ k < m.core.smUnit p ((a + i) % 2 ^ 23) + 64)) :
    memByte (m.putSm p a bs q).mem k = memByte m.mem k := by
  rw [Mach.putSm_eq]
  refine Mach.putPieces_outside _ _ _ _ ?_
  rw [Core.smPieces_eq _ p a h]
  intro x hx
  obtain ⟨i, hi, rfl⟩ := List.mem_map.1 hx
  exact hk i (List.mem_range.1 hi)

/-- A unit written to station memory and read back. -/
theorem Mach.putSm_unit (p a : Nat) {n : Nat} {bs : List Byte} (q : Bool) (m : Mach) (h : bs.length = 64 * n) (hn : n ≤ 2 ^ 23)
    (hw : Memory.wf m.mem = true) (i : Nat) (hi : i < n) :
    (m.putSm p a bs q).unit (m.core.smUnit p ((a + i) % 2 ^ 23)) = (bs.drop (64 * i)).take 64 := by
  have h64 := m.core.smUnit_mod p ((a + i) % 2 ^ 23)
  have hd : m.core.smUnit p ((a + i) % 2 ^ 23) / 64 * 64 = m.core.smUnit p ((a + i) % 2 ^ 23) := by omega
  have hlen : ((bs.drop (64 * i)).take 64).length = 64 := by
    rw [List.length_take, List.length_drop, h]
    omega
  rw [Mach.unit, hd, memBytes_eq _ _ _ (Mach.putSm_wf p a bs q m hw)]
  refine List.ext_getElem (by simp [hlen]) (fun k hk1 hk2 => ?_)
  have hk : k < 64 := by simpa using hk1
  rw [List.getElem_map, List.getElem_range, Mach.putSm_eq]
  refine (Mach.putPieces_inside _ q m (m.core.smPieces_nodup p a h hn) ?_
    (m.core.smUnit p ((a + i) % 2 ^ 23), (bs.drop (64 * i)).take 64) ?_ k hk).trans ?_
  · rw [Core.smPieces_eq _ p a h]
    intro x hx
    obtain ⟨j, _, rfl⟩ := List.mem_map.1 hx
    exact m.core.smUnit_mod p _
  · rw [Core.smPieces_eq _ p a h]
    exact List.mem_map.2 ⟨i, List.mem_range.2 hi, rfl⟩
  · simp only [padTo, hlen, Nat.sub_self, List.replicate_zero, List.append_nil]
    rw [List.take_of_length_le (by omega)]
    simp [List.getD_eq_getElem?_getD, List.getElem?_eq_getElem hk2]

/-- Station memory written and read back: the bytes are those written (R206). -/
theorem Mach.sm_putSm (p a : Nat) {n : Nat} {bs : List Byte} (q : Bool) (m : Mach) (h : bs.length = 64 * n) (hn : n ≤ 2 ^ 23)
    (hw : Memory.wf m.mem = true) : (m.putSm p a bs q).sm p a n = bs := by
  have hk : (m.putSm p a bs q).core.smUnits p a n = (List.range n).map (fun i => m.core.smUnit p ((a + i) % 2 ^ 23)) := by
    rw [Core.smUnits, tabulate]
    exact List.map_congr_left (fun i _ => Core.smUnit_parts (Mach.putSm_parts p a bs q m) p _)
  rw [Mach.sm, hk, Mach.units, List.map_map]
  have : (List.range n).map ((m.putSm p a bs q).unit ∘ fun i => m.core.smUnit p ((a + i) % 2 ^ 23)) =
      (List.range n).map (fun i => (bs.drop (64 * i)).take 64) :=
    List.map_congr_left (fun i hi => Mach.putSm_unit p a q m h hn hw i (List.mem_range.1 hi))
  rw [this]
  clear this hk hn
  induction n generalizing bs with
  | zero =>
    have : bs = [] := List.length_eq_zero_iff.1 (by simpa using h)
    simp [this]
  | succ n ih =>
    rw [List.range_succ_eq_map, List.map_cons, List.map_map, List.flatten_cons]
    have h2 : (bs.drop 64).length = 64 * n := by
      rw [List.length_drop]
      omega
    have e : (List.range n).map ((fun i => (bs.drop (64 * i)).take 64) ∘ Nat.succ) = (List.range n).map (fun i => ((bs.drop 64).drop (64 * i)).take 64) := by
      refine List.map_congr_left (fun i _ => ?_)
      rw [List.drop_drop]
      simp only [Function.comp, Nat.succ_eq_add_one]
      congr 2
      omega
    rw [e, ih h2]
    simp

end Sys2Proof.Machine
end

