-- ==== Sys2Proof/Laws/Effects.lean ====
section
/-!
SUPPORT. What an effect writes: an effect extends a machine by writes that satisfy a condition, and everything else of memory and power stays.
-/

namespace Sys2Proof.Machine

/-- `m'` is `m` after writes that all satisfy `P`, with power as it was. -/
def Mach.Ext (P : Wr → Prop) (m m' : Mach) : Prop :=
  m'.pwr = m.pwr ∧ ∃ ws : List Wr, m'.wr = ws ++ m.wr ∧ m'.mem = applyWrs m.mem ws.reverse ∧ ∀ w ∈ ws, P w

theorem Mach.Ext.refl {P : Wr → Prop} (m : Mach) : Mach.Ext P m m := ⟨rfl, [], rfl, rfl, by simp⟩

theorem applyWrs_append (m : Mem) (a b : List Wr) : applyWrs m (a ++ b) = applyWrs (applyWrs m a) b := List.foldl_append

theorem Mach.Ext.trans {P : Wr → Prop} {a b c : Mach} (h : Mach.Ext P a b) (g : Mach.Ext P b c) : Mach.Ext P a c := by
  obtain ⟨hp, ws, h1, h2, h3⟩ := h
  obtain ⟨gp, vs, g1, g2, g3⟩ := g
  refine ⟨gp.trans hp, vs ++ ws, by rw [g1, h1, List.append_assoc], ?_, ?_⟩
  · rw [List.reverse_append, applyWrs_append, ← h2, g2]
  · intro w hw
    rcases List.mem_append.1 hw with hw | hw
    · exact g3 w hw
    · exact h3 w hw

theorem Mach.Ext.up {P : Wr → Prop} (f : Core → Core) (m : Mach) : Mach.Ext P m (m.up f) := ⟨rfl, [], rfl, rfl, by simp⟩

theorem Mach.Ext.core {P : Wr → Prop} (m : Mach) (c : Core) : Mach.Ext P m { m with core := c } := ⟨rfl, [], rfl, rfl, by simp⟩

theorem Mach.Ext.write {P : Wr → Prop} {w : Wr} (h : P w) (m : Mach) : Mach.Ext P m (m.write w) :=
  ⟨rfl, [w], rfl, rfl, by simpa using h⟩

/-- An effect followed by a change of the core alone. -/
theorem Mach.Ext.then_up {P : Wr → Prop} {m m' : Mach} (h : Mach.Ext P m m') (f : Core → Core) : Mach.Ext P m (m'.up f) :=
  h.trans (Mach.Ext.up f m')

/-- Effects one after another over a list. -/
theorem Mach.Ext.foldl {P : Wr → Prop} {α : Type} (l : List α) (f : Mach → α → Mach) (h : ∀ (m : Mach), ∀ a ∈ l, Mach.Ext P m (f m a)) (m : Mach) :
    Mach.Ext P m (l.foldl f m) := by
  induction l generalizing m with
  | nil => exact Mach.Ext.refl m
  | cons a r ih => exact (h m a (by simp)).trans (ih (fun m b hb => h m b (by simp [hb])) _)

/-- Effects over a list that also carry a value. -/
theorem Mach.Ext.foldl_snd {P : Wr → Prop} {α β : Type} (l : List α) (f : β × Mach → α → β × Mach)
    (h : ∀ (p : β × Mach), ∀ a ∈ l, Mach.Ext P p.2 (f p a).2) (p : β × Mach) : Mach.Ext P p.2 (l.foldl f p).2 := by
  induction l generalizing p with
  | nil => exact Mach.Ext.refl p.2
  | cons a r ih => exact (h p a (by simp)).trans (ih (fun p b hb => h p b (by simp [hb])) _)

/-- Where every write lies outside a byte, the byte stays. -/
theorem applyWrs_outside (ws : List Wr) (m : Mem) (a : Nat) (h : ∀ w ∈ ws, ¬(w.range.1 ≤ a ∧ a < w.range.1 + w.range.2)) :
    memByte (applyWrs m ws) a = memByte m a := by
  induction ws generalizing m with
  | nil => rfl
  | cons w r ih =>
    show memByte (applyWrs (applyWr m w) r) a = _
    rw [ih _ (fun v hv => h v (by simp [hv])), memByte_outside _ _ _ (h w (by simp))]

theorem Mach.Ext.byte {P : Wr → Prop} {m m' : Mach} (h : Mach.Ext P m m') (a : Nat)
    (hP : ∀ w, P w → ¬(w.range.1 ≤ a ∧ a < w.range.1 + w.range.2)) : memByte m'.mem a = memByte m.mem a := by
  obtain ⟨_, ws, _, h2, h3⟩ := h
  rw [h2]
  exact applyWrs_outside _ _ _ (fun w hw => hP w (h3 w (List.mem_reverse.1 hw)))

theorem Mach.Ext.wf {P : Wr → Prop} {m m' : Mach} (h : Mach.Ext P m m') (hw : Memory.wf m.mem = true) : Memory.wf m'.mem = true := by
  obtain ⟨_, ws, _, h2, _⟩ := h
  rw [h2]
  exact applyWrs_wf _ hw

/-- An effect from the start machine: what `runM` answers holds the memory the effect worked on. -/
theorem runM_ext {P : Wr → Prop} {f : Mach → Mach} {s : State} (h : Mach.Ext P (startMach s) (f (startMach s))) :
    runM f s = .next { s with core := (f (startMach s)).core, mem := (f (startMach s)).mem } := by
  obtain ⟨_, ws, h1, h2, _⟩ := h
  have e : (f (startMach s)).wr = ws := by simpa [startMach] using h1
  simp only [runM, e, h2]
  rfl

/-! ### Writes to the station memory of one die -/

/-- A write that stays in the station memory of die `p`. -/
def onDieWr (p : Nat) : Wr → Prop
  | .bytes k bs => ∀ i < bs.length, onDie p (k + i)
  | .zero _ _ => False
  | .copy _ _ _ => False
  | .poison u n _ => ∀ i < n, onDie p (64 * (u + i))

theorem onDieWr_outside {p : Nat} {w : Wr} (h : onDieWr p w) (a : Nat) (ha : ¬onDie p a) : ¬(w.range.1 ≤ a ∧ a < w.range.1 + w.range.2) := by
  cases w with
  | bytes k bs =>
    rintro ⟨h1, h2⟩
    have := h (a - k) (by simp only [Wr.range] at h1 h2; omega)
    simp only [Wr.range] at h1
    rw [show k + (a - k) = a by omega] at this
    exact ha this
  | zero => exact h.elim
  | copy => exact h.elim
  | poison u n b => simp [Wr.range]

theorem Core.smUnit_onDie (c : Core) (p a i : Nat) (hi : i < 64) : onDie p (c.smUnit p a + i) := by
  obtain ⟨b, o, hb, ho, h64, e⟩ := c.smUnit_eq p a
  rw [e, onDie]
  constructor <;> omega

theorem Mach.putUnit_ext {p : Nat} {k : Nat} (hk : ∀ i < 64, onDie p (k + i)) (h64 : k % 64 = 0) (bs : List Byte) (q : Bool) (m : Mach) :
    Mach.Ext (onDieWr p) m (m.putUnit k bs q) := by
  refine Mach.Ext.then_up (Mach.Ext.trans (Mach.Ext.write ?_ m) (Mach.Ext.write ?_ _)) _
  · intro i hi
    rw [padTo_length] at hi
    exact hk i hi
  · intro i hi
    obtain rfl : i = 0 := by omega
    have := hk 0 (by norm_num)
    rwa [show 64 * (k / 64 + 0) = k + 0 by omega]

theorem Mach.putUnits_ext {p : Nat} (keys : List Nat) (hk : ∀ k ∈ keys, (∀ i < 64, onDie p (k + i)) ∧ k % 64 = 0) (bs : List Byte) (q : Bool)
    (m : Mach) : Mach.Ext (onDieWr p) m (m.putUnits keys bs q) := by
  refine Mach.Ext.foldl _ _ (fun m a ha => ?_) m
  have := hk a.1 (List.of_mem_zip ha).1
  exact Mach.putUnit_ext this.1 this.2 _ _ _

theorem Core.smUnits_onDie (c : Core) (p a n : Nat) : ∀ k ∈ c.smUnits p a n, (∀ i < 64, onDie p (k + i)) ∧ k % 64 = 0 := by
  intro k hk
  obtain ⟨i, _, rfl⟩ := List.mem_map.1 hk
  exact ⟨fun j hj => c.smUnit_onDie p _ j hj, c.smUnit_mod p _⟩

theorem Mach.putSm_ext (p a : Nat) (bs : List Byte) (q : Bool) (m : Mach) : Mach.Ext (onDieWr p) m (m.putSm p a bs q) :=
  Mach.putUnits_ext _ (Core.smUnits_onDie _ p a _) _ _ _

theorem Mach.patch_ext {p k : Nat} {bs : List Byte} (h : ∀ i < bs.length, onDie p (k + i)) (m : Mach) : Mach.Ext (onDieWr p) m (m.patch k bs) :=
  Mach.Ext.then_up (Mach.Ext.write (P := onDieWr p) (w := .bytes k bs) h m) _

end Sys2Proof.Machine
end

