-- ==== Sys2Proof/Laws/Log.lean ====
section
/-!
SUPPORT. What a completion entry and an error record change, said once.
-/

namespace Sys2Proof.Machine

/-- A completion entry changes the tenants' queues and the outputs, and nothing else. -/
theorem Core.cqWrite_frame (t qn : Nat) (bytes : List Byte) (c : Core) : ∃ ts o, c.cqWrite t qn bytes = { c with tens := ts, out := o } := by
  unfold Core.cqWrite
  split
  · exact ⟨c.tens, c.out, rfl⟩
  · split
    · exact ⟨c.tens, c.out, rfl⟩
    · simp only
      split
      · exact ⟨_, _, rfl⟩
      · exact ⟨_, _, rfl⟩

/-- The record as the log takes it: with its sequence number, time, temperature, voltage, beat cycle and whether it was posted (12 R411, R417). -/
def Core.stamped (c : Core) (r : Rec) : Rec :=
  { r with seq := c.log.written, time := c.clk.count, temp := c.dieTemp r.die.toNat, volt := c.dieVolt r.die.toNat,
           posted := match r.tenant with | some t => c.cq1Free t.toNat | none => false
           cycle := if r.step.isSome then r.cycle else BitVec.ofNat 28 c.beatCycleNow }

/-- An error record changes the log, the tenants and the outputs, and nothing else; the log takes the stamped record. -/
theorem Core.logRec_frame (r : Rec) (c : Core) : ∃ ts o, c.logRec r = { c with log := c.log.push (c.stamped r), tens := ts, out := o } := by
  have key : ∀ (b : Bool) (d : Core) (t : Nat) (by1 : List Byte) (f : Ten → Ten),
      ∃ ts o, (if b then d.cqWrite t 1 by1 else d.modTen t f) = { d with tens := ts, out := o } := by
    intro b d t by1 f
    cases b
    · exact ⟨_, d.out, rfl⟩
    · exact Core.cqWrite_frame t 1 by1 d
  rcases ht : r.tenant with _ | t
  · refine ⟨c.tens, c.out, ?_⟩
    simp only [Core.logRec, Core.stamped, ht]
  · obtain ⟨ts, o, e⟩ := key (c.cq1Free t.toNat) { c with log := c.log.push (c.stamped r) } t.toNat
      (entryBytes 0xFFFFFFFF 0xF0 (eventDetail (c.stamped r))) (fun x => { x with eventsUnposted := satInc x.eventsUnposted })
    refine ⟨ts, o, ?_⟩
    rw [← e]
    simp only [Core.logRec, Core.stamped, ht]

theorem Core.logRec_log (r : Rec) (c : Core) : (c.logRec r).log = c.log.push (c.stamped r) := by
  obtain ⟨ts, o, e⟩ := Core.logRec_frame r c
  rw [e]

@[simp] theorem Core.cqWrite_ident (t qn : Nat) (b : List Byte) (c : Core) : (c.cqWrite t qn b).ident = c.ident := by
  obtain ⟨ts, o, e⟩ := Core.cqWrite_frame t qn b c
  rw [e]

@[simp] theorem Core.logRec_ident (r : Rec) (c : Core) : (c.logRec r).ident = c.ident := by
  obtain ⟨ts, o, e⟩ := Core.logRec_frame r c
  rw [e]

@[simp] theorem Core.cqWrite_clk (t qn : Nat) (b : List Byte) (c : Core) : (c.cqWrite t qn b).clk = c.clk := by
  obtain ⟨ts, o, e⟩ := Core.cqWrite_frame t qn b c
  rw [e]

@[simp] theorem Core.logRec_clk (r : Rec) (c : Core) : (c.logRec r).clk = c.clk := by
  obtain ⟨ts, o, e⟩ := Core.logRec_frame r c
  rw [e]

@[simp] theorem Core.cqWrite_parts (t qn : Nat) (b : List Byte) (c : Core) : (c.cqWrite t qn b).parts = c.parts := by
  obtain ⟨ts, o, e⟩ := Core.cqWrite_frame t qn b c
  rw [e]

@[simp] theorem Core.logRec_parts (r : Rec) (c : Core) : (c.logRec r).parts = c.parts := by
  obtain ⟨ts, o, e⟩ := Core.logRec_frame r c
  rw [e]

@[simp] theorem Core.cqWrite_csSlots (t qn : Nat) (b : List Byte) (c : Core) : (c.cqWrite t qn b).csSlots = c.csSlots := by
  obtain ⟨ts, o, e⟩ := Core.cqWrite_frame t qn b c
  rw [e]

@[simp] theorem Core.logRec_csSlots (r : Rec) (c : Core) : (c.logRec r).csSlots = c.csSlots := by
  obtain ⟨ts, o, e⟩ := Core.logRec_frame r c
  rw [e]

@[simp] theorem Core.cqWrite_plans (t qn : Nat) (b : List Byte) (c : Core) : (c.cqWrite t qn b).plans = c.plans := by
  obtain ⟨ts, o, e⟩ := Core.cqWrite_frame t qn b c
  rw [e]

@[simp] theorem Core.logRec_plans (r : Rec) (c : Core) : (c.logRec r).plans = c.plans := by
  obtain ⟨ts, o, e⟩ := Core.logRec_frame r c
  rw [e]

@[simp] theorem Core.cqWrite_jobs (t qn : Nat) (b : List Byte) (c : Core) : (c.cqWrite t qn b).jobs = c.jobs := by
  obtain ⟨ts, o, e⟩ := Core.cqWrite_frame t qn b c
  rw [e]

@[simp] theorem Core.logRec_jobs (r : Rec) (c : Core) : (c.logRec r).jobs = c.jobs := by
  obtain ⟨ts, o, e⟩ := Core.logRec_frame r c
  rw [e]

@[simp] theorem Core.cqWrite_gens (t qn : Nat) (b : List Byte) (c : Core) : (c.cqWrite t qn b).gens = c.gens := by
  obtain ⟨ts, o, e⟩ := Core.cqWrite_frame t qn b c
  rw [e]

@[simp] theorem Core.logRec_gens (r : Rec) (c : Core) : (c.logRec r).gens = c.gens := by
  obtain ⟨ts, o, e⟩ := Core.logRec_frame r c
  rw [e]

@[simp] theorem Core.cqWrite_leases (t qn : Nat) (b : List Byte) (c : Core) : (c.cqWrite t qn b).leases = c.leases := by
  obtain ⟨ts, o, e⟩ := Core.cqWrite_frame t qn b c
  rw [e]

@[simp] theorem Core.logRec_leases (r : Rec) (c : Core) : (c.logRec r).leases = c.leases := by
  obtain ⟨ts, o, e⟩ := Core.logRec_frame r c
  rw [e]

@[simp] theorem Core.cqWrite_commonsLines (t qn : Nat) (b : List Byte) (c : Core) : (c.cqWrite t qn b).commonsLines = c.commonsLines := by
  obtain ⟨ts, o, e⟩ := Core.cqWrite_frame t qn b c
  rw [e]

@[simp] theorem Core.logRec_commonsLines (r : Rec) (c : Core) : (c.logRec r).commonsLines = c.commonsLines := by
  obtain ⟨ts, o, e⟩ := Core.logRec_frame r c
  rw [e]

@[simp] theorem Core.cqWrite_accepted (t qn : Nat) (b : List Byte) (c : Core) : (c.cqWrite t qn b).accepted = c.accepted := by
  obtain ⟨ts, o, e⟩ := Core.cqWrite_frame t qn b c
  rw [e]

@[simp] theorem Core.logRec_accepted (r : Rec) (c : Core) : (c.logRec r).accepted = c.accepted := by
  obtain ⟨ts, o, e⟩ := Core.logRec_frame r c
  rw [e]

@[simp] theorem Core.cqWrite_health (t qn : Nat) (b : List Byte) (c : Core) : (c.cqWrite t qn b).health = c.health := by
  obtain ⟨ts, o, e⟩ := Core.cqWrite_frame t qn b c
  rw [e]

@[simp] theorem Core.logRec_health (r : Rec) (c : Core) : (c.logRec r).health = c.health := by
  obtain ⟨ts, o, e⟩ := Core.logRec_frame r c
  rw [e]

@[simp] theorem Core.cqWrite_fab (t qn : Nat) (b : List Byte) (c : Core) : (c.cqWrite t qn b).fab = c.fab := by
  obtain ⟨ts, o, e⟩ := Core.cqWrite_frame t qn b c
  rw [e]

@[simp] theorem Core.logRec_fab (r : Rec) (c : Core) : (c.logRec r).fab = c.fab := by
  obtain ⟨ts, o, e⟩ := Core.logRec_frame r c
  rw [e]

@[simp] theorem Core.cqWrite_led (t qn : Nat) (b : List Byte) (c : Core) : (c.cqWrite t qn b).led = c.led := by
  obtain ⟨ts, o, e⟩ := Core.cqWrite_frame t qn b c
  rw [e]

@[simp] theorem Core.logRec_led (r : Rec) (c : Core) : (c.logRec r).led = c.led := by
  obtain ⟨ts, o, e⟩ := Core.logRec_frame r c
  rw [e]

@[simp] theorem Core.cqWrite_spool (t qn : Nat) (b : List Byte) (c : Core) : (c.cqWrite t qn b).spool = c.spool := by
  obtain ⟨ts, o, e⟩ := Core.cqWrite_frame t qn b c
  rw [e]

@[simp] theorem Core.logRec_spool (r : Rec) (c : Core) : (c.logRec r).spool = c.spool := by
  obtain ⟨ts, o, e⟩ := Core.logRec_frame r c
  rw [e]

@[simp] theorem Core.cqWrite_rst (t qn : Nat) (b : List Byte) (c : Core) : (c.cqWrite t qn b).rst = c.rst := by
  obtain ⟨ts, o, e⟩ := Core.cqWrite_frame t qn b c
  rw [e]

@[simp] theorem Core.logRec_rst (r : Rec) (c : Core) : (c.logRec r).rst = c.rst := by
  obtain ⟨ts, o, e⟩ := Core.logRec_frame r c
  rw [e]

@[simp] theorem Core.cqWrite_resetReplies (t qn : Nat) (b : List Byte) (c : Core) : (c.cqWrite t qn b).resetReplies = c.resetReplies := by
  obtain ⟨ts, o, e⟩ := Core.cqWrite_frame t qn b c
  rw [e]

@[simp] theorem Core.logRec_resetReplies (r : Rec) (c : Core) : (c.logRec r).resetReplies = c.resetReplies := by
  obtain ⟨ts, o, e⟩ := Core.logRec_frame r c
  rw [e]

@[simp] theorem Core.cqWrite_nonce (t qn : Nat) (b : List Byte) (c : Core) : (c.cqWrite t qn b).nonce = c.nonce := by
  obtain ⟨ts, o, e⟩ := Core.cqWrite_frame t qn b c
  rw [e]

@[simp] theorem Core.logRec_nonce (r : Rec) (c : Core) : (c.logRec r).nonce = c.nonce := by
  obtain ⟨ts, o, e⟩ := Core.logRec_frame r c
  rw [e]

@[simp] theorem Core.cqWrite_log (t qn : Nat) (b : List Byte) (c : Core) : (c.cqWrite t qn b).log = c.log := by
  obtain ⟨ts, o, e⟩ := Core.cqWrite_frame t qn b c
  rw [e]

/-- The newest record of the log after a record is entered. -/
theorem Log.push_head (l : Log) (r : Rec) : (l.push r).recs.head? = some r := by
  simp [Log.push]

/-- A job changed by an update that keeps its plan. -/
theorem Core.job?_modJob (c : Core) (h g : Nat) (f : Job → Job) (hf : ∀ j, (f j).plan = j.plan) :
    (c.modJob h f).job? g = (c.job? g).map (fun j => if g = h then f j else j) := by
  simp only [Core.job?, Core.modJob_jobs]
  induction c.jobs with
  | nil => rfl
  | cons j r ih =>
    rw [List.map_cons, List.find?_cons, List.find?_cons]
    by_cases hp : j.plan = h
    · subst hp
      simp only [beq_self_eq_true, if_true, hf]
      by_cases hg : j.plan = g
      · subst hg
        simp
      · have h2 : (j.plan == g) = false := by simpa using hg
        simp only [h2]
        exact ih
    · have h1 : (j.plan == h) = false := by simpa using hp
      simp only [h1, Bool.false_eq_true, if_false]
      by_cases hg : j.plan = g
      · subst hg
        simp [hp]
      · have h2 : (j.plan == g) = false := by simpa using hg
        simp only [h2]
        exact ih

/-- The job of the changed plan. -/
theorem Core.job?_modJob_self {c : Core} {h : Nat} {j : Job} (e : c.job? h = some j) {f : Job → Job} (hf : ∀ j, (f j).plan = j.plan) :
    (c.modJob h f).job? h = some (f j) := by
  rw [Core.job?_modJob c h h f hf, e]
  simp

theorem Core.job?_congr {c d : Core} (h : c.jobs = d.jobs) (p : Nat) : c.job? p = d.job? p := by simp only [Core.job?, h]

theorem Core.part_congr {c d : Core} (h : c.parts = d.parts) (p : Nat) : c.part p = d.part p := by simp only [Core.part, h]

end Sys2Proof.Machine
end

