-- ==== Sys2Proof/Laws/Stations.lean ====
section
/-!
SUPPORT. What the stations of a compute die write: an array, a thin station or a vector station writes only station memory of its own die.
-/

namespace Sys2Proof.Machine

variable {P : Wr → Prop}

/-! ### Operations that write nothing -/

theorem Ctx.logR_ext (x : Ctx) (r : Rec) (m : Mach) : Mach.Ext P m (x.logR r m) := by
  unfold Ctx.logR
  split
  · exact (Mach.Ext.up _ _).then_up _
  · exact Mach.Ext.up _ _

theorem Ctx.log_ext (x : Ctx) (code cls sev : Nat) (d : List Byte) (m : Mach) : Mach.Ext P m (x.log code cls sev d m) := x.logR_ext _ m

theorem Ctx.detect_ext (x : Ctx) (c : Nat) (m : Mach) : Mach.Ext P m (x.detect c m) := Mach.Ext.up _ _

theorem Ctx.late_ext (x : Ctx) (code cls sev b i : Nat) (d : List Byte) (m : Mach) : Mach.Ext P m (x.late code cls sev b i d m) :=
  (x.logR_ext _ m).then_up _

theorem Ctx.pends_ext (x : Ctx) (ks : List Nat) (d : List Byte) (m : Mach) : Mach.Ext P m (x.pends ks d m) := Mach.Ext.up _ _

theorem Ctx.tenantRec_ext (x : Ctx) (m : Mach) : Mach.Ext P m (x.tenantRec m) := by
  unfold Ctx.tenantRec
  simp only
  split
  · exact x.log_ext _ _ _ _ _
  · exact (x.log_ext _ _ _ _ _).then_up _

theorem Ctx.poisonGuarded_ext (x : Ctx) (m : Mach) : Mach.Ext P m (x.poisonGuarded m) := by
  unfold Ctx.poisonGuarded
  simp only
  split
  · exact Mach.Ext.up _ _
  · split
    · exact Mach.Ext.up _ _
    · split
      · exact ((Mach.Ext.up _ _).then_up _).then_up _
      · exact Mach.Ext.up _ _

theorem Ctx.guard_ext (x : Ctx) (sp lp a n : Nat) (q : Bool) (m : Mach) : Mach.Ext P m (x.guard sp lp a n q m) := by
  unfold Ctx.guard
  split
  · exact Mach.Ext.refl _
  · split
    · exact x.poisonGuarded_ext m
    · exact Mach.Ext.refl _

theorem Ctx.tileOutcome_ext (x : Ctx) (k : TileChk) (u : Bool) (ks : List Nat) (d : List Byte) (m : Mach) :
    Mach.Ext P m (x.tileOutcome k u ks d m) := by
  have h1 : Mach.Ext P m (if k.tenantBad = true then x.tenantRec m
      else if ((k.crcBad || k.residueBad) && !u) = true then x.log 0x105 7 2 [] m
      else if k.formatBad = true then x.log 0x302 3 2 [] m else m) := by
    split
    · exact x.tenantRec_ext m
    · split
      · exact x.log_ext _ _ _ _ _
      · split
        · exact x.log_ext _ _ _ _ _
        · exact Mach.Ext.refl _
  unfold Ctx.tileOutcome
  dsimp only
  generalize (if k.tenantBad = true then _ else _ : Mach) = m1 at *
  split
  · exact (h1.trans (x.pends_ext _ _ _)).trans (x.detect_ext _ _)
  · exact h1

theorem Ctx.readTile_ext (x : Ctx) (f : Fmt) (o : Option Bool) (p a : Nat) (m : Mach) : Mach.Ext P m (x.readTile f o p a m).2 :=
  x.tileOutcome_ext _ _ _ _ m

theorem Ctx.readTiles_ext (x : Ctx) (f : Fmt) (o : Option Bool) (p : Nat) (as : List Nat) (m : Mach) :
    Mach.Ext P m (x.readTiles f o p as m).2 := by
  induction as generalizing m with
  | nil => exact Mach.Ext.refl m
  | cons a r ih => exact (x.readTile_ext f o p a m).trans (ih _)

theorem Ctx.readFlat_ext (x : Ctx) (p a n : Nat) (m : Mach) : Mach.Ext P m (x.readFlat p a n m).2 := by
  unfold Ctx.readFlat
  simp only
  split
  · exact Mach.Ext.up _ _
  · exact Mach.Ext.refl _

theorem Ctx.fences_ext (x : Ctx) (rs : List (Nat × Nat)) (m : Mach) : Mach.Ext P m (x.fences rs m).2 :=
  Mach.Ext.foldl _ _ (fun m _ _ => (x.log_ext _ _ _ _ m).then_up _) m

theorem Ctx.postToken_ext (x : Ctx) (p ch : Nat) (t : Token) (m : Mach) : Mach.Ext P m (x.postToken p ch t m) := by
  unfold Ctx.postToken
  simp only
  split
  · exact Mach.Ext.core m _
  · exact ((Mach.Ext.core m _).trans (x.late_ext _ _ _ _ _ _ _)).then_up _

theorem Ctx.postRange_ext (x : Ctx) (p ch a n : Nat) (q : Bool) (m : Mach) : Mach.Ext P m (x.postRange p ch a n q m) :=
  (Mach.Ext.core m _).trans (x.postToken_ext _ _ _ _)

theorem Ctx.finish_ext (x : Ctx) (h : Hdr) (e : Nat) (m : Mach) : Mach.Ext P m (x.finish h e m) := Mach.Ext.up _ _

/-- A running instruction that finds no memory errors writes what its body writes. -/
theorem Ctx.runStn_ext (x : Ctx) (st : Stn) (h : Hdr) (sp : StnSpec) (tok : Option Token) (body : Ctx → Bool → Mach → Bool × Mach) (m : Mach)
    (hf : st.found = []) (hb : ∀ q m, Mach.Ext P m (body x q m).2) : Mach.Ext P m (x.runStn st h sp tok body m) := by
  have h0 : Mach.Ext P m (if h.wait = true then m.up (Core.popToken x.part h.inCh.toNat) else m) := by
    split
    · exact Mach.Ext.up _ _
    · exact Mach.Ext.refl _
  unfold Ctx.runStn
  simp only [hf, Ctx.meet, List.foldl_nil]
  refine Mach.Ext.trans ?_ (x.finish_ext h _ _)
  generalize (if h.wait = true then m.up (Core.popToken x.part h.inCh.toNat) else m) = m0 at *
  have h2 := h0.trans ((x.fences_ext (P := P) sp.reads m0))
  generalize x.fences sp.reads m0 = fr at *
  have h3 := h2.trans (hb (fr.1 || (x.gathered sp.reads m0).1 || tok.any (fun t => t.poison)) fr.2)
  generalize body x (fr.1 || (x.gathered sp.reads m0).1 || tok.any (fun t => t.poison)) fr.2 = br at *
  have h4 : Mach.Ext P m (match sp.bank with
      | some b => br.2.up (fun c => c.modMx x.part (fun q => { q with busy := insertKey b (x.job.actual x.issue + sp.bankEnd) q.busy }))
      | none => br.2) := by
    split
    · exact h3.then_up _
    · exact h3
  split
  · exact (h4.then_up _).trans (x.postRange_ext _ _ _ _ _ _)
  · exact h4.then_up _

/-! ### Operations that write station memory -/

theorem Ctx.putTile_ext (x : Ctx) (p a : Nat) (d : List Byte) (t : Trailer) (m : Mach) : Mach.Ext (onDieWr p) m (x.putTile p a d t m) :=
  ((Mach.putSm_ext p a _ _ m).then_up _).trans (x.guard_ext _ _ _ _ _ _)

theorem Ctx.writeTile_ext (x : Ctx) (f : Fmt) (o : Bool) (r c : Nat) (po ch un : Bool) (an : Nat) (bs : List Block) (p a : Nat) (m : Mach) :
    Mach.Ext (onDieWr p) m (x.writeTile f o r c po ch un an bs p a m) := x.putTile_ext p a _ _ m

theorem Ctx.putFlat_ext (x : Ctx) (p a : Nat) (bs : List Byte) (q : Bool) (m : Mach) : Mach.Ext (onDieWr p) m (x.putFlat p a bs q m) :=
  ((Mach.putSm_ext p a _ _ m).then_up _).trans (x.guard_ext _ _ _ _ _ _)

theorem Ctx.vecRead_ext (x : Ctx) (fl : Bool) (ft : Fmt) (o : Option Bool) (a : Nat) (m : Mach) : Mach.Ext P m (x.vecRead fl ft o a m).2 := by
  unfold Ctx.vecRead
  split
  · exact x.readFlat_ext _ _ _ _
  · exact x.readTile_ext _ _ _ _ _

theorem Ctx.vecTile_ext (x : Ctx) (o : VecOut) (e0 : Nat) (orient : Bool) (r c : Nat) (fl : OutFlags) (vs : List U32) (a : Nat) (m : Mach) :
    Mach.Ext (onDieWr x.part) m (x.vecTile o e0 orient r c fl vs a m) := x.writeTile_ext _ _ _ _ _ _ _ _ _ _ _ _

theorem Ctx.putRow_ext (x : Ctx) (a : Nat) (bs : List Byte) (q : Bool) (m : Mach) : Mach.Ext (onDieWr x.part) m (x.putRow a bs q m) := by
  unfold Ctx.putRow
  simp only
  refine Mach.Ext.trans (Mach.Ext.then_up ?_ _) (x.guard_ext _ _ _ _ _ _)
  have h1 := Mach.putUnits_ext (m.core.smUnits x.part a (bs.length / 64)) (Core.smUnits_onDie _ x.part a _) (bs.take (64 * (bs.length / 64))) q m
  generalize m.putUnits (m.core.smUnits x.part a (bs.length / 64)) (bs.take (64 * (bs.length / 64))) q = m1 at *
  split
  · exact h1
  · have hk := fun i hi => m1.core.smUnit_onDie x.part ((a + bs.length / 64) % 2 ^ 23) i hi
    have h64 := m1.core.smUnit_mod x.part ((a + bs.length / 64) % 2 ^ 23)
    generalize m1.core.smUnit x.part ((a + bs.length / 64) % 2 ^ 23) = k at *
    have h2 : Mach.Ext (onDieWr x.part) m (m1.patch k (bs.drop (64 * (bs.length / 64)))) := by
      refine h1.trans (Mach.patch_ext ?_ m1)
      intro i hi
      rw [List.length_drop] at hi
      exact hk i (by omega)
    split
    · refine h2.trans (Mach.Ext.write ?_ _)
      intro i hi
      obtain rfl : i = 0 := by omega
      have := hk 0 (by norm_num)
      rwa [show 64 * (k / 64 + 0) = k + 0 by omega]
    · exact h2

theorem Ctx.sameOrient_ext (x : Ctx) (ts : List (Nat × Nat)) (m : Mach) : Mach.Ext P m (x.sameOrient ts m).2 := by
  unfold Ctx.sameOrient
  simp only
  split
  · exact x.log_ext _ _ _ _ m
  · exact Mach.Ext.refl _

theorem Ctx.vecOperands_ext (x : Ctx) (opc : Nat) (f : VecF) (u : Nat) (m : Mach) : Mach.Ext P m (x.vecOperands opc f u m).2 := by
  refine Mach.Ext.foldl_snd (P := P) _ _ ?_ (([], m) : List VecIn × Mach)
  intro p i _
  exact x.vecRead_ext _ _ _ _ p.2

theorem Ctx.elemResult_ext (x : Ctx) (opc : Nat) (f : VecF) (u c : Nat) (o q : Bool) (ins : List VecIn) (m : Mach) :
    Mach.Ext (onDieWr x.part) m (x.elemResult opc f u c o q ins m).2 := by
  unfold Ctx.elemResult
  simp only
  split
  · exact x.putFlat_ext _ _ _ _ m
  · split
    · exact x.readFlat_ext _ _ _ m
    · exact Mach.Ext.refl _

theorem Ctx.elemUnit_ext (x : Ctx) (opc : Nat) (f : VecF) (stale : Bool) (u : Nat) (m : Mach) :
    Mach.Ext (onDieWr x.part) m (x.elemUnit opc f stale u m) := by
  unfold Ctx.elemUnit
  simp only
  have h1 := x.vecOperands_ext (P := onDieWr x.part) opc f u m
  generalize x.vecOperands opc f u m = v at *
  have h3 := fun c o q => h1.trans (x.elemResult_ext opc f u c o q v.1 v.2)
  split
  · exact (h3 _ _ _).trans (x.putFlat_ext _ _ _ _ _)
  · exact (h3 _ _ _).trans (x.vecTile_ext _ _ _ _ _ _ _ _ _)

theorem Ctx.readRow_ext (x : Ctx) (f : VecF) (n : Nat) (m : Mach) : Mach.Ext P m (x.readRow f n m).2 := x.readTiles_ext _ _ _ _ m

theorem Ctx.putRowTiles_ext (x : Ctx) (f : VecF) (n c : Nat) (br : BlockRow) (fl : OutFlags) (rows : List (List U32)) (m : Mach) :
    Mach.Ext (onDieWr x.part) m (x.putRowTiles f n c br fl rows m) :=
  Mach.Ext.foldl _ _ (fun m _ _ => x.vecTile_ext _ _ _ _ _ _ _ _ m) m

theorem Ctx.readF32s_ext (x : Ctx) (a n : Nat) (m : Mach) : Mach.Ext P m (x.readF32s a n m).2 := x.readFlat_ext _ _ _ m

theorem Ctx.rowUnit_ext (x : Ctx) (opc : Nat) (f : VecF) (stale : Bool) (n : Nat) (m : Mach) :
    Mach.Ext (onDieWr x.part) m (x.rowUnit opc f stale n m) := by
  have h1 := x.readRow_ext (P := onDieWr x.part) f n m
  unfold Ctx.rowUnit
  simp only
  generalize x.readRow f n m = br at *
  split
  · exact h1.trans (x.putFlat_ext _ _ _ _ _)
  · exact h1.trans (x.putFlat_ext _ _ _ _ _)
  · split
    · exact (h1.trans (x.putRowTiles_ext _ _ _ _ _ _ _)).trans (x.putFlat_ext _ _ _ _ _)
    · exact h1.trans (x.putRowTiles_ext _ _ _ _ _ _ _)
  · exact (h1.trans (x.readF32s_ext _ _ _)).trans (x.putRowTiles_ext _ _ _ _ _ _ _)
  · exact ((h1.trans (x.readF32s_ext _ _ _)).trans (x.readF32s_ext _ _ _)).trans (x.putRowTiles_ext _ _ _ _ _ _ _)
  · exact (h1.trans (x.readF32s_ext _ _ _)).trans (x.putRowTiles_ext _ _ _ _ _ _ _)

theorem Ctx.topkUnit_ext (x : Ctx) (f : VecF) (stale : Bool) (b : Option (List U32)) (n : Nat) (acc : List Nat × Bool × Mach) :
    Mach.Ext (onDieWr x.part) acc.2.2 (x.topkUnit f stale b n acc).2.2 :=
  (x.readRow_ext f n acc.2.2).trans (x.putFlat_ext _ _ _ _ _)

theorem Ctx.topk_ext (x : Ctx) (f : VecF) (stale : Bool) (m : Mach) : Mach.Ext (onDieWr x.part) m (x.topk f stale m) := by
  have hl : ∀ (l : List Nat) (b : Option (List U32)) (p : List Nat × Bool × Mach),
      Mach.Ext (onDieWr x.part) p.2.2 (l.foldl (fun acc n => x.topkUnit f stale b n acc) p).2.2 := by
    intro l b
    induction l with
    | nil => exact fun p => Mach.Ext.refl _
    | cons a r ih =>
      intro p
      rw [List.foldl_cons]
      exact (x.topkUnit_ext f stale b a p).trans (ih _)
  have hb : Mach.Ext (onDieWr x.part) m (x.topkBias f m).2 := by
    unfold Ctx.topkBias
    simp only
    split
    · exact x.readF32s_ext _ _ _
    · exact Mach.Ext.refl _
  unfold Ctx.topk
  simp only
  refine Mach.Ext.trans ?_ (x.putFlat_ext _ _ _ _ _)
  generalize x.topkBias f m = b at *
  have h2 := hb.trans (x.readFlat_ext x.part f.src2.toNat (128 * f.tw) b.2)
  generalize x.readFlat x.part f.src2.toNat (128 * f.tw) b.2 = c at *
  exact h2.trans (hl _ b.1 ((chunks 4 c.1).map natLE, stale, c.2))

theorem Ctx.formUnit_ext (x : Ctx) (f : VecF) (stale : Bool) (n : Nat) (m : Mach) : Mach.Ext (onDieWr x.part) m (x.formUnit f stale n m) := by
  unfold Ctx.formUnit
  simp only
  refine Mach.Ext.trans ?_ (Mach.Ext.foldl _ _ (fun m _ _ => x.vecTile_ext _ _ _ _ _ _ _ _ m) _)
  refine Mach.Ext.foldl_snd _ _ ?_ (([], m) : List (List U32) × Mach)
  intro p i _
  exact x.readFlat_ext _ _ _ p.2

theorem Ctx.unformUnit_ext (x : Ctx) (f : VecF) (stale : Bool) (n : Nat) (m : Mach) : Mach.Ext (onDieWr x.part) m (x.unformUnit f stale n m) := by
  unfold Ctx.unformUnit
  simp only
  refine Mach.Ext.trans (x.readTiles_ext _ _ _ _ m) (Mach.Ext.foldl _ _ (fun m _ _ => ?_) _)
  refine Mach.Ext.foldl _ _ (fun m e _ => ?_) m
  repeat' split
  all_goals first | exact Mach.Ext.refl _ | exact x.putRow_ext _ _ _ _

theorem Ctx.requantUnit_ext (x : Ctx) (f : VecF) (stale : Bool) (u : Nat) (m : Mach) : Mach.Ext (onDieWr x.part) m (x.requantUnit f stale u m) :=
  (x.readTile_ext _ _ _ _ m).trans (x.putTile_ext _ _ _ _ _)

theorem Ctx.asaccUnit_ext (x : Ctx) (f : VecF) (stale : Bool) (u : Nat) (m : Mach) : Mach.Ext (onDieWr x.part) m (x.asaccUnit f stale u m) := by
  have hk : ∀ i < 64, onDie x.part (m.core.smUnit x.part ((f.src2.toNat + u / 64) % 2 ^ 23) + i) := fun i hi => m.core.smUnit_onDie x.part _ i hi
  have h64 := m.core.smUnit_mod x.part ((f.src2.toNat + u / 64) % 2 ^ 23)
  unfold Ctx.asaccUnit
  simp only
  generalize m.core.smUnit x.part ((f.src2.toNat + u / 64) % 2 ^ 23) = k at *
  have hp : ∀ m' : Mach, ∀ b : Byte, Mach.Ext (onDieWr x.part) m' (m'.patch (k + u % 64) [b]) := fun m' b => Mach.patch_ext (by
    intro i hi
    rw [List.length_singleton] at hi
    obtain rfl : i = 0 := by omega
    exact hk (u % 64) (Nat.mod_lt _ (by norm_num))) m'
  have hq : ∀ m' : Mach, Mach.Ext (onDieWr x.part) m' (m'.write (.poison ((k + u % 64) / 64) 1 true)) := fun m' => Mach.Ext.write (by
    intro i hi
    obtain rfl : i = 0 := by omega
    have := hk 0 (by norm_num)
    rwa [show 64 * ((k + u % 64) / 64 + 0) = k + 0 by omega]) m'
  have body : ∀ m4 : Mach, Mach.Ext (onDieWr x.part) m m4 → ∀ (fo : Fmt) (o : Bool) (r c : Nat) (fl : OutFlags) (an : Nat) (bs : List Block) (d : Nat) (b : Byte),
      Mach.Ext (onDieWr x.part) m
        (if fl.poison then ((x.writeTile fo o r c fl.poison fl.checked fl.unsealed an bs x.part d m4).patch (k + u % 64) [b]).write
            (.poison ((k + u % 64) / 64) 1 true)
         else (x.writeTile fo o r c fl.poison fl.checked fl.unsealed an bs x.part d m4).patch (k + u % 64) [b]) := by
    intro m4 h4 fo o r c fl an bs d b
    have h5 := (h4.trans (x.writeTile_ext fo o r c fl.poison fl.checked fl.unsealed an bs x.part d m4)).trans (hp _ b)
    split
    · exact h5.trans (hq _)
    · exact h5
  refine body _ ?_ _ _ _ _ _ _ _ _ _
  split
  · exact (x.readTile_ext _ _ _ _ m).trans (x.readFlat_ext _ _ _ _)
  · exact ((x.readTile_ext _ _ _ _ m).trans (x.readTile_ext _ _ _ _ _)).trans (x.readFlat_ext _ _ _ _)

theorem Ctx.adamUnit_ext (x : Ctx) (f : VecF) (stale : Bool) (pb : List Byte) (u : Nat) (acc : Nat × Mach) :
    Mach.Ext (onDieWr x.part) acc.2 (x.adamUnit f stale pb u acc).2 := by
  unfold Ctx.adamUnit
  simp only
  refine Mach.Ext.trans (Mach.Ext.trans (Mach.Ext.trans (Mach.Ext.trans ?_ (x.putFlat_ext _ _ _ _ _)) (x.putFlat_ext _ _ _ _ _))
    (x.putFlat_ext _ _ _ _ _)) (x.vecTile_ext _ _ _ _ _ _ _ _ _)
  have h3 := ((x.readFlat_ext (P := onDieWr x.part) x.part ((pbAddr pb 32 + 64 * u) % 2 ^ 23) 4096 acc.2).trans
    (x.readFlat_ext x.part ((pbAddr pb 38 + 17 * u) % 2 ^ 23) 1088 _)).trans (x.readFlat_ext x.part ((pbAddr pb 44 + 17 * u) % 2 ^ 23) 1088 _)
  split
  · exact h3
  · exact h3.trans (x.readFlat_ext _ _ _ _)

theorem Ctx.adamw_ext (x : Ctx) (f : VecF) (stale : Bool) (m : Mach) : Mach.Ext (onDieWr x.part) m (x.adamw f stale m).2 := by
  have h1 := x.readFlat_ext (P := onDieWr x.part) x.part f.src0.toNat 64 m
  unfold Ctx.adamw
  simp only
  generalize x.readFlat x.part f.src0.toNat 64 m = pb at *
  split
  · exact (((h1.trans (x.log_ext _ _ _ _ _)).then_up _).trans (x.pends_ext _ _ _)).trans (x.detect_ext _ _)
  · split
    · exact h1.trans (x.log_ext _ _ _ _ _)
    · have h2 := h1.trans (Mach.Ext.foldl_snd (P := onDieWr x.part) (List.range f.count.toNat) (fun acc u => x.adamUnit f stale pb.1 u acc)
        (fun p u _ => x.adamUnit_ext f stale pb.1 u p) (0, pb.2))
      simp only
      split
      · exact h2
      · exact h2.then_up _

theorem Ctx.sqnorm_ext (x : Ctx) (f : VecF) (stale : Bool) (m : Mach) : Mach.Ext (onDieWr x.part) m (x.sqnorm f stale m) := by
  unfold Ctx.sqnorm
  simp only
  refine Mach.Ext.trans ?_ (x.putFlat_ext _ _ _ _ _)
  have hl : ∀ (l : List Nat) (p : U32 × Nat × Mach), Mach.Ext (onDieWr x.part) p.2.2 (l.foldl (fun (acc : U32 × Nat × Mach) u =>
      let (xs, m') := x.readF32s ((f.src0.toNat + 64 * u) % 2 ^ 23) 1024 acc.2.2
      let ys := xs.map (fun v => f32Mul v f.imm0)
      (f32Add acc.1 (treeSum 10 (ys.map (fun y => f32Mul y y))), acc.2.1 + (ys.filter (fun y => (f32 y).nonFinite)).length, m')) p).2.2 := by
    intro l
    induction l with
    | nil => exact fun p => Mach.Ext.refl _
    | cons a r ih => exact fun p => (x.readF32s_ext _ _ _).trans (ih _)
  exact hl _ (f32Zero, 0, m)

theorem vecUnits_ext (opc : Nat) (f : VecF) (x : Ctx) (q : Bool) (m : Mach) : Mach.Ext (onDieWr x.part) m (vecUnits opc f x q m).2 := by
  have hu : ∀ g : Nat → Mach → Mach, (∀ u m, Mach.Ext (onDieWr x.part) m (g u m)) →
      Mach.Ext (onDieWr x.part) m ((List.range f.count.toNat).foldl (fun m u => g u m) m) :=
    fun g hg => Mach.Ext.foldl _ _ (fun m u _ => hg u m) m
  unfold vecUnits
  simp only
  split
  · exact hu _ (fun u m => x.elemUnit_ext opc f q u m)
  · split
    · exact x.topk_ext f q m
    · exact hu _ (fun u m => x.formUnit_ext f q u m)
    · exact hu _ (fun u m => x.unformUnit_ext f q u m)
    · exact hu _ (fun u m => x.requantUnit_ext f q u m)
    · exact hu _ (fun u m => x.asaccUnit_ext f q u m)
    · exact x.adamw_ext f q m
    · exact x.sqnorm_ext f q m
    · exact hu _ (fun u m => x.rowUnit_ext opc f q u m)

/-- A vector instruction writes only station memory of its own die. -/
theorem vecBody_ext (opc : Nat) (f : VecF) (x : Ctx) (q : Bool) (m : Mach) : Mach.Ext (onDieWr x.part) m (vecBody opc f x q m).2 :=
  (x.sameOrient_ext _ m).trans (vecUnits_ext opc f x _ _)

/-! ### Arrays and thin stations -/

theorem mmaSubTiles_ext (x : Ctx) (f : MmaF) (fa fb fo : Fmt) (aT bT : List (List TileIn)) (fl : Nat → OutFlags) (inits : List (List (List U32)))
    (m : Mach) : Mach.Ext (onDieWr x.part) m (mmaSubTiles x f fa fb fo aT bT fl inits m) := by
  unfold mmaSubTiles
  simp only
  exact Mach.Ext.foldl _ _ (fun m _ _ => (Mach.Ext.up _ m).trans (x.writeTile_ext _ _ _ _ _ _ _ _ _ _ _ _)) m

theorem mmaBody_ext (f : MmaF) (x : Ctx) (q : Bool) (m : Mach) : Mach.Ext (onDieWr x.part) m (mmaBody f x q m).2 := by
  unfold mmaBody
  split
  · simp only
    refine Mach.Ext.trans (Mach.Ext.then_up ?_ _) (mmaSubTiles_ext _ _ _ _ _ _ _ _ _ _)
    have hl : ∀ (l : List Nat) (ft : Fmt) (o : Option Bool) (g : Nat → List Nat) (p : List (List TileIn) × Mach),
        Mach.Ext (onDieWr x.part) p.2 (l.foldl (fun (acc : List (List TileIn) × Mach) i =>
          (acc.1 ++ [(x.readTiles ft o x.part (g i) acc.2).1], (x.readTiles ft o x.part (g i) acc.2).2)) p).2 := by
      intro l ft o g
      induction l with
      | nil => exact fun p => Mach.Ext.refl _
      | cons a r ih => exact fun p => (x.readTiles_ext ft o x.part (g a) p.2).trans (ih _)
    have h2 := fun fa fb ga gb => (hl (List.range (shapeDims f.shape).1) fa (some false) ga ([], m)).trans
      (hl (List.range (shapeDims f.shape).2) fb (some true) gb ([], _))
    split
    · exact (h2 _ _ _ _).trans (x.readTiles_ext _ _ _ _ _)
    · exact h2 _ _ _ _
  · exact Mach.Ext.refl _

theorem vloadBody_ext (f : VloadF) (x : Ctx) (q : Bool) (m : Mach) : Mach.Ext P m (vloadBody f x q m).2 := by
  unfold vloadBody
  split
  · exact (x.readTiles_ext _ _ _ _ m).then_up _
  · exact Mach.Ext.refl _

theorem mvBody_ext (f : MvF) (x : Ctx) (q : Bool) (m : Mach) : Mach.Ext (onDieWr x.part) m (mvBody f x q m).2 := by
  unfold mvBody
  split
  · simp only
    refine Mach.Ext.trans (Mach.Ext.then_up ?_ _) (Mach.Ext.foldl _ _ (fun m _ _ => x.writeTile_ext _ _ _ _ _ _ _ _ _ _ _ _) _)
    split
    · exact (x.readTiles_ext _ _ _ _ m).trans (x.readTiles_ext _ _ _ _ _)
    · exact x.readTiles_ext _ _ _ _ m
  · exact Mach.Ext.refl _

end Sys2Proof.Machine
end

