-- ==== Sys2Proof/WellFormed.lean ====
section
/-!
DEFINITION. Which commands are well formed: every number that names a thing of the module names one it has (01 Tables 01-2, 01-3; 12 Table 12-3), and a station
instruction runs on a station of the kind its SCODE gives (04 R95).
-/

namespace Sys2Proof

open Sys2Proof.Machine

/-- One of the 16 Celoth ports. -/
def portOk (p : Nat) : Bool := decide (p < 16)

/-- One of the 8 partitions. -/
def partOk (p : Nat) : Bool := decide (p < 8)

/-- A die code of 12 Table 12-3. -/
def dieOk (d : Nat) : Bool :=
  decide (d < 12) || (decide (0x10 ≤ d) && decide (d < 0x14)) || d == 0x20 || d == 0x21 || d == 0x28 || d == 0x29 || (decide (0x30 ≤ d) && decide (d < 0x38))

/-- The logical station of an instruction is of one of the kinds given by SCODE. -/
def stnOk (st : Stn) (kinds : List Nat) : Bool := kinds.contains (st.lsid.toNat / 4096)

/-- A reading names a die. -/
def Machine.Reading.ok (r : Reading) : Bool := dieOk r.die

/-- Whether a command is well formed. -/
def Instr.wf (i : Instr) : Bool :=
  match i with
  | .nop st _ => stnOk st [1, 2, 3, 4, 5, 6]
  | .post st _ _ => stnOk st [1, 2, 3, 4, 5, 6]
  | .release st _ _ => stnOk st [1, 2, 3, 4, 5, 6]
  | .mma st _ _ => stnOk st [1]
  | .vload st _ _ => stnOk st [2]
  | .mv st _ _ => stnOk st [2]
  | .vadd st _ _ => stnOk st [3]
  | .vsub st _ _ => stnOk st [3]
  | .vmul st _ _ => stnOk st [3]
  | .vfma st _ _ => stnOk st [3]
  | .vmax st _ _ => stnOk st [3]
  | .vmin st _ _ => stnOk st [3]
  | .vaxpy st _ _ => stnOk st [3]
  | .vabs st _ _ => stnOk st [3]
  | .vneg st _ _ => stnOk st [3]
  | .vclamp st _ _ => stnOk st [3]
  | .vcvt st _ _ => stnOk st [3]
  | .vfill st _ _ => stnOk st [3]
  | .vrope st _ _ => stnOk st [3]
  | .vexp st _ _ => stnOk st [3]
  | .vexp2 st _ _ => stnOk st [3]
  | .vlog st _ _ => stnOk st [3]
  | .vrcp st _ _ => stnOk st [3]
  | .vsqrt st _ _ => stnOk st [3]
  | .vrsqrt st _ _ => stnOk st [3]
  | .vtanh st _ _ => stnOk st [3]
  | .vsigmoid st _ _ => stnOk st [3]
  | .vgelu st _ _ => stnOk st [3]
  | .vsilu st _ _ => stnOk st [3]
  | .vsin st _ _ => stnOk st [3]
  | .vcos st _ _ => stnOk st [3]
  | .vrsum st _ _ => stnOk st [3]
  | .vrmax st _ _ => stnOk st [3]
  | .vsoftmax st _ _ => stnOk st [3]
  | .vrmsnorm st _ _ => stnOk st [3]
  | .vlayernorm st _ _ => stnOk st [3]
  | .vtopk st _ _ => stnOk st [3]
  | .vrowscale st _ _ => stnOk st [3]
  | .vform st _ _ => stnOk st [3]
  | .vunform st _ _ => stnOk st [3]
  | .vrequant st _ _ => stnOk st [3]
  | .vasacc st _ _ => stnOk st [3]
  | .voptAdamw st _ _ => stnOk st [3]
  | .vsqnorm st _ _ => stnOk st [3]
  | .vdropout st _ _ => stnOk st [3]
  | .vmask st _ _ => stnOk st [3]
  | .gather st _ _ => stnOk st [4]
  | .xfer st _ _ => stnOk st [5]
  | .allreduce st _ _ _ => stnOk st [6]
  | .reduceScatter st _ _ _ => stnOk st [6]
  | .allGather st _ _ _ => stnOk st [6]
  | .broadcast st _ _ _ => stnOk st [6]
  | .dispatch st _ _ _ => stnOk st [6]
  | .combine st _ _ _ => stnOk st [6]
  | .shardPermute st _ _ _ => stnOk st [6]
  | .issueHoldRelease _ _ => true
  | .startGrant _ _ => true
  | .streamPostDeferred _ _ _ => true
  | .lateGather _ _ _ => true
  | .residueMismatch _ _ _ _ _ _ _ _ => true
  | .descriptorWrite _ part core ring slot _ => partOk part && decide (core < 5) && decide (ring < 256) && decide (slot < 16)
  | .kiteMailboxSubmit _ part core _ _ _ => partOk part && decide (core < 5)
  | .controlCoreFailure p core => partOk p && decide (core < 5)
  | .beatEdge _ => true
  | .localReplayEnd _ => true
  | .slotStart part slot _ _ => partOk part && decide (slot < 64)
  | .holdLimitReached _ _ => true
  | .engineOverrun _ _ => true
  | .captureDone part _ => partOk part
  | .captureTimeout part => partOk part
  | .suspectReplayPass part => partOk part
  | .verdictFinal _ _ => true
  | .sealVoteResult _ _ _ => true
  | .mirrorVoteResult _ _ _ => true
  | .resumeVoteResult _ _ _ => true
  | .snapshotVoteResult _ _ _ => true
  | .latenessVoteResult _ _ _ => true
  | .kiteOperationComplete _ _ _ _ => true
  | .kiteTimeout _ _ _ => true
  | .partnerSilent _ _ _ => true
  | .kiteAbortReceived port _ => portOk port
  | .failureNoticeReceived _ _ _ => true
  | .remapNoticeReceived _ _ _ _ _ => true
  | .rollbackNoticeReceived _ _ _ => true
  | .abortNoticeReceived _ => true
  | .partnerLost _ => true
  | .entryCheckDone _ _ => true
  | .ballastStreamDone => true
  | .mirrorFrameReceived port _ => portOk port
  | .frameBadCrc port _ _ => portOk port
  | .frameInvalid port _ => portOk port
  | .linkCtl port _ => portOk port
  | .sync port _ _ _ _ _ => portOk port
  | .xopen port _ _ => portOk port
  | .xdata port _ => portOk port
  | .rdReq port _ _ => portOk port
  | .rdRsp port _ => portOk port
  | .wrReq port _ => portOk port
  | .wrAck port _ => portOk port
  | .regRd port _ => portOk port
  | .regWr port _ => portOk port
  | .kite port _ => portOk port
  | .reject port _ => portOk port
  | .linkInit port _ => portOk port
  | .portStateExchange pos _ => decide (pos < 64)
  | .peerDetected port => portOk port
  | .trainingDone port _ _ => portOk port
  | .trainingFailed port => portOk port
  | .linkInitResend port => portOk port
  | .laneFailure port lane => portOk port && decide (lane < 5)
  | .replayTimeout port => portOk port
  | .retrainNoProgress port => portOk port
  | .fastRetrainDone port => portOk port
  | .fastRetrainFailed port => portOk port
  | .ackTimer port => portOk port
  | .creditUpdateTimer port => portOk port
  | .syncExchangeTimer port => portOk port
  | .syncLost => true
  | .syncNotRegained => true
  | .rekeyStart port => portOk port
  | .keyExhausted port => portOk port
  | .d2dLinkFailed _ => true
  | .ledgerFailover k => decide (k < 2)
  | .volezFailover => true
  | .channelCopyDone part _ => partOk part
  | .scrubPass _ => true
  | .sentinelTestDone _ die _ _ _ _ => dieOk die
  | .sentinelForwardReceived d _ => decide (d < 6)
  | .agingSample die _ _ => dieOk die
  | .sensorMismatch r => r.ok
  | .coolantAlarm _ _ => true
  | .policyLimit kind _ => decide (kind < 3)
  | .thermalThrottleTick readings _ => readings.all Reading.ok
  | .currentThrottle _ => true
  | .throttleRatioTick _ _ _ _ loops volts => decide (loops < 3) && volts.all Reading.ok
  | .powerTrip _ => true
  | .haltChannelsAsserted => true
  | .haltInputFault _ => true
  | .haltDisagreementEnd _ => true
  | .haltNoBeat => true
  | .haltRelease => true
  | .haltTimeout => true
  | .inputTurnOn => true
  | .inputTurnOff _ => true
  | .pwrOkAssert => true
  | .pwrOkDeassert => true
  | .resetNAssert => true
  | .resetNRelease => true
  | .perstAssert => true
  | .perstRelease => true
  | .powerGoodRelease => true
  | .resetPhaseDone _ => true
  | .resetReady part _ => part.all partOk
  | .partitionReset part => part.all partOk
  | .partitionSequenceTimeout part => partOk part
  | .functionLevelReset _ => true
  | .flashOwnN _ _ => true
  | .sqTailDoorbell _ queue _ => decide (queue < 1024)
  | .cqHeadDoorbell _ queue _ => decide (queue < 1024)
  | .rqDoorbell _ queue _ => decide (queue < 1024)
  | .commandFetch _ queue _ => decide (queue < 1024)
  | .interruptCoalesceTimer _ queue => decide (queue.queue < 1024)
  | .apertureRead _ _ _ _ => true
  | .apertureWrite _ _ _ _ => true
  | .pcieAtomicop => true
  | .txnIdleTimeout _ => true
  | .moduleInfo _ sq _ => decide (sq < 1024)
  | .profileSet _ sq _ => decide (sq < 1024)
  | .configMode _ sq _ => decide (sq < 1024)
  | .hbmRegionsSet _ sq _ => decide (sq < 1024)
  | .fwStage _ sq _ _ => decide (sq < 1024)
  | .fwActivate _ sq _ => decide (sq < 1024)
  | .powerPolicy _ sq _ => decide (sq < 1024)
  | .reset _ sq _ => decide (sq < 1024)
  | .tenantEnable _ sq _ => decide (sq < 1024)
  | .tenantDisable _ sq _ => decide (sq < 1024)
  | .leasePartition _ sq _ => decide (sq < 1024)
  | .leaseGranules _ sq _ => decide (sq < 1024)
  | .leaseHbm _ sq _ => decide (sq < 1024)
  | .leaseBandwidth _ sq _ => decide (sq < 1024)
  | .leaseLink _ sq _ => decide (sq < 1024)
  | .queueCreate _ sq _ => decide (sq < 1024)
  | .queueDelete _ sq _ => decide (sq < 1024)
  | .planAdmit _ sq _ _ _ => decide (sq < 1024)
  | .planWithdraw _ sq _ => decide (sq < 1024)
  | .jobLaunch _ sq _ _ => decide (sq < 1024)
  | .jobQuery _ sq _ => decide (sq < 1024)
  | .dataPut _ sq _ _ => decide (sq < 1024)
  | .dataGet _ sq _ _ _ => decide (sq < 1024)
  | .fabricConfig _ sq _ _ => decide (sq < 1024)
  | .sliceCreate _ sq _ => decide (sq < 1024)
  | .sliceDelete _ sq _ => decide (sq < 1024)
  | .linkEncrypt _ sq _ _ => decide (sq < 1024)
  | .txnBegin _ sq _ => decide (sq < 1024)
  | .txnCommit _ sq _ => decide (sq < 1024)
  | .txnRollback _ sq _ => decide (sq < 1024)
  | .txnQuery _ sq _ => decide (sq < 1024)
  | .ckptTargetSet _ sq _ _ => decide (sq < 1024)
  | .ckptKeySet _ sq _ => decide (sq < 1024)
  | .snapSchedule _ sq _ _ => decide (sq < 1024)
  | .snapNow _ sq _ => decide (sq < 1024)
  | .spoolRate _ sq _ => decide (sq < 1024)
  | .snapAbandon _ sq _ => decide (sq < 1024)
  | .restore _ sq _ _ _ _ => decide (sq < 1024)
  | .snapQuery _ sq _ => decide (sq < 1024)
  | .sentinelLoad _ sq _ _ => decide (sq < 1024)
  | .sentinelRun _ sq _ => decide (sq < 1024)
  | .suspectSwap _ sq _ _ => decide (sq < 1024)
  | .snapStepNotice _ _ => true
  | .snapshotCopyDone _ _ => true
  | .stripeFlushed _ _ => true
  | .stripeReportReceived _ _ _ => true
  | .manifestWaitTimeout _ _ => true
  | .snapCompleteNotice _ _ _ => true
  | .snapFailureNotice _ _ _ => true
  | .nvmeCompletion _ _ _ _ => true
  | .nvmeConnectionLost _ target => decide (target < 8)
  | .targetUnconnectedTimeout _ target => decide (target < 8)
  | .keepAlive => true
  | .clearCounts part => partOk part
  | .partHoldStatsClear part => partOk part
  | .partVsSkipClear part => partOk part
  | .partBeatStatsClear part => partOk part
  | .partMemEccClear part => partOk part
  | .streamStateFlagClear part _ => partOk part
  | .lostSeenClear => true
  | .clearErr port => portOk port
  | .portDisableWrite port _ => portOk port
  | .csAbortsClear ld => decide (ld < 4)
  | .kiteStatsClear ld => decide (ld < 4)
  | .replayStatsClear => true
  | .clearHw k => decide (k < 2)
  | .spoolErrsClear => true
  | .spoolBytesClear => true
  | .clearOvr => true
  | .tenStatusClear _ => true
  | .adminQueueEnable _ => true
  | .adminQueueDisable _ => true
  | .apertureErrsClear _ => true
  | .inputFaultClear => true
  | .pwrLoopClear => true
  | .throttleTimeClear => true
  | .celothCountLowRead => true
  | .registerWrite _ _ => true
  | .registerAccess _ _ => true
  | .i3cModuleIdent => true
  | .i3cStatusBytes => true
  | .i3cHottestTemp => true
  | .i3cInputPower => true
  | .i3cFaultCount => true
  | .i3cFaultRecordNext => true
  | .i3cDynamicAddress _ => true
  | .clearFaults => true
  | .capability => true
  | .statusByte => true
  | .statusWord => true
  | .statusInput => true
  | .statusTemperature => true
  | .readVin => true
  | .readIin => true
  | .readPin => true
  | .readTemperature1 => true
  | .readTemperature2 => true
  | .pmbusRevision => true
  | .mfrId => true
  | .mfrModel => true
  | .mfrRevision => true
  | .pmbusWriteRefused => true
  | .bypass => true
  | .idcode => true
  | .samplePreload => true
  | .extest => true
  | .clamp => true
  | .highz => true
  | .spdmRequest _ => true
  | .controlCoreLoad _ part core _ _ _ => partOk part && decide (core < 5)
  | .controlCoreStore _ part core _ _ _ _ => partOk part && decide (core < 5)
  | .loadReserved _ part core _ _ => partOk part && decide (core < 5)
  | .storeConditional _ part core _ _ => partOk part && decide (core < 5)
  | .clean _ part core _ => partOk part && decide (core < 5)
  | .inval _ part core _ => partOk part && decide (core < 5)
  | .fence _ part core => partOk part && decide (core < 5)
  | .controlCoreTokenPost _ part _ _ _ => partOk part
  | .inputOutOfRange _ => true
  | .overvoltageTurnOn => true
  | .tripRestart readings => readings.all Reading.ok
  | .linkKeyAgreement port _ _ => portOk port
  | .ballastClaim _ => true
  | .resetStartDelay => true
  | .targetConnectTimeout _ target => decide (target < 8)

end Sys2Proof
end

