-- ==== Sys2Proof/Tests/Slice0.lean ====
section
/-!
SUPPORT. The model's own tests: values that the spec itself works out, an ill-formed term for each check of WellFormed, and for every statement that has
hypotheses a concrete state and operands that meet them, clause by clause. Each theorem is about one step at most.
-/

namespace Sys2Proof.Tests

open Sys2Proof Sys2Proof.Machine

set_option Elab.async false

/-! ### Small states -/

/-- A plan of tenant 3 with a vector station, a matrix array, a transfer station and a control core. -/
def hdr0 : PlanHdr :=
  { holdLimit := 10, detourHops := 0, stepBeats := 4, beatUs := 100, levelP := false, lends := false, onDemand := false, cls := 1, lldMask := 0,
    lpartMask := 1, grade := 0xA, profile := 1, logicalModule := 7, tx := 0, ty := 0, tz := 0, sliceK := 0, sliceKind := 0, modCount := 1, fwMajor := 1,
    shapeDigest := [], digest := [] }

def plan0 : Plan :=
  { handle := 1, tenant := 3, hdr := hdr0, progs := [], ctrl := [], streams := [],
    bufs := [{ space := 2, lpart := 0, off := 0, units := 2 ^ 20, kind := 1 }], claims := [], checks := [], splits := [], groups := [], demand := [],
    pmap := [some 2], lmap := [], binds := [⟨0x3001, 2, 4⟩, ⟨0x1001, 2, 5⟩], rings := [], progBytes := 0 }

def job0 : Job := { plan := 1, tenant := 3, phase := .running, lc := 0, firstStep := 0, key := 5, logicalModule := 7, step := 9, beat := 1 }

/-- Every slot of a die belongs to tenant 3. -/
def own : SlotEntry := { owner := List.replicate 35 3, vacant := 0 }

def parts0 : List Part := List.replicate 8 { slots := { table := List.replicate 64 own } }

def core0 : Core :=
  { clk := { beatUs := 100, lenSet := true, epochSet := true }, plans := [plan0], jobs := [job0], tens := [(0, { enabled := true }), (3, { enabled := true })],
    parts := parts0 }

def at_ (c : Core) : State := { State.reset with core := c }

def s0 : State := at_ core0

/-- A header with an ISSUE cycle and no bits. -/
def h0 (c : Nat) : Hdr := { outCh := 0, inCh := 0, issue := BitVec.ofNat 28 c, ind := false, last := false, post := false, wait := false }

def v0 : VecF :=
  { flat := false, packed := false, mod := 0, imm1 := 0, imm0 := 0x3F800000, cvt := 0, outFmt := 0, fmt1 := 0, fmt0 := 0, count := 1, dst := 0, src2 := 0,
    src1 := 0, src0 := 0 }

def vs : Stn := ⟨1, 0x3001, []⟩

/-! ### Station instructions -/

/-- The hypotheses of an issue as one Bool, with one more condition `p` on the context and the token. -/
def issuesB (m : Mach) (st : Stn) (h : Hdr) (opc : Nat) (sp : Ctx → StnSpec) (p : Ctx → Option Token → Bool) : Bool :=
  match m.ctx st h opc with
  | none => false
  | some x =>
    let tok := if h.wait then m.core.headToken x.part h.inCh.toNat else none
    x.job.phase == .running && x.job.holds.isEmpty &&
    m.core.cyclesGiven (lsScode x.lsid) x.part (if lsScode x.lsid = 6 then x.die - 0x10 else x.inst) (x.job.actual x.issue)
      (x.job.actual x.issue + (sp x).dur + max (boolNat h.post) (sp x).after) x.tenant x.idleSlots && (!h.wait || tok.isSome) && !h.ind && x.operandsReady (sp x) tok m.core &&
    !x.job.writeHold && !x.needsGrant && p x tok

theorem issues_of_issuesB {m : Mach} {st : Stn} {h : Hdr} {opc : Nat} {sp : Ctx → StnSpec} {p : Ctx → Option Token → Bool}
    (e : issuesB m st h opc sp p = true) : ∃ x tok, Issues m st h opc (sp x) x tok ∧ p x tok = true := by
  unfold issuesB at e
  split at e
  · cases e
  · rename_i x hx
    simp only [Bool.and_eq_true, beq_iff_eq, List.isEmpty_iff, Bool.not_eq_true', Bool.or_eq_true] at e
    obtain ⟨⟨⟨⟨⟨⟨⟨⟨h1, h2⟩, h3⟩, h4⟩, h5⟩, h6⟩, h7⟩, h8⟩, h9⟩ := e
    exact ⟨x, _, ⟨hx, h1, h2, h3, rfl, fun w => by cases h4 with
      | inl h => simp [h] at w
      | inr h => exact h, h5, h6, h7, h8⟩, h9⟩

/-- A plan with one station of each code, a channel and a group of one member. -/
def plan1 : Plan :=
  { plan0 with
    bufs := [{ space := 2, lpart := 0, off := 0, units := 2 ^ 20, kind := 1 }, { space := 0, lpart := 0, off := 0, units := 2 ^ 20, kind := 1 }],
    binds := [⟨0x3001, 2, 4⟩, ⟨0x1001, 2, 5⟩, ⟨0x2000, 2, 0⟩, ⟨0x4000, 2, 1⟩, ⟨0x5000, 2, 1⟩, ⟨0x6000, 0x10, 0⟩],
    lmap := [some 0], groups := [{ index := 5, members := [7], rank := some 0, raw := List.replicate 128 0 }] }

def job1 : Job := { job0 with resident := [(2, 0, 8192)] }

def tok0 : Token := { beat := 1, poison := false, ntiles := 1, addr := 0 }

def chan0 : ChanSt := { depth := 4, tokens := [tok0], producer := 0x1001, consumer := 0x3001, plan := 1 }

/-- Channel 7 of die 2 holds one token, channel 8 none; there is a fence slot. -/
def core1 : Core :=
  { core0 with
    plans := [plan1], jobs := [job1], csSlots := List.replicate 64 ([3, 3, 3, 3], 0),
    parts := core0.parts.set 2 { slots := { table := List.replicate 64 own }, streams := {
      chans := [(7, chan0), (8, { chan0 with tokens := [] })],
      fences := [(1, { dstAddr := smAddr64 0 0, dstUnits := 64, srcAddr := 0, regions := [], refSum := 0, stale := false, tenant := 3, plan := 1 })] } } }

def s1 : State := at_ core1

def yes (_ : Ctx) (_ : Option Token) : Bool := true

theorem test_hyps_VectorInstructionRuns :
    (∃ x tok, Issues (startMach s1) vs (h0 400) 0x30 (vecSpec 0x30 ((startMach s1).reach 1 400) x { v0 with src1 := 100, dst := 9000 }) x tok ∧ yes x tok = true) ∧
    vecRow (.vadd vs (h0 400) { v0 with src1 := 100, dst := 9000 }) = some (0x30, vs, h0 400, { v0 with src1 := 100, dst := 9000 }) :=
  ⟨issues_of_issuesB (sp := fun x => vecSpec 0x30 ((startMach s1).reach 1 400) x { v0 with src1 := 100, dst := 9000 }) (by decide +kernel), rfl⟩

def mma0 : MmaF :=
  { cvt := 0, outFmt := 0, outStride := 0, outBase := 9000, initBase := 0, init := false, bank := false, shape := 0, fmtB := 3, fmtA := 3, kblk := 1,
    bCstride := 0, bBase := 500, aRstride := 0, aBase := 400 }

def vload0 : VloadF := { bufOff := 0, nvecM1 := 0, row := 0, kblk := 1, fmt := 3, srcBase := 400 }

def mv0 : MvF :=
  { cvt := 0, outFmt := 0, outBase := 9000, initBase := 0, init := false, bank := false, bufOff := 0, nvecM1 := 0, kblk := 1, vFmt := 3, wFmt := 3,
    wBase := 400 }

theorem test_hyps_ArrayAndThinInstructionsRun :
    (∃ x tok, Issues (startMach s1) ⟨1, 0x1001, []⟩ (h0 400) 0x10 (mmaSpec x mma0) x tok ∧ yes x tok = true) ∧
    (∃ x tok, Issues (startMach s1) ⟨1, 0x2000, []⟩ (h0 400) 0x20 (vloadSpec x vload0) x tok ∧ yes x tok = true) ∧
    (∃ x tok, Issues (startMach s1) ⟨1, 0x2000, []⟩ (h0 400) 0x21 (mvSpec x mv0) x tok ∧ yes x tok = true) :=
  ⟨issues_of_issuesB (sp := fun x => mmaSpec x mma0) (by decide +kernel), issues_of_issuesB (sp := fun x => vloadSpec x vload0) (by decide +kernel),
    issues_of_issuesB (sp := fun x => mvSpec x mv0) (by decide +kernel)⟩

def xfer0 : XferF :=
  { dst := BitVec.ofNat 64 (smAddr64 0 9000), src := BitVec.ofNat 64 (smAddr64 0 0), len := 16, mode := 0, fenceSlot := 0, dstCh := 0, rpost := false, tfmt := 0 }

def gather0 : GatherF :=
  { winEnd := 2000, tblRows := 8, rowUnits := 2, dstBase := 9000, idxCount := 16, idxBase := 0, tspace := 2, toff := 0 }

def coll0 : CollF :=
  { dst := 0, src := 0, count := 1024, cvt := 0, outFmt := 0, fmtIn := 0, group := 5, clog2 := 0, head := 0, anch := false, red := 0 }

/-- The transfer with RPOST shows the case in which POST of the header does not count. -/
theorem test_hyps_TransferGatherAndCollectivesRun :
    (∃ x tok, Issues (startMach s1) ⟨1, 0x5000, []⟩ (h0 400) 0x80 (xferSpec ((startMach s1).reach 1 400) x xfer0) x tok ∧ yes x tok = true) ∧
    h0 400 = (if { xfer0 with rpost := true }.rpost then { ({ h0 400 with post := true } : Hdr) with post := false } else { h0 400 with post := true }) ∧
    (∃ x tok, Issues (startMach s1) ⟨1, 0x4000, []⟩ (h0 400) 0x70 (gatherSpec gather0 x gather0) x tok ∧ yes x tok = true) ∧
    (∃ x tok, Issues (startMach s1) ⟨1, 0x6000, []⟩ (h0 400) 0x90 (collSpec 0x90 ((startMach s1).reach 1 400) x coll0) x tok ∧ yes x tok = true) ∧
    (startMach s1).collReady ⟨1, 0x6000, []⟩ coll0 0x90 [] = true :=
  ⟨issues_of_issuesB (sp := fun x => xferSpec ((startMach s1).reach 1 400) x xfer0) (by decide +kernel), rfl,
    issues_of_issuesB (sp := fun x => gatherSpec gather0 x gather0) (by decide +kernel),
    issues_of_issuesB (sp := fun x => collSpec 0x90 ((startMach s1).reach 1 400) x coll0) (by decide +kernel), by decide +kernel⟩

theorem test_hyps_ComputeStationsWriteOnlyTheirDie : vs.found = [] ∧
    (∃ f, Instr.vexp vs (h0 400) { v0 with dst := 9000 } = .vexp vs (h0 400) f ∧ vecRow (.vexp vs (h0 400) f) = some (0x40, vs, h0 400, f)) ∧
    (∃ x tok, Issues (startMach s1) vs (h0 400) 0x40 (vecSpec 0x40 ((startMach s1).reach 1 400) x { v0 with dst := 9000 }) x tok ∧ yes x tok = true) ∧
    (∃ x tok, Issues (startMach s1) ⟨1, 0x1001, []⟩ (h0 400) 0x10 (mmaSpec x mma0) x tok ∧ yes x tok = true) ∧
    (∃ x tok, Issues (startMach s1) ⟨1, 0x2000, []⟩ (h0 400) 0x20 (vloadSpec x vload0) x tok ∧ yes x tok = true) ∧
    (∃ x tok, Issues (startMach s1) ⟨1, 0x2000, []⟩ (h0 400) 0x21 (mvSpec x mv0) x tok ∧ yes x tok = true) :=
  ⟨rfl, ⟨_, rfl, rfl⟩, issues_of_issuesB (sp := fun x => vecSpec 0x40 ((startMach s1).reach 1 400) x { v0 with dst := 9000 }) (by decide +kernel),
    test_hyps_ArrayAndThinInstructionsRun.1, test_hyps_ArrayAndThinInstructionsRun.2.1, test_hyps_ArrayAndThinInstructionsRun.2.2⟩

theorem test_hyps_NopTakesItsToken :
    ∃ x tok, Issues (startMach s1) vs { h0 400 with wait := true, inCh := 7, last := true } 0x00 { opc := 0x00 } x tok ∧
      (match lookup? 7 (s1.core.part x.part).streams.chans with | some _ => true | none => false) = true :=
  issues_of_issuesB (sp := fun _ => { opc := 0x00 }) (p := fun x _ => match lookup? 7 (s1.core.part x.part).streams.chans with | some _ => true | none => false)
    (by decide +kernel)

/-- LEN 1 and 4,095, the ends of what a token can name. -/
theorem test_hyps_PostNamesItsRange :
    (∃ x tok, Issues (startMach s1) vs { h0 400 with post := true, outCh := 7 } 0x01 { opc := 0x01, ranges := [(2, x.lpart, 0, 1)], token := (0, 1) } x tok ∧
      (match lookup? 7 (s1.core.part x.part).streams.chans, tok with | some ch, none => decide (ch.tokens.length < ch.depth.toNat) | _, _ => false) = true) ∧
    (∃ x tok, Issues (startMach s1) vs { h0 400 with post := true, outCh := 7 } 0x01 { opc := 0x01, ranges := [(2, x.lpart, 0, 4095)], token := (0, 4095) } x tok ∧
      (match lookup? 7 (s1.core.part x.part).streams.chans, tok with | some ch, none => decide (ch.tokens.length < ch.depth.toNat) | _, _ => false) = true) :=
  ⟨issues_of_issuesB (sp := fun x => { opc := 0x01, ranges := [(2, x.lpart, 0, 1)], token := (0, 1) })
      (p := fun x tok => match lookup? 7 (s1.core.part x.part).streams.chans, tok with | some ch, none => decide (ch.tokens.length < ch.depth.toNat) | _, _ => false)
      (by decide +kernel),
    issues_of_issuesB (sp := fun x => { opc := 0x01, ranges := [(2, x.lpart, 0, 4095)], token := (0, 4095) })
      (p := fun x tok => match lookup? 7 (s1.core.part x.part).streams.chans, tok with | some ch, none => decide (ch.tokens.length < ch.depth.toNat) | _, _ => false)
      (by decide +kernel)⟩

theorem test_hyps_ReleaseEndsResidency :
    ∃ x tok, Issues (startMach s1) vs { h0 400 with last := true } 0x02 { opc := 0x02, ranges := [(2, x.lpart, 0, 4)], token := (0, 4) } x tok ∧ yes x tok = true :=
  issues_of_issuesB (sp := fun x => { opc := 0x02, ranges := [(2, x.lpart, 0, 4)], token := (0, 4) }) (by decide +kernel)

theorem test_hyps_EmptyChannelHoldsTheJob : ∃ x, (startMach s1).ctx vs { h0 400 with wait := true, inCh := 8 } 0x00 = some x ∧
    x.part < s1.core.parts.length ∧ x.job.phase = .running ∧ x.job.holds = [] ∧
    s1.core.cyclesGiven (lsScode x.lsid) x.part (if lsScode x.lsid = 6 then x.die - 0x10 else x.inst) (x.job.actual x.issue)
      (x.job.actual x.issue + boolNat false) x.tenant x.idleSlots = true ∧
    s1.core.headToken x.part 8 = none :=
  ⟨{ job := job1, plan := plan1, lsid := 0x3001, die := 2, inst := 4, part := 2, opc := 0, issue := 400 }, rfl, by decide +kernel⟩

theorem test_hyps_FlatElementwiseUnitResult :
    (0x30 ≤ 0x4B ∧ ({ v0 with flat := true } : VecF).flat = true ∧ vecFmtOk 0x30 { v0 with flat := true } = true ∧ Memory.wf ({} : Mem) = true) ∧
    vecFmtOk 0x4B { v0 with flat := true } = true := by decide +kernel

/-- A finite result, a tie (2^24 + 1, whose neighbours are 2^24 and 2^24 + 2), and an overflow. -/
theorem test_hyps_Fp32RoundingIsNearestTiesToEven :
    (f32 (toF32 (.fin false 16777217 0))).nonFinite = false ∧ toF32 (.fin false 16777217 0) = 0x4B800000 ∧ (f32 (0x4B800001 : U32)).nonFinite = false ∧
    (f32 (toF32 (.fin false 1 128))).nonFinite = true := by decide +kernel

theorem test_hyps_ExactSumsProductsAndOrder : (FVal.fin false 3 0).rat + (FVal.fin true 3 0).rat = 0 ∧ false ≠ true := by
  constructor
  · norm_num [FVal.rat]
  · decide

theorem test_hyps_ElementwiseResultsPerOpcode : v0.packed = false ∧ ((f32 f32NaN).isNan || (f32 (0 : U32)).isNan) = true := by decide +kernel

/-- A 32 x 32 FP32 tile, the largest extents, and an MX tile with a scale of 255. -/
theorem test_hyps_TileReadsBackAsWritten :
    Memory.wf ({} : Mem) = true ∧ 31 < 32 ∧ 255 < 256 ∧ tileFits .fp32 (List.replicate 32 { codes := List.replicate 32 0xFFFFFFFF, scale := 0 }) ∧
    tileFits .e4m3 (List.replicate 32 { codes := List.replicate 32 255, scale := 255 }) := by
  refine ⟨by decide, by decide, by decide, ?_, ?_⟩ <;>
    exact ⟨by decide, fun b h => (List.eq_of_mem_replicate h) ▸ ⟨by decide, fun k h => (List.eq_of_mem_replicate h) ▸ by decide, by decide⟩⟩
theorem test_hyps_StationWordsRoundTrip :
    ({ scode := 3, opc := 0x30, hdr := h0 400, f := .vec { v0 with imm0 := 0, src1 := 0x7FFFFF } } : StnWord).wf = true := by decide +kernel

/-- A vector addition held for operands, and an array that waits for its grant. -/
def heldAdd : Held := { lsid := 0x3001, cause := .operand, instr := some (.vadd vs (h0 400) { v0 with src1 := 100, dst := 9000 }) }

def heldMma : Held := { lsid := 0x1001, cause := .grant, instr := some (.mma ⟨1, 0x1001, []⟩ (h0 400) mma0) }

def heldState (q : Held) : State := at_ { core1 with jobs := [{ job1 with holds := [q] }] }

/-- The first with its operands there now, the second granted, a third that fails its test as before, and a fourth that fails it for another cause. -/
theorem test_hyps_HoldReleaseIssuesTheHeldInstruction :
    ((heldState heldAdd).core.job? 1 = some { job1 with holds := [heldAdd] } ∧ (heldState heldAdd).core.plan? 1 = some plan1 ∧ heldAdd.waits = false ∧
      ∀ k ∈ (reissue false (.vadd vs (h0 400) { v0 with src1 := 100, dst := 9000 }) ((startMach (heldState heldAdd)).up (Core.endHold 1 20))).core.job? 1,
        k.holds.all (fun e => e.instr != heldAdd.instr) = true) ∧
    ((heldState heldMma).core.job? 1 = some { job1 with holds := [heldMma] } ∧ heldMma.waits = false ∧ heldMma.cause = .grant ∧
      (heldState heldMma).core.grantDue { job1 with holds := [heldMma] } 20 = true) ∧
    (∀ k ∈ (reissue false (.vadd vs (h0 400) { v0 with src1 := 8190, dst := 9000 })
        ((startMach (heldState { heldAdd with instr := some (.vadd vs (h0 400) { v0 with src1 := 8190, dst := 9000 }) })).up (Core.endHold 1 20))).core.job? 1,
      (k.holds.find? (fun e => e.instr == some (.vadd vs (h0 400) { v0 with src1 := 8190, dst := 9000 }))).map (fun e => e.cause) = some .operand) ∧
    heldAdd.cause = .operand ∧ ({ heldAdd with cause := .slot } : Held).waits = false ∧ ({ heldAdd with cause := .slot } : Held).cause ≠ .operand := by decide +kernel

def posted : PostReg := { lsid := 0x1001, part := 2, chan := 7, token := tok0 }

theorem test_hyps_DeferredPostEntersItsChannel :
    (at_ { core1 with jobs := [{ job1 with posts := [posted] }] }).core.job? 1 = some { job1 with posts := [posted] } ∧
    [posted].find? (fun e => e.lsid == 0x1001) = some posted ∧ lookup? 7 (s1.core.part 2).streams.chans = some chan0 ∧
    chan0.tokens.length < chan0.depth.toNat := by decide +kernel

theorem test_hyps_LateGatherAndFailedCheck :
    s1.core.plan? 1 = some plan1 ∧ s1.core.job? 1 = some job1 ∧ plan1.bindOf 0x4000 = some ⟨0x4000, 2, 1⟩ ∧ plan1.bindOf 0x1001 = some ⟨0x1001, 2, 5⟩ ∧
    lsScode 0x1001 = 1 ∧ 2 < s1.core.parts.length ∧ job1.phase = .running ∧ job1.replay = none ∧ (job1.verdict job1.step).localFaults < 2 := by decide +kernel

/-- The first and the last slot of a ring. -/
theorem test_hyps_ControlCoreDescriptorsAndTokens :
    s1.core.coresRun 1 2 = true ∧ 2 < 8 ∧ 2 < s1.core.parts.length ∧ (0 < 256 ∧ 0 < 16) ∧ (255 < 256 ∧ 15 < 16) ∧ lookup? 7 (s1.core.part 2).streams.chans = some chan0 ∧
    chan0.plan = 1 ∧ chan0.producer = 0x1001 ∧ chan0.tokens.length < chan0.depth.toNat ∧
    (((lookup? (255, 15) (s1.core.part 2).streams.descs).getD 0 : BitVec 256).getLsbD 0 = false) := by decide +kernel

theorem test_hyps_ControlCoreFailureLosesItsWork : (0 < 8 ∧ 7 < 8 ∧ 7 < s1.core.parts.length) ∧ (0 < 4 ∧ 3 < 4) ∧
    (s1.core.part 7).cores.failed.getLsbD 3 = false ∧ (s1.core.part 7).cores.ballastFor = none ∧ (s1.core.part 7).cores.failing = [] ∧
    (s1.core.part 7).cores.failed.getLsbD 4 = false ∧ ({ ballastFor := some 1 } : CorePart).ballastFor.isSome = true := by decide +kernel

/-- A slot entry that fails and one that passes, a counter value that is no edge, and an edge 2 µs after a halt request. -/
theorem test_hyps_SlotEntryCheckAndEdges :
    s1.core.rst.phase = 6 ∧ s1.core.rst.parts.contains 7 = false ∧ 7 < s1.core.parts.length ∧ 63 < (s1.core.part 7).slots.table.length ∧
    s1.core.atEdge 1 = false ∧ s1.core.atEdge 100000 = true ∧ s1.pwr.halted = false ∧
    ({ s1.pwr with haltReq := some 98000 } : Power).haltReq = some 98000 ∧ (98000 : BitVec 64).toNat + 2000 ≤ (100000 : BitVec 64).toNat := by decide +kernel

/-! ### Power, management and resets -/

def hotR : Reading := { die := 0, index := 0, value := 880 }

def warmR : Reading := { die := 0, index := 0, value := 860 }

def coolR : Reading := { die := 0, index := 0, value := 855 }

/-- The thermal cause at 110 °C (hot), between the limits, and below 107 °C; an input current of 45.01 A and of 45 A; input powers on each side of the
ceiling's band; a cap in force. -/
theorem test_hyps_ThrottleCausesMoveByTheirRules :
    (4 ≤ s0.pwr.thermal ∧ s0.pwr.thermal ≤ 16 ∧ 4 ≤ s0.pwr.cap ∧ s0.pwr.cap ≤ 16) ∧
    (s0.core.takeTemps [hotR]).hot = true ∧ ((s0.core.takeTemps [coolR]).hot = false ∧ (s0.core.takeTemps [coolR]).cool = true) ∧
    ((s0.core.takeTemps [warmR]).hot = false ∧ (s0.core.takeTemps [warmR]).cool = false) ∧ 4500 < (4501 : BitVec 16).toNat ∧
    (4500 : BitVec 16).toNat ≤ 4500 ∧ (∃ w : BitVec 16, ceilingW s0.core.ident.profile < w.toNat) ∧
    (100 * (0 : BitVec 16).toNat ≤ 97 * ceilingW s0.core.ident.profile) ∧
    (97 * ceilingW s0.core.ident.profile < 100 * ceilingW s0.core.ident.profile ∧ ceilingW s0.core.ident.profile < 2 ^ 16) ∧
    (1000 ≠ 0 ∧ 1000 ≤ ceilingW s0.core.ident.profile ∧ 1000 < (1001 : BitVec 16).toNat) := by
  refine ⟨by decide +kernel, by decide +kernel, by decide +kernel, by decide +kernel, by decide, by decide, ⟨0xFFFF, by decide +kernel⟩, by decide, by decide +kernel,
    by decide +kernel⟩

theorem test_hyps_PowerGoesAndComesBack :
    s0.pwr.rails = true ∧ (({ s0.pwr with tripped := 3 } : Power).tripped = 3 ∧ s0.pwr.off = 0) ∧
    (s0.core.takeTemps [{ hotR with value := 799 }]).liveTemps.all (fun e => isStack e.1.1 || decide (e.2.toInt < 800)) = true ∧
    s0.core.rst.pwrOkLow = false ∧ (s0.pwr.tripped = 0 ∧ ({ s0.pwr with tripped := 1 } : Power).tripped ≠ 0 ∧ ({ s0.pwr with tripped := 2 } : Power).tripped = 2) ∧
    (({ pgLow := true } : Rst).pgLow = true ∧ ({ pgLow := true } : Rst).resetLow = false ∧ ({ pgLow := true } : Rst).perstLow = false) ∧
    ((38999 : BitVec 16).toNat < 39000 ∧ 61000 < (61001 : BitVec 16).toNat) ∧
    (({ s0.pwr with off := 1 } : Power).off = 1 ∧ ({ s0.pwr with off := 2 } : Power).off = 2) := by decide +kernel

theorem test_hyps_HaltInputRequestsAndReleases :
    (s0.pwr.off = 0 ∧ s0.pwr.halted = false) ∧ (({ s0.pwr with haltReq := some 5 } : Power).haltReq = some 5 ∧ ({ core0 with clk := {} } : Core).clk.epochSet = false ∧
      s0.core.rst.phase = 6) ∧ (({ s0.pwr with halted := true } : Power).halted = true ∧ ({ s0.pwr with inputFault := true } : Power).inputFault = true ∧
      s0.pwr.inputFault = false ∧ s0.core.clk.epochSet = true) := by decide +kernel

theorem test_hyps_LoopsAndMonitorsRaiseTheirRecords :
    s0.pwr.limitDue 0 0 0 = true ∧ ({ s0.pwr with limits := [((0, 0), 5)] } : Power).limitDue 6 0 0 = false ∧
    (176 < (377 : BitVec 16).toInt - (200 : BitVec 16).toInt ∧ (376 : BitVec 16).toInt - (200 : BitVec 16).toInt ≤ 176) ∧
    (15000 < (15001 : BitVec 32).toNat ∧ (0, 0) ∉ s0.core.health.agingWarned ∧ (15000 : BitVec 32).toNat ≤ 15000) ∧ (0, 0) ∉ s0.core.health.excluded ∧
    (0, 0) ∈ ({ s0.core.health with excluded := [(0, 0)] } : Health).excluded ∧ s0.core.rst.phase = 6 := by decide +kernel

theorem test_hyps_PowerPolicyRegister : s0.pwr.capW < 2 ^ 16 ∧ s0.pwr.discUs < 2 ^ 16 ∧ s0.pending = [] ∧
    (∀ tn sq tag, Instr.powerGoodRelease ≠ .powerPolicy tn sq tag) ∧ (∃ t, exec .powerGoodRelease s0 = .next t) ∧ ∃ t, step s0 = .next t :=
  ⟨by decide, by decide, rfl, fun _ _ _ h => (nomatch h), ⟨_, rfl⟩, ⟨_, rfl⟩⟩

/-- A tick that ends a microsecond with the ratio below 16, one that does not, and the register's write. -/
theorem test_hyps_ThrottleTimeRegister :
    s0.pending = [] ∧ (({ core0.clk with count := 999 } : Clock).count.toNat + 1 < 2 ^ 64 ∧ ({ s0.pwr with cap := 15 } : Power).ratio < 16 ∧
      (({ core0.clk with count := 999 } : Clock).count.toNat + 1) % 1000 = 0) ∧ s0.pwr.ratio = 16 ∧ s0.core.rst.phase = 6 ∧
    (0x8000000000000000 : BitVec 64).getLsbD 63 = true := by decide +kernel

theorem test_hyps_PowerAndResetAgree : State.reset.powerAgrees ∧ ∃ t, step State.reset = .next t :=
  ⟨⟨by decide, by decide, by decide, by decide, by decide, by decide⟩, ⟨_, rfl⟩⟩

theorem test_hyps_StepKeepsStateSafe : s0.safe ∧ ∃ t, step s0 = .next t :=
  ⟨⟨by decide +kernel, by unfold Power.legal; decide +kernel⟩, ⟨_, rfl⟩⟩

theorem test_hyps_EmptyQueueCountsOneTick : s0.pending = [] := rfl

def rec0 : Rec := { code := 0x701, cls := 2, sev := 0 }

theorem test_hyps_ManagementBusesAnswer :
    s0.core.rst.phase = 6 ∧ ({ rst := { phase := 5 } } : Core).rst.phase ≠ 6 ∧ ({ rst := { phase := 5 } } : Core).rst.recovery = false ∧
    ({ rst := { phase := 4, recovery := true } } : Core).rst.recovery = true ∧ ({ history := [rec0] } : Log).history.reverse[s0.pwr.faultPos]? = some rec0 := by
  decide +kernel

def low (r : Rst) : Core := { core0 with rst := r }

theorem test_hyps_ModuleResetsAssertAndRelease :
    (s0.core.rst.resetLow = false ∧ s0.core.rst.perstLow = false ∧ s0.core.rst.phase = 6 ∧ s0.core.rst.hangs = []) ∧
    (low { resetLow := true }).rst.resetLow = true ∧ (low { perstLow := true }).rst.perstLow = true ∧
    ((low { delayed := some none }).rst.delayed = some none ∧ (low { delayed := some none }).rst.level = false) ∧
    (low { delayed := some (some 3) }).rst.delayed = some (some 3) := by decide +kernel

theorem test_hyps_ResetSequenceRunsToReady :
    (1 ≤ (low { phase := 2, latched := 1 }).rst.phase ∧ (low { phase := 2, latched := 1 }).rst.phase ≤ 3) ∧
    ((low { phase := 4 }).rst.phase = 4 ∧ core0.ident.fwBoot ≤ 1 ∧ core0.ident.imageOk core0.ident.fwBoot = true) ∧
    ({ core0.ident with images := [{ valid := false }, {}] } : Ident).imageOk 0 = false ∧ ({ core0.ident with images := [{ valid := false }, {}] } : Ident).imageOk 1 = true ∧
    (({ core0.ident with images := [{ valid := false }, { valid := false }] } : Ident).imageOk 0 = false ∧
      ({ core0.ident with images := [{ valid := false }, { valid := false }] } : Ident).imageOk 1 = false) ∧
    ((low { phase := 0 }).rst.phase = 0 ∧ 5 ≤ (low { phase := 6 }).rst.phase) ∧
    ((low { phase := 5 }).rst.phase = 5 ∧ (low { phase := 5 }).rst.recovery = false ∧ (low { phase := 5 }).rst.level = false) ∧ s0.core.rst.phase = 6 ∧
    ((low { flashOwned := true }).rst.flashOwned = true ∧ 1 < core0.ident.images.length) := by decide +kernel

theorem test_hyps_PartitionResetClearsOnlyItsPartition :
    (s0.core.rst.phase = 6 ∧ 7 < 8 ∧ s0.core.parts.length = 8 ∧ s0.core.ident.dedicated = none ∧ s0.core.rst.parts.contains 7 = false) ∧
    (low { phase := 5 }).rst.phase ≠ 6 ∧ (low { parts := [2] }).rst.parts.contains 2 = true ∧ (low { parts := [2] }).ident.dedicated = none ∧
    (low { parts := [2] }).rst.level = false := by decide +kernel

def heldJob : Job := { job0 with holds := [{ lsid := 0x3001, cause := .chanEmpty, instr := none }], holdBeats := 11 }

def hang0 : HangRun :=
  { part := 2, cause := 1, slot := 0, time := 0, plan := 1, suspects := [{ plan := 1, tenant := 3, held := true, step := 9, beat := 1, cycle := 0 }] }

theorem test_hyps_HangsAreCapturedAndTheirSuspectsReplayed :
    (s0.core.rst.phase = 6 ∧ s0.core.rst.parts.contains 2 = false ∧ s0.core.rst.capturing.contains 2 = false ∧ plan0.physParts = [2]) ∧
    ((at_ { core0 with jobs := [heldJob] }).core.job? 1 = some heldJob ∧ s0.core.plan? 1 = some plan0 ∧ heldJob.phase = .running ∧ heldJob.holds ≠ [] ∧
      heldJob.rollback = none ∧ plan0.hdr.holdLimit < heldJob.holdBeats ∧ s0.core.replaying 1 = none ∧
      heldJob.holds.any (fun q => q.cause == .chanEmpty) = true) ∧
    (plan0.bindOf 0x3001 = some ⟨0x3001, 2, 4⟩ ∧ lsScode 0x3001 ≠ 6) ∧
    (s1.core.plan? 1 = some plan1 ∧ plan1.bindOf 0x6000 = some ⟨0x6000, 0x10, 0⟩ ∧ lsScode 0x6000 = 6 ∧ s1.core.rst.level = false) ∧
    ((low { capturing := [2], hangs := [hang0] }).rst.phase = 6 ∧ (low { capturing := [2], hangs := [hang0] }).rst.capturing.contains 2 = true ∧
      hang0.released = none ∧ hang0.capUs = 0 ∧ hang0.valid = false) ∧
    (({ hang0 with released := some 0 } : HangRun).outcome = 0 ∧ 0 + 1 = hang0.suspects.length ∧
      ∀ x ∈ hang0.suspects[0]?, s0.core.plan? x.plan = some plan0 ∧
        (at_ { core0 with jobs := [{ job0 with beat := 3 }] }).core.job? x.plan = some { job0 with beat := 3 } ∧ x.passed plan0 { job0 with beat := 3 } = true) := by
  decide +kernel

/-! ### Seals, ballast, the kite line and links -/

/-- A plan over two modules, with its slice and a job that has finished step 8. -/
def plan2 : Plan :=
  { plan1 with hdr := { hdr0 with modCount := 2, sliceKind := 1, sliceK := 1 }, groups := [{ index := 5, members := [0, 1], rank := some 0, raw := List.replicate 128 0 }] }

def slice2 : Slice := { id := 1, tenant := 3, kind := 1, k := 1, mask := 1, base := 0, ckey := 0x55, map := [0, 1] }

def job2 : Job :=
  { job1 with lastSealed := 7, votes := [(0, 8)], verdicts := [{ step := 8, attempt := 0, final := true, beatsDone := true }] }

def vote0 (seq : BitVec 14) : KiteOp := { plan := 1, group := 0xFF, seq := seq, epoch := 0, op := 2, width := 3, submitter := 1 }

def frame0 : Frame := { vc := 0, typ := 0xA, dst := 0, src := 1, tenant := 3 }

/-- Port 0 is up; operation `o` is under way. -/
def core2 (j : Job) (o : List KiteOp) : Core :=
  { core1 with
    plans := [plan2], jobs := [j], leases := { parts := [(2, 3, true)] },
    fab := { ports := List.replicate 16 { st := .up, peerId := 1 }, slices := [slice2], kite := o, cfg := { loaded := true } } }

def lanes (l : List Nat) : List Byte := padTo 64 (l.flatMap (bytesLE 8))

theorem test_hyps_VerdictsBecomeFinalAndReplaysEnd :
    (let v : Verdict := { step := 8, attempt := 0, beatsDone := true }
     let j := { job1 with verdicts := [v] }
     (core2 j []).job? 1 = some j ∧ (core2 j []).plan? 1 = some plan2 ∧ j.phase = .running ∧ j.step ≠ 8 ∧ j.verdicts.filter (fun v => v.step == 8) = [v] ∧
      v.final = false ∧ v.beatsDone = true ∧ (core2 j []).health.permFailed = false ∧ (core2 j []).fab.syncState ≠ 3) ∧
    (let j := { job1 with verdicts := [{ step := 8, attempt := 0 }] }
     (core2 j []).job? 1 = some j ∧ j.step ≠ 8 ∧ ∀ v ∈ j.verdicts, v.step = 8 → v.beatsDone = false) ∧
    (let r : Replay := { endBeat := 1, endCycle := 100, begun := true, restarts := 0 }
     let j := { job1 with phase := .localReplay, replay := some r }
     (core2 j []).job? 1 = some j ∧ j.phase = .localReplay ∧ j.replay = some r ∧ r.begun = true ∧ r.endBeat ≤ j.beat) := by decide +kernel

/-- Every frame of step 8 acknowledged, and one that still is held. -/
theorem test_hyps_VerdictsWaitForAcknowledgement :
    (core2 job2 []).unacked 1 8 = false ∧
    ({ core2 job2 [] with fab := { ports := [{ held := [{ frame0 with job := some (1, 8) }] }] } } : Core).unacked 1 8 = true ∧ job2.step ≠ 8 := by decide +kernel

theorem test_hyps_VotesSealMirrorResumeAndFail :
    ((core2 job2 [vote0 0]).job? 1 = some job2 ∧ (core2 job2 [vote0 0]).plan? 1 = some plan2 ∧ (core2 job2 [vote0 0]).fab.kiteQueue = [] ∧ (vote0 0).result = none ∧
      (vote0 0).error = false) ∧
    (job2.votes.contains (0, job2.step - 1) = true ∧ stepLater (job2.step - 1) job2.lastSealed = true ∧ job2.rollback = none) ∧
    (let res := lanes [0, 8, laneNot 8, 5, laneNot 5]
     sealConsistent (padTo 64 res) (job2.verdict (job2.step - 1)).attempt = true ∧ lane (padTo 64 res) 0 = 0 ∧ lane (padTo 64 res) 1 = (job2.step - 1).toNat) ∧
    (let res := lanes [0, 7, laneNot 7]
     laneAgree (padTo 64 res) 1 = true ∧ lane (padTo 64 res) 1 = job2.lastSealed.toNat) ∧
    (let res := lanes [0, 7, laneNot 7, 0, 0, 12345, 0]
     laneAgree (padTo 64 res) 1 = true ∧ lane (padTo 64 res) 1 = job2.lastSealed.toNat ∧ lane (padTo 64 res) 6 = job2.attempt) ∧
    ((vote0 1).seq = 1 ∧ (vote0 0x3FFF).seq = 0x3FFF ∧ (vote0 0x3FFD).seq = 0x3FFD) := by decide +kernel

theorem test_hyps_NoticesNameRollbacks :
    ((core2 job2 []).job? 1 = some job2 ∧ (core2 job2 []).plan? 1 = some plan2 ∧ 1 < plan2.hdr.modCount ∧ job2.rollback = none ∧ (core2 job2 []).sliceFor plan2 = some slice2) ∧
    (let j := { job2 with rollback := some (5, 6) }
     (core2 j []).job? 1 = some j ∧ stepLater 6 7 = false ∧ stepLater 6 5 = true) ∧
    ((core2 job2 []).led.alone = true ∧ ({ mode := 1 } : Ledger).alone = false) := by decide +kernel

def mirFrame : Frame := { vc := 4, typ := 0xB, dst := 0, src := 1, xid := 2, chunk := 1, payload := List.replicate 512 7 }

def mirIn : MirrorIn := { port := 0, stream := 2, entry := 0, step := 8, off := 0, bytes := 1000, start := 0 }

def rescue0 : Rescue := { plans := [1], lost := 1, pos := 60 }

theorem test_hyps_BallastModulesAreClaimedCheckedAndStreamedTo :
    (let g : FabCfg := { loaded := true, position := 60 }
     g.loaded = true ∧ g.jobPos ≤ g.position ∧ (low {}).led.entry = none) ∧
    (({ entry := some 5 } : Ledger).rescue = none ∧ ({ entry := some 5 } : Ledger).entry = some 5) ∧
    (({ rescue := some rescue0 } : Ledger).rescue = some rescue0 ∧ rescue0.streamed = false ∧ rescue0.passed = false ∧
      ({ rescue := some rescue0 } : Ledger).outXfer.any (fun o => o.stream == 2) = false ∧
      [({ plan := 1, stream := 2, entry := 0, step := 8, off := 0, bytes := 0 } : MirrorOut)].any (fun o => o.stream == 2) = true ∧
      ({ rescue0 with passed := true } : Rescue).passed = true ∧ (core2 { job2 with phase := .stoppedFallback } []).job? 1 = some { job2 with phase := .stoppedFallback }) ∧
    (((core2 job2 []).port 0).st = .up ∧ 0 < (core2 job2 []).fab.ports.length ∧ mirFrame.seq = ((core2 job2 []).port 0).expect ∧ mirFrame.vc = 4 ∧
      mirFrame.dst.toNat = (core2 job2 []).fab.cfg.own ∧ mirFrame.xid.toNat ≤ 2 ∧ 2 < ({ mirFrame with xid := 3 } : Frame).xid.toNat ∧ mirFrame.payload.length = 512 ∧
      [mirIn].find? (fun x => x.port == 0 && x.stream == mirFrame.xid.toNat) = some mirIn) := by decide +kernel

/-- A module at a ballast position that passed its in-field check ten ticks ago, and one whose position is below the job positions. -/
def coreB (pos : Nat) : Core :=
  { low {} with fab := { cfg := { loaded := true, position := pos }, ports := List.replicate 16 { st := .up } }, health := { passedAt := some 0 }, clk := { count := 10 }, jobs := [] }

theorem test_hyps_BallastModulesAreWarm :
    ((coreB 60).fab.cfg.loaded = true ∧ (coreB 60).fab.cfg.jobPos ≤ (coreB 60).fab.cfg.position ∧ (coreB 60).jobs = [] ∧
      (∀ q ∈ (coreB 60).fab.ports, q.st = .up ∨ q.st = .off) ∧ (coreB 60).health.passedAt = some 0 ∧ withinTicks (coreB 60).clk.count 0 day = true ∧
      (coreB 60).led.entry = none) ∧
    (coreB 0).warm = false ∧ ({ entry := some 5 } : Ledger).entry.isSome = true := by decide +kernel

def kop : KiteOp := { plan := 1, group := 5, seq := 3, epoch := epochOf 9 0, op := 2, width := 3, submitter := 1, result := some (List.replicate 64 1) }

def kiteF : Frame :=
  { frame0 with xid := 5, pmask := epochOf 9 0, chunk := BitVec.ofNat 21 (3 + 3 * 2 ^ 14 + 2 * 2 ^ 16 + 2 ^ 20), payload := List.replicate 64 1 }

def cid5 : Cid := { step := 9, beat := 1, group := 5, inst := 0 }

def abortF : Frame := { frame0 with xid := 5, payload := abortBytes cid5 1 0 }

theorem test_hyps_KiteOperationsAndAborts :
    (((core2 job2 []).fab.lds.length = 4 ∧ (core2 job2 []).fab.ports.length = 16) ∧
    ((core2 job2 []).coresRun 1 2 = true ∧ 7 < 8 ∧ 2 < (core2 job2 []).parts.length ∧
      [({ core := 0, index := 7, plan := 1, addr := 0, go := true } : Mailbox)].any (fun b => b.core == 0 && b.index == 7 && b.go) = true ∧
      ((core2 job2 []).part 2).cores.mail.any (fun b => b.core == 0 && b.index == 7 && b.go) = false ∧ (0x7FFFFFFFFFFFFFFF : BitVec 64).getLsbD 63 = false ∧
      (0x80FE000000000000 : BitVec 64).getLsbD 63 = true ∧ field (0x80FE000000000000 : BitVec 64).toNat 48 8 ≠ 0xFF ∧
      field (0x80FE000000000000 : BitVec 64).toNat 44 4 ≠ 8 ∧ kiteCombines (field (0x80FE000000000000 : BitVec 64).toNat 44 4) = false ∧ Memory.wf ({} : Mem) = true) ∧
    ((core2 job2 [{ kop with result := none }]).kitePlan kiteF.tenant (field kiteF.xid.toNat 0 8) = some plan2 ∧ (core2 job2 []).job? plan2.handle = some job2 ∧
      ((core2 job2 []).port 0).st = .up ∧ kiteF.seq = ((core2 job2 []).port 0).expect ∧ kiteF.vc = 0 ∧ (core2 job2 []).fab.cfg.own < 2 ^ 14 ∧
      field kiteF.chunk.toNat 16 4 = kop.op.toNat ∧ kiteCombines kop.op.toNat = true ∧ field kiteF.chunk.toNat 14 2 = kop.width.toNat ∧ bitOf kiteF.chunk.toNat 20 = true ∧
      job2.epochOk kiteF.pmask (field kiteF.chunk.toNat 0 14) = true ∧
      (core2 job2 [kop]).kiteOp? 1 (BitVec.ofNat 8 (field kiteF.xid.toNat 0 8)) (BitVec.ofNat 14 (field kiteF.chunk.toNat 0 14)) kiteF.pmask = some kop) ∧
    (kop.plan = 1 ∧ kop.submitter ≤ 2 ∧ kop.error = false ∧ kop.result = some (List.replicate 64 1) ∧ job2.phase ≠ .localReplay ∧ ({ kop with result := none } : KiteOp).result = none ∧
      kop.sparesVerdict = false ∧ (vote0 0x3FFE).sparesVerdict = true) ∧
    ((core2 job2 []).kiteDie plan2 5 < 4 ∧ (core2 job2 []).fab.aborted.contains (1, { cid5 with inst := (core2 job2 []).collInst 1 0x6000 9 1 5 }) = false) ∧
    (let k : Cid := { step := BitVec.ofNat 40 (fieldAt abortF.payload 0 5), beat := fieldAt abortF.payload 5 2, group := field abortF.xid.toNat 0 8, inst := fieldAt abortF.payload 7 1 }
     [((1, cid5) : Nat × Cid)].contains (plan2.handle, k) = true ∧ abortF.vc = 0)) ∧
    collRow (.allreduce ⟨1, 0x6000, []⟩ (h0 400) coll0 []) = some (0x90, ⟨1, 0x6000, []⟩, h0 400, coll0, []) ∧
    (startMach { State.reset with core := core2 job2 [] }).collReady ⟨1, 0x6000, []⟩ coll0 0x90 [] = false :=
  ⟨by decide +kernel, rfl, by decide +kernel⟩

/-- The OP codes at the ends of those that combine, a reserved one, and the write. -/
theorem test_hyps_KiteOperationsCombine :
    kiteCombines 1 = true ∧ kiteCombines 7 = true ∧ kiteCombines 0 = false ∧ kiteCombines 9 = false ∧ kiteCombines kop.op.toNat = true ∧
    kiteCombines (field (0x80FE200000000000 : BitVec 64).toNat 44 4) = true ∧ (0x80FE200000000000 : BitVec 64).getLsbD 63 = true ∧
    field (0x80FE200000000000 : BitVec 64).toNat 48 8 ≠ 0xFF := by decide +kernel

def upPort : Port := { st := .up, unacked := 1, freed := 1 :: List.replicate 7 0, held := [frame0], resends := 6 }

theorem test_hyps_LinkTimersFramesAndSync :
    (15 < (core2 job2 []).fab.ports.length) ∧ (upPort.st = .up ∧ upPort.enc = false ∧ 0 < upPort.unacked ∧ upPort.freed ≠ upPort.toldFreed ∧ upPort.held ≠ [] ∧ upPort.resends < 7 ∧
      7 ≤ ({ upPort with resends := 7 } : Port).resends) ∧
    (let f : Frame := { vc := 6, typ := 0xE, dst := 0, src := 1 }
     f.seq = upPort.expect ∧ vcAllows f.typ.toNat f.vc.toNat = false ∧ f.typ ≠ 1 ∧ f.typ ≠ 0xD) ∧
    ((core2 job2 []).jobs ≠ [] ∧ ({ timeRoot := true } : FabCfg).timeRoot = true ∧ ({ syncState := 1 } : Fabric).syncState ≠ 0) ∧
    ((core2 job2 []).fab.syncState ≠ 3 ∧ ({ syncState := 3 } : Fabric).syncState = 3 ∧ (core2 job2 []).multiModule job2 = true) := by decide +kernel

theorem test_hyps_SyncAcquiresOnce :
    upPort.waiting = [] ∧ ({} : Clock).acquired = false ∧ ({ acquired := true } : Clock).acquired = true ∧ (coreB 60).jobs = [] ∧
    ({} : FabCfg).timeRoot = false := by decide +kernel

/-- LINK_INIT payloads of position 0, port 0: the peer that R248 gives, another peer, and another digest. -/
def initF (peer d : Nat) : Frame := { vc := 7, typ := 0xD, dst := 0, src := 1, payload := bytesLE 2 peer ++ [0, 0] ++ bytesLE 4 d }

theorem test_hyps_PortsTrainComeUpAndFail :
    (15 < (core2 job2 []).fab.ports.length ∧ ((core2 job2 []).port 15).held = [] ∧ ((core2 job2 []).port 15).waiting = []) ∧
    (({} : Port).st = .off ∧ ({} : Port).disable = false ∧ 4 ≤ s0.core.rst.phase) ∧ (({ st := .train, trained := true } : Port).trained = true ∧ ({ st := .train } : Port).enc = false) ∧
    (let g : FabCfg := { loaded := true }
     ∃ peer < 64, g.peerOf 0 = some (peer, 0) ∧ (fieldAt (initF peer 0).payload 0 2 = peer ∧ fieldAt (initF peer 0).payload 2 1 = 0 ∧
       fieldAt (initF peer 0).payload 3 1 = boolNat g.celoth1 ∧ fieldAt (initF peer 0).payload 4 4 = g.digest.toNat) ∧
       g.peerOf 0 ≠ some (fieldAt (initF (peer + 1) 0).payload 0 2, 0) ∧ fieldAt (initF peer 9).payload 4 4 ≠ g.digest.toNat) ∧
    (({ st := .up, lanesOk := 31 } : Port).lanesOk = 31 ∧ ({ st := .up, lanesOk := 23 } : Port).lanesOk.getLsbD 0 = true ∧ lanesBad 23 ≠ [] ∧ 3 < 4) ∧
    ({ st := .retrain } : Port).st = .retrain ∧
    (let q : Port := { st := .up, enc := true, txCtr := 2 ^ 39 }
     q.enc = true ∧ q.newKey = none ∧ q.rekeying = false ∧ 2 ^ 39 ≤ q.txCtr) ∧ 2 ^ 40 - 1 ≤ ({ enc := true, txCtr := 2 ^ 40 - 1 } : Port).txCtr ∧
    (({ encWanted := true } : Port).encWanted = true ∧ ({ encWanted := true } : Port).enc = false ∧ (12 = 12 ∨ 12 = 13)) := by decide +kernel

/-- A request from module 1 with the slice's key; byte 8 of the payload on holds CKEY, as R281 has it. -/
def wrF (key addr mask : Nat) : Frame :=
  { vc := 6, typ := 6, dst := 0, src := 1, tenant := 3, payload := bytesLE 8 addr ++ bytesLE 8 key ++ bytesLE 8 mask ++ List.replicate 72 9 }

def xopF (flags : Nat) : Frame :=
  { vc := 2, typ := 2, dst := 0, src := 1, tenant := 3, xid := 4, payload := bytesLE 8 (smAddr64 0 0) ++ bytesLE 8 0 ++ [16, 0, 0, BitVec.ofNat 8 flags] ++ bytesLE 4 0 ++ bytesLE 8 0x55 }

def open0 : OpenXfer := { src := 1, xid := 4, tenant := 3, keys := (List.range 16).map (fun i => smKey 2 0 0 + 64 * i), rpost := false, ch := 0, part := 2, token := 0, plan := none, owner := some 1 }

def errIs (e : Nat) : Except Nat (Plan × List Nat) → Bool
  | .error x => x == e
  | .ok _ => false

def okKeys (p : List Nat → Bool) : Except Nat (Plan × List Nat) → Bool
  | .error _ => false
  | .ok (_, ks) => p ks

theorem test_hyps_RemoteOperationsTakeEffectWhereTheyMay :
    ((core2 job2 []).takes 0 (wrF 0x55 (smAddr64 0 0) 1) = true ∧
      errIs 1 ((core2 job2 []).remoteTest { wrF 0x54 (smAddr64 0 0) 1 with typ := 6 } (fieldAt (padTo 96 (wrF 0x54 (smAddr64 0 0) 1).payload) 8 4)
          (fieldAt (padTo 96 (wrF 0x54 (smAddr64 0 0) 1).payload) 0 8) 1 true) = true ∧
      okKeys (fun ks => ks == [smKey 2 0 0]) ((core2 job2 []).remoteTest { wrF 0x55 (smAddr64 0 0) 1 with typ := 6 } (fieldAt (padTo 96 (wrF 0x55 (smAddr64 0 0) 1).payload) 8 4)
          (fieldAt (padTo 96 (wrF 0x55 (smAddr64 0 0) 1).payload) 0 8) 1 true) = true ∧ smKey 2 0 0 % 64 = 0) ∧
    (∀ typ ∈ [(4 : BitVec 4), 5, 6, 7], (core2 job2 []).takes 0 { wrF 0x55 0 1 with typ := typ } = true) ∧
    (∀ typ ∈ [(8 : BitVec 4), 9], (core2 job2 []).takes 0 { wrF 0x55 0 1 with typ := typ, vc := 7 } = true) ∧
    ((core2 job2 []).takes 0 (xopF 0) = true ∧ (core2 job2 []).takes 0 { xopF 0 with typ := 3 } = true ∧ (core2 job2 []).takes 0 { xopF 0 with typ := 0xC } = true) ∧
    (bitOf (fieldAt (padTo 32 (xopF 1).payload) 19 1) 0 = true ∧ bitOf (fieldAt (padTo 32 (xopF 0).payload) 19 1) 0 = false ∧
      bitOf (fieldAt (padTo 32 (xopF 0).payload) 19 1) 1 = false ∧
      okKeys (fun ks => ks.length == 16) ((core2 job2 []).remoteTest { xopF 0 with typ := 2 } (fieldAt (padTo 32 (xopF 0).payload) 24 4) (fieldAt (padTo 32 (xopF 0).payload) 0 8)
          (fieldAt (padTo 32 (xopF 0).payload) 16 3) true) = true) ∧
    ([open0].find? (fun o => o.src == (xopF 0).src && o.xid == (xopF 0).xid && o.tenant == (xopF 0).tenant) = some open0 ∧ open0.plan = none ∧ open0.keys ≠ [] ∧
      open0.owner = some 1 ∧ (core2 job2 []).plan? 1 = some plan2 ∧
      open0.got + ((open0.keys.drop (8 * 0)).take 8).length < open0.keys.length) ∧
    (let o : RemoteOp := { part := 2, core := 0, tenant := 3, dst := 1, xid := 4, write := false }
     ({ core2 job2 [] with fab := { (core2 job2 []).fab with remote := [o] } } : Core).remoteOp (xopF 0) false = some o ∧
     ({ core2 job2 [] with fab := { (core2 job2 []).fab with remote := [{ o with write := true }] } } : Core).remoteOp (xopF 0) true = some { o with write := true }) ∧
    (383 : BitVec 9).toNat < 384 ∧
    (let c := { core2 job2 [] with fab := { (core2 job2 []).fab with slices := [{ slice2 with tenant := 0 }] } }
     let f : Frame := { wrF 0x55 (3 * 2 ^ 48 + 0x88) 0x1F with typ := 9, vc := 7, tenant := 0 }
     regTest c f = 0 ∧ fieldAt (padTo 32 f.payload) 0 8 % 2 ^ 28 = 0x88 ∧ c.rst.phase = 6) := by decide +kernel

/-! ### Host commands -/

/-- A plan image of one partition with one vector station whose one beat holds a NOP with LAST, in a program region of one unit, every slot its own. -/
def progRec : List Byte :=
  padTo 64 (bytesLE 2 0x3000 ++ bytesLE 2 1 ++ bytesLE 4 12 ++ bytesLE 4 1 ++
    bytesLE 32 (encodeStn { scode := 3, opc := 0, hdr := { h0 400 with last := true }, f := .none }).toNat)

/-- The buffer map: KIND 0x01 in station memory of logical partition 0, from unit 0 on (R182). -/
def bufRec : List Byte := padTo 64 (bytesLE 16 (2 ^ 48 + 2 * 2 ^ 46 + 2 ^ 38))

def claimRec : List Byte := padTo 64 (bytesLE 2 0x3000 ++ List.replicate 6 0 ++ List.replicate 8 0xFF ++ List.replicate 16 0)

def dirEnt (typ off len : Nat) (b : List Byte) : List Byte := bytesLE 2 typ ++ [0, 0] ++ bytesLE 4 off ++ bytesLE 4 len ++ bytesLE 4 (crc32c b)

/-- The header without DIGEST and HCRC; `grade` and the profile are the module's. -/
def hdrBytes : List Byte :=
  let z := List.replicate 256 0
  [(0, bytesLE 4 0x4C505654), (4, bytesLE 2 1), (6, bytesLE 2 1), (72, bytesLE 2 1), (80, bytesLE 2 0), (82, [1, 0x0A, 1, 0, 1, 0]), (88, bytesLE 4 100), (92, bytesLE 2 1),
    (98, bytesLE 2 6), (100, bytesLE 4 576), (104, bytesLE 4 10)].foldl (fun b e => overwrite b e.1 e.2) z

def imgBody : List Byte :=
  padTo 128 (dirEnt 1 384 64 progRec ++ dirEnt 3 576 0 [] ++ dirEnt 4 448 16 (bufRec.take 16) ++ dirEnt 5 512 32 (claimRec.take 32) ++
    dirEnt 6 576 0 [] ++ dirEnt 9 576 0 []) ++ progRec ++ bufRec ++ claimRec

/-- The image with DIGEST and HCRC zero. -/
def image1 : List Byte := hdrBytes ++ imgBody

/-- The chaining values of SHA-256 over its ten blocks. -/
def shaStep : Nat → ShaState
  | 0 => ⟨[1779033703, 3144134277, 1013904242, 2773480762], [1359893119, 2600822924, 528734635, 1541459225]⟩
  | 1 => ⟨[3281615303, 3819281679, 1802004362, 1978037959], [980895544, 3524652986, 1137093793, 2659688627]⟩
  | 2 => ⟨[520338807, 2137966395, 3581610113, 2014075440], [4080199103, 1518361679, 2107967302, 2747752662]⟩
  | 3 => ⟨[3635902377, 20656369, 441403663, 1242336860], [1801217377, 2447857793, 611900982, 1144659203]⟩
  | 4 => ⟨[2493225515, 4138454521, 1376141146, 1715203015], [2322038746, 3335309189, 96413863, 1455296488]⟩
  | 5 => ⟨[3806508834, 3283633357, 579094679, 615418845], [3633031860, 2829875525, 3422797243, 2970515735]⟩
  | 6 => ⟨[2028615808, 3252976565, 1392302079, 3452419365], [657194730, 2025567222, 1978038121, 3291781389]⟩
  | 7 => ⟨[1434793030, 352379970, 2516846969, 2916801684], [2380970377, 313327931, 1185421544, 3980588037]⟩
  | 8 => ⟨[3093988723, 3618782525, 3875865947, 3472237663], [657788792, 2645679856, 270752500, 3536929787]⟩
  | 9 => ⟨[1792602232, 2615427281, 747795654, 3360086422], [3699306452, 1212275519, 8609509, 2960997717]⟩
  | _ => ⟨[648947629, 218058155, 1109046285, 3835262999], [2493429931, 3608137687, 1275399096, 1663214258]⟩

def digest0 : List Byte := ([648947629, 218058155, 1109046285, 3835262999, 2493429931, 3608137687, 1275399096, 1663214258].map (fun x => (bytesLE 4 x).reverse)).flatten

def image0 : List Byte := overwrite (overwrite image1 8 digest0) 252 (bytesLE 4 2718448378)

def blk (i : Nat) : List Byte := slice (image1 ++ [0x80] ++ List.replicate 55 0 ++ [0, 0, 0, 0, 0, 0, 18, 0]) (64 * i) 64

theorem sha_block : ∀ i < 10, shaBlock (shaStep i) (blk i) = shaStep (i + 1) := by
  have h : ∀ i : Fin 10, shaBlock (shaStep i) (blk i) = shaStep (i + 1) := by
    intro i
    match i with
    | 0 => decide +kernel
    | 1 => decide +kernel
    | 2 => decide +kernel
    | 3 => decide +kernel
    | 4 => decide +kernel
    | 5 => decide +kernel
    | 6 => decide +kernel
    | 7 => decide +kernel
    | 8 => decide +kernel
    | 9 => decide +kernel
  exact fun i hi => h ⟨i, hi⟩

theorem image1_blocks :
    chunks 64 (image1 ++ (0x80 :: List.replicate ((119 - image1.length % 64) % 64) 0 ++ (bytesLE 8 (8 * image1.length)).reverse)) = (List.range 10).map blk := by
  decide +kernel

theorem sha_chain : ((List.range 10).map blk).foldl shaBlock shaInit = shaStep 10 := by
  rw [show shaInit = shaStep 0 by decide +kernel]
  simp only [List.range, List.range.loop, List.map, List.foldl, sha_block 0 (by decide), sha_block 1 (by decide), sha_block 2 (by decide),
    sha_block 3 (by decide), sha_block 4 (by decide), sha_block 5 (by decide), sha_block 6 (by decide), sha_block 7 (by decide), sha_block 8 (by decide),
    sha_block 9 (by decide)]

theorem sha_image1 : sha256 image1 = digest0 := by
  have h := sha_chain
  rw [← image1_blocks] at h
  simp only [sha256, h]
  decide +kernel

theorem image0_zeroed : overwrite (overwrite image0 8 (List.replicate 32 0)) 252 (List.replicate 4 0) = image1 := by decide +kernel

theorem image0_good : badImage image0 576 = none := by
  simp only [badImage, image0_zeroed, sha_image1]
  decide +kernel

/-- Tenant 3 holds partition 2, and nothing is admitted. -/
def coreA : Core := { leases := { parts := [(2, 3, true)] }, tens := [(0, { enabled := true }), (3, { enabled := true })] }

theorem image0_admitted : ∃ p, admitTest (startMach (at_ coreA)) 3 image0 576 = .inr p := by
  have h : (admitTest (startMach (at_ coreA)) 3 image0 576).isRight = true := by
    unfold admitTest
    rw [image0_good]
    decide +kernel
  cases e : admitTest (startMach (at_ coreA)) 3 image0 576 with
  | inl f => rw [e] at h; cases h
  | inr p => exact ⟨p, rfl⟩

def cmd (op flags target : Nat) (ps : List (Nat × List Byte)) : List Byte :=
  ps.foldl (fun b e => overwrite b e.1 e.2) (padTo 64 (bytesLE 2 op ++ [BitVec.ofNat 8 flags, BitVec.ofNat 8 target] ++ bytesLE 4 7))

/-- A command of tenant `t` that waits, fetched from submission queue 2 with its reply to go to completion queue 3. -/
def acc (t : TenantId) (p : List Byte) : Accepted := { tenant := t, sq := 2, cq := 3, tag := 7, packet := p }

def qs0 : List (Nat × Queue) :=
  [(0, { kind := .sq, entries := 16, bound := 1 }), (1, { kind := .cq, entries := 16 }), (2, { kind := .sq, entries := 16, bound := 3 }), (3, { kind := .cq, entries := 16, reserved := 1 })]

def ten0 : Ten := { enabled := true, queues := qs0 }

def asking (c : Core) (a : Accepted) : State := at_ { c with accepted := [a], tens := insertKey a.tenant.toNat { (c.ten a.tenant.toNat) with enabled := true, queues := qs0 } c.tens }

def asksB (s : State) (op : Nat) (a : Accepted) : Bool :=
  s.core.cmd? op a.tenant a.sq a.tag == some a && !bitOf (fieldAt a.packet 2 1) 0 && ((lookup? a.cq (s.core.ten a.tenant.toNat).queues).any fun q => !q.err)

theorem asks_of_asksB {s : State} {op : Nat} {a : Accepted} (h : asksB s op a = true) : s.asks op a.tenant a.sq a.tag a := by
  simp only [asksB, Bool.and_eq_true, beq_iff_eq, Bool.not_eq_true'] at h
  exact ⟨h.1.1, h.1.2, h.2⟩

/-- Commands of tenants that wait and may start, as (core, tenant, packet, opcode). -/
def allAsk (l : List (Core × TenantId × List Byte × Nat)) : Prop :=
  ∀ x ∈ l, (asking x.1 (acc x.2.1 x.2.2.1)).asks x.2.2.2 x.2.1 2 7 (acc x.2.1 x.2.2.1)

theorem allAsk_of {l : List (Core × TenantId × List Byte × Nat)} (h : l.all (fun x => asksB (asking x.1 (acc x.2.1 x.2.2.1)) x.2.2.2 (acc x.2.1 x.2.2.1)) = true) :
    allAsk l := fun x hx => asks_of_asksB (List.all_eq_true.mp h x hx)

/-- A command with one-byte parameters from byte 8 on. -/
def cmdB (op target : Nat) (ps : List Byte) : List Byte := cmd op 0 target [(8, ps)]

/-- With a plan and without; a lease of another tenant and leases of one; region sizes at 8 and 128 and over 988 in sum; images; caps; the four reaches. The
signature is an opaque constant: an image falls under one of its two clauses, whichever its value. -/
theorem test_hyps_ModuleCommandsAnswer :
    allAsk [(coreA, 0, cmdB 0x101 0 [], 0x101), (core0, 0, cmdB 0x102 0 [2], 0x102), (coreA, 0, cmdB 0x102 0 [2], 0x102), (coreA, 0, cmdB 0x103 0 [0], 0x103),
      (coreA, 0, cmdB 0x103 0 [1, 3], 0x103), (coreA, 0, cmdB 0x103 0 [1, 4], 0x103), (coreA, 0, cmdB 0x104 0 [8, 0, 96, 0, 96, 0], 0x104),
      (coreA, 0, cmdB 0x104 0 [7, 0, 96, 0, 96, 0], 0x104), (coreA, 0, cmdB 0x104 0 [128, 0, 0x5C, 3, 0, 0], 0x104), (coreA, 0, cmd 0x105 0 0 [(16, bytesLE 4 0)], 0x105),
      (coreA, 0, cmdB 0x106 0 [1], 0x106), (coreA, 0, cmd 0x107 0 0 [(8, bytesLE 2 300), (12, bytesLE 4 2000)], 0x107), (coreA, 0, cmdB 0x108 0 [0], 0x108),
      (coreA, 0, cmdB 0x108 0 [1, 7], 0x108), (coreA, 0, cmdB 0x108 0 [2, 15], 0x108), (coreA, 0, cmdB 0x108 0 [3], 0x108), (coreA, 0, cmdB 0x108 3 [3], 0x108)] ∧
    (core0.anyPlan = true ∧ (at_ coreA).view.anyPlan = false ∧ coreA.anyPlan = false) ∧
    ((∃ x ∈ (at_ coreA).view.leases.parts, x.2.1 ≠ 4) ∧ (∀ x ∈ (at_ coreA).view.leases.parts, x.2.1 = 3) ∧ (at_ coreA).view.leases.granules = [] ∧
      (at_ coreA).view.leases.hbm = [] ∧ (at_ coreA).view.leases.bandwidth = [] ∧ (at_ coreA).view.leases.links = []) ∧
    (128 + 860 + 0 = 988 ∧ 8 + 96 + 96 < 988 ∧ ∃ x ∈ [(((3, 2, 0), 2 * 1024 + 800) : (TenantId × Nat × Nat) × Nat)], 988 - 200 ≤ x.2 % 1024) ∧
    (∀ b, Config.signatureOk 1 b = false ∨ (Config.signatureOk 1 b = true ∧ (([] : List Byte).length = 0 ∧ 0 ≤ 2 ^ 25 ∧ coreA.ident.fwSec.toNat ≤ (readFw []).sec.toNat))) ∧
    ((coreA.ident.images.getD 1 {}).valid = true ∧ coreA.ident.fwSec.toNat ≤ (coreA.ident.images.getD 1 {}).sec.toNat) ∧
    ((acc 0 (cmdB 0x108 3 [3])).target ≠ 0 ∧ (acc 0 (cmdB 0x108 3 [3])).target ≠ 0 ∧ (acc 0 (cmdB 0x108 0 [3])).target = 0) := by
  refine ⟨allAsk_of (by decide +kernel), by decide +kernel, by decide +kernel, by decide +kernel, fun b => ?_, by decide +kernel, by decide +kernel⟩
  cases Config.signatureOk 1 b
  · exact .inl rfl
  · exact .inr ⟨rfl, by decide +kernel⟩

/-- Tenant 3 with a plan on partition 2 whose buffers lie in granule 5 and extents 0 and 1. -/
def coreL : Core :=
  { core0 with
    plans := [{ plan0 with bufs := [{ space := 1, lpart := 0, off := 5 * 2 ^ 24, units := 2 ^ 18, kind := 4 }, { space := 0, lpart := 0, off := 0, units := 2 ^ 21, kind := 1 }] }],
    leases := { parts := [(2, 3, false), (4, 3, false)], granules := [((2, 5), 3)], hbm := [((3, 2, 0), 2 * 1024), ((3, 2, 1), 2 * 1024 + 1)], bandwidth := [((4, 2), 1000)], links := [((63, 0), 4)] } }

/-- Grants that pass and grants refused, revokes of what no plan uses and of what one uses. -/
theorem test_hyps_TenantAndLeaseCommandsAnswer :
    allAsk [(coreL, 0, cmdB 0x201 4 [], 0x201), (coreA, 0, cmdB 0x202 3 [], 0x202), (coreL, 0, cmdB 0x203 4 [0x0C, 0], 0x203), (coreL, 0, cmdB 0x203 4 [0x0C, 1], 0x203),
      (coreL, 0, cmdB 0x203 3 [0x10, 2], 0x203), (coreL, 0, cmdB 0x203 3 [0x04, 2], 0x203), (coreL, 0, cmdB 0x203 3 [0x04, 3], 0x203),
      (coreL, 0, cmd 0x204 0 4 [(8, [2, 0]), (16, bytesLE 6 1)], 0x204), (coreL, 0, cmd 0x204 0 3 [(8, [2, 0]), (16, bytesLE 6 (2 ^ 47 + 1))], 0x204),
      (coreL, 0, cmd 0x204 0 3 [(8, [2, 2]), (16, bytesLE 6 1)], 0x204), (coreL, 0, cmd 0x204 0 3 [(8, [2, 2]), (16, bytesLE 6 32)], 0x204),
      (coreL, 0, cmd 0x204 0 3 [(8, [2, 3]), (16, bytesLE 6 32)], 0x204),
      (coreL, 0, cmd 0x205 0 3 [(8, [2, 0]), (10, bytesLE 2 990), (12, bytesLE 2 3)], 0x205), (coreL, 0, cmd 0x205 0 3 [(8, [2, 0]), (10, bytesLE 2 990), (12, bytesLE 2 2)], 0x205),
      (coreL, 0, cmd 0x205 0 3 [(8, [2, 2]), (10, bytesLE 2 2), (12, bytesLE 2 1)], 0x205), (coreL, 0, cmd 0x205 0 3 [(8, [2, 3]), (10, bytesLE 2 1), (12, bytesLE 2 1)], 0x205),
      (coreL, 0, cmd 0x206 0 3 [(8, [2, 0]), (10, bytesLE 2 639)], 0x206), (coreA, 0, cmd 0x206 0 3 [(8, [2, 0]), (10, bytesLE 2 1638)], 0x206),
      (coreL, 0, cmd 0x207 0 3 [(16, bytesLE 8 (2 ^ 63))], 0x207), (coreL, 0, cmd 0x207 0 3 [(16, bytesLE 8 (2 ^ 62))], 0x207),
      (coreA, 0, cmd 0x207 0 3 [(9, [2]), (16, bytesLE 8 (2 ^ 63))], 0x207)] ∧
    ((at_ coreA).view.users 3 (fun _ => true) = [] ∧ coreA.users 3 (fun _ => true) = [] ∧ (at_ coreL).view.ident.dedicated = none) ∧
    ((∀ x ∈ (at_ coreL).view.leases.parts, x.1 ∈ onesOf 8 0x0C → x.2.1 ≠ 4 → x.2.2 = false) ∧
      (∃ x ∈ (at_ coreL).view.leases.parts, x.1 ∈ onesOf 8 0x0C ∧ x.2.1 ≠ 4 ∧ (1 = 1 ∨ x.2.2 = true)) ∧
      (at_ coreL).view.users 3 (fun p => p.physParts.any (onesOf 8 0x10).contains) = [] ∧ (at_ coreL).view.users 3 (fun p => p.physParts.any (onesOf 8 0x04).contains) ≠ [] ∧
      coreL.clk.epochSet = true) ∧
    ((at_ coreL).view.holds 4 2 = false ∧ (at_ coreL).view.holds 3 2 = true ∧
      (∀ g ∈ onesOf 48 (2 ^ 47 + 1), lookup? (2, g) (at_ coreL).view.leases.granules = none ∧ g ∉ ((at_ coreL).view.part 2).memp.granOut) ∧
      (at_ coreL).view.users 3 (fun q => q.bufs.any (fun b => (q.granulesOf b).any (fun x => x.1 == 2 && [0].contains x.2))) = [] ∧
      (at_ coreL).view.users 3 (fun q => q.bufs.any (fun b => (q.granulesOf b).any (fun x => x.1 == 2 && [5].contains x.2))) ≠ []) ∧
    (992 < 990 + 3 ∧ (((at_ coreL).view.freeExtents 2).take 2).length = 2 ∧ 990 + 2 ≤ 992 ∧ (∀ i < 2, lookup? (3, 2, 990 + i) (at_ coreL).view.leases.hbm = none) ∧
      (at_ coreL).view.users 3 (fun q => (at_ coreL).view.hbmUsed q 2 2 1) = [] ∧ (at_ coreL).view.users 3 (fun q => (at_ coreL).view.hbmUsed q 2 1 1) ≠ []) ∧
    (1638 < sumNat (((at_ coreL).view.leases.bandwidth.filter (fun x => x.1.2 == 2 && x.1.1 != 3)).map Prod.snd) + 639 ∧
      sumNat (((at_ coreA).view.leases.bandwidth.filter (fun x => x.1.2 == 2 && x.1.1 != 3)).map Prod.snd) + 1638 ≤ 1638 ∧ (at_ coreA).view.holds 3 2 = true) ∧
    (lookup? (63, 0) (at_ coreL).view.leases.links = some 4 ∧ (∀ k ∈ onesOf 64 (2 ^ 62), lookup? (k, 0) (at_ coreL).view.leases.links = none)) := by
  refine ⟨allAsk_of (by decide +kernel), ?_⟩
  decide +kernel

theorem test_hyps_GrantsKeepOutOfServicePartitions :
    (∀ p ∈ onesOf 8 0x0C, ((at_ coreL).view.part p).outOfService = false) ∧
    (∃ p ∈ onesOf 8 0x0C, ((at_ { coreL with parts := coreL.parts.set 2 { outOfService := true } }).view.part p).outOfService = true) := by decide +kernel

def seal0 : List Byte :=
  let h := bytesLE 2 1 ++ List.replicate 58 0
  let e := bytesLE 8 0 ++ bytesLE 8 (2 ^ 26) ++ bytesLE 4 1 ++ [0] ++ List.replicate 7 0
  h ++ bytesLE 4 (crc32c h) ++ e ++ bytesLE 4 (crc32c e)

def ents0 : List SealEnt := [{ cls := 0, extents := 1, nextOff := 2 ^ 26, curOff := 0 }]

/-- A queue command's packet: kind and size, completion queue, ring base and shadow. -/
def qcmd (n kind size cq : Nat) : List Byte :=
  cmd 0x210 0 3 [(8, bytesLE 2 n), (10, [BitVec.ofNat 8 kind, BitVec.ofNat 8 size]), (12, bytesLE 2 cq), (18, bytesLE 2 1), (24, bytesLE 8 4096), (32, bytesLE 8 64)]

/-- Tenant 3 with queues, and a request queue 4; its plan 1 runs on demand in class 0. -/
def coreQ : Core :=
  { core0 with
    plans := [{ plan0 with hdr := { hdr0 with onDemand := true, cls := 0 } }],
    tens := [(0, { enabled := true }), (3, { ten0 with queues := qs0 ++ [(4, { kind := .rq, bound := 3, depth := 1 }), (5, { kind := .rq, bound := 3, depth := 1, tags := [9] })] })] }

def full3 : Queue := { kind := .cq, entries := 16, tail := 5, reserved := 1, unsignalled := 1, vector := 2 }

theorem test_hyps_QueuesDoorbellsAndFetchWork :
    ((coreQ.ringable 3 2) = some { kind := .sq, entries := 16, bound := 3 } ∧ (15 : BitVec 32).toNat < 16 ∧ 16 ≤ (16 : BitVec 32).toNat ∧ 2 ≤ 2) ∧
    (let c := { coreQ with tens := [(3, { ten0 with queues := [(1, { kind := .cq, entries := 16 }), (3, full3)] })] }
     c.ringable 3 3 = some full3 ∧ (5 : BitVec 32).toNat < full3.entries ∧ ((5 : BitVec 32).toNat + full3.entries - full3.head) % full3.entries ≤ full3.used ∧
     (c.ten 3).fifo = [] ∧ full3.err = false ∧ 0 < full3.unsignalled ∧ full3.vector ≠ 0xFF) ∧
    (let q : Queue := { kind := .cq, entries := 16, tail := 15 }
     let c := { coreQ with tens := [(3, { ten0 with queues := [(1, q)], fifo := [{ status := 0xF6, detail := [] }] })] }
     c.ringable 3 1 = some q ∧ (15 + 16 - 0) % 16 ≤ q.used ∧ (c.modQueue 3 1 (fun q => { q with head := 15 })).cq1Free 3 = true ∧
     (c.ten 3).fifo.head?.isSome = true) ∧
    ((coreQ.ringable 3 4) = some { kind := .rq, bound := 3, depth := 1 } ∧ (coreQ.ringable 3 5) = some { kind := .rq, bound := 3, depth := 1, tags := [9] }) ∧
    (let q : Queue := { kind := .sq, entries := 16, tail := 1, bound := 3 }
     let c := { coreQ with tens := [(3, { ten0 with queues := [(2, q), (3, { kind := .cq, entries := 16 })] })] }
     c.ringable 3 2 = some q ∧ q.head ≠ q.tail ∧ lookup? q.bound (c.ten 3).queues = some { kind := .cq, entries := 16 } ∧ ({ kind := .cq, entries := 16 } : Queue).hasFree = true ∧
     (cmd 0x304 0 3 [(8, [1, 0])]).length = 64 ∧ q.head < q.entries ∧ packetTest c (acc 3 (cmd 0x304 0 3 [(8, [1, 0])])) = none ∧
     packetTest c (acc 3 (cmd 0x999 0 3 [])) = some 1) ∧
    (coreQ.rst.phase = 6 ∧ (coreQ.ten 3).enabled = true ∧ (coreQ.ten 3).adminShadow.getLsbD 0 = false ∧ (0x500C : BitVec 64).toNat % 16 ≤ 12 ∧ coreQ.accepted = []) ∧
    allAsk [(coreQ, 3, qcmd 1 1 0 3, 0x210), (coreQ, 3, qcmd 3 1 0 3, 0x210), (coreQ, 3, qcmd 1023 1 12 3, 0x210), (coreQ, 3, qcmd 10 2 0 0, 0x210),
      (core0, 3, cmd 0x210 0 3 [(8, bytesLE 2 10), (10, [3, 3, 3, 0]), (18, [9, 0])], 0x210), (coreQ, 3, qcmd 10 3 3 3, 0x210), (core0, 3, cmd 0x211 0 3 [(8, [99, 0])], 0x211),
      (core0, 3, cmd 0x211 0 3 [(8, [2, 0])], 0x211)] ∧
    (∃ q, lookup? 3 qs0 = some q ∧ q.kind = .cq ∧ (∃ y ∈ qs0, y.2.kind ≠ .cq ∧ y.2.bound = 3)) ∧ lookup? 99 qs0 = none ∧
    (at_ core0).view.planNamed 3 9 = none ∧ ((at_ coreQ).view.planNamed 3 1).isSome = true := by
  refine ⟨by decide +kernel, by decide +kernel, by decide +kernel, by decide +kernel, by decide +kernel, by decide +kernel, allAsk_of (by decide +kernel),
    ⟨{ kind := .cq, entries := 16, reserved := 1 }, by decide +kernel⟩, by decide +kernel, by decide +kernel, by decide +kernel⟩

def admitCmd : List Byte := cmd 0x301 0 3 [(16, bytesLE 4 576), (24, bytesLE 8 0), (32, bytesLE 4 8)]

/-- Tenant 3's plan 1 admitted and not launched, with extents 0 to 3 of its partition's view. -/
def coreP : Core :=
  { core0 with jobs := [], leases := { parts := [(2, 3, false)], hbm := (List.range 4).map (fun i => ((3, 2, i), 2 * 1024 + i)) } }

def launch (lc len : Nat) : List Byte := cmd 0x303 0 3 [(8, bytesLE 2 1), (12, bytesLE 4 len), (16, bytesLE 8 lc), (24, bytesLE 5 7)]

theorem test_hyps_PlanJobAndDataCommandsAnswer :
    allAsk [(coreA, 3, admitCmd, 0x301), (core0, 3, cmd 0x302 0 3 [(8, [9, 0])], 0x302), (core0, 3, cmd 0x302 0 3 [(8, [1, 0])], 0x302),
      (core0, 3, cmd 0x302 0 3 [(8, [1, 0, 1])], 0x302), (coreP, 3, launch 2000000 96, 0x303), (coreP, 3, launch 2000001 96, 0x303), (core0, 3, cmd 0x304 0 3 [(8, [1, 0])], 0x304),
      (coreP, 3, cmd 0x308 0 3 [(16, bytesLE 8 (2 * 2 ^ 36)), (24, bytesLE 4 2)], 0x308), (coreP, 3, cmd 0x309 0 3 [(16, bytesLE 8 (2 * 2 ^ 36)), (24, bytesLE 4 2)], 0x309)] ∧
    ((∃ p, admitTest (startMach (at_ coreA)) 3 image0 576 = .inr p) ∧ admitTest (startMach (at_ coreA)) 3 [] 0 = .inl ⟨0x301, 0, 0⟩ ∧ coreA.led.alone = true ∧
      coreA.plans = []) ∧
    ((at_ core0).view.planNamed 3 9 = none ∧ (at_ core0).view.planNamed 3 1 = some plan0 ∧ plan0.withdrawAt = none ∧ plan0.withdrawAfter = none ∧ plan0.forced = false ∧
      core0.clk.epochSet = true ∧ coreA.clk.epochSet = false ∧ ({ plan0 with forced := true } : Plan).forced = true) ∧
    ((at_ coreP).view.planNamed 3 1 = some plan0 ∧ (at_ coreP).view.job? 1 = none ∧ (at_ coreP).view.restoring 1 = false ∧ (at_ coreP).view.spool.restored = [] ∧
      2000000 % 1000 = 0 ∧ (at_ coreP).view.clk.count.toNat + 1000000 ≤ 2000000 ∧ (2000000 - (at_ coreP).view.clk.epoch.toNat) % (100 * 1000) = 0 ∧ 2000001 % 1000 ≠ 0 ∧
      seal0.length = 96 ∧ readSealMap seal0 = some ents0 ∧ (at_ coreP).view.sealMapOk plan0 ents0 = true ∧ readSealMap [] = none) ∧
    ((at_ core0).view.job? 1 = some job0 ∧ job0.phase ≠ .stoppedLimit ∧ job0.phase ≠ .stoppedFallback ∧ core0.planNamed 3 1 = some plan0) ∧
    (coreP.hostKeys 3 (2 * 2 ^ 36) 2 = some [hbmKey 2 0, hbmKey 2 64] ∧ coreP.hostKeys 3 (2 * 2 ^ 36 + 4 * 2 ^ 26) 1 = none ∧
      coreP.sealGuard true [hbmKey 2 0, hbmKey 2 64] = false ∧ hbmKey 2 0 % 64 = 0 ∧ hbmKey 2 64 % 64 = 0 ∧ [hbmKey 2 0, hbmKey 2 64].Nodup ∧
      ({ coreP with jobs := [{ job0 with sealMap := ents0 }] } : Core).sealGuard true [hbmKey 2 0] = true ∧
      ({ coreP with jobs := [{ job0 with sealMap := ents0 }] } : Core).sealGuard false [hbmKey 2 0] = true) := by
  refine ⟨allAsk_of (by decide +kernel), ⟨image0_admitted, by decide +kernel, by decide +kernel, by decide +kernel⟩, by decide +kernel, by decide +kernel, by decide +kernel,
    by decide +kernel⟩

/-- A fabric block of one meadow whose positions below 60 lie on the X axis, without its CRC. -/
def fabBody : List Byte :=
  [1, 0, 1, 1, 1, 4] ++ List.replicate 6 0 ++ [11, 11, 11, 11, 10, 10] ++ List.replicate 46 0 ++
    (List.range 64).flatMap (fun p => [if p < 60 then 1 else 0, 0] ++ List.replicate 6 0xFF) ++ List.replicate 444 0

def fabBlock : List Byte := fabBody ++ bytesLE 4 2912755158

/-- The CRC register after each 128 bytes. -/
def fabCrc : Nat → Nat
  | 0 => 4294967295
  | 1 => 3583931826
  | 2 => 2355766666
  | 3 => 1418531255
  | 4 => 249967217
  | 5 => 225334144
  | 6 => 132331244
  | 7 => 2249650462
  | _ => 1382212137

theorem fab_chunk : ∀ i < 8, (slice fabBody (128 * i) 128).foldl crcByte (fabCrc i) = fabCrc (i + 1) := by
  have h : ∀ i : Fin 8, (slice fabBody (128 * i) 128).foldl crcByte (fabCrc i) = fabCrc (i + 1) := by
    intro i
    match i with
    | 0 => decide +kernel
    | 1 => decide +kernel
    | 2 => decide +kernel
    | 3 => decide +kernel
    | 4 => decide +kernel
    | 5 => decide +kernel
    | 6 => decide +kernel
    | 7 => decide +kernel
  exact fun i hi => h ⟨i, hi⟩

theorem fab_chunks : fabBody = slice fabBody (128 * 0) 128 ++ (slice fabBody (128 * 1) 128 ++ (slice fabBody (128 * 2) 128 ++ (slice fabBody (128 * 3) 128 ++
    (slice fabBody (128 * 4) 128 ++ (slice fabBody (128 * 5) 128 ++ (slice fabBody (128 * 6) 128 ++ slice fabBody (128 * 7) 128)))))) := by decide +kernel

theorem crc_of {bs : List Byte} {r n : Nat} (s : Nat → Nat) (h0 : s 0 = 0xFFFFFFFF) (h : bs.foldl crcByte (s 0) = s n) (hr : s n ^^^ 0xFFFFFFFF = r) :
    crc32c bs = r := by
  rw [← hr, ← h, h0]
  rfl

theorem crc_fabBody : crc32c fabBody = 2912755158 := by
  have h : fabBody.foldl crcByte (fabCrc 0) = fabCrc 8 := by
    rw [fab_chunks]
    simp only [List.foldl_append]
    rw [fab_chunk 0 (by decide), fab_chunk 1 (by decide), fab_chunk 2 (by decide), fab_chunk 3 (by decide), fab_chunk 4 (by decide), fab_chunk 5 (by decide),
      fab_chunk 6 (by decide), fab_chunk 7 (by decide)]
  exact crc_of fabCrc (by decide) h (by decide)

theorem fabBlock_good : fabricOk false fabBlock 0 = true := by
  simp only [fabricOk, show slice fabBlock 0 1020 = fabBody by decide +kernel, crc_fabBody]
  decide +kernel

def coreT (y : Option Txn) : Core := { core0 with tens := [(0, { enabled := true, txn := y })] }

def txn0 : Txn := { id := 1 }

def coreF : Core := { coreA with fab := { cfg := { loaded := true }, slices := [{ slice2 with map := [0, 1] }] } }

def lp4 (flags : Nat) : List Byte := cmd 0x203 flags 4 [(8, [0x08, 0])]

theorem test_hyps_FabricAndTransactionCommandsAnswer :
    allAsk [(coreA, 0, cmd 0x401 0 0 [], 0x401), (coreA, 0, cmd 0x402 0 3 [(8, [2, 1, 3, 4])], 0x402), (coreF, 0, cmd 0x402 0 3 [(8, [2, 1, 3, 4])], 0x402),
      (coreF, 0, cmd 0x402 0 3 [(8, [2, 1, 3, 2])], 0x402), (coreF, 0, cmd 0x402 0 3 [(8, [2, 1, 1, 0])], 0x402), (coreF, 0, cmd 0x402 0 3 [(8, [2, 2, 0, 0, 0, 0, 0, 1, 1, 1])], 0x402),
      (coreF, 0, cmd 0x402 0 3 [(8, [2, 2, 0, 0, 1, 0, 0, 1, 1, 1])], 0x402), (coreF, 0, cmdB 0x403 3 [1], 0x403), (coreF, 0, cmdB 0x403 3 [2], 0x403),
      (coreA, 0, cmdB 0x404 0 [12, 1], 0x404), (coreA, 0, cmdB 0x404 0 [13, 0], 0x404), (coreT none, 0, cmdB 0x701 0 [5, 0], 0x701), (coreT (some txn0), 0, cmdB 0x701 0 [], 0x701),
      (coreT none, 0, cmdB 0x702 0 [], 0x702), (coreT (some txn0), 0, cmdB 0x702 0 [], 0x702), (coreT (some txn0), 0, cmdB 0x703 0 [], 0x703),
      (coreT (some txn0), 0, cmdB 0x704 0 [], 0x704)] ∧
    ((core0.anyPlan = true ∧ coreA.anyPlan = false) ∧ fabricOk false fabBlock 0 = true ∧ fabricOk false [] 0 = false) ∧
    (coreA.fab.cfg.loaded = false ∧ coreF.fab.cfg.loaded = true ∧ (3 < 64 ∧ 4 < 64 ∧ 3 &&& 4 = 0) ∧ 3 &&& 2 ≠ 0) ∧
    ((∀ y ∈ (at_ coreF).view.fab.slices, y.id ≠ 2 ∧ ∀ m ∈ y.map, m ∉ subcubeMap 0 3 4) ∧ (∀ m ∈ subcubeMap 0 3 4, m % 64 < 64 - 4) ∧
      (∃ y ∈ (at_ coreF).view.fab.slices, ∃ m ∈ y.map, m ∈ subcubeMap 0 1 0) ∧ (∃ y ∈ (at_ coreF).view.fab.slices, ∃ m ∈ y.map, m ∈ torusMap coreF.fab.cfg 0 0 0 1 1 1) ∧
      ((at_ { coreF with fab := { coreF.fab with slices := [] } }).view.fab.slices = [] ∧ ∀ m ∈ torusMap coreF.fab.cfg 0 0 0 1 1 1, m % 64 < 64 - 4)) ∧
    ((∃ y ∈ (at_ coreF).view.fab.slices, y.id = 1 ∧ y.tenant = 3) ∧ (∀ y ∈ (at_ coreF).view.fab.slices, y.id ≠ 2) ∧ (at_ coreF).view.plans = [] ∧
      ∃ y, (core2 job2 []).sliceFor plan2 = some y ∧ y.id = 1) ∧
    ((coreT none).txn? 0 = none ∧ (coreT (some txn0)).txn? 0 = some txn0 ∧ txn0.commit = none ∧ ({ txn0 with commit := some 5 } : Txn).commit.isSome = true) ∧
    (let s := asking (coreT (some txn0)) (acc 0 (lp4 1))
     s.core.cmd? 0x203 0 2 7 = some (acc 0 (lp4 1)) ∧ bitOf (fieldAt (acc 0 (lp4 1)).packet 2 1) 0 = true ∧ ((lookup? 3 (s.core.ten 0).queues).any fun q => !q.err) = true ∧
     txn0.staged.length < 64 ∧ 64 ≤ (List.replicate 64 ({ packet := [], data := [] } : Staged)).length) ∧
    (let s := asking (coreT (some txn0)) (acc 0 (cmd 0x201 1 4 []))
     s.core.cmd? 0x201 0 2 7 = some (acc 0 (cmd 0x201 1 4 [])) ∧ bitOf (fieldAt (cmd 0x201 1 4 []) 2 1) 0 = true) ∧
    ((coreT (some txn0)).commitEdge 0 ≠ none ∧ (coreT (some txn0)).commitEdge 5 = none ∧
      (evalStaged 0 (some 0) [{ packet := lp4 1, data := [] }] 0 (startMach (at_ coreA))).1 = none ∧
      ((evalStaged 0 (some 0) [{ packet := cmdB 0x203 4 [0x04, 0], data := [] }] 0 (startMach (at_ coreA))).1).isSome = true ∧ core0.clk.epochSet = true ∧
      coreA.clk.epochSet = false ∧ txn0.staged = []) := by
  refine ⟨allAsk_of (by decide +kernel), ⟨by decide +kernel, fabBlock_good, by decide +kernel⟩, by decide +kernel, by decide +kernel, ⟨by decide +kernel, by decide +kernel, by decide +kernel, slice2, by decide +kernel⟩,
    by decide +kernel, by decide +kernel, by decide +kernel, by decide +kernel⟩

/-! ### Checkpoints, control cores, health, snapshots, registers -/

/-- A target descriptor on storage port 0, without its CRC. -/
def tgtBody : List Byte := List.replicate 18 0 ++ [1] ++ List.replicate 489 0

def tgt0 : List Byte := tgtBody ++ bytesLE 4 3583538581

/-- The CRC register after each 128 bytes. -/
def tgtCrc : Nat → Nat
  | 0 => 4294967295
  | 1 => 2694650773
  | 2 => 1723590307
  | 3 => 3382074934
  | _ => 711428714

theorem tgtCrc_step : ∀ i < 4, (slice tgtBody (128 * i) 128).foldl crcByte (tgtCrc i) = tgtCrc (i + 1) := by
  have h : ∀ i : Fin 4, (slice tgtBody (128 * i) 128).foldl crcByte (tgtCrc i) = tgtCrc (i + 1) := by
    intro i
    match i with
    | 0 => decide +kernel
    | 1 => decide +kernel
    | 2 => decide +kernel
    | 3 => decide +kernel
  exact fun i hi => h ⟨i, hi⟩

theorem tgtCrc_all : tgtBody = slice tgtBody (128 * 0) 128 ++ (slice tgtBody (128 * 1) 128 ++ (slice tgtBody (128 * 2) 128 ++ (slice tgtBody (128 * 3) 128))) := by decide +kernel

theorem crc_tgtBody : crc32c tgtBody = 3583538581 := by
  have h : tgtBody.foldl crcByte (tgtCrc 0) = tgtCrc 4 := by
    rw [tgtCrc_all]
    simp only [List.foldl_append]
    rw [tgtCrc_step 0 (by decide), tgtCrc_step 1 (by decide), tgtCrc_step 2 (by decide), tgtCrc_step 3 (by decide)]
  exact crc_of tgtCrc (by decide) h (by decide)

theorem tgt0_good : targetOk tgt0 = true := by
  simp only [targetOk, show slice tgt0 0 508 = tgtBody by decide +kernel, crc_tgtBody]
  decide +kernel

/-- A full-image schedule over one target, written by logical module 7, every 60 s, without its CRC. -/
def schedBody (area : Nat) : List Byte :=
  List.replicate 4 0 ++ [1, 0, 7, 0, 2, 1, 0, 0, 60, 0, 0, 0] ++ bytesLE 8 area ++ List.replicate 8 0 ++ bytesLE 4 256 ++ bytesLE 4 1 ++ List.replicate 88 0 ++
    List.replicate 64 0xFE ++ List.replicate 60 0

/-- Areas of 16384 blocks, which hold the stored image, and areas one block too short. -/
def sched0 : List Byte := schedBody 16384 ++ bytesLE 4 1177663112

def schedShort : List Byte := schedBody 16383 ++ bytesLE 4 1829313480

theorem crc_schedBody : crc32c (schedBody 16384) = 1177663112 := by decide +kernel

theorem crc_schedShort : crc32c (schedBody 16383) = 1829313480 := by decide +kernel

theorem sched0_good : scheduleOk sched0 = true := by
  simp only [scheduleOk, show slice sched0 0 252 = schedBody 16384 by decide +kernel, crc_schedBody]
  decide +kernel

theorem schedShort_good : scheduleOk schedShort = true := by
  simp only [scheduleOk, show slice schedShort 0 252 = schedBody 16383 by decide +kernel, crc_schedShort]
  decide +kernel

def conn : Target := { desc := [], connected := true }

def jobS : Job := { job0 with sealMap := ents0 }

def snap0 : SnapJob := { plan := 1, block := sched0, seq := 1 }

def slot0 (ph : SnapPhase) : SnapSlot := { plan := 1, step := 7, seq := 1, block := sched0, at_ := 0, phase := ph }

def coreS (sp : Spool) : Core := { coreP with jobs := [jobS], spool := sp }

def spool0 : Spool := { targets := [((3, 0), conn)], keys := [((3, 0), List.replicate 32 1)] }

def man0 : ManifestRun := { plan := 1, step := 7, seq := 1, sealCount := 0 }

/-- RESTORE's 96 bytes of seal map follow the 64 bytes that name the target, the key and the flags. -/
def rbuf : List Byte := List.replicate 64 0 ++ seal0

theorem test_hyps_CheckpointCommandsAnswer :
    allAsk [(coreS {}, 3, cmd 0x501 0 3 [(16, bytesLE 8 0)], 0x501), (coreS {}, 3, cmd 0x501 0 3 [(16, bytesLE 8 4096)], 0x501), (coreS {}, 3, cmd 0x502 0 3 [], 0x502),
      (coreS {}, 3, cmd 0x502 0 3 [(8, List.replicate 32 1)], 0x502), (coreS spool0, 3, cmd 0x503 0 3 [(8, [1, 0])], 0x503), (coreS spool0, 3, cmd 0x503 0 3 [(8, [9, 0])], 0x503),
      (coreS { spool0 with jobs := [snap0] }, 3, cmd 0x504 0 3 [(8, [1, 0])], 0x504), (coreS {}, 3, cmd 0x505 0 3 [(8, [25])], 0x505),
      (coreS { spool0 with jobs := [snap0], slots := [some (slot0 .draining), none] }, 3, cmd 0x506 0 3 [(8, [1, 0]), (12, bytesLE 4 1)], 0x506),
      (coreS {}, 3, cmd 0x508 0 3 [(8, [1, 0])], 0x508), (coreS spool0, 3, cmd 0x507 0 3 [(8, [1, 0])], 0x507)] ∧
    (targetOk tgt0 = true ∧ targetOk [] = false) ∧ (scheduleOk sched0 = true ∧ scheduleOk schedShort = true) ∧
    ((at_ (coreS spool0)).view.jobOf 3 9 = none ∧ (at_ (coreS spool0)).view.jobOf 3 1 = some (plan0, jobS) ∧ scheduleOk [] = false ∧
      (∃ i < snapTcount sched0, ((at_ (coreS {})).view.targetOf 3 i).connected = false) ∧
      (∀ i < snapTcount sched0, ((at_ (coreS spool0)).view.targetOf 3 i).connected = true) ∧
      ((at_ (coreS spool0)).view.targetOf 3 (snapManTarget sched0)).connected = true ∧ (at_ (coreS spool0)).view.isWriter 1 sched0 = true ∧
      lookup? (3, fieldAt sched0 11 1) (at_ (coreS { spool0 with keys := [] })).view.spool.keys = none ∧
      (lookup? (3, fieldAt sched0 11 1) (at_ (coreS spool0)).view.spool.keys).isSome = true) ∧
    (storedBytes 1 ents0 ≤ (at_ (coreS spool0)).view.slotBytes ∧ snapAreaLbas schedShort * 4096 < storedBytes 1 ents0 ∧
      storedBytes 1 ents0 ≤ snapAreaLbas sched0 * 4096 ∧ (at_ (coreS spool0)).view.restoring 1 = false ∧ (coreS { restores := [{ plan := 1, step := 0, reply := acc 3 [] }] }).restoring 1 = true ∧
      ({ coreS spool0 with ident := { snapExt := 0 } } : Core).slotBytes < storedBytes 1 ents0) ∧
    ((coreS { spool0 with jobs := [snap0] }).jobOf 3 1 = some (plan0, jobS) ∧ (coreS { spool0 with jobs := [snap0] }).snapJob? 1 = some snap0 ∧ (coreS {}).snapJob? 1 = none ∧
      (coreS { spool0 with jobs := [snap0] }).isWriter 1 snap0.block = true ∧
      ({ coreS {} with jobs := [{ jobS with logicalModule := 6 }] } : Core).isWriter 1 snap0.block = false) ∧
    ((coreS { spool0 with jobs := [snap0], slots := [some (slot0 .draining), none] }).slotOf 1 1 = some (0, slot0 .draining) ∧ (coreS {}).slotOf 1 1 = none ∧
      (∃ r ∈ [{ man0 with writing := some [] }], r.plan = 1 ∧ r.seq = 1 ∧ r.writing.isSome = true) ∧ (coreS {}).spool.manifests = []) ∧
    ((coreS {}).plan? 1 = some plan0 ∧ (coreS {}).plan? 9 = none ∧ plan0.tenant = 3) ∧
    ((∃ j, (coreS {}).job? 1 = some j ∧ j.phase ≠ .stoppedLimit ∧ j.phase ≠ .stoppedFallback) ∧ coreP.job? 1 = none ∧ lookup? ((3, fieldAt rbuf 0 1) : BitVec 8 × Nat) ({} : Spool).targets = none ∧
      (lookup? (3, fieldAt rbuf 0 1) spool0.targets).isSome = true ∧ ({ desc := [] } : Target).connected = false ∧ ((coreS spool0).targetOf 3 (fieldAt rbuf 0 1)).connected = true ∧
      lookup? ((3, fieldAt rbuf 20 1) : BitVec 8 × Nat) ({} : Spool).keys = none ∧ lookup? (3, fieldAt rbuf 20 1) spool0.keys = some (List.replicate 32 1) ∧
      readSealMap (slice [] 64 64) = none ∧ readSealMap (slice rbuf 64 (64 + 32 * fieldAt rbuf 64 2)) = some ents0 ∧ manifestValid [] (List.replicate 32 1) 0 = false) := by
  refine ⟨allAsk_of (by decide +kernel), ⟨tgt0_good, by decide +kernel⟩, ⟨sched0_good, schedShort_good⟩, by decide +kernel, by decide +kernel, by decide +kernel, by decide +kernel, by decide +kernel,
    ⟨⟨jobS, by decide +kernel⟩, by decide +kernel⟩⟩

/-- Control core 0 holds a modified line of HBM, core 1 none; both may run. -/
def line0 : CacheLine := { core := 0, tenant := 3, line := hbmKey 2 0 / 64, dirty := true, bytes := List.replicate 64 1 }

def coreC (ls : List CacheLine) (rs : List (Nat × TenantId × Nat)) : Core :=
  { coreP with
    jobs := [job0],
    parts := core0.parts.set 2 { slots := { table := List.replicate 64 own }, cores := { lines := ls, reserved := rs } } }

/-- Global addresses of logical module 7: HBM, station memory, and an offset outside the lease. -/
def ga (space off : Nat) : BitVec 64 := BitVec.ofNat 64 (7 * 2 ^ 50 + space * 2 ^ 48 + off)

theorem test_hyps_ControlCoreLoadsAndStores :
    ((coreC [line0] []).coreOf 1 2 0 = some (plan0, job0) ∧ 2 < (coreC [line0] []).parts.length) ∧
    (coreC [line0] []).coreAddr plan0 job0 (ga 0 (2 ^ 35)).toNat = .none ∧ (coreC [line0] []).coreAddr plan0 job0 (ga 2 64).toNat = .sm (smKey 2 0 64) ∧
    memPoisoned ({} : Mem) (smKey 2 0 64 / 64) 1 = false ∧ (coreC [line0] []).cachedLine 1 2 0 (ga 0 8) = some (3, hbmKey 2 0 / 64) ∧
    ([line0].find? (fun x => x.core == 0 && x.tenant == 3 && x.line == hbmKey 2 0 / 64) = some line0 ∧ ([line0].filter (fun x => x.core == 0)).length ≤ 512 ∧
      line0.bytes.length = 64 ∧ (0, 3, hbmKey 2 0 / 64) ∈ [((0, 3, hbmKey 2 0 / 64) : Nat × TenantId × Nat)] ∧ (0, 3, hbmKey 2 0 / 64) ∉ (([] : List (Nat × TenantId × Nat)))) ∧
    ([line0].find? (fun x => x.tenant == 3 && x.line == hbmKey 2 0 / 64 && x.dirty) = some line0 ∧ ((coreC [line0] []).part 2).cores.l2.length < 16384) := by
  decide +kernel

theorem test_hyps_CoreStoresAreSeenByTheOtherCores :
    (coreC [line0] []).coreOf 1 2 0 = some (plan0, job0) ∧ (coreC [line0] []).coreOf 1 2 1 = some (plan0, job0) ∧ 2 < (coreC [line0] []).parts.length ∧
    (coreC [line0] []).coreAddr plan0 job0 (ga 0 63).toNat = .line (hbmKey 2 0) ∧ memPoisoned ({} : Mem) (hbmKey 2 0 / 64) 1 = false ∧
    ((coreC [line0] []).part 2).cores.l2.length + 2 < 16384 ∧ ((coreC [line0] []).part 2).cores.lines.length + 2 < 512 ∧
    (∀ x ∈ ((coreC [line0] []).part 2).cores.lines, x.bytes.length = 64) ∧ (∀ x ∈ ((coreC [line0] []).part 2).cores.l2, x.bytes.length = 64) := by
  decide +kernel

/-- A sentinel package of one test for this stepping. -/
def pkg0 : List Byte :=
  [(0, bytesLE 4 0x544E4553), (4, bytesLE 2 1), (6, [0x21, 0]), (8, bytesLE 4 2), (12, bytesLE 4 1), (16, bytesLE 4 416)].foldl (fun b e => overwrite b e.1 e.2) (List.replicate 416 0)

def test0 : SentTest := { id := 5, target := 1, entry := false }

/-- The package's signature is an opaque constant: the package falls under the clauses of status 0 or under those of another status, whichever its value. -/
theorem test_hyps_HealthEventsAndSentinelsAct :
    (coreA.led.failed.length = 2 ∧ coreA.led.takeover.length = 2 ∧ coreA.led.failed.getD 1 false = false) ∧
    (coreA.rst.phase = 6 ∧ coreA.health.volezHist = [] ∧ ∃ x ∈ [(5 : BitVec 64)], withinTicks 6 x day = true) ∧
    (7 < coreA.parts.length ∧ ({ migState := 1 } : MemPart).migState = 1) ∧
    (lookup? (recUnit (5 * 64)) (coreA.part (keyPlace (5 * 64)).1).memp.ceSeen = none) ∧
    allAsk [(coreA, 0, cmd 0x601 0 0 [(16, bytesLE 4 416)], 0x601), (coreA, 0, cmd 0x601 0 0 [(16, bytesLE 4 415)], 0x601), (coreA, 0, cmdB 0x602 0 [1, 2, 3, 4], 0x602),
      (coreA, 0, cmd 0x603 0 0 [], 0x603)] ∧
    (pkg0.length = 416 ∧ (pkgStatus coreA pkg0 = 0 ∨ pkgStatus coreA pkg0 ≠ 0) ∧ (Config.signatureOk 2 pkg0 = true → pkgStatus coreA pkg0 = 0) ∧ pkgStatus coreA [] ≠ 0 ∧
      coreA.health.pkg.any (fun k => k.image == pkg0) = false ∧ ([({ seq := 2, tests := [], image := pkg0 } : SentPkg)].any (fun k => k.image == pkg0)) = true) ∧
    ((∀ r, (some ({ scope := 2, die := 0, block := 0, inst := 0 } : SentRun)) = some r → 1 < r.scope) ∧ coreA.health.run = none) ∧
    (let g : Health := { pkg := some { seq := 2, tests := [test0], image := pkg0 }, run := some { scope := 2, die := 0, block := 0, inst := 0 } }
     (∃ k, g.pkg = some k ∧ test0 ∈ k.tests) ∧ g.run.isSome = true ∧ (test0.id, 2, test0.target.toNat, 4) ∉ g.retests ∧
       (test0.id, 2, test0.target.toNat, 4) ∈ ({ g with retests := [(5, 2, 1, 4)] } : Health).retests) := by
  refine ⟨by decide +kernel, ⟨by decide +kernel, by decide +kernel, 5, by simp, by decide +kernel⟩, by decide +kernel, by decide +kernel, allAsk_of (by decide +kernel), ⟨by decide +kernel, ?_, ?_, ?_, by decide +kernel, by decide +kernel⟩,
    ⟨fun r h => by cases h; decide, by decide +kernel⟩, ⟨⟨_, rfl, by decide +kernel⟩, by decide +kernel, by decide +kernel, by decide +kernel⟩⟩
  · exact Decidable.em _
  · intro h
    simp only [pkgStatus, h, show pkgForm pkg0 = true by decide +kernel]
    decide +kernel
  · simp only [pkgStatus, show pkgForm [] = false by decide +kernel]
    decide

def voteS : KiteOp := { plan := 1, group := 0xFF, seq := 0x3FFE, epoch := 0, op := 2, width := 3, submitter := 1 }

/-- The seal CRC of the schedule block that a vote carries. -/
def okVote : List Byte :=
  let s := fieldAt snap0.block 252 4
  lanes [0, 7, laneNot 7, s, laneNot s, 1, laneNot 1]

def rep0 : StripeRep :=
  { writer := 0, entry := 0, cls := 0, extents := 1, repl := 0xFE, holders := [], members := [0], first := 0, count := 1, total := 1, target := 0, nsid := 1, lba := 0 }

def io0 (w : IoUse) (n : Nat) : IoCmd := { id := 0, tenant := 3, target := 0, op := 1, lba := 0, lbas := 256, retries := n, plan := 1, seq := 1, what := w }

theorem test_hyps_SnapshotsAreTakenDrainedAndEnded :
    ((coreS { spool0 with jobs := [snap0] }).job? 1 = some jobS ∧ (coreS {}).plan? 1 = some plan0 ∧ (coreS { spool0 with jobs := [snap0] }).snapJob? 1 = some snap0 ∧
      spool0.slots.length = 2) ∧
    (voteS.result = none ∧ voteS.error = false ∧ ({ snap0 with voted := some 7 } : SnapJob).voted = some 7 ∧
      (∀ b ∈ [padTo 64 okVote], laneAgree b 1 = true ∧ laneAgree b 3 = true ∧ laneAgree b 5 = true ∧ lane b 0 = 0 ∧ lane b 1 = (7 : StepNo).toNat ∧ lane b 3 = fieldAt snap0.block 252 4 ∧
        lane b 5 = snap0.seq.toNat) ∧
      spool0.slots.getD 0 none = none ∧ lane (padTo 64 []) 1 ≠ (7 : StepNo).toNat ∧ [some (slot0 .draining), none].getD 0 none ≠ none) ∧
    ([some (slot0 .copying), none].getD 0 none = some (slot0 .copying) ∧ ({} : Mem).poison = [] ∧ snapCheck (slot0 .copying).block = false ∧
      storedBytes (snapKind (slot0 .copying).block) jobS.sealMap ≤ (coreS {}).slotBytes ∧
      (coreS {}).snapSources plan0 jobS { slot0 .copying with step := 8 } = [(0, 0, some (hbmKey 2 0))] ∧ snapKind (slot0 .copying).block = 1) ∧
    ((coreS { spool0 with slots := [none, some (slot0 .draining)] }).slotOf 1 1 = some (1, slot0 .draining) ∧ (slot0 .draining).done = (slot0 .draining).stripes.length ∧
      (slot0 .draining).complete = false ∧ ({ coreS {} with jobs := [{ jobS with logicalModule := 6 }] } : Core).isWriter 1 (slot0 .draining).block = false ∧
      (slot0 .flushed).phase = .flushed ∧ (slot0 .draining).phase ≠ .flushed ∧ (coreS {}).isWriter 1 (slot0 .draining).block = true) ∧
    ([man0].find? (fun r => r.plan == 1 && r.seq == 1) = some man0 ∧ man0.writing = none ∧ ({ man0 with writing := some [] } : ManifestRun).writing.isSome = true ∧
      (∃ x ∈ [rep0], x.writer = rep0.writer ∧ x.entry = rep0.entry) ∧ man0.reports = [] ∧ covered plan0.hdr.modCount jobS.sealMap.length [rep0] = true ∧
      covered plan0.hdr.modCount jobS.sealMap.length [{ rep0 with total := 2 }] = false) ∧
    ([io0 (.stripe 0) 0].find? (fun z => z.id == 0) = some (io0 (.stripe 0) 0) ∧ ({ slot0 .draining with stripes := [rep0] } : SnapSlot).stripes[0]? = some rep0 ∧
      0 + 256 < rep0.lba + rep0.count * (pieceBytes 1 rep0.cls / 4096) ∧ lookup? (3, 0) spool0.targets = some conn ∧ (io0 .connect 0).what = .connect ∧ (io0 .connect 2).retries < 3 ∧
      3 ≤ (io0 .connect 3).retries ∧ (io0 .manifestFlush 3).what = .manifestFlush) ∧
    (spool0.io = [] ∧ conn.connected = true ∧ ({ conn with connected := false } : Target).connected = false ∧ spool0.slots = [none, none] ∧
      (lookup? 3 ((asking (coreS {}) (acc 3 [])).core.ten 3).queues).isSome = true ∧ ({ conn with waiting := some (acc 3 []) } : Target).waiting = some (acc 3 [])) := by
  refine ⟨by decide +kernel, by decide +kernel, by decide +kernel, by decide +kernel, by decide +kernel, by decide +kernel, by decide +kernel⟩

/-- A writable window of partition 2's view for tenant 3, and one of a granule. -/
def coreW : Core := { coreP with tens := [(3, { ten0 with apertures := [(0, 0xC400000000000000), (1, 0x8400000000000000)] })] }

theorem test_hyps_AperturesReachTenantMemory :
    ((coreW.ten 4).enabled = false ∧ (coreW.ten 3).enabled = true ∧ coreW.rst.phase = 6) ∧
    (coreW.apKey 3 (2 ^ 30 + 4 * 2 ^ 26) = none ∧ coreW.apKey 3 5 = some (hbmKey 2 5, true) ∧ coreW.apKey 3 (2 ^ 30) = some (hbmKey 2 0, false)) ∧
    (coreW.sealGuard true [hbmKey 2 5] = false ∧ ({ coreW with jobs := [jobS] } : Core).sealGuard true [hbmKey 2 5] = true) := by
  decide +kernel

theorem test_hyps_ClearsZeroTheirCounters :
    coreA.rst.phase = 6 ∧ 2 < core1.parts.length ∧
    lookup? (({ (core1.part 2).streams with sel := 7 } : StreamPart).sel.toNat) (core1.part 2).streams.chans = some chan0 ∧ (coreA.ten 3).enabled = true ∧
    (coreA.ten 4).enabled = false := by
  decide +kernel

theorem test_hyps_RegisterAccessesReadAndLatch :
    (coreA.rst.phase = 6 ∧ (low { phase := 5 }).rst.phase ≠ 6) ∧ ({ fn := 0, off := 0x40, size := 8 } : RegAcc).place = some (0, 0, 0x40) ∧
    (∃ blk inst off, ({ fn := 0, off := 0x2000108, size := 8 } : RegAcc).place = some (blk, inst, off) ∧ blk ≠ 9 ∧ blk ≠ 8 ∧ blk ≠ 1 ∧ blk ≠ 0) ∧
    (∃ o, ({ fn := 0, off := o, size := 4 } : RegAcc).place = none ∧ o % 4 = 0) ∧ ¬ ((3 = 8 ∨ 3 = 4) ∧ 0 % 3 = 0) ∧
    (∃ t off, ({ fn := 4, off := 0, size := 8 } : RegAcc).place = some (9, t, off) ∧ (coreA.ten t).enabled = false) := by
  refine ⟨by decide +kernel, by decide +kernel, ⟨2, 0, 0x108, by decide +kernel⟩, ⟨0x3000000, by decide +kernel⟩, by decide, ⟨4, 0, by decide +kernel⟩⟩

theorem test_hyps_ErrorRecordsEnterAndReadBack :
    ({} : Log).numbered ∧ rec0.seq = ({} : Log).written ∧ (rec0.cls = 2 ∨ rec0.cls = 4) ∧ ({ rec0 with cls := 6 } : Rec).cls ≠ 2 ∧ ({ rec0 with cls := 6 } : Rec).cls ≠ 4 ∧
    coreA.rst.phase = 6 ∧ rec0 ∈ (({} : Log).push rec0).recs ∧ (∀ r ∈ (({} : Log).push rec0).recs, r.seq.toNat % 4096 ≠ 1) := by
  refine ⟨⟨fun i r h => by simp at h, by decide, by decide, fun r h => by simp at h⟩, by decide +kernel, by decide +kernel, by decide +kernel, by decide +kernel, by decide +kernel,
    by decide +kernel, by decide +kernel⟩

/-! ### A restore that succeeds -/

theorem slice_left {a r : List Byte} {i n : Nat} (h : i + n ≤ a.length) : slice (a ++ r) i n = slice a i n := by
  unfold slice
  rw [List.drop_append_of_le_length (by omega), List.take_append_of_le_length (by rw [List.length_drop]; omega)]

theorem slice_right {a r : List Byte} (i n : Nat) (h : a.length ≤ i) : slice (a ++ r) i n = slice r (i - a.length) n := by
  unfold slice
  rw [List.drop_append, List.drop_of_length_le h, List.nil_append]

theorem slice_here {a r : List Byte} {n : Nat} (h : a.length = n) : slice (a ++ r) 0 n = a := by
  unfold slice
  rw [List.drop_zero, List.take_append_of_le_length (by omega), List.take_of_length_le (by omega)]

/-- Both registers of a chaining value hold four words. -/
def full (s : ShaState) : Prop := s.up.length = 4 ∧ s.low.length = 4

theorem full_foldl {α : Type} {f : ShaState → α → ShaState} (hf : ∀ s a, full s → full (f s a)) : ∀ (l : List α) (s : ShaState), full s → full (l.foldl f s)
  | [], _, h => h
  | a :: l, s, h => full_foldl hf l (f s a) (hf s a h)

theorem full_round (s : ShaState) (kw : Nat) (h : full s) : full (shaRound s kw) := by
  simp [full, shaRound, h.1, h.2]

theorem full_block (s : ShaState) (b : List Byte) (h : full s) : full (shaBlock s b) := by
  have r := full_foldl full_round (List.zipWith (· + ·) shaK (shaExpand 48 ((chunks 4 b).map (fun q => natLE q.reverse)).reverse).reverse) s h
  simp only [full, shaBlock, List.length_zipWith, h.1, h.2, r.1, r.2]
  decide

theorem full_init : full shaInit := by unfold full; decide +kernel

theorem bytesLE_length (k n : Nat) : (bytesLE k n).length = k := by
  induction k generalizing n with
  | zero => rfl
  | succ k ih => simp [bytesLE, ih]

theorem words_length (l : List Nat) : (l.flatMap (fun x => (bytesLE 4 x).reverse)).length = 4 * l.length := by
  induction l with
  | nil => rfl
  | cons x l ih =>
    rw [List.flatMap_cons, List.length_append, ih, List.length_reverse, bytesLE_length, List.length_cons]
    omega

theorem sha256_length (m : List Byte) : (sha256 m).length = 32 := by
  have h := full_foldl full_block (chunks 64 (m ++ (0x80 :: List.replicate ((119 - m.length % 64) % 64) 0 ++ (bytesLE 8 (8 * m.length)).reverse))) _ full_init
  unfold sha256
  rw [words_length, List.length_append, h.1, h.2]

theorem hmac_length (k m : List Byte) : (hmac k m).length = 32 := sha256_length _

/-- A module alone, without a job, with target 0 connected and key 0 stored. -/
def coreR : Core := { coreP with spool := spool0 }

def key0 : List Byte := List.replicate 32 1

/-- A manifest's header and the first 48 bytes of its one shard: an image of one piece, of a kind, of a plan over `mc` modules. -/
def manHead (kind mc : Nat) : List Byte :=
  [(0, bytesLE 4 0x4E414D53), (4, bytesLE 2 1), (24, bytesLE 5 9), (45, [BitVec.ofNat 8 kind]), (46, bytesLE 2 mc), (52, bytesLE 4 1), (80, coreR.sliceBytes plan0),
    (256 + 10, [0xFE]), (256 + 14, bytesLE 4 1), (256 + 18, bytesLE 4 1)].foldl (fun b e => overwrite b e.1 e.2) (List.replicate 304 0)

/-- The digest of the one piece, then the length and the key's number. -/
def manMid (x : List Byte) : List Byte := sha256 x ++ (List.replicate 48 0 ++ (x ++ (bytesLE 4 480 ++ List.replicate 4 0)))

theorem overwrite_length {b n : List Byte} {i : Nat} (h : i + n.length ≤ b.length) : (overwrite b i n).length = b.length := by
  simp [overwrite]
  omega

theorem fold_length (l : List (Nat × List Byte)) (b : List Byte) (h : ∀ e ∈ l, e.1 + e.2.length ≤ b.length) :
    (l.foldl (fun b e => overwrite b e.1 e.2) b).length = b.length := by
  induction l generalizing b with
  | nil => rfl
  | cons e l ih =>
    have he := overwrite_length (h e (by simp))
    rw [List.foldl, ih _ (fun x hx => by rw [he]; exact h x (by simp [hx])), he]

theorem manHead_length (k c : Nat) : (manHead k c).length = 304 := by
  rw [manHead, fold_length, List.length_replicate]
  rw [List.length_replicate]
  simp [bytesLE_length, Core.sliceBytes]

/-- The manifest of head `A` of a piece of digest `x`, sealed under a key. -/
def man (A key x : List Byte) : List Byte :=
  A ++ (manMid x ++ (hmac key (A ++ manMid x) ++ List.replicate 24 0))

theorem manMid_length {x : List Byte} (hx : x.length = 32) : (manMid x).length = 120 := by
  rw [manMid, List.length_append, List.length_append, List.length_append, List.length_append, sha256_length, hx, bytesLE_length, List.length_replicate, List.length_replicate]

theorem man_length {A key x : List Byte} (hh : A.length = 304) (hx : x.length = 32) : (man A key x).length = 480 := by
  rw [man, List.length_append, List.length_append, List.length_append, hmac_length, manMid_length hx, hh, List.length_replicate]

theorem man_head {i n : Nat} {A key x : List Byte} (hh : A.length = 304) (h : i + n ≤ 304) : slice (man A key x) i n = slice A i n :=
  slice_left (by omega)

theorem man_mid {i n : Nat} {A key x : List Byte} (hh : A.length = 304) (hx : x.length = 32) (h0 : 304 ≤ i) (h : i + n ≤ 424) :
    slice (man A key x) i n = slice (manMid x) (i - 304) n := by
  rw [man, slice_right _ _ (by omega), hh, slice_left (by rw [manMid_length hx]; omega)]

theorem man_tail {i n : Nat} {A key x : List Byte} (hh : A.length = 304) (hx : x.length = 32) (h0 : 416 ≤ i) (h : i + n ≤ 424) :
    slice (man A key x) i n = slice (bytesLE 4 480 ++ List.replicate 4 0) (i - 416) n := by
  rw [man_mid hh hx (by omega) h, manMid, slice_right _ _ (by rw [sha256_length]; omega), slice_right _ _ (by simp [sha256_length]; omega),
    slice_right _ _ (by simp [sha256_length, hx]; omega)]
  rw [sha256_length, hx, List.length_replicate, show i - 304 - 32 - 48 - 32 = i - 416 by omega]

theorem man_valid {A key x : List Byte} (hh : A.length = 304) (hx : x.length = 32)
    (hm : fieldAt A 0 4 = 0x4E414D53 ∧ fieldAt A 4 2 = 1) : manifestValid (man A key x) key 0 = true := by
  have hn : fieldAt (man A key x) 416 4 = 480 := by rw [fieldAt, man_tail hh hx (by omega) (by omega)]; decide +kernel
  have hk : fieldAt (man A key x) 420 1 = 0 := by rw [fieldAt, man_tail hh hx (by omega) (by omega)]; decide +kernel
  have h1 : fieldAt (man A key x) 0 4 = 0x4E414D53 := by rw [fieldAt, man_head hh (by omega)]; exact hm.1
  have h2 : fieldAt (man A key x) 4 2 = 1 := by rw [fieldAt, man_head hh (by omega)]; exact hm.2
  have ht : (man A key x).take 424 = A ++ manMid x := by
    rw [man, ← List.append_assoc, List.take_append_of_le_length (by simp [hh, manMid_length hx]), List.take_of_length_le (by simp [hh, manMid_length hx])]
  have hs : slice (man A key x) 424 32 = hmac key (A ++ manMid x) := by
    rw [man, ← List.append_assoc, slice_right _ _ (by simp [hh, manMid_length hx])]
    simp only [List.length_append, hh, manMid_length hx]
    exact slice_here (sha256_length _)
  simp [manifestValid, man_length hh hx, hn, hk, h1, h2, ht, hs]

/-- The one shard of the manifest. -/
def shard0 (A key x : List Byte) : List Byte := slice (man A key x) 256 128

theorem shard0_eq {A key x : List Byte} (hh : A.length = 304) :
    shard0 A key x = slice A 256 48 ++ (sha256 x ++ List.replicate 48 0) := by
  have h : man A key x = A ++ ((sha256 x ++ List.replicate 48 0) ++ (x ++ (bytesLE 4 480 ++ List.replicate 4 0) ++ (hmac key (A ++ manMid x) ++ List.replicate 24 0))) := by
    simp [man, manMid]
  rw [shard0, h]
  unfold slice
  rw [List.drop_append_of_le_length (by omega), List.take_append]
  simp only [List.length_drop, hh, List.take_of_length_le (show (List.drop 256 A).length ≤ 128 by rw [List.length_drop]; omega),
    List.take_of_length_le (show (List.drop 256 A).length ≤ 48 by rw [List.length_drop]; omega)]
  rw [List.take_append_of_le_length (by simp [sha256_length]), List.take_of_length_le (by simp [sha256_length])]

theorem shard0_field {i n : Nat} {A key x : List Byte} (hh : A.length = 304) (h : i + n ≤ 48) :
    fieldAt (shard0 A key x) i n = fieldAt A (256 + i) n := by
  rw [fieldAt, shard0_eq hh, slice_left (by simp [slice, hh]; omega), fieldAt]
  congr 1
  unfold slice
  rw [List.drop_take, List.drop_drop, List.take_take]
  congr 1
  omega

theorem shard0_digest {A key x : List Byte} (hh : A.length = 304) : slice (shard0 A key x) 48 32 = sha256 x := by
  rw [shard0_eq hh, slice_right _ _ (by simp [slice, hh])]
  simp only [slice, List.length_take, List.length_drop, hh]
  exact slice_here (sha256_length _)

theorem piece0_digest {A key x : List Byte} (hh : A.length = 304) (hx : x.length = 32) (h1 : fieldAt A 52 4 = 1)
    (h2 : fieldAt A 56 4 = 0) (h3 : fieldAt A 284 4 = 0) : pieceDigest (man A key x) (shard0 A key x) 0 = x := by
  have e1 : fieldAt (man A key x) 52 4 = 1 := by rw [fieldAt, man_head hh (by omega)]; exact h1
  have e2 : fieldAt (man A key x) 56 4 = 0 := by rw [fieldAt, man_head hh (by omega)]; exact h2
  rw [pieceDigest, e1, e2, shard0_field hh (by omega), h3]
  rw [man_mid hh hx (by omega) (by omega), manMid, slice_right _ _ (by rw [sha256_length]; omega), slice_right _ _ (by simp [sha256_length])]
  simp only [sha256_length, List.length_replicate]
  exact slice_here hx

/-- The parameter buffer of a RESTORE with the given flags: the target and the key 0, and the seal map of one entry. -/
def rbufF (flags : Nat) : List Byte := overwrite rbuf 21 [BitVec.ofNat 8 flags]

def piece0 : List Byte := List.replicate (2 ^ 26) 0

/-- The piece's bytes are not evaluated: its digest enters the manifest as it is. -/
theorem test_hyps_CheckpointCommandsAnswer_restore :
    allAsk [(coreR, 3, cmd 0x507 0 3 [(8, [1, 0])], 0x507)] ∧
    (coreR.plan? 1 = some plan0 ∧ coreR.job? 1 = none ∧ (lookup? (3, 0) coreR.spool.targets).isSome = true ∧ (coreR.targetOf 3 0).connected = true ∧
      lookup? ((3, 0) : BitVec 8 × Nat) coreR.spool.keys = some key0 ∧ coreR.restoring 1 = false ∧ coreR.spool.restored = [] ∧ coreR.led.alone = true ∧
      coreR.sealMapOk plan0 ents0 = true ∧ ({ coreR with leases := {} } : Core).sealMapOk plan0 ents0 = false ∧ coreR.extKeys plan0 0 1 = [some (hbmKey 2 0)]) ∧
    (∀ f ∈ [0, 1, 2], fieldAt (rbufF f) 0 1 = 0 ∧ fieldAt (rbufF f) 20 1 = 0 ∧ bitOf (fieldAt (rbufF f) 21 1) 0 = decide (f = 1) ∧
      bitOf (fieldAt (rbufF f) 21 1) 1 = decide (f = 2) ∧ readSealMap (slice (rbufF f) 64 (64 + 32 * fieldAt (rbufF f) 64 2)) = some ents0) ∧
    (∀ x : List Byte, x.length = 32 → manifestValid (man (manHead 1 1) key0 x) key0 0 = true ∧ manifestValid (man (manHead 2 1) key0 x) key0 0 = true ∧ manifestValid (man (manHead 1 2) key0 x) key0 0 = true ∧
      fieldAt (man (manHead 2 1) key0 x) 45 1 = 2 ∧ fieldAt (man (manHead 1 1) key0 x) 45 1 = 1 ∧ fieldAt (man (manHead 1 1) key0 x) 46 2 = 1 ∧ fieldAt (man (manHead 1 2) key0 x) 46 2 ≠ 1 ∧
      slice (man (manHead 1 1) key0 x) 80 16 = coreR.sliceBytes plan0 ∧ entryShard (man (manHead 1 1) key0 x) (manifestHdr (man (manHead 1 1) key0 x) plan0.hdr)
        ((if coreR.fab.cfg.celoth1 then 32 else 64) - fieldAt (man (manHead 1 1) key0 x) 85 1) (coreR.lmOf plan0.hdr 3) 0 = some (shard0 (manHead 1 1) key0 x) ∧
      fieldAt (shard0 (manHead 1 1) key0 x) 12 1 = 0 ∧ fieldAt (shard0 (manHead 1 1) key0 x) 14 4 = 1 ∧ fieldAt (shard0 (manHead 1 1) key0 x) 18 4 = 1) ∧
    (piece0.length = pieceBytes 1 0 ∧ sha256 piece0 = pieceDigest (man (manHead 1 1) key0 (sha256 piece0)) (shard0 (manHead 1 1) key0 (sha256 piece0)) 0 ∧
      slice (shard0 (manHead 1 1) key0 (sha256 piece0)) 48 32 = sha256 ([piece0].flatMap sha256)) := by
  have hh : ∀ k c, (manHead k c).length = 304 := manHead_length
  have fld : ∀ k c i n (x : List Byte), i + n ≤ 304 → fieldAt (man (manHead k c) key0 x) i n = fieldAt (manHead k c) i n := fun k c i n x h => by
    rw [fieldAt, man_head (hh k c) h, fieldAt]
  refine ⟨allAsk_of (by decide +kernel), by decide +kernel, by decide +kernel, fun x hx => ⟨man_valid (hh _ _) hx (by decide +kernel), man_valid (hh _ _) hx (by decide +kernel),
    man_valid (hh _ _) hx (by decide +kernel), ?_, ?_, ?_, ?_, ?_, ?_, ?_, ?_, ?_⟩, List.length_replicate, ?_, ?_⟩
  · rw [fld _ _ _ _ _ (by omega)]; decide +kernel
  · rw [fld _ _ _ _ _ (by omega)]; decide +kernel
  · rw [fld _ _ _ _ _ (by omega)]; decide +kernel
  · rw [fld _ _ _ _ _ (by omega)]; decide +kernel
  · rw [man_head (hh _ _) (by omega)]; decide +kernel
  · have e : manifestShards (man (manHead 1 1) key0 x) = [shard0 (manHead 1 1) key0 x] := by
      rw [manifestShards, fld _ _ _ _ _ (by omega), show fieldAt (manHead 1 1) 52 4 = 1 by decide +kernel]
      rfl
    simp only [entryShard, e, List.find?, shardFor, shard0_field (hh 1 1) (show 11 + 1 ≤ 48 by omega), shard0_field (hh 1 1) (show 10 + 1 ≤ 48 by omega),
      shard0_field (hh 1 1) (show 8 + 2 ≤ 48 by omega), show fieldAt (manHead 1 1) (256 + 11) 1 = 0 by decide +kernel,
      show fieldAt (manHead 1 1) (256 + 10) 1 = 0xFE by decide +kernel, show fieldAt (manHead 1 1) (256 + 8) 2 = 0 by decide +kernel]
    rfl
  · rw [shard0_field (hh _ _) (by omega)]; decide +kernel
  · rw [shard0_field (hh _ _) (by omega)]; decide +kernel
  · rw [shard0_field (hh _ _) (by omega)]; decide +kernel
  · exact (piece0_digest (hh _ _) (sha256_length _) (by decide +kernel) (by decide +kernel) (by decide +kernel)).symm
  · rw [shard0_digest (hh _ _)]
    simp
/-! ### Values that the spec works out -/

/-- The block of 02's example before R32: the sum 2^-17 survives where the large terms cancel. -/
theorem test_value_mx_block_sum :
    blockSum .e4m3 .e4m3 ⟨[0x38, 0xC0, 0x01] ++ List.replicate 29 0, 0x7F⟩ ⟨[0x40, 0x38, 0x01] ++ List.replicate 29 0, 0x80⟩ = 0x37000000 := by decide +kernel

/-- 02 Table 02-5. -/
theorem test_value_mx_conversion :
    mxConvert .e4m3 false [] ([0x40400000, 0xBDCCCCCD, 0x3A83126F, 0x3F000000] ++ List.replicate 28 0) = ⟨[0x7C, 0xD5, 0x20, 0x68] ++ List.replicate 28 0, 0x78⟩ := by
  decide +kernel

/-- 02's example after R42: the scale 0x3926, 0.02 to 126 or 127 and −0.0001 to 0x00 or 0xFF. -/
theorem test_value_moment_scale :
    m8Convert false [0, 0] ([0x3CA3D70A, 0xB8D1B717] ++ List.replicate 30 0) = (0x3926, [126, 0] ++ List.replicate 30 0) ∧
    m8Convert false [0xFFFF, 0xFFFF] ([0x3CA3D70A, 0xB8D1B717] ++ List.replicate 30 0) = (0x3926, [127, 0xFF] ++ List.replicate 30 0) := by decide +kernel

/-- 02 Table 02-7 and the sum after it. -/
theorem test_value_anchored_sum :
    ([0x40400000, 0xBFA00000, 0x3DCCCCCD, 0xA9600000].map (anchorConvert .as64 0x80)) = [3 * 2 ^ 45, -(5 * 2 ^ 43), 13421773 * 2 ^ 18, -1] ∧
    anchorFinal .as64 false false 0x80 0x00003B333333FFFF = 0x3FECCCCD := by decide +kernel

/-- 05's example after R143: the words of a vector station's draw. -/
theorem test_value_draw_words : cbX1 0x1267 0x25 0x3402 = 0x0000001267253402 ∧ cbD 0xA3 3 0x2EE0 = 0x000A300030002EE0 := by decide +kernel

/-- The check value of CRC-32C on the digits 1 to 9, and SHA-256 of the empty string (00 R2). -/
theorem test_value_checksums :
    crc32c [0x31, 0x32, 0x33, 0x34, 0x35, 0x36, 0x37, 0x38, 0x39] = 0xE3069283 ∧
    sha256 [] = (bytesLE 32 0xe3b0c44298fc1c149afbf4c8996fb92427ae41e4649b934ca495991b7852b855).reverse := by decide +kernel

/-- 03 R84: a new grade A die, and the same die once MX4 has retired. -/
theorem test_value_array_status :
    readPart {} 2 0x200 = 0x001C000010000FFF ∧
    readPart { parts := parts0.set 2 { mx := { arrays := (List.replicate 13 ArrSt.active).set 4 .retired } } } 2 0x200 = 0x000C001000001FEF := by decide +kernel

/-- 07 R244 and R246: the default region sizes, and a stack before, during and after the retirement of channel 2. -/
theorem test_value_memory_registers :
    readVz {} 0x60 = 0x0BB0601803000000 ∧ readPart {} 2 0x508 = 0x01F8000000000000 ∧
    readPart { parts := parts0.set 2 { memp := { migState := 1, migSrc := 2 } }, clk := { count := 0x2000000 } } 2 0x508 = 0x45F8040000000000 ∧
    readPart { parts := parts0.set 2 { memp := { ballastLeft := false, chRetired := 4 } } } 2 0x508 = 4 := by decide +kernel

/-- 07's example after R219: entry 80 of the view maps to extent 371, and the line lies in logical channel 2. -/
theorem test_value_address_steps :
    field 0x5140000A40 36 3 = 5 ∧ field 0x5140000A40 0 36 / 2 ^ 26 = 80 ∧ hbmKey 2 (371 * 2 ^ 26 + 0xA40) = hbmKey 2 0 + 0x5CC000A40 ∧
    (371 * 2 ^ 26 + 0xA40) / 256 % 31 = 2 ∧
    ({ coreP with leases := { hbm := [((3, 2, 80), 2 * 1024 + 371)] } } : Core).hbmView 3 2 (field 0x5140000A40 0 36) = some (hbmKey 2 0x5CC000A40) := by decide +kernel

/-- 08 R291: port M1 at position 4, up with five lanes, 14 ns from its peer's port M1 at module 5. -/
theorem test_value_port_status : ({ st := .up, lanesOk := 31, oneway := 14, peerId := 5, peerPort := 1 } : Port).status = 0x5FE0005100380000 := by decide +kernel

/-- 15 R522: 98.25 °C on CD3, an inlet of 38 °C and an outlet of 53 °C. -/
theorem test_value_thermal_status :
    readPwr { coolIn := 38 * 8, coolOut := 53 * 8 } { health := { temps := [((3, 0), 786)] } } 0x100 = 0x0312013001A80300 := by decide +kernel

/-- 13 R472: a window onto tenant 3's view at 5 GiB on partition 2, with writes allowed. -/
theorem test_value_aperture :
    ({ coreP with tens := [(3, { ten0 with apertures := [(0, 0xC400000140000000)] })], leases := { parts := [(2, 3, true)], hbm := [((3, 2, 80), 2048)] } } : Core).apKey 3 0 =
      some (hbmKey 2 0, true) := by decide +kernel

/-- 10's example after R352: lanes 0 to 5 of logical module 163's clean vote, submitted at counter 0x12A05F2000. -/
theorem test_value_seal_lanes :
    laneNot 0x1267 = 0xFFFFFFFFFFFFED98 ∧ laneNot 0x5A1C93E00B724D16 = 0xA5E36C1FF48DB2E9 ∧ ((0x12A05F2000 : BitVec 64) + 1000000) = 0x12A06E6240 := by decide +kernel

/-! ### An ill-formed term for each check -/

def rdg (d : Nat) : Reading := { die := d, index := 0, value := 0 }

theorem test_wf_numbers :
    (Instr.peerDetected 15).wf = true ∧ (Instr.peerDetected 16).wf = false ∧ (Instr.clearCounts 7).wf = true ∧ (Instr.clearCounts 8).wf = false ∧
    (Instr.laneFailure 3 4).wf = true ∧ (Instr.laneFailure 3 5).wf = false ∧ (Instr.clearHw 1).wf = true ∧ (Instr.clearHw 2).wf = false ∧
    (Instr.csAbortsClear 3).wf = true ∧ (Instr.csAbortsClear 4).wf = false ∧ (Instr.slotStart 2 63 true true).wf = true ∧ (Instr.slotStart 2 64 true true).wf = false ∧
    (Instr.controlCoreFailure 7 4).wf = true ∧ (Instr.controlCoreFailure 7 5).wf = false ∧ (Instr.nvmeConnectionLost 3 7).wf = true ∧
    (Instr.nvmeConnectionLost 3 8).wf = false ∧ (Instr.jobQuery 3 1023 7).wf = true ∧ (Instr.jobQuery 3 1024 7).wf = false ∧ (Instr.commandFetch 3 1024 none).wf = false ∧
    (Instr.resetReady (some 8) []).wf = false := by
  decide +kernel

theorem test_wf_rings_kinds_positions :
    (Instr.descriptorWrite 1 2 4 255 15 0).wf = true ∧ (Instr.descriptorWrite 1 2 4 256 15 0).wf = false ∧ (Instr.descriptorWrite 1 2 4 255 16 0).wf = false ∧
    (Instr.policyLimit 2 0).wf = true ∧ (Instr.policyLimit 3 0).wf = false ∧ (Instr.throttleRatioTick 0 0 0 0 2 []).wf = true ∧ (Instr.throttleRatioTick 0 0 0 0 3 []).wf = false ∧
    (Instr.portStateExchange 63 []).wf = true ∧ (Instr.portStateExchange 64 []).wf = false ∧ (Instr.sentinelForwardReceived 5 []).wf = true ∧
    (Instr.sentinelForwardReceived 6 []).wf = false := by
  decide +kernel

theorem test_wf_dies :
    (Instr.agingSample 0x37 0 0).wf = true ∧ (Instr.agingSample 0x0C 0 0).wf = false ∧ (Instr.sensorMismatch (rdg 0x29)).wf = true ∧
    (Instr.sensorMismatch (rdg 0x2A)).wf = false ∧ (Instr.tripRestart [rdg 0x13]).wf = true ∧ (Instr.tripRestart [rdg 0x14]).wf = false := by
  decide +kernel

/-- A vector instruction on a vector station and on a matrix array, and a NOP on a station of kind 7. -/
theorem test_wf_stations :
    (Instr.vadd ⟨1, 0x3001, []⟩ (h0 0) v0).wf = true ∧ (Instr.vadd ⟨1, 0x1001, []⟩ (h0 0) v0).wf = false ∧ (Instr.nop ⟨1, 0x7001, []⟩ (h0 0)).wf = false := by
  decide +kernel

theorem test_reset_queue_empty : State.reset.pending = [] := rfl

end Sys2Proof.Tests
end

section
/-!
Register accesses of the host (00 R6, 13 R443, 14 R479): one rule for each way a read or a write can end, then O59, which is those rules at the registers
it names.
-/

namespace Sys2Proof.Machine

/-! ### Size, alignment and place -/

theorem RegAcc.good_of_size_eight {a : RegAcc} (hs : a.size = 8) (ho : a.off % 8 = 0) (pl : Option (Nat × Nat × Nat)) : a.good pl = true := by
  simp [RegAcc.good, hs, ho]

/-- Only the windows of blocks 1 and 8 refuse an aligned access of 4 bytes (12 R437, 14 R499). -/
theorem RegAcc.good_of_size_four {a : RegAcc} {blk : Nat} (hs : a.size = 4) (ho : a.off % 4 = 0) (h8 : blk ≠ 8) (h1 : blk ≠ 1) (inst off : Nat) :
    a.good (some (blk, inst, off)) = true := by
  unfold RegAcc.good
  split <;> simp_all

theorem RegAcc.good_between_blocks {a : RegAcc} (hs : a.size = 8 ∨ a.size = 4) (ho : a.off % a.size = 0) : a.good none = true := by
  rcases hs with hs | hs <;> simpa [RegAcc.good, hs] using ho

theorem RegAcc.aligned_of_good {a : RegAcc} {pl : Option (Nat × Nat × Nat)} (h : a.good pl = true) : (a.size = 8 ∨ a.size = 4) ∧ a.off % a.size = 0 := by
  simp only [RegAcc.good, Bool.and_eq_true, Bool.or_eq_true, beq_iff_eq] at h
  obtain ⟨hsize, hoff⟩ := h
  have hs : a.size = 8 ∨ a.size = 4 := hsize.imp_right And.left
  rw [show max a.size 1 = a.size by omega] at hoff
  exact ⟨hs, hoff⟩

/-- A place is off only as the page of a tenant that is not enabled (13 R443). -/
theorem Core.pageOff_eq_false {c : Core} {pl : Option (Nat × Nat × Nat)} (h : ∀ t off, pl = some (9, t, off) → (c.ten t).enabled = true) :
    c.pageOff pl = false := by
  unfold Core.pageOff
  split
  next t off => simp [h t off rfl]
  next => rfl

theorem Core.pageOff_with_out (c : Core) (o : List Out) (pl : Option (Nat × Nat × Nat)) : Core.pageOff { c with out := o } pl = c.pageOff pl := rfl

theorem RegAcc.writes_with_out (a : RegAcc) (c : Core) (o : List Out) : a.writes { c with out := o } = a.writes c := rfl

theorem Core.pageOff_of_disabled {c : Core} {t : Nat} (h : (c.ten t).enabled = false) (off : Nat) : c.pageOff (some (9, t, off)) = true := by
  simp [Core.pageOff, h]

/-- The error log's block in PF BAR0 (13 Table 13-3). -/
theorem pfPlace_errorLog {off : Nat} (lo : 0xE000000 ≤ off) (hi : off < 0xF000000) : pfPlace off = some (8, 0, off - 0xE000000) := by
  have before : ∀ n ≤ 0xE000000, ¬ off < n := fun n hn => by omega
  have inside : off - 0xE000000 < 16777216 := by omega
  simp [pfPlace, inRange, before, lo, hi, inside, Nat.mod_eq_of_lt inside]

/-! ### What a read gives -/

/-- No register shows the outputs of a command. -/
theorem regValue_with_out (p : Power) (mem : Mem) (c : Core) (o : List Out) (a : RegAcc) (pl : Option (Nat × Nat × Nat)) :
    regValue p mem { c with out := o } a pl = regValue p mem c a pl := rfl

section
variable (p : Power) (mem : Mem) (c : Core) {a : RegAcc} {blk inst off : Nat}

theorem regValue_size_eight (hs : a.size = 8) :
    regValue p mem c a (some (blk, inst, off)) = bytesLE 8 (regRead p mem c blk inst (off / 8 * 8)).toNat := by
  simp [regValue, hs]

/-- A 4-byte access reads the half that it names; the one half that is latched is bytes 4 to 7 of the counter. -/
theorem regValue_size_four (hs : a.size = 4) (h : blk = 0 → off ≠ 0x44) :
    regValue p mem c a (some (blk, inst, off)) =
      bytesLE 4 (if off % 8 = 0 then (regRead p mem c blk inst (off / 8 * 8)).toNat else (regRead p mem c blk inst (off / 8 * 8)).toNat / 2 ^ 32) := by
  by_cases low : off % 8 = 0
  · simp [regValue, hs, low]
  · have unlatched : ¬ (blk = 0 ∧ off = 0x44) := fun ⟨hb, ho⟩ => h hb ho
    simp [regValue, hs, low, unlatched, BitVec.toNat_ushiftRight, Nat.shiftRight_eq_div_pow]

theorem regValue_countHigh (hs : a.size = 4) :
    regValue p mem c a (some (0, 0, 0x44)) = bytesLE 4 (match c.clk.latch with | some v => v.toNat | none => c.clk.count.toNat / 2 ^ 32) := by
  cases latched : c.clk.latch with
  | some v => simp [regValue, hs, latched]
  | none => simp [regValue, hs, latched, regRead, readVz, BitVec.toNat_ushiftRight, Nat.shiftRight_eq_div_pow]

end

/-! ### Reads -/

section
variable {s : State} {a : RegAcc}

theorem exec_registerRead (a : RegAcc) (s : State) :
    exec (.registerAccess a none) s = .next (s.upd fun c => readAccess s.pwr s.mem a false { c with out := [] }) := rfl

/-- CELOTH_COUNT_LOW_READ is the 4-byte read of the counter's low half (06 R198). -/
theorem exec_celothCountLowRead (s : State) : exec .celothCountLowRead s = exec (.registerAccess { fn := 0, off := 0x40, size := 4 } none) s := rfl

/-- A read of good size answers the value and changes nothing, unless it is the read that latches. -/
theorem exec_registerRead_good (ready : s.core.rst.phase = 6) (page : s.core.pageOff a.place = false) (good : a.good a.place = true)
    (quiet : a.place = some (0, 0, 0x40) → a.size ≠ 4) :
    exec (.registerAccess a none) s = .next (s.upd fun c => { c with out := [.data (regValue s.pwr s.mem s.core a a.place)] }) := by
  have unlatching : (a.place == some (0, 0, 0x40) && decide (a.size = 4)) = false := by
    by_cases h : a.place = some (0, 0, 0x40)
    · simp [quiet h]
    · simp [h]
  simp only [exec_registerRead, State.upd, readAccess, readGives, ready, Core.pageOff_with_out, regValue_with_out, page, good, unlatching]
  rfl

theorem exec_registerRead_countLow (ready : s.core.rst.phase = 6) :
    exec (.registerAccess { fn := 0, off := 0x40, size := 4 } none) s =
      .next (s.upd fun c => { c.latchCount with out := [.data (bytesLE 4 s.core.clk.count.toNat)] }) := by
  simp only [exec_registerRead, State.upd, readAccess, readGives, ready]
  rfl

theorem exec_registerRead_bad (ready : s.core.rst.phase = 6) (page : s.core.pageOff a.place = false) (bad : a.good a.place = false) :
    exec (.registerAccess a none) s = .next (s.upd fun c =>
      (Core.logRec (accessRec a false a.place) { c with out := [] }).emit (.data (List.replicate a.size 0xFF))) := by
  simp only [exec_registerRead, State.upd, readAccess, readGives, ready, Core.pageOff_with_out, page, bad]
  rfl

theorem exec_registerRead_pageOff (ready : s.core.rst.phase = 6) (page : s.core.pageOff a.place = true) :
    exec (.registerAccess a none) s = .next (s.upd fun c => { c with out := [.data (List.replicate a.size 0)] }) := by
  simp only [exec_registerRead, State.upd, readAccess, readGives, ready, Core.pageOff_with_out, page]
  rfl

/-- Before Ready only the RST block and VZ_MODULE_IDENT read (14 R479). -/
theorem exec_registerRead_not_ready (early : s.core.rst.phase ≠ 6) (h : readsEarly a.place = false) :
    exec (.registerAccess a none) s = .next (s.upd fun c => { c with out := [.data (List.replicate a.size 0)] }) := by
  simp only [exec_registerRead, State.upd, readAccess, readGives, h, bne_iff_ne.2 early]
  rfl

end

/-! ### Writes -/

/-- A write whose bits cover the whole field stores that field of the value. -/
theorem rwField_whole {w : Nat} {mask : BitVec 64} (h : mask.setWidth w = BitVec.allOnes w) (v : BitVec 64) (old : BitVec w) :
    rwField mask v 0 old = v.setWidth w := by
  simp [rwField, h]

theorem powerWrite_of_block_ne {blk : Nat} (h : blk ≠ 2) (off : Nat) (mask v : BitVec 64) (p : Power) : powerWrite blk off mask v p = p := by
  unfold powerWrite
  split <;> simp_all

/-- The error log holds one writable register, ERR_LOG_READ (12 R437). -/
theorem regWrite_errorLog_of_ne {off : Nat} (h : off ≠ 8) (inst : Nat) (mask v : BitVec 64) (c : Core) : regWrite 8 inst off mask v c = c := by
  unfold regWrite
  split <;> simp_all

section
variable {s : State} {a : RegAcc} (v : BitVec 64)

theorem exec_registerWrite (a : RegAcc) (v : BitVec 64) (s : State) :
    exec (.registerWrite a v) s = .next { s with pwr := writePower a v s.core s.pwr, core := writeAccess a v false { s.core with out := [] } } := rfl

/-- A write of good size changes the register it names; no register outside block 2 lies in the housekeeping domain. -/
theorem exec_registerWrite_good (ready : s.core.rst.phase = 6) {blk inst off : Nat} (place : a.place = some (blk, inst, off))
    (page : s.core.pageOff a.place = false) (good : a.good a.place = true)
    (core_only : powerWrite blk (off / 8 * 8) a.mask (a.value v) s.pwr = s.pwr) :
    exec (.registerWrite a v) s = .next (s.upd fun c => regWrite blk inst (off / 8 * 8) a.mask (a.value v) { c with out := [] }) := by
  have writes : a.writes s.core = true := by simp [RegAcc.writes, ready, page, good]
  rw [exec_registerWrite]
  simp [writePower, writeAccess, RegAcc.writes_with_out, writes, place, core_only, State.upd]

/-- A write that falls between the blocks reaches no register. -/
theorem exec_registerWrite_between_blocks (ready : s.core.rst.phase = 6) (place : a.place = none) (good : a.good none = true) :
    exec (.registerWrite a v) s = .next (s.upd fun c => { c with out := [] }) := by
  simp [exec_registerWrite, writePower, writeAccess, place, RegAcc.writes, Core.pageOff, ready, good, State.upd]

theorem exec_registerWrite_bad (ready : s.core.rst.phase = 6) (page : s.core.pageOff a.place = false) (bad : a.good a.place = false) :
    exec (.registerWrite a v) s = .next (s.upd fun c => Core.logRec (accessRec a false a.place) { c with out := [] }) := by
  simp [exec_registerWrite, writePower, writeAccess, RegAcc.writes, ready, Core.pageOff_with_out, page, bad, State.upd]

/-- A write is discarded before Ready (14 R479) and on the page of a disabled tenant (13 R443). -/
theorem exec_registerWrite_discarded (h : s.core.rst.phase ≠ 6 ∨ s.core.pageOff a.place = true) :
    exec (.registerWrite a v) s = .next (s.upd fun c => { c with out := [] }) := by
  rcases h with early | off
  · simp [exec_registerWrite, writePower, writeAccess, RegAcc.writes, early, State.upd]
  · simp [exec_registerWrite, writePower, writeAccess, RegAcc.writes, Core.pageOff_with_out, off, State.upd]

end

/-! ### The record of a bad access -/

theorem accessRec_code (a : RegAcc) (vol : Bool) (pl : Option (Nat × Nat × Nat)) : (accessRec a vol pl).code = 0x708 := rfl

theorem accessRec_tenant (a : RegAcc) (vol : Bool) (pl : Option (Nat × Nat × Nat)) : (accessRec a vol pl).tenant = some a.fn := rfl

/-- A record leaves all of the core but the log, the tenants and the outputs. -/
theorem Core.logRec_rest (r : Rec) (c : Core) (l : Log) (ts : List (Nat × Ten)) (o : List Out) :
    { c.logRec r with log := l, tens := ts, out := o } = { c with log := l, tens := ts, out := o } := by
  obtain ⟨ts', o', e⟩ := Core.logRec_frame r c
  rw [e]

theorem Core.logRec_head (r : Rec) (c : Core) : (c.logRec r).log.recs.head? = some (c.stamped r) := by
  rw [Core.logRec_log, Log.push_head]

/-! ### O59 -/

section
variable {s : State} (ready : s.core.rst.phase = 6)
include ready

/-- Bytes 4 to 7 of the counter read from the latch, and the latch stays (06 R198). -/
theorem read_countHigh_answers_latch :
    exec (.registerAccess { fn := 0, off := 0x44, size := 4 } none) s = .next (s.upd fun c => { c with out :=
      [.data (bytesLE 4 (match s.core.clk.latch with | some v => v.toNat | none => s.core.clk.count.toNat / 2 ^ 32))] }) := by
  have place : RegAcc.place { fn := 0, off := 0x44, size := 4 } = some (0, 0, 0x44) := by decide
  rw [exec_registerRead_good ready (by rw [place]; rfl) (by decide) (by decide), place, regValue_countHigh _ _ _ rfl]

theorem read_count_answers_counter :
    exec (.registerAccess { fn := 0, off := 0x40, size := 8 } none) s =
      .next (s.upd fun c => { c with out := [.data (bytesLE 8 s.core.clk.count.toNat)] }) := by
  have place : RegAcc.place { fn := 0, off := 0x40, size := 8 } = some (0, 0, 0x40) := by decide
  rw [exec_registerRead_good ready (by rw [place]; rfl) (by decide) (fun _ => by decide), place, regValue_size_eight _ _ _ rfl]
  rfl

/-- An aligned read of a register answers its value, or the half that it names, and changes nothing. -/
theorem aligned_read_answers_register {a : RegAcc} {blk inst off : Nat} (place : a.place = some (blk, inst, off))
    (page : blk = 9 → (s.core.ten inst).enabled = true) (notCount : blk = 0 → off / 8 ≠ 8) :
    let w := regRead s.pwr s.mem s.core blk inst (off / 8 * 8)
    (a.size = 8 → a.off % 8 = 0 → exec (.registerAccess a none) s = .next (s.upd fun c => { c with out := [.data (bytesLE 8 w.toNat)] })) ∧
    (a.size = 4 → a.off % 4 = 0 → blk ≠ 8 → blk ≠ 1 → exec (.registerAccess a none) s =
      .next (s.upd fun c => { c with out := [.data (bytesLE 4 (if off % 8 = 0 then w.toNat else w.toNat / 2 ^ 32))] })) := by
  have on : s.core.pageOff a.place = false := Core.pageOff_eq_false (by rw [place]; rintro t off' ⟨⟩; exact page rfl)
  have quiet : a.place ≠ some (0, 0, 0x40) := by rw [place]; rintro ⟨⟩; exact notCount rfl rfl
  refine ⟨fun hs ho => ?_, fun hs ho h8 h1 => ?_⟩
  · rw [exec_registerRead_good ready on (RegAcc.good_of_size_eight hs ho _) (absurd · quiet), place, regValue_size_eight _ _ _ hs]
  · have good : a.good a.place = true := place ▸ RegAcc.good_of_size_four hs ho h8 h1 inst off
    rw [exec_registerRead_good ready on good (absurd · quiet), place, regValue_size_four _ _ _ hs (by rintro hb rfl; exact notCount hb rfl)]

/-- A place between the blocks reads 0 and takes no write. -/
theorem access_between_blocks {a : RegAcc} (place : a.place = none) (hs : a.size = 8 ∨ a.size = 4) (ho : a.off % a.size = 0) (v : BitVec 64) :
    exec (.registerAccess a none) s = .next (s.upd fun c => { c with out := [.data (List.replicate a.size 0)] }) ∧
      exec (.registerWrite a v) s = .next (s.upd fun c => { c with out := [] }) := by
  have good : a.good none = true := RegAcc.good_between_blocks hs ho
  refine ⟨?_, exec_registerWrite_between_blocks v ready place good⟩
  rw [exec_registerRead_good ready (by rw [place]; rfl) (by rwa [place]) (by simp [place]), place]
  rfl

/-- An access of another size or alignment reads all-ones, writes nothing, and leaves the record 0x0708 (00 R6, 12 R531). -/
theorem bad_access_records {a : RegAcc} (bad : ¬ ((a.size = 8 ∨ a.size = 4) ∧ a.off % a.size = 0))
    (page : ∀ t off, a.place = some (9, t, off) → (s.core.ten t).enabled = true) (v : BitVec 64) : ∃ t u r r',
      exec (.registerAccess a none) s = .next t ∧ exec (.registerWrite a v) s = .next u ∧ t.mem = s.mem ∧ t.pwr = s.pwr ∧ u.mem = s.mem ∧ u.pwr = s.pwr ∧
      .data (List.replicate a.size 0xFF) ∈ t.core.out ∧ t.core.log.recs.head? = some r ∧ r.code = 0x708 ∧ r.tenant = some a.fn ∧
      u.core.log.recs.head? = some r' ∧ r'.code = 0x708 ∧ r'.tenant = some a.fn ∧ { t.core with log := s.core.log, tens := s.core.tens, out := [] } = { s.core with out := [] } ∧
      { u.core with log := s.core.log, tens := s.core.tens, out := [] } = { s.core with out := [] } := by
  have on : s.core.pageOff a.place = false := Core.pageOff_eq_false page
  have refused : a.good a.place = false := Bool.eq_false_iff.2 fun good => bad (RegAcc.aligned_of_good good)
  have code := accessRec_code a false a.place
  have tenant := accessRec_tenant a false a.place
  refine ⟨_, _, _, _, exec_registerRead_bad ready on refused, exec_registerWrite_bad v ready on refused, rfl, rfl, rfl, rfl, ?_,
    Core.logRec_head _ _, code, tenant, Core.logRec_head _ _, code, tenant, ?_, ?_⟩
  · simp [State.upd]
  · exact Core.logRec_rest _ _ _ _ _
  · exact Core.logRec_rest _ _ _ _ _

/-- A write of VZ_MODULE_IDENT or of the record window, which are RO, changes nothing (01 R21, 12 R437). -/
theorem readOnly_write_changes_nothing (v : BitVec 64) :
    exec (.registerWrite { fn := 0, off := 0x10, size := 8 } v) s = .next (s.upd fun c => { c with out := [] }) ∧
    ∀ o < 0x8000, exec (.registerWrite { fn := 0, off := 0xE010000 + 8 * o, size := 8 } v) s = .next (s.upd fun c => { c with out := [] }) := by
  refine ⟨exec_registerWrite_good v ready (blk := 0) (inst := 0) (off := 0x10) rfl rfl rfl rfl, fun o ho => ?_⟩
  have place : RegAcc.place { fn := 0, off := 0xE010000 + 8 * o, size := 8 } = some (8, 0, 0xE010000 + 8 * o - 0xE000000) :=
    pfPlace_errorLog (off := 0xE010000 + 8 * o) (by omega) (by omega)
  rw [exec_registerWrite_good v ready place (by rw [place]; rfl) (RegAcc.good_of_size_eight rfl (by simp only; omega) _)
    (powerWrite_of_block_ne (by decide) _ _ _ _)]
  simp only [regWrite_errorLog_of_ne (show (0xE010000 + 8 * o - 0xE000000) / 8 * 8 ≠ 8 by omega)]

/-- A write stores the RW field of ERR_LOG_READ, VZ_EVENT_EN or THM_MON_SEL; the 4-byte write of ERR_LOG_READ stores the half it names. -/
theorem register_write_stores_field (v : BitVec 64) :
    exec (.registerWrite { fn := 0, off := 0xE000008, size := 4 } v) s =
      .next (s.upd fun c => { c with log := { c.log with read := v.setWidth 32 }, out := [] }) ∧
    exec (.registerWrite { fn := 0, off := 0x88, size := 8 } v) s =
      .next (s.upd fun c => { c with health := { c.health with eventEn := v.setWidth 5 }, out := [] }) ∧
    exec (.registerWrite { fn := 0, off := 0x2000400, size := 8 } v) s =
      .next (s.upd fun c => { c with health := { c.health with monSel := v.setWidth 16 }, out := [] }) := by
  refine ⟨?_, ?_, ?_⟩
  · rw [exec_registerWrite_good v ready (blk := 8) (inst := 0) (off := 8) rfl rfl rfl rfl]
    simp only [← rwField_whole (mask := 0xFFFFFFFF) rfl v s.core.log.read, State.upd]
    rfl
  · rw [exec_registerWrite_good v ready (blk := 0) (inst := 0) (off := 0x88) rfl rfl rfl rfl]
    simp only [← rwField_whole (mask := -1) rfl v s.core.health.eventEn, State.upd]
    rfl
  · rw [exec_registerWrite_good v ready (blk := 2) (inst := 0) (off := 0x400) rfl rfl rfl rfl]
    simp only [← rwField_whole (mask := -1) rfl v s.core.health.monSel, State.upd]
    rfl

end

/-- The page of a disabled tenant reads 0 and takes no write (13 R443). -/
theorem access_disabled_page {s : State} (ready : s.core.rst.phase = 6) {a : RegAcc} {t off : Nat} (place : a.place = some (9, t, off))
    (disabled : (s.core.ten t).enabled = false) (v : BitVec 64) :
    exec (.registerAccess a none) s = .next (s.upd fun c => { c with out := [.data (List.replicate a.size 0)] }) ∧
      exec (.registerWrite a v) s = .next (s.upd fun c => { c with out := [] }) := by
  have page : s.core.pageOff a.place = true := place ▸ Core.pageOff_of_disabled disabled off
  exact ⟨exec_registerRead_pageOff ready page, exec_registerWrite_discarded v (.inr page)⟩

/-- Settles O59: at Ready a lemma above answers each clause; before Ready a write is discarded and the counter reads 0. -/
theorem registerAccessesReadAndLatch : Obligations.RegisterAccessesReadAndLatch := by
  unfold Obligations.RegisterAccessesReadAndLatch
  intro s goes data n at_
  refine ⟨fun ready => ?_, fun early a v => ?_⟩
  · have low := exec_registerRead_countLow ready
    refine ⟨(exec_celothCountLowRead s).trans low, low, read_countHigh_answers_latch ready, read_count_answers_counter ready,
      fun _ _ _ _ place page notCount => aligned_read_answers_register ready place page notCount,
      fun _ place hs ho v => access_between_blocks ready place hs ho v,
      fun _ bad page v => bad_access_records ready bad page v,
      fun _ _ _ v place disabled => access_disabled_page ready place disabled v, fun v => ?_⟩
    obtain ⟨ident, window⟩ := readOnly_write_changes_nothing ready v
    exact ⟨ident, window, register_write_stores_field ready v⟩
  · exact ⟨exec_registerWrite_discarded v (.inl early), (exec_celothCountLowRead s).trans (exec_registerRead_not_ready early rfl)⟩

end Sys2Proof.Machine
end

section
/-!
Exact arithmetic on finite values (02 R25, R33): every finite value is an integer number of steps of any grid no coarser than its own, and on a common grid the
model's sum, product and comparison are those of integers. O16 is these facts.
-/

namespace Sys2Proof.Machine

/-! ### Signed magnitudes and grids -/

theorem signedMag_natAbs (x : Int) : signedMag (decide (x < 0)) x.natAbs = x := by
  by_cases negative : x < 0
  · simp [signedMag, negative, abs_of_neg negative]
  · simp [signedMag, negative, abs_of_nonneg (not_lt.mp negative)]

theorem FVal.rat_fin (s : Bool) (m : Nat) (e : Int) : (FVal.fin s m e).rat = (signedMag s m : ℚ) * 2 ^ e := by
  cases s <;> simp [FVal.rat, signedMag]

theorem signedMag_shiftLeft (s : Bool) (m k : Nat) : signedMag s (m <<< k) = signedMag s m * 2 ^ k := by
  cases s <;> simp [signedMag, Nat.shiftLeft_eq]

theorem signedMag_mul (s t : Bool) (m n : Nat) : signedMag (s != t) (m * n) = signedMag s m * signedMag t n := by
  cases s <;> cases t <;> simp [signedMag]

theorem two_zpow_of_le {lo e : Int} (h : lo ≤ e) : (2 : ℚ) ^ e = 2 ^ (e - lo).toNat * 2 ^ lo := by
  rw [← zpow_natCast, ← zpow_add₀ two_ne_zero, Int.toNat_of_nonneg (sub_nonneg.mpr h), sub_add_cancel]

/-- A value on a grid of step `2^lo` no coarser than its own. -/
theorem FVal.rat_fin_of_le {lo e : Int} (h : lo ≤ e) (s : Bool) (m : Nat) :
    (FVal.fin s m e).rat = (signedMag s (m <<< (e - lo).toNat) : ℚ) * 2 ^ lo := by
  rw [FVal.rat_fin, signedMag_shiftLeft, two_zpow_of_le h]
  push_cast
  ring

/-! ### Sum, product and order -/

section
variable (s t : Bool) (m n : Nat) (e f : Int)

theorem FVal.rat_add : ((FVal.fin s m e).add (.fin t n f)).rat = (FVal.fin s m e).rat + (FVal.fin t n f).rat := by
  by_cases zeros : m = 0 ∧ n = 0
  · obtain ⟨rfl, rfl⟩ := zeros
    simp [FVal.add, FVal.rat]
  · rw [FVal.rat_fin_of_le (min_le_left e f), FVal.rat_fin_of_le (min_le_right e f), ← add_mul]
    simp [FVal.add, zeros, FVal.rat_fin, signedMag_natAbs]

theorem FVal.rat_mul : ((FVal.fin s m e).mul (.fin t n f)).rat = (FVal.fin s m e).rat * (FVal.fin t n f).rat := by
  simp only [FVal.mul, FVal.rat_fin, signedMag_mul, zpow_add₀ (two_ne_zero' ℚ), Int.cast_mul]
  ring

theorem FVal.lt_iff_rat : (FVal.fin s m e).lt (.fin t n f) = true ↔ (FVal.fin s m e).rat < (FVal.fin t n f).rat := by
  have step : (0 : ℚ) < 2 ^ min e f := by positivity
  rw [FVal.rat_fin_of_le (min_le_left e f), FVal.rat_fin_of_le (min_le_right e f), mul_lt_mul_iff_left₀ step, Int.cast_lt]
  simp [FVal.lt]

/-- Terms of opposite signs that cancel give +0 (02 R33). -/
theorem FVal.sign_add_of_cancel (cancel : (FVal.fin s m e).rat + (FVal.fin t n f).rat = 0) (opposite : s ≠ t) :
    ((FVal.fin s m e).add (.fin t n f)).sign = false := by
  by_cases zeros : m = 0 ∧ n = 0
  · have plus : (s && t) = false := by cases s <;> simp_all
    simp [FVal.add, FVal.sign, zeros, plus]
  · have step : (2 : ℚ) ^ min e f ≠ 0 := by positivity
    rw [FVal.rat_fin_of_le (min_le_left e f), FVal.rat_fin_of_le (min_le_right e f), ← add_mul, mul_eq_zero_iff_right step] at cancel
    have steps : signedMag s (m <<< (e - min e f).toNat) + signedMag t (n <<< (f - min e f).toNat) = 0 := by exact_mod_cast cancel
    simp [FVal.add, zeros, FVal.sign, steps]

end

/-- Settles O16: on the finer of the two grids sum and order are those of integers, and exponents add in a product. -/
theorem exactSumsProductsAndOrder : Obligations.ExactSumsProductsAndOrder := by
  unfold Obligations.ExactSumsProductsAndOrder
  exact fun s t m n e f =>
    ⟨FVal.rat_add s t m n e f, FVal.rat_mul s t m n e f, FVal.lt_iff_rat s t m n e f, FVal.sign_add_of_cancel s t m n e f⟩

end Sys2Proof.Machine
end

section
/-!
Rounding to nearest even (02 R36, R37). The magnitude codes of a format, read as if none were special, stand for strictly increasing magnitudes; `roundSteps`
chooses between the two of them that enclose the exact magnitude, so no code at all lies nearer. O15 is this at FP32: of the finite codes, and, for the overflow,
of the largest finite one.
-/

namespace Sys2Proof.Machine

/-! ### The choice between two neighbours -/

/-- The nearer of two neighbours that enclose `x` is nearest to it in the whole increasing sequence; another term as near means the two are equally near. -/
theorem nearest_of_nearer_neighbour {f : ℕ → ℚ} (mono : StrictMono f) {x : ℚ} {t r : ℕ} (lo : f t ≤ x) (hi : x ≤ f (t + 1))
    (nearer : (r = t ∧ x - f t ≤ f (t + 1) - x) ∨ (r = t + 1 ∧ f (t + 1) - x ≤ x - f t)) (c : ℕ) :
    |x - f r| ≤ |x - f c| ∧ (|x - f r| = |x - f c| → f c ≠ f r → x - f t = f (t + 1) - x) := by
  have outside : (f c ≤ f t ∧ |x - f c| = x - f c) ∨ (f (t + 1) ≤ f c ∧ |x - f c| = f c - x) := by
    rcases Nat.lt_or_ge t c with above | below
    · have beyond : f (t + 1) ≤ f c := mono.monotone above
      exact .inr ⟨beyond, by rw [abs_sub_comm, abs_of_nonneg (by linarith)]⟩
    · have beyond : f c ≤ f t := mono.monotone below
      exact .inl ⟨beyond, abs_of_nonneg (by linarith)⟩
  rcases nearer with ⟨rfl, le⟩ | ⟨rfl, le⟩
  · rw [abs_of_nonneg (sub_nonneg.mpr lo)]
    rcases outside with ⟨beyond, dist⟩ | ⟨beyond, dist⟩ <;> rw [dist] <;> refine ⟨by linarith, fun tie other => ?_⟩
    · exact absurd (by linarith) other
    · linarith
  · rw [abs_sub_comm x (f (t + 1)), abs_of_nonneg (sub_nonneg.mpr hi)]
    rcases outside with ⟨beyond, dist⟩ | ⟨beyond, dist⟩ <;> rw [dist] <;> refine ⟨by linarith, fun tie other => ?_⟩
    · linarith
    · exact absurd (by linarith) other

/-- `gridSplit` counts the whole steps of a magnitude and what is left of one (02 R36). -/
theorem gridSplit_spec {m : Nat} {e ue : Int} {q remn sh : Nat} (parts : gridSplit m e ue = (q, remn, sh)) :
    remn < 2 ^ sh ∧ (m : ℚ) * 2 ^ e = (q + remn / 2 ^ sh) * 2 ^ ue := by
  unfold gridSplit at parts
  split at parts
  next fine =>
    obtain ⟨rfl, rfl, rfl⟩ := by simpa using parts
    simp [Nat.shiftLeft_eq, two_zpow_of_le fine, mul_assoc]
  next coarse =>
    obtain ⟨rfl, rfl, rfl⟩ := by simpa using parts
    have division : ((2 ^ (ue - e).toNat * (m / 2 ^ (ue - e).toNat) + m % 2 ^ (ue - e).toNat : ℕ) : ℚ) = m := by rw [Nat.div_add_mod]
    refine ⟨Nat.mod_lt _ (by positivity), ?_⟩
    rw [two_zpow_of_le (not_le.mp coarse).le, Nat.shiftRight_eq_div_pow, ← division]
    push_cast
    field_simp

/-- The steps counted by `roundSteps`: with `rest` of a step left over, `q` or `q + 1`, whichever is nearer, and the even one at half a step (02 R36). -/
theorem roundSteps_spec (r m : Nat) (e ue : Int) :
    ∃ (q : ℕ) (rest : ℚ), 0 ≤ rest ∧ rest < 1 ∧ (m : ℚ) * 2 ^ e = (q + rest) * 2 ^ ue ∧
      (roundSteps false r m e ue = q ∧ rest ≤ 1 - rest ∨ roundSteps false r m e ue = q + 1 ∧ 1 - rest ≤ rest) ∧
      (rest = 1 - rest → roundSteps false r m e ue % 2 = 0) := by
  obtain ⟨⟨q, remn, sh⟩, parts⟩ : ∃ g, gridSplit m e ue = g := ⟨_, rfl⟩
  obtain ⟨short, total⟩ := gridSplit_spec parts
  have whole : (0 : ℚ) < 2 ^ sh := by positivity
  have steps : roundSteps false r m e ue = if 2 * remn > 2 ^ sh ∨ 2 * remn = 2 ^ sh ∧ q % 2 = 1 then q + 1 else q := by
    simp [roundSteps, parts]
  have atMostHalf : (remn : ℚ) / 2 ^ sh ≤ 1 - remn / 2 ^ sh ↔ 2 * remn ≤ 2 ^ sh := by
    rw [le_sub_iff_add_le, ← add_div, div_le_one whole, ← two_mul]
    exact_mod_cast Iff.rfl
  have atLeastHalf : 1 - (remn : ℚ) / 2 ^ sh ≤ remn / 2 ^ sh ↔ 2 ^ sh ≤ 2 * remn := by
    rw [sub_le_iff_le_add, ← add_div, one_le_div whole, ← two_mul]
    exact_mod_cast Iff.rfl
  refine ⟨q, remn / 2 ^ sh, by positivity, by rw [div_lt_one whole]; exact_mod_cast short, total, ?_, ?_⟩
  · rw [atMostHalf, atLeastHalf, steps]
    split <;> omega
  · rw [le_antisymm_iff, atMostHalf, atLeastHalf, steps]
    split <;> omega

/-! ### The magnitudes of a format's codes -/

section
variable (p : FloatP)

/-- What the magnitude code `c` stands for (02 R25), the top exponent field read as any other. -/
def FloatP.mag (c : ℕ) : ℚ :=
  if c < 2 ^ p.mbits then c * 2 ^ (p.emin - p.mbits)
  else (c % 2 ^ p.mbits + 2 ^ p.mbits : ℕ) * 2 ^ (((c / 2 ^ p.mbits : ℕ) : Int) - p.bias - p.mbits)

theorem FloatP.mag_normal {ef mf : ℕ} (pos : 0 < ef) (low : mf < 2 ^ p.mbits) :
    p.mag (ef * 2 ^ p.mbits + mf) = (mf + 2 ^ p.mbits : ℕ) * 2 ^ ((ef : Int) - p.bias - p.mbits) := by
  have unit := Nat.two_pow_pos p.mbits
  have high : ¬ ef * 2 ^ p.mbits + mf < 2 ^ p.mbits := not_lt.mpr ((Nat.le_mul_of_pos_left _ pos).trans (Nat.le_add_right _ _))
  have exponent : (ef * 2 ^ p.mbits + mf) / 2 ^ p.mbits = ef := by
    rw [mul_comm, Nat.mul_add_div unit, Nat.div_eq_of_lt low, add_zero]
  have mantissa : (ef * 2 ^ p.mbits + mf) % 2 ^ p.mbits = mf := by rw [Nat.mul_add_mod', Nat.mod_eq_of_lt low]
  rw [FloatP.mag, if_neg high, exponent, mantissa]

theorem FloatP.mag_nonneg (c : ℕ) : 0 ≤ p.mag c := by
  unfold FloatP.mag
  split <;> positivity

theorem FloatP.mag_zero : p.mag 0 = 0 := by simp [FloatP.mag]

/-- `q` steps of binade `k`, where the lowest binade holds the subnormals too and the end of a binade is the start of the next one. -/
theorem FloatP.mag_steps {k q : ℕ} (lo : k = 0 ∨ 2 ^ p.mbits ≤ q) (hi : q ≤ 2 ^ p.mbits + 2 ^ p.mbits) :
    p.mag (k * 2 ^ p.mbits + q) = q * 2 ^ (p.emin - p.mbits + k) := by
  have unit := Nat.two_pow_pos p.mbits
  rcases Nat.lt_or_ge q (2 ^ p.mbits) with subnormal | normal
  · obtain rfl : k = 0 := lo.resolve_right (by omega)
    simp [FloatP.mag, subnormal]
  obtain ⟨mf, rfl⟩ := Nat.exists_eq_add_of_le' normal
  rcases Nat.lt_or_ge mf (2 ^ p.mbits) with inside | atEnd
  · have code : k * 2 ^ p.mbits + (mf + 2 ^ p.mbits) = (k + 1) * 2 ^ p.mbits + mf := by ring
    have exponent : ((k + 1 : ℕ) : Int) - p.bias - p.mbits = p.emin - p.mbits + k := by unfold FloatP.emin; omega
    rw [code, p.mag_normal k.succ_pos inside, exponent]
  · obtain rfl : mf = 2 ^ p.mbits := by omega
    have code : k * 2 ^ p.mbits + (2 ^ p.mbits + 2 ^ p.mbits) = (k + 2) * 2 ^ p.mbits + 0 := by ring
    have exponent : ((k + 2 : ℕ) : Int) - p.bias - p.mbits = 1 + (p.emin - p.mbits + k) := by unfold FloatP.emin; omega
    rw [code, p.mag_normal (by omega) unit, exponent, zpow_one_add₀ two_ne_zero]
    push_cast
    ring

/-- Every code lies in a binade, below its end. -/
theorem FloatP.exists_binade (c : ℕ) : ∃ k q, c = k * 2 ^ p.mbits + q ∧ (k = 0 ∨ 2 ^ p.mbits ≤ q) ∧ q < 2 ^ p.mbits + 2 ^ p.mbits := by
  have unit := Nat.two_pow_pos p.mbits
  rcases Nat.lt_or_ge c (2 ^ p.mbits) with subnormal | normal
  · exact ⟨0, c, by omega, .inl rfl, by omega⟩
  · obtain ⟨d, rfl⟩ := Nat.exists_eq_add_of_le' normal
    have division := Nat.div_add_mod' d (2 ^ p.mbits)
    have mantissa := Nat.mod_lt d unit
    exact ⟨d / 2 ^ p.mbits, d % 2 ^ p.mbits + 2 ^ p.mbits, by omega, .inr (by omega), by omega⟩

theorem FloatP.mag_strictMono : StrictMono p.mag := by
  refine strictMono_nat_of_lt_succ fun c => ?_
  obtain ⟨k, q, rfl, lo, hi⟩ := p.exists_binade c
  rw [add_assoc, p.mag_steps lo hi.le, p.mag_steps (lo.imp_right fun h => h.trans q.le_succ) hi]
  gcongr
  exact q.lt_succ_self

/-! ### Rounding a magnitude -/

/-- The step at a positive magnitude: at most `2^(mbits + 1)` of them make it up, and at least `2^mbits` above the lowest binade (02 R36). -/
theorem FloatP.stepExp_spec {m : Nat} (pos : m ≠ 0) (e : Int) :
    ∃ k : ℕ, p.stepExp m e = p.emin - p.mbits + k ∧ (m : ℚ) * 2 ^ e < (2 ^ p.mbits + 2 ^ p.mbits : ℕ) * 2 ^ p.stepExp m e ∧
      (k = 0 ∨ (2 ^ p.mbits : ℕ) * 2 ^ p.stepExp m e ≤ (m : ℚ) * 2 ^ e) := by
  have below : (m : ℚ) * 2 ^ e < 2 ^ (floorLog2 m e + 1) := by
    rw [floorLog2, add_right_comm, zpow_add₀ two_ne_zero]
    gcongr
    exact_mod_cast Nat.lt_log2_self
  have above : (2 : ℚ) ^ floorLog2 m e ≤ m * 2 ^ e := by
    rw [floorLog2, zpow_add₀ two_ne_zero, zpow_natCast]
    gcongr
    exact_mod_cast Nat.log2_self_le pos
  have lowest : p.emin - p.mbits ≤ p.stepExp m e := by unfold FloatP.stepExp; omega
  refine ⟨(p.stepExp m e - (p.emin - p.mbits)).toNat, by omega, below.trans_le ?_, ?_⟩
  · calc (2 : ℚ) ^ (floorLog2 m e + 1) ≤ 2 ^ (((p.mbits + 1 : ℕ) : Int) + p.stepExp m e) :=
        zpow_le_zpow_right₀ one_le_two (by unfold FloatP.stepExp; omega)
      _ = (2 ^ p.mbits + 2 ^ p.mbits : ℕ) * 2 ^ p.stepExp m e := by
        rw [zpow_add₀ two_ne_zero, zpow_natCast]
        push_cast
        ring
  · rcases le_or_gt (floorLog2 m e) p.emin with low | high
    · left
      unfold FloatP.stepExp
      omega
    · right
      have exponent : floorLog2 m e = (p.mbits : Int) + p.stepExp m e := by unfold FloatP.stepExp; omega
      rw [exponent, zpow_add₀ two_ne_zero, zpow_natCast] at above
      exact_mod_cast above

/-- `roundCode` without a draw chooses the nearer of two neighbouring codes that enclose the magnitude, and the even one half-way (02 R36). -/
theorem FloatP.roundCode_spec (mantissa : 0 < p.mbits) {m : Nat} (pos : m ≠ 0) (r : Nat) (e : Int) :
    ∃ t : ℕ, p.mag t ≤ m * 2 ^ e ∧ (m : ℚ) * 2 ^ e ≤ p.mag (t + 1) ∧
      (p.roundCode false r m e = t ∧ (m : ℚ) * 2 ^ e - p.mag t ≤ p.mag (t + 1) - m * 2 ^ e ∨
        p.roundCode false r m e = t + 1 ∧ p.mag (t + 1) - (m : ℚ) * 2 ^ e ≤ m * 2 ^ e - p.mag t) ∧
      ((m : ℚ) * 2 ^ e - p.mag t = p.mag (t + 1) - m * 2 ^ e → p.roundCode false r m e % 2 = 0) := by
  obtain ⟨k, step, below, above⟩ := p.stepExp_spec pos e
  obtain ⟨q, rest, restNonneg, restLt, total, choice, even⟩ := roundSteps_spec r m e (p.stepExp m e)
  have unit : (0 : ℚ) < 2 ^ p.stepExp m e := by positivity
  rw [total, mul_lt_mul_iff_left₀ unit] at below
  rw [total, mul_le_mul_iff_left₀ unit] at above
  have qLt : q < 2 ^ p.mbits + 2 ^ p.mbits := by exact_mod_cast (le_add_of_nonneg_right restNonneg).trans_lt below
  have qGe : k = 0 ∨ 2 ^ p.mbits ≤ q := above.imp_right fun h =>
    Nat.lt_succ_iff.mp (by exact_mod_cast h.trans_lt (add_lt_add_right restLt (q : ℚ)))
  have code : p.roundCode false r m e = k * 2 ^ p.mbits + roundSteps false r m e (p.stepExp m e) := by
    simp [FloatP.roundCode, pos, step]
  have overLo : (m : ℚ) * 2 ^ e - p.mag (k * 2 ^ p.mbits + q) = rest * 2 ^ p.stepExp m e := by
    rw [p.mag_steps qGe qLt.le, ← step, total]
    ring
  have underHi : p.mag (k * 2 ^ p.mbits + q + 1) - (m : ℚ) * 2 ^ e = (1 - rest) * 2 ^ p.stepExp m e := by
    rw [add_assoc, p.mag_steps (qGe.imp_right fun h => h.trans q.le_succ) qLt, ← step, total]
    push_cast
    ring
  refine ⟨k * 2 ^ p.mbits + q, sub_nonneg.mp (overLo ▸ mul_nonneg restNonneg unit.le),
    sub_nonneg.mp (underHi ▸ mul_nonneg (sub_nonneg.mpr restLt.le) unit.le), ?_, ?_⟩
  · rw [overLo, underHi, mul_le_mul_iff_left₀ unit, mul_le_mul_iff_left₀ unit, code]
    exact choice.imp (And.imp_left (congrArg _)) (And.imp_left (congrArg _))
  · rw [overLo, underHi, mul_left_inj' unit.ne', code]
    intro tie
    have evenUnit : 2 ^ p.mbits % 2 = 0 := Nat.mod_eq_zero_of_dvd (dvd_pow_self 2 mantissa.ne')
    simp [Nat.add_mod, Nat.mul_mod, evenUnit, even tie]

/-- No code stands for a magnitude nearer than the rounded one, and if another one is as near the rounded code is even. -/
theorem FloatP.roundCode_nearest (mantissa : 0 < p.mbits) (r m : Nat) (e : Int) (c : ℕ) :
    |(m : ℚ) * 2 ^ e - p.mag (p.roundCode false r m e)| ≤ |(m : ℚ) * 2 ^ e - p.mag c| ∧
      (|(m : ℚ) * 2 ^ e - p.mag (p.roundCode false r m e)| = |(m : ℚ) * 2 ^ e - p.mag c| → p.mag c ≠ p.mag (p.roundCode false r m e) →
        p.roundCode false r m e % 2 = 0) := by
  by_cases zero : m = 0
  · simp [FloatP.roundCode, zero, p.mag_zero]
  obtain ⟨t, lo, hi, nearer, even⟩ := p.roundCode_spec mantissa zero r e
  obtain ⟨near, tied⟩ := nearest_of_nearer_neighbour p.mag_strictMono lo hi nearer c
  exact ⟨near, fun tie other => even (tied tie other)⟩

end

/-! ### Signed codes -/

/-- `x` or `-x`, by a sign bit. -/
def withSign (s : Bool) (x : ℚ) : ℚ := if s then -x else x

theorem abs_withSign (s : Bool) (x : ℚ) : |withSign s x| = |x| := by cases s <;> simp [withSign]

theorem abs_withSign_sub_same (s : Bool) (x y : ℚ) : |withSign s x - withSign s y| = |x - y| := by
  cases s <;> simp [withSign, abs_sub_comm, neg_add_eq_sub]

theorem abs_withSign_sub_other {s t : Bool} (h : s ≠ t) (x y : ℚ) : |withSign s x - withSign t y| = |x + y| := by
  rcases s with _ | _ <;> rcases t with _ | _ <;> simp only [withSign, ne_eq, not_true_eq_false] at h ⊢
  · simp
  · rw [← abs_neg (x + y)]
    simp [sub_eq_add_neg, add_comm]

theorem FVal.rat_fin_withSign (s : Bool) (m : Nat) (e : Int) : (FVal.fin s m e).rat = withSign s (m * 2 ^ e) := by
  cases s <;> simp [FVal.rat, withSign]

/-- A magnitude nearer than 0 and than `b` stays so with signs: a value of the other sign is farther, and as near only where it is 0. -/
theorem withSign_nearest {x a b : ℚ} (s t : Bool) (hx : 0 ≤ x) (hb : 0 ≤ b) (nearZero : |x - a| ≤ x) (near : |x - a| ≤ |x - b|) :
    |withSign s x - withSign s a| ≤ |withSign s x - withSign t b| ∧
      (|withSign s x - withSign s a| = |withSign s x - withSign t b| → withSign t b ≠ withSign s a → |x - a| = |x - b| ∧ b ≠ a) := by
  rw [abs_withSign_sub_same]
  by_cases signs : s = t
  · subst signs
    rw [abs_withSign_sub_same]
    exact ⟨near, fun tie other => ⟨tie, fun same => other (by rw [same])⟩⟩
  · rw [abs_withSign_sub_other signs, abs_of_nonneg (add_nonneg hx hb)]
    refine ⟨by linarith, fun tie other => ?_⟩
    obtain rfl : b = 0 := by linarith
    exact ⟨by rw [tie, sub_zero, add_zero, abs_of_nonneg hx], fun same => other (by simp [← same, withSign])⟩

section
variable {p : FloatP}

theorem FloatP.exists_sign_magnitude {n : ℕ} (h : n < 2 ^ (p.ebits + p.mbits + 1)) : ∃ s c, c < 2 ^ (p.ebits + p.mbits) ∧ n = p.signBit s + c := by
  rcases Nat.lt_or_ge n (2 ^ (p.ebits + p.mbits)) with plus | minus
  · exact ⟨false, n, plus, by simp [FloatP.signBit]⟩
  · obtain ⟨c, rfl⟩ := Nat.exists_eq_add_of_le minus
    exact ⟨true, c, by omega, by simp [FloatP.signBit]⟩

theorem FloatP.infCode_lt (p : FloatP) : p.infCode < 2 ^ (p.ebits + p.mbits) := by
  rw [FloatP.infCode, pow_add, Nat.mul_lt_mul_right (by positivity)]
  exact Nat.sub_lt (by positivity) one_pos

/-- The three fields of an encoding. -/
theorem FloatP.fields_of_sign_magnitude (s : Bool) {c : ℕ} (h : c < 2 ^ (p.ebits + p.mbits)) :
    (p.signBit s + c).testBit (p.ebits + p.mbits) = s ∧ field (p.signBit s + c) p.mbits p.ebits = c / 2 ^ p.mbits ∧
      (p.signBit s + c) % 2 ^ p.mbits = c % 2 ^ p.mbits := by
  have exponent : c / 2 ^ p.mbits < 2 ^ p.ebits := by rwa [Nat.div_lt_iff_lt_mul (by positivity), ← pow_add]
  cases s with
  | false => simp [FloatP.signBit, field, Nat.testBit_lt_two_pow h, Nat.shiftRight_eq_div_pow, Nat.mod_eq_of_lt exponent]
  | true =>
    have power : 2 ^ (p.ebits + p.mbits) = 2 ^ p.mbits * 2 ^ p.ebits := by rw [pow_add, mul_comm]
    refine ⟨by simp [FloatP.signBit, Nat.testBit_two_pow_add_eq, Nat.testBit_lt_two_pow h], ?_, ?_⟩
    · simp [FloatP.signBit, field, Nat.shiftRight_eq_div_pow, power, Nat.mul_add_div, Nat.mod_eq_of_lt exponent]
    · simp [FloatP.signBit, power]

/-- In a format with infinities the codes below infinity's are the finite values (02 R25). -/
theorem FloatP.decode_finite (ieee : p.special = 2) (s : Bool) {c : ℕ} (h : c < p.infCode) :
    (p.decode (p.signBit s + c)).nonFinite = false ∧ (p.decode (p.signBit s + c)).rat = withSign s (p.mag c) := by
  have unit := Nat.two_pow_pos p.mbits
  obtain ⟨sign, exponent, mantissa⟩ := FloatP.fields_of_sign_magnitude s (h.trans_le p.infCode_lt.le)
  have ordinary : c / 2 ^ p.mbits ≠ 2 ^ p.ebits - 1 := ((Nat.div_lt_iff_lt_mul unit).mpr h).ne
  simp only [FloatP.decode, sign, exponent, mantissa, ieee, beq_false_of_ne ordinary]
  by_cases subnormal : c < 2 ^ p.mbits
  · simp [Nat.div_eq_of_lt subnormal, Nat.mod_eq_of_lt subnormal, FVal.nonFinite, FVal.rat_fin_withSign, FloatP.mag, subnormal]
  · have normal : c / 2 ^ p.mbits ≠ 0 := (Nat.div_pos (not_lt.mp subnormal) unit).ne'
    simp [normal, FVal.nonFinite, FVal.rat_fin_withSign, FloatP.mag, subnormal]

theorem FloatP.decode_nonFinite (ieee : p.special = 2) (s : Bool) {c : ℕ} (lo : p.infCode ≤ c) (hi : c < 2 ^ (p.ebits + p.mbits)) :
    (p.decode (p.signBit s + c)).nonFinite = true := by
  have unit := Nat.two_pow_pos p.mbits
  obtain ⟨-, exponent, mantissa⟩ := FloatP.fields_of_sign_magnitude s hi
  have above : 2 ^ p.ebits - 1 ≤ c / 2 ^ p.mbits := (Nat.le_div_iff_mul_le unit).mpr lo
  have below : c / 2 ^ p.mbits < 2 ^ p.ebits := by rwa [Nat.div_lt_iff_lt_mul unit, ← pow_add]
  have top : c / 2 ^ p.mbits = 2 ^ p.ebits - 1 := by omega
  simp only [FloatP.decode, exponent, mantissa, ieee, top, BEq.rfl, Bool.and_self, if_true]
  split <;> rfl

/-- Without saturation a code beyond the finite ones becomes infinity's (02 R37). -/
theorem FloatP.convert_fin (ieee : p.special = 2) (sr : Bool) (r : Nat) (s : Bool) (m : Nat) (e : Int) :
    p.convert false sr r (.fin s m e) = p.signBit s + min (p.roundCode sr r m e) p.infCode := by
  have largest : p.maxCode = p.infCode - 1 := by simp [FloatP.maxCode, FloatP.infCode, ieee]
  simp only [FloatP.convert, largest, Bool.false_eq_true, if_false]
  split <;> omega

end

/-! ### FP32 -/

theorem fp32P_signBit_mod_two (s : Bool) : fp32P.signBit s % 2 = 0 := by cases s <;> rfl

theorem toF32_toNat (s : Bool) (m : Nat) (e : Int) :
    (toF32 (.fin s m e)).toNat = fp32P.signBit s + min (fp32P.roundCode false 0 m e) fp32P.infCode := by
  have sign : fp32P.signBit s ≤ 2 ^ 31 := by cases s <;> decide
  have infinity : fp32P.infCode < 2 ^ 31 := fp32P.infCode_lt
  rw [toF32, FloatP.convert_fin rfl, BitVec.toNat_ofNat, Nat.mod_eq_of_lt (by omega)]

/-- A finite FP32 value is one of the values of the finite magnitude codes, with a sign. -/
theorem f32_rat_of_finite {w : U32} (h : (f32 w).nonFinite = false) : ∃ t, ∃ d < fp32P.infCode, (f32 w).rat = withSign t (fp32P.mag d) := by
  obtain ⟨t, d, hd, code⟩ := FloatP.exists_sign_magnitude (p := fp32P) w.isLt
  rw [f32, code] at h ⊢
  rcases Nat.lt_or_ge d fp32P.infCode with finite | special
  · exact ⟨t, d, finite, (FloatP.decode_finite rfl t finite).2⟩
  · rw [FloatP.decode_nonFinite rfl t special hd] at h
    contradiction

section
variable (s : Bool) (m : Nat) (e : Int)

theorem f32_toF32_of_lt (h : fp32P.roundCode false 0 m e < fp32P.infCode) :
    (f32 (toF32 (.fin s m e))).nonFinite = false ∧ (f32 (toF32 (.fin s m e))).rat = withSign s (fp32P.mag (fp32P.roundCode false 0 m e)) := by
  rw [f32, toF32_toNat, min_eq_left h.le]
  exact FloatP.decode_finite rfl s h

theorem f32_toF32_of_ge (h : fp32P.infCode ≤ fp32P.roundCode false 0 m e) : (f32 (toF32 (.fin s m e))).nonFinite = true := by
  rw [f32, toF32_toNat, min_eq_right h]
  exact FloatP.decode_nonFinite rfl s le_rfl fp32P.infCode_lt

theorem toF32_even (finite : fp32P.roundCode false 0 m e < fp32P.infCode) (even : fp32P.roundCode false 0 m e % 2 = 0) :
    (toF32 (.fin s m e)).getLsbD 0 = false := by
  rw [BitVec.getLsbD, toF32_toNat, min_eq_left finite.le, Nat.testBit_zero, Nat.add_mod, fp32P_signBit_mod_two, even]
  rfl

/-- A magnitude rounded past the largest finite one is no nearer to that than to the next one, 2^128 (02 R37). -/
theorem overflow_le_of_infCode_le_roundCode (h : fp32P.infCode ≤ fp32P.roundCode false 0 m e) : (2 : ℚ) ^ 128 - 2 ^ 103 ≤ m * 2 ^ e := by
  have largest : fp32P.mag (fp32P.infCode - 1) = 2 ^ 128 - 2 ^ 104 := by
    norm_num [FloatP.mag, FloatP.infCode, fp32P]
  have next : fp32P.mag fp32P.infCode = 2 ^ 128 := by
    norm_num [FloatP.mag, FloatP.infCode, fp32P]
  have beyond : fp32P.mag fp32P.infCode ≤ fp32P.mag (fp32P.roundCode false 0 m e) := fp32P.mag_strictMono.monotone h
  obtain ⟨near, -⟩ := fp32P.roundCode_nearest (by decide) 0 m e (fp32P.infCode - 1)
  rw [largest] at near
  rw [next] at beyond
  rcases le_abs'.mp ((neg_le_abs _).trans near) with below | above <;> linarith

end

/-- Settles O15: by `roundCode_nearest` no code is nearer, `withSign_nearest` adds the signs, and past the largest finite code the magnitude is at least half-way to
2^128. -/
theorem fp32RoundingIsNearestTiesToEven : Obligations.Fp32RoundingIsNearestTiesToEven := by
  unfold Obligations.Fp32RoundingIsNearestTiesToEven
  intro s m e
  rw [FVal.rat_fin_withSign, abs_withSign]
  have nonneg : (0 : ℚ) ≤ m * 2 ^ e := by positivity
  rcases Nat.lt_or_ge (fp32P.roundCode false 0 m e) fp32P.infCode with finite | overflow
  · obtain ⟨isFinite, value⟩ := f32_toF32_of_lt s m e finite
    refine ⟨fun _ w wFinite => ?_, by simp [isFinite]⟩
    obtain ⟨t, d, -, wValue⟩ := f32_rat_of_finite wFinite
    rw [value, wValue]
    have nearest := fp32P.roundCode_nearest (by decide) 0 m e
    have nearZero := (nearest 0).1
    rw [fp32P.mag_zero, sub_zero, abs_of_nonneg nonneg] at nearZero
    obtain ⟨near, tied⟩ := withSign_nearest s t nonneg (fp32P.mag_nonneg d) nearZero (nearest d).1
    refine ⟨near, fun tie other => ?_⟩
    obtain ⟨tie, other⟩ := tied tie other
    exact toF32_even s m e finite ((nearest d).2 tie other)
  · refine ⟨by simp [f32_toF32_of_ge s m e overflow], fun _ => ?_⟩
    rw [abs_of_nonneg nonneg]
    exact overflow_le_of_infCode_le_roundCode m e overflow

end Sys2Proof.Machine
end

section
/-!
The end of a hold (03 R64, 06 R160 to R162): counting it clears the job's holds and moves the job on by the cycles held, and the one held instruction issues
again, is held as before, or is held for another cause. O21 says which of the three the two commands that end a hold come to.
-/

namespace Sys2Proof.Machine

/-! ### Counting a hold -/

@[simp] theorem Core.counterEvent_jobs (bit : Nat) (newly : Bool) (blk inst off : Nat) (c : Core) :
    (c.counterEvent bit newly blk inst off).jobs = c.jobs := by
  unfold Core.counterEvent
  split
  · exact Core.logRec_jobs _ c
  · rfl

@[simp] theorem Core.countHold_jobs (p cycles : Nat) (c : Core) : (c.countHold p cycles).jobs = c.jobs := by
  simp [Core.countHold]

theorem Core.foldl_countHold_jobs (cycles : Nat) (dies : List Nat) (c : Core) :
    (dies.foldl (fun c d => c.countHold d cycles) c).jobs = c.jobs := by
  induction dies generalizing c with
  | nil => rfl
  | cons d rest ih => rw [List.foldl_cons, ih, Core.countHold_jobs]

/-- The job after its holds have ended: no hold is left, and its schedule is behind by the cycles held (06 R160, R161). -/
theorem Core.job?_endHold {c : Core} {plan : Nat} {j : Job} {p : Plan} (job : c.job? plan = some j) (admitted : c.plan? plan = some p) (cycles : Nat) :
    (c.endHold plan cycles).job? plan =
      some { j with holds := [], holdCycles := j.holdCycles + cycles, offset := j.offset + cycles, holdBeats := 0 } := by
  simp only [Core.endHold, job, admitted]
  refine Core.job?_modJob_self ?_ fun _ => rfl
  rw [← job]
  exact Core.job?_congr (Core.foldl_countHold_jobs cycles _ c) plan

/-! ### The three ends -/

/-- The hold in which an instruction of a plan stands. -/
def Mach.holdOf (m : Mach) (plan : Nat) (i : Instr) : Option Held :=
  (m.core.job? plan).bind fun k => k.holds.find? fun e => e.instr == some i

theorem Mach.holdOf_eq_none {m : Mach} {plan : Nat} {i : Instr}
    (passed : ∀ k, m.core.job? plan = some k → k.holds.all (fun e => e.instr != some i) = true) : m.holdOf plan i = none := by
  cases job : m.core.job? plan with
  | none => simp [Mach.holdOf, job]
  | some k => simpa [Mach.holdOf, job, List.find?_eq_none] using passed k job

/-- The release of a hold by a single instruction: it issues; or, held again, the hold goes on as it was or another one follows it. -/
theorem holdRelease_single {plan : Nat} {m : Mach} {j : Job} {q : Held} {i : Instr} (job : m.core.job? plan = some j) (held : j.holds = [q])
    (ends : q.waits = false) (instr : q.instr = some i) {granted : Bool} {cycles : Nat} {again : Mach}
    (reissued : reissue granted i (m.up (Core.endHold plan cycles)) = again) :
    holdRelease granted plan cycles m = (again.holdOf plan i).elim again fun e =>
      if e.cause = q.cause then m else again.up fun c => c.modJob plan fun k => { k with holdBeats := j.holdBeats } := by
  have testable : ([q].isEmpty || [q].any Held.waits) = false := by simp [ends]
  have issued : reissueAll granted [q] (m.up (Core.endHold plan cycles)) = again := by simp [reissueAll, instr, reissued]
  have stuck : ((again.core.job? plan).bind fun k => k.holds.find? fun e => e.instr == some i) = again.holdOf plan i := rfl
  simp only [holdRelease, job, held, testable, issued, instr, Option.isSome_some, if_true, stuck]
  cases again.holdOf plan i with
  | none => rfl
  | some e => simp

/-- A start grant that the die gives now releases the hold, and the die keeps its beat cycle (06 R162). -/
theorem startGrant_of_due {plan cycles : Nat} {m : Mach} {j : Job} (job : m.core.job? plan = some j) (due : m.core.grantDue j cycles = true) :
    ∃ die a, m.core.grantAt j = some (die, a) ∧ startGrant plan cycles m =
      (holdRelease true plan cycles m).up (fun c => c.modMx die (fun y => { y with lastGrant := some (j.startCycle cycles) })) := by
  cases place : m.core.grantAt j with
  | none => simp [Core.grantDue, place] at due
  | some x =>
    obtain ⟨die, a⟩ := x
    exact ⟨die, a, rfl, by simp [startGrant, job, place, due]⟩

/-- Settles O21: `holdRelease_single` at the one held instruction, for a release of its own and for one that a start grant brings. -/
theorem holdReleaseIssuesTheHeldInstruction : Obligations.HoldReleaseIssuesTheHeldInstruction := by
  unfold Obligations.HoldReleaseIssuesTheHeldInstruction
  intro granted plan cycles s j p q i job admitted held ends instr grant fin c m0 m
  have release := holdRelease_single (m := startMach s) job held ends instr (rfl : _ = m)
  obtain ⟨t, run, core, mem, pwr⟩ : ∃ t, exec c s = .next t ∧ t.core = fin (holdRelease granted plan cycles (startMach s)).core ∧
      t.mem = applyWrs s.mem (holdRelease granted plan cycles (startMach s)).wr.reverse ∧ t.pwr = s.pwr := by
    cases granted with
    | false => exact ⟨_, rfl, rfl, rfl, rfl⟩
    | true =>
      obtain ⟨die, a, place, run⟩ := startGrant_of_due (m := startMach s) job (grant rfl).2
      have place : s.core.grantAt j = some (die, a) := place
      have core : fin (holdRelease true plan cycles (startMach s)).core = (startGrant plan cycles (startMach s)).core := by
        simp only [run, fin, place, if_true]
        rfl
      have wr : (holdRelease true plan cycles (startMach s)).wr = (startGrant plan cycles (startMach s)).wr := by rw [run]; rfl
      exact ⟨_, rfl, core.symm, congrArg (fun w => applyWrs s.mem w.reverse) wr.symm, rfl⟩
  refine ⟨⟨_, Core.job?_endHold (c := (startMach s).core) job admitted cycles, rfl, rfl, rfl⟩, fun passed => ?_, fun k e again failed => ?_⟩
  · rw [release, Mach.holdOf_eq_none passed] at core mem
    exact ⟨t, run, core, mem, pwr⟩
  · have stuck : m.holdOf plan i = some e := by simp [Mach.holdOf, again, failed]
    rw [release, stuck] at core mem
    refine ⟨t, run, pwr, fun same => ?_, fun other => ?_⟩
    · simp only [Option.elim_some, same, if_true] at core mem
      exact ⟨core, mem⟩
    · simp only [Option.elim_some, other, if_false] at core mem
      exact ⟨core, mem⟩

end Sys2Proof.Machine
end

section
/-!
MMA, VLOAD and MV at their ISSUE cycle (03 R62, 04 R99 to R101): where the issue conditions hold, `issueWith_runs` says what each of them does.
-/

namespace Sys2Proof.Machine

/-- What a command answers whose effect writes memory. -/
theorem runM_of_eq {f : Mach → Mach} {s : State} {m : Mach} (effect : f (startMach s) = m) : ∃ t, runM f s = .next t ∧
    t.core = m.core ∧ t.mem = applyWrs s.mem m.wr.reverse ∧ t.pwr = s.pwr ∧ t.pending = s.pending := by
  subst effect
  exact ⟨_, rfl, rfl, rfl, rfl, rfl⟩

/-- A station instruction whose issue conditions hold answers the next state of its run. -/
theorem runM_issueWith {F : Type} {i : Instr} {st : Stn} {h : Hdr} {f : F} {opc : Nat} {sub : F → Nat → Option F} {spec : Mach → Ctx → F → StnSpec}
    {body : F → Ctx → Bool → Mach → Bool × Mach} {s : State} {x : Ctx} {tok : Option Token}
    (issues : Issues (startMach s) st h opc (spec ((startMach s).reach st.plan h.issue.toNat) x f) x tok) :
    ∃ t m, runM (issueWith false i st h f opc sub spec body) s = .next t ∧
      m = x.runStn st h (spec ((startMach s).reach st.plan h.issue.toNat) x f) tok (body f) ((startMach s).reach st.plan h.issue.toNat) ∧
      t.core = m.core ∧ t.mem = applyWrs s.mem m.wr.reverse ∧ t.pwr = s.pwr ∧ t.pending = s.pending := by
  obtain ⟨t, run, effect⟩ := runM_of_eq (issueWith_runs issues)
  exact ⟨t, _, run, rfl, effect⟩

/-- Settles O7: `runM_issueWith` with the specification and the body of each of the three. -/
theorem arrayAndThinInstructionsRun : Obligations.ArrayAndThinInstructionsRun := by
  unfold Obligations.ArrayAndThinInstructionsRun
  exact ⟨fun _ _ _ _ _ _ issues => runM_issueWith (spec := fun _ => mmaSpec) issues,
    fun _ _ _ _ _ _ issues => runM_issueWith (spec := fun _ => vloadSpec) issues,
    fun _ _ _ _ _ _ issues => runM_issueWith (spec := fun _ => mvSpec) issues⟩

end Sys2Proof.Machine
end

section
/-!
The clear bits of the registers (00 R6, 13 R443, 14 R479): at Ready a bit takes its effect, one on a tenant's page while the tenant is enabled. O58 is the
effect of each.
-/

namespace Sys2Proof.Machine

section
variable {s : State} (ready : s.core.rst.phase = 6) (f : Core → Core)
include ready

theorem bitRow_ready : bitRow f s = .next (s.upd fun c => f { c with out := [] }) := by
  simp [bitRow, runC, ready, State.upd]

theorem pageRow_enabled {t : TenantId} (enabled : (s.core.ten t.toNat).enabled = true) :
    pageRow t f s = .next (s.upd fun c => f { c with out := [] }) := by
  have on : (Core.ten { s.core with out := [] } t.toNat).enabled = true := enabled
  simp [pageRow, runC, ready, on, State.upd]

end

theorem pageRow_disabled {s : State} {t : TenantId} (disabled : (s.core.ten t.toNat).enabled = false) (f : Core → Core) :
    pageRow t f s = .next (s.upd fun c => { c with out := [] }) := by
  have off : (Core.ten { s.core with out := [] } t.toNat).enabled = false := disabled
  simp [pageRow, runC, off, State.upd]

/-- A channel with the flags cleared that a write of bits 2 to 0 names: POISON_SEEN, FULL_HOLD, EMPTY_HOLD (04 R122). -/
def ChanSt.clearFlags (flags : BitVec 3) (x : ChanSt) : ChanSt :=
  { x with poisonSeen := x.poisonSeen && !flags.getLsbD 2, fullHold := x.fullHold && !flags.getLsbD 1, emptyHold := x.emptyHold && !flags.getLsbD 0 }

theorem clearStream_part_of_ne {p y : Nat} (other : y ≠ p) (flags : BitVec 3) (c : Core) : (clearStream p flags c).part y = c.part y := by
  simp [clearStream, Core.modStreams, Core.part_modPart, other.symm]

/-- The flags of the selected channel are cleared, and nothing else of the partition changes. -/
theorem clearStream_part {p : Nat} {c : Core} {x : ChanSt} (here : p < c.parts.length)
    (selected : lookup? (c.part p).streams.sel.toNat (c.part p).streams.chans = some x) (flags : BitVec 3) :
    (clearStream p flags c).part p = { c.part p with streams := { (c.part p).streams with
      chans := insertKey (c.part p).streams.sel.toNat (x.clearFlags flags) (c.part p).streams.chans } } := by
  simp [clearStream, Core.modStreams, Core.part_modPart, here, selected, ChanSt.clearFlags]

/-- Settles O58: each clear is a bit of its register, whose effect is the update the statement writes out; STREAM_STATE_FLAG_CLEAR by `clearStream_part`. -/
theorem clearsZeroTheirCounters : Obligations.ClearsZeroTheirCounters := by
  unfold Obligations.ClearsZeroTheirCounters
  intro s p k i t ready goes on
  refine ⟨bitRow_ready ready (clearCounts p), bitRow_ready ready (clearHold p), bitRow_ready ready (clearSkip p), bitRow_ready ready (clearSlips p),
    bitRow_ready ready (clearEcc p), fun flags x here => ?_, bitRow_ready ready clearLost, bitRow_ready ready (clearErr i),
    bitRow_ready ready (clearAborts k), bitRow_ready ready (clearKite k), bitRow_ready ready clearReplays, bitRow_ready ready (clearHighWater k),
    bitRow_ready ready clearSpoolErrs, bitRow_ready ready clearSpoolBytes, bitRow_ready ready clearOvr, fun enabled => ?_, fun disabled => ?_⟩
  · intro st selected
    have cleared := clearStream_part (c := { s.core with out := [] }) here selected flags
    refine ⟨_, bitRow_ready ready (clearStream p flags), rfl, rfl, rfl,
      fun y other => clearStream_part_of_ne other flags { s.core with out := [] }, ?_, ?_, ?_⟩
    · simp only [State.upd, cleared]
      rfl
    · intro n other
      simp only [State.upd, cleared]
      exact lookup?_insertKey_of_ne _ _ other.symm
    · simp only [State.upd, cleared]
      exact lookup?_insertKey_self _ _ _
  · exact ⟨pageRow_enabled ready (clearTen t.toNat) enabled, pageRow_enabled ready (clearAperture t.toNat) enabled⟩
  · exact ⟨pageRow_disabled disabled (clearTen t.toNat), pageRow_disabled disabled (clearAperture t.toNat)⟩

end Sys2Proof.Machine
end

section
/-!
Late gathers and failed array checks (03 R75, R78, R85, 04 R107, 10 R356). Past the failure's own record, counting a failed check can write no more than two
records, of the array's retirement and of the module's failure, and change no more of a job than the cause of its verdict.
-/

namespace Sys2Proof.Machine

/-! ### Verdicts -/

theorem Job.verdict_step (j : Job) (s : StepNo) : (j.verdict s).step = s := by
  unfold Job.verdict
  cases found : j.verdicts.find? (fun v => v.step == s) with
  | none => rfl
  | some v => simpa using List.find?_some found

theorem Job.verdict_modVerdict (j : Job) {s : StepNo} {f : Verdict → Verdict} (keeps : ∀ v, (f v).step = v.step) :
    (j.modVerdict s f).verdict s = f (j.verdict s) := by
  have others : (j.verdicts.filter fun v => !(v.step == s)).find? (fun v => v.step == s) = none := by simp [List.find?_eq_none]
  have own : (f (j.verdict s)).step = s := (keeps _).trans (j.verdict_step s)
  rw [Job.verdict, Job.modVerdict, List.find?_append, others]
  simp [own]

/-- A job of which only verdicts have changed, and not the count of local faults of the step it runs. -/
def Job.Marked (j k : Job) : Prop := ∃ vs, k = { j with verdicts := vs } ∧ (k.verdict j.step).localFaults = (j.verdict j.step).localFaults

theorem Job.Marked.refl (j : Job) : j.Marked j := ⟨j.verdicts, rfl, rfl⟩

theorem Job.Marked.trans {j k l : Job} (first : j.Marked k) (second : k.Marked l) : j.Marked l := by
  obtain ⟨vs, rfl, same⟩ := first
  obtain ⟨ws, rfl, same'⟩ := second
  exact ⟨ws, rfl, same'.trans same⟩

theorem Job.marked_unclean (cause : Nat) (j : Job) : j.Marked (j.unclean cause) :=
  ⟨_, rfl, (congrArg Verdict.localFaults (j.verdict_modVerdict (s := j.step) (f := fun v => { v with cause := max v.cause cause }) fun _ => rfl) :)⟩

/-! ### What records and marked verdicts leave -/

/-- `d` is `c` after at most `n` records and marks in verdicts: its newest `i` records are still among the newest `i + n`, and no mismatch count has changed. -/
structure Core.Recorded (n : Nat) (c d : Core) : Prop where
  jobs : ∀ plan j, c.job? plan = some j → ∃ k, d.job? plan = some k ∧ j.Marked k
  log : ∀ r i, i + n ≤ 4096 → r ∈ c.log.recs.take i → r ∈ d.log.recs.take (i + n)
  counts : ∀ q, (d.part q).mx.mismatchCount = (c.part q).mx.mismatchCount

namespace Core.Recorded

theorem of_eq {c d : Core} (jobs : d.jobs = c.jobs) (log : d.log = c.log) (parts : d.parts = c.parts) : Core.Recorded 0 c d where
  jobs plan j job := ⟨j, (Core.job?_congr jobs plan).trans job, Job.Marked.refl j⟩
  log _ _ _ held := by rwa [log]
  counts q := by rw [Core.part_congr parts]

theorem refl (c : Core) : Core.Recorded 0 c c := of_eq rfl rfl rfl

theorem trans {m n : Nat} {c d e : Core} (first : Core.Recorded m c d) (second : Core.Recorded n d e) : Core.Recorded (m + n) c e where
  jobs plan j job := by
    obtain ⟨k, job', marked⟩ := first.jobs plan j job
    obtain ⟨l, job'', marked'⟩ := second.jobs plan k job'
    exact ⟨l, job'', marked.trans marked'⟩
  log r i room held := by
    rw [← Nat.add_assoc]
    exact second.log r (i + m) (by omega) (first.log r i (by omega) held)
  counts q := (second.counts q).trans (first.counts q)

theorem mono {m n : Nat} {c d : Core} (h : Core.Recorded m c d) (le : m ≤ n) : Core.Recorded n c d where
  jobs := h.jobs
  log r i room held := List.take_subset_take_left _ (by omega) (h.log r i (by omega) held)
  counts := h.counts

theorem logRec (r : Rec) (c : Core) : Core.Recorded 1 c (c.logRec r) where
  jobs plan j job := ⟨j, (Core.job?_congr (Core.logRec_jobs r c) plan).trans job, Job.Marked.refl j⟩
  log q i room held := by
    rw [Core.logRec_log, show (c.log.push (c.stamped r)).recs = (c.stamped r :: c.log.recs).take 4096 from rfl, List.take_take,
      min_eq_left room, List.take_succ_cons]
    exact List.mem_cons_of_mem _ held
  counts q := by rw [Core.part_congr (Core.logRec_parts r c)]

theorem modMx {f : MxPart → MxPart} (keeps : ∀ x, (f x).mismatchCount = x.mismatchCount) (p : Nat) (c : Core) : Core.Recorded 0 c (c.modMx p f) where
  jobs plan j job := ⟨j, job, Job.Marked.refl j⟩
  log _ _ _ held := held
  counts q := by
    rw [Core.modMx, Core.part_modPart]
    split
    · exact keeps _
    · rfl

theorem memberFailed (h : Nat) (c : Core) : Core.Recorded 0 c (c.memberFailed h) where
  jobs plan j job := by
    refine ⟨if plan = h then j.unclean 3 else j, ?_, ?_⟩
    · rw [Core.memberFailed, Core.job?_modJob _ h plan (Job.unclean 3) fun _ => rfl, Core.job?_congr (Core.emit_jobs c _), job]
      rfl
    · split
      · exact j.marked_unclean 3
      · exact Job.Marked.refl j
  log _ _ _ held := held
  counts _ := rfl

theorem membersFailed (hs : List Nat) (c : Core) : Core.Recorded 0 c (hs.foldl (fun c h => c.memberFailed h) c) := by
  induction hs generalizing c with
  | nil => exact refl c
  | cons h rest ih => exact (memberFailed h c).trans (ih _)

theorem permFail (c : Core) : Core.Recorded 1 c c.permFail := by
  have failed := (of_eq (c := c) (d := { c with health := { c.health with permFailed := true } }) rfl rfl rfl).trans
    (membersFailed (c.jobs.map fun j => j.plan) _)
  unfold Core.permFail
  dsimp only
  generalize List.foldl _ _ _ = d at *
  split
  · exact failed.mono (by omega)
  · exact (failed.trans (logRec (modRec 0x107 2 2 0xFF 0 0) d)).trans (of_eq (by rfl) (by rfl) (by rfl))

/-- Two records at the most: the array's retirement (03 R79), and the module's failure when no ballast array is left. -/
theorem retireArray (p a : Nat) (c : Core) : Core.Recorded 2 c (c.retireArray p a) := by
  unfold Core.retireArray
  dsimp only
  split
  · exact (refl c).mono (by omega)
  · have retired := (logRec (modRec 0x106 2 2 p 1 a) c).trans (modMx (f := fun q => { q with retiring := q.retiring ++ [a] }) (fun _ => rfl) p _)
    split
    · exact retired.trans (permFail _)
    · exact retired.mono (by omega)

theorem countRows (p a : Nat) (rows : List Nat) (c : Core) : Core.Recorded 2 c (c.countRows p a rows) := by
  have counted := modMx (f := fun q => { q with rowHist := rows.foldl (fun l r => insertKey (a, r) c.clk.count l) q.rowHist }) (fun _ => rfl) p c
  unfold Core.countRows
  dsimp only
  split
  · exact (counted.trans (retireArray p a _)).trans (modMx (f := fun q => { q with lastKind := 3 }) (fun _ => rfl) p _)
  · exact counted.mono (by omega)

end Core.Recorded

/-! ### Events of a station -/

/-- The context of an event of a compute station. -/
theorem Core.eventCtx_of_bound {c : Core} {plan : Nat} {lsid : Lsid} {p : Plan} {j : Job} {b : Bind} (admitted : c.plan? plan = some p)
    (job : c.job? plan = some j) (bound : p.bindOf lsid = some b) (opc : Nat) :
    ∃ x, c.eventCtx plan lsid opc = some x ∧ x.job = j ∧ x.plan.handle = plan ∧ x.inst = b.inst ∧ (lsScode lsid ≠ 6 → x.part = b.die) := by
  have handle : p.handle = plan := by simpa using List.find?_some admitted
  cases event : c.eventCtx plan lsid opc with
  | none => simp [Core.eventCtx, admitted, job, bound] at event
  | some x =>
    simp only [Core.eventCtx, admitted, job, bound, Option.map_some, Option.some.injEq] at event
    subst event
    exact ⟨_, rfl, rfl, handle, rfl, fun compute => by simp [compute]⟩

/-- A record that is no poison origin (12 R419) changes the log only. -/
theorem Ctx.logR_plain (x : Ctx) {r : Rec} (plain : (r.cls == 3 || r.code == 0x402) = false) (m : Mach) : x.logR r m = m.up (Core.logRec r) := by
  simp only [Ctx.logR, plain]
  rfl

/-- The record of a late gather, in BLOCK 4 (04 R107). -/
def Ctx.lateGatherRec (x : Ctx) : Rec := { x.mkRec 0x202 6 0 [] with block := 4, inst := BitVec.ofNat 16 x.inst }

/-- The job from the end of the gather's window, held until the status word is written. -/
def Job.heldForGather (lsid : Lsid) (winEnd : Nat) (j : Job) : Job :=
  { j with sched := max j.sched winEnd, holds := j.holds ++ [{ lsid := lsid, cause := .gather, instr := none }] }

/-- What a late gather does to the core: the job reaches the window's end, the record is written and counted (04 R124), and the job is held. -/
def Ctx.holdForGather (x : Ctx) (lsid : Lsid) (winEnd : Nat) (c : Core) : Core :=
  (((c.modJob x.plan.handle fun j => { j with sched := max j.sched winEnd }).logRec x.lateGatherRec).modStreams x.part
    (StreamPart.countLate 0x202)).modJob x.plan.handle fun j => { j with holds := j.holds ++ [{ lsid := lsid, cause := .gather, instr := none }] }

theorem lateGather_running {lsid : Lsid} {m : Mach} {x : Ctx} (event : m.core.eventCtx x.plan.handle lsid 0x70 = some x)
    (running : x.job.phase = .running) (w : Cycle) : lateGather x.plan.handle lsid w m = m.up (x.holdForGather lsid w.toNat) := by
  have late : ∀ m, x.late 0x202 6 0 4 x.inst [] m = m.up fun c => (c.logRec x.lateGatherRec).modStreams x.part (StreamPart.countLate 0x202) :=
    fun m => congrArg (Mach.up _) (x.logR_plain rfl m)
  simp only [lateGather, event, running, late]
  rfl

theorem Ctx.holdForGather_log (x : Ctx) (lsid : Lsid) (winEnd : Nat) (c : Core) :
    (x.holdForGather lsid winEnd c).log = c.log.push (c.stamped x.lateGatherRec) :=
  Core.logRec_log _ _

theorem Ctx.holdForGather_job {x : Ctx} {c : Core} {j : Job} (job : c.job? x.plan.handle = some j) (lsid : Lsid) (winEnd : Nat) :
    (x.holdForGather lsid winEnd c).job? x.plan.handle = some (j.heldForGather lsid winEnd) := by
  have reached := Core.job?_modJob_self job (f := fun j => { j with sched := max j.sched winEnd }) fun _ => rfl
  refine Core.job?_modJob_self (j := { j with sched := max j.sched winEnd }) ?_ fun _ => rfl
  exact (Core.job?_congr (by simp) _).trans reached

/-! ### A failed check of an array -/

theorem Mach.uncheck_core (f : Fmt) (p a : Nat) (m : Mach) : ∃ g ls, (m.uncheck f p a).core = { m.core with gens := g, commonsLines := ls } :=
  Mach.putPieces_core _ _ m

theorem Mach.uncheckAll_core (f : Fmt) (p : Nat) (tiles : List SmAddr) (m : Mach) :
    ∃ g ls, (tiles.foldl (fun m a => m.uncheck f p a.toNat) m).core = { m.core with gens := g, commonsLines := ls } := by
  induction tiles generalizing m with
  | nil => exact ⟨_, _, rfl⟩
  | cons a rest ih =>
    obtain ⟨g, ls, rest⟩ := ih (m.uncheck f p a.toNat)
    obtain ⟨g', ls', first⟩ := m.uncheck_core f p a.toNat
    exact ⟨g, ls, by rw [List.foldl_cons, rest, first]⟩

/-- Only the failed check of a collective station aborts a collective (09 R310). -/
theorem exec_residueMismatch {lsid : Lsid} (notCollective : lsScode lsid ≠ 6) (plan : Nat) (rows : List Nat) (col mask : Nat) (fmt : BitVec 4)
    (tiles : List SmAddr) (cyc : Cycle) (s : State) :
    exec (.residueMismatch plan lsid rows col mask fmt tiles cyc) s = runM (residueMismatch plan lsid rows col mask fmt tiles cyc) s := by
  change execResidueMismatch plan lsid rows col mask fmt tiles cyc s = _
  simp only [execResidueMismatch, notCollective, if_false]

/-- What the failed check of an array does to the core, once its tiles have lost CHECKED: the record, the counts of the array and of its rows, the pending
check, and the local replay (03 R75, R78, R85, 10 R356). -/
def Ctx.failArray (x : Ctx) (r : Rec) (check : PendingCheck) (cycle : Nat) (c : Core) : Core :=
  ((((c.logRec r).modMx x.part (MxPart.mismatch 1 x.inst (check.rows.headD 0))).countRows x.part x.inst check.rows).modJob x.plan.handle
    fun j => { j with checks := j.checks ++ [check] }).modJob x.plan.handle (Job.detect cycle)

theorem residueMismatch_array {lsid : Lsid} {m : Mach} {x : Ctx} (event : m.core.eventCtx x.plan.handle lsid 0 = some x)
    (running : x.job.phase = .running) (array : lsScode lsid = 1) (rows : List Nat) (col mask : Nat) (fmt : BitVec 4) (tiles : List SmAddr) (cyc : Cycle) :
    ∃ (g : List (Nat × BitVec 48)) (ls : List ((TenantId × Nat) × List Nat)) (r : Rec) (check : PendingCheck),
      (residueMismatch x.plan.handle lsid rows col mask fmt tiles cyc m).core =
        x.failArray r check cyc.toNat { m.core with gens := g, commonsLines := ls } ∧
      (r.code = 0x101 ∧ r.cls = 7 ∧ r.sev = 2) ∧ check.die = x.part ∧ check.inst = x.inst ∧ check.rows = rows := by
  obtain ⟨g, ls, unchecked⟩ := Mach.uncheckAll_core ((fmtOfCode fmt.toNat).getD .fp32) x.part tiles m
  refine ⟨g, ls, ?record, ?check, ?effect, ⟨?code, ?cls, ?sev⟩, ?die, ?inst, ?rows⟩
  case effect =>
    rw [← unchecked]
    simp only [residueMismatch, event, running, array]
    rw [Ctx.logR_plain _ (by rfl)]
    rfl
  all_goals rfl

/-- The first fault of a step, or the second, starts a local replay up to the cycle of detection (10 R356). -/
theorem Job.detect_starts {j : Job} (fresh : j.replay = none) (few : (j.verdict j.step).localFaults < 2) (cycle : Nat) :
    (j.detect cycle).replay = some { endBeat := j.beat, endCycle := cycle, begun := false, restarts := 0 } ∧ (j.detect cycle).checks = j.checks := by
  have below : ¬ 3 ≤ (j.verdict j.step).localFaults + 1 := by omega
  simp [Job.detect, below, Job.modVerdict, fresh]

theorem Job.detect_plan (cycle : Nat) (j : Job) : (j.detect cycle).plan = j.plan := by
  unfold Job.detect
  dsimp only
  split
  · rfl
  · split <;> rfl

section
variable (x : Ctx) (r : Rec) (check : PendingCheck) (cycle : Nat) {c : Core}

theorem Ctx.failArray_job {j : Job} (job : c.job? x.plan.handle = some j) (fresh : j.replay = none) (few : (j.verdict j.step).localFaults < 2) :
    ∃ k, (x.failArray r check cycle c).job? x.plan.handle = some k ∧
      k.replay = some { endBeat := j.beat, endCycle := cycle, begun := false, restarts := 0 } ∧ check ∈ k.checks := by
  have recorded : ((c.logRec r).modMx x.part (MxPart.mismatch 1 x.inst (check.rows.headD 0))).job? x.plan.handle = some j :=
    (Core.job?_congr (by simp) _).trans job
  obtain ⟨k, counted, vs, rfl, same⟩ := (Core.Recorded.countRows x.part x.inst check.rows _).jobs _ _ recorded
  have pending := Core.job?_modJob_self counted (f := fun j => { j with checks := j.checks ++ [check] }) fun _ => rfl
  have detected := Core.job?_modJob_self pending (Job.detect_plan cycle)
  obtain ⟨replay, checks⟩ := Job.detect_starts (j := { j with verdicts := vs, checks := j.checks ++ [check] }) fresh (same.trans_lt few) cycle
  exact ⟨_, detected, replay, by rw [checks]; simp⟩

theorem Ctx.failArray_log : c.stamped r ∈ (x.failArray r check cycle c).log.recs.take 3 := by
  refine (Core.Recorded.countRows x.part x.inst check.rows _).log _ 1 (by omega) ?_
  simp [Core.logRec_log, Log.push]

theorem Ctx.failArray_count (here : x.part < c.parts.length) :
    ((x.failArray r check cycle c).part x.part).mx.mismatchCount = satInc (c.part x.part).mx.mismatchCount := by
  refine ((Core.Recorded.countRows x.part x.inst check.rows _).counts x.part).trans ?_
  rw [Core.modMx, Core.part_modPart, if_pos ⟨rfl, by simpa using here⟩, Core.part_congr (Core.logRec_parts r c)]
  rfl

end

/-- Settles O23: `lateGather_running` for a late gather; for a failed check `residueMismatch_array`, and what `Ctx.failArray` leaves in job, log and counts. -/
theorem lateGatherAndFailedCheck : Obligations.LateGatherAndFailedCheck := by
  unfold Obligations.LateGatherAndFailedCheck
  refine ⟨fun plan lsid w s p j b admitted job bound running => ?_,
    fun plan lsid rows col mask fmt tiles cyc s p j b admitted job bound array here running fresh few => ?_⟩
  · obtain ⟨x, event, rfl, rfl, -, -⟩ := Core.eventCtx_of_bound (c := (startMach s).core) admitted job bound 0x70
    obtain ⟨t, run, core, mem, pwr, -⟩ := runM_of_eq (lateGather_running event running w)
    refine ⟨t, x.job.heldForGather lsid w.toNat, (startMach s).core.stamped x.lateGatherRec, run, mem, pwr, ?_, rfl, le_max_right _ _, ?_, rfl, rfl, rfl⟩
    · rw [core]
      exact Ctx.holdForGather_job (c := (startMach s).core) job lsid w.toNat
    · rw [core]
      exact x.holdForGather_log lsid w.toNat _ ▸ Log.push_head _ _
  · obtain ⟨x, event, rfl, rfl, inst, die⟩ := Core.eventCtx_of_bound (c := (startMach s).core) admitted job bound 0
    have notCollective : lsScode lsid ≠ 6 := by simp [array]
    have die : x.part = b.die := die notCollective
    obtain ⟨g, ls, r, check, failed, ⟨code, cls, sev⟩, checkDie, checkInst, checkRows⟩ :=
      residueMismatch_array event running array rows col mask fmt tiles cyc
    obtain ⟨t, run, core, -, pwr, -⟩ := runM_of_eq (f := residueMismatch x.plan.handle lsid rows col mask fmt tiles cyc) (s := s) rfl
    rw [failed] at core
    obtain ⟨k, after, replay, pending⟩ := x.failArray_job r check cyc.toNat (c := { (startMach s).core with gens := g, commonsLines := ls }) job fresh few
    refine ⟨t, k, Core.stamped { (startMach s).core with gens := g, commonsLines := ls } r,
      (exec_residueMismatch notCollective ..).trans run, pwr, ?_, replay,
      ⟨check, pending, checkDie.trans die, checkInst.trans inst, checkRows⟩, ?_, code, cls, sev, ?_⟩
    · rw [core]
      exact after
    · rw [core]
      exact x.failArray_log r check cyc.toNat
    · rw [core, ← die]
      exact x.failArray_count r check cyc.toNat (die ▸ here)

end Sys2Proof.Machine
end

section
/-!
Station words (04 R95, R96, 05 R129): a bit field of a concatenation lies in the part that covers it, so each field of a word reads what its encoding put there.
O19 is this for every field of the header and of the nine classes of fields; O20 reads single words.
-/

namespace Sys2Proof.Machine

/-! ### Bits of a word -/

/-- A part of a concatenation from its lowest bit on is the whole of it. -/
theorem extractLsb'_whole {n lo : Nat} (h : lo = 0) (x : BitVec n) : x.extractLsb' lo n = x := by
  subst h
  exact BitVec.extractLsb'_eq_self

theorem bit1_eq_bits (w : BitVec 256) (k : Nat) : bit1 w k = (bits w k 1).getLsbD 0 := by simp [bit1, bits]

theorem ofBool_getLsbD_zero (b : Bool) : (BitVec.ofBool b).getLsbD 0 = b := by simp

section
variable (i : StnWord) {lo len : Nat}

theorem bits_encodeStn_header (h : lo + len ≤ 68) : bits (encodeStn i) lo len = (hdrBits i.hdr i.scode i.opc).extractLsb' lo len :=
  BitVec.extractLsb'_append_eq_of_add_le h

theorem bits_encodeStn_fields (h : 68 ≤ lo) : bits (encodeStn i) lo len = (fieldBits i.f).extractLsb' (lo - 68) len :=
  BitVec.extractLsb'_append_eq_of_le h

/-! ### The header -/

/-- SCODE, OPC and the rest of Table 04-6 read back. -/
theorem header_encodeStn : bits (encodeStn i) 8 4 = i.scode ∧ bits (encodeStn i) 0 8 = i.opc ∧ hdrOf (encodeStn i) = i.hdr := by
  simp (disch := decide) only [hdrOf, bit1_eq_bits, bits_encodeStn_header, hdrBits, BitVec.extractLsb'_append_eq_of_add_le,
    BitVec.extractLsb'_append_eq_of_le, extractLsb'_whole, ofBool_getLsbD_zero, and_self]

/-! ### The fields above the header -/

/-- The fields of a class stand in the word, and the bits above them are 0 (R95). -/
def StnF.standsIn (w : BitVec 256) : StnF → Prop
  | .none => bits w 68 188 = 0
  | .range f => bits w 114 142 = 0 ∧ rangeOf w = f
  | .mma f => bits w 252 4 = 0 ∧ mmaOf w = f
  | .vload f => bits w 122 134 = 0 ∧ vloadOf w = f
  | .mv f => bits w 177 79 = 0 ∧ mvOf w = f
  | .vec f => vecOf w = f
  | .gather f => bits w 68 2 = 0 ∧ gatherOf w = f
  | .xfer f => bits w 72 9 = 0 ∧ xferOf w = f
  | .coll f => bits w 234 22 = 0 ∧ collOf w = f

theorem fields_standIn_encodeStn : i.f.standsIn (encodeStn i) := by
  cases fields : i.f <;>
    simp (disch := decide) only [StnF.standsIn, rangeOf, mmaOf, vloadOf, mvOf, vecOf, gatherOf, xferOf, collOf, bit1_eq_bits, bits_encodeStn_fields, fields,
      fieldBits, BitVec.extractLsb'_append_eq_of_add_le, BitVec.extractLsb'_append_eq_of_le, extractLsb'_whole, ofBool_getLsbD_zero, and_self]

end

/-- Fields that stand in a word, of the class of its SCODE and opcode, are the ones decoded. -/
theorem StnF.standsIn.fieldsOf_eq {f : StnF} {w : BitVec 256} (stands : f.standsIn w) {scode opc : Nat} (fits : f.fits scode opc = true) :
    fieldsOf w scode opc = some f := by
  cases f with
  | none =>
    obtain rfl : opc = 0 := by simpa [StnF.fits] using fits
    simp [fieldsOf, show bits w 68 188 = 0 from stands]
  | range f =>
    obtain ⟨zero, rfl⟩ := stands
    have small : opc = 1 ∨ opc = 2 := by simpa [StnF.fits] using fits
    rcases small with rfl | rfl <;> simp [fieldsOf, zero]
  | mma f =>
    obtain ⟨zero, rfl⟩ := stands
    obtain ⟨rfl, rfl⟩ : scode = 1 ∧ opc = 0x10 := by simpa [StnF.fits] using fits
    simp [fieldsOf, zero]
  | vload f =>
    obtain ⟨zero, rfl⟩ := stands
    obtain ⟨rfl, rfl⟩ : scode = 2 ∧ opc = 0x20 := by simpa [StnF.fits] using fits
    simp [fieldsOf, zero]
  | mv f =>
    obtain ⟨zero, rfl⟩ := stands
    obtain ⟨rfl, rfl⟩ : scode = 2 ∧ opc = 0x21 := by simpa [StnF.fits] using fits
    simp [fieldsOf, zero]
  | vec f =>
    obtain rfl : vecOf w = f := stands
    obtain ⟨rfl, listed⟩ : scode = 3 ∧ vecListed opc = true := by simpa [StnF.fits] using fits
    have big : ¬ opc ≤ 2 := by
      rintro h
      interval_cases opc <;> simp [vecListed, inRange] at listed
    simp [fieldsOf, big, show opc ≠ 0 by omega]
  | gather f =>
    obtain ⟨zero, rfl⟩ := stands
    obtain ⟨rfl, rfl⟩ : scode = 4 ∧ opc = 0x70 := by simpa [StnF.fits] using fits
    simp [fieldsOf, zero]
  | xfer f =>
    obtain ⟨zero, rfl⟩ := stands
    obtain ⟨rfl, rfl⟩ : scode = 5 ∧ opc = 0x80 := by simpa [StnF.fits] using fits
    simp [fieldsOf, zero]
  | coll f =>
    obtain ⟨zero, rfl⟩ := stands
    obtain ⟨rfl, lo, hi⟩ : scode = 6 ∧ 0x90 ≤ opc ∧ opc < 0x90 + 7 := by simpa [StnF.fits, inRange] using fits
    simp [fieldsOf, zero, show ¬ opc ≤ 2 by omega, show opc ≠ 0 by omega]

/-- Settles O19: header and fields of the encoding read back, and the opcode picks the class of the fields. -/
theorem stationWordsRoundTrip : Obligations.StationWordsRoundTrip := by
  unfold Obligations.StationWordsRoundTrip
  intro i wf
  obtain ⟨listed, fits⟩ : opcListed i.scode.toNat i.opc.toNat = true ∧ i.f.fits i.scode.toNat i.opc.toNat = true := by simpa [StnWord.wf] using wf
  obtain ⟨scode, opc, hdr⟩ := header_encodeStn i
  simp [decodeStn, scode, opc, hdr, listed, (fields_standIn_encodeStn i).fieldsOf_eq fits]

/-- Settles O20: each word is read bit by bit. -/
theorem stationWordBitsOfTables : Obligations.StationWordBitsOfTables := by
  unfold Obligations.StationWordBitsOfTables
  decide

end Sys2Proof.Machine
end

section
/-!
The vector stations, XFER, GATHER and the collectives at their ISSUE cycle (04 R102, R104, R111, 05 R126, R131, 09 R302), and where the compute stations of a die
write (04 R94, 07 R206).
-/

namespace Sys2Proof.Machine

/-! ### Instructions that run -/

/-- A vector command is the run of its opcode. -/
theorem exec_of_vecRow {i : Instr} {opc : Nat} {st : Stn} {h : Hdr} {f : VecF} (row : vecRow i = some (opc, st, h, f)) (s : State) :
    exec i s = runM (vecRun opc false i st h f) s := by
  unfold vecRow at row
  split at row <;> cases row <;> rfl

/-- A collective whose partners' data are there is the run of its opcode. -/
theorem exec_of_collRow {i : Instr} {opc : Nat} {st : Stn} {h : Hdr} {f : CollF} {ps : List PeerData} (row : collRow i = some (opc, st, h, f, ps)) {s : State}
    (there : (startMach s).collReady st f opc ps = true) :
    exec i s = runM (issueWith false i st h f opc collSub (collSpec opc) (collBody opc ps)) s := by
  have starts : exec i s = runM (collRun opc false i st h f ps) s := by
    unfold collRow at row
    split at row <;> cases row <;> rfl
  rw [starts]
  simp only [runM, collRun, there, if_true]

/-- Settles O6: a vector command runs its own opcode, by `runM_issueWith`. -/
theorem vectorInstructionRuns : Obligations.VectorInstructionRuns := by
  unfold Obligations.VectorInstructionRuns
  intro i opc st h f s x tok row issues
  rw [exec_of_vecRow row]
  exact runM_issueWith (spec := vecSpec opc) issues

/-- Settles O8: `runM_issueWith` with the specification and the body of each. -/
theorem transferGatherAndCollectivesRun : Obligations.TransferGatherAndCollectivesRun := by
  unfold Obligations.TransferGatherAndCollectivesRun
  refine ⟨fun st h g f s x tok header issues => ?_, fun st h f s x tok issues => runM_issueWith (spec := fun _ => gatherSpec f) issues,
    fun i opc st h f ps s x tok row there issues => ?_⟩
  · subst header
    exact runM_issueWith (spec := xferSpec) issues
  · rw [exec_of_collRow row there]
    exact runM_issueWith (spec := collSpec opc) issues

/-! ### Where the compute stations write -/

/-- An instruction that finds no memory error and whose body writes only station memory of a die writes no other byte. -/
theorem runM_issueWith_onDie {F : Type} {i : Instr} {st : Stn} {h : Hdr} {f : F} {opc : Nat} {sub : F → Nat → Option F} {spec : Mach → Ctx → F → StnSpec}
    {body : F → Ctx → Bool → Mach → Bool × Mach} {s : State} {x : Ctx} {tok : Option Token}
    (issues : Issues (startMach s) st h opc (spec ((startMach s).reach st.plan h.issue.toNat) x f) x tok) (clean : st.found = [])
    (own : ∀ q m, Mach.Ext (onDieWr x.part) m (body f x q m).2) :
    ∃ t, runM (issueWith false i st h f opc sub spec body) s = .next t ∧ (∀ k, ¬onDie x.part k → memByte t.mem k = memByte s.mem k) ∧
      (Memory.wf s.mem = true → Memory.wf t.mem = true) := by
  have writes : Mach.Ext (onDieWr x.part) (startMach s) (issueWith false i st h f opc sub spec body (startMach s)) := by
    rw [issueWith_runs issues]
    exact (Mach.Ext.up _ _).trans (x.runStn_ext st h _ tok (body f) _ clean own)
  exact ⟨_, runM_ext writes, fun k outside => writes.byte k fun w on => onDieWr_outside on k outside, writes.wf⟩

/-- Settles O9: the bodies of the vector stations, the arrays and the thin stations write only their own die. -/
theorem computeStationsWriteOnlyTheirDie : Obligations.ComputeStationsWriteOnlyTheirDie := by
  unfold Obligations.ComputeStationsWriteOnlyTheirDie
  intro i opc st h sp s x tok clean kind issues
  rcases kind with ⟨f, row, rfl⟩ | ⟨f, rfl, rfl, rfl⟩ | ⟨f, rfl, rfl, rfl⟩ | ⟨f, rfl, rfl, rfl⟩
  · rw [exec_of_vecRow row]
    exact runM_issueWith_onDie (spec := vecSpec opc) issues clean fun q m => vecBody_ext opc f x q m
  · exact runM_issueWith_onDie (spec := fun _ => mmaSpec) issues clean fun q m => mmaBody_ext f x q m
  · exact runM_issueWith_onDie (spec := fun _ => vloadSpec) issues clean fun q m => vloadBody_ext f x q m
  · exact runM_issueWith_onDie (spec := fun _ => mvSpec) issues clean fun q m => mvBody_ext f x q m

end Sys2Proof.Machine
end

section
/-!
A tile written and read back (04 R86 to R93). The bytes of a trailer hold each of its fields, those of a block its element codes; station memory gives back the
bytes and the poison bits written; so every check of R93 finds what the writer put there. O18 is this for a tile of any format.
-/

namespace Sys2Proof.Machine

/-! ### Numbers as bytes, and parts of byte strings -/

@[simp] theorem length_bytesLE (k n : Nat) : (bytesLE k n).length = k := by
  induction k generalizing n with
  | zero => rfl
  | succ k ih => simp [bytesLE, ih]

theorem natLE_bytesLE (k n : Nat) : natLE (bytesLE k n) = n % 256 ^ k := by
  induction k generalizing n with
  | zero => simp [bytesLE, natLE, Nat.mod_one]
  | succ k ih => rw [bytesLE, natLE, ih, BitVec.toNat_ofNat, show (2 : Nat) ^ 8 = 256 from rfl, pow_succ', Nat.mod_mul]

theorem natLE_bytesLE_of_lt {k n : Nat} (h : n < 256 ^ k) : natLE (bytesLE k n) = n := by rw [natLE_bytesLE, Nat.mod_eq_of_lt h]

/-- A word of at most `k` bytes is read back from them. -/
theorem ofNat_natLE_bytesLE {w k : Nat} (h : w ≤ 8 * k) (v : BitVec w) : BitVec.ofNat w (natLE (bytesLE k v.toNat)) = v := by
  have fits : v.toNat < 256 ^ k := by
    rw [show 256 = 2 ^ 8 from rfl, ← pow_mul]
    exact v.isLt.trans_le (Nat.pow_le_pow_right two_pos h)
  rw [natLE_bytesLE_of_lt fits, BitVec.ofNat_toNat, BitVec.setWidth_eq]

theorem natLE_singleton (b : Byte) : natLE [b] = b.toNat := by simp [natLE]

section
variable {a b : List Byte} {i n : Nat}

theorem slice_append_left (h : i + n ≤ a.length) : slice (a ++ b) i n = slice a i n := by
  rw [slice, slice, List.drop_append_of_le_length (by omega), List.take_append_of_le_length (by rw [List.length_drop]; omega)]

theorem slice_append_right (h : a.length ≤ i) : slice (a ++ b) i n = slice b (i - a.length) n := by
  rw [slice, slice, List.drop_append, List.drop_of_length_le h, List.nil_append]

theorem slice_whole (hi : i = 0) (hn : a.length = n) : slice a i n = a := by simp [slice, hi, ← hn]

end

/-- Strings of one length laid end to end: the `i`-th of them. -/
theorem slice_flatten {n : Nat} {l : List (List Byte)} (h : ∀ s ∈ l, s.length = n) {i : Nat} (hi : i < l.length) : slice l.flatten (i * n) n = l[i] := by
  induction l generalizing i with
  | nil => simp at hi
  | cons s r ih =>
    have first : s.length = n := h s (by simp)
    rw [List.flatten_cons]
    cases i with
    | zero => rw [slice_append_left (by omega), slice_whole (by omega) first, List.getElem_cons_zero]
    | succ i =>
      have rest : (i + 1) * n - s.length = i * n := by rw [first, Nat.succ_mul, Nat.add_sub_cancel]
      rw [slice_append_right (by rw [first]; exact Nat.le_mul_of_pos_left n i.succ_pos), rest,
        ih (fun t ht => h t (by simp [ht])) (by simpa using hi), List.getElem_cons_succ]

/-! ### CRC-32C is a number of 32 bits -/

theorem crcBit_lt {c : Nat} (h : c < 2 ^ 32) : crcBit c < 2 ^ 32 := by
  have half : c >>> 1 < 2 ^ 32 := by rw [Nat.shiftRight_eq_div_pow]; omega
  unfold crcBit
  split
  · exact Nat.xor_lt_two_pow half (by norm_num)
  · exact half

theorem crcByte_lt {c : Nat} (h : c < 2 ^ 32) (b : Byte) : crcByte c b < 2 ^ 32 := by
  have byte : b.toNat < 2 ^ 32 := b.isLt.trans (by norm_num)
  unfold crcByte
  iterate 8 refine crcBit_lt ?_
  exact Nat.xor_lt_two_pow h byte

theorem crc32c_lt (bs : List Byte) : crc32c bs < 2 ^ 32 := by
  have main : ∀ c < 2 ^ 32, bs.foldl crcByte c < 2 ^ 32 := by
    induction bs with
    | nil => exact fun c h => h
    | cons b r ih => exact fun c h => ih _ (crcByte_lt h b)
  exact Nat.xor_lt_two_pow (main _ (by norm_num)) (by norm_num)

/-! ### The trailer's bytes -/

section
variable {t : Trailer}

theorem length_trailerBody (t : Trailer) : (trailerBody t).length = 60 := by simp [trailerBody, padTo_length]

theorem length_trailerBytes (t : Trailer) : (trailerBytes t).length = 64 := by simp [trailerBytes, length_trailerBody]

/-- TCRC matches (R91). -/
theorem tcrcOk_trailerBytes (t : Trailer) : tcrcOk (trailerBytes t) = true := by
  have body : slice (trailerBytes t) 0 60 = trailerBody t := by
    rw [trailerBytes, slice_append_left (by rw [length_trailerBody]), slice_whole rfl (length_trailerBody t)]
  have crc : slice (trailerBytes t) 60 4 = bytesLE 4 (crc32c (trailerBody t)) := by
    rw [trailerBytes, slice_append_right (by rw [length_trailerBody]), slice_whole (by rw [length_trailerBody]) (length_bytesLE _ _)]
  simp [tcrcOk, fieldAt, body, crc, natLE_bytesLE_of_lt (show crc32c (trailerBody t) < 256 ^ 4 from crc32c_lt _)]

/-- FMT, ORIENT and the flags in one byte (Table 04-2). -/
theorem trailer_flag_byte (fmt : BitVec 4) (o p c u : Bool) :
    let b := (BitVec.ofNat 8 (fmt.toNat + 16 * boolNat o + 32 * boolNat p + 64 * boolNat c + 128 * boolNat u)).toNat
    BitVec.ofNat 4 b = fmt ∧ bitOf b 4 = o ∧ bitOf b 5 = p ∧ bitOf b 6 = c ∧ bitOf b 7 = u := by
  revert fmt o p c u
  decide

/-- Every field of a trailer reads back (Table 04-2). -/
theorem trailerOf_trailerBytes (scale : t.scale.length = 32) : trailerOf (trailerBytes t) = t := by
  have padded : padTo 32 t.scale = t.scale := by simp [padTo, ← scale]
  obtain ⟨fmt, orient, poison, checked, unsealed⟩ := trailer_flag_byte t.fmt t.orient t.poison t.checked t.unsealed
  have tenant : BitVec.ofNat 8 t.tenant.toNat = t.tenant := by simp
  simp (disch := simp [scale]) only [trailerOf, trailerBytes, trailerBody, padded, List.append_assoc, fieldAt, slice_append_left, slice_append_right, slice_whole,
    natLE_singleton, ofNat_natLE_bytesLE, fmt, orient, poison, checked, unsealed, tenant]

end

/-! ### The blocks of a tile -/

/-- The codes of a block packed at `w` bits each: their number, and each of them read back (R28). -/
theorem packElems_lt (w : Nat) (cs : List Nat) : packElems w cs < 2 ^ (w * cs.length) := by
  induction cs with
  | nil => simp [packElems]
  | cons c r ih =>
    have low : c % 2 ^ w < 2 ^ w := Nat.mod_lt _ (by positivity)
    have rest : packElems w r + 1 ≤ 2 ^ (w * r.length) := ih
    calc packElems w (c :: r) = c % 2 ^ w + 2 ^ w * packElems w r := rfl
      _ < 2 ^ w * (packElems w r + 1) := by rw [Nat.mul_succ]; omega
      _ ≤ 2 ^ w * 2 ^ (w * r.length) := Nat.mul_le_mul_left _ rest
      _ = 2 ^ (w * (c :: r).length) := by rw [← pow_add, List.length_cons, Nat.mul_succ, Nat.add_comm]

theorem field_packElems {w : Nat} {cs : List Nat} (fits : ∀ c ∈ cs, c < 2 ^ w) {i : Nat} (hi : i < cs.length) : field (packElems w cs) (w * i) w = cs[i] := by
  induction cs generalizing i with
  | nil => simp at hi
  | cons c r ih =>
    have packed : packElems w (c :: r) = c + 2 ^ w * packElems w r := by
      rw [← Nat.mod_eq_of_lt (fits c (by simp))]
      simp [packElems]
    have small : c < 2 ^ w := fits c (by simp)
    rw [packed, field, Nat.shiftRight_eq_div_pow]
    cases i with
    | zero => simp [Nat.mod_eq_of_lt small]
    | succ i =>
      have next := ih (fun c hc => fits c (by simp [hc])) (i := i) (by simpa using hi)
      rw [field, Nat.shiftRight_eq_div_pow] at next
      rw [Nat.mul_succ, Nat.add_comm (w * i), pow_add, ← Nat.div_div_eq_div_mul, Nat.add_mul_div_left _ _ (by positivity), Nat.div_eq_of_lt small, zero_add, next]
      rfl

section
variable {f : Fmt} {bs : List Block}

theorem length_blocksScale (h : bs.length = 32) (an : Nat) : (blocksScale f an bs).length = 32 := by
  unfold blocksScale
  split
  · simpa using h
  · split <;> simp

theorem length_blocksData (h : bs.length = 32) : (blocksData f bs).length = 64 * (2 * elemBits f) := by
  have lengths : (bs.map fun b => bytesLE (blockBytes f) (packElems (elemBits f) b.codes)).map List.length = List.replicate 32 (blockBytes f) := by
    rw [List.eq_replicate_iff]
    simp [h]
  rw [blocksData, List.length_flatten, lengths, List.sum_replicate, smul_eq_mul, blockBytes]
  ring

/-- A block of a tile that fits its format reads back (R28, R86, R89). -/
theorem tileBlock_blocksData (fits : tileFits f bs) (an : Nat) {i : Nat} (hi : i < bs.length) :
    tileBlock f (blocksData f bs) (blocksScale f an bs) i = bs[i] := by
  obtain ⟨count, blocks⟩ := fits
  obtain ⟨codes, small, scale⟩ := blocks bs[i] (List.getElem_mem hi)
  have packed : packElems (elemBits f) bs[i].codes < 256 ^ blockBytes f := by
    have h := packElems_lt (elemBits f) bs[i].codes
    rw [codes] at h
    rw [show 256 = 2 ^ 8 from rfl, ← pow_mul, blockBytes]
    exact h.trans_le (Nat.pow_le_pow_right two_pos (by omega))
  have data : natLE (slice (blocksData f bs) (i * blockBytes f) (blockBytes f)) = packElems (elemBits f) bs[i].codes := by
    rw [blocksData, slice_flatten (by simp) (by simpa using hi), List.getElem_map, natLE_bytesLE_of_lt packed]
  have elements : tabulate 32 (blockElem f (packElems (elemBits f) bs[i].codes)) = bs[i].codes :=
    List.ext_getElem (by simp [tabulate, codes]) fun k _ hk => by simpa [tabulate, blockElem] using field_packElems small hk
  have scaled : (if isMx f then ((blocksScale f an bs).getD i 0).toNat else 0) = bs[i].scale := by
    by_cases mx : isMx f
    · simp only [mx, if_true] at scale ⊢
      simp [blocksScale, mx, hi, Nat.mod_eq_of_lt scale]
    · simp only [mx] at scale ⊢
      exact scale.symm
  simp only [tileBlock, data, elements, scaled]

theorem tileBlocks_blocksData (fits : tileFits f bs) (an : Nat) : tileBlocks f (blocksData f bs) (blocksScale f an bs) = bs :=
  List.ext_getElem (by simp [tileBlocks, tabulate, fits.1]) fun i _ hi => by simpa [tileBlocks, tabulate] using tileBlock_blocksData fits an hi

end

/-! ### What the memory gives back -/

/-- An extension whose writes may go to no key has written nothing. -/
theorem Mach.Ext.mem_eq {m m' : Mach} (h : Mach.Ext (fun _ => False) m m') : m'.mem = m.mem := by
  obtain ⟨-, ws, -, mem, none⟩ := h
  obtain rfl : ws = [] := List.eq_nil_iff_forall_not_mem.2 none
  exact mem

@[simp] theorem Ctx.poisonGuarded_parts (x : Ctx) (m : Mach) : (x.poisonGuarded m).core.parts = m.core.parts := by
  unfold Ctx.poisonGuarded
  dsimp only
  split
  · rfl
  · split
    · rfl
    · split
      · simp
      · rfl

@[simp] theorem Ctx.guard_parts (x : Ctx) (sp lp a n : Nat) (q : Bool) (m : Mach) : (x.guard sp lp a n q m).core.parts = m.core.parts := by
  unfold Ctx.guard
  split
  · rfl
  · split
    · exact x.poisonGuarded_parts m
    · rfl

theorem Core.smUnits_congr {c d : Core} (h : c.parts = d.parts) (p a n : Nat) : c.smUnits p a n = d.smUnits p a n := by
  simp only [Core.smUnits, Core.smUnit_parts h]

/-- No unit of station memory just written is poisoned. -/
theorem Mach.anyBad_putSm (p a : Nat) {n : Nat} {bs : List Byte} (h : bs.length = 64 * n) (m : Mach) :
    (m.putSm p a bs false).anyBad (m.core.smUnits p a n) = false := by
  simp only [Mach.anyBad, List.any_eq_false, Bool.not_eq_true]
  intro k hk
  obtain ⟨i, hi, rfl⟩ := List.mem_map.1 hk
  rw [Mach.bad, Mach.putSm_eq, Core.smPieces_eq _ p a h]
  exact Mach.putPieces_poison_inside _ false m _ (.inl ⟨_, List.mem_map_of_mem hi, rfl⟩)

/-! ### A tile written -/

section
variable (x : Ctx) (p a : Nat) {n : Nat} {data : List Byte} (t : Trailer) {m : Mach}

theorem length_tile_bytes (h : data.length = 64 * n) : (data ++ trailerBytes t).length = 64 * (n + 1) := by
  rw [List.length_append, h, length_trailerBytes, Nat.mul_succ]

theorem Ctx.putTile_parts : (x.putTile p a data t m).core.parts = m.core.parts := by
  simp [Ctx.putTile, Mach.putSm_parts]

theorem Ctx.putTile_mem : (x.putTile p a data t m).mem = (m.putSm p a (data ++ trailerBytes t) false).mem :=
  (x.guard_ext _ _ _ _ _ _).mem_eq

/-- The units of a tile just written hold its data and its trailer, and none of them is poisoned. -/
theorem Ctx.putTile_reads (h : data.length = 64 * n) (small : n < 2 ^ 23) (wf : Memory.wf m.mem = true) :
    let m' := x.putTile p a data t m
    m'.units (m'.core.smUnits p a (n + 1)) = data ++ trailerBytes t ∧ m'.anyBad (m'.core.smUnits p a (n + 1)) = false := by
  have bytes := length_tile_bytes t h
  have keys := Core.smUnits_congr (x.putTile_parts p a t (data := data) (m := m)) p a (n + 1)
  have sameUnit : (x.putTile p a data t m).unit = (m.putSm p a (data ++ trailerBytes t) false).unit := by
    funext k
    simp only [Mach.unit, x.putTile_mem]
  have sameBad : (x.putTile p a data t m).bad = (m.putSm p a (data ++ trailerBytes t) false).bad := by
    funext k
    simp only [Mach.bad, x.putTile_mem]
  have written := Mach.sm_putSm p a false m bytes small wf
  have sound := Mach.anyBad_putSm p a bytes m
  rw [Mach.sm, Core.smUnits_congr (Mach.putSm_parts p a _ false m)] at written
  refine ⟨?_, ?_⟩
  · rw [keys, ← written]
    simp only [Mach.units, sameUnit]
  · rw [keys, ← sound]
    simp only [Mach.anyBad, sameBad]

end

/-! ### The checks of a tile (R93) -/

theorem fmtCode_toNat (f : Fmt) : (BitVec.ofNat 4 (fmtCode f)).toNat = fmtCode f := by cases f <;> rfl

/-- A trailer that a station wrote for this tenant, format and orientation passes every check. -/
theorem tileChecks_pass {t : Trailer} (scale : t.scale.length = 32) {f : Fmt} {data : List Byte} (fmt : t.fmt = BitVec.ofNat 4 (fmtCode f))
    (residue : t.residue = residueOf f data) :
    tileChecks t.tenant f (some t.orient) data (trailerBytes t) = { tenantBad := false, crcBad := false, residueBad := false, formatBad := false } := by
  have code : (t.fmt.toNat == fmtCode f) = true := by rw [fmt, fmtCode_toNat, beq_self_eq_true]
  simp [tileChecks, trailerOf_trailerBytes scale, tcrcOk_trailerBytes, code, residue]

theorem Ctx.tileOutcome_pass (x : Ctx) (u : Bool) (ks : List Nat) (d : List Byte) (m : Mach) :
    x.tileOutcome { tenantBad := false, crcBad := false, residueBad := false, formatBad := false } u ks d m = m := rfl

/-- What a read gives of a tile whose units hold a station's data and trailer (R93). -/
theorem Ctx.readTileAt_pass (x : Ctx) {f : Fmt} {t : Trailer} {data : List Byte} {keys : List Nat} {m : Mach} (bytes : m.units keys = data ++ trailerBytes t)
    (sound : m.anyBad keys = false) (length : data.length = tileDataBytes f) (scale : t.scale.length = 32) (tenant : t.tenant = x.tenant)
    (fmt : t.fmt = BitVec.ofNat 4 (fmtCode f)) (residue : t.residue = residueOf f data) :
    x.readTileAt f (some t.orient) keys m =
      ({ blocks := tileBlocks f data t.scale, trailer := t, poison := t.poison, checked := t.checked,
         unsealed := t.unsealed && (!x.job.sealedValid || stepLater t.step x.job.lastSealed) }, m) := by
  have pass := tileChecks_pass scale fmt residue
  rw [tenant] at pass
  simp [Ctx.readTileAt, bytes, ← length, pass, Ctx.tileOutcome_pass, trailerOf_trailerBytes scale, sound]

/-- Settles O18: the units of the tile hold what was written (`putTile_reads`), so every check passes, and blocks and fields read back. -/
theorem tileReadsBackAsWritten : Obligations.TileReadsBackAsWritten := by
  unfold Obligations.TileReadsBackAsWritten
  intro x f o r c po ch un an bs p a m wf rows cols anchor fits
  have length : (blocksData f bs).length = 64 * (2 * elemBits f) := length_blocksData fits.1
  have scale : (blocksScale f an bs).length = 32 := length_blocksScale fits.1 an
  obtain ⟨bytes, sound⟩ := x.putTile_reads p a (x.trailer f o r c po ch un (blocksScale f an bs) (blocksData f bs)) length
    (by cases f <;> decide) wf
  have read : x.readTile f (some o) p a (x.writeTile f o r c po ch un an bs p a m) = _ :=
    x.readTileAt_pass bytes sound (by rw [length, tileDataBytes]; ring) scale rfl rfl rfl
  intro m'
  rw [show x.readTile f (some o) p a m' = _ from read]
  refine ⟨rfl, tileBlocks_blocksData fits an, rfl, rfl, rfl, ?_, ?_, rfl, rfl⟩
  · exact Nat.mod_eq_of_lt rows
  · exact Nat.mod_eq_of_lt cols

end Sys2Proof.Machine
end

section
/-!
NOP, POST and RELEASE (04 R96, R97, R110, R111, R124): their effect on the core alone, and what it leaves of channels, fence slots and the job. O10 to O13 are
these rules at the instruction's own die and job.
-/

namespace Sys2Proof.Machine

/-! ### Channels of a die -/

/-- An association list with the value of one key changed. -/
theorem lookup?_map_key {β : Type} (ch k : Nat) (g : β → β) (l : List (Nat × β)) :
    lookup? k (l.map fun e => if e.1 == ch then (e.1, g e.2) else e) = if k = ch then (lookup? k l).map g else lookup? k l := by
  induction l with
  | nil => simp [lookup?]
  | cons e r ih =>
    obtain ⟨k', v⟩ := e
    by_cases here : k' = ch
    · subst here
      by_cases same : k = k'
      · simp [lookup?, same]
      · simpa [lookup?, same, Ne.symm same] using ih
    · by_cases same : k = k'
      · simp [lookup?, same, here]
      · simpa [lookup?, here, Ne.symm same] using ih

/-- The streams of a die are those changed where the die is, and no others. -/
theorem Core.streams_modStreams (c : Core) (p q : Nat) (f : StreamPart → StreamPart) :
    ((c.modStreams p f).part q).streams = if p = q ∧ q < c.parts.length then f (c.part q).streams else (c.part q).streams := by
  rw [Core.modStreams, Core.part_modPart]
  split <;> rfl

theorem Core.streams_modStreams_self {c : Core} {p : Nat} (here : p < c.parts.length) (f : StreamPart → StreamPart) :
    ((c.modStreams p f).part p).streams = f (c.part p).streams := by
  rw [Core.streams_modStreams, if_pos ⟨rfl, here⟩]

/-- A die with a channel is one of the module's. -/
theorem Core.part_lt_of_chan {c : Core} {p k : Nat} {ch : ChanSt} (chan : lookup? k (c.part p).streams.chans = some ch) : p < c.parts.length := by
  by_contra beyond
  rw [Core.part, List.getD_eq_default _ _ (not_lt.mp beyond)] at chan
  contradiction

/-- A channel without its oldest token, which shows whether that was poisoned (R111, R122). -/
def ChanSt.pop (s : ChanSt) : ChanSt :=
  { s with tokens := s.tokens.drop 1, poisonSeen := s.poisonSeen || s.tokens.head?.any fun t => t.poison }

/-- A channel with a token entered (R111, R122). -/
def ChanSt.push (t : Token) (s : ChanSt) : ChanSt := { s with tokens := s.tokens ++ [t], poisonSeen := s.poisonSeen || t.poison }

theorem Core.chan_popToken {c : Core} {p : Nat} (here : p < c.parts.length) (ch k : Nat) :
    lookup? k ((c.popToken p ch).part p).streams.chans =
      if k = ch then (lookup? k (c.part p).streams.chans).map ChanSt.pop else lookup? k (c.part p).streams.chans := by
  rw [Core.popToken, Core.streams_modStreams_self here]
  exact lookup?_map_key ch k ChanSt.pop _

theorem Core.fences_popToken (c : Core) (p ch q : Nat) : ((c.popToken p ch).part q).streams.fences = (c.part q).streams.fences := by
  rw [Core.popToken, Core.streams_modStreams]
  split <;> rfl

/-- A token enters a channel that has space. -/
theorem Core.pushToken_of_space {c : Core} {p k : Nat} {s : ChanSt} (chan : lookup? k (c.part p).streams.chans = some s)
    (space : s.tokens.length < s.depth.toNat) (t : Token) :
    c.pushToken p k t = (true, c.modStreams p fun q => { q with chans := insertKey k (s.push t) q.chans }) := by
  simp only [Core.pushToken, chan, space, if_true]
  rfl

theorem Core.chan_pushToken {c : Core} {p k : Nat} {s : ChanSt} (chan : lookup? k (c.part p).streams.chans = some s)
    (space : s.tokens.length < s.depth.toNat) (t : Token) :
    lookup? k ((c.pushToken p k t).2.part p).streams.chans = some (s.push t) := by
  rw [Core.pushToken_of_space chan space, Core.streams_modStreams_self (Core.part_lt_of_chan chan)]
  exact lookup?_insertKey_self _ _ _

/-! ### The run of an instruction of every station -/

/-- The job's account of an instruction's entries and of the ranges it writes. -/
def Ctx.entered (x : Ctx) (sp : StnSpec) (j : Job) : Job :=
  { j with accept := insertKey x.lsid (x.issue + sp.entryEnd) j.accept, ripening := j.ripening ++ x.ripens sp }

/-- The job's account of an instruction that has run. -/
def Ctx.finished (x : Ctx) (h : Hdr) (endCycle : Nat) (j : Job) : Job :=
  { j with done := if h.last && !(j.done.contains x.lsid) then j.done ++ [x.lsid] else j.done, runEnd := max j.runEnd endCycle, sched := max j.sched x.issue }

theorem Ctx.mem_done_finished (x : Ctx) {h : Hdr} (last : h.last = true) (e : Nat) (j : Job) : x.lsid ∈ (x.finished h e j).done := by
  by_cases noted : x.lsid ∈ j.done <;> simp [Ctx.finished, last, noted]

/-- The core when an instruction that reads no range and uses no bank has acted: it has taken its token, and `g` is its body's effect. -/
def Ctx.acted (x : Ctx) (h : Hdr) (sp : StnSpec) (g : Core → Core) (c : Core) : Core :=
  Core.modJob x.plan.handle (x.entered sp) (g (if h.wait then c.popToken x.part h.inCh.toNat else c))

/-- Its run: acting, then posting. -/
theorem Ctx.runStn_acted (x : Ctx) {st : Stn} (h : Hdr) {sp : StnSpec} (tok : Option Token) {body : Ctx → Bool → Mach → Bool × Mach} {g : Core → Core}
    (clean : st.found = []) (reads : sp.reads = []) (bank : sp.bank = none) (own : ∀ q m, body x q m = (false, m.up g)) (m : Mach) :
    x.runStn st h sp tok body m = x.finish h (x.issue + sp.dur + max (boolNat h.post) sp.after)
      (if h.post then x.postRange x.part h.outCh.toNat sp.token.1 sp.token.2 false (m.up (x.acted h sp g)) else m.up (x.acted h sp g)) := by
  unfold Ctx.runStn
  simp only [clean, reads, bank, own, Ctx.meet, Ctx.fences]
  cases wait : h.wait <;> simp [Ctx.acted, wait, Mach.up] <;> rfl

/-- What an instruction that reads no range and uses no bank answers: its run on the core alone, and what it posts. -/
theorem runM_issueWith_acted {F : Type} {i : Instr} {st : Stn} {h : Hdr} {f : F} {opc : Nat} {sub : F → Nat → Option F} {spec : Mach → Ctx → F → StnSpec}
    {body : F → Ctx → Bool → Mach → Bool × Mach} {s : State} {x : Ctx} {tok : Option Token} {sp : StnSpec} {g : Core → Core}
    (described : ∀ m, spec m x f = sp) (issues : Issues (startMach s) st h opc sp x tok)
    (clean : st.found = []) (reads : sp.reads = []) (bank : sp.bank = none) (own : ∀ q m, body f x q m = (false, m.up g))
    {post : Core → Core} (posts : ∀ m, m.core = x.acted h sp g ((startMach s).reach st.plan h.issue.toNat).core →
      (if h.post then x.postRange x.part h.outCh.toNat sp.token.1 sp.token.2 false m else m) = m.up post) :
    ∃ t e, runM (issueWith false i st h f opc sub spec body) s = .next t ∧ t.mem = s.mem ∧ t.pwr = s.pwr ∧
      t.core = (post (x.acted h sp g ((startMach s).reach st.plan h.issue.toNat).core)).modJob x.plan.handle (x.finished h e) := by
  obtain rfl : spec ((startMach s).reach st.plan h.issue.toNat) x f = sp := described _
  have effect := issueWith_runs (granted := false) (i := i) (sub := sub) (body := body) issues
  rw [x.runStn_acted h tok clean reads bank own, posts _ rfl] at effect
  obtain ⟨t, run, core, mem, pwr, -⟩ := runM_of_eq effect
  exact ⟨t, _, run, mem, pwr, core⟩

section
variable {s : State} {st : Stn} {h : Hdr} {opc : Nat} {sp : StnSpec} {x : Ctx} {tok : Option Token} (issues : Issues (startMach s) st h opc sp x tok)
include issues

theorem Issues.job : s.core.job? st.plan = some x.job := (Mach.ctx_some issues.context).1

theorem Issues.lsid : x.lsid = st.lsid := (Mach.ctx_some issues.context).2.2.1

theorem Issues.handle : x.plan.handle = st.plan := by
  have admitted := (Mach.ctx_some issues.context).2.1
  simpa using List.find?_some admitted

/-- The core that an issuing instruction acts on. -/
theorem Issues.reached : (((startMach s).reach st.plan h.issue.toNat).core).job? st.plan = some { x.job with sched := max x.job.sched h.issue.toNat } :=
  Core.job?_modJob_self (c := (startMach s).core) issues.job fun _ => rfl

/-- The job when an instruction has acted and posted, where its body makes of the job what `k` says. -/
theorem Issues.job_acted {g post : Core → Core} {k : Job → Job} (body : ∀ c j, c.job? st.plan = some j → (g c).job? st.plan = some (k j))
    (posts : ∀ c, (post c).jobs = c.jobs) (e : Nat) :
    ((post (x.acted h sp g ((startMach s).reach st.plan h.issue.toNat).core)).modJob x.plan.handle (x.finished h e)).job? st.plan =
      some (x.finished h e (x.entered sp (k { x.job with sched := max x.job.sched h.issue.toNat }))) := by
  rw [issues.handle]
  refine Core.job?_modJob_self ((Core.job?_congr (posts _) _).trans ?_) fun _ => rfl
  rw [Ctx.acted, issues.handle]
  refine Core.job?_modJob_self (body _ _ ?_) fun _ => rfl
  split
  · exact issues.reached
  · exact issues.reached

end

/-! ### NOP -/

/-- Settles O10: NOP acts by taking its token and no more (`runM_issueWith_acted`), and `chan_popToken` says what that leaves. -/
theorem nopTakesItsToken : Obligations.NopTakesItsToken := by
  unfold Obligations.NopTakesItsToken
  intro st h s x tok ch clean wait nopost issues chan
  obtain ⟨t, e, run, mem, pwr, core⟩ := runM_issueWith_acted (i := .nop st h) (f := ()) (sub := fun _ _ => some ()) (spec := fun _ _ _ => { opc := 0x00 })
    (body := fun _ _ _ m => (false, m)) (g := id) (post := id) (fun _ => rfl) issues clean rfl rfl (fun _ _ => rfl) (fun m _ => by simp [nopost, Mach.up])
  have chans : ∀ k, lookup? k (t.core.part x.part).streams.chans =
      if k = h.inCh.toNat then (lookup? k (s.core.part x.part).streams.chans).map ChanSt.pop else lookup? k (s.core.part x.part).streams.chans := by
    intro k
    rw [core, ← Core.chan_popToken (Core.part_lt_of_chan chan)]
    simp only [Ctx.acted, wait, if_true]
    rfl
  have job := issues.job_acted (g := id) (post := id) (k := id) (fun _ _ job => job) (fun _ => rfl) e
  rw [← core] at job
  refine ⟨t, ch.pop, _, run, mem, pwr, by simp [chans, chan], rfl, fun k other => by simp [chans, other], job, rfl, fun last => ?_⟩
  rw [← issues.lsid]
  exact x.mem_done_finished last e _

/-! ### POST -/

/-- The core with the completion token of an output range entered into its channel. -/
def Ctx.posted (x : Ctx) (p ch a n : Nat) (q : Bool) (c : Core) : Core := (c.fresh.2.pushToken p ch (x.token c.fresh.1 a n q)).2

theorem Ctx.postRange_of_space (x : Ctx) {p ch : Nat} {c : ChanSt} {m : Mach} (chan : lookup? ch (m.core.part p).streams.chans = some c)
    (space : c.tokens.length < c.depth.toNat) (a n : Nat) (q : Bool) : x.postRange p ch a n q m = m.up (x.posted p ch a n q) := by
  have entered := Core.pushToken_of_space (c := m.core.fresh.2) chan space (x.token m.core.fresh.1 a n q)
  simp only [Ctx.postRange, Ctx.postToken, Ctx.posted, entered, Mach.up, if_true]

theorem Core.pushToken_jobs (c : Core) (p k : Nat) (t : Token) : (c.pushToken p k t).2.jobs = c.jobs := by
  unfold Core.pushToken
  split
  · rfl
  · split <;> rfl

theorem Ctx.chan_posted (x : Ctx) {p ch : Nat} {c : Core} {s : ChanSt} (chan : lookup? ch (c.part p).streams.chans = some s)
    (space : s.tokens.length < s.depth.toNat) (a n : Nat) (q : Bool) :
    lookup? ch ((x.posted p ch a n q c).part p).streams.chans = some (s.push (x.token c.fresh.1 a n q)) :=
  Core.chan_pushToken (c := c.fresh.2) chan space _

/-- The token of a range that NTILES can hold names the range (R110). -/
theorem Ctx.token_range (x : Ctx) (w : BitVec 64) {a n : Nat} (nonempty : 1 ≤ n) (fits : n ≤ 4095) (q : Bool) :
    x.token w a n q = { beat := BitVec.ofNat 16 x.job.beat, poison := q, ntiles := BitVec.ofNat 12 n, addr := BitVec.ofNat 23 a } := by
  simp [Ctx.token, show n ≠ 0 by omega, show ¬ 4095 < n by omega]

/-- Settles O11: POST acts on nothing but the job's account, and its token enters OUT_CH (`postRange_of_space`). -/
theorem postNamesItsRange : Obligations.PostNamesItsRange := by
  unfold Obligations.PostNamesItsRange
  intro st h f s x ch clean nowait nonempty fits issues chan space
  have acted : ∀ sp, lookup? h.outCh.toNat ((x.acted { h with post := true } sp id ((startMach s).reach st.plan h.issue.toNat).core).part x.part).streams.chans =
      some ch := by
    intro sp
    simp only [Ctx.acted, nowait]
    exact chan
  obtain ⟨t, e, run, mem, pwr, core⟩ := runM_issueWith_acted (i := .post st h f) (f := f) (sub := rangeSub)
    (spec := fun _ x f => { opc := 0x01, ranges := [(2, x.lpart, f.base.toNat, f.len.toNat)], token := (f.base.toNat, f.len.toNat) })
    (body := fun _ _ _ m => (false, m)) (g := id) (post := x.posted x.part h.outCh.toNat f.base.toNat f.len.toNat false)
    (fun _ => rfl) issues clean rfl rfl (fun _ _ => rfl) (fun m same => x.postRange_of_space (by rw [same]; exact acted _) space _ _ _)
  have job := issues.job_acted (g := id) (post := x.posted x.part h.outCh.toNat f.base.toNat f.len.toNat false) (k := id) (fun _ _ job => job)
    (fun _ => Core.pushToken_jobs _ _ _ _) e
  rw [← core] at job
  have entered := x.chan_posted (acted { opc := 0x01, ranges := [(2, x.lpart, f.base.toNat, f.len.toNat)], token := (f.base.toNat, f.len.toNat) }) space
    f.base.toNat f.len.toNat false
  rw [x.token_range _ nonempty fits, show BitVec.ofNat 23 f.base.toNat = f.base by simp] at entered
  refine ⟨t, ch.push _, _, run, mem, pwr, ?_, rfl, job, rfl, fun last => ?_⟩
  · rw [core]
    exact entered
  · rw [← issues.lsid]
    exact x.mem_done_finished (h := { h with post := true }) last e _

/-! ### RELEASE -/

/-- A range of a die covers a unit. -/
def coversUnit (r : Nat × Nat × Nat) (q u : Nat) : Prop := r.1 = q ∧ r.2.1 ≤ u ∧ u < r.2.1 + r.2.2

theorem residentUnit_iff (rs : List (Nat × Nat × Nat)) (q u : Nat) : residentUnit rs q u = true ↔ ∃ r ∈ rs, coversUnit r q u := by
  simp [residentUnit, inRange, coversUnit]

theorem mem_cutRanges_one (p a n q u : Nat) (r : Nat × Nat × Nat) :
    (∃ k ∈ cutRanges p a n [r], coversUnit k q u) ↔ coversUnit r q u ∧ ¬(q = p ∧ a ≤ u ∧ u < a + n) := by
  obtain ⟨d, lo, len⟩ := r
  simp only [cutRanges, List.flatMap_cons, List.flatMap_nil, List.append_nil, coversUnit]
  split
  next meets =>
    have meets : d = p ∧ ((a < lo + len ∧ lo < a + n) ∧ 0 < n) ∧ 0 < len := by simpa [overlaps] using meets
    simp only [List.mem_append, List.mem_ite_nil_right, List.mem_singleton, or_and_right, and_assoc, exists_or, exists_and_left, exists_eq_left]
    omega
  next apart =>
    have apart : ¬ (d = p ∧ ((a < lo + len ∧ lo < a + n) ∧ 0 < n) ∧ 0 < len) := by simpa [overlaps, and_assoc] using apart
    simp only [List.mem_singleton, exists_eq_left]
    omega

/-- A range cut out of others takes its own units from them and no other (R97). -/
theorem residentUnit_cutRanges (p a n q u : Nat) (rs : List (Nat × Nat × Nat)) :
    residentUnit (cutRanges p a n rs) q u = (residentUnit rs q u && !(q == p && decide (a ≤ u) && decide (u < a + n))) := by
  have pieces : ∀ k, k ∈ cutRanges p a n rs ↔ ∃ r ∈ rs, k ∈ cutRanges p a n [r] := by simp [cutRanges]
  have left : residentUnit (cutRanges p a n rs) q u = true ↔ ∃ r ∈ rs, coversUnit r q u ∧ ¬(q = p ∧ a ≤ u ∧ u < a + n) := by
    simp only [residentUnit_iff, pieces, ← mem_cutRanges_one]
    exact ⟨fun ⟨k, ⟨r, hr, hk⟩, on⟩ => ⟨r, hr, k, hk, on⟩, fun ⟨r, hr, k, hk, on⟩ => ⟨k, ⟨r, hr, hk⟩, on⟩⟩
  have outside : (!(q == p && decide (a ≤ u) && decide (u < a + n))) = true ↔ ¬(q = p ∧ a ≤ u ∧ u < a + n) := by
    rw [Bool.not_eq_true', ← Bool.not_eq_true]
    simp only [Bool.and_eq_true, beq_iff_eq, decide_eq_true_eq, and_assoc]
  rw [Bool.eq_iff_iff, left, Bool.and_eq_true, residentUnit_iff, outside]
  simp only [← and_assoc, exists_and_right]

/-- RELEASE's effect on the core: its range leaves residency, and the fence slots whose destination it meets end (R97, R238). -/
def Ctx.releases (x : Ctx) (a n : Nat) (c : Core) : Core :=
  let c1 := c.modJob x.plan.handle (Job.release x.part a n)
  { c1 with parts := c1.parts.map fun q => { q with streams := { q.streams with
      fences := q.streams.fences.filter fun e => !(c.meetsFence x.tenant x.plan.pm (smAddr64 x.lpart a) n e.2) } } }

theorem Ctx.fences_releases (x : Ctx) (a n : Nat) (c : Core) (p : Nat) : ((x.releases a n c).part p).streams.fences =
    (c.part p).streams.fences.filter fun e => !(c.meetsFence x.tenant x.plan.pm (smAddr64 x.lpart a) n e.2) := by
  exact congrArg (fun q : Part => q.streams.fences) (List.getD_map (l := c.parts) (d := ({} : Part)) (n := p) (f := fun q : Part =>
    { q with streams := { q.streams with fences := q.streams.fences.filter fun e => !(c.meetsFence x.tenant x.plan.pm (smAddr64 x.lpart a) n e.2) } }))

/-- Settles O12: RELEASE acts by `Ctx.releases`; what that leaves of residency says `residentUnit_cutRanges`, what of the fence slots `fences_releases`. -/
theorem releaseEndsResidency : Obligations.ReleaseEndsResidency := by
  unfold Obligations.ReleaseEndsResidency
  intro st h f s x tok clean nopost issues
  obtain ⟨t, e, run, mem, pwr, core⟩ := runM_issueWith_acted (i := .release st h f) (f := f) (sub := rangeSub)
    (spec := fun _ x f => { opc := 0x02, ranges := [(2, x.lpart, f.base.toNat, f.len.toNat)], token := (f.base.toNat, f.len.toNat) })
    (body := releaseBody) (g := x.releases f.base.toNat f.len.toNat) (post := id)
    (fun _ => rfl) issues clean rfl rfl (fun _ _ => rfl) (fun m _ => by simp [nopost, Mach.up])
  have job := issues.job_acted (g := x.releases f.base.toNat f.len.toNat) (post := id) (k := Job.release x.part f.base.toNat f.len.toNat)
    (fun c j job => by
      have released := Core.job?_modJob_self (f := Job.release x.part f.base.toNat f.len.toNat) job fun _ => rfl
      rw [← issues.handle] at released ⊢
      exact released) (fun _ => rfl) e
  rw [← core] at job
  refine ⟨t, _, run, mem, pwr, job, fun p a => residentUnit_cutRanges _ _ _ _ _ _, fun p => ?_, fun last => ?_⟩
  · rw [core]
    refine (x.fences_releases f.base.toNat f.len.toNat _ p).trans ?_
    split
    · rw [Core.fences_popToken]
      rfl
    · rfl
  · rw [← issues.lsid]
    exact x.mem_done_finished last e _

/-! ### A WAIT on an empty channel -/

/-- The job held by an instruction (06 R161). -/
def Job.heldBy (lsid : Lsid) (cause : HoldCause) (i : Instr) (j : Job) : Job := { j with holds := j.holds ++ [{ lsid := lsid, cause := cause, instr := some i }] }

/-- The LATE_OPERAND record of an empty channel (R111, R124). -/
def Ctx.emptyRec (x : Ctx) (ch : Nat) : Rec := { x.mkRec 0x201 6 0 [] with block := 0x16, inst := BitVec.ofNat 16 ch }

/-- What an empty IN_CH does to the core: the record, its count, EMPTY_HOLD, and the hold (R111, R122, R124). -/
def Ctx.holdForToken (x : Ctx) (ch : Nat) (i : Instr) (c : Core) : Core :=
  (((c.logRec (x.emptyRec ch)).modStreams x.part (StreamPart.countLate 0x201)).flagEmpty x.part ch).modJob x.plan.handle (Job.heldBy x.lsid .chanEmpty i)

/-- An instruction that has its slots but not its token holds the job (R111). -/
theorem issueWith_holds_on_empty_channel {F : Type} {granted : Bool} {i : Instr} {st : Stn} {h : Hdr} {f : F} {opc : Nat} {sub : F → Nat → Option F}
    {spec : Mach → Ctx → F → StnSpec} {body : F → Ctx → Bool → Mach → Bool × Mach} {m : Mach} {x : Ctx} (context : m.ctx st h opc = some x)
    (running : x.job.phase = .running) (unheld : x.job.holds = [])
    (slots : m.core.cyclesGiven (lsScode x.lsid) x.part (if lsScode x.lsid = 6 then x.die - 0x10 else x.inst) (x.job.actual x.issue)
      (x.job.actual x.issue + (spec (m.reach st.plan h.issue.toNat) x f).dur + max (boolNat h.post) (spec (m.reach st.plan h.issue.toNat) x f).after)
      x.tenant x.idleSlots = true)
    (wait : h.wait = true) (empty : m.core.headToken x.part h.inCh.toNat = none) :
    issueWith granted i st h f opc sub spec body m = (m.reach st.plan h.issue.toNat).up (x.holdForToken h.inCh.toNat i) := by
  obtain ⟨job, -, -, -, issue⟩ := Mach.ctx_some context
  have late : ∀ m, x.late 0x201 6 0 0x16 h.inCh.toNat [] m =
      m.up fun c => (c.logRec (x.emptyRec h.inCh.toNat)).modStreams x.part (StreamPart.countLate 0x201) := fun m => congrArg (Mach.up _) (x.logR_plain rfl m)
  have reached : (m.giveBackTo st.plan x.job.sched x.issue).up (fun c => c.modJob st.plan fun j => { j with sched := max j.sched x.issue }) =
      m.reach st.plan h.issue.toNat := by
    rw [← issue]
    simp [Mach.giveBackTo, job, running, Mach.reach]
  have slots : (m.reach st.plan h.issue.toNat).core.cyclesGiven (lsScode x.lsid) x.part (if lsScode x.lsid = 6 then x.die - 0x10 else x.inst)
      (x.job.actual x.issue) (x.job.actual x.issue + (spec (m.reach st.plan h.issue.toNat) x f).dur +
        max (boolNat h.post) (spec (m.reach st.plan h.issue.toNat) x f).after) x.tenant x.idleSlots = true := slots
  have empty : (m.reach st.plan h.issue.toNat).core.headToken x.part h.inCh.toNat = none := empty
  unfold issueWith
  simp only [context, reached, unheld, slots, wait, empty, late]
  rfl

section
variable (x : Ctx) (ch : Nat) (i : Instr) (c : Core)

theorem Ctx.holdForToken_log : (x.holdForToken ch i c).log = c.log.push (c.stamped (x.emptyRec ch)) := Core.logRec_log _ _

theorem Ctx.holdForToken_job {c : Core} {j : Job} (job : c.job? x.plan.handle = some j) :
    (x.holdForToken ch i c).job? x.plan.handle = some (j.heldBy x.lsid .chanEmpty i) := by
  refine Core.job?_modJob_self ((Core.job?_congr ?_ _).trans job) fun _ => rfl
  exact Core.logRec_jobs (x.emptyRec ch) c

theorem Ctx.holdForToken_count {c : Core} (here : x.part < c.parts.length) :
    ((x.holdForToken ch i c).part x.part).streams.lateOperand = satInc (c.part x.part).streams.lateOperand := by
  have kept := Core.logRec_parts (x.emptyRec ch) c
  have counted : x.part < ((c.logRec (x.emptyRec ch)).modStreams x.part (StreamPart.countLate 0x201)).parts.length := by simpa [modAt] using here
  change (Core.part (Core.flagEmpty x.part ch _) x.part).streams.lateOperand = _
  rw [Core.flagEmpty, Core.streams_modStreams_self counted, Core.streams_modStreams_self (kept ▸ here), Core.part_congr kept]
  rfl

end

/-- Settles O13: `issueWith_holds_on_empty_channel`, and what `Ctx.holdForToken` leaves in job, log and counts. -/
theorem emptyChannelHoldsTheJob : Obligations.EmptyChannelHoldsTheJob := by
  unfold Obligations.EmptyChannelHoldsTheJob
  intro st h s x wait here context running unheld slots empty
  obtain ⟨job, plan, lsid, -, -⟩ := Mach.ctx_some context
  have handle : x.plan.handle = st.plan := by simpa using List.find?_some plan
  have holds := issueWith_holds_on_empty_channel (granted := false) (i := .nop st h) (f := ()) (sub := fun _ _ => some ())
    (spec := fun _ _ _ => { opc := 0x00 }) (body := fun _ _ _ m => (false, m)) context running unheld
    (by simpa using (show (startMach s).core.cyclesGiven _ _ _ _ _ _ _ = true from slots)) wait empty
  obtain ⟨t, run, core, mem, pwr, -⟩ := runM_of_eq holds
  have reached := Core.job?_modJob_self (c := (startMach s).core) job (f := fun j => { j with sched := max j.sched h.issue.toNat }) fun _ => rfl
  rw [← handle] at reached
  have held := x.holdForToken_job h.inCh.toNat (.nop st h) reached
  rw [handle] at held
  refine ⟨t, _, ((startMach s).reach st.plan h.issue.toNat).core.stamped (x.emptyRec h.inCh.toNat), run, mem, pwr,
    (congrArg (Core.job? · st.plan) core).trans held, ?_, ?_, rfl, rfl, rfl, rfl, ?_⟩
  · simp [Job.heldBy, unheld, lsid]
  · rw [core]
    exact x.holdForToken_log h.inCh.toNat (.nop st h) _ ▸ Log.push_head _ _
  · rw [core]
    exact x.holdForToken_count h.inCh.toNat (.nop st h) here

end Sys2Proof.Machine
end

section
/-!
Control cores and their streams (04 R110, R111, R114, R115, R118): deferred posts, descriptor slots, tokens of a core's own, and the loss of a failed core's work.
-/

namespace Sys2Proof.Machine

/-! ### What the events leave of the streams -/

@[simp] theorem Core.counterEvent_parts (bit : Nat) (newly : Bool) (blk inst off : Nat) (c : Core) :
    (c.counterEvent bit newly blk inst off).parts = c.parts := by
  unfold Core.counterEvent
  split
  · exact Core.logRec_parts _ c
  · rfl

/-- Counting a hold changes no channel (R123). -/
theorem Core.chans_countHold (p cycles : Nat) (c : Core) (q : Nat) : ((c.countHold p cycles).part q).streams.chans = (c.part q).streams.chans := by
  unfold Core.countHold
  rw [Core.part_congr (Core.counterEvent_parts _ _ _ _ _ _), Core.streams_modStreams]
  split <;> rfl

@[simp] theorem Core.addRec_parts (j : Job) (lp : Nat) (b : HBody) (c : Core) : (c.addRec j lp b).parts = c.parts := by
  unfold Core.addRec
  split <;> rfl

/-! ### A deferred post -/

/-- The job when its post has entered its channel, and the hold of that post has ended with `rest` of its holds going on (R111, R123). -/
def Job.afterPost (lsid : Lsid) (cycles : Nat) (rest : List Held) (j : Job) : Job :=
  let ended := rest.all fun e => e.cause == .behind
  { j with posts := j.posts.filter fun e => !(e.lsid == lsid)
           holds := rest
           offset := if ended then j.offset + cycles else j.offset
           holdCycles := if ended then j.holdCycles + cycles else j.holdCycles
           holdBeats := if ended then 0 else j.holdBeats }

/-- The holds of a job without that of a station's post. -/
def Job.holdsWithoutPost (j : Job) (lsid : Lsid) : List Held := j.holds.filter fun e => !(e.lsid == lsid && e.cause == .chanFull && e.instr.isNone)

/-- A post that its channel takes: the token enters and the job is posted; counting the hold changes neither jobs nor channels. -/
theorem postDeferred_of_space {c : Core} {plan : Nat} {lsid : Lsid} {j : Job} {p : Plan} {q : PostReg} {s : ChanSt} (job : c.job? plan = some j)
    (admitted : c.plan? plan = some p) (kept : j.posts.find? (fun e => e.lsid == lsid) = some q)
    (chan : lookup? q.chan (c.part q.part).streams.chans = some s) (space : s.tokens.length < s.depth.toNat) (cycles : Nat) :
    let entered := (c.pushToken q.part q.chan q.token).2.modJob plan (Job.afterPost lsid cycles (j.holdsWithoutPost lsid))
    (postDeferred plan lsid cycles c).jobs = entered.jobs ∧
      ∀ d, ((postDeferred plan lsid cycles c).part d).streams.chans = (entered.part d).streams.chans := by
  have push := Core.pushToken_of_space chan space q.token
  simp only [postDeferred, job, admitted, kept, push, Bool.not_true, Bool.false_eq_true, if_false]
  split
  · split
    · exact ⟨rfl, fun _ => rfl⟩
    · exact ⟨Core.countHold_jobs _ _ _, fun d => Core.chans_countHold _ _ _ d⟩
  · exact ⟨rfl, fun _ => rfl⟩

/-- Settles O22: `postDeferred_of_space`, with the token in its channel by `chan_pushToken`. -/
theorem deferredPostEntersItsChannel : Obligations.DeferredPostEntersItsChannel := by
  unfold Obligations.DeferredPostEntersItsChannel
  intro plan cycles lsid s j p q ch job admitted kept chan space
  obtain ⟨jobs, chans⟩ := postDeferred_of_space (c := { s.core with out := [] }) job admitted kept chan space cycles
  have posted := Core.job?_modJob_self (f := Job.afterPost lsid cycles (j.holdsWithoutPost lsid))
    ((Core.job?_congr (Core.pushToken_jobs { s.core with out := [] } q.part q.chan q.token) plan).trans job) fun _ => rfl
  exact ⟨_, ch.push q.token, _, rfl, rfl, rfl,
    (congrArg (lookup? q.chan) (chans q.part)).trans (Core.chan_pushToken (c := { s.core with out := [] }) chan space q.token), rfl,
    (Core.job?_congr jobs plan).trans posted, rfl, rfl⟩

/-! ### Descriptor slots and tokens of a control core -/

/-- The record of a write to a descriptor slot that is VALID (R115). -/
def overrunRec (c : Core) (plan part core ring slot : Nat) : Rec :=
  { coreRec c plan 0x304 3 1 part core with block := 0x17, inst := BitVec.ofNat 16 ring, detail := [BitVec.ofNat 8 slot] }

theorem overrunRec_fields (c : Core) (plan part core ring slot : Nat) : (overrunRec c plan part core ring slot).code = 0x304 ∧
    (overrunRec c plan part core ring slot).cls = 3 := by
  unfold overrunRec coreRec
  dsimp only
  split <;> exact ⟨rfl, rfl⟩

section
variable {c : Core} {plan part : Nat} (run : c.coresRun plan part = true)
include run

section
variable {ring slot : Nat} (core : Nat) (v : BitVec 256) (hpart : part < 8) (hring : ring < 256) (hslot : slot < 16)
include hpart hring hslot

/-- A slot that is VALID keeps its value; the write is recorded and counted (R115). -/
theorem descriptorWrite_valid (valid : ((lookup? (ring, slot) (c.part part).streams.descs).getD 0).getLsbD 0 = true) :
    descriptorWrite plan part core ring slot v c = ((c.logRec (overrunRec c plan part core ring slot)).modStreams part (StreamPart.countLate 0x304)).modJob plan
      (Job.noteOrigin 3 0x304) := by
  have inside : ¬ (part ≥ 8) ∧ ¬ (ring ≥ 256) ∧ ¬ (slot ≥ 16) := by omega
  simp only [descriptorWrite, run, inside, valid]
  rfl

theorem descriptorWrite_valid_head (valid : ((lookup? (ring, slot) (c.part part).streams.descs).getD 0).getLsbD 0 = true) :
    (descriptorWrite plan part core ring slot v c).log.recs.head? = some (c.stamped (overrunRec c plan part core ring slot)) := by
  rw [descriptorWrite_valid run core v hpart hring hslot valid]
  exact Core.logRec_head _ _

theorem descriptorWrite_valid_streams (valid : ((lookup? (ring, slot) (c.part part).streams.descs).getD 0).getLsbD 0 = true) (here : part < c.parts.length) :
    ((descriptorWrite plan part core ring slot v c).part part).streams = (c.part part).streams.countLate 0x304 := by
  have kept := Core.logRec_parts (overrunRec c plan part core ring slot) c
  rw [descriptorWrite_valid run core v hpart hring hslot valid]
  refine (Core.streams_modStreams_self (kept ▸ here) _).trans ?_
  rw [Core.part_congr kept]

/-- A slot that is not VALID takes the value; a VALID bit written is noted in the hamper besides (10 R344). -/
theorem descriptorWrite_free (free : ((lookup? (ring, slot) (c.part part).streams.descs).getD 0).getLsbD 0 = false) :
    (descriptorWrite plan part core ring slot v c).parts = (c.putDesc part ring slot v).parts := by
  have inside : ¬ (part ≥ 8) ∧ ¬ (ring ≥ 256) ∧ ¬ (slot ≥ 16) := by omega
  simp only [descriptorWrite, run, inside, free]
  simp only [decide_false, Bool.not_true, Bool.or_self, Bool.false_eq_true, if_false]
  split
  · exact Core.addRec_parts _ _ _ _
  · rfl

end

/-- A token that its channel takes from a core of the channel's plan and producer (R110). -/
theorem corePost_of_space {lsid : Lsid} {ch : Chan} {s : ChanSt} (chan : lookup? ch.toNat (c.part part).streams.chans = some s) (own : s.plan = plan)
    (producer : s.producer = lsid) (space : s.tokens.length < s.depth.toNat) (t : Token) :
    (corePost plan part lsid ch t c).parts = (c.pushToken part ch.toNat t).2.parts := by
  have push := Core.pushToken_of_space chan space t
  have known : ∃ j, c.job? plan = some j := by
    cases job : c.job? plan with
    | some j => exact ⟨j, rfl⟩
    | none => simp [Core.coresRun, job] at run
  obtain ⟨j, job⟩ := known
  simp only [corePost, chan, job, run, own, producer, push]
  simp

end

/-- Settles O24: `descriptorWrite_free` and `descriptorWrite_valid` for a slot, `corePost_of_space` for a token. -/
theorem controlCoreDescriptorsAndTokens : Obligations.ControlCoreDescriptorsAndTokens := by
  unfold Obligations.ControlCoreDescriptorsAndTokens
  refine ⟨fun plan part core ring slot v s run hpart here hring hslot => ?_, fun plan part lsid ch tok s cs run chan own producer space => ?_⟩
  · have run' : Core.coresRun { s.core with out := [] } plan part = true := run
    refine ⟨_, rfl, rfl, rfl, fun free => ?_, fun valid => ?_⟩
    · have written := descriptorWrite_free run' core v hpart hring hslot free
      refine (congrArg (fun q : Part => lookup? (ring, slot) q.streams.descs) (Core.part_congr written part)).trans ?_
      rw [Core.putDesc, Core.streams_modStreams_self (c := { s.core with out := [] }) here]
      exact lookup?_insertKey_self _ _ _
    · have streams := descriptorWrite_valid_streams run' core v hpart hring hslot valid here
      have head := descriptorWrite_valid_head run' core v hpart hring hslot valid
      obtain ⟨code, cls⟩ := overrunRec_fields { s.core with out := [] } plan part core ring slot
      exact ⟨(congrArg StreamPart.descs streams :), _, head, code, cls, rfl, rfl, streams⟩
  · have entered := corePost_of_space (c := { s.core with out := [] }) run chan own producer space tok
    exact ⟨_, cs.push tok, rfl, rfl, rfl, (congrArg (fun q : Part => lookup? ch.toNat q.streams.chans) (Core.part_congr entered part)).trans
      (Core.chan_pushToken (c := { s.core with out := [] }) chan space tok), rfl⟩

/-! ### A failing control core -/

@[simp] theorem Core.memberFailed_parts (h : Nat) (c : Core) : (c.memberFailed h).parts = c.parts := rfl

theorem Core.membersFailed_frame (hs : List Nat) (c : Core) :
    (hs.foldl (fun c h => c.memberFailed h) c).parts = c.parts ∧ (hs.foldl (fun c h => c.memberFailed h) c).health = c.health := by
  induction hs generalizing c with
  | nil => exact ⟨rfl, rfl⟩
  | cons h rest ih => exact ih (c.memberFailed h)

/-- A permanent failure is noted, and leaves every partition as it was. -/
theorem Core.permFail_frame (c : Core) : c.permFail.parts = c.parts ∧ c.permFail.health.permFailed = true := by
  obtain ⟨parts, health⟩ := Core.membersFailed_frame (c.jobs.map fun j => j.plan) { c with health := { c.health with permFailed := true } }
  unfold Core.permFail
  dsimp only
  split
  · exact ⟨parts, congrArg Health.permFailed health⟩
  · refine ⟨?_, ?_⟩
    · exact (Core.logRec_parts _ _).trans parts
    · exact congrArg Health.permFailed ((Core.logRec_health _ _).trans health)

@[simp] theorem Core.coreFault_parts (p core : Nat) (c : Core) : (c.coreFault p core).parts = c.parts := by
  unfold Core.coreFault
  generalize c.plansOnCore p core = hs
  induction hs generalizing c with
  | nil => rfl
  | cons h rest ih =>
    rw [List.foldl_cons, ih]
    split
    · simp
    · rfl

/-- The control cores of a die without the work of a failed one (R118). -/
def CorePart.without (core : Nat) (now : BitVec 64) (q : CorePart) : CorePart :=
  { q with lines := q.lines.filter fun l => !(l.core == core), reserved := q.reserved.filter fun r => !(r.1 == core),
           mail := q.mail.filter fun b => !(b.core == core), hist := insertKey core now q.hist }

theorem Core.cores_modCores_self {c : Core} {p : Nat} (here : p < c.parts.length) (f : CorePart → CorePart) :
    ((c.modCores p f).part p).cores = f (c.part p).cores := by
  rw [Core.modCores, Core.part_modPart, if_pos ⟨rfl, here⟩]

/-- The core when a control core's work is lost, and the control-core fault is noted with its plans (R118). -/
def Core.loseCore (p core : Nat) (c : Core) : Core := (c.coreFault p core).modCores p (CorePart.without core c.clk.count)

theorem Core.cores_loseCore {c : Core} {p : Nat} (here : p < c.parts.length) (core : Nat) :
    ((c.loseCore p core).part p).cores = (c.part p).cores.without core c.clk.count := by
  rw [Core.loseCore, Core.cores_modCores_self (by simpa using here), Core.part_congr (c.coreFault_parts p core)]

/-- One of the four active cores fails: the module with it where the ballast core is not to be had (R118). -/
theorem coreFailure_active {c : Core} {p core : Nat} (hp : p < 8) (hcore : core < 4) (active : (c.part p).cores.failed.getLsbD core = false) :
    coreFailure p core c =
      if (c.part p).cores.ballastFor.isSome || !(c.part p).cores.failing.isEmpty || (c.part p).cores.failed.getLsbD 4 then (c.loseCore p core).permFail
      else (c.loseCore p core).modCores p fun q => { q with failing := q.failing ++ [core] } := by
  have inside : ¬ p ≥ 8 ∧ ¬ core ≥ 5 ∧ core ≠ 4 := by omega
  simp only [coreFailure, inside, active, decide_false, Bool.or_self, Bool.false_and, Bool.false_eq_true, if_false]
  rfl

/-- A failed core's work is lost, and no other core's (R118). -/
theorem coreFailure_cores {c : Core} {p core : Nat} (hp : p < 8) (here : p < c.parts.length) (hcore : core < 4)
    (active : (c.part p).cores.failed.getLsbD core = false) :
    ∃ failing, ((coreFailure p core c).part p).cores = { (c.part p).cores.without core c.clk.count with failing := failing } := by
  have kept : p < (c.loseCore p core).parts.length := by simpa [Core.loseCore, modAt] using here
  rw [coreFailure_active hp hcore active]
  split
  · exact ⟨_, by rw [Core.part_congr (Core.permFail_frame _).1, Core.cores_loseCore here]⟩
  · exact ⟨_, by rw [Core.cores_modCores_self kept, Core.cores_loseCore here]⟩

/-- The ballast core, free and sound, takes over at the next edge (R118). -/
theorem coreFailure_failing {c : Core} {p core : Nat} (hp : p < 8) (here : p < c.parts.length) (hcore : core < 4)
    (active : (c.part p).cores.failed.getLsbD core = false) (free : (c.part p).cores.ballastFor = none) (first : (c.part p).cores.failing = [])
    (sound : (c.part p).cores.failed.getLsbD 4 = false) : ((coreFailure p core c).part p).cores.failing = [core] := by
  have kept : p < (c.loseCore p core).parts.length := by simpa [Core.loseCore, modAt] using here
  rw [coreFailure_active hp hcore active, if_neg (by simp only [free, first, sound]; decide), Core.cores_modCores_self kept, Core.cores_loseCore here]
  simp [CorePart.without, first]

/-- With the ballast core in use the module fails for good (R118). -/
theorem coreFailure_permFailed {c : Core} {p core : Nat} (hp : p < 8) (hcore : core < 4) (active : (c.part p).cores.failed.getLsbD core = false)
    (used : (c.part p).cores.ballastFor.isSome = true) : (coreFailure p core c).health.permFailed = true := by
  rw [coreFailure_active hp hcore active, if_pos (by simp [used])]
  exact (Core.permFail_frame _).2

/-- Settles O25: `coreFailure_cores` for what is lost and kept, `coreFailure_failing` and `coreFailure_permFailed` for who takes over. -/
theorem controlCoreFailureLosesItsWork : Obligations.ControlCoreFailureLosesItsWork := by
  unfold Obligations.ControlCoreFailureLosesItsWork
  intro p core s hp here hcore active
  obtain ⟨failing, cores⟩ := coreFailure_cores (c := { s.core with out := [] }) hp here hcore active
  have lost : ∀ {α : Type} {l : List α} {g : α → Nat}, ∀ a ∈ l.filter fun a => !(g a == core), g a ≠ core := by simp
  refine ⟨_, rfl, rfl, rfl, ?_, ?_, ?_, ?_, coreFailure_failing (c := { s.core with out := [] }) hp here hcore active,
    coreFailure_permFailed (c := { s.core with out := [] }) hp hcore active⟩
  · exact fun l hl => lost l (congrArg CorePart.lines cores ▸ hl)
  · exact fun r hr => lost (g := Prod.fst) r (congrArg CorePart.reserved cores ▸ hr)
  · exact fun b hb => lost b (congrArg CorePart.mail cores ▸ hb)
  · exact fun l hl other => (congrArg (l ∈ CorePart.lines ·) cores).mpr (List.mem_filter.2 ⟨hl, by simpa using other⟩)

end Sys2Proof.Machine
end

section
/-!
The results of the elementwise opcodes (05 R125, R131, Table 05-2): one equation for each number of operands, with the exact result of an opcode rounded once to
the lanes' format. O17 is these equations unpacked, where a lane holds FP32.
-/

namespace Sys2Proof.Machine

/-! ### One equation for each number of operands -/

/-- IMM0 as the lanes hold it (R125). -/
def VecF.laneImm (f : VecF) : FVal := f32 (laneRound f.packed (f32 f.imm0))

section
variable {opc : Nat} (f : VecF) (o : Bool) (a b c : List U32)

theorem vecElems_rope : vecElems 0x3C f o a b c = vecRope o a.toArray b.toArray c.toArray := rfl

theorem vecElems_special (lo : 0x40 ≤ opc) (hi : opc ≤ 0x4B) : vecElems opc f o a b c = a.map (specialFn opc (f.mod.getLsbD 0)) := by
  have notRope : opc ≠ 0x3C := by omega
  simp [vecElems, notRope, lo, hi]

variable (low : opc < 0x40)
include low

theorem vecElems_nullary (sources : vecSources opc = 0) : vecElems opc f o a b c = List.replicate 1024 (laneRound f.packed f.laneImm) := by
  have notRope : opc ≠ 0x3C := by rintro rfl; cases sources
  simp [-List.reduceReplicate, vecElems, notRope, low, sources, VecF.laneImm]

theorem vecElems_unary (sources : vecSources opc = 1) :
    vecElems opc f o a b c = a.map (fun x => laneRound f.packed (vecExact opc f.laneImm (f32 x) .nan .nan)) := by
  have notRope : opc ≠ 0x3C := by rintro rfl; cases sources
  simp [vecElems, notRope, low, sources, VecF.laneImm]

theorem vecElems_binary (sources : vecSources opc = 2) :
    vecElems opc f o a b c = List.zipWith (fun x y => laneRound f.packed (vecExact opc f.laneImm (f32 x) (f32 y) .nan)) a b := by
  have notRope : opc ≠ 0x3C := by rintro rfl; cases sources
  simp [vecElems, notRope, low, sources, VecF.laneImm]

theorem vecElems_ternary (notRope : opc ≠ 0x3C) (sources : vecSources opc = 3) : vecElems opc f o a b c =
    List.zipWith (fun x (yz : U32 × U32) => laneRound f.packed (vecExact opc f.laneImm (f32 x) (f32 yz.1) (f32 yz.2))) a (b.zip c) := by
  simp [vecElems, notRope, low, sources, VecF.laneImm]

end

theorem laneRound_unpacked : laneRound false = toF32 := rfl

/-! ### The larger and the smaller of two values -/

section
variable {x y : FVal} (nan : (x.isNan || y.isNan) = true)
include nan

theorem FVal.vmax_nan : x.vmax y = .nan := if_pos nan

theorem FVal.vmin_nan : x.vmin y = .nan := if_pos nan

end

/-- +0 is above -0, in either order (R131). -/
theorem FVal.vmax_zeros : toF32 ((f32 0x80000000).vmax (f32 0)) = 0 ∧ toF32 ((f32 0).vmax (f32 0x80000000)) = 0 := by decide

theorem toF32_nan : toF32 .nan = f32NaN := by decide

/-- Settles O17: the equation of the opcode's number of operands, with `vecExact` at the opcode and the lanes unpacked. -/
theorem elementwiseResultsPerOpcode : Obligations.ElementwiseResultsPerOpcode := by
  unfold Obligations.ElementwiseResultsPerOpcode
  intro f o a b c unpacked
  have imm : f.laneImm = f32 (toF32 (f32 f.imm0)) := by rw [VecF.laneImm, unpacked, laneRound_unpacked]
  have nullary := fun {opc} => @vecElems_nullary opc f o a b c
  have unary := fun {opc} => @vecElems_unary opc f o a b c
  have binary := fun {opc} a b c => @vecElems_binary opc f o a b c
  have ternary := fun {opc} => @vecElems_ternary opc f o a b c
  simp only [unpacked, laneRound_unpacked, imm] at nullary unary binary ternary
  refine ⟨binary a b c (by decide) rfl, binary a b c (by decide) rfl, binary a b c (by decide) rfl, ternary (by decide) (by decide) rfl, ?_, ?_, ?_,
    binary a b c (by decide) rfl, unary (by decide) rfl, unary (by decide) rfl, unary (by decide) rfl, unary (by decide) rfl, nullary (by decide) rfl⟩
  · intro x y nan
    have larger : vecElems 0x34 f o [x] [y] c = [toF32 ((f32 x).vmax (f32 y))] := binary _ _ _ (by decide) rfl
    have smaller : vecElems 0x35 f o [x] [y] c = [toF32 ((f32 x).vmin (f32 y))] := binary _ _ _ (by decide) rfl
    rw [larger, smaller, FVal.vmax_nan nan, FVal.vmin_nan nan, toF32_nan]
    exact ⟨rfl, rfl⟩
  · exact (binary _ _ _ (by decide) rfl).trans (congrArg ([·]) FVal.vmax_zeros.1)
  · exact (binary _ _ _ (by decide) rfl).trans (congrArg ([·]) FVal.vmax_zeros.2)

end Sys2Proof.Machine
end

section
/-!
A flat elementwise unit (05 R126, R130, R131). Reading a flat operand changes no memory, so all operands of the unit are what memory held before it; the results
are one whole run of units, so writing them leaves exactly their bytes there and every other byte as it was. O14 is these two facts one after the other.
-/

namespace Sys2Proof.Machine

/-! ### Reads that leave memory as it is -/

theorem Mach.sm_congr {m m' : Mach} (mem : m'.mem = m.mem) (parts : m'.core.parts = m.core.parts) (p a n : Nat) : m'.sm p a n = m.sm p a n := by
  have sameUnit : m'.unit = m.unit := by
    funext k
    rw [Mach.unit, Mach.unit, mem]
  rw [Mach.sm, Mach.sm, Mach.units, Mach.units, sameUnit, Core.smUnits_congr parts]

theorem Mach.length_sm (m : Mach) (p a n : Nat) : (m.sm p a n).length = 64 * n := by
  have lengths : ((m.core.smUnits p a n).map m.unit).map List.length = List.replicate n 64 := by
    rw [List.eq_replicate_iff]
    simp [Core.smUnits, tabulate, Mach.unit, memBytes_length]
  rw [Mach.sm, Mach.units, List.length_flatten, lengths, List.sum_replicate, smul_eq_mul, Nat.mul_comm]

theorem ceilDiv_mul_self {d : Nat} (pos : 0 < d) (n : Nat) : ceilDiv (d * n) d = n := by
  rw [ceilDiv, Nat.add_sub_assoc pos, Nat.mul_add_div pos, Nat.div_eq_of_lt (by omega), Nat.add_zero]

section
variable (x : Ctx) (p a n : Nat) (m : Mach)

/-- Whole units read flat are what station memory holds. -/
theorem Ctx.readFlat_units : (x.readFlat p a (64 * n) m).1 = m.sm p a n := by
  simp only [Ctx.readFlat, ceilDiv_mul_self (show 0 < 64 by decide)]
  exact List.take_of_length_le (m.length_sm p a n).le

theorem Ctx.readFlat_mem : (x.readFlat p a n m).2.mem = m.mem := (x.readFlat_ext p a n m).mem_eq

theorem Ctx.readFlat_parts : (x.readFlat p a n m).2.core.parts = m.core.parts := by
  simp only [Ctx.readFlat]
  split
  · rfl
  · rfl

end

/-! ### The operands of a flat unit -/

/-- The format of operand `i` of an elementwise instruction. -/
def VecF.srcFmt (f : VecF) (i : Nat) : Fmt := fmtD (if i = 0 then f.fmt0 else f.fmt1)

/-- The unit address of operand `i` of an elementwise instruction. -/
def VecF.srcBase (f : VecF) : Nat → Nat
  | 0 => f.src0.toNat
  | 1 => f.src1.toNat
  | _ => f.src2.toNat

/-- Operand `i` of unit `u`, read after the operands in `acc`. -/
def Ctx.readSrc (x : Ctx) (f : VecF) (u : Nat) (acc : List VecIn × Mach) (i : Nat) : List VecIn × Mach :=
  let r := x.vecRead f.flat (f.srcFmt i) none ((f.srcBase i + u * unitUnits f.flat (f.srcFmt i)) % 2 ^ 23) acc.2
  (acc.1 ++ [r.1], r.2)

/-- The values that station memory holds in the flat run of operand `i` of unit `u`. -/
def Ctx.flatSrc (x : Ctx) (f : VecF) (u : Nat) (m : Mach) (i : Nat) : List U32 :=
  flatVals (f.srcFmt i) (m.sm x.part ((f.srcBase i + u * unitUnits true (f.srcFmt i)) % 2 ^ 23) (unitUnits true (f.srcFmt i)))

theorem Ctx.vecOperands_eq (x : Ctx) (opc : Nat) (f : VecF) (u : Nat) (m : Mach) :
    x.vecOperands opc f u m = (List.range (vecSources opc)).foldl (x.readSrc f u) ([], m) := rfl

/-- A flat operand read: a run of whole units, and no tile (R130). -/
theorem Ctx.vecRead_flat (x : Ctx) (ft : Fmt) (o : Option Bool) (a : Nat) (m : Mach) : x.vecRead true ft o a m =
    ({ vals := flatVals ft (m.sm x.part a (unitUnits true ft)), tile := none }, (x.readFlat x.part a (64 * unitUnits true ft) m).2) := by
  have run : 128 * elemBits ft = 64 * unitUnits true ft := by rw [unitUnits, if_pos rfl, ← Nat.mul_assoc]
  simp only [Ctx.vecRead, if_true, run, Ctx.readFlat_units]

/-- The operands of a flat unit are what memory held before the unit, and reading them changes no memory (R130). -/
theorem Ctx.vecOperands_flat (x : Ctx) (opc : Nat) {f : VecF} (flat : f.flat = true) (u : Nat) (m : Mach) :
    (x.vecOperands opc f u m).1 = (List.range (vecSources opc)).map (fun i => { vals := x.flatSrc f u m i, tile := none }) ∧
      (x.vecOperands opc f u m).2.mem = m.mem ∧ (x.vecOperands opc f u m).2.core.parts = m.core.parts := by
  rw [Ctx.vecOperands_eq]
  induction vecSources opc with
  | zero => exact ⟨rfl, rfl, rfl⟩
  | succ n ih =>
    obtain ⟨ins, mem, parts⟩ := ih
    simp only [List.range_succ, List.foldl_append, List.map_append, List.foldl_cons, List.foldl_nil, Ctx.readSrc, flat, Ctx.vecRead_flat]
    refine ⟨?_, (x.readFlat_mem _ _ _ _).trans mem, (x.readFlat_parts _ _ _ _).trans parts⟩
    rw [ins, Mach.sm_congr mem parts]
    rfl

/-! ### The results depend on the operands that the opcode reads -/

theorem vecSources_special {opc : Nat} (lo : 0x40 ≤ opc) (hi : opc ≤ 0x4B) : vecSources opc = 1 := by interval_cases opc <;> rfl

theorem vecSources_le (opc : Nat) : vecSources opc ≤ 3 := by
  unfold vecSources
  split <;> decide

/-- The ways an elementwise opcode computes its results. -/
theorem elementwise_cases {opc : Nat} (hi : opc ≤ 0x4B) :
    opc = 0x3C ∨ (0x40 ≤ opc ∧ vecSources opc = 1) ∨ (opc < 0x40 ∧ opc ≠ 0x3C) := by
  by_cases special : 0x40 ≤ opc
  · exact .inr (.inl ⟨special, vecSources_special special hi⟩)
  · omega

section
variable {opc : Nat} (f : VecF) (o : Bool) {a b c : List U32} (hi : opc ≤ 0x4B)
include hi

/-- An operand that the opcode does not read has no part in the results. -/
theorem vecElems_congr {a' b' c' : List U32} (ha : 1 ≤ vecSources opc → a = a') (hb : 2 ≤ vecSources opc → b = b') (hc : 3 ≤ vecSources opc → c = c') :
    vecElems opc f o a b c = vecElems opc f o a' b' c' := by
  rcases elementwise_cases hi with rfl | ⟨special, one⟩ | ⟨low, -⟩
  · rw [ha (by decide), hb (by decide), hc (by decide)]
  · rw [vecElems_special f o _ _ _ special hi, vecElems_special f o _ _ _ special hi, ha one.ge]
  · have few := vecSources_le opc
    interval_cases sources : vecSources opc
    · rw [vecElems_nullary f o _ _ _ low sources, vecElems_nullary f o _ _ _ low sources]
    · rw [vecElems_unary f o _ _ _ low sources, vecElems_unary f o _ _ _ low sources, ha (by decide)]
    · rw [vecElems_binary f o _ _ _ low sources, vecElems_binary f o _ _ _ low sources, ha (by decide), hb (by decide)]
    · rw [ha (by decide), hb (by decide), hc (by decide)]

theorem length_vecElems (ha : a.length = 1024) (hb : b.length = 1024) (hc : c.length = 1024) : (vecElems opc f o a b c).length = 1024 := by
  rcases elementwise_cases hi with rfl | ⟨special, -⟩ | ⟨low, notRope⟩
  · simp [vecElems_rope, vecRope, tabulate]
  · simp [vecElems_special f o _ _ _ special hi, ha]
  · have few := vecSources_le opc
    interval_cases sources : vecSources opc
    · simp only [vecElems_nullary f o _ _ _ low sources, List.length_replicate]
    · simp [vecElems_unary f o _ _ _ low sources, ha]
    · simp [vecElems_binary f o _ _ _ low sources, ha, hb]
    · simp [vecElems_ternary f o _ _ _ low notRope sources, ha, hb, hc]

end

/-! ### Flat formats -/

/-- The formats of flat runs, FP32, BF16 and FP16, hold whole bytes per element (R86). -/
theorem elemBits_flat {c : BitVec 4} (h : c.toNat ≤ 2) : elemBits (fmtD c) = 8 * (elemBits (fmtD c) / 8) ∧ 0 < elemBits (fmtD c) / 8 := by
  revert c
  decide

theorem length_flatVals {c : BitVec 4} (h : c.toNat ≤ 2) {bs : List Byte} (run : bs.length = 64 * unitUnits true (fmtD c)) :
    (flatVals (fmtD c) bs).length = 1024 := by
  obtain ⟨bytes, pos⟩ := elemBits_flat h
  have pieces : bs.length = elemBits (fmtD c) / 8 * 1024 := by
    rw [run, unitUnits, if_pos rfl]
    omega
  rw [flatVals, List.length_map, chunks_eq pos bs pieces, List.length_map, List.length_range]

theorem length_convertBlock (ft : Fmt) (cvt : Cvt) (draws : List Nat) (xs : List U32) : (convertBlock ft cvt draws xs).codes.length = xs.length := by
  have mx : (mxConvert ft cvt.sr draws xs).codes.length = xs.length := by
    simp only [mxConvert]
    split
    · simp
    · split
      · simp
      · simp
  unfold convertBlock
  split
  · exact mx
  · split
    · simp
    · simp
    · simp

/-- A unit's 1,024 results in a flat format are a whole run of units (R130). -/
theorem Ctx.length_flatBytes (x : Ctx) {o : VecOut} {c : BitVec 4} (fmt : o.fmt = fmtD c) (h : c.toNat ≤ 2) (e0 : Nat) {vals : List U32}
    (length : vals.length = 1024) : (x.flatBytes o e0 vals).length = 64 * unitUnits true o.fmt := by
  obtain ⟨bytes, -⟩ := elemBits_flat h
  have each : (x.flatBytes o e0 vals).length = 1024 * (elemBits o.fmt / 8) := by
    simp only [Ctx.flatBytes, List.length_flatMap, length_bytesLE, List.map_const', List.sum_replicate, length_convertBlock, length, smul_eq_mul]
  rw [each, unitUnits, if_pos rfl, fmt]
  omega

/-! ### Whole units written flat -/

theorem Ctx.putFlat_parts (x : Ctx) (p a : Nat) (bs : List Byte) (q : Bool) (m : Mach) : (x.putFlat p a bs q m).core.parts = m.core.parts := by
  simp [Ctx.putFlat, Mach.putSm_parts]

section
variable (x : Ctx) (p a : Nat) {n : Nat} {bs : List Byte} (q : Bool) (m : Mach) (whole : bs.length = 64 * n)
include whole

theorem Ctx.putFlat_mem : (x.putFlat p a bs q m).mem = (m.putSm p a bs q).mem := by
  have units : ceilDiv bs.length 64 = n := by rw [whole, ceilDiv_mul_self (by decide)]
  have padded : padTo (64 * n) bs = bs := by
    rw [padTo, List.take_of_length_le whole.le, whole, Nat.sub_self, List.replicate_zero, List.append_nil]
  refine (x.guard_ext _ _ _ _ _ _).mem_eq.trans ?_
  rw [units, padded]
  rfl

/-- The units written hold the bytes. -/
theorem Ctx.sm_putFlat (small : n ≤ 2 ^ 23) (wf : Memory.wf m.mem = true) : (x.putFlat p a bs q m).sm p a n = bs := by
  have parts := (x.putFlat_parts p a bs q m).trans (Mach.putSm_parts p a bs q m).symm
  rw [Mach.sm_congr (x.putFlat_mem p a q m whole) parts, Mach.sm_putSm p a q m whole small wf]

/-- Every byte outside the units written stays. -/
theorem Ctx.putFlat_outside (k : Nat)
    (hk : ∀ i < n, ¬(m.core.smUnit p ((a + i) % 2 ^ 23) ≤ k ∧ k < m.core.smUnit p ((a + i) % 2 ^ 23) + 64)) :
    memByte (x.putFlat p a bs q m).mem k = memByte m.mem k := by
  rw [x.putFlat_mem p a q m whole, Mach.putSm_outside p a q m whole k hk]

end

/-! ### The unit -/

/-- How the values of flat unit `u` leave the station. -/
def Ctx.flatOut (x : Ctx) (opc : Nat) (f : VecF) (u : Nat) : VecOut :=
  { fmt := fmtD f.outFmt, cvt := if f.packed then ⟨false, false⟩ else cvtOf f.cvt, cyc0 := x.issue + u * vecC opc f, piece := 0 }

/-- The results of flat unit `u` on what station memory holds. -/
def Ctx.flatResults (x : Ctx) (opc : Nat) (f : VecF) (u : Nat) (m : Mach) : List U32 :=
  vecElems opc f false (x.flatSrc f u m 0) (x.flatSrc f u m 1) (x.flatSrc f u m 2)

/-- The formats of a flat elementwise instruction, whether packed or not (R86, R129, R130). -/
theorem flat_formats {opc : Nat} (hi : opc ≤ 0x4B) {f : VecF} (flat : f.flat = true) (ok : vecFmtOk opc f = true) :
    f.fmt0.toNat ≤ 2 ∧ f.fmt1.toNat ≤ 2 ∧ f.outFmt.toNat ≤ 2 := by
  have elementwise : vecElementwise opc = true := by simp [vecElementwise, hi]
  simp only [vecFmtOk, elementwise, flat, if_true, Bool.and_eq_true, decide_eq_true_eq] at ok
  obtain ⟨-, ⟨first, second⟩, out⟩ := ok
  exact ⟨first, second, out⟩

theorem Ctx.elemResult_of_operands (x : Ctx) {opc : Nat} (hi : opc ≤ 0x4B) (f : VecF) (u cyc0 : Nat) (o q : Bool) (vals : Nat → List U32) (m : Mach) :
    x.elemResult opc f u cyc0 o q ((List.range (vecSources opc)).map (fun i => { vals := vals i, tile := none })) m =
      (vecElems opc f o (vals 0) (vals 1) (vals 2), m) := by
  have notDropout : opc ≠ 0x6A := by omega
  have notMask : opc ≠ 0x6B := by omega
  simp only [Ctx.elemResult, notDropout, notMask, if_false]
  refine congrArg (·, m) (vecElems_congr f o hi ?_ ?_ ?_)
  · intro read
    simp [show 0 < vecSources opc from read]
  · intro read
    simp [show 1 < vecSources opc from read]
  · intro read
    simp [show 2 < vecSources opc from read]

section
variable (x : Ctx) {opc : Nat} (hi : opc ≤ 0x4B) {f : VecF} (flat : f.flat = true) (u : Nat) (m : Mach)
include hi flat

/-- A flat unit writes its results once its operands are read: it has no tiles, so its poison is that of its sources. -/
theorem Ctx.elemUnit_flat (stale : Bool) : x.elemUnit opc f stale u m =
    x.putFlat x.part ((f.dst.toNat + u * unitUnits true (fmtD f.outFmt)) % 2 ^ 23) (x.flatBytes (x.flatOut opc f u) 0 (x.flatResults opc f u m)) stale
      (x.vecOperands opc f u m).2 := by
  have notDropout : opc ≠ 0x6A := by omega
  have ins := (x.vecOperands_flat opc flat u m).1
  have tiles : (x.vecOperands opc f u m).1.filterMap VecIn.tile = [] := by simp [ins]
  have poison : (flagsOf stale []).poison = stale := Bool.or_false stale
  simp only [Ctx.elemUnit, tiles, poison, flat, if_true, notDropout, if_false]
  rw [ins, x.elemResult_of_operands hi]
  rfl

/-- The results of a flat unit are a whole run of units. -/
theorem Ctx.flatResults_whole (ok : vecFmtOk opc f = true) :
    (x.flatBytes (x.flatOut opc f u) 0 (x.flatResults opc f u m)).length = 64 * unitUnits true (fmtD f.outFmt) := by
  obtain ⟨first, second, out⟩ := flat_formats hi flat ok
  exact x.length_flatBytes rfl out 0 (length_vecElems f false hi (length_flatVals first (m.length_sm _ _ _))
    (length_flatVals second (m.length_sm _ _ _)) (length_flatVals second (m.length_sm _ _ _)))

end

theorem unitUnits_flat_small (ft : Fmt) : unitUnits true ft ≤ 2 ^ 23 := by cases ft <;> decide

/-- Settles O14: the operands are read from memory as it was (`vecOperands_flat`), and the whole units of the results are then the one write. -/
theorem flatElementwiseUnitResult : Obligations.FlatElementwiseUnitResult := by
  unfold Obligations.FlatElementwiseUnitResult
  intro x opc f stale u m _ hi flat ok wf vals o a
  obtain ⟨-, mem, parts⟩ := x.vecOperands_flat opc flat u m
  have whole := x.flatResults_whole hi flat u m ok
  rw [x.elemUnit_flat hi flat u m stale]
  refine ⟨x.sm_putFlat x.part a stale _ whole (unitUnits_flat_small _) (mem.symm ▸ wf), fun k outside => ?_⟩
  rw [x.putFlat_outside x.part a stale _ whole k fun i inside => ?_, mem]
  rw [Core.smUnit_parts parts]
  exact outside i inside

end Sys2Proof.Machine
end

section
/-!
The start of a slot and the beat edge (06 R156, R169; 15 R510): what the rows of a slot table become, that the jobs' stop at a halt leaves the clock, and what
the edge of a halt leaves of power and counter; then O26. The tick of an empty queue (06 R190) is O2.
-/

namespace Sys2Proof.Machine

/-! ### The empty queue -/

theorem step_of_pending_nil {s : State} (empty : s.pending = []) : step s = .next (tick s) := by
  simp only [step, empty]

/-- Settles O2: the step is the tick, which changes the clock, the throttle and halt times and the outputs. -/
theorem emptyQueueCountsOneTick : Obligations.EmptyQueueCountsOneTick := by
  unfold Obligations.EmptyQueueCountsOneTick
  intro s empty
  exact ⟨tick s, step_of_pending_nil empty, rfl, rfl, empty, rfl, rfl, rfl, rfl⟩

/-! ### The start of a slot (R169) -/

/-- A slot's entry as its check leaves it: marked bad and blocked exactly when it fails. -/
def SlotEntry.checked (ok : Bool) (e : SlotEntry) : SlotEntry := { e with bad := !ok, blocked := !ok }

/-- The core with a slot's entry as its check leaves it. -/
def Core.checkSlot (part slot : Nat) (ok : Bool) (c : Core) : Core :=
  c.modSlots part fun q => { q with table := modAt q.table slot (SlotEntry.checked ok) }

/-- The record of a slot entry that fails its check (SLOT_TABLE_ERROR, R169). -/
def slotFailRec (part slot : Nat) : Rec := modRec 0x207 1 1 part 0x15 slot

theorem Core.slots_modSlots_self {c : Core} {p : Nat} (here : p < c.parts.length) (f : SlotPart → SlotPart) :
    ((c.modSlots p f).part p).slots = f (c.part p).slots := by
  rw [Core.modSlots, Core.part_modPart, if_pos ⟨rfl, here⟩]

/-- The entry of the slot that began, where the table holds it. -/
theorem Core.checkSlot_entry {c : Core} {part slot : Nat} (here : part < c.parts.length) (inTable : slot < (c.part part).slots.table.length) (ok : Bool) :
    ((c.checkSlot part slot ok).part part).slots.table[slot]? = some ((c.part part).slots.table[slot].checked ok) := by
  rw [Core.checkSlot, Core.slots_modSlots_self here]
  simp [modAt, inTable]

section
variable {s : State} {part slot : Nat} (ready : s.core.rst.phase = 6) (inService : s.core.rst.parts.contains part = false) (hp : part < 8) (hs : slot < 64)
include ready inService hp hs

/-- A slot begins only at Ready, on a partition in service. -/
theorem slot_begins : (s.core.rst.phase != 6 || s.core.rst.parts.contains part || 8 ≤ part || 64 ≤ slot) = false := by
  simpa [ready, hp, hs] using inService

theorem exec_slotStart_passes (rewritten : Bool) :
    exec (.slotStart part slot true rewritten) s = .next (s.upd fun c => { c with out := [] }.checkSlot part slot true) := by
  show runM (slotBegin part slot true rewritten) s = _
  simp only [runM, slotBegin, startMach, slot_begins ready inService hp hs]
  rfl

/-- A failing entry is recorded and blocked; its rewrite has succeeded, so the failure goes no further. -/
theorem exec_slotStart_fails :
    exec (.slotStart part slot false true) s = .next (s.upd fun c => (Core.logRec (slotFailRec part slot) { c with out := [] }).checkSlot part slot false) := by
  show runM (slotBegin part slot false true) s = _
  simp only [runM, slotBegin, startMach, slot_begins ready inService hp hs]
  rfl

end

/-! ### What leaves the clock -/

/-- A field that every step of a fold leaves, the fold leaves. -/
theorem foldl_leaves {α β γ : Type} (field : β → γ) {f : β → α → β} (leaves : ∀ b a, field (f b a) = field b) (l : List α) (b : β) :
    field (l.foldl f b) = field b := by
  induction l generalizing b with
  | nil => rfl
  | cons a rest ih => rw [List.foldl_cons, ih, leaves]

@[simp] theorem Core.putDesc_clk (p ring slot : Nat) (v : BitVec 256) (c : Core) : (c.putDesc p ring slot v).clk = c.clk := rfl

@[simp] theorem Core.emptyChans_clk (h : Nat) (c : Core) : (c.emptyChans h).clk = c.clk := rfl

@[simp] theorem Core.exchange_clk (p : Plan) (es : List SealEnt) (c : Core) : (c.exchange p es).clk = c.clk := rfl

@[simp] theorem Core.freeRolled_clk (h : Nat) (l : StepNo) (c : Core) : (c.freeRolled h l).clk = c.clk := rfl

@[simp] theorem Core.noticeRollback_clk (h : Nat) (l : StepNo) (c : Core) : (c.noticeRollback h l).clk = c.clk := rfl

@[simp] theorem Core.restoreRings_clk (j : Job) (c : Core) : (c.restoreRings j).clk = c.clk := by
  unfold Core.restoreRings
  dsimp only
  rw [foldl_leaves Core.clk fun c d => Core.putDesc_clk _ _ _ _ c, foldl_leaves Core.clk fun c r => Core.modStreams_clk c _ _]

@[simp] theorem Mach.patch_clk (k : Nat) (bs : List Byte) (m : Mach) : (m.patch k bs).core.clk = m.core.clk := by
  simp only [Mach.patch, Mach.up_core, Mach.write_core]
  split <;> rfl

@[simp] theorem Mach.raiseAnchors_clk (p : Plan) (j : Job) (l : StepNo) (m : Mach) : (m.raiseAnchors p j l).core.clk = m.core.clk := by
  unfold Mach.raiseAnchors
  refine foldl_leaves (fun m => m.core.clk) (fun m r => ?_) _ m
  split
  · split
    · rfl
    · refine foldl_leaves (fun m => m.core.clk) (fun m miss => ?_) _ m
      split
      · exact m.patch_clk _ _
      · rfl
  · rfl

@[simp] theorem Mach.rollbackStart_clk (h : Nat) (l : StepNo) (m : Mach) : (m.rollbackStart h l).core.clk = m.core.clk := by
  unfold Mach.rollbackStart
  split
  · dsimp only
    rw [Mach.raiseAnchors_clk]
    simp only [Mach.up_core, Core.modJob_clk, Core.freeRolled_clk, Core.modFab_clk, Core.restoreRings_clk, Core.emptyChans_clk]
    split <;> rfl
  · rfl

/-- The jobs of a module that halts are stopped without a change of the clock. -/
theorem Mach.haltJobs_clk (m : Mach) : m.haltJobs.core.clk = m.core.clk := by
  unfold Mach.haltJobs
  refine foldl_leaves (fun m => m.core.clk) (fun m j => ?_) _ m
  have noticed (b : Bool) : (if b then m.up (Core.noticeRollback j.plan j.lastSealed) else m).core.clk = m.core.clk := by split <;> rfl
  dsimp only
  split
  · rw [Mach.rollbackStart_clk, noticed]
  · rw [Mach.up_core, Core.modJob_clk, noticed]

/-! ### The beat edge (R156, 15 R510) -/

theorem Core.atEdge_with_out (c : Core) (o : List Out) (edge : BitVec 64) : Core.atEdge { c with out := o } edge = c.atEdge edge := rfl

/-- A counter value that is no edge changes nothing. -/
theorem exec_beatEdge_of_no_edge {edge : BitVec 64} {s : State} (noEdge : s.core.atEdge edge = false) :
    exec (.beatEdge edge) s = .next (s.upd fun c => { c with out := [] }) := by
  show execBeatEdge edge s = _
  simp only [execBeatEdge, runP, Core.atEdge_with_out, noEdge]
  rfl

theorem Power.haltsAt_of_requested {p : Power} {edge r : BitVec 64} (running : p.halted = false) (requested : p.haltReq = some r)
    (early : r.toNat + 2000 ≤ edge.toNat) : p.haltsAt edge = true := by
  simp [Power.haltsAt, running, requested, early]

/-- The passing of time neither requests a halt nor ends one. -/
theorem Power.haltsAt_elapse (p : Power) (a b : Nat) (edge : BitVec 64) : (p.elapse a b).haltsAt edge = p.haltsAt edge := rfl

/-- At an edge at Ready power takes the halt that is due. -/
theorem Power.atEdge_of_haltsAt {c : Core} {edge : BitVec 64} {p : Power} (ready : c.rst.phase = 6) (due : p.haltsAt edge = true) :
    p.atEdge c edge = (p.elapse c.clk.count.toNat edge.toNat).halt := by
  simp [Power.atEdge, ready, Power.haltsAt_elapse, due]

/-- The edge at which a halt takes effect moves the counter to itself and stops the jobs. -/
theorem Mach.edgeWork_halts_count {edge : BitVec 64} {m : Mach} (ready : m.core.rst.phase = 6) : (m.edgeWork edge true).core.clk.count = edge := by
  simp [Mach.edgeWork, ready, Mach.haltJobs_clk]

/-- A beat edge: power first, then the work of the edge, which is told whether a halt takes effect there. -/
theorem exec_beatEdge_of_edge {edge : BitVec 64} {s : State} (isEdge : s.core.atEdge edge = true) :
    let p := s.pwr.atEdge s.core edge
    let m := Mach.edgeWork edge (p.halted && !s.pwr.halted) { startMach s with pwr := p }
    exec (.beatEdge edge) s = .next { s with pwr := p, core := m.core, mem := applyWrs s.mem m.wr.reverse } := by
  show execBeatEdge edge s = _
  simp only [execBeatEdge, runP, startMach, Core.atEdge_with_out, isEdge, if_true]

/-! ### O26 -/

/-- At Ready a slot's entry is left as its check says; a failing one leaves its record newest in the log. -/
theorem slotStart_leaves_checked_entry {s : State} {part slot : Nat} (ok : Bool) (ready : s.core.rst.phase = 6)
    (inService : s.core.rst.parts.contains part = false) (hp : part < 8) (hs : slot < 64) (here : part < s.core.parts.length)
    (inTable : slot < (s.core.part part).slots.table.length) :
    ∃ t e, exec (.slotStart part slot ok true) s = .next t ∧ t.mem = s.mem ∧ t.pwr = s.pwr ∧
      (t.core.part part).slots.table[slot]? = some e ∧ e.blocked = !ok ∧ e.bad = !ok ∧
      (ok = false → ∃ r, t.core.log.recs.head? = some r ∧ r.code = 0x207 ∧ r.cls = 1 ∧ r.block = 0x15 ∧ r.inst = BitVec.ofNat 16 slot) := by
  cases ok with
  | true =>
    exact ⟨_, _, exec_slotStart_passes ready inService hp hs true, rfl, rfl, Core.checkSlot_entry here inTable true, rfl, rfl, nofun⟩
  | false =>
    have parts := Core.logRec_parts (slotFailRec part slot) { s.core with out := [] }
    have entry := Core.part_congr parts part
    refine ⟨_, _, exec_slotStart_fails ready inService hp hs, rfl, rfl, Core.checkSlot_entry (by rw [parts]; exact here) (by rw [entry]; exact inTable) false,
      rfl, rfl, fun _ => ⟨_, Core.logRec_head _ _, rfl, rfl, rfl, rfl⟩⟩

/-- The edge of a halt: power takes it, and the counter stands at the edge. -/
theorem beatEdge_takes_halt {edge : BitVec 64} {s : State} {r : BitVec 64} (isEdge : s.core.atEdge edge = true) (ready : s.core.rst.phase = 6)
    (running : s.pwr.halted = false) (requested : s.pwr.haltReq = some r) (early : r.toNat + 2000 ≤ edge.toNat) :
    ∃ t, exec (.beatEdge edge) s = .next t ∧ t.pwr.halted = true ∧ t.pwr.haltReq = none ∧ t.core.clk.count = edge := by
  have power := Power.atEdge_of_haltsAt ready (Power.haltsAt_of_requested running requested early)
  have halts : ((s.pwr.atEdge s.core edge).halted && !s.pwr.halted) = true := by rw [power, running]; rfl
  refine ⟨_, exec_beatEdge_of_edge isEdge, congrArg Power.halted power, congrArg Power.haltReq power, ?_⟩
  rw [halts]
  exact Mach.edgeWork_halts_count ready

/-- Settles O26, by the three lemmas above: the start of a slot, a value that is no edge, and the edge of a halt. -/
theorem slotEntryCheckAndEdges : Obligations.SlotEntryCheckAndEdges := by
  unfold Obligations.SlotEntryCheckAndEdges
  refine ⟨fun _ _ ok _ ready inService hp hs here inTable => slotStart_leaves_checked_entry ok ready inService hp hs here inTable,
    fun _ _ noEdge => ⟨_, exec_beatEdge_of_no_edge noEdge, rfl, rfl, rfl, rfl⟩,
    fun _ _ _ isEdge ready running requested early => beatEdge_takes_halt isEdge ready running requested early⟩

end Sys2Proof.Machine
end

section
/-!
The caches of a die's control cores (07 R228, R239 to R243): what each access leaves of them while no line has to go out, as functions on `CorePart`, and one
relation that says that nothing else changed; then a store that the next load of another core reads (O54).
-/

namespace Sys2Proof.Machine

/-! ### One line in the caches of a die -/

namespace CorePart
variable (q : CorePart) (core : Nat) (t : TenantId) (line : Nat)

/-- The copies that a core holds of every other line. -/
def othersOf : List CacheLine := q.lines.filter fun e => e.core == core && !(e.tenant == t && e.line == line)

/-- The copies that the L2 holds of every other line. -/
def l2Others : List L2Line := q.l2.filter fun e => !(e.tenant == t && e.line == line)

/-- The modified copy of a line. -/
def modified : Option CacheLine := q.lines.find? fun e => e.tenant == t && e.line == line && e.dirty

/-- A core's own copy of a line. -/
def held : Option CacheLine := q.lines.find? fun e => e.core == core && e.tenant == t && e.line == line

/-- The caches with a line at the front of the L2. -/
def putL2 (l : L2Line) : CorePart := { q with l2 := l :: q.l2Others l.tenant l.line }

/-- The caches with a line at the front of a core's own. -/
def putL1 (l : CacheLine) : CorePart :=
  { q with lines := l :: q.othersOf l.core l.tenant l.line ++ q.lines.filter fun e => !(e.core == l.core) }

/-- A line's copies as they are once its data are in the L2. -/
def cleaned : CorePart := { q with lines := q.lines.map fun e => if e.tenant == t && e.line == line then { e with dirty := false } else e }

/-- A modified copy of a line written back into the L2 (R241). -/
def recalled : CorePart :=
  match q.modified t line with
  | none => q
  | some d => (q.cleaned t line).putL2 { tenant := t, line := line, dirty := true, bytes := d.bytes }

/-- The newest bytes of a line: of the modified copy, else of the L2, else of the unit in memory (R239, R241). -/
def newest (unit : List Byte) : List Byte :=
  match q.modified t line with
  | some d => d.bytes
  | none => ((q.l2.find? fun e => e.tenant == t && e.line == line).map L2Line.bytes).getD unit

/-- The bytes that a core's load of a line answers: of its own copy, else the newest. -/
def loaded (unit : List Byte) : List Byte := ((q.held core t line).map CacheLine.bytes).getD (q.newest t line unit)

/-- A line owned by one core (R241, R243). -/
def owned : CorePart :=
  { q with lines := q.lines.filter fun e => !(e.tenant == t && e.line == line && e.core != core)
           reserved := q.reserved.filter fun r => !(r.2.1 == t && r.2.2 == line && r.1 != core) }

/-- `q'` differs from `q` in one line's copies, and in reservations, at most. -/
structure OneLine (q q' : CorePart) : Prop where
  others : ∀ c, q'.othersOf c t line = q.othersOf c t line
  l2Others : q'.l2Others t line = q.l2Others t line
  failed : q'.failed = q.failed

end CorePart

/-- What a store makes of a line's bytes: a modified copy of the core's. -/
def storedLine (core : Nat) (t : TenantId) (line off : Nat) (bytes old : List Byte) : CacheLine :=
  { core := core, tenant := t, line := line, dirty := true, bytes := padTo 64 (overwrite old off (bytes.take (64 - off))) }

/-- The caches after a store into an owned line. -/
def CorePart.stored (core : Nat) (t : TenantId) (line off : Nat) (bytes old : List Byte) (q : CorePart) : CorePart :=
  (q.owned core t line).putL1 (storedLine core t line off bytes old)

theorem CorePart.of_held {q : CorePart} {core : Nat} {t : TenantId} {line : Nat} {l : CacheLine} (own : q.held core t line = some l) :
    l ∈ q.lines ∧ l.core = core ∧ l.tenant = t ∧ l.line = line := by
  have copy := List.find?_some own
  simp only [Bool.and_eq_true, beq_iff_eq, and_assoc] at copy
  exact ⟨List.mem_of_find?_eq_some own, copy⟩

/-- Once a modified copy has gone back, the L2 or memory has the newest bytes. -/
theorem CorePart.newest_eq_l2_of_recalled (q : CorePart) (t : TenantId) (line : Nat) (unit : List Byte) :
    q.newest t line unit = (((q.recalled t line).l2.find? fun e => e.tenant == t && e.line == line).map L2Line.bytes).getD unit := by
  unfold CorePart.newest CorePart.recalled
  cases q.modified t line with
  | none => rfl
  | some d => simp [CorePart.putL2]

namespace CorePart.OneLine
variable {t : TenantId} {line : Nat}

theorem refl (q : CorePart) : OneLine t line q q := ⟨fun _ => rfl, rfl, rfl⟩

theorem trans {q r s : CorePart} (first : OneLine t line q r) (second : OneLine t line r s) : OneLine t line q s :=
  ⟨fun c => (second.others c).trans (first.others c), second.l2Others.trans first.l2Others, second.failed.trans first.failed⟩

theorem putL2 (q : CorePart) (l : L2Line) : OneLine l.tenant l.line q (q.putL2 l) :=
  ⟨fun _ => rfl, by simp [CorePart.putL2, CorePart.l2Others], rfl⟩

/-- A core's own other copies stand behind the line put in front, those of the other cores after them. -/
theorem putL1 (q : CorePart) (l : CacheLine) : OneLine l.tenant l.line q (q.putL1 l) := by
  refine ⟨fun c => ?_, rfl, rfl⟩
  simp only [CorePart.putL1, CorePart.othersOf, List.cons_append, List.filter_cons, List.filter_append, List.filter_filter]
  by_cases own : l.core = c
  · subst own
    simp +contextual [Bool.and_comm]
  · have apart : ∀ e ∈ q.lines,
        ¬ (e.core == c && !(e.tenant == l.tenant && e.line == l.line) && (e.core == l.core && !(e.tenant == l.tenant && e.line == l.line))) = true := by grind
    rw [List.filter_eq_nil_iff.2 apart]
    simp only [beq_self_eq_true, Bool.and_self, Bool.not_true, Bool.and_false, Bool.false_eq_true, if_false, List.nil_append]
    exact List.filter_congr fun e _ => by grind

theorem cleaned (q : CorePart) : OneLine t line q (q.cleaned t line) := by
  refine ⟨fun c => ?_, rfl, rfl⟩
  rw [CorePart.cleaned, CorePart.othersOf, CorePart.othersOf, List.filter_map, List.filter_congr (q := fun e => e.core == c && !(e.tenant == t && e.line == line))]
  · refine (List.map_congr_left fun e he => if_neg ?_).trans (List.map_id' _)
    have other := (List.mem_filter.1 he).2
    simp only [Bool.and_eq_true, Bool.not_eq_true'] at other
    simp [other.2]
  · intro e _
    dsimp only [Function.comp]
    split <;> rfl

theorem recalled (q : CorePart) : OneLine t line q (q.recalled t line) := by
  unfold CorePart.recalled
  split
  next => exact refl q
  next d _ => exact (cleaned q).trans (putL2 _ { tenant := t, line := line, dirty := true, bytes := d.bytes })

theorem owned (q : CorePart) (core : Nat) : OneLine t line q (q.owned core t line) := by
  refine ⟨fun c => ?_, rfl, rfl⟩
  rw [CorePart.othersOf, CorePart.owned, List.filter_filter]
  exact List.filter_congr fun e _ => by cases e.tenant == t && e.line == line <;> simp

end CorePart.OneLine

/-! ### An access that changes caches alone -/

/-- `m'` is `m` with the caches of die `part` as `q` says, and other recency in the Commons caches: memory, power and every other part of the core stay. -/
structure Mach.Caches (part : Nat) (m : Mach) (q : CorePart) (m' : Mach) : Prop where
  mem : m'.mem = m.mem
  wr : m'.wr = m.wr
  pwr : m'.pwr = m.pwr
  core : ∃ ls, m'.core = { m.core.modCores part (fun _ => q) with commonsLines := ls }

theorem Core.modCores_modCores (c : Core) (p : Nat) (f g : CorePart → CorePart) :
    (c.modCores p f).modCores p g = c.modCores p (g ∘ f) := by
  simp only [Core.modCores, Core.modPart, modAt, List.modify_modify_eq]
  rfl

theorem Core.modCores_here (c : Core) (p : Nat) : c.modCores p (fun _ => (c.part p).cores) = c := by
  have same : modAt c.parts p (fun x => { x with cores := (c.part p).cores }) = c.parts := by
    refine List.ext_getElem? fun i => ?_
    rw [modAt, List.getElem?_modify]
    split
    next e =>
      subst e
      cases here : c.parts[p]? <;> simp [Core.part, List.getD_eq_getElem?_getD, here]
    next => simp
  exact congrArg (fun ps => { c with parts := ps }) same

theorem Core.memp_modCores (c : Core) (p : Nat) (f : CorePart → CorePart) (x : Nat) : ((c.modCores p f).part x).memp = (c.part x).memp := by
  rw [Core.modCores, Core.part_modPart]
  split <;> rfl

/-- Where a tenant's address leads depends on leases and on the retired banks alone. -/
theorem Core.resolve_congr {c d : Core} (leases : d.leases = c.leases) (memp : ∀ x, (d.part x).memp = (c.part x).memp) : d.resolve = c.resolve := by
  funext t pm space off
  simp only [Core.resolve, Core.hbmView, Core.smUnit, leases, memp]

theorem Core.coreAddr_congr {c d : Core} (leases : d.leases = c.leases) (memp : ∀ x, (d.part x).memp = (c.part x).memp) (p : Plan) (j : Job) (a : Nat) :
    d.coreAddr p j a = c.coreAddr p j a := by
  rw [Core.coreAddr, Core.resolve_congr leases memp, Core.coreAddr]

/-- A touched line changes its Commons cache alone (R214). -/
theorem Core.touchLine_eq (t : TenantId) (quad line : Nat) (c : Core) : ∃ ls, c.touchLine t quad line = { c with commonsLines := ls } := by
  unfold Core.touchLine
  dsimp only
  split
  · exact ⟨_, rfl⟩
  · exact ⟨_, rfl⟩

namespace Mach.Caches
variable {part : Nat} {m m' : Mach} {q : CorePart}

theorem refl (part : Nat) (m : Mach) : m.Caches part (m.core.part part).cores m :=
  ⟨rfl, rfl, rfl, m.core.commonsLines, by rw [Core.modCores_here]⟩

section
variable (h : m.Caches part q m')
include h

theorem out : m'.core.out = m.core.out := by
  obtain ⟨ls, core⟩ := h.core
  rw [core]
  rfl

omit h in
/-- The one output of a command that otherwise changes caches. -/
theorem out_emit {s : State} {m' : Mach} (h : (startMach s).Caches part q m') (o : Out) : (m'.up (Core.emit o)).core.out = [o] := by
  rw [Mach.up_core, Core.emit_out, h.out]
  rfl

theorem leases : m'.core.leases = m.core.leases := by
  obtain ⟨ls, core⟩ := h.core
  rw [core]
  rfl

theorem parts : m'.core.parts = (m.core.modCores part fun _ => q).parts := by
  obtain ⟨ls, core⟩ := h.core
  rw [core]

theorem length_parts : m'.core.parts.length = m.core.parts.length := by
  rw [h.parts]
  exact List.length_modify _ _ _

theorem cores (here : part < m.core.parts.length) : (m'.core.part part).cores = q := by
  rw [Core.part_congr h.parts, Core.cores_modCores_self here]

theorem coreAddr (p : Plan) (j : Job) (a : Nat) : m'.core.coreAddr p j a = m.core.coreAddr p j a :=
  Core.coreAddr_congr h.leases (fun x => by rw [Core.part_congr h.parts, Core.memp_modCores]) p j a

theorem coreOf (here : part < m.core.parts.length) (failed : q.failed = (m.core.part part).cores.failed) (plan core : Nat) :
    m'.core.coreOf plan part core = m.core.coreOf plan part core := by
  have mask : (m'.core.part part).cores.failed = (m.core.part part).cores.failed := by rw [h.cores here, failed]
  obtain ⟨ls, eq⟩ := h.core
  unfold Core.coreOf
  rw [mask, eq]
  rfl

theorem touchLine (t : TenantId) (quad line : Nat) : m.Caches part q (m'.up (Core.touchLine t quad line)) := by
  obtain ⟨ls, core⟩ := h.core
  obtain ⟨ls', touched⟩ := Core.touchLine_eq t quad line m'.core
  exact ⟨h.mem, h.wr, h.pwr, ls', by rw [Mach.up_core, touched, core]⟩

theorem modCores (f : CorePart → CorePart) : m.Caches part (f q) (m'.up fun c => c.modCores part f) := by
  obtain ⟨ls, core⟩ := h.core
  refine ⟨h.mem, h.wr, h.pwr, ls, ?_⟩
  rw [Mach.up_core, core]
  exact congrArg (fun c : Core => { c with commonsLines := ls }) (Core.modCores_modCores m.core part (fun _ => q) f)

section
variable (here : part < m.core.parts.length)
include here

/-- With room in the L2 no line goes out. -/
theorem intoL2 {l : L2Line} (room : (q.l2Others l.tenant l.line).length < 16384) : m.Caches part (q.putL2 l) (m'.intoL2 part l) := by
  have fits : (l :: q.l2Others l.tenant l.line).length ≤ 16384 := room
  have put : l2Put l q.l2 = (l :: q.l2Others l.tenant l.line, []) := congrArg₂ Prod.mk (List.take_of_length_le fits) (List.drop_of_length_le fits)
  simp only [Mach.intoL2, h.cores here, put, List.foldl_nil]
  exact h.modCores fun q => { q with l2 := _ }

/-- With room in a core's data cache no line goes out. -/
theorem intoL1 {l : CacheLine} (room : (q.othersOf l.core l.tenant l.line).length < 512) : m.Caches part (q.putL1 l) (m'.intoL1 part l) := by
  have fits : (l :: q.othersOf l.core l.tenant l.line).length ≤ 512 := room
  rw [CorePart.othersOf] at fits
  simp only [Mach.intoL1, h.cores here, List.take_of_length_le fits, List.drop_of_length_le fits, List.foldl_nil]
  exact h.modCores fun r => { r with lines := _ ++ r.lines.filter _ }

section
variable {t : TenantId} {line : Nat} (room : (q.l2Others t line).length < 16384)
include room

/-- A modified copy goes back into the L2 (R241). -/
theorem recalled : m.Caches part (q.recalled t line) (m'.recall part t line) := by
  simp only [Mach.recall, h.cores here, CorePart.recalled, ← CorePart.modified.eq_def]
  cases q.modified t line with
  | none => exact h
  | some d => exact (h.modCores (CorePart.cleaned (t := t) (line := line))).intoL2 here room

/-- The directory serves the newest bytes of a line, the unit in memory when no cache holds it (R239, R241). -/
theorem fetchLine (sound : memPoisoned m.mem line 1 = false) :
    ∃ d m'', m'.fetchLine part t line = (some (q.newest t line (m.unit (line * 64))), m'') ∧
      m.Caches part ((q.recalled t line).putL2 { tenant := t, line := line, dirty := d, bytes := q.newest t line (m.unit (line * 64)) }) m'' := by
  have back := h.recalled here room
  have room' : ((q.recalled t line).l2Others t line).length < 16384 := by rwa [(CorePart.OneLine.recalled q).l2Others]
  have sound' : (m'.recall part t line).bad (line * 64) = false := by rwa [Mach.bad, back.mem, Nat.mul_div_cancel _ (by norm_num)]
  rw [CorePart.newest_eq_l2_of_recalled]
  cases found : (q.recalled t line).l2.find? fun e => e.tenant == t && e.line == line with
  | some l =>
    have on := List.find?_some found
    simp only [Bool.and_eq_true, beq_iff_eq] at on
    obtain ⟨rfl, rfl⟩ := on
    refine ⟨l.dirty, _, ?_, back.intoL2 here room'⟩
    simp only [Mach.fetchLine, back.cores here, found]
    rfl
  | none =>
    refine ⟨false, _, ?_, (back.touchLine t (part / 2) line).intoL2 here room'⟩
    simp only [Mach.fetchLine, back.cores here, found, sound']
    rw [Mach.unit, back.mem]
    rfl

end

end

end
end Mach.Caches

/-! ### Loads and stores of a cached line -/

/-- A core that holds a line reads its own copy, and nothing changes. -/
theorem Mach.loadLine_of_held {part core : Nat} {t : TenantId} {line : Nat} {m : Mach} {l : CacheLine}
    (own : (m.core.part part).cores.held core t line = some l) : m.loadLine part core t line = (some l.bytes, m) := by
  rw [CorePart.held] at own
  simp only [Mach.loadLine, own]

namespace Mach.Caches
variable {part core : Nat} {t : TenantId} {line : Nat} {m m' : Mach} {q : CorePart} (h : m.Caches part q m') (here : part < m.core.parts.length)
include h here

/-- A load of a cached line answers the core's own copy, else the newest bytes; no other line's copies change. -/
theorem loadLine (room2 : (q.l2Others t line).length < 16384) (room1 : (q.othersOf core t line).length < 512)
    (sound : memPoisoned m.mem line 1 = false) :
    ∃ q' m'', m'.loadLine part core t line = (some (q.loaded core t line (m.unit (line * 64))), m'') ∧ m.Caches part q' m'' ∧
      CorePart.OneLine t line q q' := by
  unfold CorePart.loaded
  cases own : q.held core t line with
  | some l => exact ⟨q, m', Mach.loadLine_of_held (by rwa [h.cores here]), h, .refl q⟩
  | none =>
    obtain ⟨d, m1, fetch, served⟩ := h.fetchLine here room2 sound
    rw [Option.map_none, Option.getD_none]
    generalize q.newest t line (m.unit (line * 64)) = b at fetch served ⊢
    have same := (CorePart.OneLine.recalled q).trans (.putL2 (q.recalled t line) { tenant := t, line := line, dirty := d, bytes := b })
    have room' := room1
    rw [← same.others] at room'
    refine ⟨_, _, ?_, served.intoL1 here (l := { core := core, tenant := t, line := line, dirty := false, bytes := b }) room',
      same.trans (.putL1 _ { core := core, tenant := t, line := line, dirty := false, bytes := b })⟩
    rw [CorePart.held] at own
    simp only [Mach.loadLine, h.cores here, own, fetch]

omit h in
/-- A store of a line that the core can load: the core owns the line, and its copy takes the bytes. -/
theorem storeLine {b : List Byte} {m0 : Mach} (load : m0.loadLine part core t line = (some b, m')) (h : m.Caches part q m')
    (room : (q.othersOf core t line).length < 512) (off : Nat) (bytes : List Byte) :
    ∃ m'', m0.storeLine part core t line off bytes = (true, m'') ∧ m.Caches part (q.stored core t line off bytes b) m'' := by
  have own := h.modCores (CorePart.owned (core := core) (t := t) (line := line))
  refine ⟨_, ?_, own.intoL1 here (l := storedLine core t line off bytes b) (((CorePart.OneLine.owned q core).others core).symm ▸ room)⟩
  simp only [Mach.storeLine, Mach.own, load]
  rfl

end Mach.Caches

/-! ### A line after a store -/

namespace CorePart
variable {core : Nat} {t : TenantId} {line off : Nat} {bytes old : List Byte} {q : CorePart}

theorem OneLine.stored : OneLine t line q (q.stored core t line off bytes old) :=
  (OneLine.owned q core).trans (.putL1 _ (storedLine core t line off bytes old))

theorem storedLine_mem : storedLine core t line off bytes old ∈ (q.stored core t line off bytes old).lines := List.mem_cons_self

/-- The storing core's copy is the only one (R241). -/
theorem eq_storedLine {x : CacheLine} (mem : x ∈ (q.stored core t line off bytes old).lines) (tenant : x.tenant = t) (on : x.line = line) :
    x = storedLine core t line off bytes old := by
  rcases List.mem_cons.1 mem with rfl | rest
  · rfl
  · rcases List.mem_append.1 rest with mine | others
    · have other := (List.mem_filter.1 mine).2
      simp [storedLine, tenant, on] at other
    · obtain ⟨kept, apart⟩ := List.mem_filter.1 others
      have alone := (List.mem_filter.1 kept).2
      simp only [storedLine, Bool.not_eq_true', beq_eq_false_iff_ne] at apart
      simp [tenant, on, apart] at alone

theorem modified_stored : (q.stored core t line off bytes old).modified t line = some (storedLine core t line off bytes old) := by
  simp [modified, stored, putL1, storedLine]

theorem held_stored_of_ne {other : Nat} (ne : other ≠ core) : (q.stored core t line off bytes old).held other t line = none := by
  refine Option.eq_none_iff_forall_ne_some.2 fun x copy => ne ?_
  obtain ⟨mem, own, tenant, on⟩ := of_held copy
  rw [← own, eq_storedLine mem tenant on]
  rfl

/-- Any other core's load reads what was stored. -/
theorem loaded_stored_of_ne {other : Nat} (ne : other ≠ core) (unit : List Byte) :
    (q.stored core t line off bytes old).loaded other t line unit = (storedLine core t line off bytes old).bytes := by
  rw [loaded, held_stored_of_ne ne, newest, modified_stored]
  rfl

/-- A core loads whole lines when every copy is a whole line. -/
theorem length_loaded (whole1 : ∀ x ∈ q.lines, x.bytes.length = 64) (whole2 : ∀ x ∈ q.l2, x.bytes.length = 64) {unit : List Byte} (whole : unit.length = 64) :
    (q.loaded core t line unit).length = 64 := by
  unfold loaded
  cases own : q.held core t line with
  | some l => exact whole1 l (List.mem_of_find?_eq_some own)
  | none =>
    rw [Option.map_none, Option.getD_none, newest]
    cases dirty : q.modified t line with
    | some l => exact whole1 l (List.mem_of_find?_eq_some dirty)
    | none =>
      cases found : q.l2.find? fun e => e.tenant == t && e.line == line with
      | some l => exact whole2 l (List.mem_of_find?_eq_some found)
      | none => exact whole

end CorePart

theorem padTo_of_length {n : Nat} {bs : List Byte} (h : bs.length = n) : padTo n bs = bs := by simp [padTo, ← h]

theorem length_storedLine (core : Nat) (t : TenantId) (line off : Nat) (bytes old : List Byte) :
    (storedLine core t line off bytes old).bytes.length = 64 := padTo_length _ _

/-- The stored bytes stand at their place in the line. -/
theorem storedLine_getD {off : Nat} {bytes old : List Byte} (whole : old.length = 64) {i : Nat} (hi : i < min bytes.length (64 - off)) (core : Nat) (t : TenantId)
    (line : Nat) : (storedLine core t line off bytes old).bytes.getD (off + i) 0 = bytes.getD i 0 := by
  have fits : (overwrite old off (bytes.take (64 - off))).length = 64 := by
    simp only [overwrite, List.length_append, List.length_take, List.length_drop]
    omega
  have before : (old.take off).length = off := by rw [List.length_take]; omega
  rw [storedLine, padTo_of_length fits, overwrite, List.append_assoc, List.getD_append_right _ _ _ _ (by omega), before, Nat.add_sub_cancel_left,
    List.getD_append _ _ _ _ (by rw [List.length_take]; omega), List.getD_eq_getElem?_getD, List.getElem?_take_of_lt (by omega), List.getD_eq_getElem?_getD]

/-! ### Accesses of a control core that runs -/

section
variable {plan part core : Nat} {addr : BitVec 64} {m m' : Mach} {p : Plan} {j : Job} (runs : m.core.coreOf plan part core = some (p, j))
include runs

theorem coreLoad_line {k : Nat} (leads : m.core.coreAddr p j addr.toNat = .line k) {b : List Byte}
    (load : m.loadLine part core p.tenant (k / 64) = (some b, m')) : coreLoad plan part core addr false [] m = m'.up (Core.emit (.data b)) := by
  simp only [coreLoad, runs, leads, Mach.meetFor, List.foldl_nil, Bool.false_eq_true, if_false, load]

theorem coreStore_line {k : Nat} (leads : m.core.coreAddr p j addr.toNat = .line k) {bytes : List Byte}
    (store : m.storeLine part core p.tenant (k / 64) (addr.toNat % 64) bytes = (true, m')) : coreStore plan part core addr bytes false [] m = m' := by
  simp only [coreStore, runs, leads, Mach.meetFor, List.foldl_nil, Bool.false_eq_true, if_false, store, if_true]

end

namespace Mach.Caches
variable {plan part core : Nat} {addr : BitVec 64} {m m' : Mach} {q : CorePart} {p : Plan} {j : Job} {k : Nat} (h : m.Caches part q m')
  (here : part < m.core.parts.length) (runs : m'.core.coreOf plan part core = some (p, j)) (leads : m'.core.coreAddr p j addr.toNat = .line k)
  (sound : memPoisoned m.mem (k / 64) 1 = false) (room2 : (q.l2Others p.tenant (k / 64)).length < 16384)
  (room1 : (q.othersOf core p.tenant (k / 64)).length < 512)
include h here runs leads sound room2 room1

/-- With room in the caches a load of a sound cached line answers what `loaded` says. -/
theorem coreLoad : ∃ q' m'', m.Caches part q' m'' ∧
    Machine.coreLoad plan part core addr false [] m' = m''.up (Core.emit (.data (q.loaded core p.tenant (k / 64) (m.unit (k / 64 * 64))))) := by
  obtain ⟨q', m'', load, loaded, -⟩ := h.loadLine here room2 room1 sound
  exact ⟨q', m'', loaded, coreLoad_line runs leads load⟩

/-- With room in the caches a store of a sound cached line leaves in them what `stored` says, and memory as it was. -/
theorem coreStore (bytes : List Byte) : ∃ (r q' : CorePart),
    r = q'.stored core p.tenant (k / 64) (addr.toNat % 64) bytes (q.loaded core p.tenant (k / 64) (m.unit (k / 64 * 64))) ∧
    CorePart.OneLine p.tenant (k / 64) q r ∧ m.Caches part r (Machine.coreStore plan part core addr bytes false [] m') := by
  obtain ⟨q', m1, load, loaded, same⟩ := h.loadLine here room2 room1 sound
  obtain ⟨m2, store, stored⟩ := Mach.Caches.storeLine here load loaded ((same.others core).symm ▸ room1) (addr.toNat % 64) bytes
  exact ⟨_, q', rfl, same.trans .stored, by rwa [coreStore_line runs leads store]⟩

end Mach.Caches

/-- A command that changes caches alone answers a state from which the next command starts with those caches. -/
theorem runM_of_caches {f : Mach → Mach} {s : State} {part : Nat} {q : CorePart} (h : (startMach s).Caches part q (f (startMach s))) :
    ∃ t, runM f s = .next t ∧ t.mem = s.mem ∧ t.core = (f (startMach s)).core ∧ (startMach s).Caches part q (startMach t) := by
  obtain ⟨t, run, core, mem, pwr, -⟩ := runM_of_eq (f := f) (s := s) rfl
  rw [h.wr] at mem
  obtain ⟨ls, caches⟩ := h.core
  exact ⟨t, run, mem, core, mem, rfl, pwr, ls, by rw [startMach, core, caches]; rfl⟩

/-- Settles O54: the storing core's copy is the only one (`Mach.Caches.coreStore`), and the other core's load recalls it (`loaded_stored_of_ne`). -/
theorem coreStoresAreSeenByTheOtherCores : Obligations.CoreStoresAreSeenByTheOtherCores := by
  unfold Obligations.CoreStoresAreSeenByTheOtherCores
  intro plan part a b addr bs s p j k runsA runsB ne here leads sound room2 room1 whole1 whole2
  have few2 : ((s.core.part part).cores.l2Others p.tenant (k / 64)).length < 16384 := (List.length_filter_le _ _).trans_lt (by omega)
  have few1 : ∀ c, ((s.core.part part).cores.othersOf c p.tenant (k / 64)).length < 512 := fun c => (List.length_filter_le _ _).trans_lt (by omega)
  have whole := CorePart.length_loaded (core := a) (t := p.tenant) (line := k / 64) whole1 whole2 (memBytes_length s.mem (k / 64 * 64 / 64 * 64) 64)
  obtain ⟨r, q, after, same, stores⟩ := (Mach.Caches.refl part (startMach s)).coreStore here runsA leads sound few2 (few1 a) bs
  obtain ⟨t, store, mem, -, stored⟩ := runM_of_caches stores
  obtain ⟨q', m', loaded, answer⟩ := stored.coreLoad here ((stored.coreOf here same.failed plan b).trans runsB) ((stored.coreAddr p j _).trans leads) sound
    (same.l2Others.symm ▸ few2) ((same.others b).symm ▸ few1 b)
  rw [after, CorePart.loaded_stored_of_ne ne.symm] at answer
  obtain ⟨u, load, core, -⟩ := runM_of_eq answer
  exact ⟨t, u, _, store, mem, load, (congrArg Core.out core).trans (loaded.out_emit _), length_storedLine .., fun i hi => storedLine_getD whole hi ..⟩

end Sys2Proof.Machine
end

section
/-!
Loads, stores, reservations, CLEAN, INVAL and FENCE of one control core (07 R228, R239 to R243; 04 R114): an equation for each way an access goes, then O53.
-/

namespace Sys2Proof.Machine

/-! ### Reservations and cleaned lines in the caches of a die -/

namespace CorePart
variable (q : CorePart) (core : Nat) (t : TenantId) (line : Nat)

/-- The caches with a core's one reservation on a line (R243). -/
def reserve : CorePart := { q with reserved := q.reserved.filter (fun r => r.1 != core) ++ [(core, t, line)] }

/-- The caches without a core's reservation (R243). -/
def unreserve : CorePart := { q with reserved := q.reserved.filter fun r => r.1 != core }

/-- The caches with a line of the L2 as memory has it (R242). -/
def cleanedL2 : CorePart := { q with l2 := q.l2.map fun e => if e.tenant == t && e.line == line then { e with dirty := false } else e }

/-- The caches without a line (R240). -/
def withoutLine : CorePart :=
  { q with lines := q.lines.filter (fun e => !(e.tenant == t && e.line == line)), l2 := q.l2.filter fun e => !(e.tenant == t && e.line == line) }

variable {q core t line}

/-- A line held leaves room for itself. -/
theorem length_othersOf_lt {l : CacheLine} (own : q.held core t line = some l) (few : (q.lines.filter fun x => x.core == core).length ≤ 512) :
    (q.othersOf core t line).length < 512 := by
  obtain ⟨mem, mine, tenant, on⟩ := of_held own
  have others : q.othersOf core t line = (q.lines.filter fun x => x.core == core).filter fun e => !(e.tenant == t && e.line == line) := by
    rw [List.filter_filter, othersOf]
    exact List.filter_congr fun e _ => Bool.and_comm _ _
  rw [others]
  exact (List.length_filter_lt_length_iff_exists.2 ⟨l, List.mem_filter.2 ⟨mem, by simp [mine]⟩, by simp [tenant, on]⟩).trans_le few

/-- Ownership ends the reservations of the other cores, a store-conditional that of its own core. -/
theorem not_reserved_stored_unreserve {off : Nat} {bytes old : List Byte} {r : Nat × TenantId × Nat}
    (mem : r ∈ ((q.unreserve core).stored core t line off bytes old).reserved) : ¬ (r.2.1 = t ∧ r.2.2 = line) := by
  obtain ⟨kept, owned⟩ := List.mem_filter.1 mem
  have foreign : (r.1 != core) = true := (List.mem_filter.1 kept).2
  rintro ⟨rfl, rfl⟩
  simp [foreign] at owned

theorem not_dirty_cleaned {x : CacheLine} (mem : x ∈ (q.cleaned t line).lines) (tenant : x.tenant = t) (on : x.line = line) : x.dirty = false := by
  obtain ⟨e, -, rfl⟩ := List.mem_map.1 mem
  split at tenant <;> simp_all

theorem not_dirty_cleanedL2 {x : L2Line} (mem : x ∈ (q.cleanedL2 t line).l2) (tenant : x.tenant = t) (on : x.line = line) : x.dirty = false := by
  obtain ⟨e, -, rfl⟩ := List.mem_map.1 mem
  split at tenant <;> simp_all

theorem recalled_of_modified {d : CacheLine} (dirty : q.modified t line = some d) :
    q.recalled t line = (q.cleaned t line).putL2 { tenant := t, line := line, dirty := true, bytes := d.bytes } := by
  rw [recalled, dirty]

end CorePart

/-! ### Writes of one unit -/

/-- A store to station memory writes its bytes up to the end of the unit. -/
theorem Mach.memByte_coreSm (j : Job) (lp k : Nat) {off : Nat} (inside : off < 64) (bytes : List Byte) (m : Mach) (a : Nat) :
    memByte (m.coreSm j lp k off bytes).mem a =
      if k + off ≤ a ∧ a < k + off + min bytes.length (64 - off) then bytes.getD (a - (k + off)) 0 else memByte m.mem a := by
  have length : (bytes.take (64 - off)).length = min bytes.length (64 - off) := by rw [List.length_take, Nat.min_comm]
  have written : memByte (m.coreSm j lp k off bytes).mem a = if k + off ≤ a ∧ a < k + off + (bytes.take (64 - off)).length then
      (bytes.take (64 - off)).getD (a - (k + off)) 0 else memByte m.mem a := by
    unfold Mach.coreSm
    dsimp only
    rw [Mach.up_mem]
    split
    next whole =>
      have start : off = 0 := by omega
      subst start
      rw [Mach.putUnit_byte, padTo_of_length whole, whole]
      rfl
    next => exact memByte_bytes m.mem (k + off) a _
  rw [written, length]
  split
  next range => rw [List.getD_eq_getElem?_getD, List.getElem?_take_of_lt (by omega), List.getD_eq_getElem?_getD]
  next => rfl

/-- An effect on caches alone writes nothing. -/
theorem Mach.Caches.toExt {P : Wr → Prop} {part : Nat} {m m' : Mach} {q : CorePart} (h : m.Caches part q m') : Mach.Ext P m m' :=
  ⟨h.pwr, [], h.wr, h.mem, by simp⟩

theorem Mach.putUnit_extends (k : Nat) (bs : List Byte) (q : Bool) (m : Mach) : Mach.Ext (fun _ => True) m (m.putUnit k bs q) :=
  ((Mach.Ext.write trivial m).trans (.write trivial _)).then_up _

theorem Mach.coreSm_extends (j : Job) (lp k off : Nat) (bytes : List Byte) (m : Mach) : Mach.Ext (fun _ => True) m (m.coreSm j lp k off bytes) := by
  unfold Mach.coreSm
  dsimp only
  split
  · exact (Mach.putUnit_extends _ _ _ m).then_up _
  · exact ((Mach.Ext.write trivial m).then_up _).then_up _

theorem Mach.lineOut_extends (part : Nat) (t : TenantId) (k : Nat) (bs : List Byte) (m : Mach) : Mach.Ext (fun _ => True) m (m.lineOut part t k bs) := by
  unfold Mach.lineOut
  dsimp only
  split
  · exact (Mach.putUnit_extends _ _ _ m).then_up _
  · exact Mach.putUnit_extends _ _ _ m

theorem Mach.lineOut_mem (part : Nat) (t : TenantId) (k : Nat) (bs : List Byte) (m : Mach) : (m.lineOut part t k bs).mem = (m.putUnit k bs false).mem := by
  unfold Mach.lineOut
  dsimp only
  split <;> rfl

theorem Mach.lineOut_parts (part : Nat) (t : TenantId) (k : Nat) (bs : List Byte) (m : Mach) : (m.lineOut part t k bs).core.parts = m.core.parts := by
  have put : (m.putUnit k bs false).core.parts = m.core.parts := by rw [Mach.putUnit_core]
  unfold Mach.lineOut
  dsimp only
  split
  · obtain ⟨ls, touched⟩ := Core.touchLine_eq t (part / 2) (k / 64) (m.putUnit k bs false).core
    rw [Mach.up_core, touched, put]
  · exact put

/-! ### Accesses of a control core that runs -/

/-- The cached line of an access is that of the unit it leads to. -/
theorem Core.line_of_cachedLine {c : Core} {plan part core : Nat} {addr : BitVec 64} {p : Plan} {j : Job} (runs : c.coreOf plan part core = some (p, j))
    {t : TenantId} {line : Nat} (cached : c.cachedLine plan part core addr = some (t, line)) :
    ∃ k, c.coreAddr p j addr.toNat = .line k ∧ p.tenant = t ∧ k / 64 = line := by
  simp only [Core.cachedLine, runs, Option.bind_some] at cached
  split at cached
  next k leads => exact ⟨k, leads, by simpa using cached⟩
  next => exact absurd cached nofun

section
variable {plan part core : Nat} {addr : BitVec 64} {m : Mach} {p : Plan} {j : Job} (runs : m.core.coreOf plan part core = some (p, j))
include runs

theorem coreLoad_nowhere (leads : m.core.coreAddr p j addr.toNat = .none) :
    coreLoad plan part core addr false [] m = m.up (Core.emit (.dataAbort part core)) := by
  simp only [coreLoad, runs, leads]

theorem coreStore_nowhere (leads : m.core.coreAddr p j addr.toNat = .none) (bytes : List Byte) :
    coreStore plan part core addr bytes false [] m = m.up (Core.emit (.dataAbort part core)) := by
  simp only [coreStore, runs, leads]

theorem coreLoad_sm {k : Nat} (leads : m.core.coreAddr p j addr.toNat = .sm k) (sound : m.bad k = false) :
    coreLoad plan part core addr false [] m = m.up (Core.emit (.data (m.unit k))) := by
  simp only [coreLoad, runs, leads, Mach.meetFor, List.foldl_nil, sound, Bool.false_eq_true, if_false]

theorem coreStore_sm {k : Nat} (leads : m.core.coreAddr p j addr.toNat = .sm k) (bytes : List Byte) :
    coreStore plan part core addr bytes false [] m = m.coreSm j (splitOff 2 (gaOff addr.toNat)).1 k (addr.toNat % 64) bytes := by
  simp only [coreStore, runs, leads]

end

section
variable {plan part core : Nat} {addr : BitVec 64} {m : Mach} {t : TenantId} {line : Nat} (cached : m.core.cachedLine plan part core addr = some (t, line))
include cached

/-- A load-reserved of a line that the core holds answers it and reserves it (R243). -/
theorem loadReserved_of_held {p : Plan} {j : Job} (runs : m.core.coreOf plan part core = some (p, j)) {l : CacheLine}
    (own : (m.core.part part).cores.held core t line = some l) : loadReserved plan part core addr false [] m =
      (m.up fun c => c.modCores part fun q => q.reserve core t line).up (Core.emit (.data l.bytes)) := by
  obtain ⟨k, leads, rfl, rfl⟩ := Core.line_of_cachedLine runs cached
  obtain ⟨mem, mine, tenant, on⟩ := CorePart.of_held own
  have present : ((m.up (Core.emit (.data l.bytes))).core.part part).cores.lines.any (fun e => e.core == core && e.tenant == p.tenant && e.line == k / 64) = true :=
    List.any_eq_true.2 ⟨l, mem, by simp [mine, tenant, on]⟩
  have load := coreLoad_line runs leads (Mach.loadLine_of_held own)
  simp only [loadReserved, cached, load]
  rw [if_pos present]
  rfl

/-- A store-conditional without the core's reservation fails (R243). -/
theorem storeConditional_of_not_reserved (lost : (core, t, line) ∉ (m.core.part part).cores.reserved) (bytes : List Byte) :
    storeConditional plan part core addr bytes false m =
      (m.up fun c => c.modCores part fun q => q.unreserve core).up (Core.emit (.storeOk false)) := by
  have stands : (m.core.part part).cores.reserved.contains (core, t, line) = false := by simpa using lost
  simp only [storeConditional, cached, stands]
  rfl

/-- A store-conditional with the core's reservation is a store (R243). -/
theorem storeConditional_of_reserved (kept : (core, t, line) ∈ (m.core.part part).cores.reserved) {bytes : List Byte} {m' : Mach}
    (store : (m.up fun c => c.modCores part fun q => q.unreserve core).storeLine part core t line (addr.toNat % 64) bytes = (true, m')) :
    storeConditional plan part core addr bytes false m = m'.up (Core.emit (.storeOk true)) := by
  have stands : (m.core.part part).cores.reserved.contains (core, t, line) = true := by simpa using kept
  unfold CorePart.unreserve at store
  simp only [storeConditional, cached, stands, Bool.false_eq_true, if_false, if_true, store]

/-- CLEAN of a modified line writes it out of the L2, which it has gone back to (R242). -/
theorem coreClean_of_modified (here : part < m.core.parts.length) {d : CacheLine} (dirty : (m.core.part part).cores.modified t line = some d)
    (back : m.Caches part ((m.core.part part).cores.recalled t line) (m.recall part t line)) : coreClean plan part core addr false m =
      ((m.recall part t line).lineOut part t (line * 64) d.bytes).up fun c => c.modCores part fun q => q.cleanedL2 t line := by
  have found : ((m.core.part part).cores.recalled t line).l2.find? (fun e => e.tenant == t && e.line == line && e.dirty) =
      some { tenant := t, line := line, dirty := true, bytes := d.bytes } := by
    rw [CorePart.recalled_of_modified dirty]
    simp [CorePart.putL2]
  simp only [coreClean, cached, Bool.false_eq_true, if_false, back.cores here, found]
  rfl

end

/-- What CLEAN leaves of the caches, the line written out. -/
theorem Mach.Caches.cores_lineOut {part : Nat} {m m' : Mach} {q : CorePart} (h : m.Caches part q m') (here : part < m.core.parts.length) (t : TenantId) (k : Nat)
    (bs : List Byte) (f : CorePart → CorePart) : ((((m'.lineOut part t k bs).up fun c => c.modCores part f).core).part part).cores = f q := by
  have parts := m'.lineOut_parts part t k bs
  rw [Mach.up_core, Core.cores_modCores_self (by rw [parts, h.length_parts]; exact here), Core.part_congr parts, h.cores here]

/-- INVAL drops the line from every cache of the die (R240). -/
theorem coreInval_of_cached {plan part core : Nat} {addr : BitVec 64} {c : Core} {t : TenantId} {line : Nat}
    (cached : c.cachedLine plan part core addr = some (t, line)) : coreInval plan part core addr c = c.modCores part fun q => q.withoutLine t line := by
  simp only [coreInval, cached]
  rfl

/-- FENCE waits for nothing, since stores and CLEANs complete as they run (R240, R242). -/
theorem execFence_eq (plan part core : Nat) (s : State) : execFence plan part core s = .next { s with core := { s.core with out := [] } } := by
  unfold execFence runC
  dsimp only
  split <;> rfl

/-- A command that changes caches and answers one output. -/
theorem runM_of_caches_emit {f : Mach → Mach} {s : State} {part : Nat} (here : part < s.core.parts.length) {q : CorePart} {m : Mach} {o : Out}
    (effect : f (startMach s) = m.up (Core.emit o)) (h : (startMach s).Caches part q m) :
    ∃ t, runM f s = .next t ∧ t.mem = s.mem ∧ t.core.out = [o] ∧ (t.core.part part).cores = q := by
  obtain ⟨t, run, core, mem, -⟩ := runM_of_eq effect
  rw [Mach.up_wr, h.wr] at mem
  exact ⟨t, run, mem, (congrArg Core.out core).trans (h.out_emit o), (congrArg (fun c : Core => (c.part part).cores) core).trans (h.cores here)⟩

section
variable {plan part core : Nat} {addr : BitVec 64} {s : State}

/-- A store to a granted station memory unit writes its bytes inside the unit, and no other (04 R114). -/
theorem exec_store_sm {p : Plan} {j : Job} (runs : s.core.coreOf plan part core = some (p, j)) {k : Nat} (leads : s.core.coreAddr p j addr.toNat = .sm k)
    (bs : List Byte) : ∃ t, exec (.controlCoreStore plan part core addr bs false []) s = .next t ∧ t.pwr = s.pwr ∧
      (∀ i < min bs.length (64 - addr.toNat % 64), memByte t.mem (k + addr.toNat % 64 + i) = bs.getD i 0) ∧
      (∀ a, ¬ (k + addr.toNat % 64 ≤ a ∧ a < k + addr.toNat % 64 + min bs.length (64 - addr.toNat % 64)) → memByte t.mem a = memByte s.mem a) := by
  have effect := coreStore_sm (m := startMach s) runs leads bs
  have writes := (startMach s).coreSm_extends j (splitOff 2 (gaOff addr.toNat)).1 k (addr.toNat % 64) bs
  have bytes := Mach.memByte_coreSm j (splitOff 2 (gaOff addr.toNat)).1 k (Nat.mod_lt addr.toNat (show 64 > 0 by norm_num)) bs (startMach s)
  rw [← effect] at writes bytes
  refine ⟨_, runM_ext writes, rfl, fun i hi => ?_, fun a outside => (bytes a).trans (if_neg outside)⟩
  refine (bytes _).trans ?_
  rw [if_pos ⟨by omega, by omega⟩, Nat.add_sub_cancel_left]

section
variable (here : part < s.core.parts.length) {t : TenantId} {line : Nat} (cached : s.core.cachedLine plan part core addr = some (t, line))
include here cached

/-- A store-conditional that succeeds leaves the one copy of the line, and no reservation on it (R243). -/
theorem exec_storeConditional_of_reserved {e : CacheLine} (own : (s.core.part part).cores.held core t line = some e)
    (few : ((s.core.part part).cores.lines.filter fun x => x.core == core).length ≤ 512) (whole : e.bytes.length = 64)
    (kept : (core, t, line) ∈ (s.core.part part).cores.reserved) (bs : List Byte) :
    ∃ u x, exec (.storeConditional plan part core addr ⟨bs, false⟩) s = .next u ∧ u.mem = s.mem ∧ u.core.out = [.storeOk true] ∧
      x ∈ (u.core.part part).cores.lines ∧ x.core = core ∧ x.tenant = t ∧ x.line = line ∧ x.dirty = true ∧
      (∀ i < min bs.length (64 - addr.toNat % 64), x.bytes.getD (addr.toNat % 64 + i) 0 = bs.getD i 0) ∧
      (∀ y ∈ (u.core.part part).cores.lines, y.tenant = t → y.line = line → y.core = core) ∧
      ∀ r ∈ (u.core.part part).cores.reserved, ¬ (r.2.1 = t ∧ r.2.2 = line) := by
  have free := (Mach.Caches.refl part (startMach s)).modCores fun q => q.unreserve core
  obtain ⟨m, store, stored⟩ := Mach.Caches.storeLine here (Mach.loadLine_of_held (by rw [free.cores here]; exact own)) free
    (CorePart.length_othersOf_lt own few) (addr.toNat % 64) bs
  obtain ⟨u, run, mem, out, cores⟩ := runM_of_caches_emit here (storeConditional_of_reserved cached kept store) stored
  refine ⟨u, storedLine core t line (addr.toNat % 64) bs e.bytes, run, mem, out, ?_⟩
  rw [cores]
  exact ⟨CorePart.storedLine_mem, rfl, rfl, rfl, rfl, fun i hi => storedLine_getD whole hi ..,
    fun y copy tenant on => congrArg CacheLine.core (CorePart.eq_storedLine copy tenant on), fun r => CorePart.not_reserved_stored_unreserve⟩

/-- CLEAN of a modified line writes its bytes alone, and leaves no modified copy (R242). -/
theorem exec_clean_of_modified {d : CacheLine} (dirty : (s.core.part part).cores.modified t line = some d) (room : (s.core.part part).cores.l2.length < 16384)
    (whole : d.bytes.length = 64) : ∃ u, exec (.clean plan part core ⟨addr, false⟩) s = .next u ∧ u.pwr = s.pwr ∧
      (∀ i < 64, memByte u.mem (line * 64 + i) = d.bytes.getD i 0) ∧
      (∀ a, ¬ (line * 64 ≤ a ∧ a < line * 64 + 64) → memByte u.mem a = memByte s.mem a) ∧
      (∀ x ∈ (u.core.part part).cores.lines, x.tenant = t → x.line = line → x.dirty = false) ∧
      (∀ x ∈ (u.core.part part).cores.l2, x.tenant = t → x.line = line → x.dirty = false) := by
  have back := (Mach.Caches.refl part (startMach s)).recalled here (t := t) (line := line) ((List.length_filter_le _ _).trans_lt room)
  have effect := coreClean_of_modified (m := startMach s) cached here dirty back
  have writes := (back.toExt.trans (Mach.lineOut_extends part t (line * 64) d.bytes _)).then_up (fun c => c.modCores part fun q => q.cleanedL2 t line)
  have cores := (back.cores_lineOut here t (line * 64) d.bytes (fun q => q.cleanedL2 t line)).trans
    (congrArg (fun q => q.cleanedL2 t line) (CorePart.recalled_of_modified dirty))
  have bytes := fun a => Mach.putUnit_byte (line * 64) a d.bytes false ((startMach s).recall part t line)
  rw [padTo_of_length whole, back.mem, ← Mach.lineOut_mem part t, ← Mach.up_mem _ (fun c => c.modCores part fun q => q.cleanedL2 t line)] at bytes
  rw [← effect] at writes cores bytes
  refine ⟨_, runM_ext writes, rfl, fun i hi => ?_, fun a outside => (bytes a).trans (if_neg outside), fun x mem => ?_, fun x mem => ?_⟩
  · refine (bytes _).trans ?_
    rw [if_pos ⟨by omega, by omega⟩, Nat.add_sub_cancel_left]
  · exact CorePart.not_dirty_cleaned ((congrArg (x ∈ CorePart.lines ·) cores).mp mem)
  · exact CorePart.not_dirty_cleanedL2 ((congrArg (x ∈ CorePart.l2 ·) cores).mp mem)

/-- INVAL leaves no copy of the line on the die (R240). -/
theorem exec_inval_of_cached : ∃ u, exec (.inval plan part core addr) s = .next u ∧ u.mem = s.mem ∧ u.pwr = s.pwr ∧
    (∀ x ∈ (u.core.part part).cores.lines, ¬ (x.tenant = t ∧ x.line = line)) ∧ (∀ x ∈ (u.core.part part).cores.l2, ¬ (x.tenant = t ∧ x.line = line)) := by
  have cores := (congrArg (fun c : Core => (c.part part).cores) (coreInval_of_cached (c := { s.core with out := [] }) cached)).trans
    (Core.cores_modCores_self (c := { s.core with out := [] }) here _)
  refine ⟨_, rfl, rfl, rfl, fun x mem => ?_, fun x mem => ?_⟩
  · have kept := List.mem_filter.1 ((congrArg (x ∈ CorePart.lines ·) cores).mp mem)
    simpa [-not_and, not_and_or] using kept.2
  · have kept := List.mem_filter.1 ((congrArg (x ∈ CorePart.l2 ·) cores).mp mem)
    simpa [-not_and, not_and_or] using kept.2

end
end

/-- Settles O53: each clause is the equation of its access above, and what that access leaves. -/
theorem controlCoreLoadsAndStores : Obligations.ControlCoreLoadsAndStores := by
  unfold Obligations.ControlCoreLoadsAndStores
  intro plan part core addr s p j runs here q off
  have runs' : (startMach s).core.coreOf plan part core = some (p, j) := runs
  have start := Mach.Caches.refl part (startMach s)
  refine ⟨fun nowhere bs => ⟨?_, ?_⟩, fun k leads => ⟨fun sound => ?_, exec_store_sm runs leads⟩,
    fun t l e cached own few whole => ⟨?_, fun bs kept => exec_storeConditional_of_reserved here cached own few whole kept bs, fun bs lost => ?_⟩,
    fun t l d cached => exec_clean_of_modified here cached, fun t l cached => exec_inval_of_cached here cached,
    ⟨_, execFence_eq plan part core s, rfl, rfl, rfl⟩⟩
  · obtain ⟨t, run, core, mem, -⟩ := runM_of_eq (coreLoad_nowhere runs' nowhere)
    exact ⟨t, run, mem, core⟩
  · obtain ⟨t, run, core, mem, -⟩ := runM_of_eq (coreStore_nowhere runs' nowhere bs)
    exact ⟨t, run, mem, core⟩
  · obtain ⟨t, run, core, mem, -⟩ := runM_of_eq (coreLoad_sm runs' leads sound)
    exact ⟨t, run, mem, core⟩
  · obtain ⟨t', run, mem, out, cores⟩ := runM_of_caches_emit here (loadReserved_of_held cached runs' own) (start.modCores fun q => q.reserve core t l)
    exact ⟨t', run, mem, out, by rw [cores]; exact List.mem_append_right _ (List.mem_singleton_self _), by rw [cores]; rfl⟩
  · obtain ⟨t', run, mem, out, cores⟩ := runM_of_caches_emit here (storeConditional_of_not_reserved cached lost bs) (start.modCores fun q => q.unreserve core)
    exact ⟨t', run, mem, out, by rw [cores]; rfl⟩

end Sys2Proof.Machine
end

section
/-!
The links of the fabric (08 R255 to R268): what a port is after an update, what the sending of frames leaves of a port and of the module, and one equation
for each change of a port's state.
-/

namespace Sys2Proof.Machine

/-! ### A port after an update -/

@[simp] theorem Core.port_emit (c : Core) (o : Out) (i : Nat) : (c.emit o).port i = c.port i := rfl

@[simp] theorem Core.port_logRec (r : Rec) (c : Core) (i : Nat) : (c.logRec r).port i = c.port i := by rw [Core.port, Core.logRec_fab, Core.port]

@[simp] theorem Core.length_ports_modPort (c : Core) (i : Nat) (f : Port → Port) : (c.modPort i f).fab.ports.length = c.fab.ports.length :=
  List.length_modify f c.fab.ports i

@[simp] theorem Core.modPort_log (c : Core) (i : Nat) (f : Port → Port) : (c.modPort i f).log = c.log := rfl

/-- The port that was changed, and any other. -/
theorem Core.port_modPort (c : Core) (i j : Nat) (f : Port → Port) :
    (c.modPort i f).port j = if i = j ∧ j < c.fab.ports.length then f (c.port j) else c.port j := by
  simp only [Core.port, Core.modPort, Core.modFab, modAt, List.getD_eq_getElem?_getD, List.getElem?_modify]
  by_cases hit : i = j
  · by_cases here : j < c.fab.ports.length <;> simp [hit, here]
  · simp [hit]

theorem Core.port_modPort_self {c : Core} {i : Nat} (here : i < c.fab.ports.length) (f : Port → Port) : (c.modPort i f).port i = f (c.port i) := by
  rw [Core.port_modPort, if_pos ⟨rfl, here⟩]

theorem Core.modPort_modPort (c : Core) (i : Nat) (f g : Port → Port) : (c.modPort i f).modPort i g = c.modPort i fun q => g (f q) := by
  simp only [Core.modPort, Core.modFab, modAt, List.modify_modify_eq]
  rfl

/-- An update leaves what it leaves of every port, of the port it names and of the others. -/
theorem Core.modPort_leaves {α : Type} (field : Port → α) {f : Port → Port} (leaves : ∀ q, field (f q) = field q) (c : Core) (i j : Nat) :
    field ((c.modPort i f).port j) = field (c.port j) := by
  rw [Core.port_modPort]
  split
  · exact leaves _
  · rfl

/-! ### Frames on the wire -/

/-- `q` is `p` after frames and LINK_CTLs on its wire: key counters, the count of unacknowledged frames and the freed counts told may differ. -/
def Port.Wired (p q : Port) : Prop := ∃ tx old un told, q = { p with txCtr := tx, oldCtr := old, unacked := un, toldFreed := told }

theorem Port.Wired.refl (p : Port) : p.Wired p := ⟨p.txCtr, p.oldCtr, p.unacked, p.toldFreed, rfl⟩

theorem Port.Wired.trans {p q r : Port} (first : p.Wired q) (second : q.Wired r) : p.Wired r := by
  obtain ⟨_, _, _, _, rfl⟩ := first
  obtain ⟨tx, old, un, told, rfl⟩ := second
  exact ⟨tx, old, un, told, rfl⟩

theorem Core.wired_modPort {f : Port → Port} (wires : ∀ q : Port, q.Wired (f q)) (c : Core) (i j : Nat) : (c.port j).Wired ((c.modPort i f).port j) := by
  rw [Core.port_modPort]
  split
  · exact wires _
  · exact Port.Wired.refl _

/-- What the wire does: at most one frame leaves, and only the port's counters change. -/
theorem Core.wire_cases (i : Nat) (f : Frame) (c : Core) :
    c.wire i f = c ∨ ∃ o g, (∀ q : Port, q.Wired (g q)) ∧ c.wire i f = (c.emit o).modPort i g := by
  unfold Core.wire
  dsimp only
  split
  · split
    · exact .inl rfl
    · exact .inr ⟨_, _, fun q => ⟨q.txCtr, q.oldCtr + 1, 0, q.toldFreed, rfl⟩, rfl⟩
  · split
    · exact .inl rfl
    · exact .inr ⟨_, _, fun q => ⟨q.txCtr + 1, q.oldCtr, 0, q.toldFreed, rfl⟩, rfl⟩

theorem Core.wire_wired (i : Nat) (f : Frame) (c : Core) (j : Nat) : (c.port j).Wired ((c.wire i f).port j) := by
  obtain same | ⟨o, g, wires, sent⟩ := c.wire_cases i f
  · rw [same]
    exact Port.Wired.refl _
  · rw [sent]
    exact (c.emit o).wired_modPort wires i j

/-- A port with one more frame on its wire (R261, R289). -/
def Port.wired (q : Port) : Port := { q with txCtr := q.txCtr + 1, unacked := 0 }

/-- A port whose peer has been told every freed count (R263). -/
def Port.told (q : Port) : Port := { q with toldFreed := q.freed }

/-- A LINK_CTL is a frame of type 0 on VC7, after which the peer has been told every freed count (R263). -/
theorem Core.linkCtl_eq (i : Nat) (nak : Option U16) (flags : Nat) (c : Core) :
    ∃ f, f.vc = 7 ∧ f.typ = 0 ∧ c.linkCtl i nak flags = (c.wire i f).modPort i Port.told := ⟨_, rfl, rfl, rfl⟩

theorem Core.linkCtl_wired (i : Nat) (nak : Option U16) (flags : Nat) (c : Core) (j : Nat) : (c.port j).Wired ((c.linkCtl i nak flags).port j) := by
  obtain ⟨f, -, -, sent⟩ := c.linkCtl_eq i nak flags
  rw [sent]
  exact (c.wire_wired i f j).trans (Core.wired_modPort (fun q => ⟨q.txCtr, q.oldCtr, q.unacked, q.freed, rfl⟩) _ i j)

theorem Core.wires_wired (i : Nat) (fs : List Frame) (c : Core) (j : Nat) : (c.port j).Wired ((fs.foldl (fun c f => c.wire i f) c).port j) := by
  induction fs generalizing c with
  | nil => exact Port.Wired.refl _
  | cons f rest ih => exact (c.wire_wired i f j).trans (ih _)

/-! ### Frames sent -/

/-- A port with all that the sending of frames changes as at reset. -/
def Port.unsent (q : Port) : Port :=
  { q with nextSeq := 0, held := [], waiting := [], unacked := 0, sent := List.replicate 8 0, toldFreed := List.replicate 8 0,
           reserve := 0xFFFFFFFFFFFFFFFFFFFFFFFF, inRes := [], turn := 0, left := 2192, txCtr := 0, oldCtr := 0 }

/-- A core with all that the sending of frames changes as at reset: sending leaves `c.unsent`. -/
def Core.unsent (c : Core) : Core := { c with fab := { c.fab with ports := c.fab.ports.map Port.unsent }, out := [] }

theorem Core.port_unsent (c : Core) (i : Nat) : c.unsent.port i = (c.port i).unsent := List.getD_map c.fab.ports {} Port.unsent

theorem Core.port_unsent_congr {c d : Core} (sends : d.unsent = c.unsent) (i : Nat) : (d.port i).unsent = (c.port i).unsent := by
  rw [← Core.port_unsent, sends, Core.port_unsent]

/-- A field that sending does not change is the same before and after frames were sent. -/
theorem Core.port_field_congr {α : Type} (field : Port → α) (still : ∀ q : Port, field q.unsent = field q) {c d : Core} (sends : d.unsent = c.unsent) (i : Nat) :
    field (d.port i) = field (c.port i) := by
  rw [← still, Core.port_unsent_congr sends, still]

theorem Core.log_congr {c d : Core} (sends : d.unsent = c.unsent) : d.log = c.log := by
  show d.unsent.log = c.unsent.log
  rw [sends]

theorem Core.clk_congr {c d : Core} (sends : d.unsent = c.unsent) : d.clk = c.clk := by
  show d.unsent.clk = c.unsent.clk
  rw [sends]

theorem Core.length_ports_congr {c d : Core} (sends : d.unsent = c.unsent) : d.fab.ports.length = c.fab.ports.length := by
  simpa [Core.unsent] using congrArg (fun x => x.fab.ports.length) sends

/-- An update that sets nothing but what sending changes. -/
theorem Core.unsent_modPort_of_sends {f : Port → Port} (sends : ∀ q, (f q).unsent = q.unsent) (c : Core) (i : Nat) : (c.modPort i f).unsent = c.unsent := by
  have ports : (modAt c.fab.ports i f).map Port.unsent = c.fab.ports.map Port.unsent := by
    refine List.ext_getElem? fun j => ?_
    rw [modAt, List.getElem?_map, List.getElem?_map, List.getElem?_modify]
    by_cases hit : i = j
    · cases c.fab.ports[j]? <;> simp [hit, sends]
    · simp [hit]
  simp only [Core.unsent, Core.modPort, Core.modFab, ports]

theorem Port.Wired.unsent {p q : Port} (wired : p.Wired q) : q.unsent = p.unsent := by
  obtain ⟨_, _, _, _, rfl⟩ := wired
  rfl

@[simp] theorem Core.unsent_emit (c : Core) (o : Out) : (c.emit o).unsent = c.unsent := rfl

@[simp] theorem Core.unsent_tellPorts (c : Core) : c.tellPorts.unsent = c.unsent := rfl

@[simp] theorem Core.unsent_wire (i : Nat) (f : Frame) (c : Core) : (c.wire i f).unsent = c.unsent := by
  obtain same | ⟨o, g, wires, sent⟩ := c.wire_cases i f
  · rw [same]
  · rw [sent, Core.unsent_modPort_of_sends fun q => (wires q).unsent, Core.unsent_emit]

@[simp] theorem Core.unsent_linkCtl (i : Nat) (nak : Option U16) (flags : Nat) (c : Core) : (c.linkCtl i nak flags).unsent = c.unsent := by
  obtain ⟨f, -, -, sent⟩ := c.linkCtl_eq i nak flags
  rw [sent, Core.unsent_modPort_of_sends (f := Port.told) fun _ => rfl, Core.unsent_wire]

@[simp] theorem Core.unsent_resendFrom (i : Nat) (n : U16) (c : Core) : (c.resendFrom i n).unsent = c.unsent :=
  foldl_leaves Core.unsent (fun c f => c.unsent_wire i f) _ c

@[simp] theorem Core.unsent_resendAll (i : Nat) (c : Core) : (c.resendAll i).unsent = c.unsent :=
  foldl_leaves Core.unsent (fun c f => c.unsent_wire i f) _ c

@[simp] theorem Core.unsent_sendOne (i k : Nat) (f : Frame) (c : Core) : (c.sendOne i k f).unsent = c.unsent := by
  refine (Core.unsent_wire i _ _).trans (Core.unsent_modPort_of_sends (fun q => ?_) c i)
  split <;> rfl

theorem Core.unsent_pumpN (n i : Nat) (c : Core) : (Core.pumpN n i c).unsent = c.unsent := by
  induction n generalizing c with
  | zero => rfl
  | succ n ih =>
    rw [Core.pumpN]
    split
    · split
      · rw [ih, Core.unsent_sendOne]
        exact Core.unsent_modPort_of_sends (by exact fun _ => rfl) c i
      · rfl
    · rfl

@[simp] theorem Core.unsent_pump (i : Nat) (c : Core) : (c.pump i).unsent = c.unsent := Core.unsent_pumpN _ i c

@[simp] theorem Core.unsent_pumps (is : List Nat) (c : Core) : (is.foldl (fun c i => c.pump i) c).unsent = c.unsent :=
  foldl_leaves Core.unsent (fun c i => c.unsent_pump i) is c

/-- A port with no frame waiting sends none. -/
theorem Core.pump_idle {c : Core} {i : Nat} (idle : (c.port i).waiting = []) : c.pump i = c := by
  rw [Core.pump, idle]
  rfl

/-! ### Frames on a port without encryption -/

section
variable {c : Core} {i : Nat} (plain : (c.port i).enc = false)
include plain

theorem Core.wire_plain (f : Frame) : ∃ b, c.wire i f =
    (c.emit (.frame i f.vc.toNat f.typ.toNat b)).modPort i Port.wired := by
  simp only [Core.wire, Port.oldKeyFor, plain, Bool.false_and, Bool.false_eq_true, if_false]
  exact ⟨_, rfl⟩

theorem Core.wire_out (f : Frame) : ∃ b, (c.wire i f).out = c.out ++ [.frame i f.vc.toNat f.typ.toNat b] := by
  obtain ⟨b, sent⟩ := Core.wire_plain plain f
  exact ⟨b, by rw [sent]; rfl⟩

theorem Core.linkCtl_plain (nak : Option U16) (flags : Nat) : ∃ b, c.linkCtl i nak flags =
    (c.emit (.frame i 7 0 b)).modPort i fun q => q.wired.told := by
  obtain ⟨f, vc, typ, told⟩ := c.linkCtl_eq i nak flags
  obtain ⟨b, sent⟩ := Core.wire_plain plain f
  rw [vc, typ] at sent
  exact ⟨b, by rw [told, sent, Core.modPort_modPort]; rfl⟩

theorem Core.sendInit_out : ∃ b, (c.sendInit i).out = c.out ++ [.frame i 7 0xD b] := Core.wire_out plain _

end

/-- Every frame resent leaves on a port without encryption. -/
theorem Core.length_out_wires {i : Nat} (fs : List Frame) {c : Core} (plain : (c.port i).enc = false) :
    (fs.foldl (fun c f => c.wire i f) c).out.length = c.out.length + fs.length := by
  induction fs generalizing c with
  | nil => rfl
  | cons f rest ih =>
    obtain ⟨tx, old, un, told, port⟩ := c.wire_wired i f i
    obtain ⟨b, out⟩ := Core.wire_out plain f
    rw [List.foldl_cons, ih (by rw [port]; exact plain), out, List.length_append, List.length_singleton, List.length_cons]
    omega

/-! ### Changes of a port's state -/

/-- A port that enters RETRAIN (R265). -/
def Port.retraining (q : Port) : Port := { q with st := .retrain, retrains := satInc q.retrains, synced := false }

/-- A port that goes back to UP (R265). -/
def Port.back (q : Port) : Port := { q with st := .up, resends := 0 }

/-- A port that has failed (R267). -/
def Port.failed (q : Port) : Port := { q with st := .failed, held := [], waiting := [], synced := false }

/-- A port with the acknowledgement of a frame of the link layer taken (R261, R262). -/
def Port.acknowledged (ack : U16) (q : Port) : Port :=
  let keep := q.held.dropWhile (fun f => decide ((ack - f.seq).toNat < 2 ^ 15))
  { q with tagFails := 0, held := keep, resends := if keep.length < q.held.length then 0 else q.resends }

theorem Core.linkAck_eq (i : Nat) (ack : U16) (c : Core) : c.linkAck i ack = c.modPort i (Port.acknowledged ack) := Core.modPort_modPort c i _ _

theorem Core.port_linkAck {c : Core} {i : Nat} (here : i < c.fab.ports.length) (ack : U16) : (c.linkAck i ack).port i = (c.port i).acknowledged ack := by
  rw [Core.linkAck_eq, Core.port_modPort_self here]

theorem Core.retrain_of_up {c : Core} {i : Nat} (up : (c.port i).st = .up) (ask : Bool) :
    c.retrain i ask = (if ask then c.linkCtl i none 4 else c).modPort i Port.retraining := by
  rw [Core.retrain, up]
  rfl

/-- A port in UP asked to retrain: its state and its count change, and the frames that it holds stay. -/
theorem Core.port_retrain {c : Core} {i : Nat} (here : i < c.fab.ports.length) (up : (c.port i).st = .up) (ask : Bool) :
    (c.port i).retraining.Wired ((c.retrain i ask).port i) := by
  rw [Core.retrain_of_up up]
  cases ask with
  | false =>
    rw [Core.port_modPort_self (by exact here)]
    exact Port.Wired.refl _
  | true =>
    obtain ⟨tx, old, un, told, port⟩ := c.linkCtl_wired i none 4 i
    rw [Core.port_modPort_self (by simpa [Core.length_ports_congr (Core.unsent_linkCtl i none 4 c)] using here)]
    exact ⟨tx, old, un, told, congrArg Port.retraining port⟩

@[simp] theorem Core.unsent_backUp (i : Nat) (c : Core) : (c.backUp i).unsent = (c.modPort i Port.back).unsent := by
  simp only [Core.backUp, Core.unsent_tellPorts, Core.unsent_pump, Core.unsent_linkCtl]
  rfl

/-- A port that holds no frame and has none waiting fails without a record (R267). -/
theorem Core.unsent_failPort {c : Core} {i : Nat} (held : (c.port i).held = []) (waiting : (c.port i).waiting = []) :
    (c.failPort i).unsent = (c.modPort i Port.failed).unsent := by
  simp only [Core.failPort, held, waiting, tenantsOf, List.foldl_nil, Core.unsent_tellPorts, Core.unsent_pumps]
  rfl

theorem Core.port_failPort_st {c : Core} {i : Nat} (here : i < c.fab.ports.length) (held : (c.port i).held = []) (waiting : (c.port i).waiting = []) :
    ((c.failPort i).port i).st = .failed := by
  rw [Core.port_field_congr Port.st (fun _ => rfl) (Core.unsent_failPort held waiting), Core.port_modPort_self here]
  rfl

theorem Core.failPort_log {c : Core} {i : Nat} (held : (c.port i).held = []) (waiting : (c.port i).waiting = []) : (c.failPort i).log = c.log := by
  rw [Core.log_congr (Core.unsent_failPort held waiting), Core.modPort_log]

end Sys2Proof.Machine
end

section
/-!
Timers of a port, bad and invalid frames, LINK_CTL and counter synchronization (08 R259 to R265; 06 R190 to R199): what each leaves of its port, then O44.
-/

namespace Sys2Proof.Machine

/-! ### What a command starts from -/

/-- The core that a command starts from: nothing is sent yet. -/
def State.start (s : State) : Core := { s.core with out := [] }

@[simp] theorem State.port_start (s : State) (i : Nat) : s.start.port i = s.core.port i := rfl
@[simp] theorem State.out_start (s : State) : s.start.out = [] := rfl
@[simp] theorem State.ports_start (s : State) : s.start.fab.ports = s.core.fab.ports := rfl

theorem runC_start (f : Power → Mem → Core → Core) (s : State) : runC f s = .next { s with core := f s.pwr s.mem s.start } := rfl

/-- An effect on a machine that changes its core alone. -/
theorem runM_up {f : Mach → Mach} {g : Core → Core} {s : State} (effect : f (startMach s) = (startMach s).up g) :
    runM f s = .next { s with core := g s.start } := by
  simp only [runM, effect]
  rfl

/-! ### Acknowledgements, credits and replay -/

/-- A LINK_CTL on a port without encryption is one frame, after which nothing is unacknowledged or untold (R261, R263). -/
theorem Core.linkCtl_answer {c : Core} {i : Nat} (here : i < c.fab.ports.length) (plain : (c.port i).enc = false) (nak : Option U16) (flags : Nat) :
    ∃ b, (c.linkCtl i nak flags).out = c.out ++ [.frame i 7 0 b] ∧ (c.linkCtl i nak flags).port i = (c.port i).wired.told := by
  obtain ⟨b, sent⟩ := Core.linkCtl_plain plain nak flags
  refine ⟨b, by rw [sent]; rfl, ?_⟩
  rw [sent, Core.port_modPort_self (by exact here)]
  rfl

/-- A port on which REPLAY_TIMEOUT is counted (R262). -/
def Port.timedOut (q : Port) : Port := { q with replayTo := satInc q.replayTo, resends := q.resends + 1 }

theorem replayTimeout_of_held {c : Core} {i : Nat} (up : (c.port i).st = .up) (held : (c.port i).held ≠ []) :
    replayTimeout i c = if 7 ≤ (c.port i).resends then ((c.modPort i Port.timedOut).resendAll i).retrain i true else (c.modPort i Port.timedOut).resendAll i := by
  have kept : (c.port i).held.isEmpty = false := by simpa using held
  simp only [replayTimeout, up, kept, bne_self_eq_false, Bool.or_self, Bool.false_eq_true, if_false, Nat.reduceLeDiff]
  rfl

/-- REPLAY_TIMEOUT counts and sends every held frame again; the eighth of a frame retrains (R262). -/
theorem replayTimeout_resends {c : Core} {i : Nat} (here : i < c.fab.ports.length) (up : (c.port i).st = .up) (plain : (c.port i).enc = false)
    (held : (c.port i).held ≠ []) : ((replayTimeout i c).port i).replayTo = satInc (c.port i).replayTo ∧ ((replayTimeout i c).port i).held = (c.port i).held ∧
      ((c.port i).resends < 7 → ((replayTimeout i c).port i).st = .up ∧ (replayTimeout i c).out.length = c.out.length + (c.port i).held.length) ∧
      (7 ≤ (c.port i).resends → ((replayTimeout i c).port i).st = .retrain) := by
  have counted := Core.port_modPort_self here Port.timedOut
  have wired := Core.wires_wired i ((c.modPort i Port.timedOut).port i).held (c.modPort i Port.timedOut) i
  have sent := Core.length_out_wires ((c.modPort i Port.timedOut).port i).held (c := c.modPort i Port.timedOut) (i := i) (by rw [counted]; exact plain)
  have length := Core.length_ports_congr (Core.unsent_resendAll i (c.modPort i Port.timedOut))
  rw [← Core.resendAll] at wired sent
  rw [counted] at wired sent
  obtain ⟨tx, old, un, told, port⟩ := wired
  rw [replayTimeout_of_held up held]
  split
  next eighth =>
    obtain ⟨tx', old', un', told', after⟩ := Core.port_retrain (by rw [length, Core.length_ports_modPort]; exact here) (by rw [port]; exact up) true
    rw [after, port]
    exact ⟨rfl, rfl, fun few => absurd eighth (Nat.not_le.2 few), fun _ => rfl⟩
  next few =>
    rw [port]
    exact ⟨rfl, rfl, fun _ => ⟨up, sent⟩, fun eighth => absurd eighth few⟩

/-- A port on which a frame with a bad CRC is counted, with the codewords that were uncorrectable (R261, R293). -/
def Port.badCrc (fec : Nat) (q : Port) : Port :=
  { q with crcErr := satInc q.crcErr, fecUncorr := BitVec.ofNat 16 (min 0xFFFF (q.fecUncorr.toNat + fec)), tagFails := 0 }

theorem frameBadCrc_of_up {c : Core} {i : Nat} (up : (c.port i).st = .up) (fec : Nat) :
    frameBadCrc i false fec c = (c.modPort i (Port.badCrc fec)).linkCtl i (some (c.port i).expect) 0 := by
  simp only [frameBadCrc, up]
  rfl

/-! ### Frames that arrive -/

/-- An unsequenced frame is delivered once its acknowledgement is taken (R261). -/
theorem Mach.arrive_unsequenced {m : Mach} {i : Nat} {g : Frame} (up : (m.core.port i).st = .up) (link : Frame.sequenced { g with job := none } = false)
    (deliver : Frame → Mach → Mach) : m.arrive i g deliver = deliver { g with job := none } (m.up (Core.linkAck i g.ack)) := by
  simp only [Mach.arrive, up, link]
  rfl

/-- A port that has taken the frame it expected (R261, R263). -/
def Port.taken (f : Frame) (q : Port) : Port :=
  { q with expect := q.expect + 1, unacked := q.unacked + 1, freed := modAt q.freed f.vc.toNat fun n => n + BitVec.ofNat 16 (f.units q.enc) }

/-- What follows a frame taken: an acknowledgement when 64 are due, and the frames that credits now allow (R261). -/
def Core.settle (i : Nat) (c : Core) : Core := (if 64 ≤ (c.port i).unacked then c.linkCtl i none 0 else c).pump i

@[simp] theorem Core.unsent_settle (i : Nat) (c : Core) : (c.settle i).unsent = c.unsent := by
  rw [Core.settle, Core.unsent_pump]
  split
  · exact c.unsent_linkCtl i none 0
  · rfl

/-- The expected frame discarded: it is acknowledged and recorded, and goes no further (R259). -/
def Core.discard (i : Nat) (g : Frame) (c : Core) : Core :=
  (((c.linkAck i g.ack).modPort i (Port.taken { g with job := none })).logRec (portRec 0x501 5 1 i)).settle i

theorem Mach.arrive_invalid {m : Mach} {i : Nat} {g : Frame} (up : (m.core.port i).st = .up) (numbered : g.sequenced = true)
    (next : g.seq = (m.core.port i).expect) (invalid : vcAllows g.typ.toNat g.vc.toNat = false) (deliver : Frame → Mach → Mach) :
    m.arrive i g deliver = m.up (Core.discard i g) := by
  have numbered' : Frame.sequenced { g with job := none } = true := numbered
  unfold Mach.arrive
  dsimp only
  rw [if_neg (by simp [up]), if_neg (by simp [numbered']), if_pos (by simp [next]), if_pos (by simp [invalid])]
  rfl

/-- A port with the credits of a LINK_CTL (R263) and the peer's switch to its new key (R289). -/
def Port.credited (b : List Byte) (q : Port) : Port :=
  { q with
    peerFreed := tabulate 8 fun v => BitVec.ofNat 16 (fieldAt b (2 * v) 2)
    reserve := BitVec.ofNat 96 (fieldAt b 16 12)
    inRes := q.inRes.filter fun e => !(bitOf (fieldAt b 16 12) e.2.1)
    rxKey := if bitOf (fieldAt b 30 1) 1 then q.rxNew.getD q.rxKey else q.rxKey
    rxNew := if bitOf (fieldAt b 30 1) 1 then none else q.rxNew }

theorem Core.retrain_leaves {α : Type} (field : Port → α) (leaves : ∀ q : Port, field q.retraining = field q) (i : Nat) (c : Core) (j : Nat) :
    field ((c.retrain i false).port j) = field (c.port j) := by
  unfold Core.retrain
  split
  · exact c.modPort_leaves field leaves i j
  · rfl

/-- A LINK_CTL taken leaves what sending and a retrain leave of a port with its credits. -/
theorem takeLinkCtl_leaves {α : Type} (field : Port → α) (sends : ∀ q : Port, field q.unsent = field q) (leaves : ∀ q : Port, field q.retraining = field q)
    (i : Nat) (f : Frame) (c : Core) (j : Nat) :
    field ((takeLinkCtl i f c).port j) = field ((c.modPort i (Port.credited (padTo 32 f.payload))).port j) := by
  have resent : ∀ (b : Bool) (n : U16) (x : Core), field ((if b then x.resendFrom i n else x).port j) = field (x.port j) := fun b n x => by
    split
    · exact Core.port_field_congr field sends (x.unsent_resendFrom i n) j
    · rfl
  have retrained : ∀ (b : Bool) (x : Core), field ((if b then x.retrain i false else x).port j) = field (x.port j) := fun b x => by
    split
    · exact x.retrain_leaves field leaves i j
    · rfl
  exact (Core.port_field_congr field sends (Core.unsent_pump i _) j).trans ((retrained _ _).trans (resent _ _ _))

/-! ### Counter synchronization -/

theorem Core.jumped_congr {c d : Core} (sends : d.unsent = c.unsent) (th : Int) : d.jumped th = c.jumped th := by
  show d.unsent.jumped th = c.unsent.jumped th
  rw [sends]

theorem Core.jumped_of_acquired {c : Core} (h : c.clk.acquired = true ∨ c.jobs ≠ [] ∨ c.fab.cfg.timeRoot = true) (th : Int) :
    c.jumped th = c.clk.count := by
  unfold Core.jumped
  rw [if_neg]
  rcases h with acquired | jobs | root
  · simp [acquired]
  · simp [jobs]
  · simp [root]

/-- A sync reply on a port in UP, the offset taken with the port's own ASYM (06 R191). -/
theorem takeSync_reply {c : Core} {i : Nat} (here : i < c.fab.ports.length) (up : (c.port i).st = .up) (ack : U16) (t1 t2 t3 t4 : BitVec 64) :
    let th := thetaPs t1 t2 t3 t4 (c.port i).asym
    let d := takeSync i true ack t1 t2 t3 t4 c
    (d.port i).theta = BitVec.ofInt 32 th ∧ (d.port i).thetaMag = BitVec.ofNat 16 (min 0xFFFF (th.natAbs / 125)) ∧ (d.port i).synced = true ∧
      d.clk.count = c.jumped th := by
  have sends : ((c.linkAck i ack).pump i).unsent = (c.modPort i (Port.acknowledged ack)).unsent := by rw [Core.unsent_pump, Core.linkAck_eq]
  have here' : i < ((c.linkAck i ack).pump i).fab.ports.length := by rw [Core.length_ports_congr sends, Core.length_ports_modPort]; exact here
  have asym : (((c.linkAck i ack).pump i).port i).asym = (c.port i).asym := by
    rw [Core.port_field_congr Port.asym (fun _ => rfl) sends, Core.port_modPort_self here]
    rfl
  have jumped := fun th => (Core.jumped_congr sends th).trans (show (c.modPort i (Port.acknowledged ack)).jumped th = c.jumped th from rfl)
  simp only [takeSync, up, bne_self_eq_false, Bool.false_eq_true, if_false, if_true]
  generalize (c.linkAck i ack).pump i = x at *
  rw [← asym, ← jumped]
  have port := Core.port_modPort_self here'
  refine ⟨congrArg Port.theta (port _), congrArg Port.thetaMag (port _), congrArg Port.synced (port _), rfl⟩

/-- Each job of several modules is unclean while sync is lost (06 R194). -/
theorem Core.cause_of_uncleanMulti (c : Core) {j : Job} (mem : j ∈ c.uncleanMulti.jobs) (multi : c.uncleanMulti.multiModule j = true) :
    causeFault ≤ (j.verdict j.step).cause := by
  obtain ⟨k, -, rfl⟩ := List.mem_map.1 mem
  cases own : c.multiModule k with
  | false =>
    rw [own] at multi
    exact absurd multi (Bool.eq_false_iff.1 own)
  | true =>
    have cause := k.verdict_modVerdict (s := k.step) (f := fun v => { v with cause := max v.cause causeFault }) fun _ => rfl
    exact (Nat.le_max_right _ _).trans_eq (congrArg Verdict.cause cause).symm

/-- Each job reported failed is named in a notice to its members. -/
theorem Core.mem_out_membersFailed (hs : List Nat) (c : Core) {h : Nat} (reported : h ∈ hs ∨ Out.vc7 0xFFFF 1 [h] ∈ c.out) :
    .vc7 0xFFFF 1 [h] ∈ (hs.foldl (fun c h => c.memberFailed h) c).out := by
  induction hs generalizing c with
  | nil => exact reported.resolve_left List.not_mem_nil
  | cons k rest ih =>
    refine ih _ ?_
    have out : (c.memberFailed k).out = c.out ++ [.vc7 0xFFFF 1 [k]] := rfl
    rw [out, List.mem_append, List.mem_singleton]
    rcases reported with mem | sent
    · rcases List.mem_cons.1 mem with rfl | later
      · exact .inr (.inr rfl)
      · exact .inl later
    · exact .inr (.inl sent)

/-! ### O44 -/

theorem exec_retrainNoProgress {s : State} {i : Nat} (held : (s.core.port i).held ≠ []) :
    exec (.retrainNoProgress i) s = .next { s with core := s.start.retrain i true } := by
  show execRetrainNoProgress i s = _
  simp [execRetrainNoProgress, runC_start, held]

section
variable {s : State} {i : Nat} (up : (s.core.port i).st = .up)
include up

theorem exec_ackTimer (due : 0 < (s.core.port i).unacked) : exec (.ackTimer i) s = .next { s with core := s.start.linkCtl i none 0 } := by
  show execAckTimer i s = _
  simp [execAckTimer, runC_start, up, due]

theorem exec_creditUpdateTimer (untold : (s.core.port i).freed ≠ (s.core.port i).toldFreed) :
    exec (.creditUpdateTimer i) s = .next { s with core := s.start.linkCtl i none 0 } := by
  show execCreditUpdateTimer i s = _
  simp [execCreditUpdateTimer, runC_start, up, untold]

/-- A sync request on a port with no frame waiting: its acknowledgement is taken, and one frame answers it. -/
theorem exec_sync_request (idle : (s.core.port i).waiting = []) (ack : U16) (t1 t2 t3 t4 : BitVec 64) :
    ∃ f, f.vc = 7 ∧ f.typ = 1 ∧ exec (.sync i ⟨false, ack⟩ t1 t2 t3 t4) s = .next { s with core := (s.start.linkAck i ack).wire i f } := by
  have still : ((s.start.linkAck i ack).port i).waiting = [] := by
    rw [Core.linkAck_eq, Core.modPort_leaves Port.waiting (f := Port.acknowledged ack) fun _ => rfl]
    exact idle
  refine ⟨{ vc := 7, typ := 1, dst := (s.core.port i).peerId, src := BitVec.ofNat 14 s.core.fab.cfg.own,
            payload := padTo 32 (bytesLE 8 t1.toNat ++ bytesLE 8 t2.toNat ++ bytesLE 8 t3.toNat) }, rfl, rfl, ?_⟩
  show execSync i ⟨false, ack⟩ t1 t2 t3 t4 s = _
  simp only [execSync, runC_start, takeSync, State.port_start, up, Core.pump_idle still]
  rfl

theorem exec_syncExchangeTimer : ∃ f, f.vc = 7 ∧ f.typ = 1 ∧ exec (.syncExchangeTimer i) s = .next { s with core := s.start.wire i f } := by
  refine ⟨{ vc := 7, typ := 1, dst := (s.core.port i).peerId, src := BitVec.ofNat 14 s.core.fab.cfg.own,
            payload := padTo 32 (bytesLE 8 (s.core.clk.count * 8).toNat) }, rfl, rfl, ?_⟩
  show execSyncExchangeTimer i s = _
  simp only [execSyncExchangeTimer, runC_start, State.port_start, up]
  rfl

theorem exec_frameInvalid {f : Frame} (next : f.seq = (s.core.port i).expect) (invalid : vcAllows f.typ.toNat f.vc.toNat = false)
    (noSync : f.typ ≠ 1) (noInit : f.typ ≠ 0xD) : exec (.frameInvalid i f) s = .next { s with core := s.start.discard i f } := by
  have noCtl : f.typ ≠ 0 := by
    intro ctl
    simp [ctl, vcAllows] at invalid
  refine runM_up (f := fun m => if vcAllows f.typ.toNat f.vc.toNat then m else m.arrive i f fun _ m => m.up (Core.logRec (portRec 0x501 5 1 i))) ?_
  rw [if_neg (by simp [invalid])]
  exact Mach.arrive_invalid up (by simpa [Frame.sequenced] using ⟨⟨noCtl, noSync⟩, noInit⟩) next invalid _

theorem exec_linkCtl (f : Frame) : exec (.linkCtl i f) s = .next { s with core := takeLinkCtl i { f with typ := 0, job := none } (s.start.linkAck i f.ack) } :=
  runM_up (f := Mach.arrive i { f with typ := 0 } fun f m => m.up (takeLinkCtl i f))
    (g := fun c => takeLinkCtl i { f with typ := 0, job := none } (c.linkAck i f.ack)) (Mach.arrive_unsequenced up rfl _)

end

/-- A timer of acknowledgements or credits sends one LINK_CTL (R261, R263, R264). -/
theorem linkCtl_timers {s : State} {i : Nat} (here : i < s.core.fab.ports.length) (up : (s.core.port i).st = .up) (plain : (s.core.port i).enc = false) :
    (0 < (s.core.port i).unacked → ∃ t b, exec (.ackTimer i) s = .next t ∧ t.mem = s.mem ∧ t.pwr = s.pwr ∧ t.core.out = [.frame i 7 0 b] ∧
      (t.core.port i).unacked = 0 ∧ (t.core.port i).toldFreed = (s.core.port i).freed) ∧
    ((s.core.port i).freed ≠ (s.core.port i).toldFreed → ∃ t b, exec (.creditUpdateTimer i) s = .next t ∧ t.mem = s.mem ∧ t.pwr = s.pwr ∧
      t.core.out = [.frame i 7 0 b] ∧ (t.core.port i).toldFreed = (s.core.port i).freed) := by
  obtain ⟨b, out, port⟩ := Core.linkCtl_answer (c := s.start) here plain none 0
  exact ⟨fun due => ⟨_, b, exec_ackTimer up due, rfl, rfl, out, congrArg Port.unacked port, congrArg Port.toldFreed port⟩,
    fun untold => ⟨_, b, exec_creditUpdateTimer up untold, rfl, rfl, out, congrArg Port.toldFreed port⟩⟩

theorem frameBadCrc_counts {s : State} {i : Nat} (here : i < s.core.fab.ports.length) (up : (s.core.port i).st = .up) (plain : (s.core.port i).enc = false)
    (fec : Nat) : ∃ t b, exec (.frameBadCrc i false fec) s = .next t ∧ t.mem = s.mem ∧ t.pwr = s.pwr ∧ t.core.out = [.frame i 7 0 b] ∧
      (t.core.port i).crcErr = satInc (s.core.port i).crcErr ∧ (t.core.port i).fecUncorr.toNat = min 0xFFFF ((s.core.port i).fecUncorr.toNat + fec) ∧
      (t.core.port i).expect = (s.core.port i).expect := by
  have counted : (s.start.modPort i (Port.badCrc fec)).port i = (s.core.port i).badCrc fec := Core.port_modPort_self here _
  obtain ⟨b, out, port⟩ := Core.linkCtl_answer (c := s.start.modPort i (Port.badCrc fec)) (i := i) (by simpa using here) (by rw [counted]; exact plain)
    (some (s.core.port i).expect) 0
  rw [counted] at port
  have run : exec (.frameBadCrc i false fec) s = .next { s with core := (s.start.modPort i (Port.badCrc fec)).linkCtl i (some (s.core.port i).expect) 0 } := by
    show Host.Outcome.next { s with core := frameBadCrc i false fec s.start } = _
    rw [frameBadCrc_of_up (by exact up)]
    rfl
  have saturates : ((s.core.port i).badCrc fec).fecUncorr.toNat = min 0xFFFF ((s.core.port i).fecUncorr.toNat + fec) :=
    (BitVec.toNat_ofNat _ _).trans (Nat.mod_eq_of_lt (by omega))
  exact ⟨_, b, run, rfl, rfl, out, congrArg Port.crcErr port, (congrArg (fun q : Port => q.fecUncorr.toNat) port).trans saturates,
    (congrArg Port.expect port :)⟩

/-- A SYNC request frees the frames that it acknowledges and is answered; the counter stays (R262; 06 R191). -/
theorem sync_request_answered {s : State} {i : Nat} (here : i < s.core.fab.ports.length) (up : (s.core.port i).st = .up)
    (plain : (s.core.port i).enc = false) (idle : (s.core.port i).waiting = []) (ack : U16) (t1 t2 t3 t4 : BitVec 64) :
    ∃ t b, exec (.sync i ⟨false, ack⟩ t1 t2 t3 t4) s = .next t ∧ t.mem = s.mem ∧ t.pwr = s.pwr ∧ t.core.out = [.frame i 7 1 b] ∧ t.core.clk = s.core.clk ∧
      (t.core.port i).held = (s.core.port i).held.dropWhile (fun f => decide ((ack - f.seq).toNat < 2 ^ 15)) := by
  obtain ⟨f, vc, typ, run⟩ := exec_sync_request up idle ack t1 t2 t3 t4
  have acked : (s.start.linkAck i ack).port i = (s.core.port i).acknowledged ack := Core.port_linkAck here ack
  obtain ⟨b, out⟩ := Core.wire_out (c := s.start.linkAck i ack) (i := i) (by rw [acked]; exact plain) f
  obtain ⟨tx, old, un, told, port⟩ := Core.wire_wired i f (s.start.linkAck i ack) i
  rw [vc, typ] at out
  rw [acked] at port
  have clk := Core.clk_congr (Core.unsent_wire i f (s.start.linkAck i ack))
  exact ⟨_, b, run, rfl, rfl, out, clk, congrArg Port.held port⟩

theorem syncExchangeTimer_sends {s : State} {i : Nat} (up : (s.core.port i).st = .up) (plain : (s.core.port i).enc = false) :
    ∃ t b, exec (.syncExchangeTimer i) s = .next t ∧ t.mem = s.mem ∧ t.pwr = s.pwr ∧ t.core.out = [.frame i 7 1 b] := by
  obtain ⟨f, vc, typ, run⟩ := exec_syncExchangeTimer up
  obtain ⟨b, out⟩ := Core.wire_out (c := s.start) plain f
  rw [vc, typ] at out
  exact ⟨_, b, run, rfl, rfl, out⟩

/-- A frame that its VC does not allow is taken as numbered, and its record is the newest (R259). -/
theorem frameInvalid_records {s : State} {i : Nat} (here : i < s.core.fab.ports.length) (up : (s.core.port i).st = .up) {f : Frame}
    (next : f.seq = (s.core.port i).expect) (invalid : vcAllows f.typ.toNat f.vc.toNat = false) (noSync : f.typ ≠ 1) (noInit : f.typ ≠ 0xD) :
    ∃ t, exec (.frameInvalid i f) s = .next t ∧ t.mem = s.mem ∧ t.pwr = s.pwr ∧ (t.core.port i).expect = (s.core.port i).expect + 1 ∧
      ∃ r, t.core.log.recs.head? = some r ∧ r.code = 0x501 ∧ r.cls = 5 := by
  have settled := Core.unsent_settle i (((s.start.linkAck i f.ack).modPort i (Port.taken { f with job := none })).logRec (portRec 0x501 5 1 i))
  refine ⟨_, exec_frameInvalid up next invalid noSync noInit, rfl, rfl, ?_, ?_⟩
  · have expect := Core.port_field_congr Port.expect (fun _ => rfl) settled i
    rw [Core.port_logRec, Core.linkAck_eq, Core.modPort_modPort, Core.port_modPort_self (by exact here)] at expect
    rw [Core.discard, Core.linkAck_eq, Core.modPort_modPort]
    exact expect
  · exact ⟨_, (congrArg (fun l : Log => l.recs.head?) (Core.log_congr settled)).trans (Core.logRec_head _ _), rfl, rfl⟩

theorem linkCtl_takes_credits {s : State} {i : Nat} (here : i < s.core.fab.ports.length) (up : (s.core.port i).st = .up) (f : Frame) :
    ∃ t, exec (.linkCtl i f) s = .next t ∧ t.mem = s.mem ∧ t.pwr = s.pwr ∧
      (t.core.port i).peerFreed = tabulate 8 (fun v => BitVec.ofNat 16 (fieldAt (padTo 32 f.payload) (2 * v) 2)) ∧
      (t.core.port i).expect = (s.core.port i).expect := by
  have acked : (s.start.linkAck i f.ack).port i = (s.core.port i).acknowledged f.ack := Core.port_linkAck here f.ack
  have credited := Core.port_modPort_self (c := s.start.linkAck i f.ack) (i := i) (by rw [Core.linkAck_eq]; simpa using here) (Port.credited (padTo 32 f.payload))
  rw [acked] at credited
  have leaves := takeLinkCtl_leaves (fun q => (q.peerFreed, q.expect)) (fun _ => rfl) (fun _ => rfl) i { f with typ := 0, job := none }
    (s.start.linkAck i f.ack) i
  rw [credited] at leaves
  exact ⟨_, exec_linkCtl up f, rfl, rfl, congrArg Prod.fst leaves, congrArg Prod.snd leaves⟩

/-- A SYNC reply gives theta, and the counter makes its one jump or stays (06 R190, R191). -/
theorem sync_reply_gives_theta {s : State} {i : Nat} (here : i < s.core.fab.ports.length) (up : (s.core.port i).st = .up) (ack : U16)
    (t1 t2 t3 t4 : BitVec 64) :
    ∃ t, exec (.sync i ⟨true, ack⟩ t1 t2 t3 t4) s = .next t ∧ t.mem = s.mem ∧ t.pwr = s.pwr ∧
      let th := thetaPs t1 t2 t3 t4 (s.core.port i).asym
      (t.core.port i).theta = BitVec.ofInt 32 th ∧ (t.core.port i).thetaMag.toNat = min 0xFFFF (th.natAbs / 125) ∧ (t.core.port i).synced = true ∧
      (s.core.clk.acquired = false → s.core.jobs = [] → s.core.fab.cfg.timeRoot = false →
        t.core.clk.count = BitVec.ofInt 64 ((s.core.clk.count.toNat : Int) + th / 1000)) ∧
      (s.core.clk.acquired = true ∨ s.core.jobs ≠ [] ∨ s.core.fab.cfg.timeRoot = true → t.core.clk.count = s.core.clk.count) := by
  obtain ⟨theta, mag, synced, count⟩ := takeSync_reply (c := s.start) here up ack t1 t2 t3 t4
  refine ⟨{ s with core := takeSync i true ack t1 t2 t3 t4 s.start }, rfl, rfl, rfl, theta, ?_, synced, fun fresh idle leaf => ?_, fun settled => ?_⟩
  · rw [mag, BitVec.toNat_ofNat]
    exact Nat.mod_eq_of_lt (by omega)
  · rw [count, Core.jumped, if_pos]
    · rfl
    · simp [State.start, fresh, idle, leaf]
  · exact count.trans (Core.jumped_of_acquired (c := s.start) settled _)

/-- A fabric that has lost sync (06 R199). -/
def Fabric.unsynced (q : Fabric) : Fabric :=
  { q with syncState := 3, lostSeen := true, ports := q.ports.map fun p => { p with synced := false } }

theorem Core.synced_unsynced (c : Core) (i : Nat) : ((c.modFab Fabric.unsynced).port i).synced = false := by
  rw [Core.port, Core.modFab_fab, Fabric.unsynced, List.getD_eq_getElem?_getD, List.getElem?_map]
  cases c.fab.ports[i]? <;> rfl

theorem syncLost_of_in_sync {s : State} {i : Nat} (inSync : s.core.fab.syncState ≠ 3) :
    ∃ t r, exec .syncLost s = .next t ∧ t.mem = s.mem ∧ t.pwr = s.pwr ∧ t.core.fab.syncState = 3 ∧ t.core.fab.lostSeen = true ∧
      t.core.log.recs.head? = some r ∧ r.code = 0x509 ∧ (t.core.port i).synced = false ∧
      ∀ j ∈ t.core.jobs, t.core.multiModule j = true → causeFault ≤ (j.verdict j.step).cause := by
  have run : exec .syncLost s = .next { s with core := ((s.start.logRec (modRec 0x509 1 2 0xFF 0 0)).modFab Fabric.unsynced).uncleanMulti } := by
    show Host.Outcome.next { s with core := syncLost s.start } = _
    rw [syncLost, if_neg (by simpa [State.start] using inSync)]
    rfl
  exact ⟨_, _, run, rfl, rfl, rfl, rfl, Core.logRec_head _ _, rfl, Core.synced_unsynced _ i, fun j => Core.cause_of_uncleanMulti _⟩

theorem syncNotRegained_reports {s : State} (lost : s.core.fab.syncState = 3) :
    ∃ t, exec .syncNotRegained s = .next t ∧ t.mem = s.mem ∧ t.pwr = s.pwr ∧
      ∀ j ∈ s.core.jobs, s.core.multiModule j = true → .vc7 0xFFFF 1 [j.plan] ∈ t.core.out := by
  have run : exec .syncNotRegained s = .next { s with core := s.start.failMulti } := by
    show execSyncNotRegained s = _
    simp [execSyncNotRegained, runC_start, State.start, lost]
  exact ⟨_, run, rfl, rfl, fun j mem multi =>
    Core.mem_out_membersFailed _ _ (.inl (List.mem_map.2 ⟨j, List.mem_filter.2 ⟨mem, multi⟩, rfl⟩))⟩

/-- Settles O44: each clause is a lemma above, of its timer, its frame or its event of counter synchronization. -/
theorem linkTimersFramesAndSync : Obligations.LinkTimersFramesAndSync := by
  unfold Obligations.LinkTimersFramesAndSync
  intro s i here pt
  refine ⟨fun up plain => ?_, fun up f next invalid noSync noInit => frameInvalid_records here up next invalid noSync noInit,
    fun up f => linkCtl_takes_credits here up f, fun up ack t1 t2 t3 t4 => sync_reply_gives_theta here up ack t1 t2 t3 t4,
    syncLost_of_in_sync, syncNotRegained_reports⟩
  obtain ⟨ack, credit⟩ := linkCtl_timers here up plain
  refine ⟨ack, credit, fun held => ?_, fun held => ?_, frameBadCrc_counts here up plain,
    fun ack t1 t2 t3 t4 idle => sync_request_answered here up plain idle ack t1 t2 t3 t4, syncExchangeTimer_sends up plain⟩
  · obtain ⟨count, kept, few, eighth⟩ := replayTimeout_resends (c := s.start) here up plain held
    exact ⟨{ s with core := replayTimeout i s.start }, rfl, rfl, rfl, count, kept, fun n => by simpa using few n, eighth⟩
  · obtain ⟨tx, old, un, told, port⟩ := Core.port_retrain (c := s.start) here up true
    exact ⟨_, exec_retrainNoProgress held, rfl, rfl, congrArg Port.st port, congrArg Port.retrains port⟩

end Sys2Proof.Machine
end

section
/-!
A port's life (08 R255, R264 to R267, R274, R289, R292): training, LINK_INIT, failing lanes, retraining and keys. One equation for each way an event goes,
then O45.
-/

namespace Sys2Proof.Machine

/-! ### Training (R255, R265, R266) -/

theorem Core.sendInit_wired (i : Nat) (c : Core) (j : Nat) : (c.port j).Wired ((c.sendInit i).port j) := c.wire_wired i _ j

@[simp] theorem Core.unsent_sendInit (i : Nat) (c : Core) : (c.sendInit i).unsent = c.unsent := c.unsent_wire i _

/-- A port fully trained: its one-way delay, its healthy lanes, and the lane that L4 replaces (R255). -/
def Port.trainedOn (oneway : BitVec 14) (lanes : BitVec 5) (spare : BitVec 3) (q : Port) : Port :=
  { q with lanesOk := lanes, oneway := oneway, trained := true, spareFor := spare }

section
variable {c : Core} {i : Nat} (train : (c.port i).st = .train)
include train

theorem trainingDone_of_all_lanes (w : BitVec 14) : trainingDone i w 31 c = (c.modPort i (Port.trainedOn w 31 7)).sendInit i := by
  have bad : lanesBad 31 = [] := rfl
  simp only [trainingDone, train, bad]
  rfl

theorem trainingDone_of_one_bad (w : BitVec 14) :
    trainingDone i w 30 c = ((c.modPort i (Port.trainedOn w 30 0)).logRec (portRec 0x508 2 1 i)).sendInit i := by
  have bad : lanesBad 30 = [0] := rfl
  simp only [trainingDone, train, bad]
  rfl

theorem trainingDone_of_two_bad (w : BitVec 14) : trainingDone i w 28 c = (c.modPort i (Port.trainedOn w 28 7)).failPort i := by
  have bad : lanesBad 28 = [0, 1] := rfl
  simp only [trainingDone, train, bad]
  rfl

theorem trainingFailed_of_train : trainingFailed i c = c.failPort i := by simp [trainingFailed, train]

end

/-- A port whose fast retrain failed: it trains in full again, and keeps the frames that it holds (R265). -/
def Port.untrained (q : Port) : Port := { q with st := .train, trained := false }

/-! ### LINK_INIT (R266) -/

/-- A port that its peer's LINK_INIT brings up. -/
def Port.initiated (f : Frame) (q : Port) : Port :=
  { q with st := .up, initGot := true, peerId := BitVec.ofNat 14 (fieldAt f.payload 0 2), peerPort := BitVec.ofNat 4 (fieldAt f.payload 2 1), resends := 0 }

@[simp] theorem Core.ports_acquiring (c : Core) : c.acquiring.fab.ports = c.fab.ports := by
  unfold Core.acquiring
  split <;> rfl

section
variable {c : Core} {i : Nat} {f : Frame} (train : (c.port i).st = .train) (trained : (c.port i).trained = true)
include train trained

theorem takeInit_of_other_peer (other : c.fab.cfg.peerOf i ≠ some (fieldAt f.payload 0 2, fieldAt f.payload 2 1)) :
    takeInit i f c = (c.logRec (portRec 0x502 5 2 i)).failPort i := by
  unfold takeInit
  dsimp only
  rw [if_neg (by simp [train, trained]), if_pos (by simpa using other)]

variable (peer : c.fab.cfg.peerOf i = some (fieldAt f.payload 0 2, fieldAt f.payload 2 1))
include peer

theorem takeInit_of_other_mode (other : fieldAt f.payload 3 1 ≠ boolNat c.fab.cfg.celoth1 ∨ fieldAt f.payload 4 4 ≠ c.fab.cfg.digest.toNat) :
    takeInit i f c = (c.logRec (portRec 0x503 5 2 i)).failPort i := by
  unfold takeInit
  dsimp only
  rw [if_neg (by simp [train, trained]), if_neg (by simp [peer]), if_pos (by simpa using other)]

/-- A good LINK_INIT brings the port up; a peer that was up before gets a NAK with the number expected (R265). -/
theorem takeInit_of_good (mode : fieldAt f.payload 3 1 = boolNat c.fab.cfg.celoth1) (digest : fieldAt f.payload 4 4 = c.fab.cfg.digest.toNat) :
    ∃ x : Core, x.fab.ports.length = c.fab.ports.length ∧ takeInit i f c =
      if (c.port i).initGot then (x.modPort i (Port.initiated f)).backUp i else ((x.modPort i (Port.initiated f)).pump i).tellPorts := by
  unfold takeInit
  dsimp only
  rw [if_neg (by simp [train, trained]), if_neg (by simp [peer]), if_neg (by simp [mode, digest])]
  refine ⟨_, ?_, rfl⟩
  rw [Core.ports_acquiring]
  split <;> simp [Core.linkAck_eq]

theorem takeInit_brings_up (here : i < c.fab.ports.length) (mode : fieldAt f.payload 3 1 = boolNat c.fab.cfg.celoth1)
    (digest : fieldAt f.payload 4 4 = c.fab.cfg.digest.toNat) :
    ((takeInit i f c).port i).st = .up ∧ ((takeInit i f c).port i).peerId = BitVec.ofNat 14 (fieldAt f.payload 0 2) := by
  obtain ⟨x, length, taken⟩ := takeInit_of_good train trained peer mode digest
  have initiated : (x.modPort i (Port.initiated f)).port i = (x.port i).initiated f := Core.port_modPort_self (by rw [length]; exact here) _
  rw [taken]
  split
  · have back : ((x.modPort i (Port.initiated f)).modPort i Port.back).port i = ((x.port i).initiated f).back := by
      rw [Core.port_modPort_self (by rw [Core.length_ports_modPort, length]; exact here), initiated]
    have sent := Core.unsent_backUp i (x.modPort i (Port.initiated f))
    rw [Core.port_field_congr Port.st (fun _ => rfl) sent, Core.port_field_congr Port.peerId (fun _ => rfl) sent, back]
    exact ⟨rfl, rfl⟩
  · have sent := (Core.unsent_tellPorts _).trans (Core.unsent_pump i (x.modPort i (Port.initiated f)))
    rw [Core.port_field_congr Port.st (fun _ => rfl) sent, Core.port_field_congr Port.peerId (fun _ => rfl) sent, initiated]
    exact ⟨rfl, rfl⟩

end

/-! ### Lanes (R255) -/

/-- A port one of whose lanes has failed. -/
def Port.laneLost (lane : Nat) (q : Port) : Port := { q with lanesOk := q.lanesOk &&& ~~~(BitVec.ofNat 5 (2 ^ lane)) }

/-- A port whose spare lane L4 replaces a data lane. -/
def Port.spared (lane : Nat) (q : Port) : Port := { q with spareFor := BitVec.ofNat 3 lane }

/-- Of five healthy lanes a data lane that fails is the only bad one. -/
theorem lanesBad_of_first : ∀ l < 4, (31 : BitVec 5).getLsbD l = true ∧ lanesBad (31 &&& ~~~(BitVec.ofNat 5 (2 ^ l))) = [l] ∧
    (31 &&& ~~~(BitVec.ofNat 5 (2 ^ l))).getLsbD l = false := by decide

/-- A healthy data lane that fails beside a bad one is a second. -/
theorem two_le_length_lanesBad : ∀ l < 4, ∀ ok : BitVec 5, ok.getLsbD l = true → lanesBad ok ≠ [] →
    2 ≤ (lanesBad (ok &&& ~~~(BitVec.ofNat 5 (2 ^ l)))).length := by decide

section
variable {c : Core} {i : Nat} (here : i < c.fab.ports.length) (up : (c.port i).st = .up) {l : Nat} (data : l < 4)
include here up data

theorem laneFailure_of_first (whole : (c.port i).lanesOk = 31) :
    laneFailure i l c = (((c.modPort i (Port.laneLost l)).modPort i (Port.spared l)).logRec (portRec 0x508 2 1 i)).retrain i true := by
  obtain ⟨healthy, bad, -⟩ := lanesBad_of_first l data
  rw [← whole] at healthy bad
  unfold laneFailure
  dsimp only
  rw [if_neg (by simp [Port.usable, up, healthy]), if_neg (by rw [Core.port_modPort_self here, bad]; simp), if_pos data]
  rfl

theorem laneFailure_of_second (healthy : (c.port i).lanesOk.getLsbD l = true) (bad : lanesBad (c.port i).lanesOk ≠ []) :
    laneFailure i l c = (c.modPort i (Port.laneLost l)).failPort i := by
  have two := two_le_length_lanesBad l data _ healthy bad
  unfold laneFailure
  dsimp only
  rw [if_neg (by simp [Port.usable, up, healthy]), if_pos (by rw [Core.port_modPort_self here]; exact two)]
  rfl

end

/-! ### O45 -/

section
variable {c : Core} {i : Nat} (here : i < c.fab.ports.length)
include here

theorem peerDetected_trains (off : (c.port i).st = .off) (enabled : (c.port i).disable = false) (phase : 4 ≤ c.rst.phase) :
    ((peerDetected i c).port i).st = .train := by
  rw [peerDetected, if_pos (by simp [off, enabled, phase]), Core.port_modPort_self here]

/-- Full training with every lane: LINK_INIT follows (R266). -/
theorem trainingDone_sends_init (train : (c.port i).st = .train) (plain : (c.port i).enc = false) (w : BitVec 14) :
    ((c.port i).trainedOn w 31 7).Wired ((trainingDone i w 31 c).port i) ∧ ∃ b, (trainingDone i w 31 c).out = c.out ++ [.frame i 7 0xD b] := by
  have trained := Core.port_modPort_self here (Port.trainedOn w 31 7)
  rw [trainingDone_of_all_lanes train]
  exact ⟨trained ▸ Core.sendInit_wired i _ i, Core.sendInit_out (c := c.modPort i (Port.trainedOn w 31 7)) (by rw [trained]; exact plain)⟩

/-- Full training with one data lane bad: the record of the lane, then LINK_INIT (R255). -/
theorem trainingDone_spares_lane (train : (c.port i).st = .train) (plain : (c.port i).enc = false) (w : BitVec 14) :
    ((c.port i).trainedOn w 30 0).Wired ((trainingDone i w 30 c).port i) ∧ (∃ b, .frame i 7 0xD b ∈ (trainingDone i w 30 c).out) ∧
      ∃ r, (trainingDone i w 30 c).log.recs.head? = some r ∧ r.code = 0x508 := by
  have trained := Core.port_modPort_self here (Port.trainedOn w 30 0)
  rw [trainingDone_of_one_bad train]
  have port := Core.port_logRec (portRec 0x508 2 1 i) (c.modPort i (Port.trainedOn w 30 0)) i
  rw [trained] at port
  obtain ⟨b, out⟩ := Core.sendInit_out (c := (c.modPort i (Port.trainedOn w 30 0)).logRec (portRec 0x508 2 1 i)) (i := i) (by rw [port]; exact plain)
  have newest := (congrArg (fun l : Log => l.recs.head?) (Core.log_congr (Core.unsent_sendInit i _))).trans
    (Core.logRec_head (portRec 0x508 2 1 i) (c.modPort i (Port.trainedOn w 30 0)))
  exact ⟨port ▸ Core.sendInit_wired i _ i, ⟨b, by rw [out]; exact List.mem_append_right _ (List.mem_singleton_self _)⟩, _, newest, rfl⟩

/-- A first data lane that fails: L4 takes its place in a fast retrain (R255). -/
theorem laneFailure_retrains (up : (c.port i).st = .up) {l : Nat} (data : l < 4) (whole : (c.port i).lanesOk = 31) :
    ((laneFailure i l c).port i).st = .retrain ∧ ((laneFailure i l c).port i).spareFor = BitVec.ofNat 3 l ∧
      ((laneFailure i l c).port i).lanesOk.getLsbD l = false := by
  have port : (((c.modPort i (Port.laneLost l)).modPort i (Port.spared l)).logRec (portRec 0x508 2 1 i)).port i = ((c.port i).laneLost l).spared l := by
    rw [Core.port_logRec, Core.modPort_modPort, Core.port_modPort_self here]
  rw [laneFailure_of_first here up data whole]
  obtain ⟨tx, old, un, told, retrained⟩ := Core.port_retrain (c := ((c.modPort i (Port.laneLost l)).modPort i (Port.spared l)).logRec (portRec 0x508 2 1 i))
    (i := i) (by rw [Core.logRec_fab]; simpa using here) (by rw [port]; exact up) true
  rw [retrained, port]
  obtain ⟨-, -, bad⟩ := lanesBad_of_first l data
  rw [← whole] at bad
  exact ⟨rfl, rfl, bad⟩

theorem fastRetrainDone_up : ((c.backUp i).port i).st = .up := by
  rw [Core.port_field_congr Port.st (fun _ => rfl) (Core.unsent_backUp i c), Core.port_modPort_self here]
  rfl

variable (held : (c.port i).held = []) (waiting : (c.port i).waiting = [])
include held waiting

/-- A port that fails with a record, and holds nothing: the record stays the newest (R267). -/
theorem failPort_after_record (r : Rec) :
    (((c.logRec r).failPort i).port i).st = .failed ∧ ((c.logRec r).failPort i).log.recs.head? = some (c.stamped r) := by
  have held' : ((c.logRec r).port i).held = [] := by rw [Core.port_logRec, held]
  have waiting' : ((c.logRec r).port i).waiting = [] := by rw [Core.port_logRec, waiting]
  refine ⟨Core.port_failPort_st (by rw [Core.logRec_fab]; exact here) held' waiting', ?_⟩
  rw [Core.failPort_log held' waiting']
  exact Core.logRec_head r c

theorem modPort_failPort_st {f : Port → Port} (keepsHeld : ∀ q : Port, (f q).held = q.held) (keepsWaiting : ∀ q : Port, (f q).waiting = q.waiting) :
    (((c.modPort i f).failPort i).port i).st = .failed :=
  Core.port_failPort_st (by simpa using here) (by rw [Core.modPort_leaves Port.held keepsHeld, held]) (by rw [Core.modPort_leaves Port.waiting keepsWaiting, waiting])

theorem trainingDone_fails (train : (c.port i).st = .train) (w : BitVec 14) : ((trainingDone i w 28 c).port i).st = .failed := by
  rw [trainingDone_of_two_bad train]
  exact modPort_failPort_st here held waiting (fun _ => rfl) fun _ => rfl

theorem trainingFailed_fails (train : (c.port i).st = .train) : ((trainingFailed i c).port i).st = .failed := by
  rw [trainingFailed_of_train train]
  exact Core.port_failPort_st here held waiting

theorem laneFailure_fails (up : (c.port i).st = .up) {l : Nat} (data : l < 4) (healthy : (c.port i).lanesOk.getLsbD l = true)
    (bad : lanesBad (c.port i).lanesOk ≠ []) : ((laneFailure i l c).port i).st = .failed := by
  rw [laneFailure_of_second here up data healthy bad]
  exact modPort_failPort_st here held waiting (fun _ => rfl) fun _ => rfl

/-- LINK_INIT from another peer, or of another mode or configuration: the record, and the port fails (R266). -/
theorem takeInit_fails {f : Frame} (train : (c.port i).st = .train) (trained : (c.port i).trained = true) :
    (c.fab.cfg.peerOf i ≠ some (fieldAt f.payload 0 2, fieldAt f.payload 2 1) →
      ((takeInit i f c).port i).st = .failed ∧ ∃ r, (takeInit i f c).log.recs.head? = some r ∧ r.code = 0x502 ∧ r.cls = 5) ∧
    (c.fab.cfg.peerOf i = some (fieldAt f.payload 0 2, fieldAt f.payload 2 1) →
      fieldAt f.payload 3 1 ≠ boolNat c.fab.cfg.celoth1 ∨ fieldAt f.payload 4 4 ≠ c.fab.cfg.digest.toNat →
      ((takeInit i f c).port i).st = .failed ∧ ∃ r, (takeInit i f c).log.recs.head? = some r ∧ r.code = 0x503 ∧ r.cls = 5) := by
  refine ⟨fun other => ?_, fun peer other => ?_⟩
  · rw [takeInit_of_other_peer train trained other]
    obtain ⟨failed, newest⟩ := failPort_after_record here held waiting (portRec 0x502 5 2 i)
    exact ⟨failed, _, newest, rfl, rfl⟩
  · rw [takeInit_of_other_mode train trained peer other]
    obtain ⟨failed, newest⟩ := failPort_after_record here held waiting (portRec 0x503 5 2 i)
    exact ⟨failed, _, newest, rfl, rfl⟩

/-- DISABLE holds a port in OFF (R292). -/
theorem portDisable_holds_off (enabled : (c.port i).disable = false) :
    ((portDisable i true c).port i).st = .off ∧ ((portDisable i true c).port i).disable = true := by
  have length : (if (c.port i).usable || !(c.port i).held.isEmpty || !(c.port i).waiting.isEmpty then c.failPort i else c).fab.ports.length =
      c.fab.ports.length := by
    split
    · rw [Core.length_ports_congr (Core.unsent_failPort held waiting), Core.length_ports_modPort]
    · rfl
  have reset : portDisable i true c = (c.portReset i).modPort i fun q => { q with disable := true } := by simp [portDisable, enabled]
  rw [reset, Core.portReset, Core.modPort_modPort, Core.port_modPort_self (by rw [length]; exact here)]
  exact ⟨rfl, rfl⟩

end

section
variable {s : State} {i : Nat}

theorem exec_linkInitResend (train : (s.core.port i).st = .train) (trained : (s.core.port i).trained = true) :
    exec (.linkInitResend i) s = .next { s with core := s.start.sendInit i } := by
  show execLinkInitResend i s = _
  simp [execLinkInitResend, runC_start, train, trained]

theorem exec_fastRetrainDone (retrain : (s.core.port i).st = .retrain) : exec (.fastRetrainDone i) s = .next { s with core := s.start.backUp i } := by
  show execFastRetrainDone i s = _
  simp [execFastRetrainDone, runC_start, retrain]

theorem exec_fastRetrainFailed (retrain : (s.core.port i).st = .retrain) : exec (.fastRetrainFailed i) s =
    .next { s with core := (s.start.modPort i Port.untrained).tellPorts } := by
  show execFastRetrainFailed i s = _
  simp only [execFastRetrainFailed, runC_start, State.port_start, retrain]
  rfl

theorem exec_rekeyStart (enc : (s.core.port i).enc = true) (noKey : (s.core.port i).newKey = none) (first : (s.core.port i).rekeying = false)
    (worn : 2 ^ 39 ≤ (s.core.port i).txCtr) : exec (.rekeyStart i) s =
      .next { s with core := (s.start.emit (.vc7 (s.core.port i).peerId.toNat 5 [i])).modPort i fun q => { q with rekeying := true } } := by
  have starts : ((s.core.port i).enc && decide (2 ^ 39 ≤ (s.core.port i).txCtr) && !(s.core.port i).rekeying && (s.core.port i).newKey.isNone) = true := by
    rw [enc, noKey, first, decide_eq_true worn]
    rfl
  show execRekeyStart i s = _
  exact congrArg (fun c => Host.Outcome.next { s with core := c }) (if_pos starts)

theorem exec_keyExhausted (enc : (s.core.port i).enc = true) (noKey : (s.core.port i).newKey = none) (worn : 2 ^ 40 - 1 ≤ (s.core.port i).txCtr) :
    exec (.keyExhausted i) s = .next { s with core := (s.start.logRec (portRec 0x507 4 2 i)).failPort i } := by
  have exhausted : ((s.core.port i).enc && decide (2 ^ 40 - 1 ≤ (s.core.port i).txCtr) && (s.core.port i).newKey.isNone) = true := by
    rw [enc, noKey, decide_eq_true worn]
    rfl
  show execKeyExhausted i s = _
  exact congrArg (fun c => Host.Outcome.next { s with core := c }) (if_pos exhausted)

/-- The first keys agreed on a global port start encryption on it (R289). -/
theorem exec_linkKeyAgreement (global : i = 12 ∨ i = 13) (wanted : (s.core.port i).encWanted = true) (plain : (s.core.port i).enc = false)
    (k : BitVec 256) (salt : BitVec 32) (r : BitVec 256) : exec (.linkKeyAgreement i (some (k, salt)) (some r)) s =
      .next { s with core := (s.start.emit (.vc7 (s.core.port i).peerId.toNat 6 [i])).modPort i fun q =>
        { q with key := k, salt := salt, rxKey := r, enc := true, txCtr := 0, oldKey := none } } := by
  show execLinkKeyAgreement i (some (k, salt)) (some r) s = _
  rcases global with rfl | rfl <;> simp [execLinkKeyAgreement, runC_start, keyAgreement, wanted, plain]

end

/-- Settles O45: each clause is a port's event by its lemma above, on the core that the command starts from. -/
theorem portsTrainComeUpAndFail : Obligations.PortsTrainComeUpAndFail := by
  unfold Obligations.PortsTrainComeUpAndFail
  intro s i here held waiting pt runs
  have port := Core.port_modPort_self (c := s.start) here
  refine ⟨fun off enabled phase => ⟨_, rfl, rfl, rfl, peerDetected_trains (c := s.start) here off enabled phase⟩,
    fun train => ⟨fun w plain => ?_, fun w plain => ?_, fun w => ⟨_, rfl, rfl, rfl, trainingDone_fails (c := s.start) here held waiting train w⟩,
      ⟨_, rfl, rfl, rfl, trainingFailed_fails (c := s.start) here held waiting train⟩⟩,
    fun train trained plain => ⟨_, exec_linkInitResend train trained, rfl, rfl, Core.sendInit_out (c := s.start) plain⟩,
    fun f train trained => ⟨fun peer mode digest =>
        ⟨_, rfl, rfl, rfl, takeInit_brings_up (c := s.start) train trained peer here mode digest⟩, ?_⟩,
    fun l data up whole => ⟨_, rfl, rfl, rfl, laneFailure_retrains (c := s.start) here up data whole⟩,
    fun l data up healthy bad => ⟨_, rfl, rfl, rfl, laneFailure_fails (c := s.start) here held waiting up data healthy bad⟩,
    fun retrain => ⟨⟨_, exec_fastRetrainDone retrain, rfl, rfl, fastRetrainDone_up (c := s.start) here⟩, ?_⟩,
    fun enc noKey first worn => ⟨_, exec_rekeyStart enc noKey first worn, rfl, rfl, congrArg Port.rekeying (port _), rfl⟩, fun enc noKey worn => ?_,
    fun k salt r global wanted plain => ⟨_, exec_linkKeyAgreement global wanted plain k salt r, rfl, rfl, congrArg Port.enc (port _),
      congrArg Port.key (port _), congrArg Port.salt (port _), congrArg Port.rxKey (port _), congrArg Port.txCtr (port _)⟩,
    fun pos ps => ⟨_, rfl, rfl, rfl, lookup?_insertKey_self _ _ _⟩,
    fun ready enabled => ⟨_, bitRow_ready ready (portDisable i true), rfl, rfl, portDisable_holds_off (c := s.start) here held waiting enabled⟩,
    fun ready => ⟨_, bitRow_ready ready (portDisable i false), rfl, rfl, port _⟩⟩
  · obtain ⟨⟨tx, old, un, told, after⟩, out⟩ := trainingDone_sends_init (c := s.start) here train plain w
    exact ⟨{ s with core := trainingDone i w 31 s.start }, rfl, rfl, rfl, by rw [after]; exact ⟨train, rfl, rfl, rfl, rfl, out⟩⟩
  · obtain ⟨⟨tx, old, un, told, after⟩, out, newest⟩ := trainingDone_spares_lane (c := s.start) here train plain w
    exact ⟨{ s with core := trainingDone i w 30 s.start }, rfl, rfl, rfl, by rw [after]; exact ⟨train, rfl, rfl, rfl, out, newest⟩⟩
  · obtain ⟨otherPeer, otherMode⟩ := takeInit_fails (c := s.start) (f := f) here held waiting train trained
    exact ⟨fun other => ⟨_, rfl, rfl, rfl, otherPeer other⟩, fun peer other => ⟨_, rfl, rfl, rfl, otherMode peer other⟩⟩
  · exact ⟨_, exec_fastRetrainFailed retrain, rfl, rfl, (congrArg Port.st (port Port.untrained) :), (congrArg Port.held (port Port.untrained) :)⟩
  · obtain ⟨failed, newest⟩ := failPort_after_record (c := s.start) here held waiting (portRec 0x507 4 2 i)
    exact ⟨_, exec_keyExhausted enc noKey worn, rfl, rfl, failed, _, newest, rfl, rfl⟩

end Sys2Proof.Machine
end

section
/-!
O46 fails at its first clause: the rejection of a WR_REQ writes the record 0x0307 (08 R279), and then the REJECT itself has to be sent. Where the requester
is a module that R274 takes to have every port out of service, the REJECT is discarded with UNREACHABLE, 0x0505, which is then the newest record.
-/

namespace Sys2Proof.Machine

/-- A module with port 0 up, whose neighbour at position 1 has told it that all its ports are out of service. -/
def deafRequesterState : State :=
  { State.reset with core := { State.reset.core with fab := { ports := { st := .up } :: List.replicate 15 {}, peers := [(1, List.range 16)] } } }

/-- A WR_REQ of that neighbour under a key of no slice. -/
def keylessWrite : Frame := { vc := 6, typ := 6, dst := 0, src := 1 }

theorem keylessWrite_refused : deafRequesterState.core.takes 0 { keylessWrite with typ := 6 } = true ∧
    deafRequesterState.core.remoteTest { keylessWrite with typ := 6 } (fieldAt (padTo 96 keylessWrite.payload) 8 4) (fieldAt (padTo 96 keylessWrite.payload) 0 8)
      1 true = .error 1 := ⟨by decide +kernel, rfl⟩

/-- The rejection leaves two records, and that of the REJECT which reaches nobody is the newer. -/
theorem keylessWrite_records : ∃ t, exec (.wrReq 0 keylessWrite) deafRequesterState = .next t ∧ t.core.log.recs.map Rec.code = [0x505, 0x307] :=
  ⟨_, rfl, by decide +kernel⟩

/-- Refutes O46: the REJECT of a remote write to a requester out of reach leaves UNREACHABLE, not 0x0307, newest in the log (R274, R279). -/
theorem not_remoteOperationsTakeEffectWhereTheyMay : ¬ Obligations.RemoteOperationsTakeEffectWhereTheyMay := by
  unfold Obligations.RemoteOperationsTakeEffectWhereTheyMay
  intro h
  obtain ⟨rejectedWrite, -⟩ := h deafRequesterState 0 keylessWrite
  obtain ⟨taken, refused⟩ := keylessWrite_refused
  obtain ⟨t, run, -, -, r, newest, code, -⟩ := rejectedWrite taken 1 refused
  obtain ⟨u, run', records⟩ := keylessWrite_records
  obtain rfl : t = u := Host.Outcome.next.inj (run.symm.trans run')
  have newestCode : (t.core.log.recs.map Rec.code).head? = some 0x307 := by rw [List.head?_map, newest, Option.map_some, code]
  rw [records] at newestCode
  exact absurd newestCode (by decide)

end Sys2Proof.Machine
end

section
/-!
The kite line (09 R314 to R319, R330 to R334): what frames sent on it leave, how one that arrives is taken, and one rule for each way an operation or an abort
goes.
-/

namespace Sys2Proof.Machine

/-! ### Frames sent on the tree -/

@[simp] theorem Core.unsent_sendOn (i : Nat) (f : Frame) (c : Core) : (c.sendOn i f).unsent = c.unsent := by
  rw [Core.sendOn, Core.unsent_pump]
  exact Core.unsent_modPort_of_sends (by exact fun _ => rfl) c i

@[simp] theorem Core.unsent_sendKite (i : Nat) (t : TenantId) (o : KiteOp) (down : Bool) (bs : List Byte) (c : Core) :
    (c.sendKite i t o down bs).unsent = c.unsent := Core.unsent_sendOn i _ c

/-- A result is kept, and the frames that take it down the tree change nothing but what sending changes (R314). -/
theorem Core.unsent_kiteResult (p : Plan) (o : KiteOp) (res : List Byte) (c : Core) :
    (c.kiteResult p o res).unsent = (c.putKite { o with result := some res }).unsent :=
  foldl_leaves Core.unsent (fun c k => c.unsent_sendKite k p.tenant o true res) _ _

theorem Core.unsent_floodAbort (p : Plan) (k : Cid) (bs : List Byte) (ep : BitVec 8) (but : Option Nat) (c : Core) :
    (c.floodAbort p k bs ep but).unsent = c.unsent := by
  refine foldl_leaves Core.unsent (fun c n => ?_) _ c
  split
  · rfl
  · exact Core.unsent_sendKite ..

theorem Core.jobs_congr {c d : Core} (sends : d.unsent = c.unsent) : d.jobs = c.jobs := by
  show d.unsent.jobs = c.unsent.jobs
  rw [sends]

/-- A field of the fabric that sending does not change is the same before and after frames were sent. -/
theorem Core.fab_congr {α : Type} (field : Fabric → α) (still : ∀ (q : Fabric) ps, field { q with ports := ps } = field q) {c d : Core}
    (sends : d.unsent = c.unsent) : field d.fab = field c.fab := by
  have fab : ∀ x : Core, field x.unsent.fab = field x.fab := fun x => still x.fab _
  rw [← fab, sends, fab]

/-! ### Operations submitted -/

/-- A core with all that operations of the kite line change as at reset: the operations, the frames that carry them, and the hamper, which notes what left. -/
def Core.unkited (c : Core) : Core := { c.unsent with fab := { c.unsent.fab with kite := [], kiteQueue := [] }, led := {} }

theorem Core.unkited_congr {c d : Core} (sends : d.unsent = c.unsent) : d.unkited = c.unkited := by rw [Core.unkited, sends, Core.unkited]

theorem Core.unkited_kiteAdvance (p : Plan) (o : KiteOp) (c : Core) : (c.kiteAdvance p o).unkited = c.unkited := by
  unfold Core.kiteAdvance
  dsimp only
  generalize (o.sentUp || o.result.isSome || !_) = stays
  cases stays with
  | true => rfl
  | false =>
    cases o.got with
    | nil => rfl
    | cons first rest =>
      simp only [Bool.false_eq_true, if_false]
      cases (c.kiteTree p o.group.toNat).1 with
      | some up => exact (Core.unkited_congr (Core.unsent_sendKite ..)).trans rfl
      | none => exact (Core.unkited_congr (Core.unsent_kiteResult ..)).trans rfl

theorem Core.unkited_addRec (j : Job) (lp : Nat) (b : HBody) (c : Core) : (c.addRec j lp b).unkited = c.unkited := by
  unfold Core.addRec
  split <;> rfl

/-- Where its job is not replayed, a payload leaves, and the hamper notes it (10 R344). -/
theorem Core.outbound_of_live {c : Core} {h : Nat} {j : Job} (job : c.job? h = some j) (live : (j.phase == .localReplay) = false) (lp kind id : Nat)
    (bs : List Byte) : c.outbound h lp kind id bs = (true, c.addRec j lp (.outbound kind id (crcOf bs))) := by
  simp only [Core.outbound, job, live, Bool.false_eq_true, if_false]

/-- An operation submitted changes no more than the kite line: not the jobs, partitions or SEQ (R317, R318). -/
theorem Core.unkited_kiteSubmit (o : KiteOp) (own : List Byte) (c : Core) : (c.kiteSubmit o own).unkited = c.unkited := by
  unfold Core.kiteSubmit
  split
  next p j plan job =>
    dsimp only
    split
    · split <;> rfl
    next live =>
      split
      · rfl
      · rw [Core.outbound_of_live job (Bool.eq_false_iff.2 live), Core.unkited_kiteAdvance, Core.unkited_addRec]
  · rfl

theorem Core.kiteSubmit_jobs (o : KiteOp) (own : List Byte) (c : Core) : (c.kiteSubmit o own).jobs = c.jobs :=
  (congrArg Core.jobs (c.unkited_kiteSubmit o own) :)

theorem Core.kiteSubmit_parts (o : KiteOp) (own : List Byte) (c : Core) : (c.kiteSubmit o own).parts = c.parts :=
  (congrArg Core.parts (c.unkited_kiteSubmit o own) :)

theorem Core.kiteNext_kiteSubmit (o : KiteOp) (own : List Byte) (c : Core) (plan g : Nat) : (c.kiteSubmit o own).kiteNext plan g = c.kiteNext plan g :=
  (congrArg (fun d => d.kiteNext plan g) (c.unkited_kiteSubmit o own) :)

theorem Core.kiteNext_kiteBump (plan g n : Nat) (c : Core) : (c.kiteBump plan g n).kiteNext plan g = c.kiteNext plan g + n :=
  congrArg (fun v => v.getD 0) (lookup?_insertKey_self ..)

/-! ### Link dies -/

/-- The link die that was changed. -/
theorem Core.ld_modLd_self {c : Core} {l : Nat} (here : l < c.fab.lds.length) (f : LinkDie → LinkDie) : (c.modLd l f).ld l = f (c.ld l) := by
  simp [Core.ld, Core.modLd, modAt, List.getD_eq_getElem?_getD, here]

/-- An update leaves what it leaves of every link die, of the one it names and of the others. -/
theorem Core.modLd_leaves {α : Type} (field : LinkDie → α) {f : LinkDie → LinkDie} (leaves : ∀ q, field (f q) = field q) (c : Core) (l k : Nat) :
    field ((c.modLd l f).ld k) = field (c.ld k) := by
  simp only [Core.ld, Core.modLd, Core.modFab, modAt, List.getD_eq_getElem?_getD, List.getElem?_modify]
  by_cases hit : l = k
  · cases c.fab.lds[k]? <;> simp [hit, leaves]
  · simp [hit]

/-! ### Trees -/

theorem Fabric.path_ports (q : Fabric) (ps : List Port) (t : Option TenantId) (odd : Bool) (dst n m : Nat) :
    Fabric.path { q with ports := ps } t odd dst n m = q.path t odd dst n m := by
  induction n generalizing m with
  | zero => rfl
  | succ n ih =>
    rw [Fabric.path, Fabric.path]
    simp only [ih]
    rfl

/-- The tree of a group is that of the fabric's map, whatever its ports do (R314). -/
theorem Core.kiteDie_ports (p : Plan) (g : Nat) (ps : List Port) (c : Core) : (c.modFab fun q => { q with ports := ps }).kiteDie p g = c.kiteDie p g := by
  have tree : (c.modFab fun q => { q with ports := ps }).kiteTree p g = c.kiteTree p g := by
    simp only [Core.kiteTree, Core.modFab, Fabric.path_ports]
    rfl
  rw [Core.kiteDie, tree, Core.kiteDie]

/-! ### Frames that arrive -/

/-- The expected frame accepted: its acknowledgement is taken, and it is counted (08 R261, R263). -/
def Core.accept (i : Nat) (g : Frame) (c : Core) : Core := (c.linkAck i g.ack).modPort i (Port.taken { g with job := none })

theorem Core.accept_eq (i : Nat) (g : Frame) (c : Core) : ∃ ps, c.accept i g = c.modFab fun q => { q with ports := ps } := by
  rw [Core.accept, Core.linkAck_eq, Core.modPort_modPort]
  exact ⟨_, rfl⟩

/-- The expected frame, allowed on its VC and addressed to this module, is delivered (08 R259, R261). -/
theorem Mach.arrive_taken {m : Mach} {i : Nat} {g : Frame} (up : (m.core.port i).st = .up) (numbered : g.sequenced = true)
    (next : g.seq = (m.core.port i).expect) (valid : vcAllows g.typ.toNat g.vc.toNat = true) (own : g.dst.toNat = m.core.fab.cfg.own)
    (deliver : Frame → Mach → Mach) :
    m.arrive i g deliver = (deliver { g with job := none } (m.up (Core.accept i g))).up (Core.settle i) := by
  have numbered' : Frame.sequenced { g with job := none } = true := numbered
  unfold Mach.arrive
  dsimp only
  rw [if_neg (by simp [up]), if_neg (by simp [numbered']), if_pos (by simp [next]), if_neg (by simp [valid]), if_pos (by simp [own])]
  rfl

/-- A frame of the kite line as its port takes it: of type 0xA, and addressed to the module it has reached (R315). -/
def Frame.onKite (own : Nat) (f : Frame) : Frame := { f with typ := 0xA, dst := BitVec.ofNat 14 own }

/-- A frame of the kite line that the port expects changes the core as its delivery does, and ports. -/
theorem runM_arrive_kite {s : State} {port : Nat} {f : Frame} (up : (s.core.port port).st = .up) (next : f.seq = (s.core.port port).expect) (vc : f.vc = 0)
    (own : s.core.fab.cfg.own < 2 ^ 14) {deliver : Frame → Mach → Mach} {g : Core → Core}
    (delivers : ∀ m ps, m.core = (s.start.modFab fun q => { q with ports := ps }) → deliver { f.onKite s.core.fab.cfg.own with job := none } m = m.up g) :
    ∃ ps, runM (Mach.arrive port (f.onKite s.core.fab.cfg.own) deliver) s =
      .next { s with core := Core.settle port (g (s.start.modFab fun q => { q with ports := ps })) } := by
  obtain ⟨ps, accepted⟩ := s.start.accept_eq port (f.onKite s.core.fab.cfg.own)
  refine ⟨ps, ?_⟩
  rw [← accepted]
  refine runM_up (g := fun c => (g (c.accept port (f.onKite s.core.fab.cfg.own))).settle port) ?_
  have valid : vcAllows (f.onKite s.core.fab.cfg.own).typ.toNat (f.onKite s.core.fab.cfg.own).vc.toNat = true := by
    simp only [Frame.onKite, vc]
    decide
  have here : (f.onKite s.core.fab.cfg.own).dst.toNat = s.core.fab.cfg.own := (BitVec.toNat_ofNat _ _).trans (Nat.mod_eq_of_lt own)
  rw [Mach.arrive_taken (m := startMach s) (g := f.onKite s.core.fab.cfg.own) up rfl next valid here, delivers _ ps accepted]
  rfl

/-- A result of an operation of Table 09-5 that comes down the tree for the operation it names (R314, R315). -/
theorem takeKite_of_result {c : Core} {port : Nat} {f : Frame} {p : Plan} {j : Job} {o : KiteOp}
    (plan : c.kitePlan f.tenant (field f.xid.toNat 0 8) = some p) (job : c.job? p.handle = some j) (op : field f.chunk.toNat 16 4 = o.op.toNat)
    (combines : kiteCombines o.op.toNat = true) (width : field f.chunk.toNat 14 2 = o.width.toNat) (down : bitOf f.chunk.toNat 20 = true)
    (current : j.epochOk f.pmask (field f.chunk.toNat 0 14) = true)
    (under : c.kiteOp? p.handle (BitVec.ofNat 8 (field f.xid.toNat 0 8)) (BitVec.ofNat 14 (field f.chunk.toNat 0 14)) f.pmask = some o) :
    takeKite port f c = c.kiteResult p o f.payload := by
  have noAbort : o.op.toNat ≠ 8 := fun abort => by simp [abort, kiteCombines, inRange] at combines
  simp [takeKite, plan, job, op, noAbort, combines, current, under, width, down]

theorem Core.mem_kite_kiteResult (p : Plan) (o : KiteOp) (res : List Byte) (c : Core) : { o with result := some res } ∈ (c.kiteResult p o res).fab.kite := by
  rw [Core.fab_congr Fabric.kite (fun _ _ => rfl) (c.unsent_kiteResult p o res)]
  exact List.mem_append_right _ (List.mem_singleton_self _)

/-! ### Operations that end -/

/-- An operation put in place of the only one. -/
theorem Core.kite_putKite_alone {c : Core} {o k : KiteOp} (alone : c.fab.kite = [k])
    (same : (k.plan, k.group, k.seq, k.epoch) = (o.plan, o.group, o.seq, o.epoch)) : (c.putKite o).fab.kite = [o] := by
  obtain ⟨plan, group, seq, epoch⟩ : k.plan = o.plan ∧ k.group = o.group ∧ k.seq = o.seq ∧ k.epoch = o.epoch := by simpa using same
  simp [Core.putKite, alone, plan, group, seq, epoch]

theorem Core.plan?_handle {c : Core} {h : Nat} {p : Plan} (plan : c.plan? h = some p) : p.handle = h := by simpa using List.find?_some plan

theorem Core.kiteDequeue_of_idle {c : Core} (idle : c.fab.kiteQueue = []) (plan : Nat) (g : BitVec 8) : c.kiteDequeue plan g = c := by
  simp [Core.kiteDequeue, idle]

/-- The hamper record of an operation's result, and the link die's count of it (R337, 10 R344). -/
def Core.keepResult (p : Plan) (o : KiteOp) (j : Job) (r : List Byte) (c : Core) : Core :=
  (c.addRec j 0xFF (.kiteResult o.group.toNat o.seq.toNat r)).countOps (c.kiteDie p o.group.toNat) 1

theorem Core.countOps_frame (l n : Nat) (c : Core) :
    (c.countOps l n).led = c.led ∧ (c.countOps l n).fab.kite = c.fab.kite ∧ (c.countOps l n).fab.kiteQueue = c.fab.kiteQueue := by
  unfold Core.countOps Core.counterEvent
  dsimp only
  split
  · simp [Core.modLd]
  · exact ⟨rfl, rfl, rfl⟩

theorem Core.addRec_fab (j : Job) (lp : Nat) (b : HBody) (c : Core) : (c.addRec j lp b).fab = c.fab := by
  unfold Core.addRec
  split <;> rfl

theorem Core.kite_keepResult (p : Plan) (o : KiteOp) (j : Job) (r : List Byte) (c : Core) : (c.keepResult p o j r).fab.kite = c.fab.kite :=
  (Core.countOps_frame ..).2.1.trans (congrArg Fabric.kite (Core.addRec_fab ..))

theorem Core.mem_records_keepResult {c : Core} {j : Job} {q : Plan} (plan : c.plan? j.plan = some q) (p : Plan) (o : KiteOp) (r : List Byte) :
    ∃ h ∈ (c.keepResult p o j r).led.records, h.plan = j.plan ∧ h.step = j.step ∧ h.body = .kiteResult o.group.toNat o.seq.toNat r := by
  rw [Core.keepResult, (Core.countOps_frame ..).1]
  simp only [Core.addRec, plan]
  exact ⟨_, List.mem_append_right _ (List.mem_singleton_self _), rfl, rfl, rfl⟩

/-- An operation with a result that no mailbox waits for leaves the line; while its job is not replayed, the result is kept besides (R314, R319). -/
theorem finishKite_of_result {m : Mach} {p : Plan} {o : KiteOp} {j : Job} {r : List Byte} (own : o.submitter ≠ 3) (good : o.error = false)
    (result : o.result = some r) (job : m.core.job? o.plan = some j) (idle : m.core.fab.kiteQueue = []) :
    finishKite p o m =
      m.up fun c => (if j.phase == .localReplay then c else c.keepResult p o j r).modFab fun q => { q with kite := q.kite.erase o } := by
  have dequeue : ∀ c : Core, c.fab.kiteQueue = [] → (c.modFab fun q => { q with kite := q.kite.erase o }).kiteDequeue o.plan o.group =
      c.modFab fun q => { q with kite := q.kite.erase o } := fun c idle => Core.kiteDequeue_of_idle (by exact idle) _ _
  have kept : (m.core.keepResult p o j r).fab.kiteQueue = [] :=
    (Core.countOps_frame ..).2.2.trans ((congrArg Fabric.kiteQueue (Core.addRec_fab ..)).trans idle)
  cases replay : j.phase == .localReplay <;>
    simp only [finishKite, result, job, good, replay, own, Bool.false_or, Bool.false_eq_true, if_false, if_true, Mach.up_core]
  · exact congrArg (fun c => ({ m with core := c } : Mach)) (dequeue _ kept)
  · exact congrArg (fun c => ({ m with core := c } : Mach)) (dequeue _ idle)

/-- The record 0x0602 of an operation of a job that took too long (R318). -/
def timeoutRec (c : Core) (p : Plan) (o : KiteOp) (j : Job) : Rec := jobRec j (modRec 0x602 7 2 (0x10 + c.kiteDie p o.group.toNat) 0x0E 0)

theorem Core.kiteFail_timeout {c : Core} {p : Plan} {j : Job} (job : c.job? p.handle = some j) (o : KiteOp) :
    c.kiteFail p o 0x602 =
      ((c.logRec (timeoutRec c p o j)).modJob p.handle (if o.sparesVerdict then id else Job.unclean causeFault)).putKite { o with error := true } := by
  simp only [Core.kiteFail, job]
  rfl

/-! ### Aborts -/

/-- A job whose step `s` is unclean with cause fault (10 R349). -/
def Job.faulted (s : StepNo) (j : Job) : Job := j.modVerdict s fun v => { v with cause := max v.cause causeFault }

theorem Job.fault_le_faulted (s : StepNo) (j : Job) : causeFault ≤ ((j.faulted s).verdict s).cause :=
  have cause := j.verdict_modVerdict (s := s) (f := fun v => { v with cause := max v.cause causeFault }) fun _ => rfl
  (Nat.le_max_right _ _).trans_eq (congrArg Verdict.cause cause).symm

/-- The record 0x0603 of a collective that a job acts on the abort of (R332). -/
def abortRec (c : Core) (p : Plan) (j : Job) (k : Cid) (cause : Nat) : Rec :=
  { jobRec j (modRec 0x603 7 2 (0x10 + c.kiteDie p k.group) 6 0) with
    detail := bytesLE 5 k.step.toNat ++ bytesLE 2 k.beat ++ bytesLE 1 k.group ++ bytesLE 1 k.inst ++ bytesLE 1 cause }

/-- A member that acts on an ABORT makes the verdict unclean, marks the collective and records it, and counts no ABORT as issued for that (R332). -/
theorem Core.actAbort_of_job {c : Core} {p : Plan} {j : Job} (job : c.job? p.handle = some j) (k : Cid) (cause : Nat) :
    (c.actAbort p k cause).job? p.handle = some (j.faulted k.step) ∧ (p.handle, k) ∈ (c.actAbort p k cause).fab.aborted ∧
      (∀ l, ((c.actAbort p k cause).ld l).issued = (c.ld l).issued) ∧
      ∃ r, (c.actAbort p k cause).log.recs.head? = some r ∧ r.code = 0x603 ∧ r.cls = 7 := by
  simp only [Core.actAbort, job]
  refine ⟨?_, List.mem_append_right _ ?_, fun l => ?_, _, Core.logRec_head _ _, rfl, rfl⟩
  · exact Core.job?_modJob_self ((Core.job?_congr (Core.logRec_jobs _ _) _).trans job) (f := Job.faulted k.step) fun _ => rfl
  · exact List.mem_singleton_self _
  · refine (Core.modLd_leaves LinkDie.issued (by exact fun _ => rfl) _ _ l).trans ?_
    exact (congrArg (fun q : Fabric => (q.lds.getD l {}).issued) (Core.logRec_fab (abortRec c p j k cause) c) :)

/-- An abort of a collective that has not been aborted is issued: counted, flooded, and acted on here (R330, R331). -/
theorem Core.issueAbort_of_new {c : Core} {plan : Nat} {p : Plan} {j : Job} {k : Cid} (admitted : c.plan? plan = some p) (job : c.job? plan = some j)
    (new : c.fab.aborted.contains (plan, k) = false) (cause : Nat) :
    ∃ d : Core, d.unsent = (c.modLd (c.kiteDie p k.group) fun q => { q with issued := satInc q.issued }).unsent ∧
      c.issueAbort plan k cause = d.actAbort p k cause := by
  simp only [Core.issueAbort, admitted, job, new]
  exact ⟨_, Core.unsent_floodAbort .., rfl⟩

/-- An ABORT counted as ignored by link die `l` (R337). -/
def Core.ignoreAbort (l : Nat) (c : Core) : Core := c.modLd l fun q => { q with ignored := satInc q.ignored }

/-- An ABORT for a collective that has been aborted is counted as ignored (R332, R334). -/
theorem Core.takeAbort_of_known {c : Core} {p : Plan} {j : Job} {f : Frame} (job : c.job? p.handle = some j)
    (known : c.fab.aborted.contains (p.handle, abortCid f.payload (field f.xid.toNat 0 8)) = true) (port : Nat) :
    c.takeAbort p port f = c.ignoreAbort (c.kiteDie p (field f.xid.toNat 0 8)) := by
  simp only [Core.takeAbort, job, known]
  rfl

/-! ### A collective that waits -/

/-- The anchor reductions of a collective go to the kite line, and leave jobs and partitions as they were (R307). -/
theorem Ctx.anchorOps_eq (x : Ctx) (f : CollF) (own : List Nat) (m : Mach) :
    ∃ d, x.anchorOps f own m = { m with core := d } ∧ d.jobs = m.core.jobs ∧ d.parts = m.core.parts := by
  unfold Ctx.anchorOps
  generalize chunks 64 own = bs
  induction bs generalizing m with
  | nil => exact ⟨m.core, rfl, rfl, rfl⟩
  | cons b rest ih =>
    obtain ⟨d, effect, jobs, parts⟩ := ih (m.up _)
    exact ⟨d, effect, jobs.trans (Core.kiteSubmit_jobs ..), parts.trans (Core.kiteSubmit_parts ..)⟩

/-- A collective that waits for its partners' data writes no memory, and leaves jobs and partitions as they were (R307, R308, R310). -/
theorem Mach.collWaits_eq (st : Stn) (h : Hdr) (f : CollF) (opc : Nat) (m : Mach) :
    ∃ d, m.collWaits st h f opc = { m with core := d } ∧ d.jobs = m.core.jobs ∧ d.parts = m.core.parts := by
  unfold Mach.collWaits
  cases m.ctx st h opc with
  | none => exact ⟨m.core, rfl, rfl, rfl⟩
  | some x =>
    dsimp only
    cases x.grp f with
    | none => exact ⟨m.core, rfl, rfl, rfl⟩
    | some g =>
      dsimp only
      split
      · exact ⟨m.core, rfl, rfl, rfl⟩
      · obtain ⟨d, effect, jobs, parts⟩ := x.anchorOps_eq f (x.ownAnchors opc f g m) m
        rw [effect]
        exact ⟨_, rfl, jobs, parts⟩

/-- A collective command is the run of its opcode, partners or none. -/
theorem exec_collRow {i : Instr} {opc : Nat} {st : Stn} {h : Hdr} {f : CollF} {ps : List PeerData} (row : collRow i = some (opc, st, h, f, ps)) (s : State) :
    exec i s = runM (collRun opc false i st h f ps) s := by
  unfold collRow at row
  split at row <;> cases row <;> rfl

end Sys2Proof.Machine
end

section
/-!
Mailboxes of the control cores (09 R319, Table 09-7), then O43, whose clauses are one rule each of the kite line.
-/

namespace Sys2Proof.Machine

/-! ### The unit of CTRL -/

/-- The station memory unit that holds CTRL and STATUS of a mailbox (Table 09-7). -/
def ctrlUnit (addr : SmAddr) : Nat := (addr.toNat + 1) % 2 ^ 23

/-- The bytes of that unit with a value of CTRL written. -/
def Mach.ctrlBytes (part : Nat) (addr : SmAddr) (ctrl : BitVec 64) (m : Mach) : List Byte := bytesLE 8 ctrl.toNat ++ (m.sm part (ctrlUnit addr) 1).drop 8

/-- A value of CTRL written into its mailbox. -/
def Mach.putCtrl (part : Nat) (addr : SmAddr) (ctrl : BitVec 64) (m : Mach) : Mach := m.putSm part (ctrlUnit addr) (m.ctrlBytes part addr ctrl) false

section
variable (part : Nat) (addr : SmAddr) (ctrl : BitVec 64) (m : Mach)

theorem Mach.length_ctrlBytes : (m.ctrlBytes part addr ctrl).length = 64 := by
  simp [Mach.ctrlBytes, Mach.length_sm]

theorem Mach.putSm_core (p a : Nat) (bs : List Byte) (q : Bool) : ∃ g ls, (m.putSm p a bs q).core = { m.core with gens := g, commonsLines := ls } :=
  Mach.putPieces_core _ q m

/-- Station memory written leaves the fabric. -/
@[simp] theorem Mach.putSm_fab (p a : Nat) (bs : List Byte) (q : Bool) : (m.putSm p a bs q).core.fab = m.core.fab := by
  obtain ⟨g, ls, core⟩ := m.putSm_core p a bs q
  rw [core]

@[simp] theorem Mach.putSm_job? (p a : Nat) (bs : List Byte) (q : Bool) (h : Nat) : (m.putSm p a bs q).core.job? h = m.core.job? h := by
  obtain ⟨g, ls, core⟩ := m.putSm_core p a bs q
  rw [core]
  rfl

theorem Mach.putCtrl_parts : (m.putCtrl part addr ctrl).core.parts = m.core.parts := Mach.putSm_parts ..

theorem Mach.smUnit_ctrlUnit : m.core.smUnit part ((ctrlUnit addr + 0) % 2 ^ 23) = m.core.smUnit part (ctrlUnit addr) :=
  congrArg (m.core.smUnit part) (Nat.mod_mod (addr.toNat + 1) (2 ^ 23))

/-- The first bytes of the unit are CTRL, and no byte of another unit changes. -/
theorem Mach.putCtrl_bytes :
    (∀ i < 8, memByte (m.putCtrl part addr ctrl).mem (m.core.smUnit part (ctrlUnit addr) + i) = (bytesLE 8 ctrl.toNat).getD i 0) ∧
      ∀ x, ¬ (m.core.smUnit part (ctrlUnit addr) ≤ x ∧ x < m.core.smUnit part (ctrlUnit addr) + 64) →
        memByte (m.putCtrl part addr ctrl).mem x = memByte m.mem x := by
  have whole : (m.ctrlBytes part addr ctrl).length = 64 * 1 := m.length_ctrlBytes part addr ctrl
  refine ⟨fun i hi => ?_, fun x outside => Mach.putSm_outside part _ false m whole x fun j hj => ?_⟩
  · have piece : m.putCtrl part addr ctrl = m.putUnit (m.core.smUnit part (ctrlUnit addr)) (m.ctrlBytes part addr ctrl) false := by
      rw [Mach.putCtrl, Mach.putSm_eq, Core.smPieces_eq _ part _ whole, ← m.smUnit_ctrlUnit part addr]
      simp [Mach.putPieces, List.take_of_length_le whole.le]
    rw [piece, Mach.putUnit_byte, if_pos (by omega), Nat.add_sub_cancel_left, padTo_of_length whole, Mach.ctrlBytes, List.getD_append _ _ _ _ (by simpa using hi)]
  · obtain rfl : j = 0 := by omega
    rwa [m.smUnit_ctrlUnit part addr]

/-- CTRL read back out of the two units of the mailbox (Table 09-7). -/
theorem Mach.fieldAt_putCtrl (sound : Memory.wf m.mem = true) : fieldAt ((m.putCtrl part addr ctrl).sm part addr.toNat 2) 64 8 = ctrl.toNat := by
  have unit := Mach.putSm_unit part (ctrlUnit addr) (n := 1) false m (m.length_ctrlBytes part addr ctrl) (by norm_num) sound 0 one_pos
  rw [m.smUnit_ctrlUnit part addr] at unit
  have second : (m.putCtrl part addr ctrl).unit ((m.putCtrl part addr ctrl).core.smUnit part ((addr.toNat + 1) % 2 ^ 23)) = m.ctrlBytes part addr ctrl := by
    rw [Core.smUnit_parts (m.putCtrl_parts part addr ctrl)]
    exact unit.trans (List.take_of_length_le (m.length_ctrlBytes part addr ctrl).le)
  have bytes : (m.putCtrl part addr ctrl).sm part addr.toNat 2 =
      (m.putCtrl part addr ctrl).unit ((m.putCtrl part addr ctrl).core.smUnit part ((addr.toNat + 0) % 2 ^ 23)) ++ m.ctrlBytes part addr ctrl := by
    rw [← second]
    simp [Mach.sm, Mach.units, Core.smUnits, tabulate, List.range_succ]
  have first : ∀ k, ((m.putCtrl part addr ctrl).unit k).length = 64 := fun k => memBytes_length ..
  rw [bytes, fieldAt, slice_append_right (first _).le, first, Mach.ctrlBytes, slice_append_left (by simp), slice_whole rfl (by simp)]
  exact natLE_bytesLE_of_lt ctrl.isLt

end

/-! ### A write of CTRL -/

section
variable {m : Mach} {plan part : Nat} (core : Nat) {index : Nat} (addr : SmAddr) (ctrl : BitVec 64)

theorem Core.job_of_coresRun {c : Core} (run : c.coresRun plan part = true) : ∃ j, c.job? plan = some j := by
  cases job : c.job? plan with
  | some j => exact ⟨j, rfl⟩
  | none => simp [Core.coresRun, job] at run

theorem takeMail_ext : Mach.Ext (onDieWr part) m (takeMail plan part core index addr m) := by
  have put : ∀ u bs, Mach.Ext (onDieWr part) m (m.putSm part u bs false) := fun u bs => Mach.putSm_ext part u bs false m
  unfold takeMail
  split
  · exact Mach.Ext.refl m
  · dsimp only
    split
    · exact put _ _
    · split
      · exact Mach.Ext.up _ m
      · split <;> exact (put _ _).then_up _

/-- A request writes only the station memory of its die, where its mailbox lies. -/
theorem mailSubmit_ext : Mach.Ext (onDieWr part) m (mailSubmit plan part core index addr ctrl m) := by
  unfold mailSubmit
  split
  · exact Mach.Ext.refl m
  · dsimp only
    split
    · exact Mach.Ext.up _ m
    · have put := Mach.putSm_ext part (ctrlUnit addr) (m.ctrlBytes part addr ctrl) false m
      split
      · exact put.trans (takeMail_ext core addr)
      · exact put

/-- The record 0x0304 of a request that is discarded (R319). -/
def mailRec (c : Core) (plan part core index : Nat) : Rec := { coreRec c plan 0x304 3 1 part core with oper := BitVec.ofNat 16 index }

theorem mailRec_fields (c : Core) : (mailRec c plan part core index).code = 0x304 ∧ (mailRec c plan part core index).cls = 3 := by
  unfold mailRec coreRec
  dsimp only
  split <;> exact ⟨rfl, rfl⟩

variable (run : m.core.coresRun plan part = true) (inside : index < 8)
include run inside

/-- CTRL of a mailbox whose GO is 1 is not written (R319, 04 R124). -/
theorem mailSubmit_of_busy (busy : ((m.core.part part).cores.mail.any fun b => b.core == core && b.index == index && b.go) = true) :
    mailSubmit plan part core index addr ctrl m = m.up fun c =>
      ((c.logRec (mailRec c plan part core index)).modStreams part (StreamPart.countLate 0x304)).modJob plan (Job.noteOrigin 3 0x304) := by
  simp only [mailSubmit, run, busy, Nat.not_le.2 inside]
  rfl

variable (free : ((m.core.part part).cores.mail.any fun b => b.core == core && b.index == index && b.go) = false)
include free

/-- CTRL of a mailbox whose GO is 0 is written, and a value with GO is a request (R319). -/
theorem mailSubmit_of_free : mailSubmit plan part core index addr ctrl m =
    if ctrl.getLsbD 63 then takeMail plan part core index addr (m.putCtrl part addr ctrl) else m.putCtrl part addr ctrl := by
  simp only [mailSubmit, run, free, Nat.not_le.2 inside]
  rfl

variable (go : ctrl.getLsbD 63 = true) (sound : Memory.wf m.mem = true)
include go sound

/-- A request of a reserved OP ends in its mailbox: no operation starts, and the mailboxes in use stay (R9, R319). -/
theorem mailSubmit_reserved (noAbort : field ctrl.toNat 44 4 ≠ 8) (reserved : kiteCombines (field ctrl.toNat 44 4) = false) :
    (mailSubmit plan part core index addr ctrl m).core.fab = m.core.fab ∧ (mailSubmit plan part core index addr ctrl m).core.parts = m.core.parts := by
  rw [mailSubmit_of_free core addr ctrl run inside free, if_pos go, takeMail]
  split
  · exact ⟨Mach.putSm_fab .., Mach.putSm_parts ..⟩
  · simp only [m.fieldAt_putCtrl part addr ctrl sound, bne_iff_ne.2 noAbort, reserved, Bool.not_false, Bool.and_self, if_true, Mach.putSm_fab, Mach.putSm_parts]
    exact ⟨Mach.putSm_fab .., Mach.putSm_parts ..⟩

/-- A request of an operation that combines takes the next SEQ of its group and holds its mailbox (R318, R319). -/
theorem mailSubmit_combines (here : part < m.core.parts.length) (notAll : field ctrl.toNat 48 8 ≠ 0xFF) (combines : kiteCombines (field ctrl.toNat 44 4) = true) :
    (mailSubmit plan part core index addr ctrl m).core.kiteNext plan (field ctrl.toNat 48 8) = m.core.kiteNext plan (field ctrl.toNat 48 8) + 1 ∧
      ∃ b ∈ ((mailSubmit plan part core index addr ctrl m).core.part part).cores.mail, b.core = core ∧ b.index = index ∧ b.plan = plan ∧ b.go = false := by
  obtain ⟨j, job⟩ := Core.job_of_coresRun run
  have job' : (m.putCtrl part addr ctrl).core.job? plan = some j := (Mach.putSm_job? ..).trans job
  have noAbort : field ctrl.toNat 44 4 ≠ 8 := fun abort => by simp [abort, kiteCombines, inRange] at combines
  rw [mailSubmit_of_free core addr ctrl run inside free, if_pos go]
  simp only [takeMail, job', m.fieldAt_putCtrl part addr ctrl sound, combines, notAll, noAbort, Bool.not_true, Bool.and_false, Bool.false_eq_true, if_false,
    decide_false, Bool.false_and, Mach.up_core]
  refine ⟨?_, ?_⟩
  · rw [Core.kiteNext_kiteSubmit]
    refine (Core.kiteNext_kiteBump ..).trans ?_
    rw [Core.kiteNext, Mach.putSm_fab, Mach.putCtrl, Mach.putSm_fab, Core.kiteNext]
  · rw [Core.part_congr (Core.kiteSubmit_parts ..), Core.cores_modCores_self]
    · exact ⟨_, List.mem_append_right _ (List.mem_singleton_self _), rfl, rfl, rfl, rfl⟩
    · simpa [Core.kiteBump, Mach.putSm_parts, Mach.putCtrl_parts] using here

end

/-! ### The commands of the kite line, and O43 -/

theorem exec_kiteMailboxSubmit (plan part core index : Nat) (addr : SmAddr) (ctrl : BitVec 64) (s : State) :
    exec (.kiteMailboxSubmit plan part core index addr ctrl) s =
      .next { s with core := (mailSubmit plan part core index addr ctrl (startMach s)).core
                     mem := (mailSubmit plan part core index addr ctrl (startMach s)).mem } := runM_ext (mailSubmit_ext core addr ctrl)

/-- A result that comes down the tree is kept by the operation that it names (R314). -/
theorem exec_kite_of_result {s : State} {port : Nat} {f : Frame} {p : Plan} {j : Job} {o : KiteOp}
    (plan : s.core.kitePlan f.tenant (field f.xid.toNat 0 8) = some p) (job : s.core.job? p.handle = some j) (up : (s.core.port port).st = .up)
    (next : f.seq = (s.core.port port).expect) (vc : f.vc = 0) (own : s.core.fab.cfg.own < 2 ^ 14) (op : field f.chunk.toNat 16 4 = o.op.toNat)
    (combines : kiteCombines o.op.toNat = true) (width : field f.chunk.toNat 14 2 = o.width.toNat) (down : bitOf f.chunk.toNat 20 = true)
    (current : j.epochOk f.pmask (field f.chunk.toNat 0 14) = true)
    (under : s.core.kiteOp? p.handle (BitVec.ofNat 8 (field f.xid.toNat 0 8)) (BitVec.ofNat 14 (field f.chunk.toNat 0 14)) f.pmask = some o) :
    ∃ t, exec (.kite port f) s = .next t ∧ t.mem = s.mem ∧ t.pwr = s.pwr ∧ { o with result := some f.payload } ∈ t.core.fab.kite := by
  obtain ⟨ps, effect⟩ := runM_arrive_kite up next vc own (deliver := fun f m => m.up (takeKite port f)) (g := fun c => c.kiteResult p o f.payload)
    fun m ps core => congrArg (fun c => ({ m with core := c } : Mach)) (takeKite_of_result (by rw [core]; exact plan) (by rw [core]; exact job) op combines
      width down current (by rw [core]; exact under))
  refine ⟨_, effect, rfl, rfl, ?_⟩
  rw [Core.fab_congr Fabric.kite (fun _ _ => rfl) (Core.unsent_settle port _)]
  exact Core.mem_kite_kiteResult ..

/-- A collective without its partners' data changes neither memory nor jobs nor partitions (R307, R310). -/
theorem exec_collective_waits {s : State} {i : Instr} {opc : Nat} {st : Stn} {h : Hdr} {f : CollF} {ps : List PeerData}
    (row : collRow i = some (opc, st, h, f, ps)) (waits : (startMach s).collReady st f opc ps = false) :
    ∃ t, exec i s = .next t ∧ t.mem = s.mem ∧ t.pwr = s.pwr ∧ t.core.jobs = s.core.jobs ∧ t.core.parts = s.core.parts := by
  obtain ⟨d, effect, jobs, parts⟩ := (startMach s).collWaits_eq st h f opc
  have run : collRun opc false i st h f ps (startMach s) = { startMach s with core := d } := by
    simp only [collRun, waits, Bool.false_eq_true, if_false, effect]
  obtain ⟨t, next, core, mem, pwr, -⟩ := runM_of_eq run
  exact ⟨t, (exec_collRow row s).trans next, mem, pwr, by rw [core]; exact jobs, by rw [core]; exact parts⟩

/-- Two changes of the core, one after the other. -/
theorem Mach.up_up (m : Mach) (f g : Core → Core) : (m.up f).up g = m.up fun c => g (f c) := rfl

/-- An operation that ends, and that compares no replicas, ends as `finishKite` says (R314). -/
theorem kiteComplete_of_done {m : Mach} {plan : Nat} {g : BitVec 8} {seq : BitVec 14} {res : List Byte} {p : Plan} {o : KiteOp}
    (admitted : m.core.plan? plan = some p) (done : m.core.kiteDone plan g seq res = some o) (noReplica : o.submitter ≠ 4) :
    kiteComplete plan g seq res m = finishKite p o (m.up (Core.putKite o)) := by
  simp only [kiteComplete, admitted, done, noReplica, decide_false, Bool.false_and, Bool.false_eq_true, if_false]

/-- An operation that ends with its result leaves the line, and the hamper keeps the result of a job that is not replayed (R314). -/
theorem exec_kiteOperationComplete_of_result {s : State} {plan : Nat} {o : KiteOp} {p : Plan} {j : Job} {r : List Byte} (admitted : s.core.plan? plan = some p)
    (job : s.core.job? plan = some j) (alone : s.core.fab.kite = [o]) (idle : s.core.fab.kiteQueue = []) (named : o.plan = plan) (own : o.submitter ≤ 2)
    (good : o.error = false) (result : o.result = some r) (res : List Byte) :
    ∃ t, exec (.kiteOperationComplete plan o.group o.seq res) s = .next t ∧ t.mem = s.mem ∧ t.pwr = s.pwr ∧ t.core.fab.kite = [] ∧
      (j.phase ≠ .localReplay → ∃ q ∈ t.core.led.records, q.plan = plan ∧ q.step = j.step ∧ q.body = .kiteResult o.group.toNat o.seq.toNat r) := by
  subst named
  have done : (startMach s).core.kiteDone o.plan o.group o.seq res = some o := by simp [Core.kiteDone, startMach, alone, good, result]
  have put : (s.start.putKite o).fab.kite = [o] := Core.kite_putKite_alone alone rfl
  have finish := finishKite_of_result (m := (startMach s).up (Core.putKite o)) (p := p) (by omega) good result job idle
  have effect : exec (.kiteOperationComplete o.plan o.group o.seq res) s = .next { s with core :=
      (if j.phase == .localReplay then s.start.putKite o else (s.start.putKite o).keepResult p o j r).modFab fun q => { q with kite := q.kite.erase o } } := by
    refine runM_up (f := kiteComplete o.plan o.group o.seq res)
      (g := fun c => (if j.phase == .localReplay then c.putKite o else (c.putKite o).keepResult p o j r).modFab fun q => { q with kite := q.kite.erase o }) ?_
    rw [kiteComplete_of_done (by exact admitted) done (by omega), finish, Mach.up_up]
  refine ⟨_, effect, rfl, rfl, ?_, fun live => ?_⟩
  · have kite : (if j.phase == .localReplay then s.start.putKite o else (s.start.putKite o).keepResult p o j r).fab.kite = [o] := by
      split
      · exact put
      · exact (Core.kite_keepResult ..).trans put
    exact (congrArg (fun l => l.erase o) kite).trans (List.erase_cons_head ..)
  · rw [if_neg (by simpa using live)]
    obtain ⟨q, mem, plan, step, body⟩ := Core.mem_records_keepResult (c := s.start.putKite o) (j := j) (by rw [Core.job?_plan job]; exact admitted) p o r
    exact ⟨q, mem, plan.trans (Core.job?_plan job), step, body⟩

/-- An operation that has no result in time is in error, and its job is recorded and made unclean but for a vote that spares the verdict (R318). -/
theorem exec_kiteTimeout_of_pending {s : State} {plan : Nat} {o : KiteOp} {p : Plan} {j : Job} (admitted : s.core.plan? plan = some p)
    (job : s.core.job? plan = some j) (alone : s.core.fab.kite = [o]) (named : o.plan = plan) (own : o.submitter ≤ 2) (pending : o.result = none) :
    ∃ t k r, exec (.kiteTimeout plan o.group o.seq) s = .next t ∧ t.mem = s.mem ∧ t.pwr = s.pwr ∧ t.core.fab.kite = [{ o with error := true }] ∧
      t.core.job? plan = some k ∧ (o.sparesVerdict = false → causeFault ≤ (k.verdict j.step).cause) ∧
      (o.sparesVerdict = true → t.core.jobs = s.core.jobs) ∧ t.core.log.recs.head? = some r ∧ r.code = 0x602 ∧ r.cls = 7 ∧ r.tenant = some j.tenant := by
  subst named
  have handle := Core.plan?_handle admitted
  have effect : exec (.kiteTimeout o.plan o.group o.seq) s = .next { s with core := s.start.kiteFail p o 0x602 } := by
    have plans : (startMach s).core.plan? o.plan = some p := admitted
    have found : (startMach s).core.fab.kite.find? (fun k => k.plan == o.plan && k.group == o.group && k.seq == o.seq && k.result.isNone) = some o := by
      simp [startMach, alone, pending]
    have mailed : ¬ o.submitter = 3 := by omega
    show execKiteTimeout o.plan o.group o.seq s = _
    refine runM_up ?_
    simp only [plans, found, mailed, if_false]
  rw [Core.kiteFail_timeout (by rw [handle]; exact job)] at effect
  have after : (((s.start.logRec (timeoutRec s.start p o j)).modJob p.handle (if o.sparesVerdict then id else Job.unclean causeFault)).putKite
      { o with error := true }).job? o.plan = some ((if o.sparesVerdict then id else Job.unclean causeFault) j) := by
    rw [← handle]
    refine Core.job?_modJob_self ((Core.job?_congr (Core.logRec_jobs _ _) _).trans (handle.symm ▸ job)) fun k => ?_
    split <;> rfl
  refine ⟨_, _, _, effect, rfl, rfl, ?_, after, fun counts => ?_, fun spares => ?_, Core.logRec_head _ _, rfl, rfl, rfl⟩
  · exact Core.kite_putKite_alone ((congrArg Fabric.kite (Core.logRec_fab ..)).trans alone) rfl
  · rw [if_neg (by simp [counts])]
    exact Job.fault_le_faulted _ j
  · rw [if_pos spares]
    refine Eq.trans ?_ (Core.logRec_jobs (timeoutRec s.start p o j) s.start)
    simp [Core.putKite]

/-- A partner that stays silent aborts the collective that waits for it (R330). -/
theorem exec_partnerSilent_of_new {s : State} {plan group : Nat} {lsid : Lsid} {p : Plan} {j : Job} (dies : s.core.fab.lds.length = 4)
    (admitted : s.core.plan? plan = some p) (job : s.core.job? plan = some j) (die : s.core.kiteDie p group < 4)
    (new : s.core.fab.aborted.contains (plan, s.core.collCid plan j lsid group) = false) :
    ∃ t k r, exec (.partnerSilent plan lsid group) s = .next t ∧ t.mem = s.mem ∧ t.pwr = s.pwr ∧
      (plan, s.core.collCid plan j lsid group) ∈ t.core.fab.aborted ∧
      (t.core.ld (s.core.kiteDie p group)).issued = satInc (s.core.ld (s.core.kiteDie p group)).issued ∧
      t.core.log.recs.head? = some r ∧ r.code = 0x603 ∧ r.cls = 7 ∧ t.core.job? plan = some k ∧ causeFault ≤ (k.verdict j.step).cause := by
  have handle := Core.plan?_handle admitted
  obtain ⟨d, sends, issued⟩ := Core.issueAbort_of_new (c := s.start) admitted job new 5
  have effect : exec (.partnerSilent plan lsid group) s = .next { s with core := d.actAbort p (s.core.collCid plan j lsid group) 5 } := by
    show runC (fun _ _ c => partnerSilent plan lsid group c) s = _
    have job' : s.start.job? plan = some j := job
    simp only [runC_start, partnerSilent, job']
    exact congrArg (fun c => Host.Outcome.next { s with core := c }) issued
  obtain ⟨aborts, marked, counts, r, head, code, cls⟩ :=
    Core.actAbort_of_job (c := d) (p := p) (j := j) (by rw [handle, Core.job?_congr (Core.jobs_congr sends)]; exact job) (s.core.collCid plan j lsid group) 5
  refine ⟨_, _, r, effect, rfl, rfl, handle ▸ marked, (counts _).trans ?_, head, code, cls, handle ▸ aborts, Job.fault_le_faulted _ j⟩
  have line := Core.fab_congr (fun q => (q.lds.getD (s.core.kiteDie p group) {}).issued) (fun _ _ => rfl) sends
  exact line.trans (congrArg LinkDie.issued (Core.ld_modLd_self (c := s.start) (die.trans_eq dies.symm) _))

/-- An ABORT for a collective that has been aborted changes no job, and is counted as ignored (R332, R334). -/
theorem exec_kiteAbortReceived_of_known {s : State} {port : Nat} {f : Frame} {p : Plan} {j : Job} (dies : s.core.fab.lds.length = 4)
    (plan : s.core.kitePlan f.tenant (field f.xid.toNat 0 8) = some p) (job : s.core.job? p.handle = some j) (up : (s.core.port port).st = .up)
    (next : f.seq = (s.core.port port).expect) (vc : f.vc = 0) (own : s.core.fab.cfg.own < 2 ^ 14) (die : s.core.kiteDie p (field f.xid.toNat 0 8) < 4)
    (known : s.core.fab.aborted.contains (p.handle, abortCid f.payload (field f.xid.toNat 0 8)) = true) :
    ∃ t, exec (.kiteAbortReceived port f) s = .next t ∧ t.mem = s.mem ∧ t.pwr = s.pwr ∧ t.core.jobs = s.core.jobs ∧
      (t.core.ld (s.core.kiteDie p (field f.xid.toNat 0 8))).ignored = satInc (s.core.ld (s.core.kiteDie p (field f.xid.toNat 0 8))).ignored := by
  have tree : ∀ ps, (s.start.modFab fun q => { q with ports := ps }).kiteDie p (field f.xid.toNat 0 8) = s.core.kiteDie p (field f.xid.toNat 0 8) :=
    fun ps => (Core.kiteDie_ports ..).trans rfl
  obtain ⟨ps, effect⟩ : ∃ ps, exec (.kiteAbortReceived port f) s =
      .next { s with core := (Core.settle port ((s.start.modFab fun q => { q with ports := ps }).ignoreAbort (s.core.kiteDie p (field f.xid.toNat 0 8)))) } := by
    refine runM_arrive_kite up next vc own (g := Core.ignoreAbort (s.core.kiteDie p (field f.xid.toNat 0 8))) fun m ps core => ?_
    have admitted : m.core.kitePlan f.tenant (field f.xid.toNat 0 8) = some p := by rw [core]; exact plan
    have ignored := Core.takeAbort_of_known (c := m.core) (p := p) (j := j) (f := { f.onKite s.core.fab.cfg.own with job := none }) (by rw [core]; exact job)
      (by rw [core]; exact known) port
    dsimp only [Frame.onKite] at ignored ⊢
    rw [show m.core.kiteDie p (field f.xid.toNat 0 8) = _ from core ▸ tree ps] at ignored
    rw [admitted]
    exact congrArg (fun c => ({ m with core := c } : Mach)) ignored
  refine ⟨_, effect, rfl, rfl, (Core.jobs_congr (Core.unsent_settle port _) :), ?_⟩
  have here : s.core.kiteDie p (field f.xid.toNat 0 8) < (s.start.modFab fun q => { q with ports := ps }).fab.lds.length := die.trans_eq dies.symm
  have line := Core.fab_congr (fun q => (q.lds.getD (s.core.kiteDie p (field f.xid.toNat 0 8)) {}).ignored) (fun _ _ => rfl)
    (Core.unsent_settle port ((s.start.modFab fun q => { q with ports := ps }).ignoreAbort (s.core.kiteDie p (field f.xid.toNat 0 8))))
  exact line.trans (congrArg LinkDie.ignored (Core.ld_modLd_self here _))

/-- Settles O43: the rules of a mailbox for the first clause, and for each other clause the rule of its command. -/
theorem kiteOperationsAndAborts : Obligations.KiteOperationsAndAborts := by
  unfold Obligations.KiteOperationsAndAborts
  intro s dies _
  refine ⟨fun plan part core index addr ctrl run inside here => ?_,
    fun port f p j o plan job up _ next vc own op combines width down current under => ?_,
    fun plan o p j res r admitted job alone idle named own good result => ?_,
    fun plan o p j admitted job alone named own pending => ?_,
    fun i opc st h f ps row waits => ?_,
    fun plan group lsid p j admitted job die new => ?_,
    fun port f p j plan job up _ next vc own die known => ?_⟩
  · refine ⟨_, exec_kiteMailboxSubmit .., rfl, fun busy => ?_, fun free store => ?_, fun free go notAll combines sound => ?_,
      fun free go noAbort reserved sound => ?_⟩
    · have effect := mailSubmit_of_busy (m := startMach s) core addr ctrl run inside busy
      obtain ⟨code, cls⟩ := mailRec_fields (plan := plan) (part := part) (index := index) core s.start
      refine ⟨congrArg Mach.mem effect, s.start.stamped (mailRec s.start plan part core index), ?_, code, cls, rfl⟩
      exact (congrArg (fun m : Mach => m.core.log.recs.head?) effect).trans (Core.logRec_head _ _)
    · have effect := mailSubmit_of_free (m := startMach s) core addr ctrl run inside free
      rw [store] at effect
      obtain ⟨written, others⟩ := (startMach s).putCtrl_bytes part addr ctrl
      simp only [effect, Bool.false_eq_true, if_false]
      exact ⟨written, others, Mach.putSm_fab ..⟩
    · exact mailSubmit_combines (m := startMach s) core addr ctrl run inside free go sound here notAll combines
    · obtain ⟨fab, parts⟩ := mailSubmit_reserved (m := startMach s) core addr ctrl run inside free go sound noAbort reserved
      exact ⟨fab, congrArg (fun q : Part => q.cores.mail) (Core.part_congr parts part)⟩
  · exact exec_kite_of_result plan job up next vc own op combines width down current under
  · exact exec_kiteOperationComplete_of_result admitted job alone idle named own good result res
  · exact exec_kiteTimeout_of_pending admitted job alone named own pending
  · exact exec_collective_waits row waits
  · exact exec_partnerSilent_of_new dies admitted job die new
  · exact exec_kiteAbortReceived_of_known dies plan job up next vc own die known

end Sys2Proof.Machine
end

section
/-!
Votes, aborts, notices and the mirror's frames (10 R351 to R369): what they leave of the mirror's MODE and LOST and of the numbers that ports expect, of the
records in the hamper, and of the jobs.
-/

namespace Sys2Proof.Machine

/-! ### The mirror's mode and the numbers that ports expect -/

/-- The sequence number that each port expects next (08 R261). -/
def Core.expects (c : Core) : List U16 := c.fab.ports.map Port.expect

/-- MODE and LOST of the mirror (R369, R380), and what the ports expect. -/
def Core.tether (c : Core) : BitVec 3 × Bool × List U16 := (c.led.mode, c.led.lost, c.expects)

theorem Core.tether_congr {c d : Core} (led : d.led = c.led) (fab : d.fab = c.fab) : d.tether = c.tether := by
  simp only [Core.tether, Core.expects, led, fab]

theorem Core.expects_of_tether {c d : Core} (same : d.tether = c.tether) : d.expects = c.expects := congrArg (fun x => x.2.2) same

theorem Core.expect_eq (c : Core) (i : Nat) : (c.port i).expect = c.expects.getD i (Port.expect {}) := (List.getD_map c.fab.ports {} Port.expect).symm

theorem Core.tether_of_sends {c d : Core} (sends : d.unsent = c.unsent) : d.tether = c.tether := by
  have unsent : ∀ x : Core, x.unsent.tether = x.tether := fun x => by
    simp only [Core.tether, Core.expects, Core.unsent, List.map_map]
    rfl
  rw [← unsent d, sends, unsent c]

@[simp] theorem Core.tether_emit (c : Core) (o : Out) : (c.emit o).tether = c.tether := rfl

@[simp] theorem Core.tether_modJob (c : Core) (h : Nat) (f : Job → Job) : (c.modJob h f).tether = c.tether := rfl

@[simp] theorem Core.tether_modCores (c : Core) (p : Nat) (f : CorePart → CorePart) : (c.modCores p f).tether = c.tether := rfl

@[simp] theorem Core.tether_modSpool (c : Core) (f : Spool → Spool) : (c.modSpool f).tether = c.tether := rfl

@[simp] theorem Core.tether_modLd (c : Core) (l : Nat) (f : LinkDie → LinkDie) : (c.modLd l f).tether = c.tether := rfl

@[simp] theorem Core.tether_putKite (o : KiteOp) (c : Core) : (c.putKite o).tether = c.tether := rfl

@[simp] theorem Core.tether_kiteBump (plan g n : Nat) (c : Core) : (c.kiteBump plan g n).tether = c.tether := rfl

@[simp] theorem Core.tether_logRec (r : Rec) (c : Core) : (c.logRec r).tether = c.tether := Core.tether_congr (Core.logRec_led r c) (Core.logRec_fab r c)

@[simp] theorem Core.tether_cqWrite (t qn : Nat) (bs : List Byte) (c : Core) : (c.cqWrite t qn bs).tether = c.tether :=
  Core.tether_congr (Core.cqWrite_led t qn bs c) (Core.cqWrite_fab t qn bs c)

@[simp] theorem Core.tether_unsolicited (t status : Nat) (detail : List Byte) (c : Core) : (c.unsolicited t status detail).tether = c.tether := by
  unfold Core.unsolicited
  split
  · exact Core.tether_cqWrite ..
  · rfl

@[simp] theorem Core.tether_reply (a : Accepted) (status : Nat) (detail : List Byte) (c : Core) : (c.reply a status detail).tether = c.tether := by
  have settled : ∀ (t : Nat) (d : Core), (d.adminSettle t).tether = d.tether := fun t d => by
    unfold Core.adminSettle
    split <;> rfl
  exact (settled _ _).trans (Core.tether_cqWrite ..)

@[simp] theorem Core.tether_addRec (j : Job) (lp : Nat) (b : HBody) (c : Core) : (c.addRec j lp b).tether = c.tether := by
  unfold Core.addRec
  split <;> rfl

/-! ### Frames on routes -/

/-- A frame put in the queue of a port leaves what the port expects. -/
@[simp] theorem Core.tether_queue (c : Core) (i : Nat) (fs : List Frame) : (c.modPort i fun q => { q with waiting := q.waiting ++ fs }).tether = c.tether :=
  Core.tether_of_sends (Core.unsent_modPort_of_sends (by exact fun _ => rfl) c i)

@[simp] theorem Core.tether_unreachable (f : Frame) (c : Core) : (c.unreachable f).tether = c.tether := by
  have noted : ∀ (recent : Bool) (r : Rec) (l : List (Nat × BitVec 64)),
      (if recent then c else (c.logRec r).modFab fun q => { q with unreach := l }).tether = c.tether := fun recent r l => by
    cases recent with
    | false => exact Core.tether_logRec r c
    | true => rfl
  exact noted _ _ _

@[simp] theorem Core.tether_enqueue (src : Bool) (f : Frame) (c : Core) : (c.enqueue src f).tether = c.tether := by
  unfold Core.enqueue
  split
  · exact c.tether_unreachable f
  · split
    · exact Core.tether_logRec _ c
    · split
      · exact c.tether_unreachable f
      · exact c.tether_queue _ _

@[simp] theorem Core.tether_pumps (is : List Nat) (c : Core) : (is.foldl (fun c i => c.pump i) c).tether = c.tether :=
  Core.tether_of_sends (c.unsent_pumps is)

@[simp] theorem Core.tether_sendFrame (f : Frame) (c : Core) : (c.sendFrame f).tether = c.tether := by
  rw [Core.sendFrame, Core.tether_pumps, Core.tether_enqueue]

@[simp] theorem Core.tether_sendOn (i : Nat) (f : Frame) (c : Core) : (c.sendOn i f).tether = c.tether := Core.tether_of_sends (c.unsent_sendOn i f)

/-! ### Operations of the kite line and aborts -/

/-- An operation that goes on is put in place, and frames may leave: nothing else changes (09 R314). -/
theorem Core.unsent_kiteAdvance (p : Plan) (o : KiteOp) (c : Core) : ∃ x, (c.kiteAdvance p o).unsent = (c.putKite x).unsent := by
  unfold Core.kiteAdvance
  dsimp only
  generalize (o.sentUp || o.result.isSome || !_) = stays
  cases stays with
  | true => exact ⟨o, rfl⟩
  | false =>
    cases o.got with
    | nil => exact ⟨o, rfl⟩
    | cons first rest =>
      simp only [Bool.false_eq_true, if_false]
      cases (c.kiteTree p o.group.toNat).1 with
      | some up => exact ⟨_, Core.unsent_sendKite ..⟩
      | none => exact ⟨_, Core.unsent_kiteResult ..⟩

theorem Core.led_kiteAdvance (p : Plan) (o : KiteOp) (c : Core) : (c.kiteAdvance p o).led = c.led := by
  obtain ⟨x, sends⟩ := c.unsent_kiteAdvance p o
  exact (congrArg Core.led sends :)

@[simp] theorem Core.tether_kiteAdvance (p : Plan) (o : KiteOp) (c : Core) : (c.kiteAdvance p o).tether = c.tether := by
  obtain ⟨x, sends⟩ := c.unsent_kiteAdvance p o
  exact (Core.tether_of_sends sends).trans (c.tether_putKite x)

@[simp] theorem Core.tether_outbound (h lp kind id : Nat) (bs : List Byte) (c : Core) : (c.outbound h lp kind id bs).2.tether = c.tether := by
  unfold Core.outbound
  split
  · rfl
  · split
    · dsimp only
      split
      · split
        · rfl
        · exact Core.tether_logRec _ c
      · exact Core.tether_addRec ..
    · exact Core.tether_addRec ..

@[simp] theorem Core.tether_kiteSubmit (o : KiteOp) (own : List Byte) (c : Core) : (c.kiteSubmit o own).tether = c.tether := by
  unfold Core.kiteSubmit
  split
  · dsimp only
    split
    · split <;> rfl
    · split
      · rfl
      · rw [Core.tether_kiteAdvance, Core.tether_outbound]
  · rfl

@[simp] theorem Core.tether_actAbort (p : Plan) (k : Cid) (cause : Nat) (c : Core) : (c.actAbort p k cause).tether = c.tether := by
  unfold Core.actAbort
  split
  · rfl
  · exact Core.tether_logRec _ c

@[simp] theorem Core.tether_issueAbort (plan : Nat) (k : Cid) (cause : Nat) (c : Core) : (c.issueAbort plan k cause).tether = c.tether := by
  unfold Core.issueAbort
  split
  · split
    · rfl
    · rw [Core.tether_actAbort, Core.tether_of_sends (Core.unsent_floodAbort ..), Core.tether_modLd]
  · rfl

@[simp] theorem Core.tether_abortLive (plan : Nat) (sel : Nat → Bool) (cause : Nat) (c : Core) : (c.abortLive plan sel cause).tether = c.tether := by
  unfold Core.abortLive
  exact foldl_leaves Core.tether (fun c r => Core.tether_issueAbort ..) _ c

/-! ### Mailboxes and the mirror vote -/

theorem Mach.tether_foldl {α : Type} {f : Mach → α → Mach} (leaves : ∀ m a, (f m a).core.tether = m.core.tether) (l : List α) (m : Mach) :
    (l.foldl f m).core.tether = m.core.tether := foldl_leaves (fun m => m.core.tether) leaves l m

theorem Mach.tether_putSm (p a : Nat) (bs : List Byte) (q : Bool) (m : Mach) : (m.putSm p a bs q).core.tether = m.core.tether := by
  obtain ⟨g, ls, core⟩ := m.putSm_core p a bs q
  rw [core]
  rfl

theorem tether_takeMail (plan part core index : Nat) (addr : SmAddr) (m : Mach) : (takeMail plan part core index addr m).core.tether = m.core.tether := by
  unfold takeMail
  split
  · rfl
  · dsimp only
    split
    · exact Mach.tether_putSm ..
    · split
      · rfl
      · split <;> simp [Mach.tether_putSm]

theorem tether_releaseMail (plan : Nat) (m : Mach) : (releaseMail plan m).core.tether = m.core.tether := by
  unfold releaseMail
  exact Mach.tether_foldl (fun m p => Mach.tether_foldl (fun m b => tether_takeMail ..) _ m) _ m

@[simp] theorem Core.tether_mirrorVote (h : Nat) (s : StepNo) (lost : Bool) (c : Core) : (c.mirrorVote h s lost).tether = c.tether := by
  unfold Core.mirrorVote
  split
  · rfl
  · split
    · rfl
    · simp [Core.vote]

@[simp] theorem Mach.tether_mirrorVoted (h : Nat) (s : StepNo) (lost : Bool) (m : Mach) : (m.mirrorVoted h s lost).core.tether = m.core.tether := by
  rw [Mach.mirrorVoted, tether_releaseMail, Mach.up_core, Core.tether_mirrorVote]

@[simp] theorem Core.tether_restoreDone (r : RestoreRun) (c : Core) : (c.restoreDone r).tether = c.tether := by
  simp [Core.restoreDone]

/-- The loss of the mirror is noted, and leaves what the ports expect (R369). -/
theorem Mach.tether_loseMirror (m : Mach) : m.loseMirror.core.tether = (0, true, m.core.expects) := by
  unfold Mach.loseMirror
  dsimp only
  exact (Mach.tether_foldl (fun m r => Core.tether_restoreDone r m.core) _ _).trans (Mach.tether_foldl (fun m j => Mach.tether_mirrorVoted ..) _ _)

/-! ### Jobs that fall back, and failure notices -/

/-- A job that falls back leaves its record, and changes nothing but the jobs besides (R374). -/
theorem Core.fallback_frame (h : Nat) (c : Core) : (c.fallback h).led = c.led ∧ (c.fallback h).fab = c.fab := by
  unfold Core.fallback
  split
  · exact ⟨rfl, rfl⟩
  · split
    · exact ⟨rfl, rfl⟩
    · exact ⟨Core.logRec_led _ c, Core.logRec_fab _ c⟩

@[simp] theorem Core.tether_fallback (h : Nat) (c : Core) : (c.fallback h).tether = c.tether :=
  Core.tether_congr (c.fallback_frame h).1 (c.fallback_frame h).2

@[simp] theorem Core.tether_snapFailAll (h : Nat) (s : StepNo) (n : BitVec 32) (cause : Nat) (c : Core) :
    (c.snapFailAll h s n cause).tether = c.tether := Core.tether_unsolicited ..

@[simp] theorem Core.tether_snapMemberFailed (h : Nat) (c : Core) : (c.snapMemberFailed h).tether = c.tether := by
  refine foldl_leaves Core.tether (fun c s => ?_) _ c
  split
  · exact Core.tether_snapFailAll ..
  · rfl

@[simp] theorem Core.tether_failureNotice (h lost : Nat) (edge : BitVec 64) (c : Core) : (c.failureNotice h lost edge).tether = c.tether := by
  unfold Core.failureNotice
  dsimp only
  split <;> simp

end Sys2Proof.Machine
end

section
/-!
Verdicts that become final and local replays that end (10 R350, R356, R357): what is given back to a replayed job and what its settled checks leave of it, and
what a seal vote leaves of the verdict and the hamper; then O39.
-/

namespace Sys2Proof.Machine

/-! ### Records that stay in the hamper -/

theorem Core.records_addRec (j : Job) (lp : Nat) (b : HBody) (c : Core) : c.led.records ⊆ (c.addRec j lp b).led.records := by
  unfold Core.addRec
  split
  · exact List.Subset.refl _
  · exact List.subset_append_left ..

theorem Core.addRec_jobs (j : Job) (lp : Nat) (b : HBody) (c : Core) : (c.addRec j lp b).jobs = c.jobs := by
  unfold Core.addRec
  split <;> rfl

theorem Core.mem_records_addRec {c : Core} {j : Job} {p : Plan} (admitted : c.plan? j.plan = some p) (lp : Nat) (b : HBody) :
    ∃ r ∈ (c.addRec j lp b).led.records, r.plan = j.plan ∧ r.step = j.step ∧ r.body = b := by
  simp only [Core.addRec, admitted]
  exact ⟨_, List.mem_append_right _ (List.mem_singleton_self _), rfl, rfl, rfl⟩

theorem Core.records_outbound (h lp kind id : Nat) (bs : List Byte) (c : Core) : c.led.records ⊆ (c.outbound h lp kind id bs).2.led.records := by
  unfold Core.outbound
  split
  · exact List.Subset.refl _
  · split
    · dsimp only
      split
      · split
        · exact List.Subset.refl _
        · exact fun r mem => (congrArg (r ∈ Ledger.records ·) (Core.logRec_led _ c)).mpr mem
      · exact Core.records_addRec ..
    · exact Core.records_addRec ..

theorem Core.records_kiteSubmit (o : KiteOp) (own : List Byte) (c : Core) : c.led.records ⊆ (c.kiteSubmit o own).led.records := by
  unfold Core.kiteSubmit
  split
  · dsimp only
    split
    · split <;> exact List.Subset.refl _
    · split
      · exact List.Subset.refl _
      · rw [Core.led_kiteAdvance]
        exact Core.records_outbound ..
  · exact List.Subset.refl _

/-- A seal vote adds to the job's votes and to the records, and takes nothing away (R351). -/
theorem Core.trySeal_leaves {c : Core} {h : Nat} {j : Job} (job : c.job? h = some j) :
    (∃ votes, (c.trySeal h).job? h = some { j with votes := votes }) ∧ c.led.records ⊆ (c.trySeal h).led.records := by
  unfold Core.trySeal
  split
  · dsimp only
    split
    · refine ⟨⟨_, (Core.job?_congr (Core.kiteSubmit_jobs ..) h).trans (Core.job?_modJob_self job fun _ => rfl)⟩, ?_⟩
      exact Core.records_kiteSubmit _ _ ((c.modJob h _).kiteBump h 0xFF 1)
    · exact ⟨⟨j.votes, job⟩, List.Subset.refl _⟩
  · exact ⟨⟨j.votes, job⟩, List.Subset.refl _⟩

/-! ### Verdicts -/

/-- The cause that the module itself gives a verdict: that it has failed, or that a job of several modules has lost sync (06 R194). -/
def Core.ownCause (c : Core) (j : Job) : Nat :=
  if c.health.permFailed then 3 else if c.fab.syncState == 3 && c.multiModule j then causeFault else 0

theorem Core.ownCause_of_sound {c : Core} (sound : c.health.permFailed = false) (synced : c.fab.syncState ≠ 3) (j : Job) : c.ownCause j = 0 := by
  have unlost : (c.fab.syncState == 3) = false := beq_eq_false_iff_ne.2 synced
  simp only [Core.ownCause, sound, unlost, Bool.false_and, Bool.false_eq_true, if_false]

/-- A verdict that has become final at a counter value, with the module's own cause (R350). -/
def Verdict.closed (cause : Nat) (now : BitVec 64) (v : Verdict) : Verdict := { v with cause := max v.cause cause, final := true, finalAt := now }

/-- The verdict of step `st` closed, and its VERDICT record kept (R344, R350). -/
def Core.closeVerdict (h : Nat) (j : Job) (st : StepNo) (v : Verdict) (c : Core) : Core :=
  let w := v.closed (c.ownCause j) c.clk.count
  (c.addRec { j with step := st, attempt := v.attempt } 0xFF (.verdict w.cause)).modJob h fun k => k.modVerdict st fun _ => w

theorem Job.verdict_of_only {j : Job} {st : StepNo} {v : Verdict} (only : j.verdicts.filter (fun v => v.step == st) = [v]) : j.verdict st = v := by
  rw [Job.verdict, ← List.head?_filter, only]
  rfl

section
variable {c : Core} {h : Nat} {st : StepNo} {j : Job} (job : c.job? h = some j)
include job

/-- Only the step that its job runs can end by its last beat. -/
theorem Core.stepEnded_of_other (other : j.step ≠ st) (mem : Mem) : c.stepEnded mem h st = c := by
  unfold Core.stepEnded
  split
  next k p found admitted =>
    obtain rfl : j = k := Option.some.inj (job.symm.trans found)
    simp [other]
  · rfl

theorem verdictFinal_of_done {v : Verdict} (other : j.step ≠ st) (only : j.verdicts.filter (fun v => v.step == st) = [v]) (due : v.final = false)
    (done : v.beatsDone = true) (sent : c.unacked h st = false) : verdictFinal h st c = (c.closeVerdict h j st v).trySeal h := by
  have verdict := Job.verdict_of_only only
  have stands : j.verdicts.any (fun v => v.step == st) = true := by
    obtain ⟨mem, step⟩ := List.mem_filter.1 (only ▸ List.mem_singleton_self v)
    exact List.any_eq_true.2 ⟨v, mem, step⟩
  have unrun : (j.step == st) = false := by simpa using other
  simp only [verdictFinal, job]
  rw [verdict, if_neg (by simp [stands, due, done, unrun, sent])]
  rfl

/-- A step whose beats are not done, or that waits for an acknowledgement, keeps its verdict (R350). -/
theorem verdictFinal_of_pending (pending : (∀ v ∈ j.verdicts, v.step = st → v.beatsDone = false) ∨ c.unacked h st = true) :
    verdictFinal h st c = c := by
  have waits : (!(j.verdict st).beatsDone || c.unacked h st) = true := by
    rcases pending with undone | unacked
    · have done : (j.verdict st).beatsDone = false := by
        cases found : j.verdicts.find? (fun v => v.step == st) with
        | none => simp [Job.verdict, found]
        | some v =>
          have own := undone v (List.mem_of_find?_eq_some found) (by simpa using List.find?_some found)
          simpa [Job.verdict, found] using own
      simp [done]
    · simp [unacked]
  simp only [verdictFinal, job]
  rw [if_pos]
  rcases Bool.or_eq_true_iff.1 waits with undone | unacked
  · simp [undone]
  · simp [unacked]

/-- A closed verdict stands in the job and its record in the hamper, and the seal vote that follows leaves both. -/
theorem Core.closeVerdict_trySeal {p : Plan} (admitted : c.plan? h = some p) {v : Verdict} (verdict : j.verdict st = v) :
    let w := v.closed (c.ownCause j) c.clk.count
    (∃ k, ((c.closeVerdict h j st v).trySeal h).job? h = some k ∧ k.verdict st = w) ∧
      ∃ r ∈ ((c.closeVerdict h j st v).trySeal h).led.records, r.plan = h ∧ r.step = st ∧ r.body = .verdict w.cause := by
  intro w
  have plan := Core.job?_plan job
  have closed : (c.closeVerdict h j st v).job? h = some (j.modVerdict st fun _ => w) :=
    Core.job?_modJob_self ((Core.job?_congr (Core.addRec_jobs ..) h).trans job) fun _ => rfl
  have same : (j.modVerdict st fun _ => w) = j.modVerdict st (Verdict.closed (c.ownCause j) c.clk.count) := by rw [Job.modVerdict, Job.modVerdict, verdict]
  obtain ⟨r, mem, rplan, rstep, body⟩ := Core.mem_records_addRec (c := c) (j := { j with step := st, attempt := v.attempt })
    (by rw [plan]; exact admitted) 0xFF (.verdict w.cause)
  obtain ⟨⟨votes, voted⟩, kept⟩ := Core.trySeal_leaves closed
  have final : (j.modVerdict st fun _ => w).verdict st = w := by
    rw [same, Job.verdict_modVerdict (f := Verdict.closed (c.ownCause j) c.clk.count) j fun _ => rfl, verdict]
  exact ⟨⟨_, voted, final⟩, r, kept mem, rplan.trans plan, rstep, body⟩

end

/-! ### Local replays -/

/-- A job is found again where the jobs have changed in no more than `f` forgets. -/
theorem Core.job?_of_map {f : Job → Job} (keeps : ∀ j, (f j).plan = j.plan) {c d : Core} (same : d.jobs.map f = c.jobs.map f) {h : Nat} {j : Job}
    (job : c.job? h = some j) : ∃ k, d.job? h = some k ∧ f k = f j := by
  have found : ∀ x : Core, (x.jobs.map f).find? (fun j => j.plan == h) = (x.job? h).map f := fun x => by
    simp only [List.find?_map, Function.comp_def, keeps, Core.job?]
  have mapped := (found d).symm.trans ((congrArg (List.find? _) same).trans (found c))
  rw [job] at mapped
  exact Option.map_eq_some_iff.1 mapped

/-- A job without the residency of its operands. -/
def Job.unplaced (j : Job) : Job := { j with resident := [] }

theorem Core.map_modJob {f : Job → Job} {g : Job → Job} (forgets : ∀ j, f (g j) = f j) (c : Core) (h : Nat) :
    (c.modJob h g).jobs.map f = c.jobs.map f := by
  rw [Core.modJob_jobs, List.map_map]
  refine List.map_congr_left fun j _ => ?_
  simp only [Function.comp]
  split
  · exact forgets j
  · rfl

theorem Job.unplaced_markKeys (c : Core) (keys : List Nat) (j : Job) : (j.markKeys c keys).unplaced = j.unplaced := by
  refine foldl_leaves Job.unplaced (fun j k => ?_) keys j
  split <;> rfl

theorem Mach.jobs_putUnit (k : Nat) (bs : List Byte) (q : Bool) (m : Mach) : (m.putUnit k bs q).core.jobs = m.core.jobs := by rw [Mach.putUnit_core]

theorem Mach.jobs_putMarked (keys : List Nat) (bs : List Byte) (bad : List Bool) (m : Mach) : (m.putMarked keys bs bad).core.jobs = m.core.jobs := by
  unfold Mach.putMarked
  exact foldl_leaves (fun m => m.core.jobs) (fun m e => Mach.jobs_putUnit ..) _ m

theorem Mach.jobs_patch (k : Nat) (bs : List Byte) (m : Mach) : (m.patch k bs).core.jobs = m.core.jobs := by
  unfold Mach.patch
  dsimp only [Mach.up_core, Mach.write_core]
  split <;> rfl

/-- A record given back changes no more of a job than its residency (R357). -/
theorem Mach.unplaced_giveBack (h : Nat) (r : HRec) (m : Mach) : (m.giveBack h r).core.jobs.map Job.unplaced = m.core.jobs.map Job.unplaced := by
  unfold Mach.giveBack
  split
  case h_2 _ _ keys bytes bad rpost part ch token _ =>
    have marked : ((m.putMarked keys bytes bad).core.modJob h (Job.markKeys (m.putMarked keys bytes bad).core keys)).jobs.map Job.unplaced =
        m.core.jobs.map Job.unplaced := by rw [Core.map_modJob (Job.unplaced_markKeys _ keys), Mach.jobs_putMarked]
    dsimp only
    split
    · exact (congrArg (List.map Job.unplaced) (Core.pushToken_jobs ..)).trans marked
    · exact marked
  · rw [Mach.jobs_putMarked]
  · rfl
  · exact congrArg (List.map Job.unplaced) (Core.pushToken_jobs ..)
  · rw [Mach.jobs_patch]
  · rfl

theorem Mach.unplaced_giveBackTo (h lo hi : Nat) (m : Mach) : (m.giveBackTo h lo hi).core.jobs.map Job.unplaced = m.core.jobs.map Job.unplaced := by
  unfold Mach.giveBackTo
  split
  · rfl
  · split
    · exact foldl_leaves (fun m => m.core.jobs.map Job.unplaced) (fun m r => m.unplaced_giveBack h r) _ m
    · rfl

theorem Mach.jobs_settleCheck (j : Job) (k : PendingCheck) (m : Mach) : (m.settleCheck j k).core.jobs = m.core.jobs := by
  unfold Mach.settleCheck
  dsimp only [Mach.up_core]
  split
  · exact (Core.modMx_jobs ..).trans (Core.logRec_jobs ..)
  · exact Core.logRec_jobs ..

/-- A job that runs live from the end of its replay on (R356). -/
def Job.replayed (endCycle : Nat) (j : Job) : Job := { j with phase := .running, replay := none, checks := [], sched := max j.sched endCycle }

/-- The job at the end of its replay: only its residency has changed besides (R356, R357). -/
theorem replayEnd_job {m : Mach} {h : Nat} {j : Job} {r : Replay} (job : m.core.job? h = some j) (replaying : j.phase = .localReplay)
    (replay : j.replay = some r) (begun : r.begun = true) (back : r.endBeat ≤ j.beat) :
    ∃ k : Job, (replayEnd h m).core.job? h = some (k.replayed r.endCycle) ∧ k.unplaced = j.unplaced := by
  obtain ⟨k, given, same⟩ := Core.job?_of_map (f := Job.unplaced) (fun _ => rfl) (m.unplaced_giveBackTo h j.sched (r.endCycle + 1)) job
  have checked := foldl_leaves (fun m => m.core.jobs) (fun m c => m.jobs_settleCheck j c) j.checks (m.giveBackTo h j.sched (r.endCycle + 1))
  refine ⟨k, ?_, same⟩
  simp only [replayEnd, job, replay, replaying, begun, back, beq_self_eq_true, Bool.and_self, decide_true, if_true]
  exact Core.job?_modJob_self ((Core.job?_congr checked h).trans given) (f := Job.replayed r.endCycle) fun _ => rfl

/-- Settles O39: `verdictFinal_of_done` and what `Core.closeVerdict_trySeal` says of it, `verdictFinal_of_pending`, and `replayEnd_job`. -/
theorem verdictsBecomeFinalAndReplaysEnd : Obligations.VerdictsBecomeFinalAndReplaysEnd := by
  unfold Obligations.VerdictsBecomeFinalAndReplaysEnd
  refine ⟨fun s h st j p v job admitted _ other only due done sent => ?_, fun s h st j job other pending => ?_,
    fun s h j r job replaying replay begun back => ?_⟩
  · have effect : exec (.verdictFinal h st) s = .next { s with core := (s.start.closeVerdict h j st v).trySeal h } := by
      show runC (fun _ m c => verdictFinal h st (c.stepEnded m h st)) s = _
      rw [runC_start, Core.stepEnded_of_other (c := s.start) job other, verdictFinal_of_done (c := s.start) job other only due done sent]
    obtain ⟨⟨k, after, verdict⟩, record⟩ := Core.closeVerdict_trySeal (c := s.start) job admitted (Job.verdict_of_only only)
    refine ⟨_, k, effect, rfl, rfl, after, ?_⟩
    rw [verdict]
    refine ⟨rfl, rfl, le_max_left _ _, fun sound synced => ?_, record⟩
    have own : s.start.ownCause j = 0 := Core.ownCause_of_sound (c := s.start) sound synced j
    simp [Verdict.closed, own]
  · have effect : exec (.verdictFinal h st) s = .next { s with core := s.start } := by
      show runC (fun _ m c => verdictFinal h st (c.stepEnded m h st)) s = _
      rw [runC_start, Core.stepEnded_of_other (c := s.start) job other, verdictFinal_of_pending (c := s.start) job pending]
    exact ⟨_, effect, rfl, rfl, rfl⟩
  · obtain ⟨k, after, same⟩ := replayEnd_job (m := startMach s) job replaying replay begun back
    obtain ⟨t, run, core, -, pwr, -⟩ := runM_of_eq (f := replayEnd h) (s := s) rfl
    exact ⟨t, k.replayed r.endCycle, run, pwr, core ▸ after, rfl, rfl, rfl, le_max_right _ _, (congrArg Job.step same :), (congrArg Job.beat same :)⟩

end Sys2Proof.Machine
end

section
/-!
Notices that name a rollback, and the loss of the mirror partner (10 R361, R369, R371; 12 R420; 14 R485): what a failure notice leaves of a job, and what each
notice names; then O41.
-/

namespace Sys2Proof.Machine

/-! ### Jobs under failed snapshots and aborts -/

/-- A job without what a failed snapshot and an abort change of it: its write-hold and its verdicts (09 R332, 11 R386). -/
def Job.standing (j : Job) : Job := { j with writeHold := false, verdicts := [] }

/-- The jobs without what failed snapshots and aborts change of them. -/
def Core.standings (c : Core) : List Job := c.jobs.map Job.standing

theorem Core.standings_congr {c d : Core} (jobs : d.jobs = c.jobs) : d.standings = c.standings := congrArg (List.map Job.standing) jobs

theorem Core.standings_modJob {g : Job → Job} (stands : ∀ j, (g j).standing = j.standing) (c : Core) (h : Nat) : (c.modJob h g).standings = c.standings :=
  Core.map_modJob stands c h

theorem Core.unsolicited_jobs (t status : Nat) (detail : List Byte) (c : Core) : (c.unsolicited t status detail).jobs = c.jobs := by
  unfold Core.unsolicited
  split
  · exact Core.cqWrite_jobs ..
  · rfl

theorem Core.standings_snapFree (h : Nat) (n : BitVec 32) (c : Core) : (c.snapFree h n).standings = c.standings :=
  Core.standings_modJob (by exact fun _ => rfl) _ h

theorem Core.standings_snapMemberFailed (h : Nat) (c : Core) : (c.snapMemberFailed h).standings = c.standings := by
  refine foldl_leaves Core.standings (fun c s => ?_) _ c
  split
  · exact (Core.standings_congr (Core.unsolicited_jobs ..)).trans (Core.standings_snapFree h s.seq _)
  · exact Core.standings_snapFree ..

theorem Core.standings_actAbort (p : Plan) (k : Cid) (cause : Nat) (c : Core) : (c.actAbort p k cause).standings = c.standings := by
  unfold Core.actAbort
  split
  · rfl
  · exact (Core.standings_modJob (g := Job.faulted k.step) (fun _ => rfl) _ p.handle).trans (Core.standings_congr (Core.logRec_jobs _ c))

theorem Core.standings_issueAbort (plan : Nat) (k : Cid) (cause : Nat) (c : Core) : (c.issueAbort plan k cause).standings = c.standings := by
  unfold Core.issueAbort
  split
  · split
    · rfl
    · rw [Core.standings_actAbort, Core.standings_congr (Core.jobs_congr (Core.unsent_floodAbort ..))]
      rfl
  · rfl

theorem Core.standings_abortLive (plan : Nat) (sel : Nat → Bool) (cause : Nat) (c : Core) : (c.abortLive plan sel cause).standings = c.standings := by
  unfold Core.abortLive
  exact foldl_leaves Core.standings (fun c r => Core.standings_issueAbort ..) _ c

/-! ### Rollbacks named -/

theorem Job.nameRollback_plan (edge : BitVec 64) (l : StepNo) (j : Job) : (j.nameRollback edge l).plan = j.plan := by
  unfold Job.nameRollback
  split
  · split <;> rfl
  · rfl

theorem Job.nameRollback_of_none {j : Job} (none : j.rollback = none) (edge : BitVec 64) (l : StepNo) :
    j.nameRollback edge l = { j with rollback := some (edge, l) } := by
  simp only [Job.nameRollback, none]

/-- A rollback already named gives way to one for an earlier seal (R361). -/
theorem Job.nameRollback_of_some {j : Job} {e : BitVec 64} {q : StepNo} (named : j.rollback = some (e, q)) (edge : BitVec 64) (l : StepNo) :
    j.nameRollback edge l = if stepLater q l then { j with rollback := some (edge, l) } else j := by
  cases j
  simp_all only [Job.nameRollback]

/-- A failure notice names a rollback to the last mirrored step; the snapshots and collectives it ends change no more of the job than `Job.standing` leaves out
(R371). -/
theorem Core.failureNotice_job {c : Core} {h : Nat} {j : Job} (job : c.job? h = some j) (lost : Nat) (edge : BitVec 64) :
    ∃ k, (c.failureNotice h lost edge).job? h = some k ∧ k.standing = (j.nameRollback edge j.lastMirrored).standing := by
  have named := Core.job?_modJob_self job (f := fun j => j.nameRollback edge j.lastMirrored) fun j => j.nameRollback_plan edge j.lastMirrored
  refine Core.job?_of_map (f := Job.standing) (fun _ => rfl) (c := c.modJob h fun j => j.nameRollback edge j.lastMirrored) ?_ named
  unfold Core.failureNotice
  dsimp only
  split
  · exact (Core.standings_abortLive ..).trans (Core.standings_snapMemberFailed ..)
  · exact Core.standings_snapMemberFailed ..

theorem exec_failureNoticeReceived {s : State} {h lost : Nat} {p : Plan} (admitted : s.core.plan? h = some p) (member : lost < p.hdr.modCount)
    (edge : BitVec 64) : exec (.failureNoticeReceived h lost edge) s = .next { s with core := s.start.failureNotice h lost edge } := by
  have admitted' : s.start.plan? h = some p := admitted
  show execFailureNoticeReceived h lost edge s = _
  simp only [execFailureNoticeReceived, runC_start, admitted', member, decide_true, if_true]

/-! ### The slice map and the partner -/

/-- A change of a slice map kept for its edge. -/
def Core.keepRemap (r : Nat × Nat × Nat × BitVec 64) (c : Core) : Core := c.modLed fun l => { l with remaps := l.remaps ++ [r] }

/-- On a module that does not join the job, a remap notice is kept for its edge (R371 step 4). -/
theorem Mach.remapNotice_of_slice {m : Mach} {h : Nat} {p : Plan} {sl : Slice} (admitted : m.core.plan? h = some p) (slice : m.core.sliceFor p = some sl)
    (lm phys : Nat) (edge : BitVec 64) : m.remapNotice h lm phys edge none = m.up (Core.keepRemap (sl.id, lm, phys, edge)) := by
  simp only [Mach.remapNotice, admitted, slice]
  rfl

/-- A module without a partner loses none (R369). -/
theorem partnerLost_of_alone {m : Mach} (alone : m.core.led.alone = true) (warm : Option Nat) : partnerLost warm m = m := by
  simp only [partnerLost, alone, if_true]

/-- The loss of the partner leaves a module without one, whatever notices go out and whichever jobs stop (R369, R371, R374). -/
theorem tether_partnerLost {m : Mach} (partner : m.core.led.alone = false) : (partnerLost none m).core.tether = (0, true, m.core.expects) := by
  simp only [partnerLost, partner, Bool.false_eq_true, if_false]
  refine (Mach.tether_foldl (fun m h => Core.tether_fallback ..) _ _).trans ?_
  refine (Mach.tether_foldl (fun m h => ?_) _ _).trans m.tether_loseMirror
  simp

/-- Settles O41: `Core.failureNotice_job` for a failure notice, `Job.nameRollback_of_none` and `Job.nameRollback_of_some` for the other two,
`Mach.remapNotice_of_slice`, and `partnerLost_of_alone` and `tether_partnerLost` for the partner. -/
theorem noticesNameRollbacks : Obligations.NoticesNameRollbacks := by
  unfold Obligations.NoticesNameRollbacks
  intro s h j job
  have job' : s.start.job? h = some j := job
  refine ⟨fun p lost edge admitted member unnamed => ?_, fun l edge => ?_, fun unnamed => ?_, fun p sl lm phys edge admitted slice => ?_, fun warm alone => ?_,
    fun partner => ?_⟩
  · obtain ⟨k, after, stands⟩ := Core.failureNotice_job job' lost edge
    rw [Job.nameRollback_of_none unnamed] at stands
    exact ⟨_, k, exec_failureNoticeReceived admitted member edge, rfl, rfl, after, (congrArg Job.rollback stands :), (congrArg Job.step stands :),
      (congrArg Job.lastSealed stands :), (congrArg Job.phase stands :)⟩
  · refine ⟨_, _, rfl, rfl, rfl, Core.job?_modJob_self job' (Job.nameRollback_plan edge l), fun unnamed => Job.nameRollback_of_none unnamed edge l,
      fun e q named same => ?_, fun e q named earlier => ?_⟩
    · rw [Job.nameRollback_of_some named, if_neg (by simp [same])]
    · rw [Job.nameRollback_of_some named, if_pos earlier]
  · refine ⟨_, _, rfl, rfl, rfl, Core.job?_modJob_self job' fun k => Job.nameRollback_plan .., ?_⟩
    exact Job.nameRollback_of_none (j := { j with abort := true }) unnamed _ _
  · exact ⟨_, runM_up (Mach.remapNotice_of_slice (m := startMach s) admitted slice lm phys edge), rfl, rfl, rfl, rfl, rfl⟩
  · obtain ⟨t, run, core, mem, pwr, -⟩ := runM_of_eq (s := s) (partnerLost_of_alone (m := startMach s) alone warm)
    exact ⟨t, run, mem, pwr, core⟩
  · obtain ⟨t, run, core, -, pwr, -⟩ := runM_of_eq (f := partnerLost none) (s := s) rfl
    have tether := tether_partnerLost (m := startMach s) partner
    rw [← core] at tether
    exact ⟨t, run, pwr, congrArg Prod.fst tether, congrArg (fun x => x.2.1) tether⟩

end Sys2Proof.Machine
end

section
/-!
Ballast admission (10 R369 to R374): a ballast module claimed and checked, what its twin does at the end of the check and of the stream, and the jobs that fall
back when no ballast position is left.
-/

namespace Sys2Proof.Machine

/-! ### The ballast module -/

/-- A configured ballast position without jobs, its ports up or off, that has passed a full run within a day is warm (R370). -/
theorem Core.warm_of_passed {c : Core} {x : BitVec 64} (loaded : c.fab.cfg.loaded = true) (ballast : c.fab.cfg.jobPos ≤ c.fab.cfg.position) (idle : c.jobs = [])
    (links : ∀ q ∈ c.fab.ports, q.st = .up ∨ q.st = .off) (passed : c.health.passedAt = some x) (recent : withinTicks c.clk.count x day = true) :
    c.warm = true := by
  have linked : (c.fab.ports.all fun p => p.st == .up || p.st == .off) = true := by simpa using links
  simp [Core.warm, loaded, ballast, idle, linked, passed, recent]

/-- A module that is not warm, or that has a check running, is not claimed (R370, R371). -/
theorem ballastClaim_of_unfit {c : Core} (unfit : c.warm = false ∨ c.led.entry.isSome = true) (twin : Nat) : ballastClaim twin c = c := by
  rw [ballastClaim, if_neg]
  rcases unfit with cold | checking
  · simp [cold]
  · simp [Option.isSome_iff_ne_none.1 checking]

/-- The ledger of a ballast module that a twin claims at a counter value (R371). -/
def Ledger.claimedBy (twin : Nat) (now : BitVec 64) (l : Ledger) : Ledger :=
  { l with entry := some now, entryPassed := false, claimed := twin, slots := [none, none], journal := [] }

theorem ballastClaim_of_warm {c : Core} (warm : c.warm = true) (free : c.led.entry = none) (twin : Nat) :
    ballastClaim twin c = c.modLed (Ledger.claimedBy twin c.clk.count) := by
  rw [ballastClaim, if_pos (by simp [warm, free])]
  rfl

/-- The result of a ballast module's own entry check goes to the twin that claimed it, and a pass is kept (R371). -/
def Core.reportCheck (pass : Bool) (c : Core) : Core :=
  (c.emit (.vc7 c.led.claimed 7 [boolNat pass])).modLed fun l => { l with entryPassed := pass, entry := if pass then l.entry else none }

theorem entryCheckDone_of_claimed {m : Mach} {e : BitVec 64} (ballast : m.core.led.rescue = none) (checking : m.core.led.entry = some e) (pass : Bool)
    (next : Option Nat) : entryCheckDone pass next m = m.up (Core.reportCheck pass) := by
  simp only [entryCheckDone, ballast, checking]
  rfl

/-! ### Jobs that fall back -/

/-- The job of a plan, where there is one, has stopped because no mirror can serve (R374). -/
def Core.Fallen (c : Core) (h : Nat) : Prop := ∀ k, c.job? h = some k → k.phase = .stoppedFallback

/-- A job that has fallen back: it is stopped, with no hold, post or replay left (R374). -/
def Job.fellBack (j : Job) : Job := { j with phase := .stoppedFallback, holds := [], posts := [], replay := none }

theorem Core.fallback_of_running {c : Core} {h : Nat} {j : Job} (job : c.job? h = some j) (running : j.phase ≠ .stoppedFallback) :
    c.fallback h = (c.logRec (jobRec j (modRec 0x607 2 3 0x28 0x0F 0))).modJob h Job.fellBack := by
  simp only [Core.fallback, job]
  rw [if_neg (by simpa using running)]
  rfl

theorem Core.fallback_of_fallen {c : Core} {h : Nat} (fallen : c.Fallen h) : c.fallback h = c := by
  unfold Core.fallback
  split
  · rfl
  next j job => rw [if_pos (by simp [fallen j job])]

/-- A job falls back, and every other job that has fallen back stays so. -/
theorem Core.fallen_fallback (h g : Nat) (c : Core) (fallen : g = h ∨ c.Fallen g) : (c.fallback h).Fallen g := by
  by_cases done : c.Fallen h
  · rw [Core.fallback_of_fallen done]
    rcases fallen with rfl | fallen
    · exact done
    · exact fallen
  · obtain ⟨j, job, running⟩ : ∃ j, c.job? h = some j ∧ j.phase ≠ .stoppedFallback := by simpa [Core.Fallen] using done
    intro k after
    rw [Core.fallback_of_running job running, Core.job?_modJob _ h g Job.fellBack fun _ => rfl, Core.job?_congr (Core.logRec_jobs _ c)] at after
    obtain ⟨i, before, rfl⟩ := Option.map_eq_some_iff.1 after
    by_cases own : g = h
    · simp [own, Job.fellBack]
    · simpa [own] using fallen.resolve_left own i before

/-- Jobs that fall back one after another. -/
def Core.fallbacks (hs : List Nat) (c : Core) : Core := hs.foldl (fun c h => c.fallback h) c

theorem Mach.up_fallbacks (hs : List Nat) (m : Mach) : hs.foldl (fun m h => m.up (Core.fallback h)) m = m.up (Core.fallbacks hs) := by
  induction hs generalizing m with
  | nil => rfl
  | cons h rest ih => exact ih _

theorem Core.led_fallbacks (hs : List Nat) (c : Core) : (c.fallbacks hs).led = c.led := foldl_leaves Core.led (fun c h => (c.fallback_frame h).1) hs c

theorem Core.fallen_fallbacks (hs : List Nat) (c : Core) {g : Nat} (fallen : g ∈ hs ∨ c.Fallen g) : (c.fallbacks hs).Fallen g := by
  induction hs generalizing c with
  | nil => exact fallen.resolve_left List.not_mem_nil
  | cons h rest ih =>
    refine ih _ ?_
    rcases fallen with mem | before
    · rcases List.mem_cons.1 mem with rfl | later
      · exact .inr (c.fallen_fallback g g (.inl rfl))
      · exact .inl later
    · exact .inr (c.fallen_fallback h g (.inr before))

/-! ### The twin -/

/-- The ledger of a twin whose admission has come to an end without a partner (R374). -/
def Ledger.giveUp (l : Ledger) : Ledger := { l with rescue := none, mode := 0, outXfer := l.outXfer.filter fun o => o.stream != 2 }

section
variable {m : Mach} {r : Rescue} (twin : m.core.led.rescue = some r)
include twin

/-- A pass before the stream is done is kept, and the admission goes on (R371). -/
theorem entryCheckDone_of_unstreamed (unstreamed : r.streamed = false) (next : Option Nat) :
    entryCheckDone true next m = m.up (Core.modLed fun l => { l with rescue := some { r with passed := true } }) := by
  simp [entryCheckDone, twin, Mach.rescueReady, Core.modLed, unstreamed]

/-- A failure with no other warm position ends the admission and stops its jobs (R374). -/
theorem entryCheckDone_of_failed : entryCheckDone false none m = m.up fun c => (c.modLed Ledger.giveUp).fallbacks r.plans := by
  simp only [entryCheckDone, twin, Mach.up_fallbacks, Bool.false_eq_true, if_false]
  rfl

theorem streamDone_of_unacked (unacked : (m.core.led.outXfer.any fun o => o.stream == 2) = true) : streamDone m = m := by
  simp only [streamDone, twin, unacked, if_true]

theorem streamDone_of_acked (acked : (m.core.led.outXfer.any fun o => o.stream == 2) = false) :
    streamDone m = (m.up (Core.modLed fun l => { l with rescue := some { r with streamed := true } })).rescueReady := by
  simp only [streamDone, twin, acked, Bool.false_eq_true, if_false]

end

/-- `m'` is `m` after no more to the ledger than changes of slice maps kept for their edges, and no write. -/
def Mach.Remapped (m m' : Mach) : Prop := m'.wr = m.wr ∧ ∃ rs, m'.core.led = { m.core.led with remaps := m.core.led.remaps ++ rs }

theorem Mach.Remapped.trans {a b c : Mach} (first : a.Remapped b) (second : b.Remapped c) : a.Remapped c := by
  obtain ⟨wr, rs, led⟩ := first
  obtain ⟨wr', rs', led'⟩ := second
  exact ⟨wr'.trans wr, rs ++ rs', by rw [led', led, List.append_assoc]⟩

theorem Mach.remapped_refl (m : Mach) : m.Remapped m := ⟨rfl, [], by rw [List.append_nil]⟩

theorem Mach.remapped_remapNotice (h lm phys : Nat) (edge : BitVec 64) (m : Mach) : m.Remapped (m.remapNotice h lm phys edge none) := by
  unfold Mach.remapNotice
  split
  · exact m.remapped_refl
  · split
    · exact m.remapped_refl
    · exact ⟨rfl, _, rfl⟩

theorem Mach.remapped_foldl {α : Type} {f : Mach → α → Mach} (remaps : ∀ m a, Mach.Remapped m (f m a)) (l : List α) (m : Mach) :
    m.Remapped (l.foldl f m) := by
  induction l generalizing m with
  | nil => exact m.remapped_refl
  | cons a rest ih => exact (remaps m a).trans (ih _)

/-- The ledger of a twin whose ballast module has become its partner (R371 step 4, R372). -/
def Ledger.joined (l : Ledger) : Ledger := { l with rescue := none, mode := 2, lost := false, mirrorValid := false, slots := [none, none], journal := [] }

/-- Once the check has passed and the stream is done, remap notices go out and the ballast module is the partner (R371, R372). -/
theorem Mach.rescueReady_of_both {m : Mach} {r : Rescue} (twin : m.core.led.rescue = some r) (passed : r.passed = true) (streamed : r.streamed = true) :
    ∃ m', m.Remapped m' ∧ m.rescueReady = m'.up (Core.modLed Ledger.joined) := by
  simp only [Mach.rescueReady, twin, passed, streamed, Bool.and_self, if_true]
  refine ⟨_, Mach.remapped_foldl (fun m h => ?_) _ m, rfl⟩
  exact Mach.remapped_remapNotice _ _ _ _ (m.up (Core.emit _))

theorem Mach.rescueReady_of_unpassed {m : Mach} {r : Rescue} (twin : m.core.led.rescue = some r) (unpassed : r.passed = false) : m.rescueReady = m := by
  simp only [Mach.rescueReady, twin, unpassed, Bool.false_and, Bool.false_eq_true, if_false]

end Sys2Proof.Machine
end

section
/-!
MIRROR frames as the partner takes them (10 R368): whatever a frame brings, its port has taken its number; and a data frame of a transfer being received
writes its bytes at its chunk's place and nowhere else. Then O42.
-/

namespace Sys2Proof.Machine

/-! ### What a frame leaves of the ports -/

theorem Core.tether_wrote (k n : Nat) (c : Core) : (c.wrote k n).tether = c.tether := by
  unfold Core.wrote
  dsimp only
  split <;> exact foldl_leaves Core.tether (by exact fun _ _ => rfl) _ c

theorem Core.tether_modLed {f : Ledger → Ledger} (leaves : ∀ l, (f l).mode = l.mode ∧ (f l).lost = l.lost) (c : Core) :
    (c.modLed f).tether = c.tether := by
  obtain ⟨mode, lost⟩ := leaves c.led
  exact Prod.ext mode (Prod.ext lost rfl)

theorem Core.tether_mirrorFrames (fs : List Frame) (c : Core) : (fs.foldl (fun c f => c.sendFrame f) c).tether = c.tether :=
  foldl_leaves Core.tether (fun c f => c.tether_sendFrame f) fs c

theorem Core.tether_mirrorSend (stream entry : Nat) (step : StepNo) (off : Nat) (data : List Byte) (c : Core) :
    (c.mirrorSend stream entry step off data).tether = c.tether := by
  unfold Core.mirrorSend
  refine foldl_leaves Core.tether (fun c f => ?_) _ c
  unfold Core.toPartner
  split
  · exact c.tether_sendOn _ f
  · split
    · rfl
    · exact c.tether_sendFrame f

theorem Mach.tether_resend (o : MirrorOut) (m : Mach) : (m.resend o).core.tether = m.core.tether := by
  unfold Mach.resend
  split
  · exact Core.tether_mirrorSend ..
  · split
    · split
      · simp only [Mach.up_core, Core.tether_mirrorFrames]
      · rfl
    · split
      · split
        · exact Core.tether_mirrorSend ..
        · rfl
      · rfl

theorem Mach.tether_mirrorAcked (h : Nat) (s : StepNo) (m : Mach) : (m.mirrorAcked h s).core.tether = m.core.tether := by
  unfold Mach.mirrorAcked
  split
  · rfl
  · dsimp only
    split
    · exact Core.tether_restoreDone ..
    · split
      · split
        · exact Mach.tether_mirrorVoted ..
        · rfl
      · rfl

theorem Core.tether_mirrorOpen (port stream : Nat) (b : List Byte) (c : Core) : (mirrorOpen port stream b c).tether = c.tether := by
  unfold mirrorOpen
  dsimp only
  split
  · exact Core.tether_modLed (fun _ => ⟨rfl, rfl⟩) c
  · exact (Core.tether_modLed (fun _ => ⟨rfl, rfl⟩) _).trans (Core.tether_modLed (fun _ => ⟨rfl, rfl⟩) c)

theorem Mach.tether_mirrorData (port stream chunk : Nat) (b : List Byte) (m : Mach) : (mirrorData port stream chunk b m).core.tether = m.core.tether := by
  unfold mirrorData
  split
  · rfl
  · exact (Core.tether_modLed (by exact fun _ => ⟨rfl, rfl⟩) _).trans (Core.tether_wrote ..)

theorem Core.tether_answer (port : Nat) (f : Frame) (c : Core) : (if 14 ≤ port then c.sendOn port f else c.sendFrame f).tether = c.tether := by
  split
  · exact c.tether_sendOn port f
  · exact c.tether_sendFrame f

theorem Mach.tether_mirrorClose (port : Nat) (f : Frame) (m : Mach) : (mirrorClose port f m).core.tether = m.core.tether := by
  unfold mirrorClose
  dsimp only
  split
  · rfl
  · refine (Core.tether_answer port _ _).trans ?_
    split
    · exact Core.tether_modLed (by exact fun _ => ⟨rfl, rfl⟩) _
    · split
      · refine (Core.tether_modLed (fun l => ?_) _).trans (Core.tether_modLed (by exact fun _ => ⟨rfl, rfl⟩) _)
        split <;> exact ⟨rfl, rfl⟩
      · exact (Core.tether_modLed (by exact fun _ => ⟨rfl, rfl⟩) _).trans (Core.tether_modLed (by exact fun _ => ⟨rfl, rfl⟩) _)

theorem Mach.expects_mirrorAck (stream : Nat) (b : List Byte) (m : Mach) : (mirrorAck stream b m).core.expects = m.core.expects := by
  unfold mirrorAck
  dsimp only
  split
  · rfl
  · split
    · split
      · rfl
      · exact Core.expects_of_tether (Mach.tether_mirrorAcked ..)
    · split
      · split
        · split
          · exact Core.expects_of_tether (Mach.tether_foldl (fun m h => Core.tether_fallback ..) _ _)
          · rfl
        · exact congrArg (fun x => x.2.2) (Mach.tether_loseMirror _)
      · exact Core.expects_of_tether (Mach.tether_resend ..)

/-- A MIRROR frame taken leaves what the ports expect (R368). -/
theorem expects_takeMirror (port : Nat) (f : Frame) (m : Mach) : (takeMirror port f m).core.expects = m.core.expects := by
  unfold takeMirror
  dsimp only
  split
  · rfl
  · split
    · split
      · exact Core.expects_of_tether (Core.tether_mirrorOpen ..)
      · exact Core.expects_of_tether (Mach.tether_mirrorClose ..)
      · exact Mach.expects_mirrorAck ..
      · rfl
    · exact Core.expects_of_tether (Mach.tether_mirrorData ..)

/-- A frame of another stream than those of R368 changes nothing. -/
theorem takeMirror_of_other {f : Frame} (other : 2 < f.xid.toNat) (port : Nat) (m : Mach) : takeMirror port f m = m := if_pos other

/-! ### The port -/

/-- The expected frame is delivered to this module, or it is discarded or goes on, which leaves what the ports expect (08 R259, R261). -/
theorem Mach.arrive_next {m : Mach} {i : Nat} {g : Frame} (up : (m.core.port i).st = .up) (numbered : g.sequenced = true)
    (next : g.seq = (m.core.port i).expect) (deliver : Frame → Mach → Mach) :
    ∃ m', m.arrive i g deliver = m'.up (Core.settle i) ∧
      (m' = deliver { g with job := none } (m.up (Core.accept i g)) ∨
        ∃ k : Core → Core, (∀ c, (k c).tether = c.tether) ∧ m' = (m.up (Core.accept i g)).up k) := by
  have numbered' : Frame.sequenced { g with job := none } = true := numbered
  unfold Mach.arrive
  dsimp only
  rw [if_neg (by simp [up]), if_neg (by simp [numbered']), if_pos (by simp [next])]
  refine ⟨_, rfl, ?_⟩
  split
  · exact .inr ⟨_, Core.tether_logRec _, rfl⟩
  · split
    · exact .inl rfl
    · refine .inr ⟨fun c => (List.range 16).foldl (fun c j => c.pump j) (c.enqueue false { g with job := none }), fun c => ?_, rfl⟩
      rw [Core.tether_pumps, Core.tether_enqueue]

theorem Core.expect_accept {c : Core} {i : Nat} (here : i < c.fab.ports.length) (g : Frame) : ((c.accept i g).port i).expect = (c.port i).expect + 1 := by
  have there : i < (c.linkAck i g.ack).fab.ports.length := by rwa [Core.linkAck_eq, Core.length_ports_modPort]
  rw [Core.accept, Core.port_modPort_self there, Core.port_linkAck here]
  rfl

/-- The port of an expected MIRROR frame has taken its number (R261, R368). -/
theorem expect_mirrorReceived {m : Mach} {port : Nat} {f : Frame} (up : (m.core.port port).st = .up) (here : port < m.core.fab.ports.length)
    (next : f.seq = (m.core.port port).expect) :
    ((m.arrive port { f with typ := 0xB } (takeMirror port)).core.port port).expect = (m.core.port port).expect + 1 := by
  obtain ⟨m', arrived, cases⟩ := Mach.arrive_next (g := { f with typ := 0xB }) up rfl next (takeMirror port)
  have accepted : m'.core.expects = (m.core.accept port { f with typ := 0xB }).expects := by
    rcases cases with rfl | ⟨k, leaves, rfl⟩
    · exact expects_takeMirror ..
    · exact Core.expects_of_tether (leaves _)
  have settled : (m'.up (Core.settle port)).core.expects = m'.core.expects := Core.expects_of_tether (Core.tether_of_sends (Core.unsent_settle ..))
  rw [arrived, Core.expect_eq, settled, accepted, ← Core.expect_eq, Core.expect_accept here]

/-- A MIRROR frame of no stream of R368 writes nothing. -/
theorem wr_mirrorReceived_of_other {m : Mach} {port : Nat} {f : Frame} (up : (m.core.port port).st = .up) (next : f.seq = (m.core.port port).expect)
    (other : 2 < f.xid.toNat) : (m.arrive port { f with typ := 0xB } (takeMirror port)).wr = m.wr := by
  obtain ⟨m', arrived, cases⟩ := Mach.arrive_next (g := { f with typ := 0xB }) up rfl next (takeMirror port)
  rw [arrived, Mach.up_wr]
  rcases cases with rfl | ⟨k, -, rfl⟩
  · exact (congrArg Mach.wr (takeMirror_of_other (by exact other) port _)).trans (Mach.up_wr ..)
  · rfl

/-! ### Data frames -/

theorem wr_mirrorData {m : Mach} {port stream chunk : Nat} {x : MirrorIn}
    (receiving : m.core.led.inXfer.find? (fun x => x.port == port && x.stream == stream) = some x) (b : List Byte) :
    ∃ u n, (mirrorData port stream chunk b m).wr =
      .poison u n false :: .bytes (m.core.mirrorKey (x.start + chunk * 512)) (b.take (min 512 (x.bytes - chunk * 512))) :: m.wr := by
  simp only [mirrorData, receiving]
  exact ⟨_, _, rfl⟩

/-- The data frame of a transfer being received is written at its chunk's place (R368). -/
theorem wr_mirrorReceived_of_data {m : Mach} {port : Nat} {f : Frame} {x : MirrorIn} (up : (m.core.port port).st = .up)
    (next : f.seq = (m.core.port port).expect) (vc : f.vc = 4) (own : f.dst.toNat = m.core.fab.cfg.own) (stream : f.xid.toNat ≤ 2)
    (full : f.payload.length = 512) (receiving : m.core.led.inXfer.find? (fun x => x.port == port && x.stream == f.xid.toNat) = some x) :
    ∃ u n, (m.arrive port { f with typ := 0xB } (takeMirror port)).wr =
      .poison u n false :: .bytes (m.core.mirrorKey (x.start + f.chunk.toNat * 512)) (f.payload.take (min 512 (x.bytes - f.chunk.toNat * 512))) :: m.wr := by
  have valid : vcAllows (BitVec.toNat 0xB#4) f.vc.toNat = true := by
    rw [vc]
    decide
  have long : Frame.len { f with typ := 0xB, job := none } ≠ 1 := by
    simp [Frame.len, full, ceilDiv]
  obtain ⟨ps, accepted⟩ := m.core.accept_eq port { f with typ := 0xB }
  rw [Mach.arrive_taken (g := { f with typ := 0xB }) up rfl next valid own, Mach.up_wr, takeMirror]
  dsimp only
  rw [if_neg (Nat.not_lt.2 stream), if_neg long]
  have receiving' : (m.up (Core.accept port { f with typ := 0xB })).core.led.inXfer.find? (fun x => x.port == port && x.stream == f.xid.toNat) = some x := by
    rw [Mach.up_core, accepted]
    exact receiving
  obtain ⟨u, n, wr⟩ := wr_mirrorData (chunk := f.chunk.toNat) receiving' f.payload
  refine ⟨u, n, wr.trans ?_⟩
  rw [Mach.up_core, accepted]
  rfl

/-- What memory holds after bytes are written as whole clean units. -/
theorem memByte_stored (mem : Mem) (u n k a : Nat) (bs : List Byte) :
    memByte (applyWrs mem [Wr.poison u n false, .bytes k bs].reverse) a = if k ≤ a ∧ a < k + bs.length then bs.getD (a - k) 0 else memByte mem a :=
  (memByte_poison _ u n a false).trans (memByte_bytes mem k a bs)

/-! ### O42 -/

/-- Settles O42: the lemmas of a ballast module for its claim and its check, those of its twin for the result and the stream, and `expect_mirrorReceived`,
`wr_mirrorReceived_of_other` and `wr_mirrorReceived_of_data` for a MIRROR frame. -/
theorem ballastModulesAreClaimedCheckedAndStreamedTo : Obligations.BallastModulesAreClaimedCheckedAndStreamedTo := by
  unfold Obligations.BallastModulesAreClaimedCheckedAndStreamedTo
  intro s
  refine ⟨fun twin unfit => ?_, fun twin x loaded ballast idle links passed recent free => ?_, fun pass next e ballast checking => ?_,
    fun next r twin unstreamed => ?_, fun r twin => ?_, fun r twin unacked => ?_, fun r twin acked unpassed => ?_, fun r twin acked passed => ?_,
    fun port f up here next => ?_⟩
  · exact ⟨_, rfl, rfl, rfl, ballastClaim_of_unfit (c := s.start) unfit twin⟩
  · have warm : s.start.warm = true := Core.warm_of_passed (c := s.start) loaded ballast idle links passed recent
    have claimed := congrArg Core.led (ballastClaim_of_warm warm free twin)
    exact ⟨_, rfl, rfl, rfl, congrArg Ledger.entry claimed, congrArg Ledger.claimed claimed, congrArg Ledger.entryPassed claimed⟩
  · refine ⟨_, runM_up (entryCheckDone_of_claimed (m := startMach s) ballast checking pass next), rfl, rfl, rfl, rfl, ?_⟩
    exact congrArg (if pass then · else none) checking
  · exact ⟨_, runM_up (entryCheckDone_of_unstreamed (m := startMach s) twin unstreamed next), rfl, rfl, rfl⟩
  · refine ⟨_, runM_up (entryCheckDone_of_failed (m := startMach s) twin), rfl, rfl, ?_, ?_, fun h mem => ?_⟩
    · exact congrArg Ledger.rescue (Core.led_fallbacks r.plans _)
    · exact congrArg Ledger.mode (Core.led_fallbacks r.plans _)
    · exact Core.fallen_fallbacks r.plans _ (.inl mem)
  · obtain ⟨t, run, core, mem, pwr, -⟩ := runM_of_eq (s := s) (streamDone_of_unacked (m := startMach s) twin unacked)
    exact ⟨t, run, mem, pwr, core⟩
  · refine ⟨_, runM_up ((streamDone_of_acked (m := startMach s) twin acked).trans (Mach.rescueReady_of_unpassed rfl ?_)), rfl, rfl, rfl⟩
    exact unpassed
  · obtain ⟨m, ⟨wr, rs, led⟩, joined⟩ := Mach.rescueReady_of_both (r := { r with streamed := true })
      (m := (startMach s).up (Core.modLed fun l => { l with rescue := some { r with streamed := true } })) rfl passed rfl
    obtain ⟨t, run, core, mem, pwr, -⟩ := runM_of_eq (s := s) ((streamDone_of_acked (m := startMach s) twin acked).trans joined)
    rw [Mach.up_wr, wr] at mem
    rw [Mach.up_core] at core
    refine ⟨t, run, mem, pwr, ?_, ?_, ?_, fun e kept => ?_⟩ <;> simp only [core, Core.modLed, Ledger.joined, led]
    · rfl
    · exact List.mem_append_left _ kept
  · obtain ⟨t, run, core, mem, pwr, -⟩ := runM_of_eq (f := Mach.arrive port { f with typ := 0xB } (takeMirror port)) (s := s) rfl
    refine ⟨t, run, pwr, ?_, fun other => ?_, fun x vc own stream full receiving => ?_⟩
    · rw [core]
      exact expect_mirrorReceived (m := startMach s) up here next
    · rw [mem, wr_mirrorReceived_of_other (m := startMach s) up next other]
      rfl
    · obtain ⟨u, n, wr⟩ := wr_mirrorReceived_of_data (m := startMach s) up next vc own stream full receiving
      have len : (f.payload.take (min 512 (x.bytes - f.chunk.toNat * 512))).length = min 512 (x.bytes - f.chunk.toNat * 512) := by
        rw [List.length_take, full]
        omega
      have stored : t.mem = applyWrs s.mem [Wr.poison u n false, .bytes (s.core.mirrorKey (x.start + f.chunk.toNat * 512))
          (f.payload.take (min 512 (x.bytes - f.chunk.toNat * 512)))].reverse := by
        rw [mem, wr]
        rfl
      dsimp only
      refine ⟨fun i inside => ?_, fun a outside => ?_⟩
      · rw [stored, memByte_stored, len, if_pos (by omega), Nat.add_sub_cancel_left, List.getD_eq_getElem?_getD,
          List.getElem?_take_of_lt inside, List.getD_eq_getElem?_getD]
      · rw [stored, memByte_stored, len, if_neg outside]

end Sys2Proof.Machine
end

section
/-!
Command packets and their replies (13 R450 to R456): what a reply changes, and what a command packet without STAGE comes to once it is evaluated.
-/

namespace Sys2Proof.Machine

/-! ### Lists by key -/

theorem lookup?_filter_key {α β : Type} [BEq α] [LawfulBEq α] {p : α → Bool} {k : α} (keeps : p k = true) (l : List (α × β)) :
    lookup? k (l.filter fun e => p e.1) = lookup? k l := by
  induction l with
  | nil => rfl
  | cons e rest ih =>
    obtain ⟨k', v⟩ := e
    by_cases same : k' = k
    · subst same
      simp [lookup?, keeps]
    · cases kept : p k' <;> simp [lookup?, kept, same, ih]

/-! ### What a reply changes of the tenants -/

theorem Core.ten_modTen_self (c : Core) (t : Nat) (f : Ten → Ten) : (c.modTen t f).ten t = f (c.ten t) := by
  rw [Core.ten, Core.modTen_tens, lookup?_insertKey_self]
  rfl

theorem Core.ten_modTen_of_ne (c : Core) {t x : Nat} (ne : x ≠ t) (f : Ten → Ten) : (c.modTen t f).ten x = c.ten x := by
  rw [Core.ten, Core.modTen_tens, lookup?_insertKey_of_ne _ _ ne.symm]
  rfl

theorem Core.ten_congr {c d : Core} (tens : d.tens = c.tens) (t : Nat) : d.ten t = c.ten t := by rw [Core.ten, tens, Core.ten]

/-- `d` has the tenants of `c` but for one completion queue of tenant `t` and its admin pair (13 R450, R471). -/
structure Core.RepliesTo (t cq : Nat) (c d : Core) : Prop where
  others : ∀ x, x ≠ t → d.ten x = c.ten x
  own : ∃ qs live, d.ten t = { c.ten t with queues := qs, adminLive := live } ∧ ∀ n, n ≠ cq → 2 ≤ n → lookup? n qs = lookup? n (c.ten t).queues

theorem Core.RepliesTo.refl (t cq : Nat) (c : Core) : c.RepliesTo t cq c := ⟨fun _ _ => rfl, (c.ten t).queues, (c.ten t).adminLive, rfl, fun _ _ _ => rfl⟩

theorem Core.RepliesTo.trans {t cq : Nat} {c d e : Core} (first : c.RepliesTo t cq d) (second : d.RepliesTo t cq e) : c.RepliesTo t cq e := by
  obtain ⟨qs, live, ten, rest⟩ := first.own
  obtain ⟨qs', live', ten', rest'⟩ := second.own
  refine ⟨fun x ne => (second.others x ne).trans (first.others x ne), qs', live', by rw [ten', ten], fun n ne ge => ?_⟩
  rw [rest' n ne ge, ten]
  exact rest n ne ge

theorem Core.RepliesTo.of_tens {t cq : Nat} {c d : Core} (tens : d.tens = c.tens) : c.RepliesTo t cq d :=
  ⟨fun x _ => Core.ten_congr tens x, (c.ten t).queues, (c.ten t).adminLive, Core.ten_congr tens t, fun _ _ _ => rfl⟩

theorem Core.RepliesTo.modTen {t cq : Nat} {f : Ten → Ten} {qs : List (Nat × Queue)} {live : Bool} (c : Core)
    (writes : f (c.ten t) = { c.ten t with queues := qs, adminLive := live }) (rest : ∀ n, n ≠ cq → 2 ≤ n → lookup? n qs = lookup? n (c.ten t).queues) :
    c.RepliesTo t cq (c.modTen t f) :=
  ⟨fun _ ne => c.ten_modTen_of_ne ne f, qs, live, (c.ten_modTen_self t f).trans writes, rest⟩

theorem Core.repliesTo_cqWrite (t cq : Nat) (bytes : List Byte) (c : Core) : c.RepliesTo t cq (c.cqWrite t cq bytes) := by
  unfold Core.cqWrite
  split
  · exact .refl t cq c
  · split
    · exact .refl t cq c
    · have queued : ∀ q, c.RepliesTo t cq (c.modTen t fun x => { x with queues := insertKey cq q x.queues }) := fun q =>
        .modTen c rfl fun n ne _ => lookup?_insertKey_of_ne _ _ ne.symm
      dsimp only
      split
      all_goals exact (queued _).trans (.of_tens rfl)

theorem Core.adminSettle_frame (t : Nat) (c : Core) : ∃ ts, c.adminSettle t = { c with tens := ts } := by
  unfold Core.adminSettle
  split
  · exact ⟨_, rfl⟩
  · exact ⟨c.tens, rfl⟩

theorem Core.repliesTo_adminSettle (t cq : Nat) (c : Core) : c.RepliesTo t cq (c.adminSettle t) := by
  unfold Core.adminSettle
  split
  · exact .modTen c (f := fun x => { x with adminLive := false, queues := x.queues.filter fun q => decide (2 ≤ q.1) }) rfl fun n _ ge =>
      lookup?_filter_key (p := fun k => decide (2 ≤ k)) (decide_eq_true ge) _
  · exact .refl t cq c

/-! ### What a completion entry sends -/

theorem Core.out_cqWrite (t qn : Nat) (bytes : List Byte) (c : Core) : ∃ os, (c.cqWrite t qn bytes).out = c.out ++ os := by
  unfold Core.cqWrite
  split
  · exact ⟨[], (List.append_nil _).symm⟩
  · dsimp only
    split
    · exact ⟨[], (List.append_nil _).symm⟩
    · split <;> simp only [Core.emit_out, Core.modTen_out, List.append_assoc, List.append_cancel_left_eq, exists_eq']

/-- Whether a completion queue is there and not in error (13 R450, R453). -/
def Core.open? (c : Core) (t cq : Nat) : Bool := (lookup? cq (c.ten t).queues).any fun q => !q.err

theorem Core.open?_iff {c : Core} {t cq : Nat} : c.open? t cq = true ↔ ∃ q, lookup? cq (c.ten t).queues = some q ∧ q.err = false := by
  cases found : lookup? cq (c.ten t).queues <;> simp [Core.open?, found]

theorem Core.open?_congr {c d : Core} {t : Nat} (queues : (d.ten t).queues = (c.ten t).queues) (cq : Nat) : d.open? t cq = c.open? t cq := by
  rw [Core.open?, queues, Core.open?]

/-- A queue that is there and not in error takes the entry (13 R449). -/
theorem Core.mem_out_cqWrite {t cq : Nat} {c : Core} (opened : c.open? t cq = true) (bytes : List Byte) :
    ∃ k, Out.cqEntry (BitVec.ofNat 8 t) cq k bytes ∈ (c.cqWrite t cq bytes).out := by
  obtain ⟨q, found, sound⟩ := Core.open?_iff.1 opened
  refine ⟨q.tail, ?_⟩
  simp only [Core.cqWrite, found, sound, Bool.false_eq_true, if_false]
  split <;> simp

/-- An entry puts no queue in error. -/
theorem Core.open?_cqWrite {t cq : Nat} {c : Core} (opened : c.open? t cq = true) (t' qn : Nat) (bytes : List Byte) :
    (c.cqWrite t' qn bytes).open? t cq = true := by
  obtain ⟨q, found, sound⟩ := Core.open?_iff.1 opened
  have written : ∀ (q' : Queue), q'.err = false → (c.modTen t' fun x => { x with queues := insertKey qn q' x.queues }).open? t cq = true := fun q' ok => by
    rw [Core.open?_iff]
    by_cases tenant : t = t'
    · subst tenant
      rw [Core.ten_modTen_self]
      by_cases queue : qn = cq
      · subst queue
        exact ⟨q', lookup?_insertKey_self .., ok⟩
      · exact ⟨q, (lookup?_insertKey_of_ne _ _ queue).trans found, sound⟩
    · rw [Core.ten_modTen_of_ne c tenant]
      exact ⟨q, found, sound⟩
  unfold Core.cqWrite
  split
  · exact opened
  · split
    · exact opened
    · next ok =>
      dsimp only
      split
      all_goals exact (Core.open?_congr rfl cq).trans (written _ (by split <;> simpa using ok))

theorem Core.open?_unsolicited {t cq : Nat} {c : Core} (opened : c.open? t cq = true) (t' status : Nat) (detail : List Byte) :
    (c.unsolicited t' status detail).open? t cq = true := by
  unfold Core.unsolicited
  split
  · exact Core.open?_cqWrite opened ..
  · rw [Core.open?_congr (d := c.modTen t' _) (c := c) ?_ cq]
    · exact opened
    · by_cases tenant : t = t'
      · subst tenant
        rw [Core.ten_modTen_self]
        dsimp only
        split <;> rfl
      · rw [Core.ten_modTen_of_ne c tenant]

/-! ### Replies -/

/-- A completion queue with one slot less reserved (13 R450). -/
def Queue.unreserve (q : Queue) : Queue := { q with reserved := q.reserved - 1 }

/-- The core with an accepted command taken off the list and its slot no longer reserved (13 R450). -/
def Core.unreserve (a : Accepted) (c : Core) : Core :=
  Core.modTen a.tenant.toNat (fun x => { x with queues := x.queues.map fun q => if q.1 == a.cq then (q.1, q.2.unreserve) else q })
    { c with accepted := c.accepted.eraseP fun b => b.same a }

theorem Core.reply_eq (a : Accepted) (status : Nat) (detail : List Byte) (c : Core) : c.reply a status detail =
    ((c.unreserve a).cqWrite a.tenant.toNat a.cq (entryBytes a.tag.toNat status detail)).adminSettle a.tenant.toNat := rfl

theorem Core.queues_unreserve (a : Accepted) (c : Core) (n : Nat) : lookup? n ((c.unreserve a).ten a.tenant.toNat).queues =
    if n = a.cq then (lookup? n (c.ten a.tenant.toNat).queues).map Queue.unreserve else
      lookup? n (c.ten a.tenant.toNat).queues := by
  rw [Core.unreserve, Core.ten_modTen_self]
  exact lookup?_map_key a.cq n Queue.unreserve _

theorem Core.repliesTo_unreserve (a : Accepted) (c : Core) : c.RepliesTo a.tenant.toNat a.cq (c.unreserve a) :=
  .trans (d := { c with accepted := c.accepted.eraseP fun b => b.same a }) (.of_tens rfl)
    (.modTen _ rfl fun n ne _ => (lookup?_map_key a.cq n Queue.unreserve _).trans (if_neg ne))

theorem Core.open?_unreserve {a : Accepted} {c : Core} (opened : c.open? a.tenant.toNat a.cq = true) :
    (c.unreserve a).open? a.tenant.toNat a.cq = true := by
  obtain ⟨q, found, sound⟩ := Core.open?_iff.1 opened
  refine Core.open?_iff.2 ⟨q.unreserve, ?_, sound⟩
  rw [Core.queues_unreserve, if_pos rfl, found, Option.map_some]

/-- A reply takes the command off the list, and changes beyond that the tenants and the outputs, to which it adds. -/
theorem Core.reply_frame (a : Accepted) (status : Nat) (detail : List Byte) (c : Core) :
    ∃ ts os, c.reply a status detail = { c with accepted := c.accepted.eraseP (fun b => b.same a), tens := ts, out := c.out ++ os } := by
  obtain ⟨ts', o, written⟩ := Core.cqWrite_frame a.tenant.toNat a.cq (entryBytes a.tag.toNat status detail) (c.unreserve a)
  obtain ⟨os, out⟩ := Core.out_cqWrite a.tenant.toNat a.cq (entryBytes a.tag.toNat status detail) (c.unreserve a)
  obtain ⟨ts, settled⟩ := Core.adminSettle_frame a.tenant.toNat ((c.unreserve a).cqWrite a.tenant.toNat a.cq (entryBytes a.tag.toNat status detail))
  refine ⟨ts, os, ?_⟩
  rw [Core.reply_eq, settled, out, written]
  rfl

theorem Core.mem_out_reply {c : Core} {o : Out} (sent : o ∈ c.out) (a : Accepted) (status : Nat) (detail : List Byte) :
    o ∈ (c.reply a status detail).out := by
  obtain ⟨ts, os, reply⟩ := Core.reply_frame a status detail c
  rw [reply]
  exact List.mem_append_left os sent

theorem Core.cqEntry_mem_out_reply {a : Accepted} {c : Core} (opened : c.open? a.tenant.toNat a.cq = true) (status : Nat) (detail : List Byte) :
    ∃ k, Out.cqEntry a.tenant a.cq k (entryBytes a.tag.toNat status detail) ∈ (c.reply a status detail).out := by
  obtain ⟨k, sent⟩ := Core.mem_out_cqWrite (Core.open?_unreserve opened) (entryBytes a.tag.toNat status detail)
  obtain ⟨ts, settled⟩ := Core.adminSettle_frame a.tenant.toNat ((c.unreserve a).cqWrite a.tenant.toNat a.cq (entryBytes a.tag.toNat status detail))
  rw [BitVec.ofNat_toNat, BitVec.setWidth_eq] at sent
  exact ⟨k, by rw [Core.reply_eq, settled]; exact sent⟩

theorem Core.repliesTo_reply (a : Accepted) (status : Nat) (detail : List Byte) (c : Core) :
    c.RepliesTo a.tenant.toNat a.cq (c.reply a status detail) :=
  ((c.repliesTo_unreserve a).trans (Core.repliesTo_cqWrite ..)).trans (Core.repliesTo_adminSettle ..)

/-- A command answered from a core that is `want` but for what it has sent. -/
theorem State.answered_reply {want u : State} {a : Accepted} {c : Core} {status : Nat} {detail : List Byte} (mem : u.mem = want.mem) (pwr : u.pwr = want.pwr)
    (core : u.core = c.reply a status detail) (same : { c with out := want.core.out } = want.core)
    (opened : want.core.open? a.tenant.toNat a.cq = true) : u.answered want a status detail := by
  obtain ⟨ts, os, reply⟩ := Core.reply_frame a status detail c
  have tens : want.core.tens = c.tens := by rw [← same]
  have repliesTo := (Core.RepliesTo.of_tens tens.symm).trans (c.repliesTo_reply a status detail)
  rw [← core] at repliesTo
  refine ⟨mem, pwr, ?_, repliesTo.others, repliesTo.own, ?_⟩
  · rw [core, reply, ← same]
  · rw [core]
    exact Core.cqEntry_mem_out_reply ((Core.open?_congr (by rw [Core.ten_congr tens]) a.cq).symm.trans opened) status detail

/-! ### Commands evaluated -/

theorem Core.opcode_of_cmd? {c : Core} {op : Nat} {t : TenantId} {sq : Nat} {tag : BitVec 32} {a : Accepted} (next : c.cmd? op t sq tag = some a) :
    a.opcode = op := by
  unfold Core.cmd? at next
  rw [List.span_eq_takeWhile_dropWhile] at next
  split at next
  next before b rest parts =>
    have first := List.find?_some ((List.find?_not_eq_head?_dropWhile _ c.accepted).trans (congrArg (fun e => e.2.head?) parts))
    dsimp only at next
    split at next
    · exact absurd next nofun
    · obtain rfl : b = a := Option.some.inj next
      simp only [Bool.not_not, Bool.and_eq_true, beq_iff_eq] at first
      exact first.1.2
  next => simp at next

/-- The answer to an evaluated command (13 R456): its reply, or nothing yet where that waits. -/
def CmdOut.answer (a : Accepted) (o : CmdOut) : Mach :=
  if o.status = 0 && o.wait then o.m.up (Core.awaitReply a) else o.m.up fun c => c.reply a o.status o.detail

theorem CmdOut.answer_of_replied {a : Accepted} {o : CmdOut} (replies : o.wait = false) : o.answer a = o.m.up fun c => c.reply a o.status o.detail := by
  rw [CmdOut.answer, replies, Bool.and_false, if_neg Bool.false_ne_true]

section
variable {s : State} {op : Nat} {t : TenantId} {sq : Nat} {tag : BitVec 32} {a : Accepted} (asks : s.asks op t sq tag a)
include asks

theorem State.asks.opcode : a.opcode = op := Core.opcode_of_cmd? asks.next

/-- A command packet without STAGE is evaluated where the buffer it names can be read, and refused with status 4 where it cannot (13 R456, R457). -/
theorem State.asks.runCmd_eq (bufOk : Bool) (data : List Byte) (eval : Ev → Accepted → Mach → CmdOut) :
    runCmd op t sq tag bufOk data eval (startMach s) =
      (if bufOk then eval { v := s.view, now := false, since := some s.core.clk.count.toNat } a (startMach s) else refuse 4 (startMach s)).answer a := by
  have next : (startMach s).core.cmd? op t sq tag = some a := asks.next
  simp only [runCmd, next, asks.direct, Bool.false_and, Bool.false_eq_true, if_false]
  cases bufOk <;> rfl

theorem State.asks.unread (data : List Byte) (eval : Ev → Accepted → Mach → CmdOut) :
    ∃ u, runM (runCmd op t sq tag false data eval) s = .next u ∧ u.answered s a 4 [] :=
  ⟨_, runM_up (asks.runCmd_eq false data eval), State.answered_reply rfl rfl rfl rfl asks.queue⟩

variable {data : List Byte} {eval : Ev → Accepted → Mach → CmdOut}

theorem State.asks.refuses {status : Nat}
    (refused : eval { v := s.view, now := false, since := some s.core.clk.count.toNat } a (startMach s) = refuse status (startMach s)) :
    ∃ u, runM (runCmd op t sq tag true data eval) s = .next u ∧ u.answered s a status [] :=
  ⟨_, runM_up ((asks.runCmd_eq true data eval).trans ((congrArg (CmdOut.answer a) refused).trans (CmdOut.answer_of_replied rfl))),
    State.answered_reply rfl rfl rfl rfl asks.queue⟩

/-- A command that `f` carries out and that is replied to at once. -/
theorem State.asks.run {f : Core → Core} {detail : List Byte}
    (effect : eval { v := s.view, now := false, since := some s.core.clk.count.toNat } a (startMach s) = { detail := detail, m := (startMach s).up f }) :
    runM (runCmd op t sq tag true data eval) s = .next { s with core := (f s.start).reply a 0 detail } :=
  runM_up (g := fun c => (f c).reply a 0 detail)
    ((asks.runCmd_eq true data eval).trans ((congrArg (CmdOut.answer a) effect).trans (CmdOut.answer_of_replied rfl)))

/-- It leaves `want` where `f` does, but for what is sent. -/
theorem State.asks.answers {f g : Core → Core} {detail : List Byte}
    (effect : eval { v := s.view, now := false, since := some s.core.clk.count.toNat } a (startMach s) = { detail := detail, m := (startMach s).up f })
    (same : { f s.start with out := (g s.core).out } = g s.core) (tens : (g s.core).tens = s.core.tens) :
    ∃ u, runM (runCmd op t sq tag true data eval) s = .next u ∧ u.answered (s.upd g) a 0 detail :=
  ⟨_, asks.run effect, State.answered_reply rfl rfl rfl same ((Core.open?_congr (by rw [State.upd, Core.ten_congr tens]) a.cq).trans asks.queue)⟩

/-- A command that `f` begins and whose reply waits. -/
theorem State.asks.waits {f : Core → Core} {detail : List Byte}
    (effect : eval { v := s.view, now := false, since := some s.core.clk.count.toNat } a (startMach s) = { detail := detail, wait := true, m := (startMach s).up f }) :
    runM (runCmd op t sq tag true data eval) s = .next { s with core := (f s.start).awaitReply a } :=
  runM_up (g := fun c => (f c).awaitReply a) ((asks.runCmd_eq true data eval).trans (congrArg (CmdOut.answer a) effect))

end

end Sys2Proof.Machine
end

section
/-!
Checkpoint commands but RESTORE (11 R381 to R384, R392 to R395, R404, R405): what each of them comes to, test by test.
-/

namespace Sys2Proof.Machine

/-! ### NVMe commands -/

/-- A command issued stands last on the list, under the next number and at the port its target starts on, and its capsule is sent (R394). -/
theorem Core.issueIo_frame (x : IoCmd) (c : Core) : ∃ l, c.issueIo x =
    { c with spool := { c.spool with io := c.spool.io ++ [{ x with id := c.spool.nextIo, port := (c.targetOf x.tenant x.target).port }], nextIo := c.spool.nextIo + 1 }
             out := c.out ++ [.nvme x.target x.op l] } := ⟨_, rfl⟩

/-- A connection begun is an NVMe command of its own (R393). -/
theorem Core.connect_frame (t : TenantId) (i : Nat) (c : Core) : ∃ x l, c.connect t i =
    { c with spool := { c.spool with io := c.spool.io ++ [x], nextIo := c.spool.nextIo + 1 }, out := c.out ++ [.nvme i 0x7F l] } ∧
      x.what = .connect ∧ x.tenant = t ∧ x.target = i := by
  obtain ⟨l, issued⟩ := Core.issueIo_frame { id := 0, tenant := t, target := i, op := 0x7F, lba := 0, lbas := 0, what := .connect } c
  exact ⟨_, l, issued, rfl, rfl, rfl⟩

/-! ### Targets and keys -/

section
variable {a : Accepted} {m : Mach}

theorem ckptTargetSet_unset (unset : a.par 16 8 = 0) (b : List Byte) : ckptTargetSet a b m = { m := m.up (Core.modSpool fun q =>
    { q with targets := eraseKey (a.target, a.par 8 1) q.targets, io := q.io.filter fun x => !(x.tenant == a.target && x.target == a.par 8 1) }) } := by
  rw [ckptTargetSet, if_pos unset]

theorem ckptTargetSet_malformed (set : a.par 16 8 ≠ 0) {b : List Byte} (malformed : targetOk b = false) : ckptTargetSet a b m = refuse 0x502 m := by
  simp only [ckptTargetSet, set, malformed, Bool.not_false, if_false, if_true]

/-- A target set and its connection begun (R392, R393). -/
def Core.setTarget (a : Accepted) (b : List Byte) (c : Core) : Core :=
  (c.modSpool fun q => { q with targets := insertKey (a.target, a.par 8 1) { desc := b, waiting := some a } q.targets }).connect a.target (a.par 8 1)

theorem ckptTargetSet_wellFormed (set : a.par 16 8 ≠ 0) {b : List Byte} (wellFormed : targetOk b = true) :
    ckptTargetSet a b m = { wait := true, m := m.up (Core.setTarget a b) } := by
  simp only [ckptTargetSet, set, wellFormed, Bool.not_true, Bool.false_eq_true, if_false]
  rfl

/-- A target set awaits its connection, whose capsule is sent (R393). -/
theorem Core.setTarget_frame (a : Accepted) (b : List Byte) (c : Core) : ∃ x l, c.setTarget a b =
    { c with spool := { c.spool with targets := insertKey (a.target, a.par 8 1) { desc := b, waiting := some a } c.spool.targets, io := c.spool.io ++ [x],
                                     nextIo := c.spool.nextIo + 1 }
             out := c.out ++ [.nvme (a.par 8 1) 0x7F l] } ∧ x.what = .connect ∧ x.tenant = a.target ∧ x.target = a.par 8 1 :=
  Core.connect_frame a.target (a.par 8 1) (c.modSpool fun q => { q with targets := insertKey (a.target, a.par 8 1) { desc := b, waiting := some a } q.targets })

theorem ckptKeySet_eq : ckptKeySet a m = { m := m.up (Core.modSpool fun q =>
    { q with keys := if ∀ b ∈ slice a.packet 8 32, b = 0 then eraseKey (a.target, a.par 40 1) q.keys else
        insertKey (a.target, a.par 40 1) (slice a.packet 8 32) q.keys }) } := by
  simp only [ckptKeySet, List.all_eq_true, beq_iff_eq]

end

/-! ### Schedules -/

/-- A schedule block taken: a job's first one, or the one that follows at the next step boundary (R381). -/
def Core.setSchedule (a : Accepted) (b : List Byte) (c : Core) : Core := c.modSpool fun q =>
  { q with jobs := if (c.snapJob? (a.par 8 2)).isSome then q.jobs.map (fun y => if y.plan == a.par 8 2 then { y with next := some b } else y)
             else q.jobs ++ [{ plan := a.par 8 2, block := b, seq := BitVec.ofNat 32 (fieldAt b 36 4) }]
           lastTenant := a.target }

theorem Core.setSchedule_eq (a : Accepted) (b : List Byte) : Core.setSchedule a b = fun c =>
    match c.snapJob? (a.par 8 2) with
    | some _ => (c.modSnap (a.par 8 2) fun s => { s with next := some b }).modSpool fun q => { q with lastTenant := a.target }
    | none => c.modSpool fun q =>
        { q with jobs := q.jobs ++ [{ plan := a.par 8 2, block := b, seq := BitVec.ofNat 32 (fieldAt b 36 4) }], lastTenant := a.target } := by
  funext c
  cases found : c.snapJob? (a.par 8 2) <;> simp only [Core.setSchedule, found] <;> rfl

theorem evalOp_snapSchedule {a : Accepted} (opcode : a.opcode = 0x503) (e : Ev) (data : List Byte) (m : Mach) : evalOp e a data m = snapSchedule e a data m := by
  simp only [evalOp, opcode]

section
variable {e : Ev} {a : Accepted} {b : List Byte} {m : Mach} {p : Plan} {j : Job}

theorem snapSchedule_of_noJob (noJob : e.v.jobOf a.target (a.par 8 2) = none) : snapSchedule e a b m = refuse 0x506 m := by
  simp only [snapSchedule, noJob]

variable (job : e.v.jobOf a.target (a.par 8 2) = some (p, j))
include job

theorem snapSchedule_malformed (malformed : scheduleOk b = false) : snapSchedule e a b m = refuse 2 m := by
  simp only [snapSchedule, job, malformed, Bool.not_false, if_true]

theorem snapSchedule_unconnected (wellFormed : scheduleOk b = true) (lost : ∃ i < snapTcount b, (e.v.targetOf a.target i).connected = false) :
    snapSchedule e a b m = refuse 0x502 m := by
  have unconnected : ((List.range (snapTcount b)).any fun i => !(e.v.targetOf a.target i).connected) = true := by
    simpa only [List.any_eq_true, List.mem_range, Bool.not_eq_true'] using lost
  simp only [snapSchedule, job, wellFormed, unconnected, Bool.not_true, Bool.true_or, Bool.false_eq_true, if_false, if_true]

variable (wellFormed : scheduleOk b = true) (connected : ∀ i < snapTcount b, (e.v.targetOf a.target i).connected = true)
  (manConnected : (e.v.targetOf a.target (snapManTarget b)).connected = true)
include wellFormed connected manConnected

/-- With its targets connected a schedule fails by its key, its sizes or a restore, in this order (R381, R383). -/
theorem snapSchedule_connected : snapSchedule e a b m =
    if e.v.isWriter (a.par 8 2) b && (lookup? (a.target, fieldAt b 11 1) e.v.spool.keys).isNone then refuse 0x503 m
    else if e.v.slotBytes < storedBytes (snapKind b) j.sealMap then refuse 0x504 m
    else if snapAreaLbas b * 4096 < storedBytes (snapKind b) j.sealMap then refuse 0x505 m
    else if e.v.restoring (a.par 8 2) then refuse 0x50D m
    else { m := m.up (Core.setSchedule a b) } := by
  have reached : ((List.range (snapTcount b)).any fun i => !(e.v.targetOf a.target i).connected) = false := by
    simpa only [List.any_eq_false, List.mem_range, Bool.not_eq_true', Bool.not_eq_false] using connected
  simp only [snapSchedule, job, wellFormed, reached, manConnected, Bool.not_true, Bool.or_self, Bool.false_eq_true, if_false]
  rw [Core.setSchedule_eq] <;> rfl

theorem snapSchedule_noKey (writer : e.v.isWriter (a.par 8 2) b = true) (noKey : lookup? (a.target, fieldAt b 11 1) e.v.spool.keys = none) :
    snapSchedule e a b m = refuse 0x503 m := by
  rw [snapSchedule_connected job wellFormed connected manConnected, writer, noKey]
  rfl

variable (key : e.v.isWriter (a.par 8 2) b = true → (lookup? (a.target, fieldAt b 11 1) e.v.spool.keys).isSome = true)
include key

theorem snapSchedule_of_key : snapSchedule e a b m =
    if e.v.slotBytes < storedBytes (snapKind b) j.sealMap then refuse 0x504 m
    else if snapAreaLbas b * 4096 < storedBytes (snapKind b) j.sealMap then refuse 0x505 m
    else if e.v.restoring (a.par 8 2) then refuse 0x50D m
    else { m := m.up (Core.setSchedule a b) } := by
  have keyed : ¬ (e.v.isWriter (a.par 8 2) b && (lookup? (a.target, fieldAt b 11 1) e.v.spool.keys).isNone) = true := by
    simpa only [Bool.and_eq_true, Option.isNone_iff_eq_none, not_and, ← Option.isSome_iff_ne_none, ne_eq] using key
  rw [snapSchedule_connected job wellFormed connected manConnected, if_neg keyed]

theorem snapSchedule_largeForSlot (large : e.v.slotBytes < storedBytes (snapKind b) j.sealMap) : snapSchedule e a b m = refuse 0x504 m := by
  rw [snapSchedule_of_key job wellFormed connected manConnected key, if_pos large]

variable (slotFits : storedBytes (snapKind b) j.sealMap ≤ e.v.slotBytes)
include slotFits

theorem snapSchedule_largeForArea (large : snapAreaLbas b * 4096 < storedBytes (snapKind b) j.sealMap) : snapSchedule e a b m = refuse 0x505 m := by
  rw [snapSchedule_of_key job wellFormed connected manConnected key, if_neg slotFits.not_gt, if_pos large]

variable (areaFits : storedBytes (snapKind b) j.sealMap ≤ snapAreaLbas b * 4096)
include areaFits

theorem snapSchedule_restoring (restoring : e.v.restoring (a.par 8 2) = true) : snapSchedule e a b m = refuse 0x50D m := by
  rw [snapSchedule_of_key job wellFormed connected manConnected key, if_neg slotFits.not_gt,
    if_neg areaFits.not_gt, if_pos restoring]

theorem snapSchedule_passes (idle : e.v.restoring (a.par 8 2) = false) : snapSchedule e a b m = { m := m.up (Core.setSchedule a b) } := by
  rw [snapSchedule_of_key job wellFormed connected manConnected key, if_neg slotFits.not_gt,
    if_neg areaFits.not_gt, idle, if_neg Bool.false_ne_true]

end

/-! ### SNAP_NOW, SNAP_ABANDON and SNAP_QUERY -/

section
variable {a : Accepted} {m : Mach}

theorem snapNow_of_none (absent : m.core.jobOf a.target (a.par 8 2) = none ∨ m.core.snapJob? (a.par 8 2) = none) : snapNow a m = refuse 0x506 m := by
  rcases absent with noJob | noSnap
  · simp only [snapNow, noJob]
  · cases job : m.core.jobOf a.target (a.par 8 2) <;> simp only [snapNow, noSnap, job]

/-- The step named to every module and kept for this one (R384). -/
def Core.nameStep (h : Nat) (n : StepNo) (c : Core) : Core := (c.emit (.vc7 0xFFFF 13 [h, n.toNat])).modSnap h fun s => { s with nowStep := some n }

theorem Core.nameStep_start (s : State) (h : Nat) (n : StepNo) :
    { s.start.nameStep h n with out := s.core.out } = s.core.modSnap h fun y => { y with nowStep := some n } := by
  unfold Core.nameStep Core.modSnap Core.modSpool Core.emit
  rfl

theorem Core.told_nameStep (h : Nat) (n : StepNo) (c : Core) : Out.vc7 0xFFFF 13 [h, n.toNat] ∈ (c.nameStep h n).out :=
  List.mem_append_right _ (List.mem_singleton_self _)

section
variable {p : Plan} {j : Job} {y : SnapJob} (job : m.core.jobOf a.target (a.par 8 2) = some (p, j)) (snap : m.core.snapJob? (a.par 8 2) = some y)
include job snap

theorem snapNow_of_reader (reader : m.core.isWriter (a.par 8 2) y.block = false) : snapNow a m = refuse 0x506 m := by
  simp only [snapNow, job, snap, reader, Bool.not_false, if_true]

variable (writer : m.core.isWriter (a.par 8 2) y.block = true)
include writer

theorem snapNow_of_restoring (busy : m.core.restoring (a.par 8 2) = true) : snapNow a m = refuse 0x50D m := by
  simp only [snapNow, job, snap, writer, busy, Bool.not_true, Bool.false_eq_true, if_false, if_true]

theorem snapNow_passes (idle : m.core.restoring (a.par 8 2) = false) :
    snapNow a m = { m := m.up (Core.nameStep (a.par 8 2) (m.core.stepAfter p j)) } := by
  simp only [snapNow, job, snap, writer, idle, Bool.not_true, Bool.false_eq_true, if_false]
  rfl

end

theorem snapAbandon_of_none (absent : m.core.jobOf a.target (a.par 8 2) = none ∨ m.core.slotOf (a.par 8 2) (BitVec.ofNat 32 (a.par 12 4)) = none) :
    snapAbandon a m = refuse 0x506 m := by
  rcases absent with noJob | noSlot
  · simp only [snapAbandon, noJob]
  · cases job : m.core.jobOf a.target (a.par 8 2) <;> cases snap : m.core.snapJob? (a.par 8 2) <;> simp only [snapAbandon, noSlot, job, snap]

section
variable {x : Plan × Job} {y : SnapJob} {i : Nat} {sl : SnapSlot} (job : m.core.jobOf a.target (a.par 8 2) = some x)
  (snap : m.core.snapJob? (a.par 8 2) = some y) (slot : m.core.slotOf (a.par 8 2) (BitVec.ofNat 32 (a.par 12 4)) = some (i, sl))
  (writer : m.core.isWriter (a.par 8 2) y.block = true)
include job snap slot writer

theorem snapAbandon_of_writing
    (writing : ∃ r ∈ m.core.spool.manifests, r.plan = a.par 8 2 ∧ r.seq = BitVec.ofNat 32 (a.par 12 4) ∧ r.writing.isSome = true) :
    snapAbandon a m = refuse 0x50D m := by
  obtain ⟨r, here, plan, seq, writing⟩ := writing
  have begun : m.core.spool.manifests.any (fun r => r.plan == a.par 8 2 && r.seq == BitVec.ofNat 32 (a.par 12 4) && r.writing.isSome) = true :=
    List.any_eq_true.2 ⟨r, here, by simp [plan, seq, writing]⟩
  simp only [snapAbandon, job, snap, slot, writer, begun, Bool.not_true, Bool.false_eq_true, if_false, if_true]

theorem snapAbandon_passes
    (unwritten : ∀ r ∈ m.core.spool.manifests, r.plan = a.par 8 2 → r.seq = BitVec.ofNat 32 (a.par 12 4) → r.writing = none) :
    snapAbandon a m = { m := m.up (Core.snapFailAll (a.par 8 2) sl.step (BitVec.ofNat 32 (a.par 12 4)) 7) } := by
  have idle : m.core.spool.manifests.any (fun r => r.plan == a.par 8 2 && r.seq == BitVec.ofNat 32 (a.par 12 4) && r.writing.isSome) = false := by
    simpa using unwritten
  simp only [snapAbandon, job, snap, slot, writer, idle, Bool.not_true, Bool.false_eq_true, if_false]

end

theorem snapQuery_of_noPlan (noPlan : m.core.plan? (a.par 8 2) = none) : snapQuery a m = refuse 0x506 m := by
  simp only [snapQuery, noPlan]

theorem snapQuery_of_plan {p : Plan} (admitted : m.core.plan? (a.par 8 2) = some p) (own : p.tenant = a.target) : snapQuery a m =
    let l := ((m.core.snapJob? (a.par 8 2)).bind fun s => s.last).getD (0, 0)
    { m := m, detail := details [(6, 4, l.1.toNat), (10, 5, l.2.toNat), (15, 1, slotState (m.core.spool.slots.getD 0 none)),
        (16, 1, slotState (m.core.spool.slots.getD 1 none))] } := by
  simp only [snapQuery, admitted, own, bne_self_eq_false, Bool.false_eq_true, if_false]

end

end Sys2Proof.Machine
end

section
/-!
Snapshots and their slots (11 R385, R401): where a snapshot stands, and what is left of it once it is given up.
-/

namespace Sys2Proof.Machine

/-! ### Unsolicited entries -/

/-- An unsolicited entry changes the tenants, and adds to the outputs. -/
theorem Core.unsolicited_frame (t status : Nat) (detail : List Byte) (c : Core) :
    ∃ ts os, c.unsolicited t status detail = { c with tens := ts, out := c.out ++ os } := by
  unfold Core.unsolicited
  split
  · obtain ⟨ts, o, written⟩ := Core.cqWrite_frame t 1 (entryBytes 0xFFFFFFFF status detail) c
    obtain ⟨os, out⟩ := Core.out_cqWrite t 1 (entryBytes 0xFFFFFFFF status detail) c
    refine ⟨ts, os, ?_⟩
    rw [written] at out ⊢
    rw [← out]
  · exact ⟨_, [], by rw [List.append_nil]; rfl⟩

@[simp] theorem Core.unsolicited_spool (t status : Nat) (detail : List Byte) (c : Core) : (c.unsolicited t status detail).spool = c.spool := by
  obtain ⟨ts, os, posted⟩ := Core.unsolicited_frame t status detail c
  rw [posted]

/-! ### Slots -/

theorem Core.slotOf_congr {c d : Core} (slots : d.spool.slots = c.spool.slots) (h : Nat) (n : BitVec 32) : d.slotOf h n = c.slotOf h n := by
  rw [Core.slotOf, slots, Core.slotOf]

/-- A snapshot stands in one of the two slots, under its plan and number. -/
theorem Core.slotOf_spec {c : Core} {h : Nat} {n : BitVec 32} {i : Nat} {sl : SnapSlot} (slot : c.slotOf h n = some (i, sl)) :
    i < 2 ∧ c.spool.slots.getD i none = some sl ∧ sl.plan = h ∧ sl.seq = n := by
  have here := List.mem_of_find?_eq_some slot
  have named := List.find?_some slot
  simp only [List.mem_filterMap, List.mem_range, Option.map_eq_some_iff, Prod.mk.injEq] at here
  obtain ⟨k, lt, s, held, rfl, rfl⟩ := here
  exact ⟨lt, held, by simpa using named⟩

theorem Core.slotOf_eq_none {c : Core} {h : Nat} {n : BitVec 32} (other : ∀ i sl, c.spool.slots.getD i none = some sl → ¬ (sl.plan = h ∧ sl.seq = n)) :
    c.slotOf h n = none := by
  rw [Core.slotOf, List.find?_eq_none]
  intro e here
  simp only [List.mem_filterMap, List.mem_range, Option.map_eq_some_iff] at here
  obtain ⟨k, -, s, held, rfl⟩ := here
  simpa using other k s held

/-- A slot changed where a snapshot stands. -/
theorem Core.slots_modSlot {c : Core} {i : Nat} {sl : SnapSlot} (held : c.spool.slots.getD i none = some sl) (f : SnapSlot → SnapSlot) :
    (c.modSlot i f).spool.slots = c.spool.slots.set i (some (f sl)) := by
  show c.spool.slots.modify i (Option.map f) = _
  rw [List.getD_eq_getElem?_getD] at held
  refine List.ext_getElem? fun k => ?_
  rw [List.getElem?_modify, List.getElem?_set]
  by_cases here : i = k
  · subst here
    cases entry : c.spool.slots[i]? with
    | none => simp [entry] at held
    | some o =>
      obtain rfl : o = some sl := by simpa [entry] using held
      have lt : i < c.spool.slots.length := (List.getElem?_eq_some_iff.1 entry).1
      simp [lt]
  · simp [here]

/-! ### Snapshots given up -/

theorem Core.slotOf_snapFree (h : Nat) (n : BitVec 32) (c : Core) : (c.snapFree h n).slotOf h n = none := by
  refine Core.slotOf_eq_none fun i sl held named => ?_
  have freed : (c.snapFree h n).spool.slots =
      c.spool.slots.map fun o => match o with | some s => if s.plan == h && s.seq == n then none else some s | none => none := rfl
  rw [freed, List.getD_eq_getElem?_getD, List.getElem?_map] at held
  cases entry : c.spool.slots[i]? with
  | none => simp [entry] at held
  | some o =>
    cases o with
    | none => simp [entry] at held
    | some s =>
      simp only [entry, Option.map_some, Option.getD_some] at held
      split at held
      · exact absurd held nofun
      · next other =>
        obtain rfl := Option.some.inj held
        simp [named] at other

/-- A snapshot given up and counted as failed (R401). -/
def Core.snapLose (h : Nat) (n : BitVec 32) (c : Core) : Core := (c.snapFree h n).modSpool fun q => { q with failed := satInc q.failed }

theorem Core.slotOf_snapLose (h : Nat) (n : BitVec 32) (c : Core) : (c.snapLose h n).slotOf h n = none :=
  (Core.slotOf_congr rfl h n).trans (c.slotOf_snapFree h n)

theorem Core.failed_snapLose (h : Nat) (n : BitVec 32) (c : Core) : (c.snapLose h n).spool.failed = satInc c.spool.failed := rfl

/-- The manifest writer gives a snapshot up, and tells every module before it posts the failure (R401). -/
theorem Core.snapFailAll_frame (h : Nat) (s : StepNo) (n : BitVec 32) (cause : Nat) (c : Core) :
    ∃ ts os, c.snapFailAll h s n cause = { c.snapLose h n with tens := ts, out := c.out ++ Out.vc7 0xFFFF 12 [h, n.toNat, cause] :: os } := by
  obtain ⟨ts, os, posted⟩ := Core.unsolicited_frame (match c.job? h with | some j => j.tenant.toNat | none => 0) 0xF3 (snapDetail h s n cause)
    ((c.emit (.vc7 0xFFFF 12 [h, n.toNat, cause])).snapLose h n)
  refine ⟨ts, os, ?_⟩
  rw [List.append_cons]
  exact posted

theorem Core.spool_snapFailAll (h : Nat) (s : StepNo) (n : BitVec 32) (cause : Nat) (c : Core) : (c.snapFailAll h s n cause).spool = (c.snapLose h n).spool := by
  obtain ⟨ts, os, failed⟩ := Core.snapFailAll_frame h s n cause c
  rw [failed]

theorem Core.slotOf_snapFailAll (h : Nat) (s : StepNo) (n : BitVec 32) (cause : Nat) (c : Core) : (c.snapFailAll h s n cause).slotOf h n = none :=
  (Core.slotOf_congr (congrArg Spool.slots (Core.spool_snapFailAll ..)) h n).trans (c.slotOf_snapLose h n)

theorem Core.failed_snapFailAll (h : Nat) (s : StepNo) (n : BitVec 32) (cause : Nat) (c : Core) :
    (c.snapFailAll h s n cause).spool.failed = satInc c.spool.failed := congrArg Spool.failed (Core.spool_snapFailAll ..)

theorem Core.told_snapFailAll (h : Nat) (s : StepNo) (n : BitVec 32) (cause : Nat) (c : Core) :
    Out.vc7 0xFFFF 12 [h, n.toNat, cause] ∈ (c.snapFailAll h s n cause).out := by
  obtain ⟨ts, os, failed⟩ := Core.snapFailAll_frame h s n cause c
  rw [failed]
  exact List.mem_append_right _ List.mem_cons_self

theorem Core.open?_snapFailAll {t cq : Nat} {c : Core} (opened : c.open? t cq = true) (h : Nat) (s : StepNo) (n : BitVec 32) (cause : Nat) :
    (c.snapFailAll h s n cause).open? t cq = true :=
  Core.open?_unsolicited (c := (c.emit (.vc7 0xFFFF 12 [h, n.toNat, cause])).snapLose h n) ((Core.open?_congr (by exact congrArg Ten.queues rfl) cq).trans opened) ..

end Sys2Proof.Machine
end

section
/-!
Whole ranges of memory written (07 R215, R235; 11 R386, R402): what a store, a copy and a restored range leave of memory and of the core.
-/

namespace Sys2Proof.Machine

/-! ### Writes inside a set of keys -/

/-- A write changes keys of a set only. -/
def Wr.inside (keys : Nat → Prop) (w : Wr) : Prop := ∀ a, w.range.1 ≤ a → a < w.range.1 + w.range.2 → keys a

/-- The core without what every write counts and drops (07 R215, R235). -/
def Core.unlined (c : Core) : Core := { c with gens := [], commonsLines := [] }

/-- `m'` is `m` after writes inside a set of keys, and nothing else differs but what every write counts and drops. -/
structure Mach.Stores (keys : Nat → Prop) (m m' : Mach) : Prop where
  writes : Mach.Ext (Wr.inside keys) m m'
  core : m'.core.unlined = m.core.unlined

theorem Core.unlined_wrote (k n : Nat) (c : Core) : (c.wrote k n).unlined = c.unlined := by
  unfold Core.wrote
  dsimp only
  split
  all_goals
    show (List.foldl _ c _).unlined = c.unlined
    exact foldl_leaves Core.unlined (by exact fun _ _ => rfl) _ c

theorem Core.extKeys_congr {c d : Core} (same : d.unlined = c.unlined) : d.extKeys = c.extKeys := by
  have leases : d.leases = c.leases := (congrArg Core.leases same :)
  funext p off n
  simp only [Core.extKeys, Core.hbmView, leases]

section
variable {keys : Nat → Prop} {m : Mach}

theorem Mach.Stores.refl (m : Mach) : Mach.Stores keys m m := ⟨.refl m, rfl⟩

theorem Mach.Stores.trans {a b c : Mach} (first : Mach.Stores keys a b) (second : Mach.Stores keys b c) : Mach.Stores keys a c :=
  ⟨first.writes.trans second.writes, second.core.trans first.core⟩

theorem Mach.Stores.ident {m' : Mach} (stores : Mach.Stores keys m m') : m'.core.ident = m.core.ident := (congrArg Core.ident stores.core :)

/-- Writes one after another over a list, each from a machine that the ones before it have left. -/
theorem Mach.Stores.foldl {α : Type} {f : Mach → α → Mach} (l : List α) (step : ∀ m', Mach.Stores keys m m' → ∀ x ∈ l, Mach.Stores keys m' (f m' x)) :
    Mach.Stores keys m (l.foldl f m) := by
  induction l generalizing m with
  | nil => exact .refl m
  | cons x rest ih =>
    have first := step m (.refl m) x List.mem_cons_self
    exact first.trans (ih fun m' after y mem => step m' (first.trans after) y (List.mem_cons_of_mem x mem))

theorem Mach.Stores.byte {m' : Mach} (stores : Mach.Stores keys m m') {a : Nat} (outside : ¬ keys a) : memByte m'.mem a = memByte m.mem a :=
  stores.writes.byte a fun _ inside here => outside (inside a here.1 here.2)

theorem Mach.Stores.write {w : Wr} (inside : w.inside keys) (u n k len : Nat) (m : Mach) :
    Mach.Stores keys m (((m.write w).write (.poison u n false)).up (Core.wrote k len)) :=
  ⟨((Mach.Ext.write inside m).trans (Mach.Ext.write (fun _ lo hi => absurd hi (Nat.not_lt.2 lo)) _)).then_up _, Core.unlined_wrote ..⟩

theorem Mach.Stores.store {k : Nat} {bs : List Byte} (inside : ∀ i < bs.length, keys (k + i)) (m : Mach) : Mach.Stores keys m (m.store k bs) := by
  refine .write (fun a lo hi => ?_) ..
  have here := inside (a - k) (by simp only [Wr.range] at lo hi; omega)
  rwa [show k + (a - k) = a by simp only [Wr.range] at lo; omega] at here

end

/-! ### Ranges of a tenant's view -/

theorem Core.length_extKeys (c : Core) (p : Plan) (off n : Nat) : (c.extKeys p off n).length = n := by simp [Core.extKeys, tabulate]

/-- Extent `i` of a range that stays in one stack's view is the extent that its own offset names (07 R218). -/
theorem Core.extKeys_extent (c : Core) (p : Plan) {off n i : Nat} (fits : field off 0 36 + n * 2 ^ 26 ≤ 2 ^ 36) (lt : i < n) :
    (c.extKeys p (off + i * 2 ^ 26) 1).headD none = (c.extKeys p off n)[i]?.getD none := by
  have low : field (off + i * 2 ^ 26) 0 36 = field off 0 36 + i * 2 ^ 26 := by
    simp only [field, Nat.shiftRight_zero] at fits ⊢
    omega
  have high : field (off + i * 2 ^ 26) 36 3 = field off 36 3 := by
    simp only [field, Nat.shiftRight_eq_div_pow] at fits ⊢
    omega
  simp [-Nat.reducePow, Core.extKeys, tabulate, lt, low, high]

/-- The keys of the extents behind a range. -/
def Core.inExtents (c : Core) (p : Plan) (off n a : Nat) : Prop := ∃ y, some y ∈ c.extKeys p off n ∧ y ≤ a ∧ a < y + 2 ^ 26

/-- Whole extents put at an offset reach the extents behind it and no other key (R402). -/
theorem Mach.putAt_stores {m : Mach} {p : Plan} {off n : Nat} {bs : List Byte} (fits : field off 0 36 + n * 2 ^ 26 ≤ 2 ^ 36)
    (length : bs.length = 2 ^ 26 * n) : Mach.Stores (m.core.inExtents p off n) m (m.putAt p off bs) := by
  unfold Mach.putAt
  rw [chunks_eq (by norm_num) bs length]
  refine .foldl _ fun m' before x mem => ?_
  obtain ⟨i, lt, rfl⟩ := List.mem_iff_getElem.1 mem
  simp only [List.length_mapIdx, List.length_map, List.length_range] at lt
  simp only [List.getElem_mapIdx, List.getElem_map, List.getElem_range]
  rw [Core.extKeys_congr before.core, Core.extKeys_extent _ p fits lt]
  split
  · next k found =>
    refine .store (fun a here => ?_) m'
    have full := List.length_take_le (2 ^ 26) (bs.drop (2 ^ 26 * i))
    refine ⟨k, ?_, Nat.le_add_right k a, by omega⟩
    cases entry : (m.core.extKeys p off n)[i]? with
    | none => simp [entry] at found
    | some o =>
      obtain rfl : o = some k := by simpa [entry] using found
      exact List.mem_of_getElem? entry
  · exact .refl m'

/-- One extent put at an offset. -/
theorem Mach.putAt_one {m : Mach} {p : Plan} {off y : Nat} {bs : List Byte} (leads : m.core.extKeys p off 1 = [some y]) (length : bs.length = 2 ^ 26) :
    m.putAt p off bs = m.store y bs := by
  unfold Mach.putAt
  rw [chunks_eq (k := 1) (by norm_num) bs length]
  simp [leads, ← length]

theorem Mach.memByte_store (k : Nat) (bs : List Byte) (m : Mach) {i : Nat} (lt : i < bs.length) : memByte (m.store k bs).mem (k + i) = bs.getD i 0 := by
  show memByte (applyWr (applyWr m.mem (.bytes k bs)) (.poison _ _ _)) (k + i) = _
  rw [memByte_poison, memByte_bytes, if_pos ⟨by omega, by omega⟩, Nat.add_sub_cancel_left]

end Sys2Proof.Machine
end

section
/-!
RESTORE (11 R398 to R403): the tests that it makes in the order of Table 11-10, and what a restore that passes them writes.
-/

namespace Sys2Proof.Machine

/-! ### Counters of the spool -/

/-- COUNTER_SATURATED concerns the module and no tenant, so it changes the log alone (R436). -/
theorem Core.counterEvent_frame (bit : Nat) (newly : Bool) (blk inst off : Nat) (c : Core) :
    ∃ l, c.counterEvent bit newly blk inst off = { c with log := l } := by
  unfold Core.counterEvent
  split
  · exact ⟨_, rfl⟩
  · exact ⟨c.log, rfl⟩

/-- Counting LBAs changes their counter and the log (R409). -/
theorem Core.countLbas_frame (n : Nat) (c : Core) : ∃ x f l, c.countLbas n = { c with spool := { c.spool with lbas := x, lbasOvf := f }, log := l } := by
  unfold Core.countLbas
  dsimp only
  obtain ⟨l, event⟩ := Core.counterEvent_frame 4 ((satOvf c.spool.lbas n || c.spool.lbas.toNat + n == 2 ^ 48 - 1) && !c.spool.lbasOvf) 7 0 0x110
    (c.modSpool fun q => { q with lbas := satAdd q.lbas n, lbasOvf := q.lbasOvf || (satOvf c.spool.lbas n || c.spool.lbas.toNat + n == 2 ^ 48 - 1) })
  exact ⟨_, _, l, event⟩

theorem Core.countLbas_led (n : Nat) (c : Core) : (c.countLbas n).led = c.led := by
  obtain ⟨x, f, l, counted⟩ := Core.countLbas_frame n c
  rw [counted]

theorem Core.countLbas_spool_congr {c d : Core} (same : d.spool = c.spool) (n : Nat) : (d.countLbas n).spool = (c.countLbas n).spool := by
  have counted : ∀ x : Core, (x.countLbas n).spool = { x.spool with
      lbas := satAdd x.spool.lbas n, lbasOvf := x.spool.lbasOvf || (satOvf x.spool.lbas n || x.spool.lbas.toNat + n == 2 ^ 48 - 1) } := fun x => by
    unfold Core.countLbas
    dsimp only
    generalize ((satOvf x.spool.lbas n || x.spool.lbas.toNat + n == 2 ^ 48 - 1) && !x.spool.lbasOvf) = newly
    obtain ⟨l, event⟩ := Core.counterEvent_frame 4 newly 7 0 0x110
      (x.modSpool fun q => { q with lbas := satAdd q.lbas n, lbasOvf := q.lbasOvf || (satOvf x.spool.lbas n || x.spool.lbas.toNat + n == 2 ^ 48 - 1) })
    rw [event]
    rfl
  rw [counted, counted, same]

/-! ### Lists by index -/

theorem tabulate_length {α β : Type} (l : List α) (f : Nat → β) : tabulate l.length f = l.mapIdx fun i _ => f i := by
  refine List.ext_getElem? fun i => ?_
  by_cases lt : i < l.length <;> simp [tabulate, lt]

theorem map_mapIdx {α β γ : Type} (l : List α) (f : Nat → α → β) (g : β → γ) : (l.mapIdx f).map g = l.mapIdx fun i x => g (f i x) := by
  rw [eq_comm, List.mapIdx_eq_iff]
  intro i
  rw [List.getElem?_map, List.getElem?_mapIdx, Option.map_map]
  rfl

theorem forall_mem_zip_mapIdx {α β γ : Type} {F : Nat → α → β} {l : List α} {r : List γ} {P : β × γ → Prop}
    (each : ∀ i x, l[i]? = some x → ∀ y, r[i]? = some y → P (F i x, y)) : ∀ z ∈ (l.mapIdx F).zip r, P z := by
  intro z mem
  obtain ⟨i, here⟩ := List.mem_iff_getElem?.1 mem
  rw [List.getElem?_zip_eq_some, List.getElem?_mapIdx, Option.map_eq_some_iff] at here
  obtain ⟨⟨x, at_l, image⟩, at_r⟩ := here
  obtain ⟨y, c⟩ := z
  subst image
  exact each i x at_l c at_r

theorem foldl_zip_mapIdx {α β γ σ : Type} {F : Nat → α → β} {g : σ → β × γ → σ} {k : σ → α × γ → σ} (l : List α) (r : List γ)
    (same : ∀ i x, l[i]? = some x → ∀ s y, g s (F i x, y) = k s (x, y)) (s : σ) : ((l.mapIdx F).zip r).foldl g s = (l.zip r).foldl k s := by
  induction l generalizing F r s with
  | nil => rfl
  | cons x rest ih =>
    cases r with
    | nil => rw [List.zip_nil_right, List.zip_nil_right, List.foldl_nil, List.foldl_nil]
    | cons y r =>
      rw [List.mapIdx_cons, List.zip_cons_cons, List.zip_cons_cons, List.foldl_cons, List.foldl_cons, same 0 x rfl s y]
      exact ih r (fun i z here => same (i + 1) z here) _

/-! ### Bytes restored -/

theorem length_widenBytes {bs : List Byte} {n : Nat} (length : bs.length = 2 * n) : (widenBytes bs).length = 4 * n := by
  rw [widenBytes, chunks_eq (by norm_num) bs length, List.length_flatMap]
  simp [padTo_length, Function.comp_def, Nat.mul_comm]

/-- The bytes that a restore puts for a seal-map entry: the pieces read, widened where an EXPORT snapshot stored them as BF16 (R402). -/
def restoredBytes (kind : Nat) (e : SealEnt) (pieces : List (List Byte)) : List Byte :=
  if kind = 2 ∧ e.cls = 0 then widenBytes pieces.flatten else pieces.flatten

theorem length_restoredBytes {kind : Nat} {e : SealEnt} {pieces : List (List Byte)} (count : pieces.length = e.extents)
    (each : ∀ d ∈ pieces, d.length = pieceBytes kind e.cls) : (restoredBytes kind e pieces).length = 2 ^ 26 * e.extents := by
  have flat : pieces.flatten.length = e.extents * pieceBytes kind e.cls := by
    rw [List.length_flatten, List.map_congr_left each, List.map_const', List.sum_replicate, smul_eq_mul, count]
  by_cases export_ : kind = 2 ∧ e.cls = 0
  · have half : pieceBytes kind e.cls = 2 ^ 25 := by simp [pieceBytes, export_]
    rw [restoredBytes, if_pos export_, length_widenBytes (n := 2 ^ 24 * e.extents) (by rw [flat, half]; omega)]
    omega
  · have whole : pieceBytes kind e.cls = 2 ^ 26 := by simp [pieceBytes, export_]
    rw [restoredBytes, if_neg export_, flat, whole, Nat.mul_comm]

/-- The pieces read for a seal-map entry are those that its shard describes (R400, R402). -/
def ShardRead (b : List Byte) (e : SealEnt) (sh : List Byte) (pieces : List (List Byte)) : Prop :=
  fieldAt sh 12 1 = e.cls ∧ fieldAt sh 14 4 = e.extents ∧ pieces.length = e.extents ∧ fieldAt sh 18 4 = e.extents ∧
  (∀ k d, pieces[k]? = some d → d.length = pieceBytes (fieldAt b 45 1) e.cls ∧ sha256 d = pieceDigest b sh k) ∧ slice sh 48 32 = sha256 (pieces.flatMap sha256)

theorem ShardRead.length {b : List Byte} {e : SealEnt} {sh : List Byte} {pieces : List (List Byte)} (reads : ShardRead b e sh pieces) :
    (restoredBytes (fieldAt b 45 1) e pieces).length = 2 ^ 26 * e.extents := by
  obtain ⟨-, -, count, -, each, -⟩ := reads
  refine length_restoredBytes count fun d mem => ?_
  obtain ⟨k, here⟩ := List.mem_iff_getElem?.1 mem
  exact (each k d here).1

/-- The CUR ranges of a seal map written with the pieces read for its entries (R402). -/
def Mach.loadEntries (p : Plan) (kind : Nat) (l : List (SealEnt × List (List Byte))) (m : Mach) : Mach :=
  l.foldl (fun m x => m.putAt p x.1.curOff.toNat (restoredBytes kind x.1 x.2)) m

/-- A key in the CUR extents of a seal map. -/
def Core.inCur (c : Core) (p : Plan) (es : List SealEnt) (a : Nat) : Prop := ∃ e ∈ es, c.inExtents p e.curOff.toNat e.extents a

theorem Core.inExtents_congr {c d : Core} (same : d.unlined = c.unlined) : d.inExtents = c.inExtents := by
  funext p off n a
  rw [Core.inExtents, Core.extKeys_congr same, Core.inExtents]

theorem Mach.Stores.mono {keys wider : Nat → Prop} {m m' : Mach} (stores : Mach.Stores keys m m') (sub : ∀ a, keys a → wider a) : Mach.Stores wider m m' := by
  obtain ⟨⟨pwr, ws, log, mem, inside⟩, core⟩ := stores
  exact ⟨⟨pwr, ws, log, mem, fun w here a lo hi => sub a (inside w here a lo hi)⟩, core⟩

/-- A seal map that may be launched has each CUR range in one stack's view. -/
theorem Core.sealMapOk_cur {c : Core} {p : Plan} {es : List SealEnt} (ok : c.sealMapOk p es = true) {e : SealEnt} (mem : e ∈ es) :
    field e.curOff.toNat 0 36 + e.extents * 2 ^ 26 ≤ 2 ^ 36 := by
  simp only [Core.sealMapOk, Bool.and_eq_true, List.all_eq_true, List.mem_flatMap] at ok
  obtain ⟨⟨⟨⟨ranges, -⟩, -⟩, -⟩, -⟩ := ok
  obtain ⟨⟨-, fits⟩, -⟩ := ranges (e.curOff.toNat, e.extents) ⟨e, mem, List.mem_cons_self⟩
  exact of_decide_eq_true fits

/-- Entries whose bytes fill their CUR ranges reach the CUR extents and no other key. -/
theorem Mach.loadEntries_stores {m : Mach} {p : Plan} {kind : Nat} {es : List SealEnt} (ok : m.core.sealMapOk p es = true) (l : List (SealEnt × List (List Byte)))
    (full : ∀ x ∈ l, x.1 ∈ es ∧ (restoredBytes kind x.1 x.2).length = 2 ^ 26 * x.1.extents) :
    Mach.Stores (m.core.inCur p es) m (m.loadEntries p kind l) := by
  refine .foldl l fun m' before x mem => ?_
  obtain ⟨entry, length⟩ := full x mem
  refine (Mach.putAt_stores (m := m') (Core.sealMapOk_cur ok entry) length).mono fun a here => ⟨x.1, entry, ?_⟩
  rwa [Core.inExtents_congr before.core] at here

/-! ### Tests -/

/-- Whether no job of the plan runs (R399). -/
def Core.stopped (c : Core) (h : Nat) : Prop :=
  c.job? h = none ∨ ∃ j, c.job? h = some j ∧ (j.phase == .stoppedLimit || j.phase == .stoppedFallback) = true

theorem Core.stopped_of_phases {c : Core} {h : Nat} (phases : ∀ j, c.job? h = some j → j.phase = .stoppedLimit ∨ j.phase = .stoppedFallback) : c.stopped h := by
  cases job : c.job? h with
  | none => exact .inl job
  | some j => exact .inr ⟨j, job, by simpa using phases j job⟩

section
variable {a : Accepted} {buf : List Byte} {man : Option (List Byte)} {reads : Option (List (List (List Byte)))} {m : Mach}

theorem restore_of_noPlan (noPlan : m.core.plan? (a.par 8 2) = none) : restore a buf man reads m = refuse 0x506 m := by
  simp only [restore, noPlan]

variable {p : Plan} (admitted : m.core.plan? (a.par 8 2) = some p)
include admitted

theorem restore_of_running {j : Job} (job : m.core.job? (a.par 8 2) = some j) (limit : j.phase ≠ .stoppedLimit) (fallback : j.phase ≠ .stoppedFallback) :
    restore a buf man reads m = refuse 0x506 m := by
  have running : (j.phase == .stoppedLimit || j.phase == .stoppedFallback) = false := by simp [limit, fallback]
  simp only [restore, admitted, job, running, Bool.not_false, Bool.or_true, if_true]

variable (own : p.tenant = a.target) (stopped : m.core.stopped (a.par 8 2))
include own stopped

theorem restore_unknownTarget (unknown : lookup? (a.target, fieldAt buf 0 1) m.core.spool.targets = none) : restore a buf man reads m = refuse 0x502 m := by
  rcases stopped with job | ⟨j, job, phase⟩ <;> simp [restore, *]

variable (known : (lookup? (a.target, fieldAt buf 0 1) m.core.spool.targets).isNone = false)
include known

theorem restore_unconnected (unconnected : (m.core.targetOf a.target (fieldAt buf 0 1)).connected = false) :
    restore a buf man reads m = refuse 0x501 m := by
  rcases stopped with job | ⟨j, job, phase⟩ <;> simp [restore, *]

variable (connected : (m.core.targetOf a.target (fieldAt buf 0 1)).connected = true)
include connected

theorem restore_noKey (noKey : lookup? (a.target, fieldAt buf 20 1) m.core.spool.keys = none) : restore a buf man reads m = refuse 0x503 m := by
  rcases stopped with job | ⟨j, job, phase⟩ <;> simp [restore, *]

variable {key : List Byte} (keyed : lookup? (a.target, fieldAt buf 20 1) m.core.spool.keys = some key)
include keyed

theorem restore_badSealMap (bad : readSealMap (slice buf 64 (64 + 32 * fieldAt buf 64 2)) = none) : restore a buf man reads m = refuse 0x508 m := by
  rcases stopped with job | ⟨j, job, phase⟩ <;> simp [restore, *]

variable {es : List SealEnt} (sealMap : readSealMap (slice buf 64 (64 + 32 * fieldAt buf 64 2)) = some es)
include sealMap

theorem restore_noManifest : restore a buf none reads m = refuse 0x50A m := by
  rcases stopped with job | ⟨j, job, phase⟩ <;> simp [restore, *]

variable {b : List Byte}

theorem restore_invalidManifest (invalid : manifestValid b key (fieldAt buf 20 1) = false) : restore a buf (some b) reads m = refuse 0x507 m := by
  rcases stopped with job | ⟨j, job, phase⟩ <;> simp [restore, *]

variable (valid : manifestValid b key (fieldAt buf 20 1) = true)
include valid

theorem restore_export (isExport : fieldAt b 45 1 = 2) (unflagged : bitOf (fieldAt buf 21 1) 0 = false) : restore a buf (some b) reads m = refuse 0x50C m := by
  rcases stopped with job | ⟨j, job, phase⟩ <;> simp [restore, *]

variable (flagged : fieldAt b 45 1 = 2 → bitOf (fieldAt buf 21 1) 0 = true) (sameShape : bitOf (fieldAt buf 21 1) 1 = false)
include flagged sameShape

theorem restore_misfit (misfit : fieldAt b 46 2 ≠ p.hdr.modCount ∨ m.core.sealMapOk p es = false) : restore a buf (some b) reads m = refuse 0x508 m := by
  rcases stopped with job | ⟨j, job, phase⟩ <;> rcases misfit with misfit | misfit <;> simp +contextual [restore, *]

omit admitted own stopped known connected keyed sealMap valid flagged sameShape in
theorem full_of_shards {ps : List (List (List Byte))} {shard : Nat → Option (List Byte)}
    (shards : ∀ i e, es[i]? = some e → ∃ sh pc, shard i = some sh ∧ ps[i]? = some pc ∧ ShardRead b e sh pc) :
    ∀ x ∈ es.zip ps, x.1 ∈ es ∧ (restoredBytes (fieldAt b 45 1) x.1 x.2).length = 2 ^ 26 * x.1.extents := by
  intro x mem
  obtain ⟨i, here⟩ := List.mem_iff_getElem?.1 mem
  obtain ⟨at_es, at_ps⟩ := List.getElem?_zip_eq_some.1 here
  obtain ⟨sh, pc, -, read, good⟩ := shards i x.1 at_es
  obtain rfl : x.2 = pc := Option.some.inj (at_ps.symm.trans read)
  exact ⟨List.mem_of_getElem? at_es, good.length⟩

/-- A job whose last seal is the restored step (R402). -/
def Job.loaded (es : List SealEnt) (step : StepNo) (j : Job) : Job := { j with sealMap := es, lastSealed := step, sealedValid := true, mirrored := true }

/-- What a restore leaves for the launch, beyond what it writes (R402, R403). -/
def Core.restored (h : Nat) (sealBytes : List Byte) (es : List SealEnt) (step : StepNo) (lbas : Nat) (c : Core) : Core :=
  ((c.countLbas lbas).modSpool fun q => { q with restored := q.restored.filter (fun r => !(r.1 == h)) ++ [(h, sealBytes, some step)] }).modJob h
    (Job.loaded es step)

variable (sameModules : fieldAt b 46 2 = p.hdr.modCount) (sameSlice : slice b 80 16 = m.core.sliceBytes p) (ok : m.core.sealMapOk p es = true)
  (idle : m.core.restoring (a.par 8 2) = false) (alone : m.core.led.alone = true) {ps : List (List (List Byte))} (all : ps.length = es.length)
  (shards : ∀ i e, es[i]? = some e → ∃ sh pc,
    entryShard b (manifestHdr b p.hdr) ((if m.core.fab.cfg.celoth1 then 32 else 64) - fieldAt b 85 1) (m.core.lmOf p.hdr a.target) i = some sh ∧
      ps[i]? = some pc ∧ ShardRead b e sh pc)
include sameModules sameSlice ok idle alone all shards

theorem restore_passes : restore a buf (some b) (some ps) m =
    { m := (m.loadEntries p (fieldAt b 45 1) (es.zip ps)).up (Core.restored (a.par 8 2) (slice buf 64 (64 + 32 * fieldAt buf 64 2)) es
        (BitVec.ofNat 40 (fieldAt b 24 5)) (restoreLbas b ps)) } := by
  have led : (m.loadEntries p (fieldAt b 45 1) (es.zip ps)).core.led = m.core.led :=
    (congrArg Core.led (Mach.loadEntries_stores ok (es.zip ps) (full_of_shards shards)).core :)
  have flags : ¬ ((decide (fieldAt b 45 1 = 2) && !bitOf (fieldAt buf 21 1) 0) = true) := by simpa using flagged
  rcases stopped with job | ⟨j, job, phase⟩
  all_goals
    simp only [restore, *, beq_self_eq_true, bne_self_eq_false,
      Bool.not_true, Bool.or_self, Bool.false_eq_true, if_false, Bool.false_or, Bool.true_and, Bool.and_true]
    simp only [map_mapIdx, tabulate_length, List.length_mapIdx, Bool.or_false, beq_self_eq_true, Bool.and_true]
    rw [foldl_zip_mapIdx (k := fun m x => m.putAt p x.1.curOff.toNat (restoredBytes (fieldAt b 45 1) x.1 x.2)) es ps
      fun i e here m pc => by simp [here, restoredBytes]]
    refine (if_neg ?_).trans ((if_neg ?_).trans ((if_pos ?_).trans ?_))
    · rw [Bool.not_eq_true', Bool.not_eq_false, List.all_eq_true]
      intro x mem
      obtain ⟨i, lt, rfl⟩ := List.mem_mapIdx.1 mem
      have here := List.getElem?_eq_getElem lt
      obtain ⟨sh, pc, entry, -, cls, extents, -⟩ := shards i es[i] here
      simp only [entry, here, cls, extents, beq_self_eq_true, Bool.and_self]
    · rw [Bool.not_eq_true', Bool.not_eq_false, List.all_eq_true]
      refine forall_mem_zip_mapIdx fun i e here pc read => ?_
      obtain ⟨sh, pc', entry, read', -, -, count, stored, digests, digest⟩ := shards i e here
      obtain rfl : pc = pc' := Option.some.inj (read.symm.trans read')
      have hashed : (pc.mapIdx fun k d => sha256 d == pieceDigest b sh (0 + k)).all id = true := by
        rw [List.all_eq_true]
        intro x mem
        obtain ⟨k, lt, rfl⟩ := List.mem_mapIdx.1 mem
        simp [(digests k _ (List.getElem?_eq_getElem lt)).2]
      simp only [entry, hashed, count, stored, digest, beq_self_eq_true, Bool.and_self]
    · show (Core.countLbas _ _).led.alone = true
      rw [Core.countLbas_led]
      exact (congrArg (fun l => l.alone) led).trans alone
    · rfl
end

end Sys2Proof.Machine
end

section
/-!
What the checkpoint commands answer (11 R381 to R405): RESTORE, and O52.
-/

namespace Sys2Proof.Machine

/-! ### What a restore that passes leaves -/

theorem Core.spool_restored (h : Nat) (sealBytes : List Byte) (es : List SealEnt) (step : StepNo) (lbas : Nat) {c : Core} (fresh : c.spool.restored = []) :
    (c.restored h sealBytes es step lbas).spool = { (c.countLbas lbas).spool with restored := [(h, sealBytes, some step)] } := by
  obtain ⟨x, f, l, counted⟩ := Core.countLbas_frame lbas c
  have kept : (c.countLbas lbas).spool.restored = [] := by rw [counted]; exact fresh
  show { (c.countLbas lbas).spool with restored := (c.countLbas lbas).spool.restored.filter (fun r : Nat × List Byte × Option StepNo => !(r.1 == h)) ++ [(h, sealBytes, some step)] } = _
  rw [kept]
  rfl

theorem Core.tens_restored (h : Nat) (sealBytes : List Byte) (es : List SealEnt) (step : StepNo) (lbas : Nat) (c : Core) :
    (c.restored h sealBytes es step lbas).tens = c.tens := by
  obtain ⟨x, f, l, counted⟩ := Core.countLbas_frame lbas c
  show (c.countLbas lbas).tens = _
  rw [counted]

theorem Core.job?_restored {h : Nat} {sealBytes : List Byte} {es : List SealEnt} {step : StepNo} {lbas : Nat} {c : Core} {j : Job}
    (job : (c.restored h sealBytes es step lbas).job? h = some j) : j.sealMap = es ∧ j.lastSealed = step ∧ j.sealedValid = true := by
  rw [Core.restored, Core.job?_modJob (f := Job.loaded es step) (hf := fun _ => rfl), Option.map_eq_some_iff] at job
  obtain ⟨i, -, rfl⟩ := job
  rw [if_pos rfl]
  exact ⟨rfl, rfl, rfl⟩

theorem Core.spool_reply (a : Accepted) (status : Nat) (detail : List Byte) (c : Core) : (c.reply a status detail).spool = c.spool := by
  obtain ⟨ts, os, reply⟩ := Core.reply_frame a status detail c
  rw [reply]

theorem Core.job?_reply (a : Accepted) (status : Nat) (detail : List Byte) (c : Core) (h : Nat) : (c.reply a status detail).job? h = c.job? h := by
  obtain ⟨ts, os, reply⟩ := Core.reply_frame a status detail c
  rw [reply]
  rfl

/-- A command that writes memory, and that is replied to at once. -/
theorem State.asks.run_ext {s : State} {op : Nat} {t : TenantId} {sq : Nat} {tag : BitVec 32} {a : Accepted} (asks : s.asks op t sq tag a) {data : List Byte}
    {eval : Ev → Accepted → Mach → CmdOut} {m : Mach} {P : Wr → Prop}
    (effect : eval { v := s.view, now := false, since := some s.core.clk.count.toNat } a (startMach s) = { m := m }) (ext : Mach.Ext P (startMach s) m) :
    runM (runCmd op t sq tag true data eval) s = .next { s with core := m.core.reply a 0 [], mem := m.mem } := by
  have answer : runCmd op t sq tag true data eval (startMach s) = m.up fun c => c.reply a 0 [] :=
    (asks.runCmd_eq true data eval).trans ((congrArg (CmdOut.answer a) effect).trans (CmdOut.answer_of_replied rfl))
  have reached := runM_ext (f := runCmd op t sq tag true data eval) (s := s) (P := P) (by rw [answer]; exact ext.then_up _)
  rw [reached, answer]
  rfl

/-- A machine that a restore has written holds what the restored core then keeps, and one extent put for the map's only entry (R402, R403). -/
theorem State.asks.restores {s : State} {t : TenantId} {sq : Nat} {tag : BitVec 32} {a : Accepted} (asks : s.asks 0x507 t sq tag a) {buf b : List Byte} {p : Plan}
    {es : List SealEnt} {ps : List (List (List Byte))} {step : StepNo} {eval : Ev → Accepted → Mach → CmdOut}
    (passes : eval { v := s.view, now := false, since := some s.core.clk.count.toNat } a (startMach s) =
      { m := ((startMach s).loadEntries p (fieldAt b 45 1) (es.zip ps)).up
          (Core.restored (a.par 8 2) (slice buf 64 (64 + 32 * fieldAt buf 64 2)) es step (restoreLbas b ps)) })
    (ok : s.core.sealMapOk p es = true) (full : ∀ x ∈ es.zip ps, x.1 ∈ es ∧ (restoredBytes (fieldAt b 45 1) x.1 x.2).length = 2 ^ 26 * x.1.extents)
    (fresh : s.core.spool.restored = []) : ∃ u k, runM (runCmd 0x507 t sq tag true [] eval) s = .next u ∧ u.pwr = s.pwr ∧
      u.core.spool = { (s.core.countLbas (restoreLbas b ps)).spool with restored := [(a.par 8 2, slice buf 64 (64 + 32 * fieldAt buf 64 2), some step)] } ∧
      Out.cqEntry a.tenant a.cq k (entryBytes a.tag.toNat 0 []) ∈ u.core.out ∧
      (∀ j, u.core.job? (a.par 8 2) = some j → j.sealMap = es ∧ j.lastSealed = step ∧ j.sealedValid = true) ∧
      (∀ x, ¬ s.core.inCur p es x → memByte u.mem x = memByte s.mem x) ∧
      u.mem = ((startMach s).loadEntries p (fieldAt b 45 1) (es.zip ps)).mem := by
  have stores := Mach.loadEntries_stores (m := startMach s) ok (es.zip ps) full
  generalize (startMach s).loadEntries p (fieldAt b 45 1) (es.zip ps) = m at passes stores ⊢
  have spool : m.core.spool = s.core.spool := (congrArg Core.spool stores.core :)
  have tens : m.core.tens = s.core.tens := (congrArg Core.tens stores.core :)
  have opened : (m.core.restored (a.par 8 2) (slice buf 64 (64 + 32 * fieldAt buf 64 2)) es step (restoreLbas b ps)).open? a.tenant.toNat a.cq = true := by
    rw [Core.open?_congr (c := s.core) (by rw [Core.ten_congr ((Core.tens_restored ..).trans tens)])]
    exact asks.queue
  obtain ⟨k, sent⟩ := Core.cqEntry_mem_out_reply opened 0 []
  refine ⟨_, k, asks.run_ext passes (stores.writes.then_up _), rfl, ?_, sent, fun j job => ?_, fun x outside => stores.byte outside, rfl⟩
  · refine (Core.spool_reply ..).trans ((Core.spool_restored _ _ _ _ _ (spool ▸ fresh)).trans ?_)
    rw [Core.countLbas_spool_congr spool]
  · exact Core.job?_restored ((Core.job?_reply ..).symm.trans job)

/-- A restore of one extent puts its piece there (R402). -/
theorem Mach.loadEntries_one {m : Mach} {p : Plan} {kind y : Nat} {e : SealEnt} {d : List Byte} (leads : m.core.extKeys p e.curOff.toNat 1 = [some y])
    (length : (restoredBytes kind e [d]).length = 2 ^ 26) {i : Nat} (lt : i < 2 ^ 26) :
    memByte (m.loadEntries p kind [(e, [d])]).mem (y + i) = (if kind = 2 ∧ e.cls = 0 then widenBytes d else d).getD i 0 := by
  show memByte (m.putAt p e.curOff.toNat (restoredBytes kind e [d])).mem (y + i) = _
  rw [Mach.putAt_one leads length, Mach.memByte_store y _ m (length ▸ lt), restoredBytes, List.flatten_cons, List.flatten_nil, List.append_nil]

/-! ### What an abandoned snapshot leaves -/

/-- SNAP_ABANDON gives the snapshot up for every module, and replies (R405). -/
theorem State.asks.abandons {s : State} {t : TenantId} {sq : Nat} {tag : BitVec 32} {a : Accepted} (asks : s.asks 0x506 t sq tag a)
    {eval : Ev → Accepted → Mach → CmdOut} {h cause : Nat} {step : StepNo} {n : BitVec 32}
    (effect : eval { v := s.view, now := false, since := some s.core.clk.count.toNat } a (startMach s) =
      { m := (startMach s).up (Core.snapFailAll h step n cause) }) :
    ∃ u k, runM (runCmd 0x506 t sq tag true [] eval) s = .next u ∧ u.mem = s.mem ∧ u.pwr = s.pwr ∧ u.core.slotOf h n = none ∧
      Out.vc7 0xFFFF 12 [h, n.toNat, cause] ∈ u.core.out ∧ u.core.spool.failed = satInc s.core.spool.failed ∧
      Out.cqEntry a.tenant a.cq k (entryBytes a.tag.toNat 0 []) ∈ u.core.out := by
  obtain ⟨k, sent⟩ := Core.cqEntry_mem_out_reply (Core.open?_snapFailAll (c := s.start) asks.queue h step n cause) 0 []
  have spool := Core.spool_reply a 0 [] (s.start.snapFailAll h step n cause)
  refine ⟨_, k, asks.run effect, rfl, rfl, ?_, Core.mem_out_reply (Core.told_snapFailAll ..) .., ?_, sent⟩
  · exact (Core.slotOf_congr (congrArg Spool.slots spool) h n).trans (Core.slotOf_snapFailAll ..)
  · exact (congrArg Spool.failed spool).trans (Core.failed_snapFailAll ..)

end Sys2Proof.Machine
end

section
/-!
O52: every checkpoint command, test by test.
-/

namespace Sys2Proof.Machine

/-- Settles O52: a command packet is evaluated against the lemma of its failing test, or of the effect that it has where every test passes. -/
theorem checkpointCommandsAnswer : Obligations.CheckpointCommandsAnswer := by
  unfold Obligations.CheckpointCommandsAnswer
  intro s t sq tag a
  refine ⟨fun asks => ⟨asks.unread _ _, fun b => ⟨fun unset => ?_, fun set malformed => ?_, fun set wellFormed => ?_⟩⟩, fun asks => ?_,
    fun asks => ⟨asks.unread _ _, fun b => ⟨fun noJob => ?_, fun p j job => ?_⟩⟩, fun asks => ⟨fun absent => ?_, fun p j y job snap => ?_⟩, fun asks => ?_,
    fun asks => ⟨fun absent => ?_, fun p j y i sl job snap slot writer => ?_⟩, fun asks => ⟨fun noPlan => ?_, fun p admitted own => ?_⟩,
    fun asks buf man reads => ⟨asks.unread _ _, fun noPlan => ?_, fun p admitted own => ⟨fun ⟨j, job, limit, fallback⟩ => ?_, fun phases => ?_⟩⟩⟩
  · exact asks.answers (ckptTargetSet_unset unset b) rfl rfl
  · exact asks.refuses (ckptTargetSet_malformed set malformed)
  · obtain ⟨x, l, connects, what, tenant, target⟩ := Core.setTarget_frame a b s.start
    have run := asks.waits (data := []) (eval := fun _ a m => ckptTargetSet a b m) (ckptTargetSet_wellFormed (m := startMach s) set wellFormed)
    rw [connects] at run
    exact ⟨_, x, l, run, rfl, rfl, rfl, what, tenant, target, List.mem_singleton_self _, lookup?_insertKey_self .., rfl⟩
  · exact asks.answers ckptKeySet_eq rfl rfl
  · exact asks.refuses ((evalOp_snapSchedule asks.opcode ..).trans (snapSchedule_of_noJob noJob))
  · have eval := fun e m => evalOp_snapSchedule asks.opcode e b m
    refine ⟨fun malformed => ?_, fun wellFormed lost => ?_, fun wellFormed connected manConnected => ⟨fun writer noKey => ?_, fun key => ?_⟩⟩
    · exact asks.refuses ((eval ..).trans (snapSchedule_malformed job malformed))
    · exact asks.refuses ((eval ..).trans (snapSchedule_unconnected job wellFormed lost))
    · exact asks.refuses ((eval ..).trans (snapSchedule_noKey job wellFormed connected manConnected writer noKey))
    · refine ⟨fun large => ?_, fun slot large => ?_, fun slot area busy => ?_, fun slot area idle => ?_⟩
      · exact asks.refuses ((eval ..).trans (snapSchedule_largeForSlot job wellFormed connected manConnected key large))
      · exact asks.refuses ((eval ..).trans (snapSchedule_largeForArea job wellFormed connected manConnected key slot large))
      · exact asks.refuses ((eval ..).trans (snapSchedule_restoring job wellFormed connected manConnected key slot area busy))
      · exact asks.answers ((eval ..).trans (snapSchedule_passes job wellFormed connected manConnected key slot area idle)) rfl rfl
  · exact asks.refuses (snapNow_of_none absent)
  · refine ⟨fun reader => ?_, fun writer busy => ?_, fun writer idle => ?_⟩
    · exact asks.refuses (snapNow_of_reader job snap reader)
    · exact asks.refuses (snapNow_of_restoring job snap writer busy)
    · have told := Core.mem_out_reply (Core.told_nameStep (a.par 8 2) (s.core.stepAfter p j) s.start) a 0 []
      exact ⟨_, asks.run (snapNow_passes (m := startMach s) job snap writer idle), State.answered_reply rfl rfl rfl
        (Core.nameStep_start ..) asks.queue, told⟩
  · exact asks.answers rfl rfl rfl
  · exact asks.refuses (snapAbandon_of_none absent)
  · refine ⟨fun writing => ?_, fun unwritten => ?_⟩
    · exact asks.refuses (snapAbandon_of_writing job snap slot writer writing)
    · exact asks.abandons (snapAbandon_passes (m := startMach s) job snap slot writer unwritten)
  · exact asks.refuses (snapQuery_of_noPlan noPlan)
  · exact asks.answers (f := id) (g := id) (snapQuery_of_plan (m := startMach s) admitted own) rfl rfl
  · exact asks.refuses (restore_of_noPlan noPlan)
  · exact asks.refuses (restore_of_running admitted job limit fallback)
  · have stopped : s.core.stopped (a.par 8 2) := Core.stopped_of_phases phases
    refine ⟨fun unknown => ?_, fun known unconnected => ?_, fun known connected => ⟨fun noKey => ?_, fun key keyed => ⟨fun bad => ?_, fun es sealMap =>
      ⟨fun noManifest => ?_, fun b read => ?_⟩⟩⟩⟩
    · exact asks.refuses (restore_unknownTarget admitted own stopped unknown)
    · exact asks.refuses (restore_unconnected admitted own stopped (Option.isNone_eq_false_iff.2 known) unconnected)
    · exact asks.refuses (restore_noKey admitted own stopped (Option.isNone_eq_false_iff.2 known) connected noKey)
    · exact asks.refuses (restore_badSealMap admitted own stopped (Option.isNone_eq_false_iff.2 known) connected keyed bad)
    · subst noManifest
      exact asks.refuses (restore_noManifest admitted own stopped (Option.isNone_eq_false_iff.2 known) connected keyed sealMap)
    · subst read
      replace known := Option.isNone_eq_false_iff.2 known
      refine ⟨fun invalid => ?_, fun valid => ⟨fun isExport unflagged => ?_, fun flagged sameShape misfit => ?_, ?_⟩⟩
      · exact asks.refuses (restore_invalidManifest admitted own stopped known connected keyed sealMap invalid)
      · exact asks.refuses (restore_export admitted own stopped known connected keyed sealMap valid isExport unflagged)
      · exact asks.refuses (restore_misfit admitted own stopped known connected keyed sealMap valid flagged sameShape misfit)
      · intro flagged sameShape sameModules sameSlice ok idle fresh alone ps read all shards
        subst read
        have passes := restore_passes (m := startMach s) admitted own stopped known connected keyed sealMap valid flagged sameShape sameModules sameSlice ok idle alone all shards
        obtain ⟨u, k, run, pwr, spool, sent, job, outside, mem⟩ := asks.restores (buf := buf) (b := b) (eval := fun _ a m => restore a buf (some b) (some ps) m)
          passes ok (full_of_shards shards) fresh
        refine ⟨u, k, run, pwr, spool, sent, job, fun x out => outside x ?_, fun e d y one single leads i lt => ?_⟩
        · rintro ⟨e, here, y, extent, inside⟩
          exact out e here y extent inside
        · subst one single
          have length := (full_of_shards shards (e, [d]) List.mem_cons_self).2
          obtain ⟨sh, pc, -, here, -, -, count, -⟩ := shards 0 e rfl
          obtain rfl : [d] = pc := Option.some.inj here
          rw [mem]
          exact Mach.loadEntries_one (m := startMach s) leads (by rw [length, ← count]; rfl) lt

end Sys2Proof.Machine
end

section
/-!
How a snapshot ends on a module (11 R396, R401): failures, reports to the manifest writer, the manifest, and completion.
-/

namespace Sys2Proof.Machine

/-! ### Notices -/

section
variable {c : Core} {h i : Nat} {n : BitVec 32} {sl : SnapSlot} (slot : c.slotOf h n = some (i, sl))
include slot

theorem snapFailureNotice_of_reader (reader : c.isWriter h sl.block = false) (cause : Nat) : snapFailureNotice h n cause c = c.snapLose h n := by
  simp only [snapFailureNotice, slot, reader, Bool.false_eq_true, if_false]
  rfl

theorem snapFailureNotice_of_writer (writer : c.isWriter h sl.block = true) (cause : Nat) :
    snapFailureNotice h n cause c = c.snapFailAll h sl.step n cause := by
  simp only [snapFailureNotice, slot, writer, if_true]

/-- The last complete snapshot of a job kept (R396). -/
def Core.keepLast (h : Nat) (n : BitVec 32) (step : StepNo) (c : Core) : Core := c.modSnap h fun s => { s with last := some (n, step) }

theorem snapComplete_of_flushed (flushed : sl.phase = .flushed) (step : StepNo) : c.snapComplete h n step = (c.keepLast h n step).snapFree h n := by
  have kept : (c.keepLast h n step).slotOf h n = some (i, sl) := (Core.slotOf_congr rfl h n).trans slot
  rw [Core.keepLast] at kept
  simp only [Core.snapComplete, Core.keepLast, kept, flushed, beq_self_eq_true, if_true]

theorem snapComplete_of_draining (draining : sl.phase ≠ .flushed) (step : StepNo) :
    c.snapComplete h n step = (c.keepLast h n step).modSlot i fun s => { s with complete := true } := by
  have kept : (c.keepLast h n step).slotOf h n = some (i, sl) := (Core.slotOf_congr rfl h n).trans slot
  rw [Core.keepLast] at kept
  simp only [Core.snapComplete, Core.keepLast, kept, beq_iff_eq, draining, if_false]

end

theorem Core.snapJob?_modSnap {c : Core} {h : Nat} {f : SnapJob → SnapJob} (plan : ∀ s, (f s).plan = s.plan) : (c.modSnap h f).snapJob? h = (c.snapJob? h).map f := by
  show (c.spool.jobs.map fun s => if s.plan == h then f s else s).find? _ = _
  rw [List.find?_map, Core.snapJob?]
  have same : ((fun s : SnapJob => s.plan == h) ∘ fun s => if s.plan == h then f s else s) = fun s => s.plan == h := by
    funext s
    by_cases here : s.plan = h <;> simp [here, plan]
  rw [same]
  cases found : c.spool.jobs.find? fun s => s.plan == h with
  | none => rfl
  | some s =>
    have here : s.plan = h := by simpa using List.find?_some found
    simp [here]

theorem Core.last_keepLast {c : Core} {h : Nat} {n : BitVec 32} {step : StepNo} {z : SnapJob} (job : (c.keepLast h n step).snapJob? h = some z) :
    z.last = some (n, step) := by
  rw [Core.keepLast, Core.snapJob?_modSnap (f := fun s => { s with last := some (n, step) }) fun _ => rfl, Option.map_eq_some_iff] at job
  obtain ⟨s, -, rfl⟩ := job
  rfl

/-! ### The manifest writer -/

section
variable {c : Core} {h : Nat} {n : BitVec 32} {r : ManifestRun} (run : c.spool.manifests.find? (fun r => r.plan == h && r.seq == n) = some r)
include run

theorem manifestTimeout_of_writing (writing : r.writing.isSome = true) : manifestTimeout h n c = c := by
  simp only [manifestTimeout, run, writing, if_true]

theorem manifestTimeout_of_waiting (waiting : r.writing = none) : manifestTimeout h n c = c.snapFailAll h r.step n 5 := by
  simp only [manifestTimeout, run, waiting, Option.isSome_none, Bool.false_eq_true, if_false]

variable {j : Job} {p : Plan} {i : Nat} {sl : SnapSlot} (job : c.job? h = some j) (admitted : c.plan? h = some p) (slot : c.slotOf h n = some (i, sl))
include job admitted slot

theorem takeReport_of_writing (writing : r.writing.isSome = true) (rep : StripeRep) : c.takeReport h n rep = c := by
  simp only [Core.takeReport, job, admitted, slot, run, writing, Bool.true_or, if_true]

theorem takeReport_of_known {rep : StripeRep} (known : ∃ x ∈ r.reports, x.writer = rep.writer ∧ x.entry = rep.entry) : c.takeReport h n rep = c := by
  have here : r.reports.any (fun q => q.writer == rep.writer && q.entry == rep.entry) = true := by simpa using known
  simp only [Core.takeReport, job, admitted, slot, run, here, Bool.or_true, if_true]

/-- The reports of a snapshot kept (R396). -/
def Core.putRun (h : Nat) (n : BitVec 32) (r : ManifestRun) (c : Core) : Core :=
  c.modSpool fun q => { q with manifests := q.manifests.filter (fun y => !(y.plan == h && y.seq == n)) ++ [r] }

variable {rep : StripeRep} (waiting : r.writing = none) (fresh : ∀ x ∈ r.reports, ¬ (x.writer = rep.writer ∧ x.entry = rep.entry))
include waiting fresh

theorem takeReport_of_uncovered (uncovered : covered p.hdr.modCount j.sealMap.length (r.reports ++ [rep]) = false) :
    c.takeReport h n rep = c.putRun h n { r with reports := r.reports ++ [rep] } := by
  have new : r.reports.any (fun q => q.writer == rep.writer && q.entry == rep.entry) = false := by simpa using fresh
  simp only [Core.takeReport, job, admitted, slot, run, waiting, new, uncovered, Option.isSome_none, Bool.or_self, Bool.false_eq_true, Bool.not_false, if_false,
    if_true]
  rfl

/-- The manifest that the last report makes (R397). -/
def Core.manifestOf (c : Core) (p : Plan) (j : Job) (block : List Byte) (r : ManifestRun) : List Byte :=
  c.manifest p j block ((lookup? (j.tenant, fieldAt block 11 1) c.spool.keys).getD (List.replicate 32 0)) r

/-- With the last report the snapshot fails, or its manifest is formed and its write begins (R396, R397). -/
theorem takeReport_of_covered (all : covered p.hdr.modCount j.sealMap.length (r.reports ++ [rep]) = true) :
    (∃ cause, c.takeReport h n rep = c.snapFailAll h sl.step n cause) ∨
    ∃ z, z = { r with reports := r.reports ++ [rep], writing := some (c.manifestOf p j sl.block { r with reports := r.reports ++ [rep] }) } ∧
      c.takeReport h n rep = (c.putRun h n z).manifestIo j sl.block z 0 := by
  have new : r.reports.any (fun q => q.writer == rep.writer && q.entry == rep.entry) = false := by simpa using fresh
  simp only [Core.takeReport, job, admitted, slot, run, waiting, new, all, Option.isSome_none, Bool.or_self, Bool.false_eq_true, Bool.not_true, if_false]
  split
  · exact .inl ⟨4, rfl⟩
  · split
    · exact .inl ⟨8, rfl⟩
    · refine .inr ⟨_, rfl, ?_⟩
      simp only [Core.manifestOf, Core.putRun]

end

/-- A manifest ends with its trailer. -/
theorem Core.manifestOf_ne_nil (c : Core) (p : Plan) (j : Job) (block : List Byte) (r : ManifestRun) : c.manifestOf p j block r ≠ [] := by
  unfold Core.manifestOf Core.manifest
  exact List.append_ne_nil_of_right_ne_nil _ (by simp)

/-- The first command of a manifest's write (R397). -/
theorem Core.manifestIo_frame {z : ManifestRun} {bytes : List Byte} (writing : z.writing = some bytes) (nonempty : bytes ≠ []) (j : Job) (block : List Byte) (c : Core) :
    ∃ io k l, c.manifestIo j block z 0 = { c with spool := { c.spool with io := io, nextIo := k }, out := c.out ++ [.nvme (snapManTarget block) 1 l] } := by
  have begun : 0 < ceilDiv (z.writing.getD []).length 4096 := by
    have : 0 < bytes.length := List.length_pos_iff.2 nonempty
    rw [writing, Option.getD_some, ceilDiv]
    omega
  unfold Core.manifestIo
  dsimp only
  rw [if_pos begun]
  exact ⟨_, _, _, rfl⟩

end Sys2Proof.Machine
end

section
/-!
The drain to the file store and its NVMe commands (11 R393 to R396).
-/

namespace Sys2Proof.Machine

/-! ### Outputs one after another -/

/-- Steps that each send one thing, and change nothing else, send them in order. -/
theorem Core.foldl_sends {α : Type} {g : Core → α → Core} {o : α → Out} {c : Core} (each : ∀ os x, g { c with out := os } x = { c with out := os ++ [o x] })
    (l : List α) (os : List Out) : l.foldl g { c with out := os } = { c with out := os ++ l.map o } := by
  induction l generalizing os with
  | nil => rw [List.foldl_nil, List.map_nil, List.append_nil]
  | cons x rest ih => rw [List.foldl_cons, each, ih, List.map_cons, ← List.append_cons]

theorem Mach.foldl_up {α : Type} (g : Core → α → Core) (l : List α) (m : Mach) : l.foldl (fun m x => m.up fun c => g c x) m = m.up fun c => l.foldl g c := by
  induction l generalizing m with
  | nil => rfl
  | cons x rest ih => rw [List.foldl_cons, ih, Mach.up_up]; rfl

/-! ### Stripe reports -/

/-- The report of a stripe as it is sent to the manifest writer (R396). -/
def Core.reportOf (c : Core) (h : Nat) (n : BitVec 32) (p : Plan) (b : List Byte) (r : StripeRep) : Out :=
  .vc7 (c.physOf p (snapWriter b)) 10 (h :: n.toNat :: r.entry :: (r.bytes ++ r.digests.flatten).map BitVec.toNat)

/-- On a module that does not write the manifests a drained snapshot's slot becomes flushed and the report of every stripe is sent (R396). -/
theorem stripeFlushed_of_reader {m : Mach} {h i : Nat} {n : BitVec 32} {j : Job} {p : Plan} {sl : SnapSlot} (job : m.core.job? h = some j)
    (admitted : m.core.plan? h = some p) (slot : m.core.slotOf h n = some (i, sl)) (draining : sl.phase = .draining) (drained : sl.done = sl.stripes.length)
    (incomplete : sl.complete = false) (reader : m.core.isWriter h sl.block = false) : stripeFlushed h n m = m.up fun c =>
      { c.modSlot i (fun s => { s with phase := .flushed }) with
        out := c.out ++ (sl.stripes.map fun r => { r with digests := m.stripeDigests i j (snapKind sl.block) r }).map (m.core.reportOf h n p sl.block) } := by
  have isDraining : (sl.phase == .draining) = true := by rw [draining]; rfl
  simp only [stripeFlushed, job, admitted, slot, isDraining, drained, incomplete, beq_self_eq_true, Bool.and_self, Bool.false_eq_true, if_false, if_true]
  rw [Mach.foldl_up, Mach.up_up]
  refine congrArg (fun c => ({ m with core := c } : Mach)) ?_
  refine Core.foldl_sends (c := m.core.modSlot i fun s => { s with phase := .flushed }) (fun os r => ?_) _ m.core.out
  exact if_neg (ne_true_of_eq_false reader)

/-! ### NVMe commands that complete -/

/-- A command that has succeeded taken off the list, and its LBAs counted (R394, R409). -/
def Core.ioTaken (x : IoCmd) (c : Core) : Core :=
  (c.modSpool fun q => { q with io := q.io.filter fun y => !(y.id == x.id) }).countLbas (if x.op = 1 then x.lbas else 0)

theorem Core.ioTaken_frame (x : IoCmd) (c : Core) : ∃ k f l, c.ioTaken x =
    { c with spool := { c.spool with io := c.spool.io.filter (fun y => !(y.id == x.id)), lbas := k, lbasOvf := f }, log := l } := by
  obtain ⟨k, f, l, counted⟩ := Core.countLbas_frame (if x.op = 1 then x.lbas else 0) (c.modSpool fun q => { q with io := q.io.filter fun y => !(y.id == x.id) })
  exact ⟨k, f, l, counted⟩

/-- A command sent again after an error, on the other storage port where the target allows that (R394). -/
def Core.retryOf (c : Core) (x : IoCmd) : IoCmd := { x with retries := x.retries + 1, port := (c.targetOf x.tenant x.target).other x.port }

/-- A command counted as retried, and its capsule sent again (R394). -/
def Core.retry (x : IoCmd) (c : Core) : Core :=
  (c.modSpool fun q => { q with io := q.io.map (fun z => if z.id == x.id then c.retryOf x else z), retries := satInc q.retries }).sendIo (c.retryOf x)

section
variable {m : Mach} {x : IoCmd} (listed : m.core.spool.io.find? (fun z => z.id == x.id) = some x)
include listed

theorem nvmeCompletion_of_success (lim : Nat) : nvmeCompletion x.id true lim [] m = (m.up (Core.ioTaken x)).ioDone x lim := by
  simp only [nvmeCompletion, listed]
  rfl

theorem nvmeCompletion_of_error (left : x.retries < 3) (lim : Nat) : nvmeCompletion x.id false lim [] m = m.up (Core.retry x) := by
  simp only [nvmeCompletion, listed, left, Bool.false_eq_true, if_false, if_true]
  rfl

theorem nvmeCompletion_of_last_error (spent : 3 ≤ x.retries) (lim : Nat) : nvmeCompletion x.id false lim [] m =
    m.up fun c => (c.modSpool fun q => { q with io := q.io.filter fun y => !(y.id == x.id) }).ioFailed x := by
  simp only [nvmeCompletion, listed, spent.not_gt, Bool.false_eq_true, if_false]

end

/-- A stripe not yet written goes on behind the LBAs of the command that has ended (R395). -/
theorem ioDone_of_stripe {m : Mach} {x : IoCmd} {k i : Nat} {sl : SnapSlot} {r : StripeRep} (what : x.what = .stripe k)
    (slot : m.core.slotOf x.plan x.seq = some (i, sl)) (stripe : sl.stripes[k]? = some r)
    (left : x.lba + x.lbas < r.lba + r.count * (pieceBytes (snapKind sl.block) r.cls / 4096)) (lim : Nat) :
    ∃ y, y.what = .stripe k ∧ y.lba = x.lba + x.lbas ∧ y.retries = 0 ∧ m.ioDone x lim = m.up (Core.issueIo y) := by
  simp only [Mach.ioDone, what, slot, stripe, left, if_true]
  exact ⟨_, rfl, rfl, rfl, rfl⟩

theorem ioDone_of_connect {m : Mach} {x : IoCmd} (what : x.what = .connect) (lim : Nat) : m.ioDone x lim = m.up (Core.connected x.tenant x.target lim) := by
  simp only [Mach.ioDone, what]

/-- What sending capsules again leaves of the spool. -/
theorem Core.spool_foldl_sendIo (l : List IoCmd) (c : Core) : (l.foldl (fun c x => c.sendIo x) c).spool = c.spool :=
  foldl_leaves Core.spool (f := fun c x => c.sendIo x) (fun _ _ => rfl) l c

/-- The connection of a target made, or refused, with what it keeps of it (R393). -/
def Core.linkTarget (t : TenantId) (i lim : Nat) (g : Target) (c : Core) : Core :=
  c.modSpool fun q => { q with targets := insertKey (t, i) { g with connected := decide (16 ≤ lim), maxLbas := min lim 256, waiting := none } q.targets }

theorem Core.spool_connected {c : Core} {t : TenantId} {i : Nat} {g : Target} (known : lookup? (t, i) c.spool.targets = some g) (lim : Nat) :
    (c.connected t i lim).spool = (c.linkTarget t i lim g).spool := by
  simp only [Core.connected, known, Core.linkTarget]
  generalize Core.modSpool _ c = d
  cases g.waiting
  all_goals
    split
    · simp only [Core.spool_foldl_sendIo, Core.spool_reply]
    · simp only [Core.spool_reply]

/-! ### Connections -/

section
variable {c : Core} {t : TenantId} {i : Nat} {g : Target} (known : lookup? (t, i) c.spool.targets = some g)
include known

theorem connectionLost_of_unconnected (unconnected : g.connected = false) : connectionLost t i c = c := by
  simp only [connectionLost, known, unconnected, Bool.false_eq_true, if_false]

theorem connectionLost_of_connected (connected : g.connected = true) : connectionLost t i c =
    (c.modSpool fun q => { q with targets := insertKey (t, i) { g with connected := false } q.targets }).connect t i := by
  simp only [connectionLost, known, connected, if_true]

theorem unconnected_of_connected (connected : g.connected = true) : unconnected t i c = c := by
  simp only [unconnected, known, connected, if_true]

/-- A target that no snapshot in progress and no zeroing of a manifest slot uses stays unconnected without effect (R394). -/
theorem unconnected_of_unused (lost : g.connected = false)
    (unused : ∀ k sl, c.spool.slots.getD k none = some sl → snapManTarget sl.block ≠ i ∧ ∀ r ∈ sl.stripes, r.target ≠ i)
    (idle : ∀ x ∈ c.spool.io, x.tenant = t → x.target = i → x.what ≠ .zeroLba ∧ x.what ≠ .zeroFlush) : unconnected t i c = c := by
  have noZeroing : (c.spool.io.filter fun x => x.tenant == t && x.target == i && (x.what == .zeroLba || x.what == .zeroFlush)) = [] := by
    rw [List.filter_eq_nil_iff]
    intro x mem uses
    simp only [Bool.and_eq_true, Bool.or_eq_true, beq_iff_eq] at uses
    obtain ⟨⟨tenant, target⟩, what⟩ := uses
    have neither := idle x mem tenant target
    exact what.elim neither.1 neither.2
  simp only [unconnected, known, lost, Bool.false_eq_true, if_false, noZeroing, List.foldl_nil]
  rw [List.filterMap_eq_nil_iff.2 ?_]
  · rfl
  intro o here
  cases o with
  | none => rfl
  | some sl =>
    obtain ⟨k, lt, at_k⟩ := List.mem_iff_getElem.1 here
    obtain ⟨man, stripes⟩ := unused k sl (by rw [List.getD_eq_getElem?_getD, List.getElem?_eq_getElem lt, at_k]; rfl)
    have noMan : (snapManTarget sl.block == i) = false := by simpa using man
    have noStripe : (sl.stripes.any fun r => r.target == i) = false := by simpa using stripes
    simp only [Option.bind_some, noMan, noStripe, Bool.and_false, Bool.or_self, Bool.false_eq_true, if_false]
    split <;> rfl

theorem connectTimeout_of_none (answered : g.waiting = none) : connectTimeout t i c = c := by
  simp only [connectTimeout, known, answered]

theorem connectTimeout_of_waiting {a : Accepted} (waiting : g.waiting = some a) : connectTimeout t i c =
    (c.modSpool fun q =>
      { q with targets := eraseKey (t, i) q.targets, io := q.io.filter (fun x => !(x.what == .connect && x.tenant == t && x.target == i)) }).reply a 0x501 [] := by
  simp only [connectTimeout, known, waiting]

end

end Sys2Proof.Machine
end

section
/-!
The snapshot vote (11 R384): what its end leaves of the slots.
-/

namespace Sys2Proof.Machine

/-! ### The operation that carries the vote -/

theorem Core.spool_countOps (l n : Nat) (c : Core) : (c.countOps l n).spool = c.spool := by
  unfold Core.countOps
  dsimp only
  generalize (_ && !(c.ld l).opsOvf) = newly
  obtain ⟨g, event⟩ := Core.counterEvent_frame 3 newly 5 l 0x210 (c.modLd l fun q =>
    { q with ops := satAdd q.ops n, opsOvf := q.opsOvf || (satOvf (c.ld l).ops n || (c.ld l).ops.toNat + n == 2 ^ 48 - 1) })
  rw [event]
  rfl

theorem Core.spool_addRec (j : Job) (lp : Nat) (b : HBody) (c : Core) : (c.addRec j lp b).spool = c.spool := by
  unfold Core.addRec
  split <;> rfl

/-- An operation that no mailbox waits for ends without a change of the spool (09 R314). -/
theorem finishKite_spool {m : Mach} {o : KiteOp} (own : o.submitter ≠ 3) (idle : m.core.fab.kiteQueue = []) (p : Plan) :
    ∃ d, d.spool = m.core.spool ∧ finishKite p o m = { m with core := d } := by
  have leaves : ∀ c : Core, c.fab.kiteQueue = [] → c.spool = m.core.spool →
      ∃ d, d.spool = m.core.spool ∧ ({ m with core := c } : Mach).up (fun c => (c.modFab fun q => { q with kite := q.kite.erase o }).kiteDequeue o.plan o.group) =
        { m with core := d } := fun c idle same =>
    ⟨c.modFab fun q => { q with kite := q.kite.erase o }, same,
      congrArg (fun c => ({ m with core := c } : Mach)) (Core.kiteDequeue_of_idle (by exact idle) _ _)⟩
  simp only [finishKite, own, if_false]
  split
  · split
    · exact leaves m.core idle rfl
    · exact leaves _ ((Core.countOps_frame ..).2.2.trans ((congrArg Fabric.kiteQueue (Core.addRec_fab ..)).trans idle))
        ((Core.spool_countOps ..).trans (Core.spool_addRec ..))
  · exact leaves m.core idle rfl

/-- A vote ends with its result, or without one where it has ended in error (R384). -/
theorem Mach.voteEnd_spool {m : Mach} {h seq : Nat} {p : Plan} {o : KiteOp} (admitted : m.core.plan? h = some p) (vote : m.core.voteOp h seq = some o)
    (own : o.submitter ≠ 3) (unanswered : o.result = none) (good : o.error = false) (idle : m.core.fab.kiteQueue = []) (res : List Byte) (err : Bool) :
    ∃ d, d.spool = m.core.spool ∧ m.voteEnd h seq res err = (some (if err then none else some (padTo 64 res)), { m with core := d }) := by
  have ends : ∀ o' : KiteOp, o'.submitter ≠ 3 → ∃ d, d.spool = m.core.spool ∧ finishKite p o' (m.up (Core.putKite o')) = { m with core := d } := fun o' own' =>
    finishKite_spool (m := m.up (Core.putKite o')) own' (by exact idle) p
  simp only [Mach.voteEnd, admitted, vote, unanswered, good, Bool.false_or, Option.getD_none]
  obtain ⟨d, same, ended⟩ := ends { o with error := err, result := if err then none else some (padTo 64 res) } own
  exact ⟨d, same, by rw [ended]⟩

/-! ### Its outcome -/

/-- The lowest slot with a property. -/
theorem find?_lowest {l : List (Option SnapSlot)} {P : Option SnapSlot → Bool} {i : Nat} (lt : i < 2) (here : P (l.getD i none) = true)
    (lowest : i = 1 → P (l.getD 0 none) = false) : (List.range 2).find? (fun k => P (l.getD k none)) = some i := by
  have range : List.range 2 = [0, 1] := rfl
  obtain rfl | rfl : i = 0 ∨ i = 1 := by omega
  · rw [range, List.find?_cons_of_pos (by exact here)]
  · rw [range, List.find?_cons_of_neg (by exact ne_true_of_eq_false (lowest rfl)), List.find?_cons_of_pos (by exact here)]

section
variable {m : Mach} {h : Nat} {j : Job} {p : Plan} {s : SnapJob} {o : KiteOp} {step : StepNo} (job : m.core.job? h = some j) (admitted : m.core.plan? h = some p)
  (snap : m.core.snapJob? h = some s) (voted : s.voted = some step) (vote : m.core.voteOp h 0x3FFE = some o) (own : o.submitter ≠ 3) (unanswered : o.result = none)
  (good : o.error = false) (idle : m.core.fab.kiteQueue = [])
include job admitted snap voted vote own unanswered good idle

/-- A consistent result with lane 0 at 0 takes the snapshot into the lowest free slot (R384, R385). -/
theorem snapVoteResult_takes {res : List Byte} {i : Nat} (free : (List.range 2).find? (fun k => (m.core.spool.slots.getD k none).isNone) = some i)
    (clean : (laneAgree (padTo 64 res) 1 && laneAgree (padTo 64 res) 3 && laneAgree (padTo 64 res) 5 && lane (padTo 64 res) 0 == 0 &&
      lane (padTo 64 res) 1 == step.toNat && lane (padTo 64 res) 3 == fieldAt s.block 252 4 && lane (padTo 64 res) 5 == s.seq.toNat) = true) :
    ∃ c sl, snapVoteResult h res false m = { m with core := c } ∧ c.spool.slots = m.core.spool.slots.set i (some sl) ∧ sl.plan = h ∧ sl.step = step ∧
      sl.seq = s.seq ∧ sl.block = s.block ∧ sl.phase = .copying ∧ sl.done = 0 := by
  obtain ⟨d, same, ended⟩ := Mach.voteEnd_spool admitted vote own unanswered good idle res false
  have stillFree : ∀ f, (List.range 2).find? (fun k => ((d.modSnap h f).spool.slots.getD k none).isNone) = some i := fun f => by
    show (List.range 2).find? (fun k => (d.spool.slots.getD k none).isNone) = some i
    rw [same, free]
  simp only [snapVoteResult, job, admitted, snap, voted, ended, Bool.false_eq_true, if_false, clean, if_true, Mach.up, stillFree]
  refine ⟨_, { plan := h, step := step, seq := s.seq, block := s.block, at_ := d.clk.count, stripes := d.snapStripes p j s }, rfl, ?_⟩
  rw [← same]
  exact ⟨rfl, rfl, rfl, rfl, rfl, rfl, rfl⟩

/-- Anything else skips it: no slot changes, and the skip is counted (R384). -/
theorem snapVoteResult_skips {res : List Byte} {err : Bool}
    (unclean : err = false → (laneAgree (padTo 64 res) 1 && laneAgree (padTo 64 res) 3 && laneAgree (padTo 64 res) 5 && lane (padTo 64 res) 0 == 0 &&
      lane (padTo 64 res) 1 == step.toNat && lane (padTo 64 res) 3 == fieldAt s.block 252 4 && lane (padTo 64 res) 5 == s.seq.toNat) = false) :
    ∃ c, snapVoteResult h res err m = { m with core := c } ∧ c.spool.slots = m.core.spool.slots ∧ c.spool.skipped = satInc m.core.spool.skipped := by
  obtain ⟨d, same, ended⟩ := Mach.voteEnd_spool admitted vote own unanswered good idle res err
  have skips : ∀ f t st dt, (((d.modSnap h f).unsolicited t st dt).modSpool fun q => { q with skipped := satInc q.skipped }).spool.slots = m.core.spool.slots ∧
      (((d.modSnap h f).unsolicited t st dt).modSpool fun q => { q with skipped := satInc q.skipped }).spool.skipped = satInc m.core.spool.skipped := by
    intro f t st dt
    have posted := Core.unsolicited_spool t st dt (d.modSnap h f)
    rw [← same]
    exact ⟨(congrArg Spool.slots posted :), (congrArg (fun q : Spool => satInc q.skipped) posted :)⟩
  simp only [snapVoteResult, job, admitted, snap, voted, ended, Mach.up]
  refine ⟨_, rfl, ?_⟩
  split
  · rw [if_neg]
    · exact skips ..
    · cases err
      · simpa using unclean rfl
      · simp
  · exact skips ..

end

end Sys2Proof.Machine
end

section
/-!
The copy into a snapshot slot (11 R385 to R388): where a slot's bytes lie, and what the copy writes.
-/

namespace Sys2Proof.Machine

/-! ### Where a slot's bytes lie -/

/-- A slot runs through its halves, each a whole number of half extents, in stack order (R385). -/
theorem Core.slotKey_eq {c : Core} (region : 0 < c.ident.snapExt) (slot o : Nat) : c.slotKey slot o = hbmKey (o / 2 ^ 25 / c.ident.snapExt)
    ((988 - c.ident.hamperExt - c.ident.mirrorExt - c.ident.snapExt) * 2 ^ 26 + slot * (c.ident.snapExt * 2 ^ 25) +
      (o % 2 ^ 25 + 2 ^ 25 * (o / 2 ^ 25 % c.ident.snapExt))) := by
  have per : max (c.ident.snapExt * 2 ^ 25) 1 = 2 ^ 25 * c.ident.snapExt := by omega
  simp only [Core.slotKey]
  rw [per, ← Nat.div_div_eq_div_mul, Nat.mod_mul]

/-- Bytes of one half extent of a slot lie one after another. -/
theorem Core.slotKey_add {c : Core} (region : 0 < c.ident.snapExt) (slot : Nat) {off b : Nat} (same : off % 2 ^ 25 + b < 2 ^ 25) :
    c.slotKey slot (off + b) = c.slotKey slot off + b := by
  have quot : (off + b) / 2 ^ 25 = off / 2 ^ 25 := by omega
  have rem : (off + b) % 2 ^ 25 = off % 2 ^ 25 + b := by omega
  rw [Core.slotKey_eq region, Core.slotKey_eq region, quot, rem, hbmKey, hbmKey]
  omega

/-- The second half extent of a slot begins behind the first. -/
theorem Core.slotKey_second {c : Core} (region : 0 < c.ident.snapExt) (slot : Nat) : c.slotKey slot 0 + 2 ^ 25 ≤ c.slotKey slot (2 ^ 25) := by
  rw [Core.slotKey_eq region, Core.slotKey_eq region, hbmKey, hbmKey]
  rcases Nat.lt_or_ge 1 c.ident.snapExt with large | small
  · rw [Nat.div_self (by norm_num), Nat.mod_eq_of_lt large]
    simp only [Nat.zero_div, Nat.zero_mod]
    omega
  · rw [Nat.le_antisymm small region]
    omega

/-! ### Where an entry's bytes lie in a slot -/

theorem sumNat_eq_sum (l : List Nat) : sumNat l = l.sum := List.sum_eq_foldl.symm

theorem storedBytes_cons (kind : Nat) (e : SealEnt) (es : List SealEnt) :
    storedBytes kind (e :: es) = e.extents * pieceBytes kind e.cls + storedBytes kind es := by
  simp only [storedBytes, sumNat_eq_sum, List.map_cons, List.sum_cons]

/-- The stored bytes of an entry end inside the seal map's. -/
theorem entryOff_add_le {kind i : Nat} {es : List SealEnt} {e : SealEnt} (here : es[i]? = some e) :
    entryOff kind es i + e.extents * pieceBytes kind e.cls ≤ storedBytes kind es := by
  induction es generalizing i with
  | nil => exact absurd here nofun
  | cons f rest ih =>
    cases i with
    | zero =>
      obtain rfl : f = e := Option.some.inj here
      rw [storedBytes_cons]
      exact (Nat.zero_add _).trans_le (Nat.le_add_right _ _)
    | succ i =>
      have before : entryOff kind (f :: rest) (i + 1) = f.extents * pieceBytes kind f.cls + entryOff kind rest i := storedBytes_cons ..
      have bound := ih here
      rw [storedBytes_cons, before]
      omega

theorem pieceBytes_cases (kind cls : Nat) : (kind = 2 ∧ cls = 0 ∧ pieceBytes kind cls = 2 ^ 25) ∨ (¬ (kind = 2 ∧ cls = 0) ∧ pieceBytes kind cls = 2 ^ 26) := by
  unfold pieceBytes
  by_cases export_ : kind = 2 ∧ cls = 0
  · exact .inl ⟨export_.1, export_.2, by simp [export_]⟩
  · exact .inr ⟨export_, by simp [export_]⟩

theorem dvd_pieceBytes (kind cls : Nat) : 2 ^ 25 ∣ pieceBytes kind cls := by
  rcases pieceBytes_cases kind cls with ⟨-, -, bytes⟩ | ⟨-, bytes⟩ <;> omega

theorem dvd_storedBytes (kind : Nat) (es : List SealEnt) : 2 ^ 25 ∣ storedBytes kind es := by
  induction es with
  | nil => exact Nat.dvd_zero _
  | cons e rest ih =>
    rw [storedBytes_cons]
    exact Nat.dvd_add (Nat.dvd_mul_left_of_dvd (dvd_pieceBytes ..) _) ih

/-! ### Copies -/

/-- The keys of a snapshot slot. -/
def Core.inSlot (c : Core) (slot a : Nat) : Prop := ∃ o < c.slotBytes, a = c.slotKey slot o

theorem Core.inSlot_congr {c d : Core} (same : d.unlined = c.unlined) : d.inSlot = c.inSlot := by
  have ident : d.ident = c.ident := (congrArg Core.ident same :)
  funext slot a
  simp only [Core.inSlot, Core.slotBytes, Core.slotKey, ident]

theorem length_exportBytes {bs : List Byte} {n : Nat} (length : bs.length = 4 * n) : (exportBytes bs).length = 2 * n := by
  rw [exportBytes, chunks_eq (by norm_num) bs length, List.length_flatMap]
  simp [bytesLE, Function.comp_def, Nat.mul_comm]

/-- Bytes that a half extent takes in a slot: an EXPORT snapshot stores half of it (R387). -/
def halfBytes (export_ : Bool) : Nat := if export_ then 2 ^ 24 else 2 ^ 25

section
variable {m : Mach} {slot off : Nat} {export_ : Bool} (region : 0 < m.core.ident.snapExt) (inside : off + halfBytes export_ ≤ m.core.slotBytes)
  (aligned : off % 2 ^ 25 + halfBytes export_ ≤ 2 ^ 25)
include region inside aligned

/-- A half extent copied into a slot changes keys of the slot only. -/
theorem Mach.copyHalf_stores (src : Nat) : Mach.Stores (m.core.inSlot slot) m (m.copyHalf export_ src slot off) := by
  have reached : ∀ a, m.core.slotKey slot off ≤ a → a < m.core.slotKey slot off + halfBytes export_ → m.core.inSlot slot a := fun a lo hi => by
    obtain ⟨b, rfl⟩ := Nat.exists_eq_add_of_le lo
    have near : b < halfBytes export_ := Nat.lt_of_add_lt_add_left hi
    exact ⟨off + b, (Nat.add_lt_add_left near off).trans_le inside, (Core.slotKey_add region slot (by omega)).symm⟩
  unfold Mach.copyHalf
  cases export_ with
  | true =>
    have length : (exportBytes (memBytes m.mem src (2 ^ 25))).length = 2 ^ 24 := by
      rw [length_exportBytes (n := 2 ^ 23) (by rw [memBytes_length, ← Nat.pow_add 2 2 23])]
      exact (Nat.pow_add 2 1 23).symm
    exact .write (w := .bytes _ _) (fun a lo hi => reached a lo (by rw [halfBytes, if_pos rfl, ← length]; exact hi)) ..
  | false => exact .write (w := .copy _ _ _) (fun a lo hi => reached a lo hi) ..

end

/-- A copy poisons nothing. -/
theorem Mach.copyHalf_clean {m : Mach} (clean : m.mem.poison = []) (export_ : Bool) (src slot off : Nat) : (m.copyHalf export_ src slot off).mem.poison = [] := by
  unfold Mach.copyHalf
  cases export_ <;> simp [applyWr, clean]

end Sys2Proof.Machine
end

section
/-!
SNAPSHOT_COPY_DONE (11 R386 to R388): the extents copied, and the drain that begins.
-/

namespace Sys2Proof.Machine

/-! ### Entries copied -/

theorem pieceBytes_eq (kind cls : Nat) : pieceBytes kind cls = 2 * halfBytes (kind = 2 && cls = 0) := by
  rcases pieceBytes_cases kind cls with ⟨rfl, rfl, bytes⟩ | ⟨other, bytes⟩
  · rw [bytes]
    rfl
  · have noExport : (decide (kind = 2) && decide (cls = 0)) = false := by simpa using other
    rw [bytes, noExport]
    rfl

/-- One source extent of a seal-map entry copied to its place in a slot, half by half (R386). -/
def Mach.copyEntry (kind slot : Nat) (es : List SealEnt) (m : Mach) (e : Nat × Nat × Option Nat) : Mach :=
  match e.2.2, es[e.1]? with
  | some k, some en =>
    let off := entryOff kind es e.1 + e.2.1 * pieceBytes kind en.cls
    (m.copyHalf (kind = 2 && en.cls = 0) k slot off).copyHalf (kind = 2 && en.cls = 0) (k + 2 ^ 25) slot (off + pieceBytes kind en.cls / 2)
  | _, _ => m

/-- Where an extent of an entry lies in a slot that holds the seal map's bytes. -/
theorem entry_inside {kind size i x : Nat} {es : List SealEnt} {en : SealEnt} (fits : storedBytes kind es ≤ size) (entry : es[i]? = some en) (lt : x < en.extents) :
    entryOff kind es i + x * pieceBytes kind en.cls + pieceBytes kind en.cls ≤ size := by
  have bound := entryOff_add_le (kind := kind) entry
  have upTo := Nat.mul_le_mul_right (pieceBytes kind en.cls) (Nat.succ_le_of_lt lt)
  rw [Nat.succ_mul] at upTo
  omega

/-- Something that lies in a slot needs a snapshot region. -/
theorem Core.snapExt_pos {c : Core} {off n : Nat} (inside : off + n ≤ c.slotBytes) (pos : 0 < n) : 0 < c.ident.snapExt := by
  refine Nat.pos_of_ne_zero fun zero => ?_
  rw [Core.slotBytes, zero] at inside
  omega

theorem pieceBytes_pos (kind cls : Nat) : 0 < pieceBytes kind cls := by
  rcases pieceBytes_cases kind cls with ⟨-, -, bytes⟩ | ⟨-, bytes⟩ <;> omega

/-- Both halves of an extent copied one behind the other in a slot. -/
theorem Mach.copyHalves_stores {m : Mach} {slot off : Nat} {export_ : Bool} (aligned : 2 ^ 25 ∣ off) (inside : off + 2 * halfBytes export_ ≤ m.core.slotBytes)
    (src src' : Nat) : Mach.Stores (m.core.inSlot slot) m ((m.copyHalf export_ src slot off).copyHalf export_ src' slot (off + halfBytes export_)) := by
  have half : halfBytes export_ = 2 ^ 24 ∨ halfBytes export_ = 2 ^ 25 := by
    cases export_
    · exact .inr rfl
    · exact .inl rfl
  have region : 0 < m.core.ident.snapExt := Core.snapExt_pos inside (by omega)
  have first := Mach.copyHalf_stores (slot := slot) region (off := off) (export_ := export_) (by omega) (by omega) src
  refine first.trans ?_
  rw [← Core.inSlot_congr first.core]
  refine Mach.copyHalf_stores (first.ident ▸ region) ?_ (by omega) src'
  rw [Core.slotBytes, first.ident, ← Core.slotBytes]
  omega

theorem Mach.copyEntry_stores {m : Mach} {kind slot : Nat} {es : List SealEnt} {e : Nat × Nat × Option Nat} (fits : storedBytes kind es ≤ m.core.slotBytes)
    (inside : ∀ en, es[e.1]? = some en → e.2.1 < en.extents) : Mach.Stores (m.core.inSlot slot) m (m.copyEntry kind slot es e) := by
  unfold Mach.copyEntry
  split
  · next k en source entry =>
    have bound := entry_inside fits entry (inside en entry)
    have aligned := Nat.dvd_add (dvd_storedBytes kind (es.take e.1)) (Nat.dvd_mul_left_of_dvd (dvd_pieceBytes kind en.cls) e.2.1)
    have half : pieceBytes kind en.cls / 2 = halfBytes (kind = 2 && en.cls = 0) := by rw [pieceBytes_eq, Nat.mul_div_cancel_left _ Nat.two_pos]
    dsimp only
    rw [half]
    exact Mach.copyHalves_stores aligned (by rwa [← pieceBytes_eq]) ..
  · exact .refl m

theorem Mach.copyEntry_clean {m : Mach} (clean : m.mem.poison = []) (kind slot : Nat) (es : List SealEnt) (e : Nat × Nat × Option Nat) :
    (m.copyEntry kind slot es e).mem.poison = [] := by
  unfold Mach.copyEntry
  split
  · exact Mach.copyHalf_clean (Mach.copyHalf_clean clean ..) ..
  · exact clean

/-! ### The drain -/

theorem memPoisoned_of_clean {mem : Mem} (clean : mem.poison = []) (u n : Nat) : memPoisoned mem u n = false := by
  rw [memPoisoned, clean, List.any_nil]

/-- Where nothing is poisoned the drain at most sends a command (R395). -/
theorem Mach.drainNext_of_clean {m : Mach} (clean : m.mem.poison = []) : ∃ c, m.drainNext = { m with core := c } ∧ c.spool.slots = m.core.spool.slots := by
  unfold Mach.drainNext
  dsimp only
  split
  · exact ⟨m.core, rfl, rfl⟩
  · split
    · rw [if_neg (by simp [memPoisoned_of_clean clean])]
      exact ⟨_, rfl, rfl⟩
    · exact ⟨m.core, rfl, rfl⟩

/-! ### The end of the copy -/

/-- A slot whose copy has ended drains, and the write-hold of its job lifts (R388). -/
def Core.startDrain (h i : Nat) (c : Core) : Core :=
  (c.modSlot i fun s => { s with phase := .draining }).modJob h fun j => { j with writeHold := (c.modSlot i fun s => { s with phase := .draining }).mustHold j }

theorem Mach.replicaChecks_of_unchecked {m : Mach} {i : Nat} {sl : SnapSlot} (held : m.core.spool.slots.getD i none = some sl) (unchecked : snapCheck sl.block = false)
    (h : Nat) : m.replicaChecks h i = m := by
  unfold Mach.replicaChecks
  split
  · next j s p _ slot _ =>
    obtain rfl : s = sl := Option.some.inj (slot.symm.trans held)
    rw [unchecked, Bool.not_false, if_pos rfl]
  · rfl

/-- Whether a slot takes the copy of a snapshot of a job. -/
def copyingFor (h : Nat) (o : Option SnapSlot) : Bool :=
  match o with
  | some s => s.plan == h && s.phase == .copying
  | none => false

theorem snapCopied_of_clean {m : Mach} {h i : Nat} {j : Job} {p : Plan} {sl : SnapSlot} (job : m.core.job? h = some j) (admitted : m.core.plan? h = some p)
    (first : (List.range 2).find? (fun k => copyingFor h (m.core.spool.slots.getD k none)) = some i) (held : m.core.spool.slots.getD i none = some sl)
    (clean : m.mem.poison = []) : snapCopied h [] m =
      ((((m.core.snapSources p j sl).foldl (Mach.copyEntry (snapKind sl.block) i j.sealMap) m).up (Core.startDrain h i)).replicaChecks h i).drainNext := by
  unfold snapCopied
  split
  · next j' p' i' job' admitted' found =>
    obtain rfl : j' = j := Option.some.inj (job'.symm.trans job)
    obtain rfl : p' = p := Option.some.inj (admitted'.symm.trans admitted)
    obtain rfl : i' = i := Option.some.inj (found.symm.trans first)
    have met : m.meetFor j'.tenant (some h) 1 [] = m := rfl
    have sound : ((m.core.snapSources p' j' sl).any fun e => match e.2.2 with | some k => memPoisoned m.mem (k / 64) (2 ^ 20) | none => false) = false := by
      rw [List.any_eq_false]
      intro e _
      split <;> simp [memPoisoned_of_clean clean]
    simp only [held, met]
    exact if_neg (ne_true_of_eq_false sound)
  · next other => exact (other j p i job admitted first).elim

theorem mem_snapSources {c : Core} {p : Plan} {j : Job} {sl : SnapSlot} {e : Nat × Nat × Option Nat} (mem : e ∈ c.snapSources p j sl) {en : SealEnt}
    (entry : j.sealMap[e.1]? = some en) : e.2.1 < en.extents := by
  simp only [Core.snapSources, List.mem_flatMap, List.mem_mapIdx] at mem
  obtain ⟨ie, here, x, lt, rfl⟩ := mem
  obtain ⟨k, at_k⟩ := List.mem_iff_getElem?.1 here
  obtain ⟨index, at_map⟩ := List.getElem?_zip_eq_some.1 at_k
  rw [Core.length_extKeys] at lt
  obtain ⟨_, index⟩ := List.getElem?_eq_some_iff.1 index
  obtain rfl : k = ie.1 := (List.getElem_range _).symm.trans index
  obtain rfl : ie.2 = en := Option.some.inj (at_map.symm.trans entry)
  exact lt

/-! ### What the copy writes -/

theorem Mach.copyEntries_stores {m : Mach} {kind slot : Nat} {es : List SealEnt} {l : List (Nat × Nat × Option Nat)} (fits : storedBytes kind es ≤ m.core.slotBytes)
    (inside : ∀ e ∈ l, ∀ en, es[e.1]? = some en → e.2.1 < en.extents) : Mach.Stores (m.core.inSlot slot) m (l.foldl (Mach.copyEntry kind slot es) m) := by
  refine .foldl l fun m' before e mem => ?_
  rw [← Core.inSlot_congr before.core]
  exact Mach.copyEntry_stores (by rwa [Core.slotBytes, before.ident, ← Core.slotBytes]) (inside e mem)

theorem Mach.copyEntries_clean (kind slot : Nat) (es : List SealEnt) (l : List (Nat × Nat × Option Nat)) {m : Mach} (clean : m.mem.poison = []) :
    (l.foldl (Mach.copyEntry kind slot es) m).mem.poison = [] := by
  induction l generalizing m with
  | nil => exact clean
  | cons e rest ih => exact ih (Mach.copyEntry_clean clean ..)

theorem memByte_copyHalf (m : Mach) (src slot off a : Nat) : memByte (m.copyHalf false src slot off).mem a =
    if m.core.slotKey slot off ≤ a ∧ a < m.core.slotKey slot off + 2 ^ 25 then memByte m.mem (a - m.core.slotKey slot off + src) else memByte m.mem a :=
  memByte_copy m.mem (m.core.slotKey slot off) src (2 ^ 25) a

theorem Core.ident_wrote (k n : Nat) (c : Core) : (c.wrote k n).ident = c.ident := (congrArg Core.ident (Core.unlined_wrote k n c) :)

theorem Mach.slotKey_copyHalf (m : Mach) (src slot off : Nat) : (m.copyHalf false src slot off).core.slotKey = m.core.slotKey := by
  have ident : (m.copyHalf false src slot off).core.ident = m.core.ident := Core.ident_wrote _ _ m.core
  funext i o
  simp only [Core.slotKey, ident]

/-- A FULL copy of the only extent of a seal map holds the source bytes (R386). -/
theorem Mach.copyEntry_one {m : Mach} {slot k : Nat} {e : SealEnt} (region : 0 < m.core.ident.snapExt)
    (apart : ∀ o < 2 ^ 26, ∀ o' < 2 ^ 26, m.core.slotKey slot o ≠ k + o') {o : Nat} (lt : o < 2 ^ 26) :
    memByte (m.copyEntry 1 slot [e] (0, 0, some k)).mem (m.core.slotKey slot o) = memByte m.mem (k + o) := by
  have halves : m.copyEntry 1 slot [e] (0, 0, some k) = (m.copyHalf false k slot 0).copyHalf false (k + 2 ^ 25) slot (2 ^ 25) := by
    have whole : pieceBytes 1 e.cls = 2 ^ 26 := if_neg (by simp)
    have half : 2 ^ 26 / 2 = 2 ^ 25 := rfl
    have start : entryOff 1 [e] 0 = 0 := rfl
    simp only [Mach.copyEntry, List.getElem?_cons_zero, whole, half, start, Nat.zero_mul, Nat.zero_add]
    rfl
  have near : ∀ b < 2 ^ 25, m.core.slotKey slot b = m.core.slotKey slot 0 + b := fun b small => by
    simpa only [Nat.zero_add] using Core.slotKey_add region slot (off := 0) (b := b) (by omega)
  have second := Core.slotKey_second region slot
  rw [halves, memByte_copyHalf, Mach.slotKey_copyHalf]
  rcases Nat.lt_or_ge o (2 ^ 25) with small | large
  · rw [near o small, if_neg (by omega), memByte_copyHalf, if_pos (by omega)]
    congr 1
    omega
  · obtain ⟨b, rfl⟩ := Nat.exists_eq_add_of_le large
    rw [Core.slotKey_add region slot (by omega), if_pos (by omega), memByte_copyHalf, if_neg]
    · congr 1
      omega
    · rintro ⟨lo, hi⟩
      obtain ⟨b', reach⟩ := Nat.exists_eq_add_of_le lo
      refine apart b' (by omega) (2 ^ 25 + b) lt ?_
      rw [near b' (by omega)]
      omega

end Sys2Proof.Machine
end

section
/-!
SNAPSHOT_COPY_DONE carried out (11 R386 to R388): what the state after it holds.
-/

namespace Sys2Proof.Machine

theorem Core.slots_startDrain {c : Core} {h i : Nat} {sl : SnapSlot} (held : c.spool.slots.getD i none = some sl) :
    (c.startDrain h i).spool.slots = c.spool.slots.set i (some { sl with phase := .draining }) :=
  Core.slots_modSlot held fun s => { s with phase := .draining }

theorem State.snapshotCopyDone {s : State} {h i : Nat} {j : Job} {p : Plan} {sl : SnapSlot} (job : s.core.job? h = some j) (admitted : s.core.plan? h = some p)
    (slots : s.core.spool.slots.length = 2) (lt : i < 2) (held : s.core.spool.slots.getD i none = some sl) (plan : sl.plan = h) (copying : sl.phase = .copying)
    (first : i = 1 → ∀ z, s.core.spool.slots.getD 0 none = some z → z.plan = h → z.phase ≠ .copying) (clean : s.mem.poison = [])
    (unchecked : snapCheck sl.block = false) (fits : storedBytes (snapKind sl.block) j.sealMap ≤ s.core.slotBytes) :
    ∃ t, exec (.snapshotCopyDone h []) s = .next t ∧ t.pwr = s.pwr ∧ t.core.spool.slots.getD i none = some { sl with phase := .draining } ∧
      (∀ a, ¬ s.core.inSlot i a → memByte t.mem a = memByte s.mem a) ∧
      t.mem = ((s.core.snapSources p j sl).foldl (Mach.copyEntry (snapKind sl.block) i j.sealMap) (startMach s)).mem := by
  have lowest : (List.range 2).find? (fun k => copyingFor h (s.core.spool.slots.getD k none)) = some i := by
    refine find?_lowest lt (by rw [held]; simp [copyingFor, plan, copying]) fun one => ?_
    cases other : s.core.spool.slots.getD 0 none with
    | none => rfl
    | some z => simpa [copyingFor] using first one z other
  have copied := snapCopied_of_clean (m := startMach s) job admitted lowest held clean
  have stores := Mach.copyEntries_stores (m := startMach s) (slot := i) (es := j.sealMap) (l := s.core.snapSources p j sl) fits
    fun e mem en entry => mem_snapSources mem entry
  have unpoisoned := Mach.copyEntries_clean (snapKind sl.block) i j.sealMap (s.core.snapSources p j sl) (m := startMach s) clean
  have core : (startMach s).core.snapSources p j sl = s.core.snapSources p j sl := rfl
  rw [core] at copied
  generalize (s.core.snapSources p j sl).foldl (Mach.copyEntry (snapKind sl.block) i j.sealMap) (startMach s) = m at copied stores unpoisoned ⊢
  have spool : m.core.spool = s.core.spool := (congrArg Core.spool stores.core :)
  have held' : m.core.spool.slots.getD i none = some sl := spool ▸ held
  have draining : (m.core.startDrain h i).spool.slots.getD i none = some { sl with phase := .draining } := by
    rw [Core.slots_startDrain held', spool]
    simp [List.getD_eq_getElem?_getD, slots, lt]
  rw [Mach.replicaChecks_of_unchecked (m := m.up (Core.startDrain h i)) draining unchecked] at copied
  obtain ⟨c, drain, kept⟩ := Mach.drainNext_of_clean (m := m.up (Core.startDrain h i)) unpoisoned
  rw [drain] at copied
  have run := runM_ext (f := snapCopied h []) (s := s) (P := Wr.inside (s.core.inSlot i)) (by rw [copied]; exact (stores.writes.then_up _).trans (.core _ c))
  rw [copied] at run
  exact ⟨_, run, rfl, (congrArg (fun l => l.getD i none) kept).trans draining, fun a outside => stores.byte outside, rfl⟩

end Sys2Proof.Machine
end

section
/-!
What the instructions of a snapshot answer from a state (11 R384 to R401): its vote, its end, and the NVMe commands that serve it.
-/

namespace Sys2Proof.Machine

/-- What a command answers whose effect is on the core alone. -/
theorem runC_of_eq {f : Power → Mem → Core → Core} {s : State} {c : Core} (effect : f s.pwr s.mem s.start = c) : runC f s = .next { s with core := c } := by
  rw [runC_start, effect]

section
variable {s : State} {h : Nat} {j : Job} {p : Plan} (job : s.core.job? h = some j) (admitted : s.core.plan? h = some p)

include job admitted in
/-- The end of a snapshot vote (R384): a clean one takes the lowest free slot, any other is skipped. -/
theorem State.snapshotVoteResult {y : SnapJob} {o : KiteOp} {step : StepNo} {res : List Byte} (snap : s.core.snapJob? h = some y) (voted : y.voted = some step)
    (alone : s.core.fab.kite = [o]) (idle : s.core.fab.kiteQueue = []) (plan : o.plan = h) (group : o.group = 0xFF) (submitter : o.submitter = 1)
    (unanswered : o.result = none) (good : o.error = false) (seq : o.seq = 0x3FFE) : let b := padTo 64 res
    let clean := laneAgree b 1 = true ∧ laneAgree b 3 = true ∧ laneAgree b 5 = true ∧ lane b 0 = 0 ∧ lane b 1 = step.toNat ∧
      lane b 3 = fieldAt y.block 252 4 ∧ lane b 5 = y.seq.toNat
    (clean → ∀ i < 2, s.core.spool.slots.getD i none = none → (i = 1 → s.core.spool.slots.getD 0 none ≠ none) → ∃ c sl,
      exec (.snapshotVoteResult h res false) s = .next { s with core := c } ∧ c.spool.slots = s.core.spool.slots.set i (some sl) ∧ sl.plan = h ∧
      sl.step = step ∧ sl.seq = y.seq ∧ sl.block = y.block ∧ sl.phase = .copying ∧ sl.done = 0) ∧
    ∀ err, (err = false → ¬ clean) → ∃ c, exec (.snapshotVoteResult h res err) s = .next { s with core := c } ∧ c.spool.slots = s.core.spool.slots ∧
      c.spool.skipped = satInc s.core.spool.skipped := by
  intro b clean
  have vote : s.core.voteOp h 0x3FFE = some o := by simp [Core.voteOp, alone, plan, group, submitter, seq]
  have own : o.submitter ≠ 3 := by rw [submitter]; decide
  refine ⟨fun isClean i lt free lowest => ?_, fun err unclean => ?_⟩
  · have lowest := find?_lowest (P := Option.isNone) (l := s.core.spool.slots) lt (by rw [free]; rfl) fun one =>
      Option.isNone_eq_false_iff.2 (Option.isSome_iff_ne_none.2 (lowest one))
    obtain ⟨c, sl, taken, rest⟩ := snapVoteResult_takes (m := startMach s) job admitted snap voted vote own unanswered good idle lowest
      (by simpa [and_assoc] using isClean)
    exact ⟨c, sl, runM_up (g := fun _ => c) taken, rest⟩
  · obtain ⟨c, skipped, rest⟩ := snapVoteResult_skips (m := startMach s) job admitted snap voted vote own unanswered good idle (res := res) (err := err)
      fun ok => by
        have failed := unclean ok
        simp only [clean, ← and_assoc] at failed
        simpa only [← Bool.not_eq_true, Bool.and_eq_true, beq_iff_eq] using failed
    exact ⟨c, runM_up (g := fun _ => c) skipped, rest⟩

section
variable {n : BitVec 32} {i : Nat} {sl : SnapSlot} (slot : s.core.slotOf h n = some (i, sl))
include slot

/-- SNAP_COMPLETE_NOTICE of a flushed slot (R396). -/
theorem State.snapComplete_flushed (flushed : sl.phase = .flushed) (step : StepNo) : ∃ c, exec (.snapCompleteNotice h n step) s = .next { s with core := c } ∧
    c.slotOf h n = none ∧ ∀ z, c.snapJob? h = some z → z.last = some (n, step) :=
  ⟨_, runC_of_eq (f := fun _ _ c => c.snapComplete h n step) (snapComplete_of_flushed (c := s.start) slot flushed step), 
    Core.slotOf_snapFree .., fun z found => Core.last_keepLast (c := s.start) (h := h) (by exact found)⟩

/-- SNAP_COMPLETE_NOTICE of a slot that still drains (R396). -/
theorem State.snapComplete_draining (draining : sl.phase ≠ .flushed) (step : StepNo) : ∃ c, exec (.snapCompleteNotice h n step) s = .next { s with core := c } ∧
    c.spool.slots = s.core.spool.slots.set i (some { sl with complete := true }) :=
  ⟨_, runC_of_eq (f := fun _ _ c => c.snapComplete h n step) (snapComplete_of_draining (c := s.start) slot draining step),
    Core.slots_modSlot (c := s.start.keepLast h n step) (Core.slotOf_spec slot).2.1 fun s => { s with complete := true }⟩

/-- SNAP_FAILURE_NOTICE on a module that does not write the manifests (R401). -/
theorem State.snapFailure_reader (reader : s.core.isWriter h sl.block = false) (cause : Nat) : ∃ c,
    exec (.snapFailureNotice h n cause) s = .next { s with core := c } ∧ c.slotOf h n = none ∧ c.spool.failed = satInc s.core.spool.failed ∧ c.out = [] :=
  ⟨_, runC_of_eq (f := fun _ _ => snapFailureNotice h n cause) (snapFailureNotice_of_reader (c := s.start) slot reader cause), Core.slotOf_snapLose .., Core.failed_snapLose .., rfl⟩

/-- SNAP_FAILURE_NOTICE on the manifest writer (R401). -/
theorem State.snapFailure_writer (writer : s.core.isWriter h sl.block = true) (cause : Nat) : ∃ c,
    exec (.snapFailureNotice h n cause) s = .next { s with core := c } ∧ c.slotOf h n = none ∧ c.spool.failed = satInc s.core.spool.failed ∧
    Out.vc7 0xFFFF 12 [h, n.toNat, cause] ∈ c.out :=
  ⟨_, runC_of_eq (f := fun _ _ => snapFailureNotice h n cause) (snapFailureNotice_of_writer (c := s.start) slot writer cause), Core.slotOf_snapFailAll .., Core.failed_snapFailAll .., Core.told_snapFailAll ..⟩

include job admitted

/-- STRIPE_FLUSHED of a drained slot on a module that does not write the manifests (R396). -/
theorem State.stripeFlushed_reader (draining : sl.phase = .draining) (drained : sl.done = sl.stripes.length) (incomplete : sl.complete = false)
    (reader : s.core.isWriter h sl.block = false) : ∃ c, exec (.stripeFlushed h n) s = .next { s with core := c } ∧
      c.spool.slots = s.core.spool.slots.set i (some { sl with phase := .flushed }) ∧
      ∀ r ∈ sl.stripes, ∃ l, Out.vc7 (s.core.physOf p (snapWriter sl.block)) 10 (h :: n.toNat :: r.entry :: l) ∈ c.out := by
  have effect := stripeFlushed_of_reader (m := startMach s) job admitted slot draining drained incomplete reader
  refine ⟨_, runM_up effect, Core.slots_modSlot (Core.slotOf_spec slot).2.1 fun s => { s with phase := .flushed }, fun r mem => ?_⟩
  exact ⟨_, List.mem_append_right _ (List.mem_map.2 ⟨_, List.mem_map.2 ⟨r, mem, rfl⟩, rfl⟩)⟩

/-- What becomes of a snapshot on its manifest writer until its manifest is written (R396). -/
theorem State.manifestWaits {r : ManifestRun} (run : s.core.spool.manifests.find? (fun r => r.plan == h && r.seq == n) = some r) (waiting : r.writing = none) :
    (∃ c, exec (.manifestWaitTimeout h n) s = .next { s with core := c } ∧ c.slotOf h n = none ∧ Out.vc7 0xFFFF 12 [h, n.toNat, 5] ∈ c.out ∧
      c.spool.failed = satInc s.core.spool.failed) ∧
    ∀ rep, (∀ x ∈ r.reports, ¬ (x.writer = rep.writer ∧ x.entry = rep.entry)) →
      (covered p.hdr.modCount j.sealMap.length (r.reports ++ [rep]) = false → ∃ c, exec (.stripeReportReceived h n rep) s = .next { s with core := c } ∧
        { r with reports := r.reports ++ [rep] } ∈ c.spool.manifests ∧ c.out = [] ∧ c.spool.slots = s.core.spool.slots) ∧
      (covered p.hdr.modCount j.sealMap.length (r.reports ++ [rep]) = true → ∃ c, exec (.stripeReportReceived h n rep) s = .next { s with core := c } ∧
        (c.slotOf h n = none ∨ ∃ z ∈ c.spool.manifests, z.plan = h ∧ z.seq = n ∧ z.writing.isSome = true ∧ ∃ l, Out.nvme (snapManTarget sl.block) 1 l ∈ c.out)) := by
  refine ⟨?_, fun rep fresh => ⟨fun uncovered => ?_, fun all => ?_⟩⟩
  · exact ⟨_, runC_of_eq (f := fun _ _ => manifestTimeout h n) (manifestTimeout_of_waiting (c := s.start) run waiting), Core.slotOf_snapFailAll ..,
      Core.told_snapFailAll .., Core.failed_snapFailAll ..⟩
  · have effect := takeReport_of_uncovered (c := s.start) run job admitted slot waiting fresh uncovered
    exact ⟨_, runC_of_eq (f := fun _ _ c => c.takeReport h n rep) effect, List.mem_append_right _ (List.mem_singleton_self _), rfl, rfl⟩
  · rcases takeReport_of_covered (c := s.start) run job admitted slot waiting fresh all with ⟨cause, fails⟩ | ⟨z, formed, begins⟩
    · exact ⟨_, runC_of_eq (f := fun _ _ c => c.takeReport h n rep) fails, .inl (Core.slotOf_snapFailAll ..)⟩
    · have named : r.plan = h ∧ r.seq = n := by simpa using List.find?_some run
      have plan : z.plan = h := (congrArg ManifestRun.plan formed).trans named.1
      have seq : z.seq = n := (congrArg ManifestRun.seq formed).trans named.2
      have writing := congrArg ManifestRun.writing formed
      obtain ⟨io, k, l, sends⟩ := Core.manifestIo_frame writing (Core.manifestOf_ne_nil s.start p j sl.block _) j sl.block (s.start.putRun h n z)
      rw [sends] at begins
      exact ⟨_, runC_of_eq (f := fun _ _ c => c.takeReport h n rep) begins, .inr ⟨z, List.mem_append_right _ (List.mem_singleton_self z), plan, seq,
        by rw [writing]; rfl, l, List.mem_append_right _ (List.mem_singleton_self _)⟩⟩

end

end

/-! ### NVMe commands -/

section
variable {s : State} {x : IoCmd} (listed : s.core.spool.io.find? (fun z => z.id == x.id) = some x)
include listed

theorem State.nvme_stripe {n : BitVec 32} {i k : Nat} {sl : SnapSlot} {r : StripeRep} (slot : s.core.slotOf x.plan n = some (i, sl)) (seq : x.seq = n)
    (what : x.what = .stripe k) (stripe : sl.stripes[k]? = some r)
    (left : x.lba + x.lbas < r.lba + r.count * (pieceBytes (snapKind sl.block) r.cls / 4096)) (lim : Nat) :
    ∃ c z, exec (.nvmeCompletion x.id true lim []) s = .next { s with core := c } ∧ z ∈ c.spool.io ∧ z.what = .stripe k ∧ z.lba = x.lba + x.lbas ∧
      z.retries = 0 ∧ c.spool.slots = s.core.spool.slots := by
  obtain ⟨a, f, l, taken⟩ := Core.ioTaken_frame x s.start
  have kept : (s.start.ioTaken x).spool.slots = s.core.spool.slots := by rw [taken]; rfl
  obtain ⟨y, what', lba, retries, goesOn⟩ := ioDone_of_stripe (m := (startMach s).up (Core.ioTaken x)) what
    ((Core.slotOf_congr kept x.plan x.seq).trans (seq ▸ slot)) stripe left lim
  have effect := (nvmeCompletion_of_success (m := startMach s) listed lim).trans goesOn
  exact ⟨_, _, runM_up (g := fun c => (c.ioTaken x).issueIo y) effect, List.mem_append_right (s.start.ioTaken x).spool.io (List.mem_singleton_self _), what', lba,
    retries, kept⟩

theorem State.nvme_connect {g : Target} (what : x.what = .connect) (known : lookup? (x.tenant, x.target) s.core.spool.targets = some g) (lim : Nat) :
    ∃ c, exec (.nvmeCompletion x.id true lim []) s = .next { s with core := c } ∧
      lookup? (x.tenant, x.target) c.spool.targets = some { g with connected := decide (16 ≤ lim), maxLbas := min lim 256, waiting := none } := by
  obtain ⟨a, f, l, taken⟩ := Core.ioTaken_frame x s.start
  have known' : lookup? (x.tenant, x.target) (s.start.ioTaken x).spool.targets = some g := by rw [taken]; exact known
  have effect := (nvmeCompletion_of_success (m := startMach s) listed lim).trans (ioDone_of_connect what lim)
  refine ⟨_, runM_up (g := fun c => (c.ioTaken x).connected x.tenant x.target lim) effect, ?_⟩
  rw [Core.spool_connected known']
  exact lookup?_insertKey_self ..

theorem State.nvme_retry (left : x.retries < 3) (lim : Nat) : ∃ c l, exec (.nvmeCompletion x.id false lim []) s = .next { s with core := c } ∧
    c.spool.retries = satInc s.core.spool.retries ∧ c.spool.slots = s.core.spool.slots ∧ c.out = [Out.nvme x.target x.op l] ∧
    ∃ z ∈ c.spool.io, z.id = x.id ∧ z.retries = x.retries + 1 := by
  refine ⟨_, _, runM_up (nvmeCompletion_of_error (m := startMach s) listed left lim), rfl, rfl, rfl, s.start.retryOf x, ?_, rfl, rfl⟩
  exact List.mem_map.2 ⟨x, List.mem_of_find?_eq_some listed, if_pos (beq_self_eq_true _)⟩

theorem State.nvme_givesUp (spent : 3 ≤ x.retries) (lim : Nat) : exec (.nvmeCompletion x.id false lim []) s =
    .next { s with core := (s.start.modSpool fun q => { q with io := q.io.filter fun y => !(y.id == x.id) }).ioFailed x } :=
  runM_up (nvmeCompletion_of_last_error (m := startMach s) listed spent lim)

/-- A failed flush of the manifest fails the snapshot for every module (R394, R401). -/
theorem State.nvme_manifestFails {h i : Nat} {n : BitVec 32} {p : Plan} {sl : SnapSlot} (admitted : s.core.plan? h = some p) (spent : 3 ≤ x.retries)
    (what : x.what = .manifestFlush) (plan : x.plan = h) (seq : x.seq = n) (slot : s.core.slotOf h n = some (i, sl)) (writer : s.core.isWriter h sl.block = true)
    (lim : Nat) : ∃ c, exec (.nvmeCompletion x.id false lim []) s = .next { s with core := c } ∧ c.slotOf h n = none ∧
      c.spool.failed = satInc s.core.spool.failed := by
  subst plan seq
  have fails : ∀ c : Core, c.plan? x.plan = some p → c.slotOf x.plan x.seq = some (i, sl) → c.isWriter x.plan sl.block = true →
      c.ioFailed x = c.snapFailAll x.plan sl.step x.seq 2 := fun c admitted slot writer => by
    simp only [Core.ioFailed, what, Core.snapFail, slot, admitted, writer, if_true]
  have run := State.nvme_givesUp listed spent lim
  rw [fails _ (by exact admitted) (by exact slot) (by exact writer)] at run
  exact ⟨_, run, Core.slotOf_snapFailAll .., Core.failed_snapFailAll ..⟩

end

/-! ### Targets -/

section
variable {s : State} {t : TenantId} {i : Nat} {g : Target} (known : lookup? (t, i) s.core.spool.targets = some g)
include known

theorem State.connectionLost_again (connected : g.connected = true) : ∃ c z, exec (.nvmeConnectionLost t i) s = .next { s with core := c } ∧
    lookup? (t, i) c.spool.targets = some { g with connected := false } ∧ c.spool.io = s.core.spool.io ++ [z] ∧ z.what = .connect ∧ z.tenant = t ∧ z.target = i := by
  obtain ⟨z, l, connects, what, tenant, target⟩ := Core.connect_frame t i
    (s.start.modSpool fun q => { q with targets := insertKey (t, i) { g with connected := false } q.targets })
  have effect := connectionLost_of_connected (c := s.start) known connected
  rw [connects] at effect
  exact ⟨_, z, runC_of_eq (f := fun _ _ => connectionLost t i) effect, lookup?_insertKey_self .., rfl, what, tenant, target⟩

/-- TARGET_CONNECT_TIMEOUT of a target whose CKPT_TARGET_SET waits (R393). -/
theorem State.connectTimeout_answers {a : Accepted} (waiting : g.waiting = some a) (opened : s.core.open? a.tenant.toNat a.cq = true) :
    ∃ u, exec (.targetConnectTimeout t i) s = .next u ∧ u.answered (s.upd (Core.modSpool fun q =>
      { q with targets := eraseKey (t, i) q.targets, io := q.io.filter (fun x => !(x.what == .connect && x.tenant == t && x.target == i)) })) a 0x501 [] :=
  ⟨_, runC_of_eq (f := fun _ _ => connectTimeout t i) (connectTimeout_of_waiting (c := s.start) known waiting), State.answered_reply rfl rfl rfl rfl opened⟩

end

/-- The Keep Alive that a target is sent (Table 11-2). -/
def keepAliveOf (e : (TenantId × Nat) × Target) : Out := .nvme e.1.2 0x18 [e.2.port, e.1.1.toNat]

theorem State.keepAlive (s : State) :
    exec .keepAlive s = .next { s with core := { s.start with out := (s.core.spool.targets.filter fun e => e.2.connected).map keepAliveOf } } := by
  have sends := Core.foldl_sends (g := fun c e => Core.emit (keepAliveOf e) c) (o := keepAliveOf) (c := s.start) (fun _ _ => rfl)
    (s.core.spool.targets.filter fun e => e.2.connected) []
  exact congrArg (fun c => (Host.Outcome.next { s with core := c } : Host.Outcome State Fault Refusal)) sends

end Sys2Proof.Machine
end

section
/-!
O56: snapshots from their vote to their end, and the NVMe commands that serve them.
-/

namespace Sys2Proof.Machine

/-- Settles O56: each clause is what its instruction answers from a state, case by case. -/
theorem snapshotsAreTakenDrainedAndEnded : Obligations.SnapshotsAreTakenDrainedAndEnded := by
  unfold Obligations.SnapshotsAreTakenDrainedAndEnded
  intro s h j p y job admitted snap slots
  refine ⟨fun step => rfl, fun o step res alone idle plan group submitter unanswered good seq voted => ?_,
    fun i lt sl held plan copying first clean unchecked fits => ?_, fun n i sl slot => ?_, fun x lim listed => ?_, fun t i g known => ?_, State.keepAlive s⟩
  · obtain ⟨takes, skips⟩ := State.snapshotVoteResult job admitted (res := res) snap voted alone idle plan group submitter unanswered good seq
    refine ⟨fun isClean i lt free lowest => ?_, fun unclean => ?_, ?_⟩
    · obtain ⟨c, sl, run, rest⟩ := takes isClean i lt free lowest
      exact ⟨_, sl, run, ⟨rfl, rfl⟩, rest⟩
    · obtain ⟨c, run, rest⟩ := skips false fun _ => unclean
      exact ⟨_, run, ⟨rfl, rfl⟩, rest⟩
    · obtain ⟨c, run, rest⟩ := skips true nofun
      exact ⟨_, run, ⟨rfl, rfl⟩, rest⟩
  · obtain ⟨t, run, pwr, drains, outside, mem⟩ := State.snapshotCopyDone job admitted slots lt held plan copying first clean unchecked fits
    refine ⟨t, _, run, pwr, drains, rfl, fun x out => outside x ?_, fun e k one source full apart o small => ?_⟩
    · rintro ⟨o, lt, rfl⟩
      exact out o lt rfl
    · have entry : j.sealMap[0]? = some e := by rw [one]; rfl
      have inside := mem_snapSources (c := s.core) (p := p) (sl := sl) (e := (0, 0, some k)) (by rw [source]; exact List.mem_singleton_self _) entry
      rw [mem, source, one, full]
      exact Mach.copyEntry_one (m := startMach s) (Core.snapExt_pos (entry_inside fits entry inside) (pieceBytes_pos ..)) apart small
  · refine ⟨fun draining drained incomplete reader => ?_, fun step flushed => ?_, fun step draining => ?_, fun cause reader => ?_, fun cause writer => ?_,
      fun r run => ⟨fun writing => ⟨?_, fun rep => ?_⟩, fun waiting => ?_, fun rep waiting known => ?_, fun rep waiting fresh => ?_⟩⟩
    · obtain ⟨c, run, rest⟩ := State.stripeFlushed_reader job admitted slot draining drained incomplete reader
      exact ⟨_, run, ⟨rfl, rfl⟩, rest⟩
    · obtain ⟨c, run, rest⟩ := State.snapComplete_flushed slot flushed step
      exact ⟨_, run, ⟨rfl, rfl⟩, rest⟩
    · obtain ⟨c, run, rest⟩ := State.snapComplete_draining slot draining step
      exact ⟨_, run, ⟨rfl, rfl⟩, rest⟩
    · obtain ⟨c, run, rest⟩ := State.snapFailure_reader slot reader cause
      exact ⟨_, run, ⟨rfl, rfl⟩, rest⟩
    · obtain ⟨c, run, rest⟩ := State.snapFailure_writer slot writer cause
      exact ⟨_, run, ⟨rfl, rfl⟩, rest⟩
    · exact runC_of_eq (f := fun _ _ => manifestTimeout h n) (manifestTimeout_of_writing (c := s.start) run writing)
    · exact runC_of_eq (f := fun _ _ c => c.takeReport h n rep) (takeReport_of_writing (c := s.start) run job admitted slot writing rep)
    · obtain ⟨⟨c, timeout, rest⟩, -⟩ := State.manifestWaits job admitted slot run waiting
      exact ⟨_, timeout, ⟨rfl, rfl⟩, rest⟩
    · exact runC_of_eq (f := fun _ _ c => c.takeReport h n rep) (takeReport_of_known (c := s.start) run job admitted slot known)
    · obtain ⟨-, reports⟩ := State.manifestWaits job admitted slot run waiting
      obtain ⟨kept, last⟩ := reports rep fresh
      refine ⟨fun uncovered => ?_, fun all => ?_⟩
      · obtain ⟨c, run, rest⟩ := kept uncovered
        exact ⟨_, run, ⟨rfl, rfl⟩, rest⟩
      · obtain ⟨c, run, rest⟩ := last all
        exact ⟨_, run, ⟨rfl, rfl⟩, rest⟩
  · refine ⟨fun n i sl k r slot plan seq what stripe left => ?_, fun g what known => ?_, fun left => ?_, fun spent what => ?_,
      fun spent what plan n i sl slot seq writer => ?_⟩
    · obtain ⟨c, z, run, rest⟩ := State.nvme_stripe listed (plan ▸ slot) seq what stripe left lim
      exact ⟨_, z, run, ⟨rfl, rfl⟩, rest⟩
    · obtain ⟨c, run, connected⟩ := State.nvme_connect listed what known lim
      exact ⟨_, _, run, ⟨rfl, rfl⟩, connected, rfl, rfl, rfl, rfl⟩
    · obtain ⟨c, l, run, rest⟩ := State.nvme_retry listed left lim
      exact ⟨_, l, run, ⟨rfl, rfl⟩, rest⟩
    · have run := State.nvme_givesUp listed spent lim
      simp only [Core.ioFailed, what] at run
      exact run
    · obtain ⟨c, run, rest⟩ := State.nvme_manifestFails listed admitted spent what plan seq slot writer lim
      exact ⟨_, run, ⟨rfl, rfl⟩, rest⟩
  · refine ⟨fun lost => ?_, fun connected => ⟨?_, ?_⟩, fun lost unused idle => ?_, fun a waiting opened => ?_, fun answered => ?_⟩
    · exact runC_of_eq (f := fun _ _ => connectionLost t i) (connectionLost_of_unconnected (c := s.start) known lost)
    · exact runC_of_eq (f := fun _ _ => unconnected t i) (unconnected_of_connected (c := s.start) known connected)
    · obtain ⟨c, z, run, rest⟩ := State.connectionLost_again known connected
      exact ⟨_, z, run, ⟨rfl, rfl⟩, rest⟩
    · exact runC_of_eq (f := fun _ _ => unconnected t i) (unconnected_of_unused (c := s.start) known lost unused idle)
    · exact State.connectTimeout_answers known waiting opened
    · exact runC_of_eq (f := fun _ _ => connectTimeout t i) (connectTimeout_of_none (c := s.start) known answered)

end Sys2Proof.Machine
end

section
/-!
What every command does to the queue, the memories and power (00 "Words of obligation", 15 R506, R520): it answers, it leaves the queue, and the throttle ratios
stay in range and the policy stays what it is.
-/

namespace Sys2Proof.Machine

/-- Settles O1: this is how `step` begins. -/
theorem stepRunsFrontCommand : Obligations.StepRunsFrontCommand := fun _ _ _ => rfl

/-- Settles O3: the meaning of every command is an effect on the parts of a state, and none of them holds the queue. -/
theorem commandsNeverStop : Obligations.CommandsNeverStop := by
  unfold Obligations.CommandsNeverStop
  intro i s
  cases i
  case registerAccess a v => cases v <;> exact ⟨_, rfl, rfl⟩
  all_goals exact ⟨_, rfl, rfl⟩

/-- A command changes memory by writes, if at all. -/
theorem exec_wf {i : Instr} {s t : State} (run : exec i s = .next t) (wf : Memory.wf s.mem = true) : Memory.wf t.mem = true := by
  have written : ∀ ws, Memory.wf (applyWrs s.mem ws) = true := fun ws => applyWrs_wf ws wf
  cases i
  case registerAccess a v => cases v <;> cases run <;> first | exact written _ | exact wf
  all_goals
    cases run
    first | exact written _ | exact wf

/-! ### The throttle ratios (R506) -/

theorem four_le_ratioDown (r : Nat) : 4 ≤ ratioDown r := Nat.le_max_left 4 _

theorem ratioUp_le (r : Nat) : ratioUp r ≤ 16 := Nat.min_le_left 16 _

theorem ratioDown_le {r : Nat} (h : 4 ≤ r) : ratioDown r ≤ r := by unfold ratioDown; omega

theorem le_ratioUp {r : Nat} (h : r ≤ 16) : r ≤ ratioUp r := by unfold ratioUp; omega

/-- A ratio in the range of R506. -/
def ratioOk (r : Nat) : Prop := 4 ≤ r ∧ r ≤ 16

theorem ratioOk_down {r : Nat} (h : ratioOk r) : ratioOk (ratioDown r) := ⟨four_le_ratioDown r, (ratioDown_le h.1).trans h.2⟩

theorem ratioOk_up {r : Nat} (h : ratioOk r) : ratioOk (ratioUp r) := ⟨h.1.trans (le_ratioUp h.2), ratioUp_le r⟩

theorem ratioOk_ite {p : Prop} [Decidable p] {r q : Nat} (hr : ratioOk r) (hq : ratioOk q) : ratioOk (if p then r else q) := by
  split
  · exact hr
  · exact hq

theorem ratioOk_watt {r : Nat} (h : ratioOk r) (pin limit : Nat) : ratioOk (wattRatio r pin limit) :=
  ratioOk_ite (ratioOk_down h) (ratioOk_ite (ratioOk_up h) h)

theorem Power.legal_iff (p : Power) : p.legal ↔ ratioOk p.thermal ∧ ratioOk p.current ∧ ratioOk p.margin ∧ ratioOk p.ceiling ∧ ratioOk p.cap := Iff.rfl

/-! ### What commands keep of power -/

/-- What no command but POWER_POLICY may break: the range of the ratios (R506) and the policy (R520). -/
structure Power.Keeps (p q : Power) : Prop where
  legal : p.legal → q.legal
  capW : q.capW = p.capW
  discUs : q.discUs = p.discUs
  detLock : q.detLock = p.detLock

theorem Power.Keeps.refl (p : Power) : p.Keeps p := ⟨id, rfl, rfl, rfl⟩

theorem Power.Keeps.trans {p q r : Power} (first : p.Keeps q) (second : q.Keeps r) : p.Keeps r :=
  ⟨second.legal ∘ first.legal, second.capW.trans first.capW, second.discUs.trans first.discUs, second.detLock.trans first.detLock⟩

theorem Power.Keeps.ite {c : Prop} [Decidable c] {p q r : Power} (yes : p.Keeps q) (no : p.Keeps r) : p.Keeps (if c then q else r) := by
  split
  · exact yes
  · exact no

/-- The halt channels sampled and a halt requested (R509). -/
theorem Power.keeps_request (a b fault run : Bool) (now : BitVec 64) (p : Power) :
    p.Keeps (({ p with aLow := a, bLow := b, inputFault := fault, runFault := run } : Power).request now) :=
  .ite ⟨id, rfl, rfl, rfl⟩ ⟨id, rfl, rfl, rfl⟩

theorem Power.keeps_lost (why : Nat) (vin : BitVec 16) (p : Power) : p.Keeps (p.lost why vin) :=
  ⟨fun _ => by simp [Power.legal, Power.lost], rfl, rfl, rfl⟩

theorem Power.Keeps.counts {p q : Power} (keeps : p.Keeps q) (us : BitVec 48) (ovf halted leaving : Bool) (req : Option (BitVec 64)) (for_ : BitVec 32) :
    p.Keeps { q with throttleUs := us, throttleOvf := ovf, halted := halted, leaving := leaving, haltReq := req, haltedUs := for_ } :=
  ⟨keeps.legal, keeps.capW, keeps.discUs, keeps.detLock⟩

theorem Power.keeps_ready (latched : Nat) (p : Power) : p.Keeps (p.ready latched) := by
  have cleared : p.Keeps (if latched = 1 then
      { p with thermal := 16, current := 16, margin := 16, ceiling := 16, cap := 16, voltLimits := 0, eqLimits := 0, limits := [] } else p) :=
    .ite ⟨fun _ => by simp [Power.legal], rfl, rfl, rfl⟩ (.refl p)
  exact .ite (cleared.counts _ _ _ _ _ _) (cleared.counts _ _ _ _ _ _)

theorem Power.keeps_elapse (a b : Nat) (p : Power) : p.Keeps (p.elapse a b) := ⟨id, rfl, rfl, rfl⟩

theorem Power.keeps_atEdge (c : Core) (edge : BitVec 64) (p : Power) : p.Keeps (p.atEdge c edge) :=
  (p.keeps_elapse c.clk.count.toNat edge.toNat).trans (.ite (.refl _) (.ite ⟨id, rfl, rfl, rfl⟩ (.ite ⟨id, rfl, rfl, rfl⟩ (.refl _))))

theorem Power.keeps_powerWrite (blk off : Nat) (mask v : BitVec 64) (p : Power) : p.Keeps (powerWrite blk off mask v p) := by
  unfold powerWrite Power.faultClear
  split <;> repeat' split
  all_goals exact ⟨id, rfl, rfl, rfl⟩

theorem Power.keeps_writePower (a : RegAcc) (v : BitVec 64) (c : Core) (p : Power) : p.Keeps (writePower a v c p) := by
  unfold writePower
  split
  · split
    · exact p.keeps_powerWrite _ _ _ _
    · exact .refl p
  · exact .refl p

/-- CURRENT_THROTTLE leaves the ratio where it was or between 4 and 8 (R506). -/
theorem Power.keeps_currentThrottle (iin : BitVec 16) (n : Nat) (p : Power) :
    p.Keeps (if 4500 < iin.toNat then { p with iin := iin, current := min p.current (4 + n % 5) } else { p with iin := iin }) :=
  .ite ⟨fun ⟨thermal, current, rest⟩ => ⟨thermal, by dsimp only; omega, rest⟩, rfl, rfl, rfl⟩ ⟨id, rfl, rfl, rfl⟩

theorem Power.Keeps.limits {p q : Power} (keeps : p.Keeps q) (l : List ((Nat × Nat) × BitVec 64)) : p.Keeps { q with limits := l } :=
  ⟨keeps.legal, keeps.capW, keeps.discUs, keeps.detLock⟩

/-- Every command but POWER_POLICY keeps range and policy. -/
theorem exec_keeps {i : Instr} {s t : State} (run : exec i s = .next t) (other : ∀ tn sq tag, i ≠ .powerPolicy tn sq tag) : s.pwr.Keeps t.pwr := by
  cases i
  case powerPolicy tn sq tag => exact absurd rfl (other tn sq tag)
  case thermalThrottleTick rs ms =>
    cases run
    exact ⟨fun ⟨thermal, rest⟩ => ⟨ratioOk_ite (ratioOk_down thermal) (ratioOk_ite (ratioOk_up thermal) thermal), rest⟩, rfl, rfl, rfl⟩
  case currentThrottle iin => cases run; exact s.pwr.keeps_currentThrottle iin _
  case throttleRatioTick vin iin pin cd loops volts =>
    cases run
    exact ⟨fun ⟨thermal, current, margin, ceiling, cap⟩ => ⟨thermal, ratioOk_ite (ratioOk_up current) current,
      ratioOk_ite (ratioOk_down margin) (ratioOk_ite (ratioOk_up margin) margin), ratioOk_watt ceiling _ _,
          ratioOk_ite (ratioOk_up cap) (ratioOk_watt cap _ _)⟩, rfl, rfl, rfl⟩
  case policyLimit kind inst =>
    cases run
    have counted : s.pwr.Keeps (if kind = 0 then { s.pwr with voltLimits := satInc s.pwr.voltLimits } else { s.pwr with eqLimits := satInc s.pwr.eqLimits }) :=
      .ite ⟨id, rfl, rfl, rfl⟩ ⟨id, rfl, rfl, rfl⟩
    exact .ite (counted.limits _) counted
  case haltChannelsAsserted => cases run; exact .ite (.refl _) (Power.keeps_request ..)
  case haltInputFault a => cases run; exact .ite (.refl _) (Power.keeps_request ..)
  case inputTurnOff vin => cases run; exact .ite (s.pwr.keeps_lost _ _) (.refl _)
  case resetReady part pieces => cases run; exact .ite (s.pwr.keeps_ready _) (.refl _)
  case beatEdge edge => cases run; exact .ite (s.pwr.keeps_atEdge _ _) (.refl _)
  case registerWrite a v => cases run; exact s.pwr.keeps_writePower a v _
  case registerAccess a v =>
    cases v with
    | none => cases run; exact .refl _
    | some v => cases run; exact s.pwr.keeps_writePower a v _
  case regWr port f => cases run; exact .ite (s.pwr.keeps_writePower _ _ _) (.refl _)
  case powerTrip kind => cases run; exact .ite ⟨id, rfl, rfl, rfl⟩ (.refl _)
  case tripRestart rs => cases run; exact .ite ⟨id, rfl, rfl, rfl⟩ (.refl _)
  case pwrOkAssert => cases run; exact .ite (.refl _) (.ite ⟨id, rfl, rfl, rfl⟩ (.ite ⟨id, rfl, rfl, rfl⟩ (.refl _)))
  case pwrOkDeassert => cases run; exact .ite (.refl _) ⟨id, rfl, rfl, rfl⟩
  case inputTurnOn => cases run; exact .ite ⟨id, rfl, rfl, rfl⟩ (.refl _)
  case overvoltageTurnOn => cases run; exact .ite ⟨id, rfl, rfl, rfl⟩ (.refl _)
  case inputOutOfRange vin => cases run; exact .ite ⟨id, rfl, rfl, rfl⟩ (.refl _)
  case haltNoBeat => cases run; exact .ite ⟨id, rfl, rfl, rfl⟩ (.refl _)
  case haltRelease => cases run; exact .ite (.ite ⟨id, rfl, rfl, rfl⟩ ⟨id, rfl, rfl, rfl⟩) ⟨id, rfl, rfl, rfl⟩
  case inputFaultClear => cases run; exact .ite ⟨id, rfl, rfl, rfl⟩ (.refl _)
  case pwrLoopClear => cases run; exact .ite ⟨id, rfl, rfl, rfl⟩ (.refl _)
  case throttleTimeClear => cases run; exact .ite ⟨id, rfl, rfl, rfl⟩ (.refl _)
  case resetPhaseDone straps => cases run; exact .ite ⟨id, rfl, rfl, rfl⟩ (.refl _)
  case i3cFaultRecordNext => cases run; exact .ite ⟨id, rfl, rfl, rfl⟩ (.refl _)
  all_goals
    cases run
    exact ⟨id, rfl, rfl, rfl⟩

/-- Settles O4: memory is empty, and each ratio is 16. -/
theorem resetStateIsSafe : Obligations.ResetStateIsSafe := ⟨Memory.wf_empty, by simp [State.reset, Power.legal]⟩

/-- POWER_POLICY leaves the ratios (R505). -/
theorem Power.legal_powerPolicy {p : Power} (legal : p.legal) (c : Core) (t : TenantId) (sq : Nat) (tag : BitVec 32) : (powerPolicy c t sq tag p).legal := by
  unfold powerPolicy
  split
  · split <;> exact legal
  · exact legal

/-- Settles O5: a command keeps memory by `exec_wf` and the ratios by `exec_keeps`; a tick changes neither. -/
theorem stepKeepsStateSafe : Obligations.StepKeepsStateSafe := by
  unfold Obligations.StepKeepsStateSafe
  intro s t ⟨wf, legal⟩ run
  obtain ⟨pending, pwr, mem, core⟩ := s
  cases pending with
  | nil => cases run; exact ⟨wf, legal⟩
  | cons c rest =>
    refine ⟨exec_wf run wf, ?_⟩
    by_cases policy : ∃ tn sq tag, c = .powerPolicy tn sq tag
    · obtain ⟨tn, sq, tag, rfl⟩ := policy
      cases run
      exact Power.legal_powerPolicy legal core tn sq tag
    · exact (exec_keeps run fun tn sq tag same => policy ⟨tn, sq, tag, same⟩).legal legal

end Sys2Proof.Machine
end

section
/-!
Throttling, loops, monitors and the power registers (15 R504 to R508, R519 to R524).
-/

namespace Sys2Proof.Machine

/-! ### Effects on power -/

theorem runP_up {g : Core → Power → Power} {f : Power → Mach → Mach} {s : State} {h : Core → Core}
    (effect : f s.pwr { startMach s with pwr := g s.core s.pwr } = ({ startMach s with pwr := g s.core s.pwr } : Mach).up h) :
    runP g f s = .next { s with pwr := g s.core s.pwr, core := h s.start } := by
  simp only [runP]
  unfold startMach at effect
  rw [effect]
  rfl

theorem Mach.up_ite {p : Prop} [Decidable p] (f : Core → Core) (m : Mach) : (if p then m.up f else m) = m.up fun c => if p then f c else c := by
  split <;> rfl

/-! ### Register words -/

theorem boolNat_le (b : Bool) : boolNat b ≤ 1 := by cases b <;> decide

theorem boolNat_eq_one (b : Bool) : decide (boolNat b = 1) = b := by cases b <;> rfl

theorem place_of_lt {n w : Nat} (h : n < 2 ^ w) (lo : Nat) : place n lo w = n * 2 ^ lo := by
  rw [place, Nat.mod_eq_of_lt h, Nat.shiftLeft_eq]

/-- PWR_POLICY (Table 15-15) as a number. -/
theorem toNat_policyWord {capW discUs : Nat} (cap : capW < 2 ^ 16) (disc : discUs < 2 ^ 16) (lock : Bool) :
    (regWord [(capW, 48, 16), (discUs, 32, 16), (boolNat lock, 16, 1)]).toNat = capW * 2 ^ 48 + discUs * 2 ^ 32 + boolNat lock * 2 ^ 16 := by
  have := boolNat_le lock
  simp only [regWord, List.map_cons, List.map_nil, sumNat, List.foldl_cons, List.foldl_nil, place_of_lt cap, place_of_lt disc,
    place_of_lt (show boolNat lock < 2 ^ 1 by omega), BitVec.toNat_ofNat]
  omega

/-- THM_THROTTLE_TIME (Table 15-19) as a number. -/
theorem toNat_throttleWord (ovf : Bool) (us : BitVec 48) :
    (regWord [(boolNat ovf, 48, 1), (us.toNat, 0, 48)]).toNat = boolNat ovf * 2 ^ 48 + us.toNat := by
  have := boolNat_le ovf
  have := us.isLt
  simp only [regWord, List.map_cons, List.map_nil, sumNat, List.foldl_cons, List.foldl_nil, place_of_lt us.isLt,
    place_of_lt (show boolNat ovf < 2 ^ 1 by omega), BitVec.toNat_ofNat]
  omega

theorem getLsbD_of_toNat {w : BitVec 64} {i : Nat} {b : Bool} (bit : w.toNat / 2 ^ i % 2 = boolNat b) : w.getLsbD i = b := by
  rw [BitVec.getLsbD, Nat.testBit_eq_decide_div_mod_eq, bit, boolNat_eq_one]

/-- Table 15-15 read field by field. -/
theorem policyWord_fields {w : BitVec 64} {capW discUs : Nat} {lock : Bool} (disc : discUs < 2 ^ 16)
    (word : w.toNat = capW * 2 ^ 48 + discUs * 2 ^ 32 + boolNat lock * 2 ^ 16) :
    (w >>> 48).toNat = capW ∧ ((w >>> 32).setWidth 16).toNat = discUs ∧ w.getLsbD 16 = lock ∧ (w >>> 17).setWidth 15 = 0#15 ∧ w.setWidth 16 = 0#16 := by
  have one := boolNat_le lock
  norm_num at disc word
  refine ⟨?_, ?_, getLsbD_of_toNat (by omega), BitVec.eq_of_toNat_eq ?_, BitVec.eq_of_toNat_eq ?_⟩ <;>
    simp only [BitVec.toNat_ushiftRight, BitVec.toNat_setWidth, Nat.shiftRight_eq_div_pow, BitVec.toNat_ofNat] <;> omega

/-- Table 15-19 read field by field. -/
theorem throttleWord_fields {w : BitVec 64} {ovf : Bool} {us : BitVec 48} (word : w.toNat = boolNat ovf * 2 ^ 48 + us.toNat) :
    w.setWidth 48 = us ∧ w.getLsbD 48 = ovf ∧ w >>> 49 = 0 := by
  have one := boolNat_le ovf
  have small := us.isLt
  norm_num at small word
  refine ⟨BitVec.eq_of_toNat_eq ?_, getLsbD_of_toNat (by omega), BitVec.eq_of_toNat_eq ?_⟩ <;>
    simp only [BitVec.toNat_ushiftRight, BitVec.toNat_setWidth, Nat.shiftRight_eq_div_pow] <;> simp <;> omega

/-- Settles O31: the register word read field by field, and `exec_keeps`. -/
theorem powerPolicyRegister : Obligations.PowerPolicyRegister := by
  unfold Obligations.PowerPolicyRegister
  refine ⟨fun s cap disc => policyWord_fields disc (toNat_policyWord cap disc s.pwr.detLock), fun c s t other run => ?_, fun s t idle run => ?_⟩
  · have keeps := exec_keeps run other
    exact ⟨keeps.capW, keeps.discUs, keeps.detLock⟩
  · simp only [step, idle] at run
    cases run
    exact ⟨rfl, rfl, rfl⟩

/-! ### Throttle time (R524) -/

theorem satAdd_zero {w : Nat} (x : BitVec w) : satAdd x 0 = x := by
  rw [satAdd, Nat.add_zero, if_pos x.isLt, BitVec.ofNat_toNat, BitVec.setWidth_eq]

theorem satOvf_zero {w : Nat} (x : BitVec w) : satOvf x 0 = false := by
  have := x.isLt
  simp only [satOvf, decide_eq_false_iff_not]
  omega

theorem toNat_satInc {w : Nat} (x : BitVec w) : (satInc x).toNat = min (2 ^ w - 1) (x.toNat + 1) := by
  have := x.isLt
  unfold satInc satAdd
  split
  next h => rw [BitVec.toNat_ofNat, Nat.mod_eq_of_lt h]; omega
  next h => rw [BitVec.toNat_allOnes]; omega

theorem exec_registerWrite_ready {a : RegAcc} {blk inst off : Nat} (place : a.place = some (blk, inst, off)) {s : State} (writes : a.writes s.core = true)
    (v : BitVec 64) :
    exec (.registerWrite a v) s = .next { s with
      pwr := powerWrite blk (off / 8 * 8) a.mask (a.value v) s.pwr, core := regWrite blk inst (off / 8 * 8) a.mask (a.value v) { s.core with out := [] } } := by
  rw [exec_registerWrite]
  simp [writePower, writeAccess, RegAcc.writes_with_out, writes, place]

theorem powerWrite_throttleTime {v : BitVec 64} (one : v.getLsbD 63 = true) (p : Power) :
    powerWrite 2 0x108 (-1) v p = { p with throttleUs := 0, throttleOvf := false } := by
  have bit : wrote (-1) v 63 = true := by simp [wrote, one]
  exact if_pos bit

theorem exec_registerWrite_throttleTime {s : State} (ready : s.core.rst.phase = 6) {v : BitVec 64} (one : v.getLsbD 63 = true) :
    exec (.registerWrite { fn := 0, off := 0x2000108, size := 8 } v) s =
      .next { s with pwr := { s.pwr with throttleUs := 0, throttleOvf := false }, core := { s.core with out := [] } } := by
  have place : RegAcc.place { fn := 0, off := 0x2000108, size := 8 } = some (2, 0, 0x108) := by decide
  have writes : RegAcc.writes { fn := 0, off := 0x2000108, size := 8 } s.core = true := by
    rw [RegAcc.writes, place, RegAcc.good_of_size_eight rfl rfl, ready]
    rfl
  exact (exec_registerWrite_ready place writes v).trans (congrArg (fun p => Host.Outcome.next { s with pwr := p, core := { s.core with out := [] } })
    (powerWrite_throttleTime one s.pwr))

/-- Settles O32: the word of the register, one tick of the counter, and the two ways to clear it. -/
theorem throttleTimeRegister : Obligations.ThrottleTimeRegister := by
  unfold Obligations.ThrottleTimeRegister
  refine ⟨fun s => throttleWord_fields (toNat_throttleWord _ _), fun s idle _ => ?_, fun s ready => ?_,
    fun s v ready one => ⟨_, exec_registerWrite_throttleTime ready one, rfl, rfl, rfl⟩, rfl, rfl⟩
  · refine ⟨tick s, by simp [step, idle], rfl, fun throttled whole => ?_, fun rests => ?_⟩
    · have one : (s.core.clk.count.toNat + 1) / 1000 - s.core.clk.count.toNat / 1000 = 1 := by omega
      simp only [tick, Power.elapse, throttled, one, if_true, decide_true, Bool.true_and]
      refine ⟨toNat_satInc _, ?_⟩
      simp only [satOvf]
      congr 1
      have : (2 ^ 48 ≤ s.pwr.throttleUs.toNat + 1) = (2 ^ 48 - 1 ≤ s.pwr.throttleUs.toNat) := by
        apply propext; omega
      simp only [this]
    · rcases rests with full | inside
      · simp [tick, Power.elapse, full]
      · have zero : (s.core.clk.count.toNat + 1) / 1000 - s.core.clk.count.toNat / 1000 = 0 := by omega
        simp [tick, Power.elapse, zero, satAdd_zero, satOvf_zero]
  · exact ⟨_, rfl, rfl, rfl, if_pos (beq_iff_eq.2 ready)⟩

/-! ### Throttle causes (R506) -/

/-- Readings taken: each sensor that was read shows one of its readings. -/
theorem Core.temps_takeTemps (rs : List Reading) (c : Core) {k : Nat × Nat} {v : BitVec 16} (shown : lookup? k (c.takeTemps rs).health.temps = some v) :
    lookup? k c.health.temps = some v ∨ ∃ q ∈ rs, (q.die, q.index) = k ∧ q.value = v := by
  induction rs generalizing c with
  | nil => exact .inl shown
  | cons r rest ih =>
    have taken : c.takeTemps (r :: rest) = (c.takeTemps [r]).takeTemps rest := rfl
    rcases ih _ (taken ▸ shown) with before | ⟨q, mem, at_, value⟩
    · change lookup? k (insertKey (r.die, r.index) r.value c.health.temps) = some v at before
      by_cases same : (r.die, r.index) = k
      · subst same
        rw [lookup?_insertKey_self] at before
        exact .inr ⟨r, List.mem_cons_self, rfl, Option.some.inj before⟩
      · rw [lookup?_insertKey_of_ne _ _ same] at before
        exact .inl before
    · exact .inr ⟨q, List.mem_cons_of_mem r mem, at_, value⟩

theorem Core.isSome_takeTemps (rs : List Reading) (c : Core) {k : Nat × Nat} (known : (lookup? k c.health.temps).isSome = true) :
    (lookup? k (c.takeTemps rs).health.temps).isSome = true := by
  induction rs generalizing c with
  | nil => exact known
  | cons r rest ih =>
    refine ih (c.takeTemps [r]) ?_
    change (lookup? k (insertKey (r.die, r.index) r.value c.health.temps)).isSome = true
    by_cases same : (r.die, r.index) = k
    · rw [same, lookup?_insertKey_self]
      rfl
    · rwa [lookup?_insertKey_of_ne _ _ same]

theorem Core.temps_of_mem {rs : List Reading} {r : Reading} (mem : r ∈ rs) (c : Core) :
    ∃ v, lookup? (r.die, r.index) (c.takeTemps rs).health.temps = some v ∧ ∃ q ∈ rs, (q.die, q.index) = (r.die, r.index) ∧ q.value = v := by
  obtain ⟨before, after, rfl⟩ := List.append_of_mem mem
  have split : c.takeTemps (before ++ r :: after) = ((c.takeTemps before).takeTemps [r]).takeTemps after := by
    simp only [Core.takeTemps, List.foldl_append, List.foldl_cons, List.foldl_nil]
  have first : lookup? (r.die, r.index) ((c.takeTemps before).takeTemps [r]).health.temps = some r.value := lookup?_insertKey_self ..
  obtain ⟨v, shown⟩ := Option.isSome_iff_exists.1 (Core.isSome_takeTemps after _ (Option.isSome_iff_exists.2 ⟨_, first⟩))
  refine ⟨v, split ▸ shown, ?_⟩
  rcases Core.temps_takeTemps after _ shown with old | ⟨q, mem, at_, value⟩
  · exact ⟨r, by simp, rfl, Option.some.inj (first.symm.trans old)⟩
  · exact ⟨q, by simp [mem], at_, value⟩

/-- Settles O27: each row's new ratio is written out in its meaning; `wattRatio` and the two steps give the rest. -/
theorem throttleCausesMoveByTheirRules : Obligations.ThrottleCausesMoveByTheirRules := by
  unfold Obligations.ThrottleCausesMoveByTheirRules
  intro s legal
  refine ⟨fun rs ms => ⟨_, rfl, rfl, ?_⟩, fun iin => ?_, fun vin iin pin cd loops volts => ?_⟩
  · refine ⟨fun hot => if_pos hot, fun cold cool due => ?_, fun cold stays => ?_, rfl, rfl, fun r mem => Core.temps_of_mem mem s.start⟩
    · exact (if_neg (by simp [cold])).trans (if_pos (by simp [cool, due]))
    · exact (if_neg (by simp [cold])).trans (if_neg (by rcases stays with off | off <;> simp [off]))
  · obtain ⟨-, ⟨low, -⟩, -⟩ := legal
    refine ⟨_, rfl, rfl, ?_⟩
    dsimp only
    split
    · exact ⟨rfl, rfl, fun _ => by dsimp only; omega, fun small => by omega⟩
    · exact ⟨rfl, rfl, fun big => absurd big ‹_›, fun _ => rfl⟩
  · refine ⟨_, rfl, rfl, rfl, rfl, rfl, rfl, rfl, rfl, rfl, fun above => if_pos above, fun below => ?_, fun near under => ?_, fun capped within above => ?_⟩
    · exact (if_neg (by omega)).trans (if_pos below)
    · exact (if_neg (by omega)).trans (if_neg (by omega))
    · have limit : min s.pwr.capW (ceilingW s.core.ident.profile) = s.pwr.capW := min_eq_left within
      exact (if_neg capped).trans (if_pos (limit.symm ▸ above))

/-! ### Loops and monitors (R504, R508, R426) -/

/-- What a saturated loop leaves in power (R504). -/
def Power.limited (kind inst : Nat) (now : BitVec 64) (p : Power) : Power :=
  let q := if kind = 0 then { p with voltLimits := satInc p.voltLimits } else { p with eqLimits := satInc p.eqLimits }
  if p.limitDue now kind inst then { q with limits := insertKey (kind, inst) now q.limits } else q

theorem exec_policyLimit (kind inst : Nat) (s : State) :
    exec (.policyLimit kind inst) s = .next { s with
      pwr := s.pwr.limited kind inst s.core.clk.count,
      core := if s.pwr.limitDue s.core.clk.count kind inst then s.start.logRec (limitRec kind inst) else s.start } := by
  change execPolicyLimit kind inst s = _
  exact runP_up (Mach.up_ite _ _)

theorem exec_coolantAlarm (i o : BitVec 16) (s : State) :
    exec (.coolantAlarm i o) s = .next { s with
      pwr := { s.pwr with coolIn := i, coolOut := o }
      core := if 176 < o.toInt - i.toInt then s.start.logRec (modRec 0x70A 6 1 0x20 0x14 0) else s.start } := by
  change execCoolantAlarm i o s = _
  exact runP_up (Mach.up_ite _ _)

theorem limitRec_code (kind inst : Nat) : (limitRec kind inst).code = 0x709 ∧ (limitRec kind inst).cls = 6 := by
  unfold limitRec
  split
  · exact ⟨rfl, rfl⟩
  · exact ⟨rfl, rfl⟩
  · split <;> exact ⟨rfl, rfl⟩

theorem Core.logRec_written (r : Rec) (c : Core) : (c.logRec r).log.written = c.log.written + 1 := by
  rw [Core.logRec_log]
  rfl

theorem agingSample_warned (die index : Nat) (ppm : BitVec 32) (c : Core) :
    let d := agingSample die index ppm c
    lookup? (die, index) d.health.aging = some ppm ∧ (15000 < ppm.toNat → (die, index) ∉ c.health.agingWarned → (die, index) ∈ d.health.agingWarned ∧
      ∃ r, d.log.recs.head? = some r ∧ r.code = 0x704 ∧ r.cls = 6) ∧ (ppm.toNat ≤ 15000 → d.log = c.log) ∧
    d.health.agingSuspect = (c.health.agingSuspect || decide (30000 < ppm.toNat)) := by
  have taken : lookup? (die, index) (insertKey (die, index) ppm c.health.aging) = some ppm := lookup?_insertKey_self ..
  have known : (!c.health.agingWarned.contains (die, index)) = decide ((die, index) ∉ c.health.agingWarned) := by simp
  have due : (decide (15000 < ppm.toNat) && !(c.modHealth (fun h => { h with aging := insertKey (die, index) ppm h.aging })).health.agingWarned.contains
    (die, index)) =
      decide (15000 < ppm.toNat ∧ (die, index) ∉ c.health.agingWarned) := by
    rw [Bool.decide_and, ← known]
    rfl
  simp only [agingSample, due, decide_eq_true_eq]
  split_ifs with suspect warn warn
  · exact ⟨taken, fun _ _ => ⟨by simp, _, rfl, rfl, rfl⟩, fun low => absurd warn.1 (by omega), by simp [suspect]⟩
  · exact ⟨taken, fun high new => absurd ⟨high, new⟩ warn, fun _ => rfl, by simp [suspect]⟩
  · exact ⟨taken, fun _ _ => ⟨by simp, _, rfl, rfl, rfl⟩, fun low => absurd warn.1 (by omega), by simp [suspect]⟩
  · exact ⟨taken, fun high new => absurd ⟨high, new⟩ warn, fun _ => rfl, by simp [suspect]⟩

theorem sensorMismatch_excluded (r : Reading) (c : Core) :
    let d := sensorMismatch r c
    (r.die, r.index) ∈ d.health.excluded ∧ lookup? (r.die, r.index) d.health.temps = some r.value ∧ ((r.die, r.index) ∈ c.health.excluded → d.log = c.log) ∧
    ((r.die, r.index) ∉ c.health.excluded → ∃ q, d.log.recs.head? = some q ∧ q.code = 0x70A ∧ q.cls = 6) := by
  have taken : lookup? (r.die, r.index) (c.takeTemps [r]).health.temps = some r.value := lookup?_insertKey_self ..
  have same : (c.takeTemps [r]).health.excluded = c.health.excluded := rfl
  by_cases known : (r.die, r.index) ∈ c.health.excluded
  · simp [sensorMismatch, same, known, taken]
    rfl
  · simp [sensorMismatch, same, known, taken, Core.logRec_head, Core.stamped, modRec]

/-- Settles O30: each row writes its reading, and its record is the newest of the log. -/
theorem loopsAndMonitorsRaiseTheirRecords : Obligations.LoopsAndMonitorsRaiseTheirRecords := by
  unfold Obligations.LoopsAndMonitorsRaiseTheirRecords
  intro s
  refine ⟨fun kind inst => ?_, fun i o => ?_, fun die index ppm => ?_, fun r => ?_, fun ready => ⟨_, rfl, rfl, rfl, if_pos (beq_iff_eq.2 ready)⟩⟩
  · obtain ⟨code, cls⟩ := limitRec_code kind inst
    refine ⟨_, exec_policyLimit kind inst s, rfl, ?_⟩
    cases due : s.pwr.limitDue s.core.clk.count kind inst
    · rcases eq_or_ne kind 0 with rfl | other
      · simp [Power.limited, due, State.start]
      · simp [Power.limited, due, other, State.start]
    · have record : ∃ r, (s.start.logRec (limitRec kind inst)).log.recs.head? = some r ∧ r.code = 0x709 ∧ r.cls = 6 ∧
          (s.start.logRec (limitRec kind inst)).log.written = s.core.log.written + 1 := ⟨_, Core.logRec_head .., code, cls, Core.logRec_written ..⟩
      rcases eq_or_ne kind 0 with rfl | other
      · simp [Power.limited, due, lookup?_insertKey_self]
        exact record
      · simp [Power.limited, due, other, lookup?_insertKey_self]
        exact record
  · refine ⟨_, exec_coolantAlarm i o s, rfl, rfl, fun hot => ?_, fun cool => if_neg (by omega)⟩
    exact ⟨_, by rw [if_pos hot, Core.logRec_head], rfl, rfl⟩
  · have effect := agingSample_warned die index ppm s.start
    exact ⟨_, rfl, rfl, rfl, effect⟩
  · have effect := sensorMismatch_excluded r s.start
    exact ⟨_, rfl, rfl, rfl, effect⟩

/-! ### The halt input (R509, R510, R521) -/

/-- What a halt of 10 s does to a multi-module job (R510). -/
def Core.stopOut (h : Nat) (c : Core) : Core := (c.memberFailed h).modJob h (fun j => { j with phase := .stoppedLimit, holds := [], posts := [], rollback := none })

theorem Core.jobs_stopOut (h : Nat) (c : Core) {j : Job} (mem : j ∈ (c.stopOut h).jobs) :
    ∃ old ∈ c.jobs, j.plan = old.plan ∧ (j.phase = .stoppedLimit ∨ j.phase = old.phase ∧ old.plan ≠ h) := by
  simp only [Core.stopOut, Core.memberFailed, Core.modJob, List.mem_map] at mem
  obtain ⟨_, ⟨old, oldMem, rfl⟩, rfl⟩ := mem
  have plan : (old.unclean 3).plan = old.plan := rfl
  refine ⟨old, oldMem, ?_⟩
  by_cases named : old.plan = h <;> simp [named, plan]

/-- Jobs stopped by a halt of 10 s: a plan listed keeps no job in another phase. -/
theorem Core.jobs_foldl_stopOut (hs : List Nat) (c : Core) {j : Job} (mem : j ∈ (hs.foldl (fun c h => c.stopOut h) c).jobs) :
    ∃ old ∈ c.jobs, j.plan = old.plan ∧ (j.phase = .stoppedLimit ∨ j.phase = old.phase ∧ old.plan ∉ hs) := by
  induction hs generalizing c with
  | nil => exact ⟨j, mem, rfl, .inr ⟨rfl, List.not_mem_nil⟩⟩
  | cons h rest ih =>
    obtain ⟨mid, midMem, laterPlan, later⟩ := ih (c.stopOut h) mem
    obtain ⟨old, oldMem, firstPlan, first⟩ := Core.jobs_stopOut h c midMem
    refine ⟨old, oldMem, laterPlan.trans firstPlan, ?_⟩
    rcases later with stopped | ⟨laterPhase, notRest⟩
    · exact .inl stopped
    · rcases first with stopped | ⟨firstPhase, notFirst⟩
      · exact .inl (laterPhase.trans stopped)
      · exact .inr ⟨laterPhase.trans firstPhase, by simp [notFirst, firstPlan ▸ notRest]⟩

theorem Core.multiModule_congr {c : Core} {j k : Job} (plan : j.plan = k.plan) : c.multiModule j = c.multiModule k := by
  simp only [Core.multiModule, plan]

theorem exec_haltInputFault (a : Bool) {s : State} (on : s.pwr.off = 0) (runs : s.pwr.halted = false) :
    exec (.haltInputFault a) s = .next { s with
      pwr := { s.pwr with aLow := a, bLow := !a, inputFault := true, runFault := true, haltReq := some (s.pwr.haltReq.getD s.core.clk.count) }
      core := s.start.logRec (modRec 0x70B 5 2 0x20 0 0) } := by
  change execHaltInputFault a s = _
  simp [execHaltInputFault, runP, on, Power.request, runs, Mach.up, State.start]
  rfl

/-- The multi-module jobs that no phase has stopped. -/
def Core.haltedPlans (c : Core) : List Nat :=
  (c.jobs.filter (fun j => c.multiModule j && j.phase != .stoppedLimit && j.phase != .stoppedFallback && j.phase != .filled)).map (fun j => j.plan)

theorem exec_haltTimeout {s : State} (halted : s.pwr.halted = true) :
    exec .haltTimeout s = .next { s with core := s.core.haltedPlans.foldl (fun c h => c.stopOut h) s.start } := by
  refine runM_up (g := fun c => s.core.haltedPlans.foldl (fun c h => c.stopOut h) c) ?_
  exact (if_pos halted).trans (Mach.foldl_up (fun c h => Core.stopOut h c) _ _)

/-- Settles O29: each row's change of power is written out in its meaning; the ten seconds stop every multi-module job in the list that they walk. -/
theorem haltInputRequestsAndReleases : Obligations.HaltInputRequestsAndReleases := by
  unfold Obligations.HaltInputRequestsAndReleases
  intro s
  refine ⟨fun on runs => ⟨_, rfl, ?_, rfl, rfl⟩, fun a on runs => ?_, fun n => ⟨_, rfl, rfl, rfl, ?_⟩, fun r req runs unset ready => ?_, fun halted => ?_,
    fun halted => ?_,
    fun ready => ⟨_, rfl, rfl, rfl, ?_⟩⟩
  · simp [on, Power.request, runs]
  · exact ⟨_, _, exec_haltInputFault a on runs, rfl, rfl, Core.logRec_head .., rfl, rfl, Core.logRec_written ..⟩
  · simp
  · have now : haltsNow s.core s.pwr = true := by simp [haltsNow, req, runs, unset, ready]
    exact ⟨_, rfl, if_pos now⟩
  · cases fault : s.pwr.inputFault <;> cases set : s.core.clk.epochSet <;>
      exact ⟨_, rfl, rfl, rfl, by simp [halted, fault, set], by simp [halted, fault, set], by simp [halted, fault, set], by simp [halted, fault, set],
        by simp [halted, fault, set]⟩
  · refine ⟨_, exec_haltTimeout halted, rfl, rfl, fun j mem multi => ?_⟩
    obtain ⟨old, oldMem, plan, stopped | ⟨phase, kept⟩⟩ := Core.jobs_foldl_stopOut _ s.start mem
    · exact .inl stopped
    · rw [Core.multiModule_congr plan] at multi
      by_contra other
      refine kept (List.mem_map_of_mem (List.mem_filter.2 ⟨oldMem, ?_⟩))
      simp only [phase, not_or] at other
      simp [multi, other]
  · cases low : s.pwr.aLow || s.pwr.bLow
    · rw [Bool.or_eq_false_iff] at low
      simp [ready, low]
    · have held : ¬(s.core.rst.phase == 6 && !s.pwr.aLow && !s.pwr.bLow) = true := by
        rw [Bool.and_assoc, ← Bool.not_or, low]
        simp
      exact (if_neg held).trans (by rw [Bool.and_true])

/-! ### The management buses (R517, R518) -/

theorem Power.statusWord_clear (p : Power) : Power.statusWord { p with pmInput := 0, pmTemp := 0 } = 0 := rfl

theorem Core.pmAlert_clear {old p : Power} (clear : p.statusWord = 0) (c : Core) :
    c.pmAlert old p = { c with out := c.out ++ if old.statusWord = 0 then [] else [.pin "PMB_ALERT_N" false] } := by
  rw [Core.pmAlert, clear]
  by_cases before : old.statusWord = 0
  · rw [before, if_neg (by decide), if_pos rfl, List.append_nil]
  · rw [if_pos (by simpa using before), if_neg before]
    rfl

theorem exec_clearFaults (s : State) :
    exec .clearFaults s = .next { s with
      pwr := { s.pwr with pmInput := 0, pmTemp := 0 }
      core := { s.core with out := if s.pwr.statusWord = 0 then [] else [.pin "PMB_ALERT_N" false] } } := by
  have run : exec .clearFaults s =
      .next { s with pwr := { s.pwr with pmInput := 0, pmTemp := 0 }, core := s.start.pmAlert s.pwr { s.pwr with pmInput := 0, pmTemp := 0 } } := rfl
  rw [run, Core.pmAlert_clear (Power.statusWord_clear s.pwr)]
  rfl

/-- Settles O34: each row's answer is written out in its meaning; the phase, recovery and the record at the read position are the only choices. -/
theorem managementBusesAnswer : Obligations.ManagementBusesAnswer := by
  unfold Obligations.ManagementBusesAnswer
  intro s answers block word
  have answer : ∀ {c : Instr} {o : Out}, exec c s = .next { s with core := { s.core with out := [o] } } → answers c o := fun run => ⟨_, run, rfl, rfl, rfl⟩
  have open_ : s.core.rst.phase = 6 ∨ s.core.rst.recovery = true → ¬(s.core.rst.phase != 6 && !s.core.rst.recovery) = true := by
    rintro (ready | recovery) <;> simp [*]
  refine ⟨answer rfl, answer rfl, answer rfl, answer rfl, answer ?_, fun early => ⟨_, rfl, ?_, ?_, rfl⟩, fun r ready record => ⟨_, rfl, rfl, ?_, ?_⟩,
    fun a => ⟨_, rfl, rfl, rfl, rfl⟩,
    ⟨_, exec_clearFaults s, rfl, rfl, rfl, rfl⟩, answer rfl, answer rfl, answer rfl, answer rfl, answer rfl, answer rfl, answer rfl, answer rfl,
        answer rfl, answer rfl, answer rfl,
    answer rfl, answer rfl, answer rfl, answer rfl, ?_, ⟨_, rfl, rfl, rfl, rfl⟩, fun q early booting => answer ?_, fun i runs => answer ?_,
        fun runs => ⟨answer ?_, answer ?_⟩⟩
  · by_cases ready : s.core.rst.phase = 6
    · rw [if_pos ready]
      exact congrArg _ (congrArg _ (if_pos (beq_iff_eq.2 ready)))
    · rw [if_neg ready]
      exact congrArg _ (congrArg _ (if_neg (by simp [ready])))
  · exact if_neg (by simp [early])
  · exact if_neg (by simp [early])
  · exact if_pos (by rw [Bool.and_eq_true]; exact ⟨beq_iff_eq.2 ready, by cases h : s.core.log.history <;> simp_all⟩)
  · refine (if_pos (beq_iff_eq.2 ready)).trans ?_
    simp only [record]
    rfl
  · simp only [List.forall_mem_cons]
    exact ⟨⟨_, rfl, rfl, rfl, rfl⟩, ⟨_, rfl, rfl, rfl, rfl⟩, ⟨_, rfl, rfl, rfl, rfl⟩, ⟨_, rfl, rfl, rfl, rfl⟩, ⟨_, rfl, rfl, rfl, rfl⟩,
      fun _ none => absurd none List.not_mem_nil⟩
  · exact congrArg _ (congrArg _ (if_pos (by simp [early, booting])))
  · exact congrArg _ (congrArg _ (if_neg (open_ runs)))
  · exact congrArg _ (congrArg _ (if_neg (open_ runs)))
  · exact congrArg _ (congrArg _ (if_neg (open_ runs)))

end Sys2Proof.Machine
end

section
/-!
The error log (12 R411, R416, R437): how a record enters the ring, and how the record window shows it.
-/

namespace Sys2Proof.Machine

theorem natLE_lt (bs : List Byte) : natLE bs < 256 ^ bs.length := by
  induction bs with
  | nil => simp [natLE]
  | cons b rest ih =>
    have byte : b.toNat < 256 := b.isLt
    rw [natLE, List.length_cons, pow_succ]
    omega

/-- The bytes of the number that bytes make up are those bytes. -/
theorem bytesLE_natLE (bs : List Byte) : bytesLE bs.length (natLE bs) = bs := by
  induction bs with
  | nil => rfl
  | cons b rest ih =>
    have byte : b.toNat < 256 := b.isLt
    have low : BitVec.ofNat 8 (natLE (b :: rest)) = b := BitVec.eq_of_toNat_eq (by rw [natLE, BitVec.toNat_ofNat]; omega)
    have high : natLE (b :: rest) / 256 = natLE rest := by rw [natLE]; omega
    rw [List.length_cons, bytesLE, low, high, ih]

theorem bytesLE_word_field {bs : List Byte} {i : Nat} (h : i + 8 ≤ bs.length) : bytesLE 8 (BitVec.ofNat 64 (fieldAt bs i 8)).toNat = slice bs i 8 := by
  have size : (slice bs i 8).length = 8 := by
    rw [slice, List.length_take, List.length_drop]
    omega
  have fits : fieldAt bs i 8 < 2 ^ 64 := by
    have := natLE_lt (slice bs i 8)
    rwa [size] at this
  have back := bytesLE_natLE (slice bs i 8)
  rw [size] at back
  rw [BitVec.toNat_ofNat, Nat.mod_eq_of_lt fits, fieldAt, back]

theorem length_recBytes (r : Rec) : (recBytes r).length = 64 := by
  simp [recBytes, recBody, padTo_length]

/-! ### A record enters the ring -/

/-- At most 4,096 numbers without a gap differ modulo 4,096. -/
theorem Log.numbered.slot_inj {l : Log} (ok : l.numbered) {q r : Rec} (hq : q ∈ l.recs) (hr : r ∈ l.recs)
    (same : q.seq.toNat % 4096 = r.seq.toNat % 4096) : q = r := by
  obtain ⟨i, hi⟩ := List.mem_iff_getElem?.1 hq
  obtain ⟨j, hj⟩ := List.mem_iff_getElem?.1 hr
  have small : ∀ {n x}, l.recs[n]? = some x → n < 4096 := fun h => (List.getElem?_eq_some_iff.1 h).1.trans_le ok.ring
  have hi' := small hi
  have hj' := small hj
  rw [ok.seq i q hi, ok.seq j r hj] at same
  have index : i = j := by
    have := l.written.isLt
    simp only [BitVec.toNat_sub, BitVec.toNat_ofNat] at same
    omega
  rw [index] at hi
  exact Option.some.inj (hi.symm.trans hj)

theorem Log.numbered.push {l : Log} (ok : l.numbered) {r : Rec} (next : r.seq = l.written) : (l.push r).numbered where
  seq i q found := by
    have kept : ((r :: l.recs).take 4096)[i]? = some q := found
    rw [List.getElem?_take] at kept
    split at kept
    case isTrue inside =>
      cases i with
      | zero =>
        obtain rfl : r = q := Option.some.inj kept
        rw [next, show (l.push r).written = l.written + 1 from rfl]
        bv_omega
      | succ i =>
        rw [ok.seq i q kept, show (l.push r).written = l.written + 1 from rfl]
        refine BitVec.eq_of_toNat_eq ?_
        have one : (1 : BitVec 32).toNat = 1 := rfl
        simp only [BitVec.toNat_sub, BitVec.toNat_add, BitVec.toNat_ofNat, one]
        omega
    case isFalse => exact absurd kept (by simp)
  ring := by
    have kept : (l.push r).recs = (r :: l.recs).take 4096 := rfl
    rw [kept, List.length_take]
    omega
  history := by
    obtain ⟨few, classes⟩ := ok.history
    by_cases enters : (r.cls == 2 || r.cls == 4) = true
    · have kept : (l.push r).history = (r :: l.history).take 256 := if_pos enters
      rw [kept, List.length_take]
      refine ⟨by omega, fun q mem => ?_⟩
      rcases List.mem_cons.1 (List.mem_of_mem_take mem) with rfl | old
      · simpa using enters
      · exact classes q old
    · have kept : (l.push r).history = l.history := if_neg enters
      rw [kept]
      exact ⟨few, classes⟩

/-! ### The record window -/

/-- An 8-byte word of the window lies in one slot. -/
theorem readErr_window (c : Core) {k j : Nat} (hk : k < 4096) (hj : j < 8) :
    readErr c (0x10000 + k * 64 + 8 * j) =
      (c.log.recs.find? (fun r => r.seq.toNat % 4096 == k)).elim 0 (fun r => BitVec.ofNat 64 (fieldAt (recBytes r) (8 * j) 8)) := by
  have inside : inRange (0x10000 + k * 64 + 8 * j) 0x10000 0x40000 = true := by
    simp only [inRange, Bool.and_eq_true, decide_eq_true_eq]
    omega
  have slot : (0x10000 + k * 64 + 8 * j - 0x10000) / 64 = k := by omega
  have word : (0x10000 + k * 64 + 8 * j) % 64 = 8 * j := by omega
  unfold readErr
  split
  · omega
  · omega
  · rw [if_pos inside, slot, word]
    cases c.log.recs.find? (fun r => r.seq.toNat % 4096 == k) <;> rfl

theorem Log.numbered.find?_slot {l : Log} (ok : l.numbered) {r : Rec} (mem : r ∈ l.recs) :
    l.recs.find? (fun q => q.seq.toNat % 4096 == r.seq.toNat % 4096) = some r := by
  have some : (l.recs.find? (fun q => q.seq.toNat % 4096 == r.seq.toNat % 4096)).isSome = true := List.find?_isSome.2 ⟨r, mem, by simp⟩
  obtain ⟨q, found⟩ := Option.isSome_iff_exists.1 some
  rw [found, ok.slot_inj (List.mem_of_find?_eq_some found) mem (by simpa using List.find?_some found)]

/-- An 8-byte read in the error log's block. -/
theorem exec_registerRead_errorLog {s : State} (ready : s.core.rst.phase = 6) {off : Nat} (aligned : off % 8 = 0) (small : off < 0x1000000) {d : List Byte}
    (shows : bytesLE 8 (readErr s.core off).toNat = d) :
    exec (.registerAccess { fn := 0, off := 0xE000000 + off, size := 8 } none) s = .next (s.upd fun c => { c with out := [.data d] }) := by
  subst shows
  have place : RegAcc.place { fn := 0, off := 0xE000000 + off, size := 8 } = some (8, 0, off) := by
    have here := pfPlace_errorLog (off := 0xE000000 + off) (by omega) (by omega)
    rw [Nat.add_sub_cancel_left] at here
    exact here
  have whole : off / 8 * 8 = off := by omega
  have gives := (aligned_read_answers_register (s := s) ready place (fun h => absurd h (by decide)) (fun h => absurd h (by decide))).1 rfl
    (by change (0xE000000 + off) % 8 = 0; omega)
  rw [whole] at gives
  exact gives

/-- Settles O60: `Log.push` keeps the numbering, and the window's slots are distinct. -/
theorem errorRecordsEnterAndReadBack : Obligations.ErrorRecordsEnterAndReadBack := by
  unfold Obligations.ErrorRecordsEnterAndReadBack
  refine ⟨⟨fun i r h => by simp [State.reset] at h, by decide, by decide, by simp [State.reset]⟩,
    fun l r ok next => ⟨ok.push next, rfl, Log.push_head l r, rfl, ?_, ?_, ?_⟩, fun r c => ?_,
    fun s ready ok => ⟨fun r mem j hj => ?_, fun k hk none j hj => ?_, ?_, ?_⟩⟩
  · have full : 4096 ≤ l.recs.length ↔ l.recs.length = 4096 := ⟨fun h => le_antisymm ok.ring h, fun h => h.ge⟩
    have lost : (decide (4096 ≤ l.recs.length) && !(readPassed l.read (l.written - 4096))) =
        decide (l.recs.length = 4096 ∧ readPassed l.read (l.written - 4096) = false) := by
      rw [Bool.decide_and, decide_eq_decide.2 full]
      cases readPassed l.read (l.written - 4096) <;> rfl
    simp only [Log.push, lost, decide_eq_true_eq]
  · rintro (class2 | class4)
    · simp [Log.push, class2]
    · simp [Log.push, class4]
  · exact fun not2 not4 => if_neg (by simpa using ⟨not2, not4⟩)
  · exact ⟨c.stamped r, Core.logRec_log r c, rfl, rfl, rfl, rfl, rfl, rfl, rfl, rfl⟩
  · have slot : r.seq.toNat % 4096 < 4096 := Nat.mod_lt _ (by decide)
    refine exec_registerRead_errorLog ready (by omega) (by omega) ?_
    rw [readErr_window _ slot hj, ok.find?_slot mem]
    exact bytesLE_word_field (by rw [length_recBytes]; omega)
  · have empty : s.core.log.recs.find? (fun r => r.seq.toNat % 4096 == k) = Option.none := by simpa using none
    refine exec_registerRead_errorLog ready (by omega) (by omega) ?_
    rw [readErr_window _ hk hj, empty, Option.elim_none]
    decide
  · refine exec_registerRead_errorLog ready (by omega) (by omega) ?_
    have small : s.core.log.written.toNat < 2 ^ 64 := s.core.log.written.isLt.trans (by decide)
    rw [readErr, BitVec.toNat_setWidth, Nat.mod_eq_of_lt small]
  · refine exec_registerRead_errorLog ready (by omega) (by omega) ?_
    have overrun := s.core.log.overrun.isLt
    have passed := s.core.log.read.isLt
    simp only [readErr, regWord, List.map_cons, List.map_nil, sumNat, List.foldl_cons, List.foldl_nil, place_of_lt overrun, place_of_lt passed,
      BitVec.toNat_ofNat]
    congr 1
    omega

end Sys2Proof.Machine
end

section
/-!
Apertures (13 R446, R472, R473): the key of an aperture byte, and the writes of a request taken unit by unit (07 R229).
-/

namespace Sys2Proof.Machine

/-! ### Keys of an aperture -/

theorem Core.hbmView_unit {c : Core} {t : TenantId} {p a b k : Nat} (unit : a / 64 = b / 64) (view : c.hbmView t p a = some k) :
    k % 64 = a % 64 ∧ c.hbmView t p b = some (k - a % 64 + b % 64) := by
  have extent : b / 2 ^ 26 = a / 2 ^ 26 := by omega
  simp only [Core.hbmView, Option.map_eq_some_iff] at view
  obtain ⟨ext, held, rfl⟩ := view
  simp only [Core.hbmView, extent, held, Option.map_some, hbmKey, Option.some.injEq]
  omega

/-- The bytes of one unit of an aperture are bytes of one unit of memory, at the same places (13 R446). -/
theorem Core.apKey_unit {c : Core} {t : TenantId} {a b k : Nat} {w : Bool} (unit : a / 64 = b / 64) (key : c.apKey t a = some (k, w)) :
    k % 64 = a % 64 ∧ c.apKey t b = some (k - a % 64 + b % 64, w) := by
  have window : b / 2 ^ 30 = a / 2 ^ 30 := by omega
  have low : a % 2 ^ 30 % 64 = a % 64 := by omega
  have low' : b % 2 ^ 30 % 64 = b % 64 := by omega
  unfold Core.apKey at key ⊢
  rw [window]
  generalize ((lookup? (a / 2 ^ 30) (c.ten t.toNat).apertures).getD 0).toNat = word at key ⊢
  dsimp only at key ⊢
  split at key
  case isTrue => exact absurd key (by simp)
  case isFalse valid =>
    rw [if_neg valid]
    split at key
    · obtain ⟨k', view, same⟩ := Option.map_eq_some_iff.1 key
      obtain ⟨rfl, rfl⟩ := Prod.mk.inj same
      obtain ⟨place, other⟩ := Core.hbmView_unit (b := field word 30 6 * 2 ^ 30 + b % 2 ^ 30) (by omega) view
      have here : (field word 30 6 * 2 ^ 30 + a % 2 ^ 30) % 64 = a % 64 := by omega
      have there : (field word 30 6 * 2 ^ 30 + b % 2 ^ 30) % 64 = b % 64 := by omega
      rw [here] at place other
      rw [there] at other
      exact ⟨place, by rw [other, Option.map_some]⟩
    · have granule : b % 2 ^ 30 / 2 ^ 24 = a % 2 ^ 30 / 2 ^ 24 := by omega
      obtain ⟨k', view, same⟩ := Option.map_eq_some_iff.1 key
      obtain ⟨rfl, rfl⟩ := Prod.mk.inj same
      rw [granule]
      split at view
      case isTrue leased =>
        obtain rfl := Option.some.inj view
        rw [if_pos leased]
        simp only [cmKey, Option.map_some, Option.some.injEq, Prod.mk.injEq, and_true]
        omega
      case isFalse => exact absurd view (by simp)
    · exact absurd key (by simp)

/-! ### The bytes of a request that lie in one unit -/

/-- The bytes of an aperture request at `addr`, byte `i` at key `ks i`: units of the request are units of memory. -/
structure ApKeys (addr n : Nat) (ks : Nat → Nat) : Prop where
  place : ∀ i < n, ks i % 64 = (addr + i) % 64
  along : ∀ i < n, ∀ l < n, (addr + i) / 64 = (addr + l) / 64 → ks i / 64 = ks l / 64
  apart : ∀ i < n, ∀ l < n, ks i / 64 = ks l / 64 → (addr + i) / 64 = (addr + l) / 64

theorem filter_range_interval (n lo hi : Nat) : (List.range n).filter (fun i => decide (lo ≤ i ∧ i < hi)) = List.range' lo (min n hi - lo) := by
  induction n with
  | zero => simp
  | succ n ih =>
    rw [List.range_succ, List.filter_append, ih]
    by_cases inside : lo ≤ n ∧ n < hi
    · have more : min (n + 1) hi - lo = min n hi - lo + 1 := by omega
      have last : lo + (min n hi - lo) = n := by omega
      rw [more, List.range'_1_concat, last]
      simp [inside]
    · have same : min (n + 1) hi - lo = min n hi - lo := by omega
      simp [inside, same]

/-- The bytes of a request in the unit of its byte `i₀`: `count` of them from byte `first` on. -/
structure ApKeys.Run (n : Nat) (ks : Nat → Nat) (u first count : Nat) : Prop where
  within : first + count ≤ n
  nonempty : 0 < count
  keys : ∀ i, first ≤ i → i < first + count → ks i = ks first + (i - first)
  iff : ∀ i < n, ks i / 64 = u ↔ first ≤ i ∧ i < first + count

theorem ApKeys.run {addr n : Nat} {ks : Nat → Nat} (h : ApKeys addr n ks) {i₀ : Nat} (lt : i₀ < n) :
    ∃ first count, ApKeys.Run n ks (ks i₀ / 64) first count ∧
      (List.range n).filter (fun i => ks i / 64 == ks i₀ / 64) = List.range' first count := by
  let unit := (addr + i₀) / 64
  let first := unit * 64 - addr
  let stop := unit * 64 + 64 - addr
  have same : ∀ i < n, ks i / 64 = ks i₀ / 64 ↔ first ≤ i ∧ i < stop := fun i hi => by
    have : (addr + i) / 64 = (addr + i₀) / 64 ↔ first ≤ i ∧ i < stop := by omega
    exact ⟨fun e => this.1 (h.apart i hi i₀ lt e), fun e => h.along i hi i₀ lt (this.2 e)⟩
  refine ⟨first, min n stop - first, ⟨by omega, by omega, fun i low high => ?_, fun i hi => ?_⟩, ?_⟩
  · have unitI := (same i (by omega)).2 ⟨low, by omega⟩
    have unitF := (same first (by omega)).2 ⟨le_rfl, by omega⟩
    have placeI := h.place i (by omega)
    have placeF := h.place first (by omega)
    omega
  · rw [same i hi]
    omega
  · rw [← filter_range_interval]
    refine List.filter_congr fun i mem => ?_
    rw [Bool.eq_iff_iff, beq_iff_eq, decide_eq_true_eq]
    exact same i (List.mem_range.1 mem)

/-! ### One unit of a request written -/

/-- The bytes of a request that lie in unit `u`, written: a whole unit takes the poison bit of the request, another keeps its own (07 R229). -/
def Mach.apUnit (ks : List Nat) (bs : List Byte) (ep : Bool) (m : Mach) (u : Nat) : Mach :=
  let here := (ks.zip bs).filter (fun e => e.1 / 64 == u)
  match here with
  | [] => m
  | e :: _ => if here.length = 64 then m.putUnit (u * 64) (here.map Prod.snd) ep else m.patch e.1 (here.map Prod.snd)

theorem Core.unlined_unitWrite (k : Nat) (c : Core) :
    (let c1 := c.bumpGen (c.regionOf k) 1; if isHbmKey k then c1.dropLines (k / 64) 1 else c1).unlined = c.unlined := by
  dsimp only
  split <;> rfl

theorem Mach.putUnit_stores {keys : Nat → Prop} {k : Nat} (inside : ∀ i < 64, keys (k + i)) (bs : List Byte) (q : Bool) (m : Mach) :
    Mach.Stores keys m (m.putUnit k bs q) := by
  refine ⟨((Mach.Ext.write (fun a lo hi => ?_) m).trans (Mach.Ext.write (fun _ lo hi => absurd hi (Nat.not_lt.2 lo)) _)).then_up _,
    Core.unlined_unitWrite k m.core⟩
  simp only [Wr.range, padTo_length] at lo hi
  have here := inside (a - k) (by omega)
  rwa [Nat.add_sub_cancel' lo] at here

theorem Mach.patch_stores {keys : Nat → Prop} {k : Nat} {bs : List Byte} (inside : ∀ i < bs.length, keys (k + i)) (m : Mach) :
    Mach.Stores keys m (m.patch k bs) := by
  refine ⟨(Mach.Ext.write (fun a lo hi => ?_) m).then_up _, Core.unlined_unitWrite k m.core⟩
  simp only [Wr.range] at lo hi
  have here := inside (a - k) (by omega)
  rwa [Nat.add_sub_cancel' lo] at here

theorem Mach.patch_byte (k a : Nat) (bs : List Byte) (m : Mach) :
    memByte (m.patch k bs).mem a = if k ≤ a ∧ a < k + bs.length then bs.getD (a - k) 0 else memByte m.mem a := memByte_bytes ..

theorem Mach.patch_poison (k v : Nat) (bs : List Byte) (m : Mach) : memPoisoned (m.patch k bs).mem v 1 = memPoisoned m.mem v 1 := memPoisoned_bytes ..

theorem zip_eq_map_range {α β : Type} (a : α) (b : β) (l : List α) {r : List β} (same : r.length = l.length) :
    l.zip r = (List.range l.length).map (fun i => (l.getD i a, r.getD i b)) := by
  refine List.ext_getElem (by simp [same]) fun i h _ => ?_
  have lt : i < l.length := (by simpa [same] using h : _)
  simp [lt, same.symm ▸ lt]

section
variable {ks : List Nat} {bs : List Byte} {ep : Bool} {m : Mach} {u first count : Nat}

/-- The bytes of a run. -/
def runBytes (bs : List Byte) (first count : Nat) : List Byte := (List.range' first count).map (fun i => bs.getD i 0)

@[simp] theorem length_runBytes (bs : List Byte) (first count : Nat) : (runBytes bs first count).length = count := by simp [runBytes]

theorem runBytes_getD (bs : List Byte) (first : Nat) {j count : Nat} (lt : j < count) : (runBytes bs first count).getD j 0 = bs.getD (first + j) 0 := by
  simp [runBytes, lt]

theorem Mach.apUnit_of_run (same : bs.length = ks.length) (run : ApKeys.Run ks.length (ks.getD · 0) u first count)
    (here : (List.range ks.length).filter (fun i => ks.getD i 0 / 64 == u) = List.range' first count) :
    m.apUnit ks bs ep u = if count = 64 then m.putUnit (u * 64) (runBytes bs first count) ep else m.patch (ks.getD first 0) (runBytes bs first count) := by
  have filtered : (ks.zip bs).filter (fun e => e.1 / 64 == u) = (List.range' first count).map (fun i => (ks.getD i 0, bs.getD i 0)) := by
    rw [zip_eq_map_range 0 0 ks same, List.filter_map, ← here]
    rfl
  obtain ⟨rest, rfl⟩ : ∃ rest, count = rest + 1 := ⟨count - 1, by have := run.nonempty; omega⟩
  unfold Mach.apUnit
  rw [filtered, List.range'_succ, List.map_cons]
  simp [runBytes, List.range'_succ, Function.comp_def]

/-- A unit that the run fills. -/
theorem ApKeys.Run.full_iff (run : ApKeys.Run ks.length (ks.getD · 0) u first count) : count = 64 ↔ ∀ b < 64, u * 64 + b ∈ ks := by
  have at_ : ∀ i < ks.length, ks.getD i 0 ∈ ks := fun i lt => by simp [lt]
  have unit : ∀ i, first ≤ i → i < first + count → ks.getD i 0 / 64 = u := fun i low high => (run.iff i (by have := run.within; omega)).2 ⟨low, high⟩
  have within := run.within
  constructor
  · rintro rfl b lt
    have start := unit first le_rfl (by omega)
    have stop := unit (first + 63) (by omega) (by omega)
    have lastKey := run.keys (first + 63) (by omega) (by omega)
    have key := run.keys (first + b) (by omega) (by omega)
    rw [show u * 64 + b = ks.getD (first + b) 0 by omega]
    exact at_ _ (by omega)
  · intro all
    have index : ∀ b < 64, ∃ i, first ≤ i ∧ i < first + count ∧ ks.getD i 0 = u * 64 + b := fun b lt => by
      obtain ⟨i, bound, key⟩ := List.mem_iff_getElem.1 (all b lt)
      have value : ks.getD i 0 = u * 64 + b := by simp [bound, key]
      obtain ⟨low, high⟩ := (run.iff i bound).1 (by omega)
      exact ⟨i, low, high, value⟩
    obtain ⟨i, lowI, highI, keyI⟩ := index 0 (by omega)
    obtain ⟨l, lowL, highL, keyL⟩ := index 63 (by omega)
    have start := unit first le_rfl (by omega)
    have stop := unit (first + count - 1) (by omega) (by omega)
    have eqI := run.keys i lowI highI
    have eqL := run.keys l lowL highL
    have eqLast := run.keys (first + count - 1) (by omega) (by omega)
    omega

/-- What the bytes of one unit leave of memory. -/
structure Mach.UnitWritten (ks : List Nat) (bs : List Byte) (ep : Bool) (u : Nat) (m m' : Mach) : Prop where
  stores : Mach.Stores (· ∈ ks) m m'
  elsewhere : ∀ a, a / 64 ≠ u → memByte m'.mem a = memByte m.mem a
  byte : ∀ i < ks.length, ks.getD i 0 / 64 = u → memByte m'.mem (ks.getD i 0) = bs.getD i 0
  poison : (∀ b < 64, u * 64 + b ∈ ks) → memPoisoned m'.mem u 1 = ep
  keeps : ∀ v, v ≠ u ∨ ¬(∀ b < 64, u * 64 + b ∈ ks) → memPoisoned m'.mem v 1 = memPoisoned m.mem v 1

theorem Mach.apUnit_written (same : bs.length = ks.length) (run : ApKeys.Run ks.length (ks.getD · 0) u first count)
    (here : (List.range ks.length).filter (fun i => ks.getD i 0 / 64 == u) = List.range' first count) :
    Mach.UnitWritten ks bs ep u m (m.apUnit ks bs ep u) := by
  rw [Mach.apUnit_of_run same run here]
  have within := run.within
  have unit : ∀ i, first ≤ i → i < first + count → ks.getD i 0 / 64 = u := fun i low high => (run.iff i (by omega)).2 ⟨low, high⟩
  have start := unit first le_rfl (by have := run.nonempty; omega)
  have stop := unit (first + count - 1) (by have := run.nonempty; omega) (by have := run.nonempty; omega)
  have last := run.keys (first + count - 1) (by have := run.nonempty; omega) (by have := run.nonempty; omega)
  split
  case isTrue full =>
    subst full
    have all := run.full_iff.1 rfl
    refine ⟨Mach.putUnit_stores all .., fun a outside => ?_, fun i lt inUnit => ?_, fun _ => ?_, fun v other => ?_⟩
    · rw [Mach.putUnit_byte, if_neg (by omega)]
    · obtain ⟨low, high⟩ := (run.iff i lt).1 inUnit
      have key := run.keys i low high
      rw [Mach.putUnit_byte, if_pos (by omega), padTo_of_length (length_runBytes ..), show ks.getD i 0 - u * 64 = i - first by omega,
        runBytes_getD _ _ (by omega),
        Nat.add_sub_cancel' low]
    · rw [Mach.putUnit_poison, if_pos (by omega)]
    · rw [Mach.putUnit_poison, if_neg]
      rcases other with other | short
      · omega
      · exact absurd all short
  case isFalse part =>
    refine ⟨Mach.patch_stores (fun j lt => ?_) m, fun a outside => ?_, fun i lt inUnit => ?_, fun all => ?_, fun v other => Mach.patch_poison ..⟩
    · rw [length_runBytes] at lt
      have key := run.keys (first + j) (by omega) (by omega)
      rw [show ks.getD first 0 + j = ks.getD (first + j) 0 by omega]
      simp [show first + j < ks.length by omega]
    · rw [Mach.patch_byte, if_neg]
      rw [length_runBytes]
      omega
    · obtain ⟨low, high⟩ := (run.iff i lt).1 inUnit
      have key := run.keys i low high
      rw [Mach.patch_byte, length_runBytes, if_pos (by omega), show ks.getD i 0 - ks.getD first 0 = i - first by omega, runBytes_getD _ _ (by omega),
        Nat.add_sub_cancel' low]
    · exact absurd (run.full_iff.2 all) part

/-! ### A whole request written -/

/-- Every unit of a list of units of the request written. -/
theorem Mach.apUnits_written (same : bs.length = ks.length) {addr : Nat} (h : ApKeys addr ks.length (ks.getD · 0)) (us : List Nat)
    (units : ∀ u ∈ us, ∃ i < ks.length, ks.getD i 0 / 64 = u) (m : Mach) :
    let m' := us.foldl (fun m u => m.apUnit ks bs ep u) m
    Mach.Stores (· ∈ ks) m m' ∧
    (∀ i < ks.length, memByte m'.mem (ks.getD i 0) = if ks.getD i 0 / 64 ∈ us then bs.getD i 0 else memByte m.mem (ks.getD i 0)) ∧
    (∀ u ∈ us, (∀ b < 64, u * 64 + b ∈ ks) → memPoisoned m'.mem u 1 = ep) ∧
    (∀ v, v ∉ us ∨ ¬(∀ b < 64, v * 64 + b ∈ ks) → memPoisoned m'.mem v 1 = memPoisoned m.mem v 1) := by
  induction us generalizing m with
  | nil => exact ⟨.refl m, fun i _ => (if_neg List.not_mem_nil).symm, fun u mem => absurd mem List.not_mem_nil, fun _ _ => rfl⟩
  | cons u rest ih =>
    obtain ⟨i₀, lt₀, rfl⟩ := units u List.mem_cons_self
    obtain ⟨first, count, run, here⟩ := h.run lt₀
    have step := Mach.apUnit_written (ep := ep) (m := m) same run here
    obtain ⟨stores, bytes, poison, keeps⟩ := ih (fun v mem => units v (List.mem_cons_of_mem _ mem)) (m.apUnit ks bs ep (ks.getD i₀ 0 / 64))
    refine ⟨step.stores.trans stores, fun i lt => (bytes i lt).trans ?_, fun v mem full => ?_, fun v other => ?_⟩
    · by_cases inRest : ks.getD i 0 / 64 ∈ rest
      · rw [if_pos inRest, if_pos (List.mem_cons_of_mem _ inRest)]
      · by_cases now : ks.getD i 0 / 64 = ks.getD i₀ 0 / 64
        · rw [if_neg inRest, step.byte i lt now, if_pos (now ▸ List.mem_cons_self)]
        · rw [if_neg inRest, step.elsewhere _ now, if_neg (by rw [List.mem_cons]; exact not_or.2 ⟨now, inRest⟩)]
    · by_cases inRest : v ∈ rest
      · exact poison v inRest full
      · obtain rfl : v = ks.getD i₀ 0 / 64 := (List.mem_cons.1 mem).resolve_right inRest
        exact (keeps _ (.inl inRest)).trans (step.poison full)
    · have later : v ∉ rest ∨ ¬(∀ b < 64, v * 64 + b ∈ ks) := other.imp_left fun out => fun mem => out (List.mem_cons_of_mem _ mem)
      have now : v ≠ ks.getD i₀ 0 / 64 ∨ ¬(∀ b < 64, ks.getD i₀ 0 / 64 * 64 + b ∈ ks) := by
        by_cases same : v = ks.getD i₀ 0 / 64
        · exact .inr (other.elim (fun out => absurd (same ▸ List.mem_cons_self) out) (same ▸ ·))
        · exact .inl same
      exact (keeps v later).trans (step.keeps v now)

end

theorem Core.eq_of_unlined {c d : Core} (same : c.unlined = d.unlined) : c = { d with gens := c.gens, commonsLines := c.commonsLines } := by
  have fields : ∀ e : Core, e = { e.unlined with gens := e.gens, commonsLines := e.commonsLines } := fun _ => rfl
  rw [fields c, same]
  rfl

/-- What a write of a request's bytes leaves of memory (07 R229). -/
theorem Mach.apertureWrite_writes {t : TenantId} {addr : Nat} {ks : List Nat} {bs : List Byte} {ep : Bool} {m : Mach}
    (enabled : (m.core.ten t.toNat).enabled = true) (ready : m.core.rst.phase = 6) (some_ : bs ≠ []) (same : bs.length = ks.length)
    (key : ∀ i < ks.length, m.core.apKey t (addr + i) = some (ks.getD i 0, true)) (free : m.core.sealGuard true ks = false) :
    apertureWrite t addr bs ep m = ((ks.map (fun k => k / 64)).eraseDups).foldl (fun m u => m.apUnit ks bs ep u) m := by
  have found : (List.range bs.length).map (fun i => m.core.apKey t (addr + i)) = ks.map (fun k => some (k, true)) := by
    refine List.ext_getElem (by simp [same]) fun i lt _ => ?_
    have lt' : i < ks.length := by simpa [same] using lt
    simpa [lt'] using key i lt'
  have keys : (ks.map (fun k => some (k, true))).filterMap (fun o => o.map Prod.fst) = ks := by
    simp [List.filterMap_map]
  unfold apertureWrite
  rw [if_neg (by simp [enabled, ready, some_])]
  dsimp only
  rw [found, keys, if_neg (by simp [free])]
  rfl

theorem apertureRead_disabled {t : TenantId} {m : Mach} (off : (m.core.ten t.toNat).enabled = false) (addr n : Nat) (found : List MemErr) :
    apertureRead t addr n found m = m.up (Core.emit .ur) := if_pos (by simp [off])

theorem apertureWrite_disabled {t : TenantId} {m : Mach} (off : (m.core.ten t.toNat).enabled = false) (addr : Nat) (bs : List Byte) (ep : Bool) :
    apertureWrite t addr bs ep m = m := if_pos (by simp [off])

theorem apertureRead_missing {t : TenantId} {addr n : Nat} {m : Mach} (enabled : (m.core.ten t.toNat).enabled = true) (ready : m.core.rst.phase = 6)
    (missing : ∃ i < n, m.core.apKey t (addr + i) = none) :
    apertureRead t addr n [] m = m.up (fun c => (c.modTen t.toNat (fun x => { x with apReadErrs := satInc x.apReadErrs })).emit .ur) := by
  unfold apertureRead
  rw [if_neg (by simp [enabled, ready])]
  exact if_pos (by simpa using .inl missing)

theorem apertureRead_found {t : TenantId} {addr : Nat} {ks : List Nat} {m : Mach} (enabled : (m.core.ten t.toNat).enabled = true) (ready : m.core.rst.phase = 6)
    (some_ : ks ≠ []) (keys : ∀ i < ks.length, (m.core.apKey t (addr + i)).map Prod.fst = some (ks.getD i 0)) :
    apertureRead t addr ks.length [] m = m.up (fun c =>
      if ks.any m.bad then (c.emit (.data (ks.map (fun k => memByte m.mem k)))).emit .poisoned else c.emit (.data (ks.map (fun k => memByte m.mem k)))) := by
  have firsts : ((List.range ks.length).map (fun i => m.core.apKey t (addr + i))).map (fun o => o.map Prod.fst) = ks.map some := by
    refine List.ext_getElem (by simp) fun i lt _ => ?_
    have lt' : i < ks.length := by simpa using lt
    simpa [lt'] using keys i lt'
  have found : ((List.range ks.length).map (fun i => m.core.apKey t (addr + i))).filterMap (fun o => o.map Prod.fst) = ks := by
    have flat := congrArg (List.filterMap id) firsts
    rw [List.filterMap_map, List.filterMap_map, List.filterMap_map] at flat
    rw [List.filterMap_map]
    exact flat.trans List.filterMap_some
  have all : ((List.range ks.length).map (fun i => m.core.apKey t (addr + i))).any Option.isNone = false := by
    simp only [List.any_map, List.any_eq_false, List.mem_range]
    exact fun i lt none => by simpa [Option.isNone_iff_eq_none.1 none] using keys i lt
  unfold apertureRead
  rw [if_neg (by simp [enabled, ready])]
  dsimp only
  rw [if_neg (by simp [all, some_]), found]
  rfl

theorem apertureWrite_refused {t : TenantId} {addr : Nat} {bs : List Byte} {m : Mach} (enabled : (m.core.ten t.toNat).enabled = true)
    (ready : m.core.rst.phase = 6)
    (some_ : bs ≠ []) (bad : (∃ i < bs.length, ∀ k, m.core.apKey t (addr + i) ≠ some (k, true)) ∨
      m.core.sealGuard true ((List.range bs.length).filterMap (fun i => (m.core.apKey t (addr + i)).map Prod.fst)) = true) (ep : Bool) :
    apertureWrite t addr bs ep m = m.up (fun c => c.modTen t.toNat (fun x => { x with apWriteErrs := satInc x.apWriteErrs })) := by
  unfold apertureWrite
  rw [if_neg (by simp [enabled, ready, some_])]
  refine if_pos ?_
  rw [Bool.or_eq_true]
  rcases bad with ⟨i, lt, closed⟩ | guarded
  · refine .inl (List.any_eq_true.2 ⟨_, List.mem_map_of_mem (List.mem_range.2 lt), ?_⟩)
    split
    next k w key =>
      cases w
      · rfl
      · exact absurd key (closed k)
    next => rfl
  · rw [List.filterMap_map]
    exact .inr guarded

/-- Settles O57: the refused requests are the branches of the two meanings; a write goes unit by unit. -/
theorem aperturesReachTenantMemory : Obligations.AperturesReachTenantMemory := by
  unfold Obligations.AperturesReachTenantMemory
  intro s t x goes
  refine ⟨rfl, fun off addr n found bs ep => ⟨runM_up (apertureRead_disabled off ..), runM_up (g := id) (apertureWrite_disabled off ..)⟩, ?_⟩
  intro enabled ready addr key
  refine ⟨fun n missing => runM_up (apertureRead_missing enabled ready missing), fun ks some_ keys => ?_,
    fun bs ep some_ bad => runM_up (apertureWrite_refused (m := startMach s) (t := t) (addr := addr.toNat) enabled ready some_ bad ep),
      fun ks bs ep some_ same keys free meet => ?_⟩
  · have effect := apertureRead_found (m := startMach s) (t := t) (addr := addr.toNat) enabled ready some_ keys
    refine (runM_up effect).trans (congrArg (fun c => Host.Outcome.next { s with core := c }) ?_)
    by_cases bad : (ks.any fun k => memPoisoned s.mem (k / 64) 1) = true
    · rw [if_pos bad]
      exact if_pos bad
    · rw [if_neg bad]
      exact if_neg bad
  · have h : ApKeys addr.toNat ks.length (ks.getD · 0) :=
      ⟨fun i lt => (Core.apKey_unit rfl (keys i lt)).1, fun i lt l lt' unit => by
        obtain ⟨place, there⟩ := Core.apKey_unit unit (keys i lt)
        have value := (Prod.mk.inj (Option.some.inj (there.symm.trans (keys l lt')))).1
        omega, meet⟩
    have writes := Mach.apertureWrite_writes (ep := ep) (m := startMach s) enabled ready some_ same keys free
    obtain ⟨stores, bytes, full, kept⟩ := Mach.apUnits_written (ep := ep) same h (ks.map (fun k => k / 64)).eraseDups (fun u mem => by
      obtain ⟨k, here, rfl⟩ := List.mem_map.1 (List.mem_eraseDups.1 mem)
      obtain ⟨i, lt, rfl⟩ := List.mem_iff_getElem.1 here
      exact ⟨i, lt, by simp [lt]⟩) (startMach s)
    have units : ∀ k ∈ ks, k / 64 ∈ (ks.map (fun k => k / 64)).eraseDups := fun k mem => List.mem_eraseDups.2 (List.mem_map_of_mem mem)
    rw [← writes] at stores bytes full kept
    refine ⟨_, runM_ext stores.writes, rfl, Core.eq_of_unlined stores.core, fun i lt => ?_, fun k outside => stores.byte outside, fun k mem => ?_⟩
    · exact (bytes i lt).trans (if_pos (units _ (by simp [lt])))
    · split
      next whole => exact full _ (units k mem) whole
      next part => exact kept _ (.inr part)

end Sys2Proof.Machine
end

section
/-!
Module resets (14 R476 to R481, R488): what a module-reach source leaves of the reset controller, the core and memory.
-/

namespace Sys2Proof.Machine

/-! ### What a capture header leaves -/

theorem Mach.store_stores (k : Nat) (bs : List Byte) (m : Mach) : Mach.Stores (fun a => k ≤ a ∧ a < k + bs.length) m (m.store k bs) :=
  .store (fun i lt => ⟨by omega, by omega⟩) m

theorem Mach.writeHead_stores (h : HangRun) (m : Mach) : Mach.Stores (fun _ => True) m (m.writeHead h) :=
  (Mach.Stores.store (fun _ _ => trivial) m).trans (.store (fun _ _ => trivial) _)

theorem Mach.Stores.rst {keys : Nat → Prop} {m m' : Mach} (stores : Mach.Stores keys m m') : m'.core.rst = m.core.rst := (congrArg Core.rst stores.core :)

theorem Mach.Stores.clk {keys : Nat → Prop} {m m' : Mach} (stores : Mach.Stores keys m m') : m'.core.clk = m.core.clk := (congrArg Core.clk stores.core :)

theorem Mach.endHangs_stores (m : Mach) : ∃ m', Mach.Stores (fun _ => True) m m' ∧ m.endHangs = m'.up (Core.modRst (fun r => { r with hangs := [] })) :=
  ⟨_, .foldl _ fun _ _ _ _ => Mach.writeHead_stores .., rfl⟩

theorem Mach.endHangs_of_none {m : Mach} (none : m.core.rst.hangs = []) : m.endHangs = m := by
  unfold Mach.endHangs
  rw [none]
  have same : ({ m.core.rst with hangs := [] } : Rst) = m.core.rst := by rw [← none]
  exact congrArg (fun r => ({ m with core := { m.core with rst := r } } : Mach)) same

theorem Mach.endHangs_rst (m : Mach) : m.endHangs.core.rst = { m.core.rst with hangs := [] } := by
  obtain ⟨m', stores, eq⟩ := m.endHangs_stores
  rw [eq, ← stores.rst]
  rfl

theorem Mach.endHangs_ext (m : Mach) : Mach.Ext (fun _ => True) m m.endHangs := by
  obtain ⟨m', stores, eq⟩ := m.endHangs_stores
  obtain ⟨pwr, ws, log, mem, -⟩ := stores.writes
  rw [eq]
  exact ⟨pwr, ws, log, mem, fun _ _ => trivial⟩

/-! ### Ranges wiped -/

theorem Mach.wipe_byte (k n a : Nat) (m : Mach) : memByte (m.wipe k n).mem a = if k ≤ a ∧ a < k + n then 0 else memByte m.mem a :=
  (memByte_poison ..).trans (memByte_zero ..)

theorem Mach.wipe_ext {P : Wr → Prop} {k n : Nat} (zero : P (.zero k n)) (poison : P (.poison (k / 64) (n / 64) false)) (m : Mach) :
    Mach.Ext P m (m.wipe k n) :=
  (Mach.Ext.write zero m).trans (.write poison _)

theorem Mach.clearModule_ext (reach : Nat) (m : Mach) : Mach.Ext (fun _ => True) m (m.clearModule reach) := by
  have ram : Mach.Ext (fun _ => True) m ((m.wipe 0 (8 * 33 * 2 ^ 24)).wipe (2 ^ 40) (8 * 48 * 2 ^ 24)) :=
    (Mach.wipe_ext trivial trivial m).trans (Mach.wipe_ext trivial trivial _)
  unfold Mach.clearModule
  dsimp only
  split
  · exact (ram.trans (Mach.wipe_ext trivial trivial _)).then_up _
  · exact ram.then_up _

/-! ### Module-reach sources (R481) -/

/-- The reset controller under a reset of a reach: what the controller itself holds stays. -/
def Rst.under (reach : Nat) (c : Core) : Rst := if reach = 1 then c.coldClear.rst else c.warmClear.rst

theorem Mach.clearModule_rst (reach : Nat) (m : Mach) : (m.clearModule reach).core.rst = Rst.under reach m.core := by
  unfold Mach.clearModule Rst.under
  dsimp only
  split <;> rfl

theorem Mach.moduleSource_ext (bit reach cause : Nat) (m : Mach) : Mach.Ext (fun _ => True) m (m.moduleSource bit reach cause) :=
  (m.endHangs_ext.trans (Mach.clearModule_ext reach _)).then_up _

theorem Mach.moduleSource_phase (bit reach cause : Nat) (m : Mach) : (m.moduleSource bit reach cause).core.rst.phase = 0 := rfl

/-- The level sources that a module-reach source finds asserted. -/
theorem Mach.moduleSource_levels (bit reach cause : Nat) (m : Mach) :
    let r := (m.moduleSource bit reach cause).core.rst
    r.pgLow = m.core.rst.pgLow ∧ r.pwrOkLow = m.core.rst.pwrOkLow ∧ r.resetLow = m.core.rst.resetLow ∧ r.perstLow = m.core.rst.perstLow ∧ r.delayed = none := by
  have before := m.endHangs_rst
  have cleared := Mach.clearModule_rst reach m.endHangs
  have under : (Rst.under reach m.endHangs.core).pgLow = m.core.rst.pgLow ∧ (Rst.under reach m.endHangs.core).pwrOkLow = m.core.rst.pwrOkLow ∧
      (Rst.under reach m.endHangs.core).resetLow = m.core.rst.resetLow ∧ (Rst.under reach m.endHangs.core).perstLow = m.core.rst.perstLow ∧
      (Rst.under reach m.endHangs.core).delayed = none := by
    unfold Rst.under
    split <;> simp [Core.coldClear, Core.warmClear, before]
  rw [← cleared] at under
  exact under

theorem Mach.moduleSource_level (bit reach cause : Nat) (m : Mach) : (m.moduleSource bit reach cause).core.rst.level = m.core.rst.level := by
  obtain ⟨pg, pwr, reset, perst, -⟩ := m.moduleSource_levels bit reach cause
  rw [Rst.level, Rst.level, pg, pwr, reset, perst]

theorem Mach.moduleSource_latched (bit reach cause : Nat) (m : Mach) :
    (m.moduleSource bit reach cause).core.rst.latched = if m.core.rst.phase == 6 then reach else wider m.core.rst.latched reach := rfl

theorem Mach.moduleSource_escCause {cause : Nat} (named : cause ≠ 0) (bit reach : Nat) (m : Mach) :
    (m.moduleSource bit reach cause).core.rst.escCause = BitVec.ofNat 8 cause := if_pos named

/-! ### Sequences start -/

theorem Core.startSeq_of_released {c : Core} (released : c.rst.level = false) : c.startSeq = c.modRst
    (fun r => { r with phase := 1, release := c.clk.count }) :=
  if_neg (by rw [released]; decide)

theorem Core.startSeq_of_level {c : Core} (level : c.rst.level = true) : c.startSeq = c := if_pos level

/-- A warm event with no level source asserted starts the sequence. -/
theorem Mach.warmEvent_rst {m : Mach} (released : m.core.rst.level = false) (bit cause : Nat) :
    (m.warmEvent bit cause).core.rst = { (m.moduleSource bit 2 cause).core.rst with phase := 1, release := (m.moduleSource bit 2 cause).core.clk.count } := by
  have still : (m.moduleSource bit 2 cause).core.rst.level = false := (m.moduleSource_level bit 2 cause).trans released
  exact congrArg Core.rst (Core.startSeq_of_released still)

theorem Mach.warmEvent_ext (bit cause : Nat) (m : Mach) : Mach.Ext (fun _ => True) m (m.warmEvent bit cause) := (m.moduleSource_ext bit 2 cause).then_up _

/-! ### Memory and plans under a warm source -/

/-- What a warm source from Ready, with no hang in progress, keeps and clears (Table 14-2). -/
theorem Mach.moduleSource_warm {m : Mach} (none : m.core.rst.hangs = []) (bit cause : Nat) :
    let m' := m.moduleSource bit 2 cause
    m'.core.plans = m.core.plans ∧ m'.core.clk.count = m.core.clk.count ∧ m'.core.clk.latch = .none ∧ m'.core.log = m.core.log ∧
    (∀ k, k < 8 * 33 * 2 ^ 24 → memByte m'.mem k = 0) ∧ (∀ k, 2 ^ 40 ≤ k → k < 2 ^ 40 + 8 * 48 * 2 ^ 24 → memByte m'.mem k = 0) ∧
    (∀ k, 2 ^ 41 ≤ k → memByte m'.mem k = memByte m.mem k) := by
  have mem : (m.moduleSource bit 2 cause).mem = ((m.wipe 0 (8 * 33 * 2 ^ 24)).wipe (2 ^ 40) (8 * 48 * 2 ^ 24)).mem := by
    rw [Mach.moduleSource, Mach.endHangs_of_none none]
    rfl
  have core : (m.moduleSource bit 2 cause).core.plans = m.core.plans ∧ (m.moduleSource bit 2 cause).core.clk.count = m.core.clk.count ∧
      (m.moduleSource bit 2 cause).core.clk.latch = .none ∧ (m.moduleSource bit 2 cause).core.log = m.core.log := by
    rw [Mach.moduleSource, Mach.endHangs_of_none none]
    exact ⟨rfl, rfl, rfl, rfl⟩
  obtain ⟨plans, count, latch, log⟩ := core
  refine ⟨plans, count, latch, log, fun k low => ?_, fun k lo hi => ?_, fun k hbm => ?_⟩
  · rw [mem, Mach.wipe_byte, if_neg (by omega), Mach.wipe_byte, if_pos (by omega)]
  · rw [mem, Mach.wipe_byte, if_pos (by omega)]
  · rw [mem, Mach.wipe_byte, if_neg (by omega), Mach.wipe_byte, if_neg (by omega)]

/-- The machine after a level source of warm reach asserts. -/
def Mach.asserted (bit : Nat) (set : Rst → Rst) (m : Mach) : Mach := (m.moduleSource bit 2 0).up (Core.modRst set)

theorem runM_levelAssert {low : Rst → Bool} {s : State} (high : low s.core.rst = false) (bit : Nat) (set : Rst → Rst) :
    runM (Mach.levelAssert bit 2 low set) s = .next { s with core := ((startMach s).asserted bit set).core, mem := ((startMach s).asserted bit set).mem } := by
  have released : ¬low (startMach s).core.rst = true := Bool.not_eq_true _ ▸ high
  have effect : Mach.levelAssert bit 2 low set (startMach s) = (startMach s).asserted bit set := if_neg released
  have writes : Mach.Ext (fun _ => True) (startMach s) (Mach.levelAssert bit 2 low set (startMach s)) := effect ▸ (Mach.moduleSource_ext bit 2 0 _).then_up _
  rw [runM_ext writes, effect]

/-- A level source releases. -/
theorem runM_levelRelease {low : Rst → Bool} {s : State} (asserted : low s.core.rst = true) (clear : Rst → Rst) :
    runM (Mach.levelRelease low clear) s = .next { s with core := (s.start.modRst clear).startSeq } :=
  runM_up (g := fun c => (c.modRst clear).startSeq) (if_pos asserted)

theorem Core.startSeq_rst (c : Core) (same : Bool) (level : c.rst.level = same) :
    (same = false → c.startSeq.rst.phase = 1 ∧ c.startSeq.rst.release = c.clk.count) ∧ (same = true → c.startSeq.rst.phase = c.rst.phase) := by
  subst level
  refine ⟨fun released => ?_, fun held => ?_⟩
  · rw [Core.startSeq_of_released released]
    exact ⟨rfl, rfl⟩
  · rw [Core.startSeq_of_level held]

/-- The start of a sequence changes the phase and the time of release. -/
theorem Core.startSeq_keeps {α : Type} (f : Rst → α) (same : ∀ r n q, f { r with phase := n, release := q } = f r) (c : Core) : f c.startSeq.rst = f c.rst := by
  unfold Core.startSeq
  split
  · rfl
  · exact same ..

theorem Core.startSeq_level (c : Core) : c.startSeq.rst.level = c.rst.level := Core.startSeq_keeps Rst.level (fun _ _ _ => rfl) c

/-- The module reset that a RESET command announced (R488). -/
def Mach.commanded (m : Mach) : Mach := (m.up (Core.modRst (fun r => { r with delayed := none }))).warmEvent 3 0

theorem exec_resetStartDelay_module {s : State} (delayed : s.core.rst.delayed = some none) :
    exec .resetStartDelay s = .next { s with core := (startMach s).commanded.core, mem := (startMach s).commanded.mem } := by
  have effect : (match (startMach s).core.rst.delayed with
      | none => startMach s
      | some none => ((startMach s).up (Core.modRst (fun r => { r with delayed := none }))).warmEvent 3 0
      | some (some t) => (startMach s).up (fun c => (c.tenantReset t).modRst (fun r => { r with delayed := none }))) = (startMach s).commanded := by
    rw [show (startMach s).core.rst.delayed = some none from delayed]
    rfl
  have writes : Mach.Ext (fun _ => True) (startMach s) (startMach s).commanded := (Mach.Ext.up _ _).trans (Mach.warmEvent_ext 3 0 _)
  change execResetStartDelay s = _
  unfold execResetStartDelay
  rw [← effect] at writes ⊢
  exact runM_ext writes

theorem exec_resetStartDelay_tenant {s : State} {tn : TenantId} (delayed : s.core.rst.delayed = some (some tn)) :
    exec .resetStartDelay s = .next { s with core := (s.start.tenantReset tn).modRst (fun r => { r with delayed := none }) } := by
  change execResetStartDelay s = _
  unfold execResetStartDelay
  refine runM_up (g := fun c => (c.tenantReset tn).modRst (fun r => { r with delayed := none })) ?_
  rw [show (startMach s).core.rst.delayed = some (some tn) from delayed]

theorem Core.tenantReset_ten (t : TenantId) (c : Core) : ((c.tenantReset t).ten t.toNat).queues = [] ∧
    ((c.tenantReset t).ten t.toNat).enabled = (c.ten t.toNat).enabled := by
  have own : (c.tenantReset t).ten t.toNat = { enabled := (c.ten t.toNat).enabled, txn := ((c.tenantReset t).ten t.toNat).txn, nextTxn := (c.ten t.toNat).nextTxn } := by
    simp only [Core.ten, Core.tenantReset, lookup?_insertKey_self, Option.getD_some]
  rw [own]
  exact ⟨rfl, rfl⟩

/-- Settles O35: each row is a level source of warm reach, its release, or the delayed start of a warm event. -/
theorem moduleResetsAssertAndRelease : Obligations.ModuleResetsAssertAndRelease := by
  unfold Obligations.ModuleResetsAssertAndRelease
  intro s cleared
  have clears : ∀ (bit : Nat) (set : Rst → Rst) (t : State), s.core.rst.phase = 6 → s.core.rst.hangs = [] → (∀ r, (set r).latched = r.latched) →
      t.core = ((startMach s).asserted bit set).core → t.mem = ((startMach s).asserted bit set).mem → cleared t := by
    intro bit set t ready none keeps core mem
    obtain ⟨plans, count, latch, log, ram, commons, hbm⟩ := Mach.moduleSource_warm (m := startMach s) none bit 0
    have latched : ((startMach s).asserted bit set).core.rst.latched = 2 :=
      (keeps _).trans ((Mach.moduleSource_latched bit 2 0 (startMach s)).trans (if_pos (beq_iff_eq.2 ready)))
    have same : ((startMach s).asserted bit set).mem = ((startMach s).moduleSource bit 2 0).mem := Mach.up_mem ..
    rw [← same, ← mem] at ram commons hbm
    have kept : t.core.plans = ((startMach s).moduleSource bit 2 0).core.plans ∧ t.core.clk = ((startMach s).moduleSource bit 2 0).core.clk ∧
        t.core.log = ((startMach s).moduleSource bit 2 0).core.log := by
      rw [core]
      exact ⟨rfl, rfl, rfl⟩
    obtain ⟨keptPlans, keptClk, keptLog⟩ := kept
    refine ⟨keptPlans.trans plans, (congrArg Clock.count keptClk).trans count, (congrArg Clock.latch keptClk).trans latch, keptLog.trans log,
      core ▸ latched, ram, commons, hbm⟩
  refine ⟨fun high => ?_, fun high => ?_, fun asserted => ?_, fun asserted => ?_, fun delayed released => ?_, fun tn delayed => ?_⟩
  · exact ⟨_, runM_levelAssert high 5 _, rfl, rfl, rfl, fun ready none => clears 5 (fun r => { r with resetLow := true }) _ ready none (fun _ => rfl) rfl rfl⟩
  · exact ⟨_, runM_levelAssert high 4 _, rfl, rfl, rfl, fun ready none => clears 4 (fun r => { r with perstLow := true }) _ ready none (fun _ => rfl) rfl rfl⟩
  · obtain ⟨starts, waits⟩ := Core.startSeq_rst (s.start.modRst (fun r => { r with resetLow := false })) _ rfl
    refine ⟨_, runM_levelRelease asserted _, rfl, rfl, ?_, fun released => ?_, fun held => ?_⟩
    · exact Core.startSeq_keeps Rst.resetLow (fun _ _ _ => rfl) _
    · exact starts (by rwa [← Core.startSeq_level])
    · exact waits (by rwa [← Core.startSeq_level])
  · obtain ⟨starts, waits⟩ := Core.startSeq_rst (s.start.modRst (fun r => { r with perstLow := false })) _ rfl
    refine ⟨_, runM_levelRelease asserted _, rfl, rfl, ?_, fun released => ?_, fun held => ?_⟩
    · exact Core.startSeq_keeps Rst.perstLow (fun _ _ _ => rfl) _
    · exact starts (by rwa [← Core.startSeq_level])
    · exact waits (by rwa [← Core.startSeq_level])
  · have rst : (startMach s).commanded.core.rst = _ :=
      Mach.warmEvent_rst (m := (startMach s).up (Core.modRst (fun r => { r with delayed := none }))) released 3 0
    obtain ⟨-, -, -, -, none⟩ := Mach.moduleSource_levels 3 2 0 ((startMach s).up (Core.modRst (fun r => { r with delayed := none })))
    exact ⟨_, exec_resetStartDelay_module delayed, rfl, congrArg Rst.phase rst, (congrArg Rst.delayed rst).trans none⟩
  · obtain ⟨queues, enabled⟩ := Core.tenantReset_ten tn s.start
    exact ⟨_, exec_resetStartDelay_tenant delayed, rfl, rfl, rfl, queues, enabled⟩

end Sys2Proof.Machine
end

section
/-!
Hangs (14 R484, R489 to R491): captures that start, a partition reset that follows one, and the replay of suspects.
-/

namespace Sys2Proof.Machine

/-! ### Captures start -/

theorem mem_insertRising {x y : Nat} {l : List Nat} : y ∈ insertRising x l ↔ y = x ∨ y ∈ l := by
  induction l with
  | nil => simp [insertRising]
  | cons z zs ih =>
    unfold insertRising
    split_ifs with less equal
    · simp
    · simp [equal]
    · simp only [List.mem_cons, ih]
      tauto

theorem contains_insertRising (x : Nat) (l : List Nat) : (insertRising x l).contains x = true := by
  rw [List.contains_iff_mem, mem_insertRising]
  exact .inl rfl

/-- The hang that a capture of partition `p` begins with. -/
def Core.newHang (p cause held outcome guilty : Nat) (ss : List Suspect) (c : Core) : HangRun :=
  { part := p, cause := cause, slot := match lookup? p c.rst.newest with | some s => 1 - s | none => 0, time := c.clk.count, plan := held, suspects := ss,
    outcome := outcome, guilty := guilty }

theorem Core.startCapture_free {p : Nat} {c : Core} (ready : c.rst.phase = 6) (inService : c.rst.parts.contains p = false)
    (free : c.rst.capturing.contains p = false) (cause held outcome guilty : Nat) (ss : List Suspect) :
    c.startCapture p cause held outcome guilty ss =
      c.modRst (fun r => { r with capturing := insertRising p r.capturing, hangs := r.hangs ++ [c.newHang p cause held outcome guilty ss] }) := by
  unfold Core.startCapture
  rw [if_neg (by rw [ready, inService, free]; decide)]
  rfl

/-- `d` is `c` but for captures that have started: those under way stay, and every partition that no capture had has the hang `new` names. -/
structure Core.Captures (new : Nat → HangRun → Prop) (ps : List Nat) (c d : Core) : Prop where
  core : d = { c with rst := { c.rst with capturing := d.rst.capturing, hangs := d.rst.hangs } }
  capturing : ∀ q, d.rst.capturing.contains q = true ↔ c.rst.capturing.contains q = true ∨ q ∈ ps ∧ c.rst.phase = 6 ∧ c.rst.parts.contains q = false
  hangs : ∀ r ∈ c.rst.hangs, r ∈ d.rst.hangs
  new : ∀ q ∈ ps, c.rst.phase = 6 → c.rst.parts.contains q = false → c.rst.capturing.contains q = false → ∃ r ∈ d.rst.hangs, new q r

section
variable {new : Nat → HangRun → Prop} {c d e : Core}

theorem Core.Captures.refl (c : Core) : Core.Captures new [] c c where
  core := rfl
  capturing q := by simp
  hangs _ mem := mem
  new _ none := absurd none List.not_mem_nil

theorem Core.Captures.trans {ps qs : List Nat} (first : Core.Captures new ps c d) (second : Core.Captures new qs d e) : Core.Captures new (ps ++ qs) c e where
  core := by
    have mid := first.core
    have last := second.core
    rw [mid] at last
    exact last
  capturing q := by
    have phase : d.rst.phase = c.rst.phase := by rw [first.core]
    have parts : d.rst.parts = c.rst.parts := by rw [first.core]
    rw [second.capturing q, first.capturing q, phase, parts, List.mem_append]
    tauto
  hangs r mem := second.hangs r (first.hangs r mem)
  new q mem ready inService free := by
    have phase : d.rst.phase = c.rst.phase := by rw [first.core]
    have parts : d.rst.parts = c.rst.parts := by rw [first.core]
    by_cases early : q ∈ ps
    · obtain ⟨r, here, is⟩ := first.new q early ready inService free
      exact ⟨r, second.hangs r here, is⟩
    · refine second.new q ((List.mem_append.1 mem).resolve_left early) (phase.trans ready) (parts ▸ inService) ?_
      rw [Bool.eq_false_iff]
      intro busy
      rcases (first.capturing q).1 busy with old | ⟨here, -⟩
      · rw [free] at old
        exact absurd old (by decide)
      · exact early here

/-- One capture starts, unless the partition is not free. -/
theorem Core.Captures.one {p cause held outcome guilty : Nat} {ss : List Suspect} (is : new p (c.newHang p cause held outcome guilty ss)) :
    Core.Captures new [p] c (c.startCapture p cause held outcome guilty ss) := by
  by_cases free : c.rst.phase = 6 ∧ c.rst.parts.contains p = false ∧ c.rst.capturing.contains p = false
  · obtain ⟨ready, inService, open_⟩ := free
    rw [Core.startCapture_free ready inService open_]
    refine ⟨rfl, fun q => ?_, fun r mem => List.mem_append_left _ mem, fun q mem _ _ _ => ?_⟩
    · have names : (insertRising p c.rst.capturing).contains q = true ↔ q = p ∨ c.rst.capturing.contains q = true := by
        rw [List.contains_iff_mem, mem_insertRising, List.contains_iff_mem]
      refine names.trans ?_
      rw [List.mem_singleton]
      constructor
      · rintro (rfl | old)
        · exact .inr ⟨rfl, ready, inService⟩
        · exact .inl old
      · rintro (old | ⟨rfl, -⟩)
        · exact .inr old
        · exact .inl rfl
    · obtain rfl := List.mem_singleton.1 mem
      exact ⟨_, List.mem_append_right _ (List.mem_singleton_self _), is⟩
  · have same : c.startCapture p cause held outcome guilty ss = c := by
      refine if_pos ?_
      by_contra off
      simp only [Bool.or_eq_true, not_or, Bool.not_eq_true, bne_eq_false_iff_eq] at off
      exact free ⟨off.1.1, off.1.2, off.2⟩
    rw [same]
    refine ⟨rfl, fun q => ⟨.inl, fun h => ?_⟩, fun r mem => mem, fun q mem ready inService open_ => ?_⟩
    · rcases h with old | ⟨mem, ready, inService⟩
      · exact old
      · obtain rfl := List.mem_singleton.1 mem
        by_contra open_
        exact free ⟨ready, inService, Bool.eq_false_iff.2 open_⟩
    · obtain rfl := List.mem_singleton.1 mem
      exact absurd ⟨ready, inService, open_⟩ free

/-- Captures of a list of partitions start one after another. -/
theorem Core.Captures.foldl {g : Core → Nat → Core} (one : ∀ d p, { d with rst := c.rst } = c → Core.Captures new [p] d (g d p)) (ps : List Nat)
    (d : Core) (from_ : { d with rst := c.rst } = c) : Core.Captures new ps d (ps.foldl g d) := by
  induction ps generalizing d with
  | nil => exact .refl d
  | cons p rest ih =>
    have first := one d p from_
    refine first.trans (ih (g d p) ?_)
    rw [first.core]
    exact from_

end

/-! ### Hangs -/

/-- What the hang of a job on a partition is (R489). -/
def Core.isHang (c : Core) (h cause q : Nat) (r : HangRun) : Prop :=
  r.part = q ∧ r.cause = cause ∧ r.plan = h ∧ r.time = c.clk.count ∧ r.suspects = c.suspects q h

/-- A hang of a job that no replay runs is captured on each of its partitions. -/
theorem Mach.hang_captures {m : Mach} {h : Nat} (none : m.core.replaying h = none) (cause : Nat) (ps : List Nat) :
    ∃ g : Core → Core, m.hang h cause ps = m.up g ∧ Core.Captures (m.core.isHang h cause) ps m.core (g m.core) := by
  refine ⟨fun c => ps.foldl (fun c p => c.startCapture p cause h 0 0xFF (c.suspects p h)) c, ?_, ?_⟩
  · unfold Mach.hang
    rw [none]
    exact Mach.foldl_up (fun c p => c.startCapture p cause h 0 0xFF (c.suspects p h)) ps m
  · refine Core.Captures.foldl (c := m.core) (fun d p from_ => .one ⟨rfl, rfl, rfl, ?_, ?_⟩) ps m.core rfl
    · exact (congrArg (fun c : Core => c.clk.count) from_ :)
    · exact (congrArg (fun c : Core => c.suspects p h) from_ :)

/-- A job held past its limit on a channel of its own module (R489). -/
theorem holdLimit_local {m : Mach} {h : Nat} {j : Job} {p : Plan} (job : m.core.job? h = some j) (plan : m.core.plan? h = some p) (running : j.phase = .running)
    (held : j.holds ≠ []) (free : j.rollback = none) (late : p.hdr.holdLimit < j.holdBeats) : holdLimit h false m = m.hang h 1 p.physParts := by
  have waits : j.holds.isEmpty = false := by simpa using held
  simp [holdLimit, job, plan, running, waits, free, Nat.not_le.2 late]

theorem overrun_die {m : Mach} {h : Nat} {lsid : Lsid} {p : Plan} {b : Bind} (plan : m.core.plan? h = some p) (bound : p.bindOf lsid = some b)
    (ready : m.core.rst.phase = 6) (station : lsScode lsid ≠ 6) : overrun h lsid m = m.hang h 2 [b.die] := by
  simp [overrun, plan, bound, ready, station]

theorem overrun_collective {m : Mach} {h : Nat} {lsid : Lsid} {p : Plan} {b : Bind} (plan : m.core.plan? h = some p) (bound : p.bindOf lsid = some b)
    (ready : m.core.rst.phase = 6) (station : lsScode lsid = 6) : overrun h lsid m = m.countedWarm 2 3 := by
  simp [overrun, plan, bound, ready, station]

theorem holdLimit_remote {m : Mach} {h : Nat} {j : Job} {p : Plan} (job : m.core.job? h = some j) (plan : m.core.plan? h = some p)
    (running : j.phase = .running)
    (free : j.rollback = none) (late : p.hdr.holdLimit < j.holdBeats) (empty : j.holds.any (fun q => q.cause == .chanEmpty) = true) :
    holdLimit h true m = m.up (Core.remoteHang h) := by
  have waits : j.holds.isEmpty = false := by cases holds : j.holds <;> simp_all
  simp [holdLimit, job, plan, running, waits, free, Nat.not_le.2 late, empty]

/-! ### A hang on a remote producer (R489) -/

theorem Job.cause_unclean (cause : Nat) (j : Job) : cause ≤ ((j.unclean cause).verdict j.step).cause := by
  rw [Job.unclean, Job.verdict_modVerdict _ (by exact fun _ => rfl)]
  exact le_max_right ..

theorem Job.cause_unclean_mono (cause : Nat) (j : Job) : (j.verdict j.step).cause ≤ ((j.unclean cause).verdict j.step).cause := by
  rw [Job.unclean, Job.verdict_modVerdict _ (by exact fun _ => rfl)]
  exact le_max_left ..

/-- A job of a hang on a remote producer: unclean with cause fault, and a rollback named. -/
def Job.failed (j : Job) : Prop := j.rollback.isSome = true ∧ causeFault ≤ (j.verdict j.step).cause

theorem Job.isSome_nameRollback (edge : BitVec 64) (l : StepNo) (j : Job) : (j.nameRollback edge l).rollback.isSome = true := by
  unfold Job.nameRollback
  split
  · split <;> rfl
  · rfl

theorem Job.nameRollback_eq (edge : BitVec 64) (l : StepNo) (j : Job) : j.nameRollback edge l = { j with rollback := (j.nameRollback edge l).rollback } := by
  unfold Job.nameRollback
  split
  · split <;> rfl
  · rfl

theorem Job.failed_nameRollback {j : Job} (cause : causeFault ≤ (j.verdict j.step).cause) (edge : BitVec 64) (l : StepNo) : (j.nameRollback edge l).failed := by
  refine ⟨j.isSome_nameRollback edge l, ?_⟩
  rw [j.nameRollback_eq edge l]
  exact cause

theorem Job.failed_unclean {j : Job} (failed : j.failed) (cause : Nat) : (j.unclean cause).failed :=
  ⟨failed.1, failed.2.trans (j.cause_unclean_mono cause)⟩

/-- The job fails as the notice of its rollback goes out. -/
theorem Core.noticeRollback_fails {c : Core} {h : Nat} {j : Job} (job : c.job? h = some j) (l : StepNo) (t : StepTry) :
    ∃ k, ((c.modJob h (fun j => (j.unclean causeFault).putTry t)).noticeRollback h l).job? h = some k ∧ k.failed := by
  have stopped : (c.modJob h (fun j => (j.unclean causeFault).putTry t)).job? h = some ((j.unclean causeFault).putTry t) :=
    Core.job?_modJob_self job fun _ => rfl
  refine ⟨_, Core.job?_modJob_self (c := (c.modJob h _).emit _) stopped fun k => ?_,
    Job.failed_nameRollback (j := (j.unclean causeFault).putTry t) (j.cause_unclean causeFault) _ _⟩
  rw [k.nameRollback_eq]

theorem Core.remoteHang_fails {c : Core} {h : Nat} {j : Job} (job : c.job? h = some j) :
    ∃ k, (c.remoteHang h).job? h = some k ∧ k.failed := by
  unfold Core.remoteHang
  rw [job]
  dsimp only
  obtain ⟨k, named, failed⟩ := Core.noticeRollback_fails job j.lastSealed
    { j.tryOf (j.lastSealed + 1) with failed := (j.tryOf (j.lastSealed + 1)).failed + 1, own := (j.tryOf (j.lastSealed + 1)).own + 1 }
  split
  · exact ⟨_, Core.job?_modJob_self ((Core.job?_congr (Core.logRec_jobs _ _) h).trans named) fun _ => rfl, failed⟩
  · split
    · exact ⟨_, Core.job?_modJob_self (f := fun k => k.unclean 3) named fun _ => rfl, Job.failed_unclean failed 3⟩
    · exact ⟨k, named, failed⟩

/-! ### A partition's reset begins (R484) -/

/-- What the stop of a job for a partition reset changes. -/
theorem Core.partStop_frame (h : Nat) (c : Core) : c.partStop h = { c with jobs := (c.partStop h).jobs, out := (c.partStop h).out } := by
  unfold Core.partStop
  split
  · rfl
  · split
    · rfl
    · split <;> rfl

theorem Core.partStops_frame (hs : List Nat) (c : Core) : ∃ js os, hs.foldl (fun c h => c.partStop h) c = { c with jobs := js, out := os } := by
  induction hs generalizing c with
  | nil => exact ⟨c.jobs, c.out, rfl⟩
  | cons h rest ih =>
    obtain ⟨js, os, eq⟩ := ih (c.partStop h)
    refine ⟨js, os, ?_⟩
    rw [List.foldl_cons, eq, Core.partStop_frame h c]

/-- The core with the state of a partition cleared. -/
def Core.partCore (p : Nat) (c : Core) : Core :=
  { c.modPart p Part.cleared with
    commonsLines := c.commonsLines.filter (fun e => !(e.1.2 == p / 2))
    fab := { c.fab with remote := c.fab.remote.filter (fun r => !(r.part == p)) } }

/-- The machine of a partition reset: its RAM wiped. -/
def Mach.partWiped (p : Nat) (m : Mach) : Mach := (m.wipe (smKey p 0 0) (33 * 2 ^ 24)).wipe (cmKey p 0 0) (48 * 2 ^ 24)

theorem Mach.clearPart_eq (p : Nat) (m : Mach) : m.clearPart p = (m.partWiped p).up (Core.partCore p) := rfl

/-- What a partition's sequence that begins does to the reset controller. -/
def Rst.partRuns (p : Nat) (counted : Bool) (now : BitVec 64) (r : Rst) : Rst :=
  { r with parts := insertRising p r.parts, capturing := r.capturing.filter (fun q => !(q == p)),
           partTimes := if counted then r.partTimes ++ [(p, now)] else r.partTimes }

/-- The core as a partition's sequence begins. -/
def Core.partBegun (p : Nat) (counted : Bool) (hs : List Nat) (now : BitVec 64) (c : Core) : Core :=
  (hs.foldl (fun c h => c.partStop h) (c.partCore p)).modRst (Rst.partRuns p counted now)

theorem Core.partBegun_frame (p : Nat) (counted : Bool) (hs : List Nat) (now : BitVec 64) (c : Core) :
    ∃ js os, c.partBegun p counted hs now = { (c.partCore p).modRst (Rst.partRuns p counted now) with jobs := js, out := os } := by
  obtain ⟨js, os, stops⟩ := Core.partStops_frame hs (c.partCore p)
  refine ⟨js, os, ?_⟩
  rw [Core.partBegun, stops]
  rfl

theorem Mach.partReset_of_free {m : Mach} {p : Nat} (ready : m.core.rst.phase = 6) (inService : m.core.rst.parts.contains p = false) (lt : p < 8)
    (counted : Bool) : ∃ hs, m.partReset p counted = (m.partWiped p).up (Core.partBegun p counted hs m.core.clk.count) := by
  have runs : ¬((m.core.rst.phase != 6 || m.core.rst.parts.contains p || decide (8 ≤ p)) = true) := by
    rw [ready, inService, decide_eq_false (by omega)]
    decide
  refine ⟨(m.core.jobs.filter (m.core.usesPart p)).map (fun j => j.plan), ?_⟩
  unfold Mach.partReset
  rw [if_neg runs, Mach.clearPart_eq]
  dsimp only
  rw [Mach.foldl_up (fun c h => c.partStop h), Mach.up_up, Mach.up_up]
  rfl

/-- A partition's sequence that begins: the partition is in reset, and no capture of it goes on. -/
theorem Core.partBegun_rst (p : Nat) (counted : Bool) (hs : List Nat) (now : BitVec 64) (c : Core) :
    (c.partBegun p counted hs now).rst = c.rst.partRuns p counted now := by
  obtain ⟨js, os, eq⟩ := c.partBegun_frame p counted hs now
  rw [eq]
  rfl

/-! ### Module warm resets that are counted (R492) -/

theorem Mach.countedWarm_rst {m : Mach} (released : m.core.rst.level = false) (bit : Nat) {cause : Nat} (named : cause ≠ 0) :
    let r := (m.countedWarm bit cause).core.rst
    r.phase = 1 ∧ r.escCause = BitVec.ofNat 8 cause ∧ (m.core.rst.phase = 6 → r.latched = 2) := by
  have begun := Mach.warmEvent_rst released bit cause
  have counted : ∃ f : Rst → Rst, m.countedWarm bit cause = (m.warmEvent bit cause).up (Core.modRst f) ∧
      ∀ r, (f r).phase = r.phase ∧ (f r).escCause = r.escCause ∧ (f r).latched = r.latched := ⟨_, rfl, fun _ => ⟨rfl, rfl, rfl⟩⟩
  obtain ⟨f, eq, same⟩ := counted
  obtain ⟨phase, escCause, latched⟩ := same (m.warmEvent bit cause).core.rst
  rw [eq, Mach.up_core, Core.modRst_rst]
  refine ⟨?_, ?_, fun ready => ?_⟩
  · rw [phase, begun]
  · rw [escCause, begun]
    exact Mach.moduleSource_escCause named bit 2 m
  · rw [latched, begun]
    exact (m.moduleSource_latched bit 2 cause).trans (if_pos (beq_iff_eq.2 ready))

/-! ### A capture ends (R490) -/

theorem Mach.writeCapture_stores (h : HangRun) (m : Mach) : Mach.Stores (fun _ => True) m (m.writeCapture h) := by
  have sections : ∀ (l : List (Nat × List Byte)) (k : Nat) (m : Mach),
      Mach.Stores (fun _ => True) m (l.foldl (fun m s => m.write (.bytes (k + s.1) s.2)) m) :=
    fun l k m => .foldl l fun m' _ x _ => ⟨.write (fun _ _ _ => trivial) m', rfl⟩
  have wiped : Mach.Stores (fun _ => True) m ((m.wipe (capKey h.part h.slot) (2 ^ 23)).up (Core.wrote (capKey h.part h.slot) (2 ^ 17))) :=
    ⟨(Mach.wipe_ext (fun _ _ _ => trivial) (fun _ _ _ => trivial) m).then_up _, Core.unlined_wrote ..⟩
  exact (wiped.trans (sections ..)).trans (Mach.writeHead_stores ..)

/-- The end of a capture whose hang is the only one: its outcome is kept, its slot is the newest, and the partition's reset goes ahead. -/
theorem captureEnd_rst {m : Mach} {p : Nat} {r : HangRun} (ready : m.core.rst.phase = 6) (lt : p < 8) (inService : m.core.rst.parts.contains p = false)
    (capturing : m.core.rst.capturing.contains p = true) (hangs : m.core.rst.hangs = [r]) (part : r.part = p) (waits : r.released = none)
    (unmeasured : r.capUs = 0) (open_ : r.valid = false) (us : Nat) (valid : Bool) :
    ∃ counted now, (captureEnd p us valid m).core.rst =
      ({ m.core.rst with hangs := [{ r with capUs := us, valid := valid }], newest := insertKey p r.slot m.core.rst.newest } : Rst).partRuns p counted now := by
  let h1 : HangRun := { r with capUs := us, valid := valid }
  let m1 := if valid then m.writeCapture h1 else m.writeHead h1
  have found : m.core.rst.hangs.find? (fun h => h.part == p && m.core.rst.capturing.contains p && h.released.isNone && h.capUs == 0 && !h.valid) = some r := by
    rw [hangs, capturing, List.find?_cons_of_pos]
    simp [part, waits, unmeasured, open_]
  have stored : m1.core.rst = m.core.rst := by
    cases valid
    · exact (Mach.writeHead_stores h1 m).rst
    · exact (Mach.writeCapture_stores h1 m).rst
  let m2 := m1.up (Core.modRst (fun q => { q with hangs := q.hangs.map (fun x => if x == r then h1 else x), newest := insertKey p r.slot q.newest }))
  have ended : captureEnd p us valid m = m2.partReset p (r.cause != 3) := by
    unfold captureEnd
    rw [found]
  have rst : m2.core.rst = { m.core.rst with hangs := [h1], newest := insertKey p r.slot m.core.rst.newest } := by
    have own : m2.core.rst = { m1.core.rst with hangs := m1.core.rst.hangs.map (fun x => if x == r then h1 else x), newest := insertKey p r.slot m1.core.rst.newest } := rfl
    rw [own, stored, hangs]
    simp
  obtain ⟨hs, begins⟩ := Mach.partReset_of_free (m := m2) (by rw [rst]; exact ready) (by rw [rst]; exact inService) lt (r.cause != 3)
  refine ⟨r.cause != 3, m2.core.clk.count, ?_⟩
  rw [ended, begins, ← rst]
  exact Core.partBegun_rst ..

theorem Rst.partRuns_reset (p : Nat) (counted : Bool) (now : BitVec 64) (r : Rst) :
    (r.partRuns p counted now).parts.contains p = true ∧ (r.partRuns p counted now).capturing.contains p = false := by
  refine ⟨contains_insertRising p r.parts, ?_⟩
  simp [Rst.partRuns]

/-! ### The last suspect passes (R491) -/

theorem suspectPass_last {m : Mach} {p i : Nat} {r : HangRun} {x : Suspect} {q : Plan} {j : Job} (hangs : m.core.rst.hangs = [r]) (part : r.part = p)
    (open_ : r.outcome = 0) (released : r.released = some i) (last : i + 1 = r.suspects.length) (suspect : r.suspects[i]? = some x)
    (plan : m.core.plan? x.plan = some q) (job : m.core.job? x.plan = some j) (passed : x.passed q j = true) :
    ∃ m' f, Mach.Stores (fun _ => True) m m' ∧ suspectPass p m = m'.up (Core.modRst f) ∧ (f m'.core.rst).hangs = [] := by
  have found : m.core.rst.hangs.find? (fun h => h.part == p && h.outcome == 0 && h.released.isSome) = some r := by
    rw [hangs, List.find?_cons_of_pos]
    simp [part, open_, released]
  let h1 : HangRun := ({ r with suspects := modAt r.suspects i (fun s => { s with result := 1 }) } : HangRun).next (i + 1)
  have settled : h1.outcome = 2 := by
    have noMore : ¬i + 1 < (modAt r.suspects i (fun s => { s with result := 1 })).length := by
      rw [modAt, List.length_modify]
      omega
    have next : h1 = { ({ r with suspects := modAt r.suspects i (fun s => { s with result := 1 }) } : HangRun) with released := none, outcome := 2 } :=
      if_neg noMore
    rw [next]
  have stored := Mach.writeHead_stores h1 m
  refine ⟨m.writeHead h1, fun q => { q with
    hangs := if h1.outcome = 0 then q.hangs.map (fun x => if x == r then h1 else x) else q.hangs.filter (fun x => !(x == r)) }, stored, ?_, ?_⟩
  · unfold suspectPass
    rw [found]
    simp only [released, Option.getD_some, suspect, Option.bind_some, plan, job, passed, if_true]
    rfl
  · simp [settled, stored.rst, hangs]

/-- Settles O38: a capture starts on every free partition of a hang, its end resets the partition, and the pass of the last suspect ends the hang. -/
theorem hangsAreCapturedAndTheirSuspectsReplayed : Obligations.HangsAreCapturedAndTheirSuspectsReplayed := by
  unfold Obligations.HangsAreCapturedAndTheirSuspectsReplayed
  intro s free
  refine ⟨fun h j p job plan running held noRollback late none => ?_, fun h j p job plan running noRollback late empty => ?_,
    fun h lsid p b plan bound isFree station none => ?_, fun h lsid p b plan bound ready collective released => ?_,
    fun p us r ready lt inService capturing hangs part waits unmeasured open_ => ⟨?_, ?_⟩,
    fun p i r x q j hangs part open_ released last suspect plan job passed => ?_⟩
  · obtain ⟨g, eq, caps⟩ := Mach.hang_captures (m := startMach s) none 1 p.physParts
    refine ⟨_, runM_up (f := holdLimit h false) ((holdLimit_local job plan running held noRollback late).trans eq), rfl, rfl, ?_, fun q mem isFree => ?_⟩
    · exact (congrArg Core.jobs caps.core :)
    · obtain ⟨ready, inService, open_⟩ := isFree
      obtain ⟨r, here, part, cause, plan, time, suspects⟩ := caps.new q mem ready inService open_
      exact ⟨(caps.capturing q).2 (.inr ⟨mem, ready, inService⟩), r, here, part, cause, plan, time, suspects⟩
  · obtain ⟨k, is, rolls, unclean⟩ := Core.remoteHang_fails (c := s.start) job
    exact ⟨_, k, runM_up (f := holdLimit h true) (holdLimit_remote job plan running noRollback late empty), rfl, rfl, is, rolls, unclean⟩
  · obtain ⟨ready, inService, open_⟩ := isFree
    obtain ⟨g, eq, caps⟩ := Mach.hang_captures (m := startMach s) none 2 [b.die]
    have effect : overrun h lsid (startMach s) = (startMach s).up g := by
      refine (overrun_die plan bound ready station).trans eq
    obtain ⟨r, here, part, cause, plan, -⟩ := caps.new b.die (List.mem_singleton_self _) ready inService open_
    exact ⟨_, runM_up effect, rfl, rfl, (caps.capturing b.die).2 (.inr ⟨List.mem_singleton_self _, ready, inService⟩), r, here, part, cause, plan⟩
  · obtain ⟨t, eq, core, -⟩ := runM_of_eq (overrun_collective (m := startMach s) plan bound ready collective)
    obtain ⟨phase, escCause, latched⟩ := Mach.countedWarm_rst (m := startMach s) released 2 (cause := 3) (by decide)
    rw [← core] at phase escCause latched
    exact ⟨t, eq, phase, latched ready, escCause⟩
  · obtain ⟨t, eq, core, -, pwr, -⟩ := runM_of_eq (f := captureEnd p (max us 1) true) (s := s) rfl
    obtain ⟨counted, now, rst⟩ := captureEnd_rst (m := startMach s) ready lt inService capturing hangs part waits unmeasured open_ (max us 1) true
    rw [← core] at rst
    refine ⟨t, eq, pwr, ?_⟩
    rw [rst]
    exact ⟨(Rst.partRuns_reset ..).1, (Rst.partRuns_reset ..).2, lookup?_insertKey_self ..⟩
  · obtain ⟨t, eq, core, -, pwr, -⟩ := runM_of_eq (f := captureEnd p 2000 false) (s := s) rfl
    obtain ⟨counted, now, rst⟩ := captureEnd_rst (m := startMach s) ready lt inService capturing hangs part waits unmeasured open_ 2000 false
    rw [← core] at rst
    refine ⟨t, eq, pwr, ?_⟩
    rw [rst]
    exact ⟨(Rst.partRuns_reset ..).1, (Rst.partRuns_reset ..).2, lookup?_insertKey_self .., rfl⟩
  · obtain ⟨m', f, stored, effect, none⟩ := suspectPass_last (m := startMach s) hangs part open_ released last suspect plan job passed
    obtain ⟨t, eq, core, -, pwr, -⟩ := runM_of_eq effect
    refine ⟨t, eq, pwr, ?_, ?_⟩
    · rw [core]
      exact none
    · rw [core]
      exact (congrArg Core.jobs stored.core :)

end Sys2Proof.Machine
end

section
/-!
Module commands (13 R456, R460; 12 R418; 07 R217; 15 R505, R515; 14 R488): what each of them comes to, test by test.
-/

namespace Sys2Proof.Machine

/-! ### What leaves a completion queue open -/

theorem Core.open?_modTen {c : Core} {t cq : Nat} (opened : c.open? t cq = true) (t' : Nat) {f : Ten → Ten} (keeps : ∀ x, (f x).queues = x.queues) :
    (c.modTen t' f).open? t cq = true := by
  refine (Core.open?_congr ?_ cq).trans opened
  by_cases tenant : t = t'
  · subst tenant
    rw [Core.ten_modTen_self, keeps]
  · rw [Core.ten_modTen_of_ne c tenant]

theorem Core.open?_of_tens {c d : Core} (tens : d.tens = c.tens) {t cq : Nat} (opened : c.open? t cq = true) : d.open? t cq = true :=
  (Core.open?_congr (by rw [Core.ten_congr tens]) cq).trans opened

theorem Core.open?_logRec {c : Core} {t cq : Nat} (opened : c.open? t cq = true) (r : Rec) : (c.logRec r).open? t cq = true := by
  have pushed : ∀ l, ({ c with log := l } : Core).open? t cq = true := fun l => Core.open?_of_tens rfl opened
  unfold Core.logRec
  cases r.tenant with
  | none => exact pushed _
  | some u =>
    dsimp only
    split
    · exact Core.open?_cqWrite (pushed _) ..
    · exact Core.open?_modTen (pushed _) _ fun _ => rfl

theorem Core.open?_foldl {α : Type} {t cq : Nat} {f : Core → α → Core} (keeps : ∀ c a, c.open? t cq = true → (f c a).open? t cq = true) (l : List α)
    {c : Core} (opened : c.open? t cq = true) : (l.foldl f c).open? t cq = true := by
  induction l generalizing c with
  | nil => exact opened
  | cons a rest ih => exact ih (keeps c a opened)

@[simp] theorem Core.open?_uncleanTenant (t : TenantId) (c : Core) (u cq : Nat) : (c.uncleanTenant t).open? u cq = c.open? u cq := rfl

@[simp] theorem Core.open?_modPort (i : Nat) (f : Port → Port) (c : Core) (t cq : Nat) : (c.modPort i f).open? t cq = c.open? t cq := rfl

theorem Core.open?_unreachable {c : Core} {t cq : Nat} (opened : c.open? t cq = true) (f : Frame) : (c.unreachable f).open? t cq = true := by
  unfold Core.unreachable
  dsimp only
  rw [Core.open?_uncleanTenant]
  have logs : ∀ r g, ((c.logRec r).modFab g).open? t cq = true := fun r g => Core.open?_of_tens (Core.modFab_tens ..) (Core.open?_logRec opened r)
  cases lookup? f.dst.toNat c.fab.unreach with
  | none => exact logs _ _
  | some at_ =>
    dsimp only
    split
    · exact opened
    · exact logs _ _

theorem Core.open?_enqueue {c : Core} {t cq : Nat} (opened : c.open? t cq = true) (atSource : Bool) (f : Frame) :
    (c.enqueue atSource f).open? t cq = true := by
  unfold Core.enqueue
  split
  · exact Core.open?_unreachable opened f
  · split
    · exact Core.open?_of_tens rfl (Core.open?_logRec opened _)
    · split
      · exact Core.open?_unreachable opened f
      · exact Core.open?_of_tens rfl opened

theorem Core.tens_congr_unsent {c d : Core} (sends : d.unsent = c.unsent) : d.tens = c.tens := (congrArg Core.tens sends :)

theorem Core.open?_failPort {c : Core} {t cq : Nat} (opened : c.open? t cq = true) (i : Nat) : (c.failPort i).open? t cq = true := by
  unfold Core.failPort
  dsimp only
  refine Core.open?_of_tens (Core.tens_congr_unsent ((Core.unsent_tellPorts _).trans (Core.unsent_pumps _ _))) ?_
  refine Core.open?_foldl (fun c f opened => Core.open?_enqueue opened ..) _ ?_
  rw [Core.open?_modPort]
  exact Core.open?_foldl (fun c u opened => (Core.open?_uncleanTenant u _ t cq).trans (Core.open?_logRec opened _)) _ opened

theorem Core.open?_portReset {c : Core} {t cq : Nat} (opened : c.open? t cq = true) (i : Nat) : (c.portReset i).open? t cq = true := by
  unfold Core.portReset
  dsimp only
  rw [Core.open?_modPort]
  split
  · exact Core.open?_failPort opened i
  · exact opened

/-- The reset of another tenant leaves a tenant's queues. -/
theorem Core.open?_tenantReset {c : Core} {t : Nat} {o : TenantId} (other : t ≠ o.toNat) {cq : Nat} (opened : c.open? t cq = true) :
    (c.tenantReset o).open? t cq = true := by
  refine (Core.open?_congr (congrArg Ten.queues ?_) cq).trans opened
  simp only [Core.ten, Core.tenantReset, lookup?_insertKey_of_ne _ _ (Ne.symm other)]

/-! ### Leases of a dedicated configuration (12 R418) -/

/-- A partition granted for exclusive use. -/
theorem Core.grantPart_eq (t : TenantId) (excl : Bool) (p : Nat) (c : Core) : c.grantPart t excl p =
    { c with leases := { c.leases with parts := c.leases.parts.filter (fun e => !(e.1 == p && e.2.1 == t)) ++ [(p, t, excl)] } } := rfl

/-- Grants of partitions one after another change the partition leases alone, to those of a tenant where a partition is granted. -/
theorem Core.grantParts (t : TenantId) (excl : Bool) (ps : List Nat) (c : Core) : ∃ ks,
    ps.foldl (fun c p => c.grantPart t excl p) c = { c with leases := { c.leases with parts := ks } } ∧
    ∀ x, x ∈ ks ↔ if x.1 ∈ ps ∧ x.2.1 = t then x.2.2 = excl else x ∈ c.leases.parts := by
  induction ps generalizing c with
  | nil => exact ⟨c.leases.parts, rfl, fun x => by simp⟩
  | cons p rest ih =>
    obtain ⟨ks, eq, mem⟩ := ih (c.grantPart t excl p)
    refine ⟨ks, ?_, fun x => ?_⟩
    · rw [List.foldl_cons, eq, Core.grantPart_eq]
    · rw [mem x, Core.grantPart_eq]
      obtain ⟨a, b, e⟩ := x
      by_cases own : b = t
      · by_cases here : a = p
        · subst here own
          simp
        · simp [here, own]
      · simp [own]

/-- Whether a lease is another tenant's, as CONFIG_MODE tests it (12 R418). -/
def Leases.othersHold (d : TenantId) (l : Leases) : Bool :=
  l.parts.any (fun x => x.2.1 != d) || l.granules.any (fun x => x.2 != d) || l.hbm.any (fun x => x.1.1 != d) ||
    l.bandwidth.any (fun x => x.1.1 != d && x.2 != 0) || l.links.any (fun x => x.2 != d)

theorem Leases.othersHold_of_part {d : TenantId} {l : Leases} {x : Nat × TenantId × Bool} (mem : x ∈ l.parts) (other : x.2.1 ≠ d) :
    l.othersHold d = true := by
  have part : l.parts.any (fun x => x.2.1 != d) = true := List.any_eq_true.2 ⟨x, mem, bne_iff_ne.2 other⟩
  simp only [Leases.othersHold, part, Bool.true_or]

theorem Leases.othersHold_of_own {d : TenantId} {l : Leases} (parts : ∀ x ∈ l.parts, x.2.1 = d) (granules : ∀ x ∈ l.granules, x.2 = d)
    (hbm : ∀ x ∈ l.hbm, x.1.1 = d) (bandwidth : ∀ x ∈ l.bandwidth, x.1.1 = d) (links : ∀ x ∈ l.links, x.2 = d) : l.othersHold d = false := by
  simp only [Leases.othersHold, Bool.or_eq_false_iff, List.any_eq_false, Bool.and_eq_true, bne_iff_ne, not_and, not_not]
  exact ⟨⟨⟨⟨parts, granules⟩, hbm⟩, fun x mem other => absurd (bandwidth x mem) other⟩, links⟩

/-- A configuration made dedicated: every partition in service is leased for exclusive use, and every collective-station slot (12 R418). -/
theorem Core.dedicate_frame (d : TenantId) (c : Core) : ∃ ks, c.dedicate d =
    { c with leases := { c.leases with parts := ks, links := tabulate 64 fun k => ((k, 0), d) }, ident := { c.ident with dedicated := some d } } ∧
    ∀ x, x ∈ ks ↔ if x.1 ∈ (List.range 8).filter (fun p => !(c.part p).outOfService) ∧ x.2.1 = d then x.2.2 = true else x ∈ c.leases.parts := by
  obtain ⟨ks, eq, mem⟩ := Core.grantParts d true ((List.range 8).filter fun p => !(c.part p).outOfService) c
  refine ⟨ks, ?_, mem⟩
  unfold Core.dedicate
  rw [eq]

theorem lookup?_map_const {α β γ : Type} [BEq α] [LawfulBEq α] {key : γ → α} (v : β) {k : α} {l : List γ} (mem : k ∈ l.map key) :
    lookup? k (l.map fun i => (key i, v)) = some v := by
  induction l with
  | nil => exact absurd mem List.not_mem_nil
  | cons i rest ih =>
    rw [List.map_cons, lookup?]
    by_cases first : key i = k
    · rw [if_pos (beq_iff_eq.2 first)]
    · rw [if_neg (by simpa using first)]
      exact ih ((List.mem_cons.1 mem).resolve_left (Ne.symm first))

/-! ### RESET by kind (14 R488) -/

section
variable {a : Accepted} {m : Mach}

theorem resetCmd_module (kind : a.par 8 1 = 0) : resetCmd a m = { m := m.up (Core.modRst (fun r => { r with delayed := some none })) } := by
  simp only [resetCmd, kind]

/-- A partition's reset begins, after a capture where one is asked for. -/
def Mach.commandedPart (p : Nat) (capture : Bool) (m : Mach) : Mach := if capture then m.up (Core.startCapture p 3 0 4 0xFF []) else m.partReset p false

theorem resetCmd_part (kind : a.par 8 1 = 1) : resetCmd a m =
    { wait := true, m := (m.up (fun c => { c with resetReplies := c.resetReplies ++ [(a.par 9 1, a)] })).commandedPart (a.par 9 1) (bitOf (a.par 10 1) 0) } := by
  simp only [resetCmd, kind, Mach.commandedPart]
  split <;> rfl

theorem resetCmd_port (kind : a.par 8 1 = 2) (port : a.par 9 1 < 16) :
    resetCmd a m = { detail := details [(8, 8, m.core.clk.count.toNat)], m := m.up (Core.portReset (a.par 9 1)) } := by
  simp only [resetCmd, kind, port, if_true]

theorem resetCmd_all (kind : a.par 8 1 = 3) (zero : a.target = 0) :
    resetCmd a m = { m := m.up (Core.modRst (fun r => { r with delayed := some (some 0) })) } := by
  simp only [resetCmd, kind, zero, beq_self_eq_true, if_true]

theorem resetCmd_tenant (kind : a.par 8 1 = 3) (named : a.target ≠ 0) :
    resetCmd a m = { detail := details [(8, 8, m.core.clk.count.toNat)], m := m.up (Core.tenantReset a.target) } := by
  simp only [resetCmd, kind, beq_eq_false_iff_ne.2 named, Bool.false_eq_true, if_false]

end

/-! ### Firmware images (15 R515) -/

theorem fwStage_refuses {f : FwImage} {n m : Nat} {sec : BitVec 64} :
    (!f.valid || n != m || decide (2 ^ 25 < n) || decide (f.sec.toNat < sec.toNat)) = true ↔
      f.valid = false ∨ n ≠ m ∨ 2 ^ 25 < n ∨ f.sec.toNat < sec.toNat := by
  simp [or_assoc]

theorem fwActivate_refuses {f : FwImage} {sec : BitVec 64} :
    (!f.valid || decide (f.sec.toNat < sec.toNat)) = true ↔ ¬(f.valid = true ∧ sec.toNat ≤ f.sec.toNat) := by
  cases f.valid <;> simp

/-! ### Commands that are evaluated against power as they set it (15 R505) -/

/-- What POWER_POLICY makes of the policy. -/
def Power.policy (a : Accepted) (profile : BitVec 8) (p : Power) : Power :=
  { p with capW := if a.par 8 2 = ceilingW profile then 0 else a.par 8 2, detLock := a.par 10 1 == 1, discUs := a.par 12 4 }

theorem exec_powerPolicy {s : State} {t : TenantId} {sq : Nat} {tag : BitVec 32} {a : Accepted} (asks : s.asks 0x107 t sq tag a) :
    exec (.powerPolicy t sq tag) s = runM (runCmd 0x107 t sq tag true [] (fun _ _ m =>
      { m := m, detail := details [(8, 2, m.pwr.capW), (10, 1, boolNat m.pwr.detLock), (12, 4, m.pwr.discUs)] }))
      { s with pwr := s.pwr.policy a s.core.ident.profile } := by
  have set : powerPolicy s.core t sq tag s.pwr = s.pwr.policy a s.core.ident.profile := by
    rw [powerPolicy, asks.next]
    exact if_neg (by rw [asks.direct]; decide)
  change execPowerPolicy t sq tag s = _
  unfold execPowerPolicy runP
  dsimp only
  rw [set]
  rfl

/-! ### A partition reset commanded (14 R488) -/

theorem Core.startCapture_frame (p cause held outcome guilty : Nat) (ss : List Suspect) (c : Core) :
    ∃ r, c.startCapture p cause held outcome guilty ss = { c with rst := r } := by
  unfold Core.startCapture
  split
  · exact ⟨c.rst, rfl⟩
  · exact ⟨_, rfl⟩

/-- What waits for a partition's reset, and what is accepted, as its sequence begins. -/
theorem Mach.partReset_waiting (p : Nat) (counted : Bool) (m : Mach) :
    (m.partReset p counted).core.resetReplies = m.core.resetReplies ∧ (m.partReset p counted).core.accepted = m.core.accepted := by
  by_cases free : m.core.rst.phase = 6 ∧ m.core.rst.parts.contains p = false ∧ p < 8
  · obtain ⟨ready, inService, lt⟩ := free
    obtain ⟨hs, begins⟩ := Mach.partReset_of_free ready inService lt counted
    obtain ⟨js, os, eq⟩ := Core.partBegun_frame p counted hs m.core.clk.count (m.partWiped p).core
    rw [begins, Mach.up_core, eq]
    exact ⟨rfl, rfl⟩
  · have same : m.partReset p counted = m := by
      refine if_pos ?_
      by_contra runs
      simp only [Bool.or_eq_true, not_or, Bool.not_eq_true, bne_eq_false_iff_eq, decide_eq_false_iff_not, not_le] at runs
      exact free ⟨runs.1.1, runs.1.2, runs.2⟩
    rw [same]
    exact ⟨rfl, rfl⟩

theorem Mach.commandedPart_waiting (p : Nat) (capture : Bool) (m : Mach) :
    (m.commandedPart p capture).core.resetReplies = m.core.resetReplies ∧ (m.commandedPart p capture).core.accepted = m.core.accepted := by
  unfold Mach.commandedPart
  split
  · obtain ⟨r, eq⟩ := m.core.startCapture_frame p 3 0 4 0xFF []
    rw [Mach.up_core, eq]
    exact ⟨rfl, rfl⟩
  · exact m.partReset_waiting p false

section
variable {s : State} {op : Nat} {t : TenantId} {sq : Nat} {tag : BitVec 32} {a : Accepted} (asks : s.asks op t sq tag a)
  {data : List Byte} {eval : Ev → Accepted → Mach → CmdOut}
include asks

/-- A command that changes nothing but answers. -/
theorem State.asks.reports {detail : List Byte}
    (effect : eval { v := s.view, now := false, since := some s.core.clk.count.toNat } a (startMach s) = { detail := detail, m := startMach s }) :
    ∃ u, runM (runCmd op t sq tag true data eval) s = .next u ∧ u.answered s a 0 detail :=
  asks.answers (f := id) (g := id) effect rfl rfl

/-- A command whose effect `f` is a function of the core alone. -/
theorem State.asks.does {f : Core → Core} {detail : List Byte}
    (effect : eval { v := s.view, now := false, since := some s.core.clk.count.toNat } a (startMach s) = { detail := detail, m := (startMach s).up f })
    (opened : (f s.start).open? a.tenant.toNat a.cq = true) :
    ∃ u, runM (runCmd op t sq tag true data eval) s = .next u ∧ u.answered (s.upd fun c => f { c with out := [] }) a 0 detail :=
  ⟨_, asks.run effect, State.answered_reply rfl rfl rfl rfl opened⟩

theorem State.asks.partReset {p : Nat} {g : Mach → Mach} (kept : ∀ m, (g m).core.resetReplies = m.core.resetReplies ∧ (g m).core.accepted = m.core.accepted)
    (effect : eval { v := s.view, now := false, since := some s.core.clk.count.toNat } a (startMach s) =
      { wait := true, m := g ((startMach s).up (fun c => { c with resetReplies := c.resetReplies ++ [(p, a)] })) }) :
    ∃ u, runM (runCmd op t sq tag true data eval) s = .next u ∧ u.pwr = s.pwr ∧ (p, a) ∈ u.core.resetReplies ∧
      ∀ b ∈ u.core.accepted, b.same a = true → b.started = true := by
  obtain ⟨u, runs, core, -, pwr, -⟩ := runM_of_eq ((asks.runCmd_eq true data eval).trans (congrArg (CmdOut.answer a) effect))
  obtain ⟨replies, accepted⟩ := kept ((startMach s).up (fun c => { c with resetReplies := c.resetReplies ++ [(p, a)] }))
  refine ⟨u, runs, pwr, ?_, fun b mem same => ?_⟩
  · rw [core]
    exact replies ▸ List.mem_append_right _ (List.mem_singleton_self _)
  · rw [core] at mem
    obtain ⟨d, -, rfl⟩ := List.mem_map.1 mem
    by_cases marked : d.same a = true
    · rw [if_pos marked]
    · rw [if_neg marked] at same
      exact absurd same marked

end

/-- Settles O47: each command's evaluation comes to the effect and the reply that its row names. -/
theorem moduleCommandsAnswer : Obligations.ModuleCommandsAnswer := by
  unfold Obligations.ModuleCommandsAnswer
  intro s t sq tag a i v plans runs
  have planned : plans = (v.anyPlan || s.core.anyPlan) := rfl
  refine ⟨fun asks => ?_, fun asks => ?_, fun asks => ⟨fun busy => ?_, fun free share => ?_, fun free take_ other => ?_,
    fun free take_ own granules hbm bandwidth links => ?_⟩,
    fun asks => ?_, fun asks => ⟨?_, fun b => ⟨fun bad => ?_, fun sound length small newer => ?_⟩⟩, fun asks => ?_, fun asks => ?_,
    fun asks => ⟨fun kind => ?_, fun kind => ?_, fun kind port => ?_, fun kind zero => ?_, fun kind named other => ?_⟩⟩
  · have holder : (i.dedicated.getD 0).toNat = (match i.dedicated with | some t => t.toNat | none => 0) := by cases i.dedicated <;> rfl
    rw [holder]
    exact asks.reports rfl
  · split_ifs with busy
    · exact asks.refuses (if_pos busy)
    · exact asks.answers (if_neg busy) rfl rfl
  · exact asks.refuses (if_pos busy)
  · exact asks.answers ((if_neg (Bool.eq_false_iff.1 free)).trans (if_pos share)) rfl rfl
  · obtain ⟨x, mem, other⟩ := other
    exact asks.refuses ((if_neg (Bool.eq_false_iff.1 free)).trans
      ((if_neg (by omega)).trans (if_pos (Leases.othersHold_of_part (l := v.leases) mem other))))
  · have own : ¬v.leases.othersHold (BitVec.ofNat 8 (a.par 9 1)) = true := Bool.eq_false_iff.1 (Leases.othersHold_of_own own granules hbm bandwidth links)
    obtain ⟨ks, eq, mem⟩ := Core.dedicate_frame (BitVec.ofNat 8 (a.par 9 1)) s.start
    refine ⟨ks, _, asks.answers ((if_neg (Bool.eq_false_iff.1 free)).trans ((if_neg (by omega)).trans (if_neg own))) ?_ rfl,
      fun p lt inService => ⟨?_, fun x here part holder => ?_⟩,
      fun k lt => lookup?_map_const (key := fun k => (k, 0)) _ (List.mem_map_of_mem (List.mem_range.2 lt))⟩
    · rw [eq]
      rfl
    · exact (mem (p, _, true)).2 ((if_pos ⟨List.mem_filter.2 ⟨List.mem_range.2 lt, by rw [Bool.not_eq_true']; exact inService⟩, rfl⟩).mpr rfl)
    · exact ((if_pos ⟨List.mem_filter.2 ⟨List.mem_range.2 (part ▸ lt), by rw [Bool.not_eq_true', part]; exact inService⟩, holder⟩).mp ((mem x).1 here))
  · dsimp only
    split_ifs with busy bounds leased
    · exact asks.refuses (if_pos busy)
    · exact asks.refuses ((if_neg busy).trans (if_pos (by simp [inRange]; omega)))
    · obtain ⟨x, mem, low⟩ := leased
      refine asks.refuses ((if_neg busy).trans ((if_neg ?_).trans (if_pos ?_)))
      · simp [inRange]
        omega
      · exact List.any_eq_true.2 ⟨x, mem, decide_eq_true (by omega)⟩
    · refine asks.answers ((if_neg busy).trans ((if_neg ?_).trans (if_neg ?_))) rfl rfl
      · simp [inRange]
        omega
      · rw [List.any_eq_true]
        rintro ⟨x, mem, low⟩
        exact leased ⟨x, mem, by have := of_decide_eq_true low; omega⟩
  · exact asks.unread [] _
  · refine asks.refuses (if_pos (fwStage_refuses.2 ?_))
    rcases bad with unsigned | long | old
    · exact .inl unsigned
    · exact .inr (.inr (.inl long))
    · exact .inr (.inr (.inr old))
  · refine asks.answers (if_neg ?_) rfl rfl
    rw [fwStage_refuses]
    rintro (unsigned | other | long | old)
    · exact absurd (sound.symm.trans unsigned) (by decide)
    · exact other length
    · exact absurd small (Nat.not_le.2 long)
    · exact absurd newer (Nat.not_le.2 old)
  · dsimp only
    split_ifs with good
    · exact asks.answers (if_neg (fun refused => fwActivate_refuses.1 refused good)) rfl rfl
    · exact asks.refuses (if_pos (fwActivate_refuses.2 good))
  · have set : ({ s with pwr := s.pwr.policy a s.core.ident.profile } : State).asks 0x107 t sq tag a := ⟨asks.next, asks.direct, asks.queue⟩
    obtain ⟨u, next, answered⟩ := set.reports (data := []) (eval := fun _ _ m =>
      { m := m, detail := details [(8, 2, m.pwr.capW), (10, 1, boolNat m.pwr.detLock), (12, 4, m.pwr.discUs)] }) rfl
    have locked : boolNat (a.par 10 1 == 1) = if a.par 10 1 = 1 then 1 else 0 := by simp [boolNat]
    refine ⟨u, (exec_powerPolicy asks).trans next, ?_⟩
    rw [← locked]
    exact answered
  · exact asks.answers (resetCmd_module kind) rfl rfl
  · exact asks.partReset (Mach.commandedPart_waiting _ _) (resetCmd_part kind)
  · have opened : s.start.open? a.tenant.toNat a.cq = true := asks.queue
    exact asks.does (f := Core.portReset (a.par 9 1)) (resetCmd_port kind port) (Core.open?_portReset opened _)
  · exact asks.answers (resetCmd_all kind zero) rfl rfl
  · have opened : s.start.open? a.tenant.toNat a.cq = true := asks.queue
    exact asks.does (f := Core.tenantReset a.target) (resetCmd_tenant kind named)
      (Core.open?_tenantReset (fun same => other (BitVec.eq_of_toNat_eq same.symm)) opened)

end Sys2Proof.Machine
end

section
/-!
Queues (13 R445 to R453, R458, R460, R468, R471): doorbells, fetch, interrupts, the admin pair, and the commands that make and delete a queue.
-/

namespace Sys2Proof.Machine

/-! ### A queue in error (13 R453) -/

theorem Core.unsolicited_others {t x : Nat} (ne : x ≠ t) (status : Nat) (detail : List Byte) (c : Core) : (c.unsolicited t status detail).ten x = c.ten x := by
  unfold Core.unsolicited
  split
  · exact (Core.repliesTo_cqWrite ..).others x ne
  · exact Core.ten_modTen_of_ne c ne _

/-- An unsolicited entry leaves every queue but the admin pair. -/
theorem Core.unsolicited_queue {n : Nat} (ge : 2 ≤ n) (t status : Nat) (detail : List Byte) (c : Core) :
    lookup? n ((c.unsolicited t status detail).ten t).queues = lookup? n (c.ten t).queues := by
  unfold Core.unsolicited
  split
  · obtain ⟨qs, live, ten, rest⟩ := (Core.repliesTo_cqWrite t 1 (entryBytes 0xFFFFFFFF status detail) c).own
    rw [ten]
    exact rest n (by omega) ge
  · rw [Core.ten_modTen_self]
    dsimp only
    split <;> rfl

/-- `d` is `c` with a queue of a tenant in error, but for the queues 0 and 1, what waits for them and what is sent (13 R453, R458). -/
structure Core.Errs (t qn : Nat) (q : Queue) (c d : Core) : Prop where
  queue : lookup? qn (d.ten t).queues = some { q with err := true }
  core : d = { c with tens := d.tens, out := d.out }
  others : ∀ y, y ≠ t → d.ten y = c.ten y

theorem Core.queueError_errs {c : Core} {t qn : Nat} {q : Queue} (found : lookup? qn (c.ten t).queues = some q) (ge : 2 ≤ qn) (reason : Nat) :
    c.Errs t qn q (c.queueError t qn reason) := by
  let marked := c.modTen t fun x => { x with queues := x.queues.map fun p => if p.1 == qn then (p.1, { p.2 with err := true }) else p }
  have eq : c.queueError t qn reason = marked.unsolicited t 0xF6 (bytesLE 2 qn ++ bytesLE 1 reason) := if_neg (by omega)
  rw [eq]
  refine ⟨?_, ?_, fun y ne => ?_⟩
  · rw [Core.unsolicited_queue ge, Core.ten_modTen_self]
    exact (lookup?_map_key qn qn (fun q : Queue => { q with err := true }) _).trans (by rw [if_pos rfl, found, Option.map_some])
  · obtain ⟨ts, os, sent⟩ := Core.unsolicited_frame t 0xF6 (bytesLE 2 qn ++ bytesLE 1 reason) marked
    rw [sent]
    rfl
  · rw [Core.unsolicited_others ne]
    exact Core.ten_modTen_of_ne c ne _

/-! ### Queues that take doorbells (13 R445) -/

theorem Core.lookup?_of_ringable {c : Core} {t : TenantId} {qn : Nat} {q : Queue} (rings : c.ringable t qn = some q) :
    lookup? qn (c.ten t.toNat).queues = some q := by
  unfold Core.ringable at rings
  dsimp only at rings
  split at rings
  · exact (Option.filter_eq_some_iff.1 rings).1
  · exact absurd rings nofun

section
variable {c : Core} {t : TenantId} {qn : Nat} {q : Queue} (rings : c.ringable t qn = some q)
include rings

theorem sqDoorbell_of_lt {v : BitVec 32} (kind : q.kind = .sq) (lt : v.toNat < q.entries) :
    sqDoorbell t qn v c = c.modQueue t qn fun q => { q with tail := v.toNat } := by
  simp [sqDoorbell, rings, kind, Nat.not_le.2 lt]

theorem sqDoorbell_of_ge {v : BitVec 32} (kind : q.kind = .sq) (ge : q.entries ≤ v.toNat) : sqDoorbell t qn v c = c.queueError t.toNat qn 1 := by
  simp [sqDoorbell, rings, kind, ge]

theorem cqDoorbell_of_between {v : BitVec 32} (kind : q.kind = .cq) (lt : v.toNat < q.entries) (between : (v.toNat + q.entries - q.head) % q.entries ≤ q.used) :
    cqDoorbell t qn v c = (c.modQueue t qn fun q => { q with head := v.toNat }).drainFifo t 64 := by
  simp [cqDoorbell, rings, kind, lt, between]

theorem cqDoorbell_of_ge {v : BitVec 32} (kind : q.kind = .cq) (ge : q.entries ≤ v.toNat) : cqDoorbell t qn v c = c.queueError t.toNat qn 1 := by
  simp [cqDoorbell, rings, kind, Nat.not_lt.2 ge]

theorem rqDoorbell_of_room {tag : BitVec 32} (kind : q.kind = .rq) (room : q.tags.length < q.depth) :
    rqDoorbell t qn tag c = c.modQueue t qn fun q => { q with tags := q.tags ++ [tag] } := by
  simp [rqDoorbell, rings, kind, Nat.not_le.2 room]

theorem rqDoorbell_of_full {tag : BitVec 32} (kind : q.kind = .rq) (full : q.depth ≤ q.tags.length) :
    rqDoorbell t qn tag c = c.unsolicited t.toNat 0xF6 (bytesLE 2 qn ++ [4]) := by
  simp [rqDoorbell, rings, kind, full]
  rfl

end

/-! ### Waiting unsolicited entries (13 R458) -/

theorem Core.out_drainFifo (t : TenantId) (n : Nat) (c : Core) : ∃ os, (c.drainFifo t n).out = c.out ++ os := by
  induction n generalizing c with
  | zero => exact ⟨[], (List.append_nil _).symm⟩
  | succ n ih =>
    unfold Core.drainFifo
    split
    · split
      · next u us _ _ =>
        obtain ⟨os, first⟩ := Core.out_cqWrite t.toNat 1 (entryBytes 0xFFFFFFFF u.status.toNat u.detail) (c.modTen t.toNat fun x => { x with fifo := us })
        obtain ⟨os', later⟩ := ih ((c.modTen t.toNat fun x => { x with fifo := us }).cqWrite t.toNat 1 (entryBytes 0xFFFFFFFF u.status.toNat u.detail))
        exact ⟨os ++ os', by rw [later, first, List.append_assoc]; rfl⟩
      · exact ⟨[], (List.append_nil _).symm⟩
    · exact ⟨[], (List.append_nil _).symm⟩

theorem Core.drainFifo_nil {t : TenantId} {c : Core} (none : (c.ten t.toNat).fifo = []) (n : Nat) : c.drainFifo t n = c := by
  cases n with
  | zero => rfl
  | succ n => simp [Core.drainFifo, none]

theorem Core.open?_of_cq1Free {c : Core} {t : Nat} (free : c.cq1Free t = true) : c.open? t 1 = true := by
  unfold Core.cq1Free at free
  split at free
  · next q found =>
    simp only [Queue.hasFree, Bool.and_eq_true, Bool.not_eq_true'] at free
    exact Core.open?_iff.2 ⟨q, found, free.1.2⟩
  · exact absurd free (by decide)

/-- The entry that waits first is written where queue 1 has a free slot. -/
theorem Core.mem_out_drainFifo {t : TenantId} {c : Core} {e : Unsol} (first : (c.ten t.toNat).fifo.head? = some e) (free : c.cq1Free t.toNat = true) (n : Nat) :
    ∃ k, Out.cqEntry t 1 k (entryBytes 0xFFFFFFFF e.status.toNat e.detail) ∈ (c.drainFifo t (n + 1)).out := by
  obtain ⟨us, fifo⟩ := List.head?_eq_some_iff.1 first
  have opened : (c.modTen t.toNat fun x => { x with fifo := us }).open? t.toNat 1 = true := Core.open?_modTen (Core.open?_of_cq1Free free) _ fun _ => rfl
  obtain ⟨k, sent⟩ := Core.mem_out_cqWrite opened (entryBytes 0xFFFFFFFF e.status.toNat e.detail)
  rw [BitVec.ofNat_toNat, BitVec.setWidth_eq] at sent
  refine ⟨k, ?_⟩
  obtain ⟨os, out⟩ := Core.out_drainFifo t n ((c.modTen t.toNat fun x => { x with fifo := us }).cqWrite t.toNat 1
    (entryBytes 0xFFFFFFFF e.status.toNat e.detail))
  simp only [Core.drainFifo, fifo, free, if_true]
  rw [out]
  exact List.mem_append_left _ sent

/-! ### Commands fetched (13 R449, R450) -/

/-- The command at the head of a queue, taken off it: its packet accepted, a slot of the bound queue reserved. -/
def Core.takeCmd (t : TenantId) (qn h bound : Nat) (c : Core) : Core :=
  (c.modQueue t qn fun q => { q with head := h }).modQueue t bound fun q => { q with reserved := q.reserved + 1 }

/-- A command as its fetch accepts it. -/
def fetched (t : TenantId) (qn bound : Nat) (b : List Byte) : Accepted :=
  { tenant := t, sq := qn, cq := bound, tag := BitVec.ofNat 32 (fieldAt b 4 4), packet := b }

theorem packetTest_congr {c d : Core} (ident : d.ident = c.ident) (rst : d.rst = c.rst) (a : Accepted) : packetTest d a = packetTest c a := by
  simp only [packetTest, ident, rst]

theorem Core.queueError_frame (t qn reason : Nat) (c : Core) : ∃ ts os, c.queueError t qn reason = { c with tens := ts, out := c.out ++ os } := by
  unfold Core.queueError
  dsimp only
  split
  · exact ⟨_, [], by rw [List.append_nil]; rfl⟩
  · obtain ⟨ts, os, sent⟩ := Core.unsolicited_frame t 0xF6 (bytesLE 2 qn ++ bytesLE 1 reason)
      (c.modTen t fun x => { x with queues := x.queues.map fun p => if p.1 == qn then (p.1, { p.2 with err := true }) else p })
    exact ⟨ts, os, sent⟩

/-- Where the head of a queue goes as its command is fetched. -/
def Queue.nextHead (q : Queue) : Nat := if q.head + 1 < q.entries then q.head + 1 else 0

/-- The core with the command at the head of queue `q` accepted; its shadow is written, or the queue put in error (13 R453). -/
def Core.accepts (t : TenantId) (qn : Nat) (q : Queue) (b : List Byte) (shadowOk : Bool) (c : Core) : Core :=
  let d := c.takeCmd t qn q.nextHead q.bound
  { (if shadowOk then d.emit (.shadow t qn q.nextHead) else d.queueError t.toNat qn 3) with accepted := c.accepted ++ [fetched t qn q.bound b] }

theorem Core.accepts_packetTest (t : TenantId) (qn : Nat) (q : Queue) (b : List Byte) (shadowOk : Bool) (c : Core) (a : Accepted) :
    packetTest (c.accepts t qn q b shadowOk) a = packetTest c a := by
  obtain ⟨ts, os, failed⟩ := (c.takeCmd t qn q.nextHead q.bound).queueError_frame t.toNat qn 3
  cases shadowOk
  · exact packetTest_congr (congrArg Core.ident failed :) (congrArg Core.rst failed :) a
  · exact packetTest_congr rfl rfl a

section
variable {c : Core} {t : TenantId} {qn : Nat} {q cq : Queue} (rings : c.ringable t qn = some q) (kind : q.kind = .sq) (waits : q.head ≠ q.tail)
  (bound : lookup? q.bound (c.ten t.toNat).queues = some cq) (free : cq.hasFree = true)
include rings kind waits bound free

theorem fetch_unread : fetch t qn none c = c.queueError t.toNat qn 2 := by
  simp [fetch, rings, kind, waits, bound, free]

variable {b : List Byte} (length : b.length = 64) (lt : q.head < q.entries) (shadowOk : Bool)
include length lt

/-- A packet read is accepted, and answered at once where it fails a test (13 R456). -/
theorem fetch_read : fetch t qn (some ⟨b, shadowOk⟩) c =
    ((packetTest c (fetched t qn q.bound b)).map fun st => (c.accepts t qn q b shadowOk).reply (fetched t qn q.bound b) st []).getD
      (c.accepts t qn q b shadowOk) := by
  have wraps : (q.head + 1) % max q.entries 1 = q.nextHead := by
    rw [show max q.entries 1 = q.entries by omega, Queue.nextHead]
    split
    · exact Nat.mod_eq_of_lt ‹_›
    · rw [show q.head + 1 = q.entries by omega, Nat.mod_self]
  have room : (q.kind != .sq || q.head == q.tail || !cq.hasFree) = false := by simp [kind, waits, free]
  unfold fetch
  rw [rings]
  dsimp only
  rw [bound]
  dsimp only
  rw [room, if_neg Bool.false_ne_true, wraps, padTo_of_length length, ← Core.accepts_packetTest t qn q b shadowOk c]
  change (match packetTest (c.accepts t qn q b shadowOk) (fetched t qn q.bound b) with
    | some st => (c.accepts t qn q b shadowOk).reply (fetched t qn q.bound b) st []
    | none => c.accepts t qn q b shadowOk) = _
  cases packetTest (c.accepts t qn q b shadowOk) (fetched t qn q.bound b) <;> rfl

end

/-- A completion queue with a free slot stays open as a command is taken off a submission queue. -/
theorem Core.open?_takeCmd {c : Core} {t : TenantId} {cq : Nat} (opened : c.open? t.toNat cq = true) (qn h bound : Nat) :
    (c.takeCmd t qn h bound).open? t.toNat cq = true := by
  have queue : ∀ (c : Core) (n : Nat) (f : Queue → Queue), (∀ q, (f q).err = q.err) → c.open? t.toNat cq = true →
    (c.modQueue t n f).open? t.toNat cq = true := by
    intro c n f keeps opened
    obtain ⟨q, found, sound⟩ := Core.open?_iff.1 opened
    rw [Core.open?_iff, Core.modQueue, Core.ten_modTen_self]
    dsimp only
    rw [lookup?_map_key n cq f]
    split
    · exact ⟨f q, by rw [found, Option.map_some], (keeps q).trans sound⟩
    · exact ⟨q, found, sound⟩
  exact queue _ bound _ (fun _ => rfl) (queue c qn _ (fun _ => rfl) opened)

theorem Core.lookup?_modQueue_self {c : Core} {t : TenantId} {qn : Nat} {q : Queue} (found : lookup? qn (c.ten t.toNat).queues = some q) (f : Queue → Queue) :
    lookup? qn ((c.modQueue t qn f).ten t.toNat).queues = some (f q) := by
  rw [Core.modQueue, Core.ten_modTen_self]
  exact (lookup?_map_key qn qn f _).trans (by rw [if_pos rfl, found, Option.map_some])

theorem Core.lookup?_modQueue_of_ne {c : Core} {t : TenantId} {qn n : Nat} (ne : n ≠ qn) (f : Queue → Queue) :
    lookup? n ((c.modQueue t qn f).ten t.toNat).queues = lookup? n (c.ten t.toNat).queues := by
  rw [Core.modQueue, Core.ten_modTen_self]
  exact (lookup?_map_key qn n f _).trans (if_neg ne)

/-- A submission queue is bound to another queue than itself where that has a free slot. -/
theorem Queue.bound_ne {c : Core} {t : TenantId} {qn : Nat} {q cq : Queue} (rings : c.ringable t qn = some q) (kind : q.kind = .sq)
    (bound : lookup? q.bound (c.ten t.toNat).queues = some cq) (free : cq.hasFree = true) : qn ≠ q.bound := by
  intro same
  rw [← same, Core.lookup?_of_ringable rings] at bound
  obtain rfl := Option.some.inj bound
  simp [Queue.hasFree, kind] at free

/-! ### Interrupts (13 R452, R453) -/

section
variable {s : State} {t : TenantId} {qn : Nat} {q : Queue} (found : lookup? qn (s.core.ten t.toNat).queues = some q) (kind : q.kind = .cq)
  (sound : q.err = false) (unsignalled : 0 < q.unsignalled)
include found kind sound unsignalled

theorem exec_interruptCoalesceTimer_written (vector : q.vector ≠ 0xFF) : exec (.interruptCoalesceTimer t ⟨qn, true⟩) s =
    .next { s with core := (s.start.modQueue t qn fun q => { q with unsignalled := 0 }).emit (.msix t q.vector) } := by
  have here : lookup? qn (s.start.ten t.toNat).queues = some q := found
  change execInterruptCoalesceTimer t ⟨qn, true⟩ s = _
  rw [execInterruptCoalesceTimer, runC_start]
  simp [here, kind, sound, unsignalled, vector]

theorem exec_interruptCoalesceTimer_unwritten : exec (.interruptCoalesceTimer t ⟨qn, false⟩) s =
    .next { s with core := s.start.queueError t.toNat qn 3 } := by
  have here : lookup? qn (s.start.ten t.toNat).queues = some q := found
  change execInterruptCoalesceTimer t ⟨qn, false⟩ s = _
  rw [execInterruptCoalesceTimer, runC_start]
  simp [here, kind, sound, unsignalled]

end

/-! ### The admin pair (13 R448, R471) -/

theorem pageRow_of_enabled {s : State} {t : TenantId} (ready : s.core.rst.phase = 6) (enabled : (s.core.ten t.toNat).enabled = true) (f : Core → Core) :
    pageRow t f s = .next { s with core := f s.start } := by
  have open_ : (s.start.rst.phase == 6 && (s.start.ten t.toNat).enabled) = true := by
    rw [Bool.and_eq_true]
    exact ⟨beq_iff_eq.2 ready, enabled⟩
  rw [pageRow, runC_start, open_, if_pos rfl]


/-- The submission and completion queue that the admin registers describe. -/
def Ten.adminPair (x : Ten) : Queue × Queue :=
  ({ kind := .sq, entries := 2 ^ (x.adminSq.toNat % 16 + 4), base := BitVec.ofNat 64 (x.adminSq.toNat / 4096 * 4096),
     shadow := BitVec.ofNat 64 (x.adminShadow.toNat / 16 * 16), bound := 1 },
   { kind := .cq, entries := 2 ^ (x.adminCq.toNat % 16 + 4), base := BitVec.ofNat 64 (x.adminCq.toNat / 4096 * 4096),
     shadow := BitVec.ofNat 64 (x.adminShadow.toNat / 16 * 16 + 8) })

theorem adminEnable_ten {c : Core} {t : TenantId} (off : (c.ten t.toNat).adminShadow.getLsbD 0 = false) (sqSize : (c.ten t.toNat).adminSq.toNat % 16 ≤ 12)
    (cqSize : (c.ten t.toNat).adminCq.toNat % 16 ≤ 12) (none : (c.ten t.toNat).fifo = []) :
    (adminEnable t.toNat c).ten t.toNat =
      { c.ten t.toNat with
        adminShadow := (c.ten t.toNat).adminShadow ||| 1, adminLive := true
        queues := (0, (c.ten t.toNat).adminPair.1) :: (1, (c.ten t.toNat).adminPair.2) :: (c.ten t.toNat).queues.filter fun q => decide (2 ≤ q.1) } := by
  unfold adminEnable
  dsimp only
  rw [off, if_neg Bool.false_ne_true]
  rw [if_neg (by simp only [Bool.or_eq_true, decide_eq_true_eq]; omega), BitVec.ofNat_toNat, BitVec.setWidth_eq, Core.drainFifo_nil]
  · rw [Core.ten_modTen_self, Core.ten_modTen_self]
    rfl
  · rw [Core.ten_modTen_self, Core.ten_modTen_self]
    exact none

/-- A tenant as its admin pair is told to stop: it takes no more commands (13 R471). -/
def Ten.adminStops (x : Ten) : Ten :=
  { x with adminShadow := x.adminShadow &&& ~~~1
           queues := if x.adminLive then x.queues.filter (fun q => !(q.1 == 0)) else x.queues.filter (fun q => decide (2 ≤ q.1)) }

theorem Ten.adminStops_shadow (x : Ten) : x.adminStops.adminShadow.getLsbD 0 = false := by simp [Ten.adminStops]

/-- The admin pair stops at once where nothing accepted is unanswered. -/
theorem adminDisable_of_idle {c : Core} {t : TenantId} (unused : ∀ a ∈ c.accepted, a.tenant = t → a.cq ≠ 1) :
    adminDisable t.toNat c = if (c.ten t.toNat).adminLive then
      (c.modTen t.toNat Ten.adminStops).modTen t.toNat (fun x => { x with adminLive := false, queues := x.queues.filter fun q => decide (2 ≤ q.1) })
    else c.modTen t.toNat Ten.adminStops := by
  have idle : c.accepted.any (fun a => a.tenant.toNat == t.toNat && a.cq == 1) = false := by
    simp only [List.any_eq_false, Bool.and_eq_true, beq_iff_eq, not_and]
    exact fun a mem tenant => unused a mem (BitVec.eq_of_toNat_eq tenant)
  change (c.modTen t.toNat Ten.adminStops).adminSettle t.toNat = _
  have live : (c.ten t.toNat).adminStops.adminLive = (c.ten t.toNat).adminLive := rfl
  rw [Core.adminSettle, Core.ten_modTen_self, Ten.adminStops_shadow, Core.modTen_accepted, idle, live, Bool.not_false, Bool.and_true, Bool.and_true]

theorem adminDisable_ten {c : Core} {t : TenantId} (unused : ∀ a ∈ c.accepted, a.tenant = t → a.cq ≠ 1) :
    ((adminDisable t.toNat c).ten t.toNat).adminLive = false ∧
    ((adminDisable t.toNat c).ten t.toNat).queues = (c.ten t.toNat).queues.filter (fun q => decide (2 ≤ q.1)) ∧
    (adminDisable t.toNat c).accepted = c.accepted := by
  rw [adminDisable_of_idle unused]
  split
  · next live =>
    refine ⟨by rw [Core.ten_modTen_self], ?_, rfl⟩
    rw [Core.ten_modTen_self, Core.ten_modTen_self]
    dsimp only [Ten.adminStops]
    rw [if_pos live, List.filter_filter]
    refine List.filter_congr fun q _ => ?_
    cases below : decide (2 ≤ q.1)
    · rfl
    · have := of_decide_eq_true below
      simp
      omega
  · next off =>
    refine ⟨?_, ?_, rfl⟩
    · rw [Core.ten_modTen_self]
      exact Bool.eq_false_iff.2 off
    · rw [Core.ten_modTen_self]
      exact if_neg off

/-! ### Queues made and deleted (13 R448, R456, R460) -/

/-- The queue that the parameters of a QUEUE_CREATE describe, but for a request queue. -/
def Accepted.ringQueue (a : Accepted) : Queue :=
  { kind := .sq, entries := 2 ^ (a.par 11 1 + 4), base := BitVec.ofNat 64 (a.par 24 8), shadow := BitVec.ofNat 64 (a.par 32 8), bound := a.par 12 2 }

/-- A queue added to a tenant's. -/
def Core.addQueue (t : TenantId) (n : Nat) (q : Queue) (c : Core) : Core := c.modTen t.toNat fun x => { x with queues := x.queues ++ [(n, q)] }

/-- Whether QUEUE_CREATE describes a queue that can be made, but for the queues that stand (R448). -/
def Accepted.queueOk (a : Accepted) (qs : List (Nat × Queue)) : Prop :=
  2 ≤ a.par 8 2 ∧ a.par 8 2 ≤ 1023 ∧
    ((a.par 10 1 = 1 ∧ (a.par 11 1 ≤ 12 ∧ a.par 24 8 % 4096 = 0 ∧ a.par 32 8 % 8 = 0) ∧ ∃ q, lookup? (a.par 12 2) qs = some q ∧ q.kind = .cq) ∨
     (a.par 10 1 = 2 ∧ a.par 11 1 ≤ 12 ∧ a.par 24 8 % 4096 = 0 ∧ a.par 32 8 % 8 = 0) ∨
     (a.par 10 1 = 3 ∧ ∃ q, lookup? (a.par 12 2) qs = some q ∧ q.kind = .cq))

/-- Whether the completion queue that a QUEUE_CREATE names is there. -/
def Accepted.cqBound (a : Accepted) (qs : List (Nat × Queue)) : Bool :=
  match lookup? (a.par 12 2) qs with | some q => q.kind == .cq | none => false

/-- Whether a QUEUE_CREATE describes a ring (R448). -/
def Accepted.ringOk (a : Accepted) : Bool := decide (a.par 11 1 ≤ 12) && a.par 24 8 % 4096 == 0 && a.par 32 8 % 8 == 0

/-- The test of QUEUE_CREATE's parameters as the model makes it. -/
def Accepted.queuePasses (a : Accepted) (qs : List (Nat × Queue)) : Bool :=
  inRange (a.par 8 2) 2 1022 && (match a.par 10 1 with | 1 => a.ringOk && a.cqBound qs | 2 => a.ringOk | 3 => a.cqBound qs | _ => false)

theorem Accepted.cqBound_iff (a : Accepted) (qs : List (Nat × Queue)) : a.cqBound qs = true ↔ ∃ q, lookup? (a.par 12 2) qs = some q ∧ q.kind = .cq := by
  cases found : lookup? (a.par 12 2) qs <;> simp [Accepted.cqBound, found]

theorem Accepted.ringOk_iff (a : Accepted) : a.ringOk = true ↔ a.par 11 1 ≤ 12 ∧ a.par 24 8 % 4096 = 0 ∧ a.par 32 8 % 8 = 0 := by
  simp [Accepted.ringOk, and_assoc]

theorem Accepted.queuePasses_iff (a : Accepted) (qs : List (Nat × Queue)) : a.queuePasses qs = true ↔ a.queueOk qs := by
  have numbered : inRange (a.par 8 2) 2 1022 = true ↔ 2 ≤ a.par 8 2 ∧ a.par 8 2 ≤ 1023 := by
    simp [inRange]
    omega
  rw [Accepted.queuePasses, Bool.and_eq_true, numbered, and_assoc, Accepted.queueOk, ← a.cqBound_iff, ← a.ringOk_iff]
  refine and_congr_right fun _ => and_congr_right fun _ => ?_
  split
  · next one => simp [one]
  · next two => simp [two]
  · next three => simp [three]
  · next k one two three => exact ⟨nofun, fun any => by rcases any with h | h | h <;> exact absurd h.1 ‹_›⟩

section
variable {e : Ev} {a : Accepted} {m : Mach}

/-- A description that does not pass makes no queue. -/
theorem queueCreate_of_bad (bad : ¬a.queueOk (m.core.ten a.target.toNat).queues) : queueCreate e a m = refuse 0x203 m := by
  rw [← a.queuePasses_iff, Bool.not_eq_true] at bad
  have test : (!a.queuePasses (m.core.ten a.target.toNat).queues) = true := by rw [bad]; rfl
  unfold queueCreate
  dsimp only
  exact if_pos test

section
variable (ok : a.queueOk (m.core.ten a.target.toNat).queues)
include ok

theorem queueCreate_of_ok : queueCreate e a m =
    if (lookup? (a.par 8 2) (m.core.ten a.target.toNat).queues).isSome then refuse 0x204 m
    else if a.par 10 1 = 1 then { m := m.up (Core.addQueue a.target (a.par 8 2) a.ringQueue) }
    else if a.par 10 1 = 2 then
      { m := m.up (Core.addQueue a.target (a.par 8 2) { a.ringQueue with kind := .cq, vector := a.par 14 1, coalCount := a.par 15 1, coalUs := a.par 16 1 }) }
    else if (e.v.planNamed a.target (a.par 18 2)).any (fun p => p.hdr.onDemand && p.hdr.cls == 0) then
      { m := m.up (fun c => (c.addQueue a.target (a.par 8 2) { kind := .rq, depth := a.par 11 1 + 1, bound := a.par 12 2, rqPlan := a.par 18 2 }).modPlan (a.par 18 2)
          (fun p => { p with rq := some (a.par 8 2) })) }
    else refuse 0x30F m := by
  rw [← a.queuePasses_iff] at ok
  have test : ¬(!a.queuePasses (m.core.ten a.target.toNat).queues) = true := by rw [ok]; decide
  unfold queueCreate
  dsimp only
  refine (if_neg test).trans ?_
  split
  · rfl
  · split
    · next one => rw [if_pos one]; rfl
    · next two => rw [if_neg (by omega), if_pos two]; rfl
    · next one two =>
      rw [if_neg one, if_neg two]
      cases e.v.planNamed a.target (a.par 18 2) with
      | none => rfl
      | some p => rfl

end

/-- The deletion of a queue that nothing else deletes (13 R456). -/
theorem queueDelete_absent (absent : lookup? (a.par 8 2) (m.core.ten a.target.toNat).queues = none) : queueDelete a m = refuse 0x203 m := by
  simp [queueDelete, absent]

section
variable {q : Queue} (found : lookup? (a.par 8 2) (m.core.ten a.target.toNat).queues = some q) (lo : 2 ≤ a.par 8 2) (hi : a.par 8 2 ≤ 1023)
  (alone : ∀ b ∈ m.core.accepted, b.started = false ∨ b.opcode ≠ 0x211)
include found lo hi alone

theorem queueDelete_of_found : queueDelete a m =
    if q.kind == .cq && (m.core.ten a.target.toNat).queues.any (fun x => x.2.kind != .cq && x.2.bound == a.par 8 2) then refuse 0x204 m
    else if q.kind == .sq && m.core.sqBusy a then { wait := true, m := m } else { m := m.up (Core.dropQueue a.target (a.par 8 2)) } := by
  have numbered : inRange (a.par 8 2) 2 1022 = true := by
    simp [inRange]
    omega
  have free : m.core.accepted.any (fun b => b.started && b.opcode == 0x211 && b.target == a.target && b.par 8 2 == a.par 8 2) = false := by
    rw [List.any_eq_false]
    intro b mem
    rcases alone b mem with idle | other
    · simp [idle]
    · simp [other]
  simp only [queueDelete, found, numbered, free, Bool.not_true, Bool.false_eq_true, if_false]

end

end

theorem Core.tenant_of_cmd? {c : Core} {op : Nat} {t : TenantId} {sq : Nat} {tag : BitVec 32} {a : Accepted} (next : c.cmd? op t sq tag = some a) :
    a.tenant = t := by
  unfold Core.cmd? at next
  rw [List.span_eq_takeWhile_dropWhile] at next
  split at next
  next before b rest parts =>
    have first := List.find?_some ((List.find?_not_eq_head?_dropWhile _ c.accepted).trans (congrArg (fun e => e.2.head?) parts))
    dsimp only at next
    split at next
    · exact absurd next nofun
    · obtain rfl : b = a := Option.some.inj next
      simp only [Bool.not_not, Bool.and_eq_true, beq_iff_eq] at first
      exact first.1.1.1.1
  next => simp at next

theorem deleteWaiting_of_idle {m : Mach} (idle : ∀ b ∈ m.core.accepted, b.started = false ∨ b.opcode ≠ 0x211) (t : TenantId) (sq : Nat) (tag : BitVec 32) :
    deleteWaiting t sq tag m = runCmd 0x211 t sq tag true [] (fun _ a m => queueDelete a m) m := by
  have none : m.core.accepted.find? (fun a => a.tenant == t && a.sq == sq && a.tag == tag && a.opcode == 0x211 && a.started) = none := by
    rw [List.find?_eq_none]
    intro b mem
    rcases idle b mem with off | other
    · simp [off]
    · simp [other]
  rw [deleteWaiting, none]

theorem lookup?_append_of_some {α β : Type} [BEq α] {k : α} {v : β} {l : List (α × β)} (found : lookup? k l = some v) (rest : List (α × β)) :
    lookup? k (l ++ rest) = some v := by
  induction l with
  | nil => exact absurd found nofun
  | cons e l ih =>
    rw [lookup?] at found
    rw [List.cons_append, lookup?]
    split at found
    · rw [if_pos ‹_›, found]
    · rw [if_neg ‹_›]
      exact ih found

theorem exec_queueDelete_of_idle {s : State} (idle : ∀ b ∈ s.core.accepted, b.started = false ∨ b.opcode ≠ 0x211) (t : TenantId) (sq : Nat) (tag : BitVec 32) :
    exec (.queueDelete t sq tag) s = runM (runCmd 0x211 t sq tag true [] fun _ a m => queueDelete a m) s := by
  change runM (deleteWaiting t sq tag) s = _
  unfold runM
  rw [deleteWaiting_of_idle idle]

/-- A queue added stands after those that were there. -/
theorem Core.open?_addQueue {c : Core} {t cq : Nat} (opened : c.open? t cq = true) (u : TenantId) (n : Nat) (q : Queue) :
    (c.addQueue u n q).open? t cq = true := by
  obtain ⟨p, found, sound⟩ := Core.open?_iff.1 opened
  rw [Core.open?_iff]
  refine ⟨p, ?_, sound⟩
  rw [Core.addQueue]
  by_cases own : t = u.toNat
  · subst own
    rw [Core.ten_modTen_self]
    exact lookup?_append_of_some found _
  · rw [Core.ten_modTen_of_ne c own]
    exact found

/-- A tenant without one of its queues. -/
def Ten.dropQueue (n : Nat) (x : Ten) : Ten := { x with queues := eraseKey n x.queues }

theorem Core.dropQueue_tens (t : TenantId) (n : Nat) (c : Core) : (c.dropQueue t n).tens = (c.modTen t.toNat (Ten.dropQueue n)).tens := rfl

theorem Core.dropQueue_ten (t : TenantId) (n : Nat) (c : Core) : (c.dropQueue t n).ten t.toNat = (c.ten t.toNat).dropQueue n :=
  (Core.ten_congr (c.dropQueue_tens t n) _).trans (Core.ten_modTen_self c t.toNat _)

theorem Core.dropQueue_others (t : TenantId) (n : Nat) {c : Core} {x : Nat} (ne : x ≠ t.toNat) : (c.dropQueue t n).ten x = c.ten x :=
  (Core.ten_congr (c.dropQueue_tens t n) _).trans (Core.ten_modTen_of_ne c ne _)

theorem lookup?_eraseKey_self {α β : Type} [BEq α] [LawfulBEq α] (k : α) (l : List (α × β)) : lookup? k (eraseKey k l) = none := by
  induction l with
  | nil => rfl
  | cons e rest ih =>
    by_cases same : e.1 = k
    · simpa [eraseKey, same] using ih
    · simpa [eraseKey, same, lookup?] using ih

theorem lookup?_eraseKey_of_ne {α β : Type} [BEq α] [LawfulBEq α] {k n : α} (ne : n ≠ k) (l : List (α × β)) : lookup? n (eraseKey k l) = lookup? n l :=
  lookup?_filter_key (p := fun x => !(x == k)) (by simpa using ne) l

theorem Core.open?_dropQueue {c : Core} {t cq n : Nat} {u : TenantId} (opened : c.open? t cq = true) (other : n ≠ cq) :
    (c.dropQueue u n).open? t cq = true := by
  obtain ⟨p, found, sound⟩ := Core.open?_iff.1 opened
  refine Core.open?_iff.2 ⟨p, ?_, sound⟩
  by_cases own : t = u.toNat
  · subst own
    rw [Core.dropQueue_ten]
    exact (lookup?_eraseKey_of_ne (Ne.symm other) _).trans found
  · rw [Core.dropQueue_others u n own]
    exact found

/-- A queue that was deleted is not there when the deletion is answered. -/
theorem Core.lookup?_reply_of_none {a : Accepted} {c : Core} {x n : Nat} (gone : lookup? n (c.ten x).queues = none) (other : n ≠ a.cq) (ge : 2 ≤ n)
    (status : Nat)
    (detail : List Byte) : lookup? n ((c.reply a status detail).ten x).queues = none := by
  have replies := c.repliesTo_reply a status detail
  by_cases own : x = a.tenant.toNat
  · subst own
    obtain ⟨qs, live, ten, rest⟩ := replies.own
    rw [ten]
    exact (rest n other ge).trans gone
  · rw [replies.others x own]
    exact gone

/-- A queue command that is refused, or carried out in full: the next state, and what it leaves of the deleted queue (R460). -/
theorem State.asks.deletes {s : State} {t : TenantId} {sq : Nat} {tag : BitVec 32} {a : Accepted} (asks : s.asks 0x211 t sq tag a)
    (idle : ∀ b ∈ s.core.accepted, b.started = false ∨ b.opcode ≠ 0x211) (lo : 2 ≤ a.par 8 2) (other : a.par 8 2 ≠ a.cq)
    (effect : queueDelete a (startMach s) = { m := (startMach s).up (Core.dropQueue a.target (a.par 8 2)) }) :
    ∃ u, exec (.queueDelete t sq tag) s = .next u ∧ u.mem = s.mem ∧ u.pwr = s.pwr ∧ lookup? (a.par 8 2) (u.core.ten a.target.toNat).queues = none ∧
      (∃ k, Out.cqEntry a.tenant a.cq k (entryBytes a.tag.toNat 0 []) ∈ u.core.out) ∧ ∀ y, y ≠ a.target.toNat → y ≠ t.toNat → u.core.ten y = s.core.ten y := by
  have opened : s.start.open? a.tenant.toNat a.cq = true := asks.queue
  have runs : exec (.queueDelete t sq tag) s = .next { s with core := (s.start.dropQueue a.target (a.par 8 2)).reply a 0 [] } := by
    have next := asks.run (data := []) (eval := fun _ a m => queueDelete a m) effect
    rw [← next]
    exact exec_queueDelete_of_idle idle ..
  refine ⟨_, runs, rfl, rfl, ?_, Core.cqEntry_mem_out_reply (Core.open?_dropQueue opened other) 0 [], fun y notTarget notOwn => ?_⟩
  · refine Core.lookup?_reply_of_none ?_ other lo 0 []
    rw [Core.dropQueue_ten]
    exact lookup?_eraseKey_self ..
  · rw [← Core.tenant_of_cmd? asks.next] at notOwn
    exact ((Core.repliesTo_reply ..).others y notOwn).trans (Core.dropQueue_others _ _ notTarget)

/-- A command that `f` carries out and that leaves `want` where `g` does, but for what is sent. -/
theorem State.asks.makes {s : State} {op : Nat} {t : TenantId} {sq : Nat} {tag : BitVec 32} {a : Accepted} (asks : s.asks op t sq tag a) {data : List Byte}
    {eval : Ev → Accepted → Mach → CmdOut} {f g : Core → Core} {detail : List Byte}
    (effect : eval { v := s.view, now := false, since := some s.core.clk.count.toNat } a (startMach s) = { detail := detail, m := (startMach s).up f })
    (same : { f s.start with out := (g s.core).out } = g s.core) (opened : (g s.core).open? a.tenant.toNat a.cq = true) :
    ∃ u, runM (runCmd op t sq tag true data eval) s = .next u ∧ u.answered (s.upd g) a 0 detail :=
  ⟨_, asks.run effect, State.answered_reply rfl rfl rfl same opened⟩

/-- The next state with another core. -/
def State.withCore (s : State) (c : Core) : Host.Outcome State Fault Refusal := .next { s with core := c }

/-- Settles O49: each row's effect by the lemma of its case, on the core as the command starts. -/
theorem queuesDoorbellsAndFetchWork : Obligations.QueuesDoorbellsAndFetchWork := by
  unfold Obligations.QueuesDoorbellsAndFetchWork
  intro s t qn x goes errs
  have fails : ∀ (i : Instr) (reason : Nat) (q : Queue), exec i s = .next { s with core := s.start.queueError t.toNat qn reason } →
      lookup? qn x.queues = some q → 2 ≤ qn → errs i := by
    intro i reason q runs found ge
    have marked := Core.queueError_errs (c := s.start) found ge reason
    exact ⟨_, _, runs, rfl, rfl, marked.queue, rfl, marked.core, marked.others⟩
  have base : ∀ w : BitVec 64, (BitVec.ofNat 64 (w.toNat / 4096 * 4096)).toNat = w.toNat / 4096 * 4096 := by
    intro w
    rw [BitVec.toNat_ofNat, Nat.mod_eq_of_lt (by omega)]
  have absent : ∀ {a : Accepted}, lookup? (a.par 8 2) (s.core.ten a.target.toNat).queues = none →
      (lookup? (a.par 8 2) ((startMach s).core.ten a.target.toNat).queues).isSome = false := fun new => Option.isSome_eq_false_iff.2
        (Option.isNone_iff_eq_none.2 new)
  refine ⟨fun q rings kind v => ⟨fun lt => ?_, fun ge two => ?_⟩, fun q rings kind v => ⟨fun lt between none => ?_, fun lt between free e first => ?_,
    fun ge two => ?_⟩,
    fun q rings kind tag => ⟨fun room => ?_, fun full => ?_⟩, fun q cq rings kind waits bound free => ⟨fun two => ?_,
      fun b length lt => ⟨fun passes => ⟨?_, fun two => ?_⟩, fun st fails => ?_⟩⟩,
    fun q found kind sound unsignalled vector => ⟨?_, fun two => ?_⟩, fun ready enabled => ⟨fun off sqSize cqSize none => ?_, fun unused => ?_⟩,
    fun sq tag a => ⟨fun asks => ⟨fun bad => ?_, fun ok stands => ?_, fun ok new kind => ?_, fun ok new kind => ?_, fun ok new kind none => ?_,
      fun ok new kind p named onDemand cls => ?_⟩,
      fun asks idle => ⟨fun absent => ?_, fun q found lo hi other => ⟨fun kind bound => ?_, fun may => ?_⟩⟩⟩⟩
  · exact congrArg s.withCore (sqDoorbell_of_lt (c := s.start) rings kind lt)
  · exact fails _ 1 q (congrArg s.withCore (sqDoorbell_of_ge (c := s.start) rings kind ge)) (Core.lookup?_of_ringable rings) two
  · refine congrArg s.withCore ((cqDoorbell_of_between (c := s.start) rings kind lt between).trans (Core.drainFifo_nil ?_ 64))
    rw [Core.modQueue, Core.ten_modTen_self]
    exact none
  · have waits : (((s.start.modQueue t qn fun q => { q with head := v.toNat })).ten t.toNat).fifo.head? = some e := by
      rw [Core.modQueue, Core.ten_modTen_self]
      exact first
    obtain ⟨k, sent⟩ := Core.mem_out_drainFifo waits free 63
    exact ⟨_, k, congrArg s.withCore (cqDoorbell_of_between (c := s.start) rings kind lt between), rfl, rfl, sent⟩
  · exact fails _ 1 q (congrArg s.withCore (cqDoorbell_of_ge (c := s.start) rings kind ge)) (Core.lookup?_of_ringable rings) two
  · exact congrArg s.withCore (rqDoorbell_of_room (c := s.start) rings kind room)
  · exact congrArg s.withCore (rqDoorbell_of_full (c := s.start) rings kind full)
  · exact fails _ 2 q (congrArg s.withCore (fetch_unread (c := s.start) rings kind waits bound free)) (Core.lookup?_of_ringable rings) two
  · have read := fetch_read (c := s.start) rings kind waits bound free length lt true
    rw [show packetTest s.start (fetched t qn q.bound b) = none from passes] at read
    exact congrArg s.withCore read
  · have read := fetch_read (c := s.start) rings kind waits bound free length lt false
    rw [show packetTest s.start (fetched t qn q.bound b) = none from passes] at read
    have moved : lookup? qn ((s.start.takeCmd t qn q.nextHead q.bound).ten t.toNat).queues = some { q with head := q.nextHead } :=
      (Core.lookup?_modQueue_of_ne (Queue.bound_ne (c := s.start) rings kind bound free) _).trans
        (Core.lookup?_modQueue_self (c := s.start) (Core.lookup?_of_ringable rings) _)
    exact ⟨_, _, congrArg s.withCore read, rfl, rfl, rfl, (Core.queueError_errs moved two 3).queue, rfl, rfl⟩
  · have read := fetch_read (c := s.start) rings kind waits bound free length lt true
    rw [show packetTest s.start (fetched t qn q.bound b) = some st from fails] at read
    have opened : s.core.open? t.toNat q.bound = true := by
      refine Core.open?_iff.2 ⟨cq, bound, ?_⟩
      simp only [Queue.hasFree, Bool.and_eq_true, Bool.not_eq_true'] at free
      exact free.1.2
    exact ⟨_, congrArg s.withCore read, State.answered_reply rfl rfl rfl rfl (Core.open?_of_tens rfl (Core.open?_takeCmd opened qn q.nextHead q.bound))⟩
  · exact exec_interruptCoalesceTimer_written found kind sound unsignalled vector
  · exact fails _ 3 q (exec_interruptCoalesceTimer_unwritten found kind sound unsignalled) found two
  · have ten := adminEnable_ten (c := s.start) off sqSize cqSize none
    refine ⟨_, x.adminPair.1, x.adminPair.2, pageRow_of_enabled ready enabled (adminEnable t.toNat), rfl, rfl, ?_, ?_, ?_, rfl, rfl, ?_, rfl, rfl, rfl,
      ?_, rfl, rfl, ?_, rfl, rfl⟩
    · exact congrArg Ten.adminLive ten
    · exact congrArg Ten.adminShadow ten
    · rw [ten]
      rfl
    · exact base x.adminSq
    · rw [ten]
      rfl
    · exact base x.adminCq
  · obtain ⟨live, queues, accepted⟩ := adminDisable_ten (c := s.start) unused
    exact ⟨_, pageRow_of_enabled ready enabled (adminDisable t.toNat), rfl, rfl, live, queues, accepted⟩
  · exact asks.refuses (queueCreate_of_bad bad)
  · exact asks.refuses ((queueCreate_of_ok (a := a) (m := startMach s) ok).trans (if_pos stands))
  · exact asks.makes (f := Core.addQueue a.target (a.par 8 2) a.ringQueue) ((queueCreate_of_ok (a := a) (m := startMach s) ok).trans
      ((if_neg (by rw [absent new]; decide)).trans (if_pos kind))) rfl (Core.open?_addQueue asks.queue ..)
  · exact asks.makes ((queueCreate_of_ok (a := a) (m := startMach s) ok).trans
      ((if_neg (by rw [absent new]; decide)).trans ((if_neg (by omega)).trans (if_pos kind)))) rfl (Core.open?_addQueue asks.queue ..)
  · exact asks.refuses ((queueCreate_of_ok (a := a) (m := startMach s) ok).trans ((if_neg (by rw [absent new]; decide)).trans
      ((if_neg (by omega)).trans ((if_neg (by omega)).trans (if_neg (by rw [none]; decide))))))
  · exact asks.makes (g := fun c => (c.addQueue a.target (a.par 8 2) { kind := .rq, depth := a.par 11 1 + 1, bound := a.par 12 2, rqPlan := a.par 18 2 }).modPlan
        (a.par 18 2) fun p => { p with rq := some (a.par 8 2) })
      ((queueCreate_of_ok (a := a) (m := startMach s) ok).trans ((if_neg (by rw [absent new]; decide)).trans
        ((if_neg (by omega)).trans ((if_neg (by omega)).trans (if_pos (by rw [named]; simp [onDemand, cls])))))) rfl
      (Core.open?_of_tens rfl (Core.open?_addQueue asks.queue ..))
  · obtain ⟨u, next, answered⟩ := asks.refuses (data := []) (eval := fun _ a m => queueDelete a m) (queueDelete_absent (m := startMach s) absent)
    exact ⟨u, (exec_queueDelete_of_idle idle ..).trans next, answered⟩
  · obtain ⟨y, mem, notCq, here⟩ := bound
    have taken : (s.core.ten a.target.toNat).queues.any (fun x => x.2.kind != .cq && x.2.bound == a.par 8 2) = true :=
      List.any_eq_true.2 ⟨y, mem, by rw [Bool.and_eq_true]; exact ⟨bne_iff_ne.2 notCq, beq_iff_eq.2 here⟩⟩
    obtain ⟨u, next, answered⟩ := asks.refuses (data := []) (eval := fun _ a m => queueDelete a m)
      ((queueDelete_of_found (m := startMach s) found lo hi idle).trans (if_pos (by rw [Bool.and_eq_true]; exact ⟨beq_iff_eq.2 kind, taken⟩)))
    exact ⟨u, (exec_queueDelete_of_idle idle ..).trans next, answered⟩
  · refine asks.deletes idle lo other ((queueDelete_of_found (m := startMach s) found lo hi idle).trans ((if_neg ?_).trans (if_neg ?_)))
    · rw [Bool.and_eq_true, beq_iff_eq, List.any_eq_true]
      rintro ⟨isCq, y, mem, bound⟩
      rw [Bool.and_eq_true, bne_iff_ne, beq_iff_eq] at bound
      rcases may with ⟨-, unbound⟩ | rq | ⟨sq, -⟩
      · exact unbound y mem bound.1 bound.2
      · exact absurd (isCq.symm.trans rq) nofun
      · exact absurd (isCq.symm.trans sq) nofun
    · rw [Bool.and_eq_true, beq_iff_eq, Core.sqBusy, List.any_eq_true]
      rintro ⟨isSq, b, mem, busy⟩
      simp only [Bool.and_eq_true, beq_iff_eq, Bool.not_eq_true'] at busy
      obtain ⟨⟨tenant, own⟩, another⟩ := busy
      rcases may with ⟨cq, -⟩ | rq | ⟨-, same⟩
      · exact absurd (isSq.symm.trans cq) nofun
      · exact absurd (isSq.symm.trans rq) nofun
      · exact absurd ((same b mem tenant own).symm.trans another) (by decide)

end Sys2Proof.Machine
end

section
/-!
What leaves the reset controller (14 R476 to R493): every operation of the model but the resets themselves keeps its phase, its sources and its reach.
-/

namespace Sys2Proof.Machine

/-- The reset controller but for what operations outside it set of it: the failures of the module (R493), the tests it still has to pass, and the selector of a
capture. -/
def Rst.course (r : Rst) : Rst := { r with moduleOut := false, outActed := false, faultN := false, partCold := [], mustPass := false, capSel := 0 }

/-! ### Folds -/

section
variable {α β γ : Type}

theorem Core.foldl_rst {f : Core → α → Core} (leaves : ∀ c a, (f c a).rst = c.rst) (l : List α) (c : Core) : (l.foldl f c).rst = c.rst :=
  foldl_leaves Core.rst leaves l c

theorem Mach.foldl_rst {f : Mach → α → Mach} (leaves : ∀ m a, (f m a).core.rst = m.core.rst) (l : List α) (m : Mach) :
    (l.foldl f m).core.rst = m.core.rst := foldl_leaves (fun m => m.core.rst) leaves l m

theorem Mach.foldl_snd_rst {f : β × Mach → α → β × Mach} (leaves : ∀ e a, (f e a).2.core.rst = e.2.core.rst) (l : List α) (e : β × Mach) :
    (l.foldl f e).2.core.rst = e.2.core.rst := foldl_leaves (fun e => e.2.core.rst) leaves l e

theorem Mach.foldl_snd_snd_rst {f : β × γ × Mach → α → β × γ × Mach} (leaves : ∀ e a, (f e a).2.2.core.rst = e.2.2.core.rst) (l : List α)
    (e : β × γ × Mach) : (l.foldl f e).2.2.core.rst = e.2.2.core.rst := foldl_leaves (fun e => e.2.2.core.rst) leaves l e

theorem Core.foldl_course {f : Core → α → Core} (leaves : ∀ c a, (f c a).rst.course = c.rst.course) (l : List α) (c : Core) :
    (l.foldl f c).rst.course = c.rst.course := foldl_leaves (fun c => c.rst.course) leaves l c

theorem Mach.foldl_course {f : Mach → α → Mach} (leaves : ∀ m a, (f m a).core.rst.course = m.core.rst.course) (l : List α) (m : Mach) :
    (l.foldl f m).core.rst.course = m.core.rst.course := foldl_leaves (fun m => m.core.rst.course) leaves l m

end

/-! ### The operations of the model, in its own order -/

@[simp] theorem Mach.write_rst (w : Wr) (m : Mach) : (Mach.write w m).core.rst = m.core.rst := rfl

@[simp] theorem Core.fresh_rst (c : Core) : (Core.fresh c).2.rst = c.rst := rfl

@[simp] theorem Core.unsolicited_rst (t : Nat) (status : Nat) (detail : List Byte) (c : Core) : (Core.unsolicited t status detail c).rst = c.rst := by
  unfold Core.unsolicited
  split <;> simp

@[simp] theorem Core.queueError_rst (t : Nat) (qn : Nat) (reason : Nat) (c : Core) : (Core.queueError t qn reason c).rst = c.rst := by
  unfold Core.queueError
  split <;> simp

@[simp] theorem Core.counterEvent_rst (bit : Nat) (newly : Bool) (blk : Nat) (inst : Nat) (off : Nat) (c : Core) :
    (Core.counterEvent bit newly blk inst off c).rst = c.rst := by
  unfold Core.counterEvent
  split <;> rfl

@[simp] theorem Core.dropLines_rst (lo : Nat) (n : Nat) (c : Core) : (Core.dropLines lo n c).rst = c.rst := rfl

@[simp] theorem Core.wrote_rst (k n : Nat) (c : Core) : (c.wrote k n).rst = c.rst := by
  unfold Core.wrote
  dsimp only
  split
  · exact Core.foldl_rst (fun c _ => Core.bumpGen_rst c _ _) _ c
  · exact Core.foldl_rst (fun c _ => Core.bumpGen_rst c _ _) _ c

@[simp] theorem Mach.store_rst (k : Nat) (bs : List Byte) (m : Mach) : (Mach.store k bs m).core.rst = m.core.rst := by
  simp [Mach.store]

@[simp] theorem Mach.putUnit_rst (k : Nat) (bs : List Byte) (p : Bool) (m : Mach) : (Mach.putUnit k bs p m).core.rst = m.core.rst := by
  unfold Mach.putUnit
  split <;> rfl

@[simp] theorem Mach.putUnits_rst (keys : List Nat) (bs : List Byte) (p : Bool) (m : Mach) : (Mach.putUnits keys bs p m).core.rst = m.core.rst := by
  simp -implicitDefEqProofs [Mach.putUnits, Mach.foldl_rst]

@[simp] theorem Mach.patch_rst (k : Nat) (bs : List Byte) (m : Mach) : (Mach.patch k bs m).core.rst = m.core.rst := by
  unfold Mach.patch
  split <;> rfl

@[simp] theorem Mach.putSm_rst (p : Nat) (a : Nat) (bs : List Byte) (q : Bool) (m : Mach) : (Mach.putSm p a bs q m).core.rst = m.core.rst := by
  simp [Mach.putSm]

@[simp] theorem Ctx.logR_rst (x : Ctx) (r : Rec) (m : Mach) : (Ctx.logR x r m).core.rst = m.core.rst := by
  unfold Ctx.logR
  split <;> simp

@[simp] theorem Ctx.log_rst (x : Ctx) (code : Nat) (cls : Nat) (sev : Nat) (detail : optParam (List Byte) []) (m : Mach) :
    (Ctx.log x code cls sev detail m).core.rst = m.core.rst := by
  simp [Ctx.log]

@[simp] theorem Core.countErr_rst (k : Nat) (unc : Bool) (c : Core) : (Core.countErr k unc c).rst = c.rst := rfl

@[simp] theorem Core.memberFailed_rst (h : Nat) (c : Core) : (Core.memberFailed h c).rst = c.rst := rfl

@[simp] theorem Core.permFail_course (c : Core) : c.permFail.rst.course = c.rst.course := by
  have failed : ∀ hs : List Nat, ∀ d : Core, (hs.foldl (fun c h => c.memberFailed h) d).rst = d.rst := fun hs d =>
    Core.foldl_rst (fun c h => c.memberFailed_rst h) hs d
  unfold Core.permFail
  dsimp only
  split
  · rw [failed]
  · simp [Rst.course, failed]

@[simp] theorem Core.vacatePart_rst (p : Nat) (c : Core) : (Core.vacatePart p c).rst = c.rst := rfl

@[simp] theorem Core.partOut_rst (p : Nat) (c : Core) : (Core.partOut p c).rst = c.rst := by
  simp -implicitDefEqProofs [Core.partOut, Core.foldl_rst]

@[simp] theorem Core.countUnit_rst (p : Nat) (block : Nat) (inst : Nat) (c : Core) : (Core.countUnit p block inst c).rst = c.rst := by
  simp -implicitDefEqProofs [Core.countUnit, apply_ite Core.rst]

@[simp] theorem Core.retireChannel_course (p : Nat) (ch : Nat) (c : Core) : (Core.retireChannel p ch c).rst.course = c.rst.course := by
  simp -implicitDefEqProofs [Core.retireChannel, apply_ite Core.rst, apply_ite Rst.course]

@[simp] theorem Core.softRepair_rst (k : Nat) (c : Core) : (Core.softRepair k c).rst = c.rst := rfl

@[simp] theorem Core.repairRow_course (k : Nat) (noSpare : Bool) (c : Core) : (Core.repairRow k noSpare c).rst.course = c.rst.course := by
  simp -implicitDefEqProofs [Core.repairRow, apply_ite Core.rst, apply_ite Rst.course]

@[simp] theorem Core.repairLane_course (k : Nat) (noSpare : Bool) (c : Core) : (Core.repairLane k noSpare c).rst.course = c.rst.course := by
  unfold Core.repairLane
  dsimp only
  split <;> simp

@[simp] theorem Core.repairHbm_course (e : MemErr) (failing : Bool) (c : Core) : (Core.repairHbm e failing c).rst.course = c.rst.course := by
  simp -implicitDefEqProofs [Core.repairHbm, apply_ite Core.rst, apply_ite Rst.course]

@[simp] theorem Core.beatRepairs_rst (c : Core) : c.beatRepairs.rst = c.rst := by
  unfold Core.beatRepairs
  refine Core.foldl_rst (fun c p => ?_) _ c
  dsimp only
  split <;> simp

@[simp] theorem Core.retireBank_course (p : Nat) (bank : Nat) (c : Core) : (Core.retireBank p bank c).rst.course = c.rst.course := by
  simp -implicitDefEqProofs [Core.retireBank, apply_ite Core.rst, apply_ite Rst.course]

@[simp] theorem Core.retireGranule_rst (p : Nat) (g : Nat) (c : Core) : (Core.retireGranule p g c).rst = c.rst := by
  simp -implicitDefEqProofs [Core.retireGranule, apply_ite Core.rst]

@[simp] theorem Core.corrected_course (e : MemErr) (r : Rec) (c : Core) : (Core.corrected e r c).rst.course = c.rst.course := by
  simp -implicitDefEqProofs [Core.corrected, apply_ite Core.rst, apply_ite Rst.course]

@[simp] theorem Core.fallback_rst (h : Nat) (c : Core) : (Core.fallback h c).rst = c.rst := by
  unfold Core.fallback
  repeat' split
  all_goals simp

@[simp] theorem Mach.mirrorRepair_rst (e : MemErr) (m : Mach) : (Mach.mirrorRepair e m).core.rst = m.core.rst := by
  unfold Mach.mirrorRepair
  dsimp only
  repeat' split
  all_goals simp

@[simp] theorem Mach.uncorrectable_course (e : MemErr) (r : Rec) (m : Mach) : (Mach.uncorrectable e r m).core.rst.course = m.core.rst.course := by
  have logged : (((m.write (.poison e.key 1 true)).up (fun c => (c.countErr (e.key * 64) true).logRec r)).mirrorRepair e).core.rst.course =
    m.core.rst.course := by
    simp
  unfold Mach.uncorrectable
  dsimp only
  rw [Mach.up_core]
  generalize ((m.write (.poison e.key 1 true)).up (fun c => (c.countErr (e.key * 64) true).logRec r)).mirrorRepair e = m1 at logged ⊢
  rw [← logged]
  split
  · simp
  · split <;> split <;> simp
  · split <;> split <;> simp

@[simp] theorem Ctx.meet_course (x : Ctx) (found : List MemErr) (m : Mach) : (Ctx.meet x found m).core.rst.course = m.core.rst.course := by
  simp -implicitDefEqProofs [Ctx.meet, Mach.foldl_course, apply_ite Mach.core, apply_ite Core.rst, apply_ite Rst.course]

@[simp] theorem Ctx.fences_rst (x : Ctx) (reads : List (Nat × Nat)) (m : Mach) : (Ctx.fences x reads m).2.core.rst = m.core.rst := by
  simp -implicitDefEqProofs [Ctx.fences, Mach.foldl_rst]

@[simp] theorem Ctx.detect_rst (x : Ctx) (cycle : Nat) (m : Mach) : (Ctx.detect x cycle m).core.rst = m.core.rst := rfl

@[simp] theorem Ctx.poisonGuarded_rst (x : Ctx) (m : Mach) : (Ctx.poisonGuarded x m).core.rst = m.core.rst := by
  unfold Ctx.poisonGuarded
  dsimp only
  repeat' split
  all_goals simp

@[simp] theorem Ctx.guard_rst (x : Ctx) (space : Nat) (lp : Nat) (a : Nat) (n : Nat) (poison : Bool) (m : Mach) :
    (Ctx.guard x space lp a n poison m).core.rst = m.core.rst := by
  unfold Ctx.guard
  repeat' split
  all_goals simp

@[simp] theorem Ctx.tenantRec_rst (x : Ctx) (m : Mach) : (x.tenantRec m).core.rst = m.core.rst := by
  unfold Ctx.tenantRec
  dsimp only
  split
  · simp
  · rw [Mach.up_core]
    split
    · split <;> simp
    · simp

@[simp] theorem Ctx.pends_rst (x : Ctx) (keys : List Nat) (data : List Byte) (m : Mach) : (Ctx.pends x keys data m).core.rst = m.core.rst := rfl

@[simp] theorem Ctx.tileOutcome_rst (x : Ctx) (k : TileChk) (unitBad : Bool) (keys : List Nat) (data : List Byte) (m : Mach) :
    (Ctx.tileOutcome x k unitBad keys data m).core.rst = m.core.rst := by
  simp -implicitDefEqProofs [Ctx.tileOutcome, apply_ite Mach.core, apply_ite Core.rst]

@[simp] theorem Ctx.readTileAt_rst (x : Ctx) (f : Fmt) (orient : Option Bool) (keys : List Nat) (m : Mach) :
    (Ctx.readTileAt x f orient keys m).2.core.rst = m.core.rst := by
  simp [Ctx.readTileAt]

@[simp] theorem Ctx.readTile_rst (x : Ctx) (f : Fmt) (orient : Option Bool) (p : Nat) (a : Nat) (m : Mach) :
    (Ctx.readTile x f orient p a m).2.core.rst = m.core.rst := by
  simp [Ctx.readTile]

@[simp] theorem Ctx.readTiles_rst (x : Ctx) (f : Fmt) (orient : Option Bool) (p : Nat) (as : List Nat) (m : Mach) :
    (x.readTiles f orient p as m).2.core.rst = m.core.rst := by
  induction as generalizing m with
  | nil => rfl
  | cons a as ih => exact (ih (x.readTile f orient p a m).2).trans (x.readTile_rst f orient p a m)

@[simp] theorem Ctx.putTile_rst (x : Ctx) (p : Nat) (a : Nat) (data : List Byte) (t : Trailer) (m : Mach) :
    (Ctx.putTile x p a data t m).core.rst = m.core.rst := by
  simp [Ctx.putTile]

@[simp] theorem Ctx.writeTile_rst (x : Ctx) (f : Fmt) (orient : Bool) (rowsM1 : Nat) (colsM1 : Nat) (poison : Bool) (checked : Bool) (unsealed : Bool)
    (anchor : Nat) (blocks : List Block) (p : Nat) (a : Nat) (m : Mach) :
    (Ctx.writeTile x f orient rowsM1 colsM1 poison checked unsealed anchor blocks p a m).core.rst = m.core.rst := by
  simp [Ctx.writeTile]

@[simp] theorem Ctx.putFlat_rst (x : Ctx) (p : Nat) (a : Nat) (bs : List Byte) (q : Bool) (m : Mach) : (Ctx.putFlat x p a bs q m).core.rst = m.core.rst := by
  simp [Ctx.putFlat]

@[simp] theorem Ctx.readFlat_rst (x : Ctx) (p : Nat) (a : Nat) (n : Nat) (m : Mach) : (Ctx.readFlat x p a n m).2.core.rst = m.core.rst := by
  unfold Ctx.readFlat
  dsimp only
  split <;> simp

@[simp] theorem Core.pushToken_rst (p : Nat) (ch : Nat) (t : Token) (c : Core) : (Core.pushToken p ch t c).2.rst = c.rst := by
  unfold Core.pushToken
  repeat' split
  all_goals simp

@[simp] theorem Ctx.late_rst (x : Ctx) (code : Nat) (cls : Nat) (sev : Nat) (block : Nat) (inst : Nat) (detail : List Byte) (m : Mach) :
    (Ctx.late x code cls sev block inst detail m).core.rst = m.core.rst := by
  simp [Ctx.late]

@[simp] theorem Ctx.postToken_rst (x : Ctx) (p : Nat) (ch : Nat) (t : Token) (m : Mach) : (Ctx.postToken x p ch t m).core.rst = m.core.rst := by
  unfold Ctx.postToken
  dsimp only
  split <;> simp

@[simp] theorem Ctx.postRange_rst (x : Ctx) (p : Nat) (ch : Nat) (a : Nat) (n : Nat) (poison : Bool) (m : Mach) :
    (Ctx.postRange x p ch a n poison m).core.rst = m.core.rst := by
  simp [Ctx.postRange]

@[simp] theorem Core.addRec_rst (a : Job) (lp : Nat) (body : HBody) (c : Core) : (Core.addRec a lp body c).rst = c.rst := by
  unfold Core.addRec
  split <;> rfl

@[simp] theorem Core.freeStep_rst (h : Nat) (s : StepNo) (c : Core) : (Core.freeStep h s c).rst = c.rst := rfl

@[simp] theorem Core.freeRolled_rst (h : Nat) (l : StepNo) (c : Core) : (Core.freeRolled h l c).rst = c.rst := rfl

@[simp] theorem Core.freePlan_rst (h : Nat) (c : Core) : (Core.freePlan h c).rst = c.rst := rfl

@[simp] theorem Core.uncleanTenant_rst (t : TenantId) (c : Core) : (Core.uncleanTenant t c).rst = c.rst := rfl

@[simp] theorem Core.outbound_rst (h : Nat) (lp : Nat) (kind : Nat) (id : Nat) (payload : List Byte) (c : Core) :
    (Core.outbound h lp kind id payload c).2.rst = c.rst := by
  unfold Core.outbound
  dsimp only
  repeat' split
  all_goals simp

@[simp] theorem Mach.putMarked_rst (keys : List Nat) (bytes : List Byte) (bad : List Bool) (m : Mach) :
    (Mach.putMarked keys bytes bad m).core.rst = m.core.rst := by
  simp -implicitDefEqProofs [Mach.putMarked, Mach.foldl_rst]

@[simp] theorem Core.putDesc_rst (p : Nat) (ring : Nat) (slot : Nat) (v : BitVec 256) (c : Core) : (Core.putDesc p ring slot v c).rst = c.rst := rfl

@[simp] theorem Mach.giveBack_rst (h : Nat) (r : HRec) (m : Mach) : (Mach.giveBack h r m).core.rst = m.core.rst := by
  unfold Mach.giveBack
  repeat' split
  all_goals simp

@[simp] theorem Mach.giveBackTo_rst (h : Nat) (lo : Nat) (hi : Nat) (m : Mach) : (Mach.giveBackTo h lo hi m).core.rst = m.core.rst := by
  unfold Mach.giveBackTo
  repeat' split
  all_goals simp -implicitDefEqProofs [Mach.foldl_rst]

@[simp] theorem Mach.giveInputs_rst (h : Nat) (m : Mach) : (Mach.giveInputs h m).core.rst = m.core.rst := by
  unfold Mach.giveInputs
  split <;> simp -implicitDefEqProofs [Mach.foldl_rst]

@[simp] theorem Core.modPort_rst (i : Nat) (f : Port → Port) (c : Core) : (Core.modPort i f c).rst = c.rst := rfl

@[simp] theorem Core.wire_rst (i : Nat) (f : Frame) (c : Core) : (Core.wire i f c).rst = c.rst := by
  unfold Core.wire
  dsimp only
  repeat' split
  all_goals simp

@[simp] theorem Core.linkCtl_rst (i : Nat) (nak : Option U16) (flags : Nat) (c : Core) : (Core.linkCtl i nak flags c).rst = c.rst := by
  simp [Core.linkCtl]

@[simp] theorem Core.sendOne_rst (i : Nat) (k : Nat) (f : Frame) (c : Core) : (Core.sendOne i k f c).rst = c.rst := by
  simp [Core.sendOne]

@[simp] theorem Core.pumpN_rst (n i : Nat) (c : Core) : (Core.pumpN n i c).rst = c.rst := by
  induction n generalizing c with
  | zero => rfl
  | succ n ih =>
    unfold Core.pumpN
    dsimp only
    split
    · split
      · rw [ih]
        simp
      · rfl
    · rfl

@[simp] theorem Core.pump_rst (i : Nat) (c : Core) : (Core.pump i c).rst = c.rst := by
  simp [Core.pump]

@[simp] theorem Core.unreachable_rst (f : Frame) (c : Core) : (Core.unreachable f c).rst = c.rst := by
  simp -implicitDefEqProofs [Core.unreachable, apply_ite Core.rst]

@[simp] theorem Core.enqueue_rst (atSource : Bool) (f : Frame) (c : Core) : (Core.enqueue atSource f c).rst = c.rst := by
  unfold Core.enqueue
  repeat' split
  all_goals simp

@[simp] theorem Core.sendFrame_rst (f : Frame) (c : Core) : (Core.sendFrame f c).rst = c.rst := by
  simp -implicitDefEqProofs [Core.sendFrame, Core.foldl_rst]

@[simp] theorem Core.sendOn_rst (i : Nat) (f : Frame) (c : Core) : (Core.sendOn i f c).rst = c.rst := by
  simp [Core.sendOn]

@[simp] theorem Core.acked_rst (i : Nat) (ack : U16) (c : Core) : (Core.acked i ack c).rst = c.rst := rfl

@[simp] theorem Core.resendFrom_rst (i : Nat) (n : U16) (c : Core) : (Core.resendFrom i n c).rst = c.rst := by
  simp -implicitDefEqProofs [Core.resendFrom, Core.foldl_rst]

@[simp] theorem Core.resendAll_rst (i : Nat) (c : Core) : (Core.resendAll i c).rst = c.rst := by
  simp -implicitDefEqProofs [Core.resendAll, Core.foldl_rst]

@[simp] theorem Core.tellPorts_rst (c : Core) : (Core.tellPorts c).rst = c.rst := rfl

@[simp] theorem Core.failPort_rst (i : Nat) (c : Core) : (Core.failPort i c).rst = c.rst := by
  simp -implicitDefEqProofs [Core.failPort, Core.foldl_rst]

/-- A frame that arrives changes of the reset controller what its delivery does. -/
theorem Mach.arrive_course {deliver : Frame → Mach → Mach} (leaves : ∀ f m, (deliver f m).core.rst.course = m.core.rst.course) (i : Nat) (g : Frame)
    (m : Mach) : (m.arrive i g deliver).core.rst.course = m.core.rst.course := by
  have pumps : ∀ c : Core, ((List.range 16).foldl (fun c j => c.pump j) c).rst = c.rst := fun c => Core.foldl_rst (fun c j => c.pump_rst j) _ c
  have settles : ∀ c : Core, (Core.pump i (if 64 ≤ (c.port i).unacked then c.linkCtl i none 0 else c)).rst = c.rst := fun c => by
    split <;> simp
  unfold Mach.arrive
  dsimp only
  split
  · rfl
  · split
    · simp [leaves]
    · split
      · rw [Mach.up_core, settles]
        split
        · simp
        · split
          · simp [leaves]
          · simp [pumps]
      · split <;> simp

@[simp] theorem Ctx.sealHold_rst (x : Ctx) (m : Mach) : (Ctx.sealHold x m).core.rst = m.core.rst := by
  unfold Ctx.sealHold
  split <;> simp

@[simp] theorem Ctx.hold_rst (x : Ctx) (cause : HoldCause) (i : Instr) (m : Mach) : (Ctx.hold x cause i m).core.rst = m.core.rst := rfl

@[simp] theorem Ctx.consume_rst (x : Ctx) (ring : Nat) (slot : Nat) (m : Mach) : (Ctx.consume x ring slot m).core.rst = m.core.rst := rfl

@[simp] theorem Ctx.finish_rst (x : Ctx) (h : Hdr) (endCycle : Nat) (m : Mach) : (Ctx.finish x h endCycle m).core.rst = m.core.rst := rfl

@[simp] theorem Core.popToken_rst (p : Nat) (ch : Nat) (c : Core) : (Core.popToken p ch c).rst = c.rst := rfl

@[simp] theorem Core.flagEmpty_rst (p : Nat) (ch : Nat) (c : Core) : (Core.flagEmpty p ch c).rst = c.rst := rfl

theorem ite_course {P : Prop} [Decidable P] {a b : Mach} {r : Rst} (ha : a.core.rst.course = r) (hb : b.core.rst.course = r) :
    (if P then a else b).core.rst.course = r := by
  split
  · exact ha
  · exact hb

/-- An instruction on a station leaves what its body leaves. -/
@[simp] theorem Ctx.runStn_course {x : Ctx} {body : Ctx → Bool → Mach → Bool × Mach} (leaves : ∀ b m, (body x b m).2.core.rst = m.core.rst) (st : Stn) (h : Hdr)
    (sp : StnSpec) (tok : Option Token) (m : Mach) : (x.runStn st h sp tok body m).core.rst.course = m.core.rst.course := by
  have popped : (if h.wait then m.up (Core.popToken x.part h.inCh.toNat) else m).core.rst = m.core.rst := by
    split <;> simp
  unfold Ctx.runStn
  extract_lets m0 m1
  have met : m1.core.rst.course = m.core.rst.course := by simp [m1, m0, popped]
  clear_value m1
  rw [← met]
  dsimp only
  rw [Ctx.finish_rst]
  split <;> simp <;> split <;> simp [leaves]

/-- An instruction that is issued leaves what its body leaves, whether it starts, waits or is refused. -/
@[simp] theorem issueWith_course {F : Type} {body : F → Ctx → Bool → Mach → Bool × Mach} (leaves : ∀ g x b m, (body g x b m).2.core.rst = m.core.rst)
    (granted : Bool)
    (i : Instr) (st : Stn) (h : Hdr) (f : F) (opc : Nat) (sub : F → Nat → Option F) (spec : Mach → Ctx → F → StnSpec) (m : Mach) :
    (issueWith granted i st h f opc sub spec body m).core.rst.course = m.core.rst.course := by
  unfold issueWith
  split
  · rfl
  rename_i x _
  extract_lets m0 sp0 a tok
  have given : m0.core.rst = m.core.rst := by simp [m0]
  clear_value m0
  rw [← given]
  refine ite_course (by simp) (ite_course (by simp) (ite_course (by simp) ?_))
  obtain ⟨ring, slot, d⟩ := x.descriptor m0.core
  dsimp -zeta only
  refine ite_course (by simp) ?_
  extract_lets f1 sp1 m1 m2 m3 m4
  refine ite_course (by simp [m3, m2, m1, apply_ite Mach.core, apply_ite Core.rst]) (ite_course (by simp) (ite_course (by simp) (ite_course (by simp) ?_)))
  have consumed : m4.core.rst = m0.core.rst := by simp [m4, apply_ite Mach.core, apply_ite Core.rst]
  clear_value m4 sp1 f1
  cases f1 with
  | none => rw [consumed]
  | some g => rw [Ctx.runStn_course (leaves _ _), consumed]

@[simp] theorem nopRun_course (granted : Bool) (st : Stn) (h : Hdr) (m : Mach) : (nopRun granted st h m).core.rst.course = m.core.rst.course := by
  simp [nopRun]

@[simp] theorem postRun_course (granted : Bool) (st : Stn) (h : Hdr) (f : RangeF) (m : Mach) :
    (postRun granted st h f m).core.rst.course = m.core.rst.course := by
  simp [postRun]

@[simp] theorem releaseBody_rst (f : RangeF) (x : Ctx) (b : Bool) (m : Mach) : (releaseBody f x b m).2.core.rst = m.core.rst := rfl

@[simp] theorem releaseRun_course (granted : Bool) (st : Stn) (h : Hdr) (f : RangeF) (m : Mach) :
    (releaseRun granted st h f m).core.rst.course = m.core.rst.course := by
  exact issueWith_course releaseBody_rst ..

@[simp] theorem Core.countHold_rst (p : Nat) (cycles : Nat) (c : Core) : (Core.countHold p cycles c).rst = c.rst := by
  simp [Core.countHold]

@[simp] theorem Core.endHold_rst (h : Nat) (cycles : Nat) (c : Core) : (Core.endHold h cycles c).rst = c.rst := by
  unfold Core.endHold
  split <;> simp -implicitDefEqProofs [Core.foldl_rst]

@[simp] theorem postDeferred_rst (plan : Nat) (lsid : Lsid) (cycles : Nat) (c : Core) : (postDeferred plan lsid cycles c).rst = c.rst := by
  unfold postDeferred
  dsimp only
  repeat' split
  all_goals simp

@[simp] theorem lateGather_rst (plan : Nat) (lsid : Lsid) (winEnd : Cycle) (m : Mach) : (lateGather plan lsid winEnd m).core.rst = m.core.rst := by
  unfold lateGather
  repeat' split
  all_goals simp

@[simp] theorem descriptorWrite_rst (plan : Nat) (part : Nat) (core : Nat) (ring : Nat) (slot : Nat) (v : BitVec 256) (c : Core) :
    (descriptorWrite plan part core ring slot v c).rst = c.rst := by
  unfold descriptorWrite
  dsimp only
  repeat' split
  all_goals simp

@[simp] theorem corePost_rst (plan : Nat) (part : Nat) (lsid : Lsid) (ch : Chan) (t : Token) (c : Core) : (corePost plan part lsid ch t c).rst = c.rst := by
  unfold corePost
  dsimp only
  repeat' split
  all_goals simp

@[simp] theorem Core.retireArray_course (p : Nat) (a : Nat) (c : Core) : (Core.retireArray p a c).rst.course = c.rst.course := by
  simp -implicitDefEqProofs [Core.retireArray, apply_ite Core.rst, apply_ite Rst.course]

@[simp] theorem Core.countRows_course (p : Nat) (a : Nat) (rows : List Nat) (c : Core) : (Core.countRows p a rows c).rst.course = c.rst.course := by
  unfold Core.countRows
  dsimp only
  split <;> simp

@[simp] theorem Mach.uncheck_rst (f : Fmt) (p : Nat) (a : Nat) (m : Mach) : (Mach.uncheck f p a m).core.rst = m.core.rst := by
  simp [Mach.uncheck]

@[simp] theorem residueMismatch_course (plan : Nat) (lsid : Lsid) (rows : List Nat) (col : Nat) (mask : Nat) (fmt : BitVec 4) (tiles : List SmAddr)
    (cycle : Cycle) (m : Mach) : (residueMismatch plan lsid rows col mask fmt tiles cycle m).core.rst.course = m.core.rst.course := by
  unfold residueMismatch
  dsimp only
  repeat' split
  all_goals simp -implicitDefEqProofs [Mach.foldl_course]

@[simp] theorem Core.coreFault_rst (p core : Nat) (c : Core) : (c.coreFault p core).rst = c.rst := by
  refine Core.foldl_rst (fun c h => ?_) _ c
  split <;> simp

@[simp] theorem coreFailure_course (p : Nat) (core : Nat) (c : Core) : (coreFailure p core c).rst.course = c.rst.course := by
  simp -implicitDefEqProofs [coreFailure, apply_ite Core.rst, apply_ite Rst.course]

@[simp] theorem Mach.putCaptured_rst (cs : List Captured) (m : Mach) : (Mach.putCaptured cs m).core.rst = m.core.rst := by
  simp -implicitDefEqProofs [Mach.putCaptured, Mach.foldl_rst]

@[simp] theorem Mach.capture_rst (stale : Bool) (waiting : List Captured) (src : Nat) (dst : Nat) (m : Mach) :
    (Mach.capture stale waiting src dst m).2.core.rst = m.core.rst := by
  unfold Mach.capture
  dsimp only
  repeat' split
  all_goals simp

@[simp] theorem copyGroups_rst (lat late : Nat) (stale : Bool) (gs : List (List (Nat × Nat))) (waiting : List (List Captured)) (m : Mach) :
    (copyGroups lat late stale gs waiting m).core.rst = m.core.rst := by
  induction gs generalizing waiting m with
  | nil => exact Mach.putCaptured_rst _ m
  | cons g rest ih =>
    refine (ih _ _).trans ((Mach.foldl_snd_rst (fun acc p => ?_) g _).trans (Mach.putCaptured_rst _ m))
    exact Mach.capture_rst ..

@[simp] theorem copyUnits_rst (lat : Nat) (late : Nat) (stale : Bool) (src : List Nat) (dst : List Nat) (m : Mach) :
    (copyUnits lat late stale src dst m).core.rst = m.core.rst := by
  simp [copyUnits]

@[simp] theorem Ctx.transposeTile_rst (x : Ctx) (f : Fmt) (stale : Bool) (bytes : List Byte) (unitBad : Bool) (m : Mach) :
    (Ctx.transposeTile x f stale bytes unitBad m).2.core.rst = m.core.rst := by
  unfold Ctx.transposeTile
  dsimp only
  repeat' split
  all_goals simp

@[simp] theorem Ctx.transposeRun_rst (x : Ctx) (f : Fmt) (stale : Bool) (src : List Nat) (m : Mach) :
    (Ctx.transposeRun x f stale src m).2.core.rst = m.core.rst :=
  Mach.foldl_snd_rst (β := List (List Byte × Bool)) (fun acc ks => x.transposeTile_rst f stale (acc.2.units ks) (acc.2.anyBad ks) acc.2) _ ([], m)

@[simp] theorem Ctx.moved_rst (x : Ctx) (dst : Nat) (keys : List Nat) (m : Mach) : (Ctx.moved x dst keys m).core.rst = m.core.rst := by
  unfold Ctx.moved
  dsimp only
  split <;> simp

@[simp] theorem Ctx.bindFence_rst (x : Ctx) (f : XferF) (src : List Nat) (dst : List Nat) (g0 : BitVec 48) (m : Mach) :
    (Ctx.bindFence x f src dst g0 m).core.rst = m.core.rst := rfl

@[simp] theorem Ctx.rpostTo_rst (x : Ctx) (f : XferF) (bad : Bool) (m : Mach) : (Ctx.rpostTo x f bad m).core.rst = m.core.rst := by
  simp [Ctx.rpostTo]

@[simp] theorem Ctx.yields_rst (x : Ctx) (cycle : Nat) (keys : List Nat) (old : Mach) (m : Mach) : (Ctx.yields x cycle keys old m).core.rst = m.core.rst := by
  simp -implicitDefEqProofs [Ctx.yields, Mach.foldl_rst, apply_ite Mach.core, apply_ite Core.rst]

@[simp] theorem Ctx.xferLocal_rst (x : Ctx) (f : XferF) (stale : Bool) (m : Mach) : (Ctx.xferLocal x f stale m).core.rst = m.core.rst := by
  simp -implicitDefEqProofs [Ctx.xferLocal, Mach.foldl_rst, apply_ite Mach.core, apply_ite Core.rst]

@[simp] theorem Core.sendFrames_rst (fs : List Frame) (c : Core) : (Core.sendFrames fs c).rst = c.rst := by
  simp -implicitDefEqProofs [Core.sendFrames, Core.foldl_rst]

@[simp] theorem Ctx.xferRemote_rst (x : Ctx) (f : XferF) (stale : Bool) (m : Mach) : (Ctx.xferRemote x f stale m).core.rst = m.core.rst := by
  unfold Ctx.xferRemote
  dsimp only
  split
  · rfl
  · simp [apply_ite Mach.core, apply_ite Core.rst, apply_ite Prod.snd]

@[simp] theorem xferBody_rst (f : XferF) (x : Ctx) (stale : Bool) (m : Mach) : (xferBody f x stale m).2.core.rst = m.core.rst := by
  unfold xferBody
  split <;> simp

@[simp] theorem xferRun_course (granted : Bool) (st : Stn) (h : Hdr) (f : XferF) (m : Mach) :
    (xferRun granted st h f m).core.rst.course = m.core.rst.course := by
  simp [xferRun]

@[simp] theorem Core.touchLine_rst (t : TenantId) (quad : Nat) (line : Nat) (c : Core) : (Core.touchLine t quad line c).rst = c.rst := by
  unfold Core.touchLine
  dsimp only
  split <;> simp

@[simp] theorem Ctx.gatherUnit_rst (x : Ctx) (space : Nat) (off : Nat) (m : Mach) : (Ctx.gatherUnit x space off m).2.core.rst = m.core.rst := by
  unfold Ctx.gatherUnit
  repeat' split
  all_goals simp

@[simp] theorem Ctx.gatherUnits_rst (x : Ctx) (space off n : Nat) (m : Mach) : (x.gatherUnits space off n m).2.core.rst = m.core.rst := by
  induction n generalizing off m with
  | zero => rfl
  | succ n ih => exact (ih (off + 64) (x.gatherUnit space off m).2).trans (x.gatherUnit_rst space off m)

@[simp] theorem Ctx.gatherRows_rst (x : Ctx) (f : GatherF) (stale : Bool) (is : List Nat) (n : Nat) (acc : Nat × Bool × Mach) :
    (x.gatherRows f stale is n acc).2.2.core.rst = acc.2.2.core.rst := by
  induction is generalizing n acc with
  | nil => rfl
  | cons i is ih =>
    unfold Ctx.gatherRows
    dsimp only
    split
    · rw [ih]
      simp
    · rw [ih]
      simp

@[simp] theorem gatherBody_rst (tmpl : GatherF) (f : GatherF) (x : Ctx) (stale : Bool) (m : Mach) : (gatherBody tmpl f x stale m).2.core.rst = m.core.rst := by
  simp -implicitDefEqProofs [gatherBody]

@[simp] theorem gatherRun_course (granted : Bool) (st : Stn) (h : Hdr) (f : GatherF) (m : Mach) :
    (gatherRun granted st h f m).core.rst.course = m.core.rst.course := by
  simp [gatherRun]

@[simp] theorem Core.modLd_rst (l : Nat) (f : LinkDie → LinkDie) (c : Core) : (Core.modLd l f c).rst = c.rst := rfl

@[simp] theorem Core.putKite_rst (o : KiteOp) (c : Core) : (Core.putKite o c).rst = c.rst := rfl

@[simp] theorem Core.sendKite_rst (port : Nat) (t : TenantId) (o : KiteOp) (down : Bool) (payload : List Byte) (c : Core) :
    (Core.sendKite port t o down payload c).rst = c.rst := by
  simp [Core.sendKite]

@[simp] theorem Core.kiteResult_rst (p : Plan) (o : KiteOp) (res : List Byte) (c : Core) : (Core.kiteResult p o res c).rst = c.rst := by
  simp -implicitDefEqProofs [Core.kiteResult, Core.foldl_rst]

@[simp] theorem Core.kiteAdvance_rst (p : Plan) (o : KiteOp) (c : Core) : (Core.kiteAdvance p o c).rst = c.rst := by
  unfold Core.kiteAdvance
  dsimp only
  repeat' split
  all_goals simp

@[simp] theorem Core.kiteBump_rst (plan : Nat) (g : Nat) (n : Nat) (c : Core) : (Core.kiteBump plan g n c).rst = c.rst := rfl

@[simp] theorem Core.kiteRestart_rst (plan : Nat) (c : Core) : (Core.kiteRestart plan c).rst = c.rst := rfl

@[simp] theorem Core.kiteSubmit_rst (o : KiteOp) (own : List Byte) (c : Core) : (Core.kiteSubmit o own c).rst = c.rst := by
  unfold Core.kiteSubmit
  dsimp only
  repeat' split
  all_goals simp

@[simp] theorem Core.kiteDequeue_rst (plan : Nat) (g : BitVec 8) (c : Core) : (Core.kiteDequeue plan g c).rst = c.rst := by
  unfold Core.kiteDequeue
  split <;> simp

@[simp] theorem Core.countOps_rst (l : Nat) (n : Nat) (c : Core) : (Core.countOps l n c).rst = c.rst := by
  simp [Core.countOps]

@[simp] theorem Core.floodAbort_rst (p : Plan) (k : Cid) (payload : List Byte) (ep : BitVec 8) (but : Option Nat) (c : Core) :
    (Core.floodAbort p k payload ep but c).rst = c.rst := by
  simp -implicitDefEqProofs [Core.floodAbort, Core.foldl_rst, apply_ite Core.rst]

@[simp] theorem Core.actAbort_rst (p : Plan) (k : Cid) (cause : Nat) (c : Core) : (Core.actAbort p k cause c).rst = c.rst := by
  unfold Core.actAbort
  split <;> simp

@[simp] theorem Core.issueAbort_rst (plan : Nat) (k : Cid) (cause : Nat) (c : Core) : (Core.issueAbort plan k cause c).rst = c.rst := by
  unfold Core.issueAbort
  repeat' split
  all_goals simp

@[simp] theorem Core.takeAbort_rst (p : Plan) (port : Nat) (f : Frame) (c : Core) : (Core.takeAbort p port f c).rst = c.rst := by
  unfold Core.takeAbort
  dsimp only
  repeat' split
  all_goals simp

@[simp] theorem Core.abortLive_rst (plan : Nat) (sel : Nat → Bool) (cause : Nat) (c : Core) : (Core.abortLive plan sel cause c).rst = c.rst := by
  simp -implicitDefEqProofs [Core.abortLive, Core.foldl_rst]

@[simp] theorem Core.kiteFail_rst (p : Plan) (o : KiteOp) (code : Nat) (c : Core) : (Core.kiteFail p o code c).rst = c.rst := by
  unfold Core.kiteFail
  repeat' split
  all_goals simp

@[simp] theorem takeKite_rst (port : Nat) (f : Frame) (c : Core) : (takeKite port f c).rst = c.rst := by
  unfold takeKite
  dsimp only
  repeat' split
  all_goals simp

@[simp] theorem partnerSilent_rst (plan : Nat) (lsid : Lsid) (group : Nat) (c : Core) : (partnerSilent plan lsid group c).rst = c.rst := by
  unfold partnerSilent
  split <;> simp

@[simp] theorem takeMail_rst (plan : Nat) (part : Nat) (core : Nat) (index : Nat) (addr : SmAddr) (m : Mach) :
    (takeMail plan part core index addr m).core.rst = m.core.rst := by
  unfold takeMail
  dsimp only
  repeat' split
  all_goals simp

@[simp] theorem mailSubmit_rst (plan : Nat) (part : Nat) (core : Nat) (index : Nat) (addr : SmAddr) (ctrl : BitVec 64) (m : Mach) :
    (mailSubmit plan part core index addr ctrl m).core.rst = m.core.rst := by
  simp -implicitDefEqProofs [mailSubmit, apply_ite Mach.core, apply_ite Core.rst]

@[simp] theorem releaseMail_rst (plan : Nat) (m : Mach) : (releaseMail plan m).core.rst = m.core.rst := by
  simp -implicitDefEqProofs [releaseMail, Mach.foldl_rst]

@[simp] theorem finishKite_rst (p : Plan) (o : KiteOp) (m : Mach) : (finishKite p o m).core.rst = m.core.rst := by
  unfold finishKite
  dsimp only
  repeat' split
  all_goals simp

@[simp] theorem Mach.meetFor_course (t : TenantId) (h : Option Nat) (kind : Nat) (found : List MemErr) (m : Mach) :
    (Mach.meetFor t h kind found m).core.rst.course = m.core.rst.course := by
  unfold Mach.meetFor
  repeat' split
  all_goals simp -implicitDefEqProofs [Mach.foldl_course, apply_ite Mach.core, apply_ite Core.rst, apply_ite Rst.course]

@[simp] theorem Core.reject_rst (f : Frame) (reason : Nat) (addr : Nat) (c : Core) : (Core.reject f reason addr c).rst = c.rst := by
  simp [Core.reject]

@[simp] theorem Core.refuseFar_rst (f : Frame) (reason : Nat) (addr : Nat) (c : Core) : (Core.refuseFar f reason addr c).rst = c.rst := by
  simp [Core.refuseFar]

@[simp] theorem Core.farToken_rst (h : Nat) (part : Nat) (ch : Nat) (t : Token) (c : Core) : (Core.farToken h part ch t c).rst = c.rst := by
  unfold Core.farToken
  dsimp only
  repeat' split
  all_goals simp

@[simp] theorem Mach.rangeToken_rst (h : Nat) (part : Nat) (ch : Nat) (a : Nat) (n : Nat) (m : Mach) :
    (Mach.rangeToken h part ch a n m).core.rst = m.core.rst := by
  unfold Mach.rangeToken
  split <;> simp

@[simp] theorem Mach.poisonToken_rst (h : Nat) (o : OpenXfer) (m : Mach) : (Mach.poisonToken h o m).core.rst = m.core.rst := by
  simp [Mach.poisonToken]

@[simp] theorem Mach.closeXfer_rst (h : Nat) (o : OpenXfer) (addr : Nat) (m : Mach) : (Mach.closeXfer h o addr m).core.rst = m.core.rst := by
  unfold Mach.closeXfer
  dsimp only
  repeat' split
  all_goals simp

@[simp] theorem Mach.openToken_rst (h : Nat) (part : Nat) (addr : Nat) (n : Nat) (m : Mach) : (Mach.openToken h part addr n m).2.core.rst = m.core.rst := by
  unfold Mach.openToken
  split <;> rfl

@[simp] theorem takeXopen_course (found : List MemErr) (f : Frame) (m : Mach) : (takeXopen found f m).core.rst.course = m.core.rst.course := by
  unfold takeXopen
  dsimp only
  repeat' split
  all_goals simp -implicitDefEqProofs [Mach.foldl_course]

@[simp] theorem takeXdata_rst (f : Frame) (m : Mach) : (takeXdata f m).core.rst = m.core.rst := by
  unfold takeXdata
  dsimp only
  repeat' split
  all_goals simp

@[simp] theorem takeRdReq_course (found : List MemErr) (f : Frame) (m : Mach) : (takeRdReq found f m).core.rst.course = m.core.rst.course := by
  unfold takeRdReq
  dsimp only
  split <;> simp

@[simp] theorem Mach.putMasked_rst (k : Nat) (mask : Nat) (data : List Byte) (m : Mach) : (Mach.putMasked k mask data m).core.rst = m.core.rst := by
  unfold Mach.putMasked
  split <;> simp

@[simp] theorem takeWrReq_rst (f : Frame) (m : Mach) : (takeWrReq f m).core.rst = m.core.rst := by
  unfold takeWrReq
  dsimp only
  split <;> simp

@[simp] theorem takeRdRsp_rst (f : Frame) (c : Core) : (takeRdRsp f c).rst = c.rst := by
  unfold takeRdRsp
  repeat' split
  all_goals simp

@[simp] theorem takeReject_rst (f : Frame) (c : Core) : (takeReject f c).rst = c.rst := by
  unfold takeReject
  split <;> simp -implicitDefEqProofs [Core.foldl_rst]

@[simp] theorem Core.exchange_rst (p : Plan) (es : List SealEnt) (c : Core) : (Core.exchange p es c).rst = c.rst := rfl

@[simp] theorem Core.toPartner_rst (entry : Nat) (f : Frame) (c : Core) : (Core.toPartner entry f c).rst = c.rst := by
  simp -implicitDefEqProofs [Core.toPartner, apply_ite Core.rst]

@[simp] theorem Core.mirrorSend_rst (stream : Nat) (entry : Nat) (step : StepNo) (off : Nat) (data : List Byte) (c : Core) :
    (Core.mirrorSend stream entry step off data c).rst = c.rst := by
  simp -implicitDefEqProofs [Core.mirrorSend, Core.foldl_rst]

@[simp] theorem Core.journalSend_rst (plan : Nat) (step : StepNo) (data : List Byte) (c : Core) : (Core.journalSend plan step data c).rst = c.rst := by
  unfold Core.journalSend
  split <;> simp

@[simp] theorem Mach.sendEntry_rst (p : Plan) (j : Job) (e : SealEnt) (i : Nat) (step : StepNo) (off : Nat) (n : Nat) (m : Mach) :
    (Mach.sendEntry p j e i step off n m).core.rst = m.core.rst := by
  simp [Mach.sendEntry]

@[simp] theorem Mach.mirrorStep_rst (p : Plan) (j : Job) (s : StepNo) (m : Mach) : (Mach.mirrorStep p j s m).core.rst = m.core.rst := by
  unfold Mach.mirrorStep
  split <;> simp -implicitDefEqProofs [Mach.foldl_rst]

@[simp] theorem Core.vote_rst (j : Job) (seq : Nat) (operand : List Byte) (c : Core) : (Core.vote j seq operand c).rst = c.rst := by
  simp [Core.vote]

@[simp] theorem Core.trySeal_rst (h : Nat) (c : Core) : (Core.trySeal h c).rst = c.rst := by
  unfold Core.trySeal
  dsimp only
  repeat' split
  all_goals simp -implicitDefEqProofs

@[simp] theorem Core.mirrorVote_rst (h : Nat) (s : StepNo) (lost : Bool) (c : Core) : (Core.mirrorVote h s lost c).rst = c.rst := by
  unfold Core.mirrorVote
  repeat' split
  all_goals simp

@[simp] theorem Mach.mirrorVoted_rst (h : Nat) (s : StepNo) (lost : Bool) (m : Mach) : (Mach.mirrorVoted h s lost m).core.rst = m.core.rst := by
  simp [Mach.mirrorVoted]

@[simp] theorem Core.nextSchedule_rst (h : Nat) (c : Core) : (Core.nextSchedule h c).rst = c.rst := rfl

@[simp] theorem Mach.extInputs_rst (h : Nat) (m : Mach) : (Mach.extInputs h m).core.rst = m.core.rst := by
  unfold Mach.extInputs
  split <;> simp -implicitDefEqProofs [Mach.foldl_rst]

@[simp] theorem Mach.beatStart_rst (h : Nat) (m : Mach) : (Mach.beatStart h m).core.rst = m.core.rst := by
  unfold Mach.beatStart
  repeat' split
  all_goals simp

@[simp] theorem Mach.stepStart_rst (h : Nat) (fresh : Bool) (m : Mach) : (Mach.stepStart h fresh m).core.rst = m.core.rst := by
  unfold Mach.stepStart
  split
  · simp only [Mach.up_core, Core.trySeal_rst, apply_ite Core.rst, Core.modJob_rst, ite_self, Mach.beatStart_rst]
    split <;> simp [apply_ite Core.rst]
  · rfl

@[simp] theorem Core.emptyChans_rst (h : Nat) (c : Core) : (Core.emptyChans h c).rst = c.rst := rfl

@[simp] theorem Core.restoreRings_rst (j : Job) (c : Core) : (Core.restoreRings j c).rst = c.rst := by
  simp -implicitDefEqProofs [Core.restoreRings, Core.foldl_rst]

@[simp] theorem Mach.replayStart_rst (h : Nat) (m : Mach) : (Mach.replayStart h m).core.rst = m.core.rst := by
  unfold Mach.replayStart
  split <;> simp

@[simp] theorem Mach.settleCheck_rst (j : Job) (k : PendingCheck) (m : Mach) : (Mach.settleCheck j k m).core.rst = m.core.rst := by
  unfold Mach.settleCheck
  split <;> simp

@[simp] theorem replayEnd_rst (h : Nat) (m : Mach) : (replayEnd h m).core.rst = m.core.rst := by
  unfold replayEnd
  repeat' split
  all_goals simp -implicitDefEqProofs [Mach.foldl_rst]

@[simp] theorem Mach.raiseAnchors_rst (p : Plan) (j : Job) (l : StepNo) (m : Mach) : (m.raiseAnchors p j l).core.rst = m.core.rst := by
  refine Mach.foldl_rst (fun m r => ?_) _ m
  split
  · split
    · rfl
    · refine Mach.foldl_rst (fun m miss => ?_) _ m
      split
      · exact m.patch_rst _ _
      · rfl
  · rfl

@[simp] theorem Mach.rollbackStart_rst (h : Nat) (l : StepNo) (m : Mach) : (Mach.rollbackStart h l m).core.rst = m.core.rst := by
  unfold Mach.rollbackStart
  dsimp only
  repeat' split
  all_goals simp

@[simp] theorem Core.resumeVote_rst (h : Nat) (c : Core) : (Core.resumeVote h c).rst = c.rst := by
  unfold Core.resumeVote
  repeat' split
  all_goals simp -implicitDefEqProofs

@[simp] theorem Mach.resume_rst (h : Nat) (m : Mach) : (Mach.resume h m).core.rst = m.core.rst := by
  unfold Mach.resume
  dsimp only
  repeat' split
  all_goals simp

@[simp] theorem Mach.voteEnd_rst (h : Nat) (seq : Nat) (res : List Byte) (err : Bool) (m : Mach) : (Mach.voteEnd h seq res err m).2.core.rst = m.core.rst := by
  unfold Mach.voteEnd
  split <;> simp

@[simp] theorem Core.sealFailed_rst (h : Nat) (s : StepNo) (r : Option (List Byte)) (c : Core) : (Core.sealFailed h s r c).rst = c.rst := by
  unfold Core.sealFailed
  dsimp only
  repeat' split
  all_goals simp

@[simp] theorem Core.mirrorAbsent_rst (j : Job) (c : Core) : (Core.mirrorAbsent j c).rst = c.rst := by
  simp [Core.mirrorAbsent]

@[simp] theorem mirrorResult_rst (h : Nat) (res : List Byte) (err : Bool) (m : Mach) : (mirrorResult h res err m).core.rst = m.core.rst := by
  unfold mirrorResult
  split
  · rfl
  dsimp only
  split
  · split
    · simp [apply_ite Core.rst]
    · simp
  · simp

@[simp] theorem resumeResult_rst (h : Nat) (res : List Byte) (err : Bool) (m : Mach) : (resumeResult h res err m).core.rst = m.core.rst := by
  unfold resumeResult
  dsimp only
  repeat' split
  all_goals simp

@[simp] theorem Core.evalChecks_rst (mem : Mem) (h : Nat) (c : Core) : (Core.evalChecks mem h c).rst = c.rst := by
  unfold Core.evalChecks
  repeat' split
  all_goals simp

@[simp] theorem Core.stepEnded_rst (mem : Mem) (h : Nat) (s : StepNo) (c : Core) : (Core.stepEnded mem h s c).rst = c.rst := by
  unfold Core.stepEnded
  repeat' split
  all_goals simp

@[simp] theorem verdictFinal_rst (h : Nat) (s : StepNo) (c : Core) : (verdictFinal h s c).rst = c.rst := by
  unfold verdictFinal
  dsimp only
  repeat' split
  all_goals simp

@[simp] theorem Core.adminSettle_rst (t : Nat) (c : Core) : (Core.adminSettle t c).rst = c.rst := by
  unfold Core.adminSettle
  split <;> rfl

@[simp] theorem Core.reply_rst (a : Accepted) (status : Nat) (detail : List Byte) (c : Core) : (Core.reply a status detail c).rst = c.rst := by
  simp [Core.reply]

@[simp] theorem Core.awaitReply_rst (a : Accepted) (c : Core) : (Core.awaitReply a c).rst = c.rst := rfl

@[simp] theorem Core.logBoth_rst (r : Rec) (c : Core) : (Core.logBoth r c).rst = c.rst := by
  unfold Core.logBoth
  dsimp only
  repeat' split
  all_goals simp

@[simp] theorem Core.jobStopped_rst (j : Job) (state : Nat) (c : Core) : (Core.jobStopped j state c).rst = c.rst := by
  simp [Core.jobStopped]

@[simp] theorem Mach.scrub_course (kind : Nat) (found : List MemErr) (m : Mach) : (Mach.scrub kind found m).core.rst.course = m.core.rst.course := by
  simp -implicitDefEqProofs [Mach.scrub, Mach.foldl_course, apply_ite Mach.core, apply_ite Core.rst, apply_ite Rst.course]

@[simp] theorem Mach.replaceLine_rst (e : MemErr) (m : Mach) : (Mach.replaceLine e m).core.rst = m.core.rst := by
  unfold Mach.replaceLine
  split <;> rfl

@[simp] theorem copyDone_course (p : Nat) (found : List MemErr) (m : Mach) : (copyDone p found m).core.rst.course = m.core.rst.course := by
  unfold copyDone
  split <;> simp -implicitDefEqProofs [Mach.foldl_course]

@[simp] theorem Core.modSnap_rst (h : Nat) (f : SnapJob → SnapJob) (c : Core) : (Core.modSnap h f c).rst = c.rst := rfl

@[simp] theorem Core.sendIo_rst (a : IoCmd) (c : Core) : (Core.sendIo a c).rst = c.rst := rfl

@[simp] theorem Core.issueIo_rst (a : IoCmd) (c : Core) : (Core.issueIo a c).rst = c.rst := rfl

@[simp] theorem Core.countLbas_rst (n : Nat) (c : Core) : (Core.countLbas n c).rst = c.rst := by
  simp [Core.countLbas]

@[simp] theorem Core.modSlot_rst (i : Nat) (f : SnapSlot → SnapSlot) (c : Core) : (Core.modSlot i f c).rst = c.rst := rfl

@[simp] theorem Core.snapFree_rst (h : Nat) (n : BitVec 32) (c : Core) : (Core.snapFree h n c).rst = c.rst := rfl

@[simp] theorem Core.snapFailAll_rst (h : Nat) (s : StepNo) (n : BitVec 32) (cause : Nat) (c : Core) : (Core.snapFailAll h s n cause c).rst = c.rst := by
  simp [Core.snapFailAll]

@[simp] theorem Core.snapFail_rst (h : Nat) (n : BitVec 32) (cause : Nat) (c : Core) : (Core.snapFail h n cause c).rst = c.rst := by
  unfold Core.snapFail
  repeat' split
  all_goals simp

@[simp] theorem snapFailureNotice_rst (h : Nat) (n : BitVec 32) (cause : Nat) (c : Core) : (snapFailureNotice h n cause c).rst = c.rst := by
  unfold snapFailureNotice
  repeat' split
  all_goals simp

@[simp] theorem Core.snapMemberFailed_rst (h : Nat) (c : Core) : (Core.snapMemberFailed h c).rst = c.rst := by
  simp -implicitDefEqProofs [Core.snapMemberFailed, Core.foldl_rst, apply_ite Core.rst]

@[simp] theorem Core.snapVote_rst (j : Job) (s : SnapJob) (step : StepNo) (c : Core) : (Core.snapVote j s step c).rst = c.rst := by
  simp [Core.snapVote]

@[simp] theorem Core.zeroSlot_rst (s : SnapJob) (step : StepNo) (c : Core) : (Core.zeroSlot s step c).rst = c.rst := by
  unfold Core.zeroSlot
  split <;> rfl

@[simp] theorem Core.snapOnSeal_rst (h : Nat) (step : StepNo) (c : Core) : (Core.snapOnSeal h step c).rst = c.rst := by
  unfold Core.snapOnSeal
  dsimp only
  repeat' split
  all_goals simp

@[simp] theorem snapVoteResult_rst (h : Nat) (res : List Byte) (err : Bool) (m : Mach) : (snapVoteResult h res err m).core.rst = m.core.rst := by
  have voted : (m.voteEnd h 0x3FFE res err).2.core.rst = m.core.rst := by simp
  unfold snapVoteResult
  split
  · split
    · rfl
    dsimp only
    split
    · rfl
    rw [← voted, Mach.up_core]
    split
    · split <;> split <;> simp
    · simp
  · rfl

@[simp] theorem Mach.copyHalf_rst (export_ : Bool) (src : Nat) (slot : Nat) (off : Nat) (m : Mach) :
    (Mach.copyHalf export_ src slot off m).core.rst = m.core.rst := by
  unfold Mach.copyHalf
  split <;> simp

@[simp] theorem Mach.drainNext_rst (m : Mach) : (Mach.drainNext m).core.rst = m.core.rst := by
  unfold Mach.drainNext
  dsimp only
  repeat' split
  all_goals simp

@[simp] theorem Mach.replicaChecks_rst (h slot : Nat) (m : Mach) : (m.replicaChecks h slot).core.rst = m.core.rst := by
  unfold Mach.replicaChecks
  split
  · split
    · rfl
    · refine Mach.foldl_rst (fun m ie => ?_) _ m
      split
      · rfl
      · exact Mach.foldl_rst (fun m x => by simp) _ m
  · rfl

@[simp] theorem snapCopied_course (h : Nat) (found : List MemErr) (m : Mach) : (snapCopied h found m).core.rst.course = m.core.rst.course := by
  unfold snapCopied
  split
  · split
    · rfl
    · extract_lets m1 src kind m2 m3
      have met : m1.core.rst.course = m.core.rst.course := by simp [m1]
      rw [← met]
      split
      · simp
      · have copied : m2.core.rst = m1.core.rst := Mach.foldl_rst (fun m e => by split <;> simp) src m1
        simp [m3, copied]
  · rfl

@[simp] theorem Core.manifestIo_rst (j : Job) (block : List Byte) (r : ManifestRun) (o : Nat) (c : Core) : (Core.manifestIo j block r o c).rst = c.rst := rfl

@[simp] theorem Core.takeReport_rst (h : Nat) (n : BitVec 32) (rep : StripeRep) (c : Core) : (Core.takeReport h n rep c).rst = c.rst := by
  unfold Core.takeReport
  dsimp only
  repeat' split
  all_goals simp

@[simp] theorem stripeFlushed_rst (h : Nat) (n : BitVec 32) (m : Mach) : (stripeFlushed h n m).core.rst = m.core.rst := by
  unfold stripeFlushed
  repeat' split
  all_goals simp -implicitDefEqProofs [Mach.foldl_rst, apply_ite Core.rst]

@[simp] theorem Core.snapComplete_rst (h : Nat) (n : BitVec 32) (step : StepNo) (c : Core) : (Core.snapComplete h n step c).rst = c.rst := by
  unfold Core.snapComplete
  dsimp only
  repeat' split
  all_goals simp

@[simp] theorem manifestTimeout_rst (h : Nat) (n : BitVec 32) (c : Core) : (manifestTimeout h n c).rst = c.rst := by
  unfold manifestTimeout
  repeat' split
  all_goals simp

@[simp] theorem Core.connected_rst (t : TenantId) (i : Nat) (lim : Nat) (c : Core) : (Core.connected t i lim c).rst = c.rst := by
  unfold Core.connected
  dsimp only
  repeat' split
  all_goals simp -implicitDefEqProofs [Core.foldl_rst]

@[simp] theorem Core.connect_rst (t : TenantId) (i : Nat) (c : Core) : (Core.connect t i c).rst = c.rst := rfl

@[simp] theorem Mach.ioDone_rst (a : IoCmd) (lim : Nat) (m : Mach) : (Mach.ioDone a lim m).core.rst = m.core.rst := by
  unfold Mach.ioDone
  dsimp only
  repeat' split
  all_goals simp

@[simp] theorem Core.zeroFailed_rst (h : Nat) (c : Core) : (Core.zeroFailed h c).rst = c.rst := by
  unfold Core.zeroFailed
  split <;> simp

@[simp] theorem Core.ioFailed_rst (a : IoCmd) (c : Core) : (Core.ioFailed a c).rst = c.rst := by
  unfold Core.ioFailed
  split <;> simp

@[simp] theorem nvmeCompletion_course (id : Nat) (ok : Bool) (lim : Nat) (found : List MemErr) (m : Mach) :
    (nvmeCompletion id ok lim found m).core.rst.course = m.core.rst.course := by
  unfold nvmeCompletion
  repeat' split
  all_goals simp

@[simp] theorem connectionLost_rst (t : TenantId) (i : Nat) (c : Core) : (connectionLost t i c).rst = c.rst := by
  unfold connectionLost
  repeat' split
  all_goals simp

@[simp] theorem unconnected_rst (t : TenantId) (i : Nat) (c : Core) : (unconnected t i c).rst = c.rst := by
  unfold unconnected
  repeat' split
  all_goals simp -implicitDefEqProofs [Core.foldl_rst]

@[simp] theorem connectTimeout_rst (t : TenantId) (i : Nat) (c : Core) : (connectTimeout t i c).rst = c.rst := by
  unfold connectTimeout
  repeat' split
  all_goals simp

@[simp] theorem Core.replicaDiverged_rst (h : Nat) (c : Core) : (Core.replicaDiverged h c).rst = c.rst := by
  unfold Core.replicaDiverged
  split <;> simp

@[simp] theorem kiteComplete_rst (plan : Nat) (g : BitVec 8) (seq : BitVec 14) (res : List Byte) (m : Mach) :
    (kiteComplete plan g seq res m).core.rst = m.core.rst := by
  unfold kiteComplete
  repeat' split
  all_goals simp

@[simp] theorem Core.judgeLate_rst (counted : Bool) (j : Job) (lam : Nat) (c : Core) : (Core.judgeLate counted j lam c).rst = c.rst := by
  simp -implicitDefEqProofs [Core.judgeLate, apply_ite Core.rst]

@[simp] theorem Core.windowPush_rst (h : Nat) (s : StepNo) (lam : Nat) (c : Core) : (Core.windowPush h s lam c).rst = c.rst := rfl

@[simp] theorem Mach.sealStep_rst (h : Nat) (s : StepNo) (m : Mach) : (Mach.sealStep h s m).core.rst = m.core.rst := by
  unfold Mach.sealStep
  dsimp only
  repeat' split
  all_goals simp

@[simp] theorem sealResult_rst (h : Nat) (res : List Byte) (err : Bool) (m : Mach) : (sealResult h res err m).core.rst = m.core.rst := by
  unfold sealResult
  dsimp only
  repeat' split
  all_goals simp

@[simp] theorem latenessResult_rst (h : Nat) (res : List Byte) (err : Bool) (m : Mach) : (latenessResult h res err m).core.rst = m.core.rst := by
  unfold latenessResult
  dsimp only
  repeat' split
  all_goals simp

@[simp] theorem mirrorOpen_rst (port : Nat) (stream : Nat) (b : List Byte) (c : Core) : (mirrorOpen port stream b c).rst = c.rst := by
  unfold mirrorOpen
  dsimp only
  split <;> simp

@[simp] theorem mirrorData_rst (port : Nat) (stream : Nat) (chunk : Nat) (b : List Byte) (m : Mach) :
    (mirrorData port stream chunk b m).core.rst = m.core.rst := by
  unfold mirrorData
  split <;> simp -implicitDefEqProofs

@[simp] theorem mirrorClose_rst (port : Nat) (f : Frame) (m : Mach) : (mirrorClose port f m).core.rst = m.core.rst := by
  unfold mirrorClose
  dsimp only
  repeat' split
  all_goals simp

@[simp] theorem Core.restoreDone_rst (r : RestoreRun) (c : Core) : (Core.restoreDone r c).rst = c.rst := by
  simp [Core.restoreDone]

@[simp] theorem Mach.loseMirror_rst (m : Mach) : (Mach.loseMirror m).core.rst = m.core.rst := by
  simp -implicitDefEqProofs [Mach.loseMirror, Mach.foldl_rst]

@[simp] theorem Mach.mirrorAcked_rst (h : Nat) (s : StepNo) (m : Mach) : (Mach.mirrorAcked h s m).core.rst = m.core.rst := by
  unfold Mach.mirrorAcked
  dsimp only
  repeat' split
  all_goals simp

@[simp] theorem Mach.resend_rst (o : MirrorOut) (m : Mach) : (Mach.resend o m).core.rst = m.core.rst := by
  unfold Mach.resend
  repeat' split
  all_goals simp -implicitDefEqProofs [Core.foldl_rst]

@[simp] theorem mirrorAck_rst (stream : Nat) (b : List Byte) (m : Mach) : (mirrorAck stream b m).core.rst = m.core.rst := by
  unfold mirrorAck
  dsimp only
  repeat' split
  all_goals simp -implicitDefEqProofs [Mach.foldl_rst]

@[simp] theorem takeMirror_rst (port : Nat) (f : Frame) (m : Mach) : (takeMirror port f m).core.rst = m.core.rst := by
  unfold takeMirror
  dsimp only
  repeat' split
  all_goals simp

@[simp] theorem Core.failureNotice_rst (h : Nat) (lost : Nat) (edge : BitVec 64) (c : Core) : (Core.failureNotice h lost edge c).rst = c.rst := by
  unfold Core.failureNotice
  split <;> simp

@[simp] theorem Core.abortNotice_rst (h : Nat) (c : Core) : (Core.abortNotice h c).rst = c.rst := rfl

@[simp] theorem Mach.slotToCur_rst (p : Plan) (j : Job) (q : MirrorSlot) (m : Mach) : (m.slotToCur p j q).core.rst = m.core.rst := by
  refine Mach.foldl_rst (fun m t => ?_) _ m
  split
  · rfl
  · refine Mach.foldl_rst (fun m i => ?_) _ m
    split
    · simp
    · rfl

@[simp] theorem Mach.remapNotice_rst (h : Nat) (lm : Nat) (phys : Nat) (edge : BitVec 64) (cfg : Option JobCfg) (m : Mach) :
    (Mach.remapNotice h lm phys edge cfg m).core.rst = m.core.rst := by
  unfold Mach.remapNotice
  repeat' split
  all_goals simp

@[simp] theorem Mach.claim_rst (pos : Nat) (plans : List Nat) (lost : Nat) (m : Mach) : (m.claim pos plans lost).core.rst = m.core.rst := by
  have sends : ∀ (fs : List Frame) (c : Core), (fs.foldl (fun c f => c.sendFrame f) c).rst = c.rst := fun fs c => Core.foldl_rst
    (fun c f => c.sendFrame_rst f) fs c
  refine (Mach.foldl_rst (fun m e => ?_) _ _).trans ((Mach.foldl_rst (fun m q => Mach.foldl_rst (fun m t => ?_) _ m) _ _).trans ?_)
  · simp [sends]
  · simp [sends]
  · simp

@[simp] theorem partnerLost_rst (warm : Option Nat) (m : Mach) : (partnerLost warm m).core.rst = m.core.rst := by
  unfold partnerLost
  dsimp only
  repeat' split
  all_goals simp -implicitDefEqProofs [Mach.foldl_rst]

@[simp] theorem ballastClaim_rst (twin : Nat) (c : Core) : (ballastClaim twin c).rst = c.rst := by
  unfold ballastClaim
  split <;> rfl

@[simp] theorem Mach.rescueReady_rst (m : Mach) : (Mach.rescueReady m).core.rst = m.core.rst := by
  unfold Mach.rescueReady
  repeat' split
  all_goals simp -implicitDefEqProofs [Mach.foldl_rst]

@[simp] theorem entryCheckDone_rst (pass : Bool) (next : Option Nat) (m : Mach) : (entryCheckDone pass next m).core.rst = m.core.rst := by
  unfold entryCheckDone
  repeat' split
  all_goals simp -implicitDefEqProofs [Mach.foldl_rst]

@[simp] theorem streamDone_rst (m : Mach) : (streamDone m).core.rst = m.core.rst := by
  unfold streamDone
  repeat' split
  all_goals simp

@[simp] theorem Ctx.vecRead_rst (x : Ctx) (flat : Bool) (ft : Fmt) (orient : Option Bool) (a : Nat) (m : Mach) :
    (Ctx.vecRead x flat ft orient a m).2.core.rst = m.core.rst := by
  unfold Ctx.vecRead
  split <;> simp

@[simp] theorem Ctx.vecTile_rst (x : Ctx) (o : VecOut) (e0 : Nat) (orient : Bool) (rowsM1 : Nat) (colsM1 : Nat) (fl : OutFlags) (vals : List U32) (a : Nat)
    (m : Mach) : (Ctx.vecTile x o e0 orient rowsM1 colsM1 fl vals a m).core.rst = m.core.rst := by
  simp [Ctx.vecTile]

@[simp] theorem Ctx.putRow_rst (x : Ctx) (a : Nat) (bs : List Byte) (q : Bool) (m : Mach) : (Ctx.putRow x a bs q m).core.rst = m.core.rst := by
  simp -implicitDefEqProofs [Ctx.putRow, apply_ite Mach.core, apply_ite Core.rst]

@[simp] theorem Ctx.sameOrient_rst (x : Ctx) (ts : List (Nat × Nat)) (m : Mach) : (Ctx.sameOrient x ts m).2.core.rst = m.core.rst := by
  unfold Ctx.sameOrient
  dsimp only
  split <;> simp

@[simp] theorem Ctx.vecOperands_rst (x : Ctx) (opc : Nat) (f : VecF) (u : Nat) (m : Mach) : (Ctx.vecOperands x opc f u m).2.core.rst = m.core.rst :=
  Mach.foldl_snd_rst (β := List VecIn) (fun acc _ => x.vecRead_rst _ _ _ _ acc.2) _ ([], m)

@[simp] theorem Ctx.elemResult_rst (x : Ctx) (opc : Nat) (f : VecF) (u : Nat) (cyc0 : Nat) (orient : Bool) (poison : Bool) (ins : List VecIn) (m : Mach) :
    (Ctx.elemResult x opc f u cyc0 orient poison ins m).2.core.rst = m.core.rst := by
  unfold Ctx.elemResult
  dsimp only
  repeat' split
  all_goals simp

@[simp] theorem Ctx.elemUnit_rst (x : Ctx) (opc : Nat) (f : VecF) (stale : Bool) (u : Nat) (m : Mach) :
    (Ctx.elemUnit x opc f stale u m).core.rst = m.core.rst := by
  unfold Ctx.elemUnit
  dsimp only
  split <;> simp

@[simp] theorem Ctx.readRow_rst (x : Ctx) (f : VecF) (n : Nat) (m : Mach) : (Ctx.readRow x f n m).2.core.rst = m.core.rst := by
  simp [Ctx.readRow]

@[simp] theorem Ctx.putRowTiles_rst (x : Ctx) (f : VecF) (n : Nat) (cyc0 : Nat) (br : BlockRow) (fl : OutFlags) (rows : List (List U32)) (m : Mach) :
    (Ctx.putRowTiles x f n cyc0 br fl rows m).core.rst = m.core.rst := by
  simp -implicitDefEqProofs [Ctx.putRowTiles, Mach.foldl_rst]

@[simp] theorem Ctx.readF32s_rst (x : Ctx) (a : Nat) (n : Nat) (m : Mach) : (Ctx.readF32s x a n m).2.core.rst = m.core.rst := by
  simp [Ctx.readF32s]

@[simp] theorem Ctx.rowUnit_rst (x : Ctx) (opc : Nat) (f : VecF) (stale : Bool) (n : Nat) (m : Mach) :
    (Ctx.rowUnit x opc f stale n m).core.rst = m.core.rst := by
  unfold Ctx.rowUnit
  dsimp only
  repeat' split
  all_goals simp

@[simp] theorem Ctx.topkUnit_rst (x : Ctx) (f : VecF) (stale : Bool) (bias : Option (List U32)) (n : Nat) (acc : List Nat × Bool × Mach) :
    (Ctx.topkUnit x f stale bias n acc).2.2.core.rst = acc.2.2.core.rst := by
  simp [Ctx.topkUnit]

@[simp] theorem Ctx.topkBias_rst (x : Ctx) (f : VecF) (m : Mach) : (Ctx.topkBias x f m).2.core.rst = m.core.rst := by
  unfold Ctx.topkBias
  split <;> simp

@[simp] theorem Ctx.topk_rst (x : Ctx) (f : VecF) (stale : Bool) (m : Mach) : (x.topk f stale m).core.rst = m.core.rst := by
  have units : ∀ (bias : Option (List U32)) (ns : List Nat) (acc : List Nat × Bool × Mach),
      (ns.foldl (fun acc n => x.topkUnit f stale bias n acc) acc).2.2.core.rst = acc.2.2.core.rst := fun bias ns acc =>
    Mach.foldl_snd_snd_rst (fun acc n => x.topkUnit_rst f stale bias n acc) ns acc
  refine (x.putFlat_rst ..).trans ((units _ _ _).trans ((x.readFlat_rst ..).trans (x.topkBias_rst f m)))

@[simp] theorem Ctx.formUnit_rst (x : Ctx) (f : VecF) (stale : Bool) (n : Nat) (m : Mach) : (x.formUnit f stale n m).core.rst = m.core.rst := by
  refine (Mach.foldl_rst (fun m t => ?_) _ _).trans (Mach.foldl_snd_rst (fun acc r => ?_) _ ([], m))
  · simp
  · exact x.readFlat_rst ..

@[simp] theorem Ctx.unformUnit_rst (x : Ctx) (f : VecF) (stale : Bool) (n : Nat) (m : Mach) : (Ctx.unformUnit x f stale n m).core.rst = m.core.rst := by
  simp -implicitDefEqProofs [Ctx.unformUnit, Mach.foldl_rst, apply_ite Mach.core, apply_ite Core.rst]

@[simp] theorem Ctx.requantUnit_rst (x : Ctx) (f : VecF) (stale : Bool) (u : Nat) (m : Mach) : (Ctx.requantUnit x f stale u m).core.rst = m.core.rst := by
  simp [Ctx.requantUnit]

theorem Mach.rst_of_eq {α : Type} {e : α × Mach} {a : α} {m : Mach} {r : Rst} (h : e = (a, m)) (leaves : e.2.core.rst = r) : m.core.rst = r := by
  rw [← leaves, h]

@[simp] theorem Ctx.asaccUnit_rst (x : Ctx) (f : VecF) (stale : Bool) (u : Nat) (m : Mach) : (Ctx.asaccUnit x f stale u m).core.rst = m.core.rst := by
  unfold Ctx.asaccUnit
  extract_lets f0 fo init dst recKey
  split
  next c m1 h1 =>
  rw [← Mach.rst_of_eq h1 (x.readTile_rst ..)]
  split
  next acc m2 h2 =>
  rw [← Mach.rst_of_eq (r := m1.core.rst) h2 (by split <;> simp)]
  split
  next rb m3 h3 =>
  rw [← Mach.rst_of_eq (r := m2.core.rst) h3 (by split <;> simp)]
  split
  next tb m4 h4 =>
  rw [← Mach.rst_of_eq (r := m3.core.rst) h4 (by split <;> simp)]
  extract_lets
  split
  split <;> simp

@[simp] theorem Ctx.adamUnit_rst (x : Ctx) (f : VecF) (stale : Bool) (pb : List Byte) (u : Nat) (acc : Nat × Mach) :
    (Ctx.adamUnit x f stale pb u acc).2.core.rst = acc.2.core.rst := by
  unfold Ctx.adamUnit
  split <;> simp

@[simp] theorem Core.countSkips_rst (p : Nat) (n : Nat) (c : Core) : (Core.countSkips p n c).rst = c.rst := by
  simp [Core.countSkips]

@[simp] theorem Ctx.adamw_rst (x : Ctx) (f : VecF) (stale : Bool) (m : Mach) : (Ctx.adamw x f stale m).2.core.rst = m.core.rst := by
  have units : ∀ (pb : List Byte) (l : List Nat) (e : Nat × Mach), (l.foldl (fun acc u => x.adamUnit f stale pb u acc) e).2.core.rst = e.2.core.rst :=
    fun pb l e => Mach.foldl_snd_rst (fun acc u => x.adamUnit_rst f stale pb u acc) l e
  unfold Ctx.adamw
  dsimp only
  split
  · simp
  · split
    · simp
    · split <;> simp [units]

@[simp] theorem Ctx.sqnorm_rst (x : Ctx) (f : VecF) (stale : Bool) (m : Mach) : (x.sqnorm f stale m).core.rst = m.core.rst := by
  refine (x.putFlat_rst ..).trans (Mach.foldl_snd_snd_rst (fun acc u => ?_) _ (f32Zero, 0, m))
  exact x.readF32s_rst ..

@[simp] theorem vecUnits_rst (opc : Nat) (f : VecF) (x : Ctx) (stale : Bool) (m : Mach) : (vecUnits opc f x stale m).2.core.rst = m.core.rst := by
  unfold vecUnits
  repeat' split
  all_goals simp -implicitDefEqProofs [Mach.foldl_rst]

@[simp] theorem vecBody_rst (opc : Nat) (f : VecF) (x : Ctx) (stale : Bool) (m : Mach) : (vecBody opc f x stale m).2.core.rst = m.core.rst := by
  simp [vecBody]

@[simp] theorem vecRun_course (opc : Nat) (granted : Bool) (i : Instr) (st : Stn) (h : Hdr) (f : VecF) (m : Mach) :
    (vecRun opc granted i st h f m).core.rst.course = m.core.rst.course := by
  simp [vecRun]

@[simp] theorem Ctx.readRange_rst (x : Ctx) (addr : Nat) (bytes : Nat) (m : Mach) : (Ctx.readRange x addr bytes m).2.2.core.rst = m.core.rst := by
  unfold Ctx.readRange
  dsimp only
  split <;> simp

@[simp] theorem Ctx.putRange_rst (x : Ctx) (addr : Nat) (bytes : List Byte) (bad : Nat → Bool) (m : Mach) :
    (Ctx.putRange x addr bytes bad m).core.rst = m.core.rst := by
  simp [Ctx.putRange]

@[simp] theorem Ctx.putRuns_rst (x : Ctx) (f : CollF) (runs : List ((Nat × Nat) × Nat)) (val : Nat → Nat) (bad : Nat → Bool) (m : Mach) :
    (Ctx.putRuns x f runs val bad m).core.rst = m.core.rst := by
  simp -implicitDefEqProofs [Ctx.putRuns, Mach.foldl_rst]

@[simp] theorem Ctx.plainReduce_rst (x : Ctx) (opc : Nat) (f : CollF) (g : Grp) (ms : List Member) (stale : Bool) (m : Mach) :
    (Ctx.plainReduce x opc f g ms stale m).core.rst = m.core.rst := by
  simp [Ctx.plainReduce]

@[simp] theorem Ctx.anchorOps_rst (x : Ctx) (f : CollF) (own : List Nat) (m : Mach) : (Ctx.anchorOps x f own m).core.rst = m.core.rst := by
  simp -implicitDefEqProofs [Ctx.anchorOps, Mach.foldl_rst]

@[simp] theorem Ctx.exactReduce_rst (x : Ctx) (opc : Nat) (f : CollF) (g : Grp) (ms : List Member) (stale : Bool) (m : Mach) :
    (Ctx.exactReduce x opc f g ms stale m).core.rst = m.core.rst := by
  simp [Ctx.exactReduce]

@[simp] theorem Ctx.readAs_rst (x : Ctx) (fa : Fmt) (addr n : Nat) (my : List Nat) (m : Mach) : (x.readAs fa addr n my m).2.core.rst = m.core.rst := by
  refine Mach.foldl_snd_rst (fun acc i => ?_) _ ([], m)
  split
  · rfl
  · exact x.readTileAt_rst ..

@[simp] theorem Ctx.carriedReduce_rst (x : Ctx) (opc : Nat) (f : CollF) (g : Grp) (mine : List (List Int × Nat × Bool)) (own : Nat) (ms : List Member)
    (stale : Bool) (m : Mach) :
    (Ctx.carriedReduce x opc f g mine own ms stale m).core.rst = m.core.rst := by
  unfold Ctx.carriedReduce
  extract_lets fa sz ints recs h my bcOf bf m2 misses m3 m4
  have put : m2.core.rst = m.core.rst := by simp [m2]
  have noted : m3.core.rst = m2.core.rst := Mach.foldl_rst (fun m ch => by extract_lets; split <;> simp) my m2
  split <;> simp [m4, noted, put]

@[simp] theorem Ctx.permute_rst (x : Ctx) (g : Grp) (peers : List PeerData) (stale : Bool) (m : Mach) : (x.permute g peers stale m).core.rst = m.core.rst := by
  refine Mach.foldl_snd_rst (fun acc e => ?_) _ ([], m)
  dsimp only
  split
  · split
    · exact x.readRange_rst ..
    · rfl
  · split
    · exact (x.putRange_rst ..).trans (x.readRange_rst ..)
    · split <;> simp

theorem Ctx.reduce_rst {x : Ctx} {opc : Nat} {f : CollF} {g : Grp} {peers : List PeerData} {stale : Bool} {m m' : Mach}
    (h : x.reduce opc f g peers stale m = some m') : m'.core.rst = m.core.rst := by
  unfold Ctx.reduce at h
  dsimp only at h
  split at h <;> obtain ⟨ms, -, rfl⟩ := Option.map_eq_some_iff.mp h
  · simp
  · split <;> simp

theorem Ctx.spreadOut_rst {x : Ctx} {opc : Nat} {f : CollF} {g : Grp} {peers : List PeerData} {stale : Bool} {m m' : Mach}
    (h : x.spreadOut opc f g peers stale m = some m') : m'.core.rst = m.core.rst := by
  unfold Ctx.spreadOut at h
  dsimp only at h
  obtain ⟨ms, -, rfl⟩ := Option.map_eq_some_iff.mp h
  refine (Mach.foldl_rst (fun m r => by simp) _ _).trans ?_
  split <;> simp

theorem Ctx.dispatch_rst {x : Ctx} {f : CollF} {g : Grp} {peers : List PeerData} {stale : Bool} {m m' : Mach}
    (h : x.dispatch f g peers stale m = some m') : m'.core.rst = m.core.rst := by
  unfold Ctx.dispatch at h
  dsimp only at h
  obtain ⟨ms, -, rfl⟩ := Option.map_eq_some_iff.mp h
  split
  · exact (Mach.foldl_rst (fun m r => by split <;> simp) _ _).trans (by simp)
  · rw [Ctx.putRange_rst, Ctx.putRange_rst]
    exact (Mach.foldl_rst (fun m r => by split <;> simp) _ _).trans (by simp)

theorem Ctx.combine_rst {x : Ctx} {f : CollF} {g : Grp} {peers : List PeerData} {stale : Bool} {m m' : Mach}
    (h : x.combine f g peers stale m = some m') : m'.core.rst = m.core.rst := by
  unfold Ctx.combine at h
  dsimp only at h
  obtain ⟨ms, -, rfl⟩ := Option.map_eq_some_iff.mp h
  refine (Mach.foldl_rst (fun m t => by simp) _ _).trans ((Mach.foldl_rst (fun m r => by simp) _ _).trans ?_)
  simp

@[simp] theorem collBody_rst (opc : Nat) (peers : List PeerData) (f : CollF) (x : Ctx) (stale : Bool) (m : Mach) :
    (collBody opc peers f x stale m).2.core.rst = m.core.rst := by
  unfold collBody
  split
  · rfl
  extract_lets k asked run own m0 res mine
  split
  · rfl
  have asks : m0.core.rst = m.core.rst := by simp [m0, apply_ite Mach.core, apply_ite Core.rst]
  have moved : ∀ m1, res = some m1 → m1.core.rst = m0.core.rst := by
    intro m1 h
    simp only [res] at h
    split at h
    · exact Ctx.reduce_rst h
    · exact Ctx.reduce_rst h
    · exact Ctx.spreadOut_rst h
    · exact Ctx.spreadOut_rst h
    · exact Ctx.dispatch_rst h
    · exact Ctx.combine_rst h
    · rw [← Option.some.inj h]
      simp
  clear_value res m0 mine
  cases res with
  | none => exact asks
  | some m1 =>
    have here := (moved m1 rfl).trans asks
    dsimp only
    simp [run, here, apply_ite Core.rst, apply_ite Prod.snd]

@[simp] theorem Mach.collWaits_rst (st : Stn) (h : Hdr) (f : CollF) (opc : Nat) (m : Mach) : (Mach.collWaits st h f opc m).core.rst = m.core.rst := by
  unfold Mach.collWaits
  dsimp only
  repeat' split
  all_goals simp

@[simp] theorem collRun_course (opc : Nat) (granted : Bool) (i : Instr) (st : Stn) (h : Hdr) (f : CollF) (peers : List PeerData) (m : Mach) :
    (collRun opc granted i st h f peers m).core.rst.course = m.core.rst.course := by
  unfold collRun
  split <;> simp

@[simp] theorem Core.coreTake_rst (c : Core) (p : Plan) (part : Nat) (core : Nat) (d : Nat) (ch : Nat) : (Core.coreTake c p part core d ch).rst = c.rst := by
  unfold Core.coreTake
  repeat' split
  all_goals simp

@[simp] theorem Mach.lineOut_rst (part : Nat) (t : TenantId) (k : Nat) (bytes : List Byte) (m : Mach) :
    (Mach.lineOut part t k bytes m).core.rst = m.core.rst := by
  unfold Mach.lineOut
  dsimp only
  split <;> simp

@[simp] theorem Mach.intoL2_rst (part : Nat) (l : L2Line) (m : Mach) : (m.intoL2 part l).core.rst = m.core.rst := by
  refine (Mach.foldl_rst (fun m o => ?_) _ _).trans (Core.modCores_rst ..)
  dsimp only
  split
  · simp
  · split <;> simp

@[simp] theorem Mach.recall_rst (part : Nat) (t : TenantId) (line : Nat) (m : Mach) : (Mach.recall part t line m).core.rst = m.core.rst := by
  unfold Mach.recall
  split <;> simp

@[simp] theorem Mach.fetchLine_rst (part : Nat) (t : TenantId) (line : Nat) (m : Mach) : (Mach.fetchLine part t line m).2.core.rst = m.core.rst := by
  unfold Mach.fetchLine
  dsimp only
  repeat' split
  all_goals simp

@[simp] theorem Mach.intoL1_rst (part : Nat) (l : CacheLine) (m : Mach) : (Mach.intoL1 part l m).core.rst = m.core.rst := by
  simp -implicitDefEqProofs [Mach.intoL1, Mach.foldl_rst, apply_ite Mach.core, apply_ite Core.rst]

@[simp] theorem Mach.badLine_rst (part : Nat) (core : Nat) (t : TenantId) (line : Nat) (m : Mach) :
    (Mach.badLine part core t line m).core.rst = m.core.rst := by
  unfold Mach.badLine
  repeat' split
  all_goals simp

@[simp] theorem Mach.loadLine_rst (part : Nat) (core : Nat) (t : TenantId) (line : Nat) (m : Mach) :
    (Mach.loadLine part core t line m).2.core.rst = m.core.rst := by
  unfold Mach.loadLine
  dsimp only
  repeat' split
  all_goals simp

@[simp] theorem Mach.own_rst (part : Nat) (core : Nat) (t : TenantId) (line : Nat) (m : Mach) : (Mach.own part core t line m).2.core.rst = m.core.rst := by
  unfold Mach.own
  dsimp only
  split <;> simp

@[simp] theorem Mach.storeLine_rst (part core : Nat) (t : TenantId) (line off : Nat) (bytes : List Byte) (m : Mach) :
    (m.storeLine part core t line off bytes).2.core.rst = m.core.rst := by
  have owned := m.own_rst part core t line
  unfold Mach.storeLine
  split
  · next eq =>
    rw [eq] at owned
    exact owned
  · next eq =>
    rw [eq] at owned
    exact (Mach.intoL1_rst ..).trans owned

@[simp] theorem Core.farAccess_rst (p : Plan) (j : Job) (part : Nat) (core : Nat) (module : Nat) (a : Nat) (write : Option (List Byte)) (c : Core) :
    (Core.farAccess p j part core module a write c).rst = c.rst := by
  unfold Core.farAccess
  repeat' split
  all_goals simp

@[simp] theorem coreLoad_course (plan : Nat) (part : Nat) (core : Nat) (addr : BitVec 64) (lineErr : Bool) (found : List MemErr) (m : Mach) :
    (coreLoad plan part core addr lineErr found m).core.rst.course = m.core.rst.course := by
  unfold coreLoad
  split
  · rfl
  dsimp only
  split
  · simp
  · simp
  · simp
  · split <;> simp
  · rename_i p j _ _ k _
    have read : ∀ m : Mach, (match m.loadLine part core p.tenant (k / 64) with
        | (some b, m2) => m2.up (Core.emit (.data b))
        | (none, m2) => m2.up (Core.emit (.dataAbort part core))).core.rst.course = m.core.rst.course := by
      intro m
      have loaded := m.loadLine_rst part core p.tenant (k / 64)
      revert loaded
      rcases m.loadLine part core p.tenant (k / 64) with ⟨_ | b, m2⟩ <;> exact fun loaded => congrArg Rst.course loaded
    refine (read _).trans ?_
    split <;> simp

@[simp] theorem Mach.coreSm_rst (j : Job) (lp : Nat) (k : Nat) (off : Nat) (bytes : List Byte) (m : Mach) :
    (Mach.coreSm j lp k off bytes m).core.rst = m.core.rst := by
  unfold Mach.coreSm
  dsimp only
  split <;> simp

@[simp] theorem coreStore_course (plan : Nat) (part : Nat) (core : Nat) (addr : BitVec 64) (bytes : List Byte) (lineErr : Bool) (found : List MemErr)
    (m : Mach) : (coreStore plan part core addr bytes lineErr found m).core.rst.course = m.core.rst.course := by
  unfold coreStore
  dsimp only
  repeat' split
  all_goals simp

@[simp] theorem loadReserved_course (plan : Nat) (part : Nat) (core : Nat) (addr : BitVec 64) (lineErr : Bool) (found : List MemErr) (m : Mach) :
    (loadReserved plan part core addr lineErr found m).core.rst.course = m.core.rst.course := by
  unfold loadReserved
  dsimp only
  repeat' split
  all_goals simp

@[simp] theorem storeConditional_rst (plan : Nat) (part : Nat) (core : Nat) (addr : BitVec 64) (bytes : List Byte) (lineErr : Bool) (m : Mach) :
    (storeConditional plan part core addr bytes lineErr m).core.rst = m.core.rst := by
  unfold storeConditional
  dsimp only
  repeat' split
  all_goals simp

@[simp] theorem coreClean_rst (plan : Nat) (part : Nat) (core : Nat) (addr : BitVec 64) (lineErr : Bool) (m : Mach) :
    (coreClean plan part core addr lineErr m).core.rst = m.core.rst := by
  unfold coreClean
  dsimp only
  repeat' split
  all_goals simp

@[simp] theorem coreInval_rst (plan : Nat) (part : Nat) (core : Nat) (addr : BitVec 64) (c : Core) : (coreInval plan part core addr c).rst = c.rst := by
  unfold coreInval
  split <;> rfl

@[simp] theorem Core.retrain_rst (i : Nat) (ask : Bool) (c : Core) : (Core.retrain i ask c).rst = c.rst := by
  simp -implicitDefEqProofs [Core.retrain, apply_ite Core.rst]

@[simp] theorem Core.backUp_rst (i : Nat) (c : Core) : (Core.backUp i c).rst = c.rst := by
  simp [Core.backUp]

@[simp] theorem Core.sendInit_rst (i : Nat) (c : Core) : (Core.sendInit i c).rst = c.rst := by
  simp [Core.sendInit]

@[simp] theorem peerDetected_rst (i : Nat) (c : Core) : (peerDetected i c).rst = c.rst := by
  unfold peerDetected
  dsimp only
  split <;> simp

@[simp] theorem trainingDone_rst (i : Nat) (oneway : BitVec 14) (lanes : BitVec 5) (c : Core) : (trainingDone i oneway lanes c).rst = c.rst := by
  unfold trainingDone
  dsimp only
  repeat' split
  all_goals simp

@[simp] theorem trainingFailed_rst (i : Nat) (c : Core) : (trainingFailed i c).rst = c.rst := by
  unfold trainingFailed
  split <;> simp

@[simp] theorem Core.linkAck_rst (i : Nat) (ack : U16) (c : Core) : (Core.linkAck i ack c).rst = c.rst := rfl

@[simp] theorem Core.acquiring_rst (c : Core) : (Core.acquiring c).rst = c.rst := by
  unfold Core.acquiring
  split <;> rfl

@[simp] theorem takeInit_rst (i : Nat) (f : Frame) (c : Core) : (takeInit i f c).rst = c.rst := by
  simp -implicitDefEqProofs [takeInit, apply_ite Core.rst]

@[simp] theorem laneFailure_rst (i : Nat) (lane : Nat) (c : Core) : (laneFailure i lane c).rst = c.rst := by
  simp -implicitDefEqProofs [laneFailure, apply_ite Core.rst]

@[simp] theorem replayTimeout_rst (i : Nat) (c : Core) : (replayTimeout i c).rst = c.rst := by
  simp -implicitDefEqProofs [replayTimeout, apply_ite Core.rst]

@[simp] theorem frameBadCrc_rst (i : Nat) (tag : Bool) (fec : Nat) (c : Core) : (frameBadCrc i tag fec c).rst = c.rst := by
  simp -implicitDefEqProofs [frameBadCrc, apply_ite Core.rst]

@[simp] theorem takeLinkCtl_rst (i : Nat) (f : Frame) (c : Core) : (takeLinkCtl i f c).rst = c.rst := by
  simp -implicitDefEqProofs [takeLinkCtl, apply_ite Core.rst]

@[simp] theorem syncReply_rst (i : Nat) (t1 : BitVec 64) (t2 : BitVec 64) (t3 : BitVec 64) (t4 : BitVec 64) (c : Core) :
    (syncReply i t1 t2 t3 t4 c).rst = c.rst := rfl

@[simp] theorem takeSync_rst (i : Nat) (reply : Bool) (ack : U16) (t1 : BitVec 64) (t2 : BitVec 64) (t3 : BitVec 64) (t4 : BitVec 64) (c : Core) :
    (takeSync i reply ack t1 t2 t3 t4 c).rst = c.rst := by
  simp -implicitDefEqProofs [takeSync, apply_ite Core.rst]

@[simp] theorem Core.uncleanMulti_rst (c : Core) : (Core.uncleanMulti c).rst = c.rst := rfl

@[simp] theorem syncLost_rst (c : Core) : (syncLost c).rst = c.rst := by
  unfold syncLost
  split <;> rfl

@[simp] theorem Core.failMulti_rst (c : Core) : (Core.failMulti c).rst = c.rst := by
  simp -implicitDefEqProofs [Core.failMulti, Core.foldl_rst]

@[simp] theorem Core.linkCtlKey_rst (i : Nat) (c : Core) : (Core.linkCtlKey i c).rst = c.rst := by
  simp [Core.linkCtlKey]

@[simp] theorem Core.switchKey_rst (i : Nat) (c : Core) : (Core.switchKey i c).rst = c.rst := by
  unfold Core.switchKey
  split <;> simp

@[simp] theorem keyAgreement_rst (i : Nat) (tx : Option (BitVec 256 × BitVec 32)) (rx : Option (BitVec 256)) (c : Core) :
    (keyAgreement i tx rx c).rst = c.rst := by
  unfold keyAgreement
  dsimp only
  repeat' split
  all_goals simp

@[simp] theorem d2dFailed_course (k : D2d) (c : Core) : (d2dFailed k c).rst.course = c.rst.course := by
  unfold d2dFailed
  split <;> simp

@[simp] theorem mmaSubTiles_rst (x : Ctx) (f : MmaF) (fa : Fmt) (fb : Fmt) (fo : Fmt) (aT : List (List TileIn)) (bT : List (List TileIn))
    (fl : Nat → OutFlags) (inits : List (List (List U32))) (m : Mach) : (mmaSubTiles x f fa fb fo aT bT fl inits m).core.rst = m.core.rst := by
  simp -implicitDefEqProofs [mmaSubTiles, Mach.foldl_rst]

@[simp] theorem Ctx.readInits_rst (x : Ctx) (addrs : List Nat) (m : Mach) : (Ctx.readInits x addrs m).2.core.rst = m.core.rst := by
  simp [Ctx.readInits]

@[simp] theorem mmaBody_rst (f : MmaF) (x : Ctx) (stale : Bool) (m : Mach) : (mmaBody f x stale m).2.core.rst = m.core.rst := by
  have reads : ∀ (ft : Fmt) (o : Option Bool) (p : Nat) (k : Nat → List Nat) (l : List Nat) (m : Mach), (l.foldl (fun (acc : List (List TileIn) × Mach) i =>
      let (ts, m') := x.readTiles ft o p (k i) acc.2
      (acc.1 ++ [ts], m')) ([], m)).2.core.rst = m.core.rst := fun ft o p k l m =>
    Mach.foldl_snd_rst (β := List (List TileIn)) (fun acc i => x.readTiles_rst ft o p (k i) acc.2) l ([], m)
  unfold mmaBody
  split
  · split
    next rs cs _ =>
    extract_lets k
    split
    next aT m1 h1 =>
    rw [← Mach.rst_of_eq h1 (reads ..)]
    split
    next bT m2 h2 =>
    rw [← Mach.rst_of_eq h2 (reads ..)]
    split
    next iT m3 h3 =>
    rw [← Mach.rst_of_eq (r := m2.core.rst) h3 (by split <;> simp)]
    extract_lets fl m4
    simp [m4]
  · rfl

@[simp] theorem mmaRun_course (granted : Bool) (st : Stn) (h : Hdr) (f : MmaF) (m : Mach) : (mmaRun granted st h f m).core.rst.course = m.core.rst.course := by
  simp [mmaRun]

@[simp] theorem vloadBody_rst (f : VloadF) (x : Ctx) (stale : Bool) (m : Mach) : (vloadBody f x stale m).2.core.rst = m.core.rst := by
  unfold vloadBody
  split <;> simp

@[simp] theorem vloadRun_course (granted : Bool) (st : Stn) (h : Hdr) (f : VloadF) (m : Mach) :
    (vloadRun granted st h f m).core.rst.course = m.core.rst.course := by
  simp [vloadRun]

@[simp] theorem mvBody_rst (f : MvF) (x : Ctx) (stale : Bool) (m : Mach) : (mvBody f x stale m).2.core.rst = m.core.rst := by
  unfold mvBody
  repeat' split
  all_goals simp -implicitDefEqProofs [Mach.foldl_rst]

@[simp] theorem mvRun_course (granted : Bool) (st : Stn) (h : Hdr) (f : MvF) (m : Mach) : (mvRun granted st h f m).core.rst.course = m.core.rst.course := by
  simp [mvRun]

@[simp] theorem Core.buildSlots_rst (c : Core) : (Core.buildSlots c).rst = c.rst := by
  unfold Core.buildSlots
  dsimp only
  split <;> simp

@[simp] theorem Core.revokeFills_rst (c : Core) : (Core.revokeFills c).rst = c.rst := by
  simp -implicitDefEqProofs [Core.revokeFills, Core.foldl_rst]

@[simp] theorem Mach.loadPrograms_rst (p : Plan) (d : Nat) (m : Mach) : (m.loadPrograms p d).core.rst = m.core.rst := by
  unfold Mach.loadPrograms
  split
  · rfl
  · refine Mach.foldl_rst (fun m x => ?_) _ m
    split
    · simp
    · rfl

@[simp] theorem Core.loadPlan_rst (p : Plan) (img : List Byte) (c : Core) : (Core.loadPlan p img c).rst = c.rst := by
  unfold Core.loadPlan
  dsimp only
  split <;> simp

@[simp] theorem Core.dropPlan_rst (h : Nat) (c : Core) : (Core.dropPlan h c).rst = c.rst := by
  unfold Core.dropPlan
  split <;> rfl

@[simp] theorem refuse_rst (status : Nat) (m : Mach) : (refuse status m).m.core.rst = m.core.rst := rfl

@[simp] theorem Core.stopForced_rst (h : Nat) (c : Core) : (Core.stopForced h c).rst = c.rst := by
  unfold Core.stopForced
  repeat' split
  all_goals simp

@[simp] theorem Core.dropForced_rst (h : Nat) (c : Core) : (Core.dropForced h c).rst = c.rst := by
  simp [Core.dropForced]

@[simp] theorem revoke_rst {undo : Mach → Mach} (undone : ∀ m, (undo m).core.rst = m.core.rst) (e : Ev) (force : Bool) (users : List Nat)
    (detail : Core → List Byte)
    (m : Mach) : (revoke e force users undo detail m).m.core.rst = m.core.rst := by
  unfold revoke
  dsimp only
  split
  · exact undone m
  · split
    · rfl
    · split
      · exact (undone _).trans (Mach.foldl_rst (fun m h => by simp) users m)
      · exact Mach.foldl_rst (fun m h => by simp) users m

@[simp] theorem Mach.clear_rst (k : Nat) (n : Nat) (m : Mach) : (Mach.clear k n m).core.rst = m.core.rst := by
  simp [Mach.clear]

@[simp] theorem Core.dropPart_rst (t : TenantId) (p : Nat) (c : Core) : (Core.dropPart t p c).rst = c.rst := rfl

@[simp] theorem Core.grantPart_rst (t : TenantId) (excl : Bool) (p : Nat) (c : Core) : (Core.grantPart t excl p c).rst = c.rst := rfl

@[simp] theorem leasePartition_rst (e : Ev) (t : TenantId) (mask : Nat) (op : Nat) (m : Mach) : (leasePartition e t mask op m).m.core.rst = m.core.rst := by
  unfold leasePartition
  dsimp only
  repeat' split
  all_goals simp -implicitDefEqProofs [Mach.foldl_rst]

@[simp] theorem leaseGranules_rst (e : Ev) (t : TenantId) (p : Nat) (op : Nat) (mask : Nat) (m : Mach) :
    (leaseGranules e t p op mask m).m.core.rst = m.core.rst := by
  unfold leaseGranules
  dsimp only
  repeat' split
  all_goals simp -implicitDefEqProofs [Mach.foldl_rst]

@[simp] theorem leaseHbm_rst (e : Ev) (t : TenantId) (p : Nat) (op : Nat) (first : Nat) (n : Nat) (m : Mach) :
    (leaseHbm e t p op first n m).m.core.rst = m.core.rst := by
  unfold leaseHbm
  dsimp only
  repeat' split
  all_goals simp -implicitDefEqProofs [Mach.foldl_rst]

@[simp] theorem leaseBandwidth_rst (e : Ev) (t : TenantId) (p : Nat) (op : Nat) (rate : Nat) (m : Mach) :
    (leaseBandwidth e t p op rate m).m.core.rst = m.core.rst := by
  unfold leaseBandwidth
  dsimp only
  split
  · rfl
  · refine revoke_rst ?_ ..
    exact fun m => rfl

@[simp] theorem leaseLink_rst (e : Ev) (t : TenantId) (op : Nat) (mask : Nat) (m : Mach) : (leaseLink e t op mask m).m.core.rst = m.core.rst := by
  unfold leaseLink
  dsimp only
  repeat' split
  all_goals simp -implicitDefEqProofs [Mach.foldl_rst]

@[simp] theorem Core.dropLeases_rst (t : TenantId) (c : Core) : (Core.dropLeases t c).rst = c.rst := rfl

@[simp] theorem ckptTargetSet_rst (a : Accepted) (data : List Byte) (m : Mach) : (ckptTargetSet a data m).m.core.rst = m.core.rst := by
  unfold ckptTargetSet
  repeat' split
  all_goals simp

@[simp] theorem ckptKeySet_rst (a : Accepted) (m : Mach) : (ckptKeySet a m).m.core.rst = m.core.rst := rfl

@[simp] theorem snapSchedule_rst (e : Ev) (a : Accepted) (b : List Byte) (m : Mach) : (snapSchedule e a b m).m.core.rst = m.core.rst := by
  unfold snapSchedule
  dsimp only
  split
  · simp
  · split
    · simp
    split
    · simp
    split
    · simp
    split
    · simp
    split
    · simp
    split
    · simp
    · rw [Mach.up_core]
      split <;> simp

@[simp] theorem snapNow_rst (a : Accepted) (m : Mach) : (snapNow a m).m.core.rst = m.core.rst := by
  unfold snapNow
  dsimp only
  repeat' split
  all_goals simp

@[simp] theorem spoolRate_rst (a : Accepted) (m : Mach) : (spoolRate a m).m.core.rst = m.core.rst := rfl

@[simp] theorem snapAbandon_rst (a : Accepted) (m : Mach) : (snapAbandon a m).m.core.rst = m.core.rst := by
  unfold snapAbandon
  dsimp only
  repeat' split
  all_goals simp

@[simp] theorem snapQuery_rst (a : Accepted) (m : Mach) : (snapQuery a m).m.core.rst = m.core.rst := by
  unfold snapQuery
  dsimp only
  repeat' split
  all_goals simp

@[simp] theorem Mach.putAt_rst (p : Plan) (off : Nat) (bs : List Byte) (m : Mach) : (m.putAt p off bs).core.rst = m.core.rst := by
  refine Mach.foldl_rst (fun m e => ?_) _ m
  split
  · simp
  · rfl

theorem CmdOut.ite_rst {P : Prop} [Decidable P] {a b : CmdOut} {r : Rst} (ha : a.m.core.rst = r) (hb : b.m.core.rst = r) :
    (if P then a else b).m.core.rst = r := by
  split
  · exact ha
  · exact hb

@[simp] theorem restore_rst (a : Accepted) (buf : List Byte) (man : Option (List Byte)) (reads : Option (List (List (List Byte)))) (m : Mach) :
    (restore a buf man reads m).m.core.rst = m.core.rst := by
  unfold restore
  extract_lets c h t tgt keyId exportOk reshape n sealBytes loads ready
  generalize c.plan? h = plan
  cases plan with
  | none => rfl
  | some p =>
  dsimp -zeta only
  extract_lets lm
  refine CmdOut.ite_rst rfl (CmdOut.ite_rst rfl (CmdOut.ite_rst rfl ?_))
  clear_value ready
  generalize lookup? (t, keyId) c.spool.keys = key, readSealMap sealBytes = seals
  rcases key with _ | key
  · rfl
  rcases seals with _ | es
  · rfl
  rcases man with _ | b
  · rfl
  dsimp -zeta only
  extract_lets kind hdr g old shards fits names step j
  refine CmdOut.ite_rst rfl (CmdOut.ite_rst rfl (CmdOut.ite_rst rfl ?_))
  rcases reads with _ | ps
  · rfl
  dsimp -zeta only
  extract_lets good m1 m2
  refine CmdOut.ite_rst rfl (CmdOut.ite_rst rfl ?_)
  have put : m1.core.rst = m.core.rst := Mach.foldl_rst (fun m x => by dsimp only; simp) _ m
  have counted : m2.core.rst = m1.core.rst := by simp [m2]
  rw [← put, ← counted]
  refine CmdOut.ite_rst ?_ (by simp)
  dsimp only
  split <;> simp

@[simp] theorem planAdmit_rst (e : Ev) (a : Accepted) (img : List Byte) (m : Mach) : (planAdmit e a img m).m.core.rst = m.core.rst := by
  unfold planAdmit
  split <;> simp -implicitDefEqProofs [Mach.foldl_rst]

@[simp] theorem planWithdraw_rst (e : Ev) (a : Accepted) (m : Mach) : (planWithdraw e a m).m.core.rst = m.core.rst := by
  unfold planWithdraw
  dsimp only
  repeat' split
  all_goals simp

@[simp] theorem jobLaunch_rst (e : Ev) (a : Accepted) (smap : List Byte) (m : Mach) : (jobLaunch e a smap m).m.core.rst = m.core.rst := by
  unfold jobLaunch
  dsimp only
  repeat' split
  all_goals simp

@[simp] theorem jobQuery_rst (a : Accepted) (m : Mach) : (jobQuery a m).m.core.rst = m.core.rst := by
  unfold jobQuery
  repeat' split
  all_goals simp

@[simp] theorem dataPut_rst (a : Accepted) (data : List Byte) (m : Mach) : (dataPut a data m).m.core.rst = m.core.rst := by
  unfold dataPut
  repeat' split
  all_goals simp

@[simp] theorem dataGet_rst (a : Accepted) (m : Mach) : (dataGet a m).m.core.rst = m.core.rst := by
  unfold dataGet
  repeat' split
  all_goals simp

@[simp] theorem sliceCreate_rst (e : Ev) (a : Accepted) (m : Mach) : (sliceCreate e a m).m.core.rst = m.core.rst := by
  unfold sliceCreate
  dsimp only
  repeat' split
  all_goals simp

@[simp] theorem sliceDelete_rst (e : Ev) (a : Accepted) (m : Mach) : (sliceDelete e a m).m.core.rst = m.core.rst := by
  unfold sliceDelete
  repeat' split
  all_goals simp

@[simp] theorem evalOp_rst (e : Ev) (a : Accepted) (data : List Byte) (m : Mach) : (evalOp e a data m).m.core.rst = m.core.rst := by
  unfold evalOp
  split <;> simp

@[simp] theorem evalStaged_rst (t : TenantId) (since : Option Nat) (ss : List Staged) (i : Nat) (m : Mach) :
    (evalStaged t since ss i m).2.core.rst = m.core.rst := by
  induction ss generalizing i m with
  | nil => rfl
  | cons s ss ih =>
    unfold evalStaged
    dsimp only
    split
    · rw [ih]
      simp
    · rfl

@[simp] theorem Core.disableTenant_rst (t : TenantId) (c : Core) : (Core.disableTenant t c).rst = c.rst := by
  simp -implicitDefEqProofs [Core.disableTenant, Core.foldl_rst]

@[simp] theorem forceNow_rst (a : Accepted) (m : Mach) : (forceNow a m).m.core.rst = m.core.rst := by
  unfold forceNow
  split <;> simp

@[simp] theorem Mach.view_rst (m : Mach) : (Mach.view m).rst = m.core.rst := by
  simp -implicitDefEqProofs [Mach.view, Mach.foldl_rst]

@[simp] theorem Core.setTxn_rst (t : TenantId) (a : Option Txn) (c : Core) : (Core.setTxn t a c).rst = c.rst := rfl

@[simp] theorem stage_rst (a : Accepted) (data : List Byte) (m : Mach) : (stage a data m).m.core.rst = m.core.rst := by
  unfold stage
  dsimp only
  repeat' split
  all_goals simp

@[simp] theorem txnBegin_rst (a : Accepted) (m : Mach) : (txnBegin a m).m.core.rst = m.core.rst := by
  unfold txnBegin
  dsimp only
  split <;> simp

@[simp] theorem txnCommit_rst (a : Accepted) (m : Mach) : (txnCommit a m).m.core.rst = m.core.rst := by
  unfold txnCommit
  dsimp only
  repeat' split
  all_goals simp

@[simp] theorem txnRollback_rst (a : Accepted) (m : Mach) : (txnRollback a m).m.core.rst = m.core.rst := by
  unfold txnRollback
  repeat' split
  all_goals simp

@[simp] theorem txnQuery_rst (a : Accepted) (m : Mach) : (txnQuery a m).m.core.rst = m.core.rst := by
  unfold txnQuery
  split <;> rfl

@[simp] theorem runCmd_rst {eval : Ev → Accepted → Mach → CmdOut} (leaves : ∀ e a m, (eval e a m).m.core.rst = m.core.rst) (op : Nat) (t : TenantId) (sq : Nat)
    (tag : BitVec 32) (bufOk : Bool) (data : List Byte) (m : Mach) : (runCmd op t sq tag bufOk data eval m).core.rst = m.core.rst := by
  unfold runCmd
  split
  · rfl
  · extract_lets staging o
    have ran : o.m.core.rst = m.core.rst := by
      simp only [o]
      repeat' split
      all_goals simp [leaves]
    split <;> simp [ran]

@[simp] theorem runStageable_rst (op : Nat) (t : TenantId) (sq : Nat) (tag : BitVec 32) (bufOk : Bool) (data : List Byte) (m : Mach) :
    (runStageable op t sq tag bufOk data m).core.rst = m.core.rst := by
  simp [runStageable]

@[simp] theorem Core.modQueue_rst (t : TenantId) (qn : Nat) (f : Queue → Queue) (c : Core) : (Core.modQueue t qn f c).rst = c.rst := rfl

@[simp] theorem sqDoorbell_rst (t : TenantId) (qn : Nat) (v : BitVec 32) (c : Core) : (sqDoorbell t qn v c).rst = c.rst := by
  unfold sqDoorbell
  repeat' split
  all_goals simp

@[simp] theorem Core.drainFifo_rst (t : TenantId) (n : Nat) (c : Core) : (Core.drainFifo t n c).rst = c.rst := by
  induction n generalizing c with
  | zero => rfl
  | succ n ih =>
    unfold Core.drainFifo
    split
    · split
      · rw [ih]
        simp
      · rfl
    · rfl

@[simp] theorem cqDoorbell_rst (t : TenantId) (qn : Nat) (v : BitVec 32) (c : Core) : (cqDoorbell t qn v c).rst = c.rst := by
  unfold cqDoorbell
  repeat' split
  all_goals simp

@[simp] theorem rqDoorbell_rst (t : TenantId) (qn : Nat) (tag : BitVec 32) (c : Core) : (rqDoorbell t qn tag c).rst = c.rst := by
  unfold rqDoorbell
  repeat' split
  all_goals simp

@[simp] theorem fetch_rst (t : TenantId) (qn : Nat) (packet : Option Fetched) (c : Core) : (fetch t qn packet c).rst = c.rst := by
  unfold fetch
  dsimp only
  repeat' split
  all_goals simp

@[simp] theorem apertureRead_course (t : TenantId) (addr : Nat) (n : Nat) (found : List MemErr) (m : Mach) :
    (apertureRead t addr n found m).core.rst.course = m.core.rst.course := by
  simp -implicitDefEqProofs [apertureRead, apply_ite Mach.core, apply_ite Core.rst, apply_ite Rst.course]

@[simp] theorem apertureWrite_rst (t : TenantId) (addr : Nat) (bs : List Byte) (ep : Bool) (m : Mach) :
    (apertureWrite t addr bs ep m).core.rst = m.core.rst := by
  unfold apertureWrite
  extract_lets c ks keys bad units
  split
  · rfl
  · split
    · simp
    · refine Mach.foldl_rst (fun m u => ?_) units m
      dsimp only
      split
      · rfl
      · split <;> simp

@[simp] theorem Core.dedicate_rst (t : TenantId) (c : Core) : (Core.dedicate t c).rst = c.rst := by
  simp -implicitDefEqProofs [Core.dedicate, Core.foldl_rst]

@[simp] theorem queueCreate_rst (e : Ev) (a : Accepted) (m : Mach) : (queueCreate e a m).m.core.rst = m.core.rst := by
  unfold queueCreate
  dsimp only
  repeat' split
  all_goals simp

@[simp] theorem Core.dropQueue_rst (t : TenantId) (qn : Nat) (c : Core) : (Core.dropQueue t qn c).rst = c.rst := rfl

@[simp] theorem queueDelete_rst (a : Accepted) (m : Mach) : (queueDelete a m).m.core.rst = m.core.rst := by
  unfold queueDelete
  dsimp only
  repeat' split
  all_goals simp

@[simp] theorem deleteWaiting_rst (t : TenantId) (sq : Nat) (tag : BitVec 32) (m : Mach) : (deleteWaiting t sq tag m).core.rst = m.core.rst := by
  unfold deleteWaiting
  repeat' split
  all_goals simp

@[simp] theorem Core.rebindArrays_rst (p : Nat) (c : Core) : (Core.rebindArrays p c).rst = c.rst := by
  unfold Core.rebindArrays
  extract_lets old out c0
  refine (Core.foldl_rst (fun c a => ?_) _ c0).trans (by simp [c0])
  split <;> simp

@[simp] theorem Core.rebindCores_rst (p : Nat) (c : Core) : (Core.rebindCores p c).rst = c.rst := by
  unfold Core.rebindCores
  split <;> rfl

@[simp] theorem Mach.rebindBanks_rst (p : Nat) (m : Mach) : (Mach.rebindBanks p m).core.rst = m.core.rst := by
  unfold Mach.rebindBanks
  generalize 2 ^ 24 = bytes, 2 ^ 18 = units
  extract_lets out m0 mp k
  have cleared : m0.core.rst = m.core.rst := by rw [Mach.up_core, Core.modMem_rst]
  clear_value m0 k
  split
  · split
    · rfl
    · exact cleared
  · extract_lets m1 m2
    have filled : m1.core.rst = m0.core.rst := by rw [Mach.up_core, Core.wrote_rst, Core.modMem_rst, Mach.write_rst, Mach.write_rst]
    clear_value m1
    have loaded : m2.core.rst = m1.core.rst := Mach.foldl_rst (fun m pl => m.loadPrograms_rst pl p) _ m1
    clear_value m2
    rw [← cleared, ← filled, ← loaded, Mach.up_core]
    exact Core.foldl_rst (fun c pl => by split <;> simp) _ m2.core

@[simp] theorem Core.rebindChannel_rst (p : Nat) (c : Core) : (Core.rebindChannel p c).rst = c.rst := by
  unfold Core.rebindChannel
  dsimp only
  split <;> simp

@[simp] theorem Mach.rebindPart_rst (p : Nat) (m : Mach) : (Mach.rebindPart p m).core.rst = m.core.rst := by
  simp [Mach.rebindPart]

@[simp] theorem Mach.rebindAll_rst (m : Mach) : (Mach.rebindAll m).core.rst = m.core.rst := by
  simp -implicitDefEqProofs [Mach.rebindAll, Mach.foldl_rst]

@[simp] theorem Core.resumeCopy_rst (p : Nat) (c : Core) : (Core.resumeCopy p c).rst = c.rst := by
  unfold Core.resumeCopy
  repeat' split
  all_goals simp

@[simp] theorem Mach.wipe_rst (k : Nat) (n : Nat) (m : Mach) : (Mach.wipe k n m).core.rst = m.core.rst := rfl

@[simp] theorem Mach.clearPart_rst (p : Nat) (m : Mach) : (Mach.clearPart p m).core.rst = m.core.rst := rfl

@[simp] theorem Mach.writeHead_rst (h : HangRun) (m : Mach) : (Mach.writeHead h m).core.rst = m.core.rst := by
  simp [Mach.writeHead]

@[simp] theorem Mach.writeCapture_rst (h : HangRun) (m : Mach) : (Mach.writeCapture h m).core.rst = m.core.rst := by
  simp -implicitDefEqProofs [Mach.writeCapture, Mach.foldl_rst]

@[simp] theorem Core.noticeRollback_rst (h : Nat) (l : StepNo) (c : Core) : (Core.noticeRollback h l c).rst = c.rst := rfl

@[simp] theorem Core.partStop_rst (h : Nat) (c : Core) : (Core.partStop h c).rst = c.rst := by
  unfold Core.partStop
  repeat' split
  all_goals simp

@[simp] theorem Core.stopGuilty_rst (h : Nat) (c : Core) : (Core.stopGuilty h c).rst = c.rst := by
  unfold Core.stopGuilty
  split <;> simp

@[simp] theorem Core.remoteHang_rst (h : Nat) (c : Core) : (Core.remoteHang h c).rst = c.rst := by
  unfold Core.remoteHang
  dsimp only
  repeat' split
  all_goals simp

@[simp] theorem Core.tenantReset_rst (t : TenantId) (c : Core) : (Core.tenantReset t c).rst = c.rst := rfl

@[simp] theorem functionReset_rst (f : Nat) (c : Core) : (functionReset f c).rst = c.rst := by
  simp -implicitDefEqProofs [functionReset, Core.foldl_rst, apply_ite Core.rst]

@[simp] theorem Core.portReset_rst (i : Nat) (c : Core) : (Core.portReset i c).rst = c.rst := by
  unfold Core.portReset
  dsimp only
  split <;> simp

@[simp] theorem Core.storageReset_rst (i : Nat) (c : Core) : (Core.storageReset i c).rst = c.rst := by
  simp -implicitDefEqProofs [Core.storageReset, Core.foldl_rst]

@[simp] theorem Core.tripRecord_rst (p : Power) (c : Core) : (Core.tripRecord p c).rst = c.rst := by
  unfold Core.tripRecord
  split <;> rfl

@[simp] theorem Mach.rejoin_rst (h : Nat) (m : Mach) : (Mach.rejoin h m).core.rst = m.core.rst := by
  unfold Mach.rejoin
  dsimp only
  repeat' split
  all_goals simp

@[simp] theorem Core.leaveService_course (c : Core) : (Core.leaveService c).rst.course = c.rst.course := by
  simp -implicitDefEqProofs [Core.leaveService, Core.foldl_course, apply_ite Core.rst, apply_ite Rst.course]

@[simp] theorem Mach.spoolAgain_rst (m : Mach) : (Mach.spoolAgain m).core.rst = m.core.rst := by
  unfold Mach.spoolAgain
  extract_lets m1 m2 m3
  have connected : m1.core.rst = m.core.rst := Core.foldl_rst (fun c e => by simp) _ m.core
  have written : m2.core.rst = m1.core.rst := Core.foldl_rst (fun c r => by split <;> (try split) <;> simp) _ m1.core
  have zeroed : m3.core.rst = m2.core.rst := Core.foldl_rst (fun c s => by split <;> simp) _ m2.core
  simp [zeroed, written, connected]

@[simp] theorem Mach.reload_rst (p : Nat) (m : Mach) : (Mach.reload p m).core.rst = m.core.rst := by
  simp -implicitDefEqProofs [Mach.reload, Mach.foldl_rst]

@[simp] theorem Mach.rewriteSeals_rst (p : Nat) (pieces : List MirrorPiece) (h : Nat) (m : Mach) : (Mach.rewriteSeals p pieces h m).core.rst = m.core.rst := by
  unfold Mach.rewriteSeals
  split
  · split
    · rfl
    · extract_lets l exts here
      split
      · exact Mach.foldl_rst (fun m e => by split <;> simp) here m
      · simp
  · rfl

@[simp] theorem Core.takeTemps_rst (rs : List Reading) (c : Core) : (Core.takeTemps rs c).rst = c.rst := rfl

@[simp] theorem Core.takeVolts_rst (rs : List Reading) (c : Core) : (Core.takeVolts rs c).rst = c.rst := rfl

@[simp] theorem Core.pmAlert_rst (old : Power) (p : Power) (c : Core) : (Core.pmAlert old p c).rst = c.rst := by
  unfold Core.pmAlert
  split <;> rfl

@[simp] theorem Core.loseRetiring_rst (c : Core) : (Core.loseRetiring c).rst = c.rst := rfl

@[simp] theorem Mach.haltJobs_rst (m : Mach) : (Mach.haltJobs m).core.rst = m.core.rst := by
  simp -implicitDefEqProofs [Mach.haltJobs, Mach.foldl_rst, apply_ite Mach.core, apply_ite Core.rst]

@[simp] theorem Core.block_rst (p : Power) (cmd : Byte) (bs : List Byte) (c : Core) : (Core.block p cmd bs c).rst = c.rst := rfl

@[simp] theorem Core.checkChans_rst (h : Nat) (c : Core) : (Core.checkChans h c).rst = c.rst := by
  unfold Core.checkChans
  dsimp only
  repeat' split
  all_goals simp -implicitDefEqProofs [Core.foldl_rst]

@[simp] theorem Mach.edgeChecks_rst (hs : List Nat) (m : Mach) : (Mach.edgeChecks hs m).core.rst = m.core.rst := by
  simp -implicitDefEqProofs [Mach.edgeChecks, Mach.foldl_rst]

@[simp] theorem Mach.edgeForces_rst (m : Mach) : (Mach.edgeForces m).core.rst = m.core.rst := by
  simp -implicitDefEqProofs [Mach.edgeForces, Mach.foldl_rst]

@[simp] theorem Mach.edgeCommits_rst (edge : BitVec 64) (m : Mach) : (m.edgeCommits edge).core.rst = m.core.rst := by
  refine Mach.foldl_rst (fun m x => ?_) _ m
  dsimp only
  split <;> simp

@[simp] theorem Core.withdrawNow_rst (edge : BitVec 64) (h : Nat) (c : Core) : (Core.withdrawNow edge h c).rst = c.rst := by
  unfold Core.withdrawNow
  split <;> simp -implicitDefEqProofs [Core.foldl_rst]

@[simp] theorem Core.edgeWithdraws_rst (edge : BitVec 64) (ended : List Nat) (c : Core) : (Core.edgeWithdraws edge ended c).rst = c.rst := by
  simp -implicitDefEqProofs [Core.edgeWithdraws, Core.foldl_rst]

@[simp] theorem Core.sampleRequest_rst (p : Plan) (c : Core) : (Core.sampleRequest p c).2.rst = c.rst := by
  unfold Core.sampleRequest
  dsimp only
  repeat' split
  all_goals simp

@[simp] theorem Core.stepDone_rst (p : Plan) (j : Job) (c : Core) : (Core.stepDone p j c).rst = c.rst := by
  unfold Core.stepDone
  split <;> simp

@[simp] theorem Mach.nextStep_rst (h : Nat) (m : Mach) : (m.nextStep h).core.rst = m.core.rst := by
  unfold Mach.nextStep
  split
  · rfl
  · next p _ =>
    have sampled := m.core.sampleRequest_rst p
    split
    · split
      · next eq =>
        rw [eq] at sampled
        simpa using sampled
      · next eq =>
        rw [eq] at sampled
        simpa using sampled
    · simp

@[simp] theorem Core.passEdge_rst (avail : Nat) (c : Core) : (Core.passEdge avail c).rst = c.rst := rfl

@[simp] theorem Core.slip_rst (avail : Nat) (h : Nat) (c : Core) : (Core.slip avail h c).rst = c.rst := by
  unfold Core.slip
  split <;> simp -implicitDefEqProofs [Core.foldl_rst]

@[simp] theorem Mach.nextBeat_rst (h : Nat) (m : Mach) : (Mach.nextBeat h m).core.rst = m.core.rst := by
  unfold Mach.nextBeat
  repeat' split
  all_goals simp

@[simp] theorem Mach.edgeJob_rst (edge : BitVec 64) (avail : Nat) (ends : Bool) (h : Nat) (m : Mach) :
    (Mach.edgeJob edge avail ends h m).core.rst = m.core.rst := by
  unfold Mach.edgeJob
  dsimp only
  repeat' split
  all_goals simp

@[simp] theorem Core.edgeRemaps_rst (edge : BitVec 64) (c : Core) : (Core.edgeRemaps edge c).rst = c.rst := by
  simp -implicitDefEqProofs [Core.edgeRemaps, Core.foldl_rst]

@[simp] theorem Core.clearBeat_rst (c : Core) : (Core.clearBeat c).rst = c.rst := rfl

@[simp] theorem Mach.edgeSteps_course (edge : BitVec 64) (avail : Nat) (m : Mach) : (Mach.edgeSteps edge avail m).core.rst.course = m.core.rst.course := by
  simp -implicitDefEqProofs [Mach.edgeSteps, Mach.foldl_course, apply_ite Core.rst]

@[simp] theorem agingSample_rst (die : Nat) (index : Nat) (ppm : BitVec 32) (c : Core) : (agingSample die index ppm c).rst = c.rst := by
  simp -implicitDefEqProofs [agingSample, apply_ite Core.rst]

@[simp] theorem sensorMismatch_rst (r : Reading) (c : Core) : (sensorMismatch r c).rst = c.rst := by
  unfold sensorMismatch
  dsimp only
  split <;> simp

@[simp] theorem storePkg_rst (b : List Byte) (c : Core) : (storePkg b c).2.rst = c.rst := by
  unfold storePkg
  split <;> rfl

@[simp] theorem forwardPkg_rst (d : Nat) (b : List Byte) (c : Core) : (forwardPkg d b c).rst = c.rst := by
  simp -implicitDefEqProofs [forwardPkg, Core.foldl_rst]

@[simp] theorem rejectPkg_rst (c : Core) : (rejectPkg c).rst = c.rst := rfl

@[simp] theorem Core.retireUnit_course (die : Nat) (block : Nat) (inst : Nat) (c : Core) : (Core.retireUnit die block inst c).rst.course = c.rst.course := by
  unfold Core.retireUnit
  dsimp only
  repeat' split
  all_goals simp

@[simp] theorem Core.countSentinel_course (die : Nat) (block : Nat) (inst : Nat) (c : Core) :
    (Core.countSentinel die block inst c).rst.course = c.rst.course := by
  unfold Core.countSentinel
  dsimp only
  repeat' split
  all_goals simp

theorem Core.fullRunEnd_course (passed : Bool) (c : Core) : (c.fullRunEnd passed).rst.course = c.rst.course := by
  unfold Core.fullRunEnd
  dsimp only
  split <;> rfl

@[simp] theorem testDone_course (test : BitVec 16) (die : Nat) (block : Nat) (inst : Nat) (pass : Bool) (last : Bool) (c : Core) :
    (testDone test die block inst pass last c).rst.course = c.rst.course := by
  unfold testDone
  split
  · rfl
  · split
    · rfl
    · have ended : ∀ (r : Option SentRun) (d : Core), (match r with
          | some r => if last then (let c3 := d.modHealth (fun h => { h with run := none }); if r.scope = 2 then c3.fullRunEnd (!r.failed) else c3) else d
          | none => d).rst.course = d.rst.course := fun r d => by
        split
        · split
          · dsimp only
            split <;> simp [Core.fullRunEnd_course]
          · rfl
        · rfl
      dsimp only
      refine (ended _ _).trans ?_
      split
      · simp
      · split <;> simp

@[simp] theorem Core.undo_rst (a : Accepted) (c : Core) : (Core.undo a c).rst = c.rst := by
  unfold Core.undo
  repeat' split
  all_goals simp

@[simp] theorem volezFailover_course (c : Core) : (volezFailover c).rst.course = c.rst.course := by
  simp -implicitDefEqProofs [volezFailover, Core.foldl_course, apply_ite Core.rst, apply_ite Rst.course]

@[simp] theorem ledgerFailover_course (k : Nat) (c : Core) : (ledgerFailover k c).rst.course = c.rst.course := by
  simp -implicitDefEqProofs [ledgerFailover, apply_ite Core.rst, apply_ite Rst.course]

@[simp] theorem Core.latchCount_rst (c : Core) : (Core.latchCount c).rst = c.rst := rfl

@[simp] theorem readGives_rst (p : Power) (mem : Mem) (a : RegAcc) (vol : Bool) (c : Core) : (readGives p mem a vol c).2.rst = c.rst := by
  unfold readGives
  dsimp only
  repeat' split
  all_goals simp

@[simp] theorem readAccess_rst (p : Power) (mem : Mem) (a : RegAcc) (vol : Bool) (c : Core) : (readAccess p mem a vol c).rst = c.rst := by
  simp [readAccess]

@[simp] theorem clearCounts_rst (p : Nat) (c : Core) : (clearCounts p c).rst = c.rst := rfl

@[simp] theorem clearHold_rst (p : Nat) (c : Core) : (clearHold p c).rst = c.rst := rfl

@[simp] theorem clearSkip_rst (p : Nat) (c : Core) : (clearSkip p c).rst = c.rst := rfl

@[simp] theorem clearSlips_rst (p : Nat) (c : Core) : (clearSlips p c).rst = c.rst := rfl

@[simp] theorem clearEcc_rst (p : Nat) (c : Core) : (clearEcc p c).rst = c.rst := rfl

@[simp] theorem clearStream_rst (p : Nat) (flags : BitVec 3) (c : Core) : (clearStream p flags c).rst = c.rst := rfl

@[simp] theorem clearLost_rst (c : Core) : (clearLost c).rst = c.rst := rfl

@[simp] theorem clearErr_rst (i : Nat) (c : Core) : (clearErr i c).rst = c.rst := rfl

@[simp] theorem portDisable_rst (i : Nat) (on : Bool) (c : Core) : (portDisable i on c).rst = c.rst := by
  simp -implicitDefEqProofs [portDisable, apply_ite Core.rst]

@[simp] theorem clearAborts_rst (l : Nat) (c : Core) : (clearAborts l c).rst = c.rst := rfl

@[simp] theorem clearKite_rst (l : Nat) (c : Core) : (clearKite l c).rst = c.rst := rfl

@[simp] theorem clearReplays_rst (c : Core) : (clearReplays c).rst = c.rst := rfl

@[simp] theorem clearHighWater_rst (k : Nat) (c : Core) : (clearHighWater k c).rst = c.rst := rfl

@[simp] theorem clearSpoolErrs_rst (c : Core) : (clearSpoolErrs c).rst = c.rst := rfl

@[simp] theorem clearSpoolBytes_rst (c : Core) : (clearSpoolBytes c).rst = c.rst := rfl

@[simp] theorem clearOvr_course (c : Core) : (clearOvr c).rst.course = c.rst.course := rfl

@[simp] theorem clearTen_rst (t : Nat) (c : Core) : (clearTen t c).rst = c.rst := rfl

@[simp] theorem clearAperture_rst (t : Nat) (c : Core) : (clearAperture t c).rst = c.rst := rfl

@[simp] theorem adminEnable_rst (t : Nat) (c : Core) : (adminEnable t c).rst = c.rst := by
  simp -implicitDefEqProofs [adminEnable, apply_ite Core.rst]

@[simp] theorem adminDisable_rst (t : Nat) (c : Core) : (adminDisable t c).rst = c.rst := by
  simp [adminDisable]

theorem onBit_rst {f : Core → Core} (leaves : ∀ c, (f c).rst = c.rst) (b : Bool) (c : Core) : (onBit b f c).rst = c.rst := by
  unfold onBit
  split
  · exact leaves c
  · rfl

theorem regWrite_course (blk inst off : Nat) (mask v : BitVec 64) (c : Core) : (regWrite blk inst off mask v c).rst.course = c.rst.course := by
  unfold regWrite
  dsimp only
  split
  case h_3 => rfl
  all_goals simp [onBit, apply_ite Core.rst, apply_ite Rst.course]

@[simp] theorem writeAccess_course (a : RegAcc) (v : BitVec 64) (vol : Bool) (c : Core) : (writeAccess a v vol c).rst.course = c.rst.course := by
  unfold writeAccess
  dsimp only
  split
  · split
    · exact regWrite_course ..
    · rfl
  · split
    · rfl
    · simp

@[simp] theorem regAnswer_rst (p : Power) (f : Frame) (m : Mach) : (regAnswer p f m).core.rst = m.core.rst := by
  simp [regAnswer]

@[simp] theorem reissue_course (granted : Bool) (i : Instr) (m : Mach) : (reissue granted i m).core.rst.course = m.core.rst.course := by
  unfold reissue
  split <;> simp

@[simp] theorem reissueAll_course (granted : Bool) (qs : List Held) (m : Mach) : (reissueAll granted qs m).core.rst.course = m.core.rst.course := by
  induction qs generalizing granted m with
  | nil => rfl
  | cons q qs ih =>
    unfold reissueAll
    split
    · rw [ih]
      simp
    · exact ih ..

@[simp] theorem holdRelease_course (granted : Bool) (plan : Nat) (cycles : Nat) (m : Mach) :
    (holdRelease granted plan cycles m).core.rst.course = m.core.rst.course := by
  unfold holdRelease
  dsimp only
  repeat' split
  all_goals simp

@[simp] theorem startGrant_course (plan : Nat) (cycles : Nat) (m : Mach) : (startGrant plan cycles m).core.rst.course = m.core.rst.course := by
  unfold startGrant
  repeat' split
  all_goals simp

end Sys2Proof.Machine
end

section
/-!
Partition resets and their end (14 R477, R482, R484, R492).
-/

namespace Sys2Proof.Machine

/-! ### A partition reset by containment -/

theorem Mach.contain_of_free {m : Mach} {p : Nat} (ready : m.core.rst.phase = 6) (shared : m.core.ident.dedicated = none) :
    m.contain (some p) = m.partReset p true := by
  simp [Mach.contain, ready, shared]

theorem Mach.contain_discarded {m : Mach} {p : Nat}
    (not : m.core.rst.phase ≠ 6 ∨ m.core.ident.dedicated = none ∧ m.core.rst.parts.contains p = true) : m.contain (some p) = m := by
  rcases not with busy | ⟨shared, running⟩
  · simp [Mach.contain, busy]
  · by_cases ready : m.core.rst.phase = 6
    · rw [Mach.contain_of_free ready shared]
      exact if_pos (by rw [running, Bool.or_true, Bool.true_or])
    · simp [Mach.contain, ready]

theorem Mach.contain_module {m : Mach} (ready : m.core.rst.phase = 6) : m.contain none = m.countedWarm 1 1 := by
  simp [Mach.contain, ready]

/-- The RAM that a partition reset wipes: its die's and its half of the Commons. -/
theorem Mach.partWiped_byte (p k : Nat) (m : Mach) :
    (onDie p k ∨ cmKey p 0 0 ≤ k ∧ k < cmKey p 0 0 + 48 * 2 ^ 24 → memByte (m.partWiped p).mem k = 0) ∧
    (¬onDie p k → ¬(cmKey p 0 0 ≤ k ∧ k < cmKey p 0 0 + 48 * 2 ^ 24) → memByte (m.partWiped p).mem k = memByte m.mem k) := by
  have die : onDie p k ↔ smKey p 0 0 ≤ k ∧ k < smKey p 0 0 + 33 * 2 ^ 24 := by
    unfold onDie smKey
    omega
  rw [Mach.partWiped, Mach.wipe_byte, Mach.wipe_byte, die]
  refine ⟨fun inside => ?_, fun outside commons => by rw [if_neg commons, if_neg outside]⟩
  rcases inside with here | commons
  · rw [if_pos here, ite_self]
  · rw [if_pos commons]

theorem Mach.partWiped_ext (p : Nat) (m : Mach) : Mach.Ext (fun _ => True) m (m.partWiped p) :=
  (Mach.wipe_ext trivial trivial m).trans (Mach.wipe_ext trivial trivial _)

/-- The parts of the state as a partition's sequence begins. -/
theorem Core.partBegun_part {p : Nat} {c : Core} (here : p < c.parts.length) (counted : Bool) (hs : List Nat) (now : BitVec 64) :
    (c.partBegun p counted hs now).part p = (c.part p).cleared ∧ (∀ q, q ≠ p → (c.partBegun p counted hs now).part q = c.part q) ∧
      (c.partBegun p counted hs now).plans = c.plans := by
  obtain ⟨js, os, eq⟩ := c.partBegun_frame p counted hs now
  have parts : (c.partBegun p counted hs now).parts = (c.modPart p Part.cleared).parts := by rw [eq]; rfl
  have same : ∀ q, (c.partBegun p counted hs now).part q = (c.modPart p Part.cleared).part q := fun q => by rw [Core.part, parts, Core.part]
  refine ⟨?_, fun q ne => ?_, by rw [eq]; rfl⟩
  · rw [same, Core.part_modPart, if_pos ⟨rfl, here⟩]
  · rw [same, Core.part_modPart, if_neg (fun h => ne h.1.symm)]

/-! ### The end of a partition's sequence (R484) -/

/-- The machine as a partition leaves its reset: the leasable extents of its stack are cleared (R485). -/
def Mach.partLeft (p : Nat) (m : Mach) : Mach :=
  (m.wipe (hbmKey p 0) (m.core.ident.leasableExt * 2 ^ 26)).up (fun c =>
    (c.wrote (hbmKey p 0) (m.core.ident.leasableExt * 2 ^ 20)).modRst (fun r => { r with parts := r.parts.filter (fun q => !(q == p)) }))

/-- The RESET commands of a partition answered (R488). -/
def Mach.partAnswer (p : Nat) (m : Mach) : Mach :=
  (m.core.resetReplies.filter (fun e => e.1 == p)).foldl (fun m e =>
    m.up (fun c => ({ c with resetReplies := c.resetReplies.erase e } : Core).reply e.2 0 (details [(8, 8, c.clk.count.toNat)]))) m

/-- A partition at Ready: its resources bound again, its programs written again and the seals on its stack taken from the mirror partner (R485). -/
def Mach.partRebound (p : Nat) (pieces : List MirrorPiece) (m : Mach) : Mach :=
  ((m.core.jobs.filter (m.core.usesPart p)).map (fun j => j.plan)).foldl (fun m h => m.rewriteSeals p pieces h)
    ((((m.rebindPart p).reload p).up (Core.resumeCopy p)).up Core.buildSlots)

/-- The hangs that stand as a partition reaches Ready. -/
def Rst.suspectsNext (p : Nat) (r : Rst) : Rst :=
  { r with hangs := (r.hangs.map (fun h => if h.part == p && h.outcome == 0 && h.released.isNone then h.next 0 else h)).filter (fun h => h.outcome == 0 || !(h.part == p)) }

theorem partReady_of_running {p : Nat} {m : Mach} (running : m.core.rst.parts.contains p = true) (pieces : List MirrorPiece) :
    partReady p pieces m = if 3 ≤ (m.partLeft p).core.partCount p then ((m.partLeft p).up (fun c => (c.partOut p).logRec (modRec 0x107 2 2 p 0 0))).partAnswer p
      else (((m.partLeft p).partRebound p pieces).up (Core.modRst (Rst.suspectsNext p))).partAnswer p :=
  if_neg (by rw [running]; decide)

theorem Mach.partLeft_rst (p : Nat) (m : Mach) : (m.partLeft p).core.rst = { m.core.rst with parts := m.core.rst.parts.filter (fun q => !(q == p)) } := by
  rw [Mach.partLeft, Mach.up_core, Core.modRst_rst, Core.wrote_rst, Mach.wipe_rst]

theorem Mach.partAnswer_rst (p : Nat) (m : Mach) : (m.partAnswer p).core.rst = m.core.rst := Mach.foldl_rst (fun m e => by simp) _ m

theorem Mach.partRebound_rst (p : Nat) (pieces : List MirrorPiece) (m : Mach) : (m.partRebound p pieces).core.rst = m.core.rst :=
  (Mach.foldl_rst (fun m h => m.rewriteSeals_rst p pieces h) _ _).trans (by simp)

/-- A partition's sequence that ends takes it from the list of those in reset, and moves no phase. -/
theorem partReady_rst {p : Nat} {m : Mach} (running : m.core.rst.parts.contains p = true) (pieces : List MirrorPiece) :
    ∃ hs, (partReady p pieces m).core.rst = { m.core.rst with parts := m.core.rst.parts.filter (fun q => !(q == p)), hangs := hs } := by
  rw [partReady_of_running running]
  split
  · rw [Mach.partAnswer_rst, Mach.up_core, Core.logRec_rst, Core.partOut_rst, Mach.partLeft_rst]
    exact ⟨_, rfl⟩
  · rw [Mach.partAnswer_rst, Mach.up_core, Core.modRst_rst, Mach.partRebound_rst, Mach.partLeft_rst]
    exact ⟨_, rfl⟩

/-- Settles O37: a containment resets one partition, or the module; the end of a partition's sequence takes it out of reset. -/
theorem partitionResetClearsOnlyItsPartition : Obligations.PartitionResetClearsOnlyItsPartition := by
  unfold Obligations.PartitionResetClearsOnlyItsPartition
  intro s
  refine ⟨fun p ready lt eight shared inService => ?_, fun p not => ?_, fun ready released => ?_, fun p running released => ?_, fun p pieces running => ?_⟩
  · obtain ⟨hs, effect⟩ := Mach.partReset_of_free (m := startMach s) ready inService lt true
    have runs : (startMach s).contain (some p) = ((startMach s).partWiped p).up (Core.partBegun p true hs s.core.clk.count) :=
      (Mach.contain_of_free ready shared).trans effect
    have rst := Core.partBegun_rst p true hs s.core.clk.count ((startMach s).partWiped p).core
    obtain ⟨cleared, others, plans⟩ := Core.partBegun_part (c := ((startMach s).partWiped p).core) (lt_of_lt_of_eq lt eight.symm) true hs s.core.clk.count
    have writes : Mach.Ext (fun _ => True) (startMach s) ((startMach s).contain (some p)) := runs ▸ (Mach.partWiped_ext p _).then_up _
    refine ⟨_, runM_ext writes, rfl, ?_⟩
    rw [runs]
    refine ⟨?_, ?_, fun k => (Mach.partWiped_byte p k (startMach s)).1, fun k => (Mach.partWiped_byte p k (startMach s)).2, ?_, ?_, others, plans⟩
    · rw [Mach.up_core, rst]
      exact (Rst.partRuns_reset ..).1
    · rw [Mach.up_core, rst]
      exact List.mem_append_right _ (List.mem_singleton_self _)
    · exact congrArg Part.streams cleared
    · exact congrArg Part.slots cleared
  · exact ⟨_, runM_up (f := Mach.contain (some p)) (g := id) (Mach.contain_discarded not), rfl, rfl, rfl⟩
  · obtain ⟨t, eq, core, -, pwr, -⟩ := runM_of_eq (f := Mach.contain none) (s := s) (Mach.contain_module ready)
    obtain ⟨phase, escCause, latched⟩ := Mach.countedWarm_rst (m := startMach s) released 1 (cause := 1) (by decide)
    rw [← core] at phase escCause latched
    exact ⟨t, eq, pwr, phase, latched ready, escCause⟩
  · obtain ⟨t, eq, core, -, pwr, -⟩ := runM_of_eq (f := fun m => if m.core.rst.parts.contains p then m.countedWarm 2 4 else m) (s := s) (if_pos running)
    obtain ⟨phase, escCause, -⟩ := Mach.countedWarm_rst (m := startMach s) released 2 (cause := 4) (by decide)
    rw [← core] at phase escCause
    exact ⟨t, eq, pwr, phase, escCause⟩
  · obtain ⟨hs, rst⟩ := partReady_rst (m := startMach s) running pieces
    have parts : (partReady p pieces (startMach s)).core.rst.parts.contains p = false := by
      rw [rst]
      simp
    exact ⟨_, rfl, rfl, parts, (congrArg Rst.phase rst :)⟩

end Sys2Proof.Machine
end

section
/-!
The phases of a reset sequence, firmware boot, Ready, function-level resets and the flash pin (14 R478 to R486, 15 R513 to R516).
-/

namespace Sys2Proof.Machine

/-! ### Firmware boot (15 R516) -/

theorem Core.bootFw_selected {c : Core} (ok : c.ident.imageOk c.ident.fwBoot = true) : c.bootFw.ident.fwRun = c.ident.fwBoot ∧ c.bootFw.rst = c.rst := by
  unfold Core.bootFw
  dsimp only
  rw [if_pos ok]
  exact ⟨rfl, rfl⟩

/-- The record FW_FALLBACK of a boot. -/
def Core.fallbackRec (c : Core) : Rec := { modRec 0x70D 4 2 0x20 0 0 with detail := bytesLE 1 c.ident.fwBoot }

theorem Core.bootFw_other {c : Core} (bad : c.ident.imageOk c.ident.fwBoot = false) (ok : c.ident.imageOk (1 - c.ident.fwBoot) = true) :
    c.bootFw.ident.fwRun = 1 - c.ident.fwBoot ∧ c.bootFw.log = (c.logRec c.fallbackRec).log ∧ c.bootFw.rst = c.rst := by
  unfold Core.bootFw
  dsimp only
  rw [if_neg (by rw [bad]; decide), if_pos ok]
  exact ⟨rfl, rfl, Core.logRec_rst _ _⟩

theorem Core.bootFw_neither {c : Core} (bad : c.ident.imageOk c.ident.fwBoot = false) (worse : c.ident.imageOk (1 - c.ident.fwBoot) = false) :
    c.bootFw = ((c.logRec c.fallbackRec).modRst (fun r => { r with recovery := true, faultN := true })).emit (.pin "FAULT_N" true) := by
  unfold Core.bootFw
  dsimp only
  rw [if_neg (by rw [bad]; decide), if_neg (by rw [worse]; decide)]
  rfl

theorem Core.bootFw_phase (c : Core) : c.bootFw.rst.phase = c.rst.phase := by
  unfold Core.bootFw
  dsimp only
  split
  · rfl
  · split
    · exact congrArg Rst.phase (Core.logRec_rst _ _)
    · rw [Core.emit_rst, Core.modRst_rst, Core.logRec_rst]

/-! ### Phases (R478) -/

/-- The option load of a cold sequence takes what the straps read (15 R513). -/
def Core.loaded (straps : BitVec 7) (c : Core) : Core :=
  if c.rst.phase = 2 && c.rst.latched = 1 then
    { c with fab := { c.fab with cfg := { c.fab.cfg with position := straps.toNat % 64, celoth1 := !(straps.getLsbD 6) } } }
  else c

theorem Core.loaded_rst (straps : BitVec 7) (c : Core) : (c.loaded straps).rst = c.rst := by
  unfold Core.loaded
  split <;> rfl

/-- The core in the next phase. -/
def Core.phased (straps : BitVec 7) (c : Core) : Core := (c.loaded straps).modRst (fun r => { r with phase := r.phase + 1 })

theorem Core.phased_rst (straps : BitVec 7) (c : Core) : (c.phased straps).rst = { c.rst with phase := c.rst.phase + 1 } := by
  rw [Core.phased, Core.modRst_rst, Core.loaded_rst]

theorem phaseDone_early {straps : BitVec 7} {c : Core} (low : 1 ≤ c.rst.phase) (high : c.rst.phase ≤ 3) : phaseDone straps c = c.phased straps := by
  have inside : inRange c.rst.phase 1 4 = true := by simp [inRange]; omega
  have early : ¬(c.phased straps).rst.phase = 5 := by
    rw [Core.phased_rst]
    exact fun h => by simp at h; omega
  exact (if_pos inside).trans (if_neg early)

theorem phaseDone_last {straps : BitVec 7} {c : Core} (last : c.rst.phase = 4) : phaseDone straps c = (c.phased straps).bootFw := by
  have inside : inRange c.rst.phase 1 4 = true := by simp [inRange, last]
  have boots : (c.phased straps).rst.phase = 5 := by simp [Core.phased_rst, last]
  exact (if_pos inside).trans (if_pos boots)

theorem phaseDone_other {straps : BitVec 7} {c : Core} (other : c.rst.phase = 0 ∨ 5 ≤ c.rst.phase) : phaseDone straps c = c := by
  have outside : ¬inRange c.rst.phase 1 4 = true := by simp [inRange]; omega
  exact if_neg outside

theorem Core.phased_last {straps : BitVec 7} {c : Core} (last : c.rst.phase = 4) : c.phased straps = c.modRst (fun r => { r with phase := r.phase + 1 }) := by
  rw [Core.phased, Core.loaded, if_neg (by simp [last])]

/-- RESET_PHASE_DONE clears the trip that firmware found, once it has booted, and runs the phase. -/
theorem exec_resetPhaseDone (straps : BitVec 7) (s : State) : exec (.resetPhaseDone straps) s =
    .next { s with
      pwr := if s.core.rst.phase == 4 && (s.core.ident.imageOk 0 || s.core.ident.imageOk 1) then { s.pwr with tripNew := 0 } else s.pwr
      core := if s.core.rst.phase = 4 then (phaseDone straps s.start).tripRecord s.pwr else phaseDone straps s.start } := by
  change execResetPhaseDone straps s = _
  unfold execResetPhaseDone
  exact runP_up (h := fun c => if c.rst.phase = 4 then (phaseDone straps c).tripRecord s.pwr else phaseDone straps c) rfl

theorem Core.tripRecord_ident (p : Power) (c : Core) : (c.tripRecord p).ident = c.ident := by
  unfold Core.tripRecord
  split
  · exact Core.logRec_ident _ _
  · rfl

theorem Core.tripRecord_of_recovery {c : Core} (recovery : c.rst.recovery = true) (p : Power) : c.tripRecord p = c := if_neg (by simp [recovery])

/-- The newest record is still one of the newest two. -/
theorem Core.tripRecord_newest {c : Core} {r : Rec} (newest : c.log.recs.head? = some r) (p : Power) : r ∈ (c.tripRecord p).log.recs.take 2 := by
  obtain ⟨rs, recs⟩ := List.head?_eq_some_iff.1 newest
  unfold Core.tripRecord
  split
  · rw [Core.logRec_log]
    simp [Log.push, recs]
  · simp [recs]

theorem exec_resetPhaseDone_other (straps : BitVec 7) {s : State} (other : s.core.rst.phase ≠ 4) :
    exec (.resetPhaseDone straps) s = .next { s with core := phaseDone straps s.start } := by
  rw [exec_resetPhaseDone, if_neg other, if_neg (by simp [other])]

theorem exec_resetPhaseDone_last (straps : BitVec 7) {s : State} (last : s.core.rst.phase = 4) : ∃ t, exec (.resetPhaseDone straps) s = .next t ∧
    t.mem = s.mem ∧
    t.core = (s.start.modRst (fun r => { r with phase := r.phase + 1 })).bootFw.tripRecord s.pwr := by
  have lastStart : s.start.rst.phase = 4 := last
  refine ⟨_, exec_resetPhaseDone straps s, rfl, ?_⟩
  rw [if_pos last, phaseDone_last lastStart, Core.phased_last lastStart]

/-! ### Ready (R480) -/

/-- The machine as a module sequence reaches Ready. -/
def Mach.readied (m : Mach) : Mach :=
  m.up (Core.modRst (fun r => { r with phase := 6, reach := r.latched, lastSources := r.sources, lastEsc := r.escCause,
                                       lastRelease := if r.latched = 1 then 0 else r.release.setWidth 48 }))

/-- Resources bound again, programs and migrations taken up again. -/
def Mach.reloaded (m : Mach) : Mach := (List.range 8).foldl (fun m p => (m.reload p).up (Core.resumeCopy p)) m.readied.rebindAll

/-- After a warm sequence the jobs rejoin and the spool goes on. -/
def Mach.rejoined (latched : Nat) (m : Mach) : Mach :=
  if latched = 1 then m else ((m.core.jobs.map (fun j => j.plan)).foldl (fun m h => m.rejoin h) (m.up Core.buildSlots)).spoolAgain

/-- What Ready does last: the fuse, a module out of service, and FAULT_N after a cold sequence. -/
def Core.readyEnd (latched : Nat) (c : Core) : Core :=
  let c2 := ({ c with ident := c.ident.fuse } : Core).leaveService
  if latched = 1 then (c2.emit (.pin "FAULT_N" false)).modRst (fun r => { r with faultN := false }) else c2

theorem moduleReady_of_canReady {m : Mach} (can : m.core.rst.canReady = true) :
    moduleReady m = (m.reloaded.rejoined m.core.rst.latched).up (Core.readyEnd m.core.rst.latched) := by
  have runs : ¬(m.core.rst.phase != 5 || m.core.rst.recovery || m.core.rst.level) = true := by
    simp [Rst.canReady] at can
    simp [can]
  exact if_neg runs

theorem Core.readyEnd_course (latched : Nat) (c : Core) : (c.readyEnd latched).rst.course = c.rst.course := by
  unfold Core.readyEnd
  dsimp only
  split
  · exact (Core.leaveService_course _ :)
  · exact (Core.leaveService_course _ :)

theorem Mach.rejoined_rst (latched : Nat) (m : Mach) : (m.rejoined latched).core.rst = m.core.rst := by
  unfold Mach.rejoined
  split
  · rfl
  · exact (Mach.spoolAgain_rst _).trans ((Mach.foldl_rst (fun m h => m.rejoin_rst h) _ _).trans (Core.buildSlots_rst _))

theorem Mach.reloaded_rst (m : Mach) : m.reloaded.core.rst = m.readied.core.rst :=
  (Mach.foldl_rst (fun m p => by simp) _ _).trans (Mach.rebindAll_rst _)

theorem moduleReady_course {m : Mach} (can : m.core.rst.canReady = true) : (moduleReady m).core.rst.course = m.readied.core.rst.course := by
  rw [moduleReady_of_canReady can, Mach.up_core, Core.readyEnd_course, Mach.rejoined_rst, Mach.reloaded_rst]

/-- Power at Ready (15 R509, R510): what halts it, and that no request is left. -/
theorem Power.ready_halted (latched : Nat) (p : Power) :
    (p.ready latched).halted = (p.haltReq.isSome || p.inputFault || (p.aLow && p.bLow) || (p.halted && !p.leaving)) ∧ (p.ready latched).haltReq = none := by
  unfold Power.ready
  extract_lets p1 p2
  have kept : p2.haltReq = p.haltReq := by
    simp only [p2, p1]
    split <;> rfl
  split
  · rename_i halts
    rw [halts]
    exact ⟨rfl, rfl⟩
  · rename_i runs
    rw [Bool.not_eq_true] at runs
    refine ⟨by rw [runs]; rfl, kept.trans ?_⟩
    simp at runs
    exact runs.1.1

/-- Ready with a halt in force (15 R510) changes no more of the reset controller. -/
theorem haltReady_course {m : Mach} (can : m.core.rst.canReady = true) :
    (if (moduleReady m).pwr.halted then (moduleReady m).haltJobs else moduleReady m).core.rst.course = m.readied.core.rst.course := by
  split
  · rw [Mach.haltJobs_rst, moduleReady_course can]
  · exact moduleReady_course can

/-! ### The flash pin (15 R514) -/

theorem Core.flashOwn_low (honoured : Bool) (c : Core) : (if honoured then c.modRst (fun r => { r with flashOwned := true }) else c) =
    { c with rst := { c.rst with flashOwned := c.rst.flashOwned || honoured } } := by
  cases honoured
  · simp
  · simp [Core.modRst]

/-- The pin rises with an image written. -/
def Core.flashWritten (w : FlashWrite) (c : Core) : Core :=
  let c1 := c.modRst (fun r => { r with flashOwned := false })
  { c1 with ident := { c1.ident with images := setAt c1.ident.images w.image (readFw w.bytes) } }

/-! ### Function-level resets (R486) -/

theorem Core.tenantReset_keeps {c : Core} {t : Nat} (none : (c.ten t).queues = []) (o : TenantId) : ((c.tenantReset o).ten t).queues = [] := by
  by_cases own : o.toNat = t
  · exact own ▸ (c.tenantReset_ten o).1
  · have same : (c.tenantReset o).ten t = c.ten t := by simp only [Core.ten, Core.tenantReset, lookup?_insertKey_of_ne _ _ own]
    rw [same, none]

theorem Core.tenantResets_ten {t : Nat} (lt : t < 256) (ts : List Nat) (c : Core) (h : t ∈ ts ∨ (c.ten t).queues = []) :
    ((ts.foldl (fun c t => c.tenantReset (BitVec.ofNat 8 t)) c).ten t).queues = [] := by
  induction ts generalizing c with
  | nil => exact h.resolve_left (List.not_mem_nil)
  | cons o ts ih =>
    refine ih _ ?_
    rcases h with mem | none
    · rcases List.mem_cons.1 mem with rfl | rest
      · have reset := (c.tenantReset_ten (BitVec.ofNat 8 t)).1
        rw [BitVec.toNat_ofNat, Nat.mod_eq_of_lt lt] at reset
        exact .inr reset
      · exact .inl rest
    · exact .inr (Core.tenantReset_keeps none _)

theorem functionReset_ready {c : Core} (ready : c.rst.phase = 6) (f : BitVec 8) :
    (f ≠ 0 → ((functionReset f.toNat c).ten f.toNat).queues = []) ∧
    (f = 0 → ∀ e ∈ c.tens, e.1 < 256 → ((functionReset f.toNat c).ten e.1).queues = []) := by
  have runs : functionReset f.toNat c = if f.toNat = 0 then (c.tens.map Prod.fst).foldl (fun c t => c.tenantReset (BitVec.ofNat 8 t)) c
      else c.tenantReset (BitVec.ofNat 8 f.toNat) := if_neg (by rw [ready]; decide)
  rw [runs]
  refine ⟨fun virtual => ?_, fun physical e mem lt => ?_⟩
  · rw [if_neg (fun h : f.toNat = 0 => virtual (BitVec.eq_of_toNat_eq h)), BitVec.ofNat_toNat, BitVec.setWidth_eq]
    exact (c.tenantReset_ten f).1
  · subst physical
    rw [if_pos (show (0 : BitVec 8).toNat = 0 from rfl)]
    exact Core.tenantResets_ten lt _ c (.inl (List.mem_map_of_mem mem))

/-- Settles O36: each phase by `phaseDone`, Ready by `moduleReady_course`. -/
theorem resetSequenceRunsToReady : Obligations.ResetSequenceRunsToReady := by
  unfold Obligations.ResetSequenceRunsToReady
  intro s
  refine ⟨fun straps low high => ?_, fun straps last two => ?_, fun straps other => ?_, fun pieces waits booted released => ?_, fun f ready => ?_, fun w => ?_,
    fun w owned here => ?_⟩
  · have other : s.core.rst.phase ≠ 4 := by omega
    have early := phaseDone_early (straps := straps) (c := s.start) low high
    refine ⟨_, exec_resetPhaseDone_other straps other, rfl, rfl, ?_, fun cold => ?_, fun warm => ?_⟩ <;> rw [early]
    · exact Core.phased_rst straps s.start
    · have loads : s.start.loaded straps = _ := if_pos (by simp [State.start, cold])
      exact ⟨congrArg (fun c : Core => c.fab.cfg.position) loads, congrArg (fun c : Core => c.fab.cfg.celoth1) loads⟩
    · have keeps : s.start.loaded straps = s.start := if_neg (fun h => by
        rw [Bool.and_eq_true, decide_eq_true_iff, decide_eq_true_iff] at h
        exact warm.elim (fun ne => ne h.1) (fun ne => ne h.2))
      exact (congrArg Core.fab keeps :)
  · obtain ⟨t, eq, mem, core⟩ := exec_resetPhaseDone_last straps last
    refine ⟨t, eq, mem, ?_, fun ok => ?_, fun bad ok => ?_, fun bad0 bad1 => ?_⟩ <;> rw [core]
    · rw [Core.tripRecord_rst, Core.bootFw_phase, Core.modRst_rst]
      exact congrArg (· + 1) last
    · obtain ⟨fwRun, rst⟩ := Core.bootFw_selected (c := s.start.modRst (fun r => { r with phase := r.phase + 1 })) ok
      rw [Core.tripRecord_ident, Core.tripRecord_rst, fwRun, rst]
      exact ⟨rfl, rfl⟩
    · obtain ⟨fwRun, log, -⟩ := Core.bootFw_other (c := s.start.modRst (fun r => { r with phase := r.phase + 1 })) bad ok
      refine ⟨by rw [Core.tripRecord_ident, fwRun]; rfl, _, Core.tripRecord_newest (log ▸ Core.logRec_head _ _) _, rfl, rfl⟩
    · have bad : s.core.ident.imageOk s.core.ident.fwBoot = false ∧ s.core.ident.imageOk (1 - s.core.ident.fwBoot) = false := by
        rcases Nat.le_one_iff_eq_zero_or_eq_one.1 two with zero | one
        · rw [zero]
          exact ⟨bad0, bad1⟩
        · rw [one]
          exact ⟨bad1, bad0⟩
      have booted := Core.bootFw_neither (c := s.start.modRst (fun r => { r with phase := r.phase + 1 })) bad.1 bad.2
      rw [booted, Core.tripRecord_of_recovery rfl]
      exact ⟨rfl, List.mem_append_right _ (List.mem_singleton_self _)⟩
  · exact ⟨_, exec_resetPhaseDone_other straps (by omega), rfl, rfl, phaseDone_other other⟩
  · have can : s.core.rst.canReady = true := by simp [Rst.canReady, waits, booted, released]
    obtain ⟨halted, req⟩ := Power.ready_halted s.core.rst.latched s.pwr
    have pwr : (if (none : Option Nat).isNone && s.core.rst.canReady then s.pwr.ready s.core.rst.latched else s.pwr) = s.pwr.ready s.core.rst.latched :=
      if_pos (by rw [can]; rfl)
    refine ⟨_, rfl, ?_, ?_, (congrArg Power.halted pwr).trans halted, (congrArg Power.haltReq pwr).trans req⟩
    · exact (congrArg (fun m : Mach => m.core.rst.phase) (if_pos can)).trans (congrArg Rst.phase (haltReady_course can))
    · exact (congrArg (fun m : Mach => m.core.rst.reach) (if_pos can)).trans (congrArg Rst.reach (haltReady_course can))
  · exact ⟨_, rfl, rfl, rfl, functionReset_ready (c := s.start) ready f⟩
  · refine ⟨_, rfl, rfl, rfl, (Core.flashOwn_low _ s.start).trans ?_⟩
    rw [Bool.or_assoc]
    rfl
  · refine ⟨_, rfl, rfl, rfl, ?_⟩
    have rises : (if s.start.rst.flashOwned then s.start.flashWritten w else s.start) = s.start.flashWritten w := if_pos owned
    refine ⟨congrArg (fun c : Core => c.rst.flashOwned) rises, (congrArg (fun c : Core => c.ident.images[w.image]?) rises).trans ?_⟩
    exact List.getElem?_set_self here

end Sys2Proof.Machine
end

section
/-!
Power and reset agree (14 R481, 15 R502, R503, R507): what every command may do to the level sources and to the phase.
-/

namespace Sys2Proof.Machine

/-! ### The reset controller under a level source -/

/-- What every operation but the level sources themselves keeps: each level source, and the reset that one of them holds. -/
structure Rst.Obeys (r r' : Rst) : Prop where
  pgLow : r'.pgLow = r.pgLow
  pwrOkLow : r'.pwrOkLow = r.pwrOkLow
  resetLow : r'.resetLow = r.resetLow
  perstLow : r'.perstLow = r.perstLow
  held : r.level = true → r.phase = 0 → r'.phase = 0

theorem Rst.Obeys.refl (r : Rst) : r.Obeys r := ⟨rfl, rfl, rfl, rfl, fun _ zero => zero⟩

theorem Rst.Obeys.level {r r' : Rst} (obeys : r.Obeys r') : r'.level = r.level := by
  rw [Rst.level, obeys.pgLow, obeys.pwrOkLow, obeys.resetLow, obeys.perstLow, Rst.level]

theorem Rst.Obeys.trans {r r' r'' : Rst} (first : r.Obeys r') (second : r'.Obeys r'') : r.Obeys r'' :=
  ⟨second.pgLow.trans first.pgLow, second.pwrOkLow.trans first.pwrOkLow, second.resetLow.trans first.resetLow, second.perstLow.trans first.perstLow,
    fun level zero => second.held (first.level.trans level) (first.held level zero)⟩

theorem Rst.Obeys.of_eq {r r' : Rst} (same : r' = r) : r.Obeys r' := same ▸ .refl r

theorem Rst.Obeys.of_course {r r' : Rst} (same : r'.course = r.course) : r.Obeys r' :=
  ⟨(congrArg Rst.pgLow same :), (congrArg Rst.pwrOkLow same :), (congrArg Rst.resetLow same :), (congrArg Rst.perstLow same :),
    fun _ zero => (congrArg Rst.phase same :).trans zero⟩

theorem Rst.Obeys.ite {p : Prop} [Decidable p] {r : Rst} {m m' : Mach} (yes : r.Obeys m.core.rst) (no : r.Obeys m'.core.rst) :
    r.Obeys (if p then m else m').core.rst := by
  split
  · exact yes
  · exact no

theorem Rst.Obeys.foldl {α : Type} {f : Mach → α → Mach} (one : ∀ (m : Mach) a, m.core.rst.Obeys (f m a).core.rst) (l : List α) (m : Mach) :
    m.core.rst.Obeys (l.foldl f m).core.rst := by
  induction l generalizing m with
  | nil => exact .refl _
  | cons a l ih => exact (one m a).trans (ih _)

/-- A change of the reset controller that moves neither phase nor level source. -/
theorem Rst.Obeys.modRst {r : Rst} {m : Mach} (obeys : r.Obeys m.core.rst) (f : Rst → Rst) (keeps : ∀ r : Rst, r.Obeys (f r)) :
    r.Obeys (m.up (Core.modRst f)).core.rst := by
  rw [Mach.up_core, Core.modRst_rst]
  exact obeys.trans (keeps _)

/-! ### Module resets -/

theorem Mach.moduleSource_obeys (bit reach cause : Nat) (m : Mach) : m.core.rst.Obeys (m.moduleSource bit reach cause).core.rst := by
  obtain ⟨pgLow, pwrOkLow, resetLow, perstLow, -⟩ := Mach.moduleSource_levels bit reach cause m
  exact ⟨pgLow, pwrOkLow, resetLow, perstLow, fun _ _ => rfl⟩

theorem Core.startSeq_obeys (c : Core) : c.rst.Obeys c.startSeq.rst := by
  by_cases level : c.rst.level = true
  · rw [Core.startSeq_of_level level]
    exact .refl _
  · rw [Core.startSeq_of_released (Bool.eq_false_of_not_eq_true level)]
    exact ⟨rfl, rfl, rfl, rfl, fun held => absurd held level⟩

theorem Mach.warmEvent_obeys (bit cause : Nat) (m : Mach) : m.core.rst.Obeys (m.warmEvent bit cause).core.rst :=
  (m.moduleSource_obeys bit 2 cause).trans (Core.startSeq_obeys _)

theorem Mach.countedWarm_obeys (bit cause : Nat) (m : Mach) : m.core.rst.Obeys (m.countedWarm bit cause).core.rst :=
  (m.warmEvent_obeys bit cause).modRst _ fun _ => ⟨rfl, rfl, rfl, rfl, fun _ zero => zero⟩

/-! ### Partition resets, captures and hangs -/

theorem Mach.partReset_obeys (p : Nat) (counted : Bool) (m : Mach) : m.core.rst.Obeys (m.partReset p counted).core.rst := by
  unfold Mach.partReset
  dsimp only
  refine .ite (.refl _) ?_
  have stopped : ((((m.core.jobs.filter (m.core.usesPart p)).map (fun j => j.plan)).foldl (fun m h => m.up (Core.partStop h)) (m.clearPart p))).core.rst =
    m.core.rst :=
    (Mach.foldl_rst (fun m h => by simp) _ _).trans rfl
  exact (Rst.Obeys.of_eq stopped).modRst _ fun _ => ⟨rfl, rfl, rfl, rfl, fun _ zero => zero⟩

theorem Mach.contain_obeys (part : Option Nat) (m : Mach) : m.core.rst.Obeys (m.contain part).core.rst := by
  unfold Mach.contain
  refine .ite (.refl _) ?_
  cases part with
  | none => exact m.countedWarm_obeys 1 1
  | some p => exact .ite (m.countedWarm_obeys 1 2) (m.partReset_obeys p true)

theorem Core.startCapture_obeys (p cause held outcome guilty : Nat) (ss : List Suspect) (c : Core) :
    c.rst.Obeys (c.startCapture p cause held outcome guilty ss).rst := by
  unfold Core.startCapture
  split
  · exact .refl _
  · exact ⟨rfl, rfl, rfl, rfl, fun _ zero => zero⟩

theorem Mach.hang_obeys (h cause : Nat) (ps : List Nat) (m : Mach) : m.core.rst.Obeys (m.hang h cause ps).core.rst := by
  unfold Mach.hang
  split
  · dsimp only
    rw [Mach.up_core, Core.stopGuilty_rst]
    refine Rst.Obeys.trans ?_ (.foldl (fun m p => Core.startCapture_obeys ..) ps _)
    exact (Rst.Obeys.of_eq (Mach.writeHead_rst ..)).modRst _ fun _ => ⟨rfl, rfl, rfl, rfl, fun _ zero => zero⟩
  · exact .foldl (fun m p => Core.startCapture_obeys ..) ps m

theorem holdLimit_obeys (h : Nat) (remote : Bool) (m : Mach) : m.core.rst.Obeys (holdLimit h remote m).core.rst := by
  unfold holdLimit
  split
  · exact .ite (.refl _) (.ite (.of_eq (by simp)) (m.hang_obeys ..))
  · exact .refl _

theorem overrun_obeys (h : Nat) (lsid : Lsid) (m : Mach) : m.core.rst.Obeys (overrun h lsid m).core.rst := by
  unfold overrun
  split
  · exact .refl _
  · split
    · exact .refl _
    · exact .ite (.refl _) (.ite (m.countedWarm_obeys 2 3) (m.hang_obeys ..))

theorem captureEnd_obeys (p us : Nat) (valid : Bool) (m : Mach) : m.core.rst.Obeys (captureEnd p us valid m).core.rst := by
  unfold captureEnd
  split
  · exact .refl _
  · rename_i h _
    have written : ∀ h1 : HangRun, (if valid then m.writeCapture h1 else m.writeHead h1).core.rst = m.core.rst := fun h1 => by
      split
      · exact (Mach.writeCapture_stores h1 m).rst
      · exact Mach.writeHead_rst ..
    refine Rst.Obeys.trans ?_ (Mach.partReset_obeys p _ _)
    exact (Rst.Obeys.of_eq (written _)).modRst _ fun _ => ⟨rfl, rfl, rfl, rfl, fun _ zero => zero⟩

theorem suspectPass_obeys (p : Nat) (m : Mach) : m.core.rst.Obeys (suspectPass p m).core.rst := by
  unfold suspectPass
  split
  · exact .refl _
  · dsimp only
    split
    · exact .refl _
    · exact (Rst.Obeys.of_eq (Mach.writeHead_rst ..)).modRst _ fun _ => ⟨rfl, rfl, rfl, rfl, fun _ zero => zero⟩

theorem slotBegin_obeys (p slot : Nat) (ok rewritten : Bool) (m : Mach) : m.core.rst.Obeys (slotBegin p slot ok rewritten m).core.rst := by
  unfold slotBegin
  refine .ite (.refl _) (.ite (.of_eq rfl) ?_)
  extract_lets m1
  have logged : m1.core.rst = m.core.rst := by simp [m1]
  exact .ite (.of_eq logged) ((Rst.Obeys.of_eq logged).trans (m1.contain_obeys (some p)))

theorem Mach.edgeWork_obeys (edge : BitVec 64) (halts : Bool) (m : Mach) : m.core.rst.Obeys (m.edgeWork edge halts).core.rst := by
  unfold Mach.edgeWork
  extract_lets m1
  have moved : m1.core.rst = m.core.rst := rfl
  clear_value m1
  rw [← moved]
  exact .ite (.refl _) (.ite (.of_eq (by simp)) (.ite (.refl _) (.ite (m1.countedWarm_obeys 1 2) (.of_course (by simp)))))

theorem resetCmd_obeys (a : Accepted) (m : Mach) : m.core.rst.Obeys (resetCmd a m).m.core.rst := by
  have queued : (m.up (fun c => { c with resetReplies := c.resetReplies ++ [(a.par 9 1, a)] })).core.rst = m.core.rst := rfl
  unfold resetCmd
  dsimp only
  split
  · exact ⟨rfl, rfl, rfl, rfl, fun _ zero => zero⟩
  · generalize m.up (fun c => { c with resetReplies := c.resetReplies ++ [(a.par 9 1, a)] }) = m1 at queued ⊢
    rw [← queued]
    split
    · exact Core.startCapture_obeys ..
    · exact Mach.partReset_obeys ..
  · split <;> exact .of_eq (by simp)
  · split
    · exact ⟨rfl, rfl, rfl, rfl, fun _ zero => zero⟩
    · exact .of_eq rfl

/-! ### Sequences -/

theorem Core.bootFw_obeys (c : Core) : c.rst.Obeys c.bootFw.rst := by
  by_cases ok : c.ident.imageOk c.ident.fwBoot = true
  · exact .of_eq (Core.bootFw_selected ok).2
  · by_cases other : c.ident.imageOk (1 - c.ident.fwBoot) = true
    · obtain ⟨-, -, rst⟩ := Core.bootFw_other (Bool.eq_false_of_not_eq_true ok) other
      exact .of_eq rst
    · rw [Core.bootFw_neither (Bool.eq_false_of_not_eq_true ok) (Bool.eq_false_of_not_eq_true other), Core.emit_rst, Core.modRst_rst, Core.logRec_rst]
      exact ⟨rfl, rfl, rfl, rfl, fun _ zero => zero⟩

theorem phaseDone_obeys (straps : BitVec 7) (c : Core) : c.rst.Obeys (phaseDone straps c).rst := by
  by_cases zero : c.rst.phase = 0
  · rw [phaseDone_other (.inl zero)]
    exact .refl _
  have phased : c.rst.Obeys (c.phased straps).rst := by
    rw [Core.phased_rst]
    exact ⟨rfl, rfl, rfl, rfl, fun _ h => absurd h zero⟩
  by_cases early : c.rst.phase ≤ 3
  · rw [phaseDone_early (by omega) early]
    exact phased
  by_cases last : c.rst.phase = 4
  · rw [phaseDone_last last]
    exact phased.trans (Core.bootFw_obeys _)
  · rw [phaseDone_other (by omega)]
    exact .refl _

theorem haltReady_obeys {m : Mach} (can : m.core.rst.canReady = true) :
    m.core.rst.Obeys (if (moduleReady m).pwr.halted then (moduleReady m).haltJobs else moduleReady m).core.rst := by
  have released : m.core.rst.level = false := by
    simp [Rst.canReady] at can
    exact can.2
  have readied : m.core.rst.Obeys m.readied.core.rst := ⟨rfl, rfl, rfl, rfl, fun level => absurd level (by rw [released]; decide)⟩
  exact readied.trans (.of_course (haltReady_course can))

/-- RESET_READY of the module, whether or not its sequence can reach Ready. -/
theorem haltsReady_obeys (m : Mach) : m.core.rst.Obeys
    (if m.core.rst.canReady then (if (moduleReady m).pwr.halted then (moduleReady m).haltJobs else moduleReady m) else m).core.rst := by
  split
  · rename_i can
    exact haltReady_obeys can
  · exact .refl _

theorem partReady_obeys (p : Nat) (pieces : List MirrorPiece) (m : Mach) : m.core.rst.Obeys (partReady p pieces m).core.rst := by
  by_cases running : m.core.rst.parts.contains p = true
  · obtain ⟨hs, rst⟩ := partReady_rst running pieces
    exact rst ▸ ⟨rfl, rfl, rfl, rfl, fun _ zero => zero⟩
  · exact .of_eq (congrArg (fun m : Mach => m.core.rst) (if_pos (by simpa using running)))

end Sys2Proof.Machine
end

section
/-!
What every command leaves of the level sources, the rails and the trips: the rows of the pins and of power are the only ones that move them
(14 R481, 15 R502, R503, R507).
-/

namespace Sys2Proof.Machine

theorem CmdOut.obeys_ite {p : Prop} [Decidable p] {r : Rst} {a b : CmdOut} (yes : r.Obeys a.m.core.rst) (no : r.Obeys b.m.core.rst) :
    r.Obeys (if p then a else b).m.core.rst := by
  split
  · exact yes
  · exact no

/-- A command evaluated changes of the reset controller what its evaluation does. -/
theorem runCmd_obeys {eval : Ev → Accepted → Mach → CmdOut} (leaves : ∀ e a (m : Mach), m.core.rst.Obeys (eval e a m).m.core.rst) (op : Nat)
    (t : TenantId) (sq : Nat)
    (tag : BitVec 32) (bufOk : Bool) (data : List Byte) (m : Mach) : m.core.rst.Obeys (runCmd op t sq tag bufOk data eval m).core.rst := by
  unfold runCmd
  split
  · exact .refl _
  · rename_i a _
    extract_lets staging o
    have ran : m.core.rst.Obeys o.m.core.rst :=
      CmdOut.obeys_ite (.of_eq (by simp)) (CmdOut.obeys_ite (.of_eq rfl) (CmdOut.obeys_ite (.of_eq (by simp)) (leaves _ a m)))
    exact .ite (ran.trans (.of_eq rfl)) (ran.trans (.of_eq (by simp)))

/-- A command whose evaluation leaves the reset controller obeys its level sources. -/
theorem runCmd_leaves {eval : Ev → Accepted → Mach → CmdOut} (leaves : ∀ e a m, (eval e a m).m.core.rst.course = m.core.rst.course) (op : Nat)
    (t : TenantId) (sq : Nat)
    (tag : BitVec 32) (bufOk : Bool) (data : List Byte) (m : Mach) : m.core.rst.Obeys (runCmd op t sq tag bufOk data eval m).core.rst :=
  runCmd_obeys (fun e a m => .of_course (leaves e a m)) ..

@[simp] theorem startMach_rst (s : State) : (startMach s).core.rst = s.core.rst := rfl

/-- A frame that arrives changes of the reset controller what its delivery does. -/
theorem Mach.arrive_obeys {deliver : Frame → Mach → Mach} (leaves : ∀ f m, (deliver f m).core.rst.course = m.core.rst.course) (i : Nat) (g : Frame) (m : Mach) :
    m.core.rst.Obeys (m.arrive i g deliver).core.rst := .of_course (Mach.arrive_course leaves i g m)

/-- The end of a reset that a RESET command announced (R488). -/
theorem resetStartDelay_obeys (m : Mach) : m.core.rst.Obeys (match m.core.rst.delayed with
    | none => m
    | some none => (m.up (Core.modRst (fun r => { r with delayed := none }))).warmEvent 3 0
    | some (some t) => m.up (fun c => (c.tenantReset t).modRst (fun r => { r with delayed := none }))).core.rst := by
  have settled : m.core.rst.Obeys (m.up (Core.modRst (fun r => { r with delayed := none }))).core.rst :=
    (Rst.Obeys.refl _).modRst _ fun _ => ⟨rfl, rfl, rfl, rfl, fun _ zero => zero⟩
  split
  · exact .refl _
  · exact settled.trans (Mach.warmEvent_obeys 3 0 _)
  · exact ⟨rfl, rfl, rfl, rfl, fun _ zero => zero⟩

theorem flashOwnN_obeys (low : Bool) (write : Option FlashWrite) (s : State) {t : State} (run : execFlashOwnN low write s = .next t) :
    s.core.rst.Obeys t.core.rst := by
  cases run
  dsimp only
  split
  · split
    · exact ⟨rfl, rfl, rfl, rfl, fun _ zero => zero⟩
    · exact .refl _
  · split
    · split <;> exact ⟨rfl, rfl, rfl, rfl, fun _ zero => zero⟩
    · exact .refl _

/-- The rows of the level sources (R481). -/
def Instr.setsLevel : Instr → Bool
  | .resetNAssert | .resetNRelease | .perstAssert | .perstRelease | .powerTrip _ | .pwrOkAssert | .pwrOkDeassert | .powerGoodRelease | .inputTurnOff _ => true
  | _ => false

/-- Every row but those of the level sources obeys them. -/
theorem exec_obeys {i : Instr} {s t : State} (run : exec i s = .next t) (other : Instr.setsLevel i = false) : s.core.rst.Obeys t.core.rst := by
  cases i
  case resetNAssert | resetNRelease | perstAssert | perstRelease | powerTrip | pwrOkAssert | pwrOkDeassert | powerGoodRelease | inputTurnOff => cases other
  case registerAccess a v =>
    cases v with
    | none => cases run; exact .of_eq (readAccess_rst ..)
    | some w => cases run; exact .of_course (writeAccess_course ..)
  case beatEdge edge =>
    cases run
    exact Rst.Obeys.ite (r := s.core.rst) (Mach.edgeWork_obeys edge _ { startMach s with pwr := _ }) (.refl _)
  case slotStart => cases run; exact slotBegin_obeys _ _ _ _ (startMach s)
  case holdLimitReached => cases run; exact holdLimit_obeys _ _ (startMach s)
  case engineOverrun => cases run; exact overrun_obeys _ _ (startMach s)
  case captureDone => cases run; exact captureEnd_obeys _ _ _ (startMach s)
  case captureTimeout => cases run; exact captureEnd_obeys _ _ _ (startMach s)
  case suspectReplayPass => cases run; exact suspectPass_obeys _ (startMach s)
  case partitionReset => cases run; exact Mach.contain_obeys _ (startMach s)
  case partitionSequenceTimeout => cases run; exact .ite (Mach.countedWarm_obeys 2 4 (startMach s)) (.refl _)
  case resetPhaseDone straps =>
    cases run
    refine (phaseDone_obeys straps s.start).trans (.of_eq ((apply_ite Core.rst _ _ _).trans ?_))
    rw [Core.tripRecord_rst, ite_self]
    rfl
  case resetReady part pieces =>
    cases run
    cases part with
    | none =>
      refine Rst.Obeys.trans (haltsReady_obeys { startMach s with pwr := _ }) (.refl _)
    | some p => exact partReady_obeys p pieces { startMach s with pwr := _ }
  case resetStartDelay => cases run; exact resetStartDelay_obeys (startMach s)
  case flashOwnN => exact flashOwnN_obeys _ _ s run
  case reset => cases run; exact runCmd_obeys (fun _ a m => resetCmd_obeys a m) _ _ _ _ _ _ (startMach s)
  case residueMismatch plan lsid rows col mask fmt tiles cycle =>
    cases run
    refine Rst.Obeys.ite (r := s.core.rst) (.of_course ?_) (.of_course (residueMismatch_course ..))
    refine Eq.trans ?_ (residueMismatch_course plan lsid rows col mask fmt tiles cycle (startMach s))
    rw [Mach.up_core]
    split <;> simp
  case kiteTimeout | spdmRequest | txnIdleTimeout | interruptCoalesceTimer | fence =>
    cases run
    refine .of_course ?_
    dsimp only
    repeat' split
    all_goals simp
  case clearOvr => cases run; exact .of_course (by dsimp only; split <;> rfl)
  case frameInvalid => cases run; exact Rst.Obeys.ite (r := s.core.rst) (.refl _) (Mach.arrive_obeys (fun f m => by simp) _ _ (startMach s))
  case kiteAbortReceived => cases run; exact Mach.arrive_obeys (fun f m => by split <;> simp) _ _ (startMach s)
  case wrAck => cases run; exact Mach.arrive_obeys (fun f m => by rw [Mach.up_core]; split <;> simp) _ _ (startMach s)
  case regRd => cases run; exact Mach.arrive_obeys (fun f m => by dsimp only; split <;> simp) _ _ (startMach s)
  case regWr => cases run; exact Mach.arrive_obeys (fun f m => by dsimp only; split <;> simp) _ _ { startMach s with pwr := _ }
  case mirrorFrameReceived | linkCtl | xopen | xdata | rdReq | rdRsp | wrReq | kite | reject =>
    cases run
    exact Mach.arrive_obeys (fun f m => by simp) _ _ (startMach s)
  case profileSet | configMode | hbmRegionsSet | fwStage | fwActivate | fabricConfig | linkEncrypt | sentinelLoad | sentinelRun | suspectSwap | dataGet =>
    cases run
    refine runCmd_leaves (fun e a m => ?_) _ _ _ _ _ _ (startMach s)
    simp [apply_ite CmdOut.m, apply_ite Mach.core, apply_ite Core.rst]
  all_goals
    cases run
    refine .of_course ?_
    simp -implicitDefEqProofs [Core.foldl_rst, Mach.foldl_rst, apply_ite Mach.core, apply_ite Core.rst]

/-! ### Rails, trips and the input -/

/-- The rows that move the rails, a trip or the input (15 R500 to R503, R507). -/
def Instr.setsRails : Instr → Bool
  | .powerTrip _ | .tripRestart _ | .pwrOkAssert | .pwrOkDeassert | .inputTurnOff _ | .inputTurnOn | .overvoltageTurnOn => true
  | _ => false

/-- What of power the agreement speaks of. -/
def Power.stays (p q : Power) : Prop := q.rails = p.rails ∧ q.tripped = p.tripped ∧ q.off = p.off

theorem Power.stays.refl (p : Power) : p.stays p := ⟨rfl, rfl, rfl⟩

theorem Power.stays.ite {c : Prop} [Decidable c] {p q r : Power} (yes : p.stays q) (no : p.stays r) : p.stays (if c then q else r) := by
  split
  · exact yes
  · exact no

theorem Power.stays_request (a b fault run : Bool) (now : BitVec 64) (p : Power) :
    p.stays (({ p with aLow := a, bLow := b, inputFault := fault, runFault := run } : Power).request now) := .ite ⟨rfl, rfl, rfl⟩ ⟨rfl, rfl, rfl⟩

theorem Power.stays_ready (latched : Nat) (p : Power) : p.stays (p.ready latched) := by
  have cleared : p.stays (if latched = 1 then
      { p with thermal := 16, current := 16, margin := 16, ceiling := 16, cap := 16, voltLimits := 0, eqLimits := 0, limits := [] } else p) :=
    .ite ⟨rfl, rfl, rfl⟩ (.refl p)
  exact .ite cleared cleared

theorem Power.stays_atEdge (c : Core) (edge : BitVec 64) (p : Power) : p.stays (p.atEdge c edge) :=
  .ite ⟨rfl, rfl, rfl⟩ (.ite ⟨rfl, rfl, rfl⟩ (.ite ⟨rfl, rfl, rfl⟩ ⟨rfl, rfl, rfl⟩))

theorem Power.stays_writePower (a : RegAcc) (v : BitVec 64) (c : Core) (p : Power) : p.stays (writePower a v c p) := by
  unfold writePower powerWrite Power.faultClear
  repeat' split
  all_goals exact ⟨rfl, rfl, rfl⟩

theorem Power.stays_powerPolicy (c : Core) (t : TenantId) (sq : Nat) (tag : BitVec 32) (p : Power) : p.stays (powerPolicy c t sq tag p) := by
  unfold powerPolicy
  split
  · exact .ite (.refl p) ⟨rfl, rfl, rfl⟩
  · exact .refl p

/-- Every row but those of the input, the rails and the trips leaves them. -/
theorem exec_stays {i : Instr} {s t : State} (run : exec i s = .next t) (other : Instr.setsRails i = false) : s.pwr.stays t.pwr := by
  cases i
  case powerTrip | tripRestart | pwrOkAssert | pwrOkDeassert | inputTurnOff | inputTurnOn | overvoltageTurnOn => cases other
  case policyLimit =>
    cases run
    have counted : ∀ k : Nat, s.pwr.stays (if k = 0 then { s.pwr with voltLimits := satInc s.pwr.voltLimits } else { s.pwr with eqLimits := satInc s.pwr.eqLimits }) :=
      fun k => .ite ⟨rfl, rfl, rfl⟩ ⟨rfl, rfl, rfl⟩
    exact .ite (counted _) (counted _)
  case currentThrottle => cases run; exact .ite ⟨rfl, rfl, rfl⟩ ⟨rfl, rfl, rfl⟩
  case haltChannelsAsserted => cases run; exact .ite (.refl _) (Power.stays_request ..)
  case haltInputFault => cases run; exact .ite (.refl _) (Power.stays_request ..)
  case haltRelease => cases run; exact .ite (.ite ⟨rfl, rfl, rfl⟩ ⟨rfl, rfl, rfl⟩) ⟨rfl, rfl, rfl⟩
  case resetReady => cases run; exact .ite (s.pwr.stays_ready _) (.refl _)
  case beatEdge => cases run; exact .ite (s.pwr.stays_atEdge _ _) (.refl _)
  case registerWrite => cases run; exact s.pwr.stays_writePower _ _ _
  case registerAccess a v =>
    cases v with
    | none => cases run; exact .refl _
    | some v => cases run; exact s.pwr.stays_writePower a v _
  case regWr => cases run; exact .ite (s.pwr.stays_writePower _ _ _) (.refl _)
  case powerPolicy => cases run; exact s.pwr.stays_powerPolicy _ _ _ _
  case inputOutOfRange | haltNoBeat | inputFaultClear | pwrLoopClear | throttleTimeClear | resetPhaseDone | i3cFaultRecordNext =>
    cases run
    exact .ite ⟨rfl, rfl, rfl⟩ (.refl _)
  all_goals
    cases run
    exact ⟨rfl, rfl, rfl⟩

/-! ### The agreement -/

/-- Power and reset go on to agree where the two pins of power and the rails stay, and reset obeys. -/
theorem State.powerAgrees.of_obeys {s t : State} (agrees : s.powerAgrees) (stays : s.pwr.stays t.pwr) (obeys : s.core.rst.Obeys t.core.rst) :
    t.powerAgrees := by
  obtain ⟨rails, tripped, off⟩ := stays
  refine ⟨fun level => ?_, ?_, ?_, ?_, ?_, ?_⟩
  · have before : s.core.rst.level = true := obeys.level ▸ level
    exact obeys.held before (agrees.held before)
  · rw [rails, obeys.pgLow]
    exact agrees.good
  · rw [rails, obeys.pwrOkLow]
    exact agrees.down
  · rw [rails, tripped, off]
    exact agrees.clear
  · rw [tripped, obeys.pwrOkLow]
    exact agrees.cycled
  · rw [tripped, off]
    exact agrees.bounds

/-- What a level source that asserts or releases moves: with power as it was, and reset held while one is asserted. -/
theorem State.powerAgrees.of_level {s t : State} (agrees : s.powerAgrees) (stays : t.pwr = s.pwr) (pgLow : t.core.rst.pgLow = s.core.rst.pgLow)
    (pwrOkLow : t.core.rst.pwrOkLow = s.core.rst.pwrOkLow) (held : t.core.rst.level = true → t.core.rst.phase = 0) : t.powerAgrees := by
  refine ⟨held, ?_, ?_, ?_, ?_, ?_⟩ <;> rw [stays]
  · rw [pgLow]
    exact agrees.good
  · rw [pwrOkLow]
    exact agrees.down
  · exact agrees.clear
  · rw [pwrOkLow]
    exact agrees.cycled
  · exact agrees.bounds

/-- The rails are gone and power good is low. -/
theorem State.powerAgrees.of_dark {t : State} (rails : t.pwr.rails = false) (phase : t.core.rst.phase = 0) (pgLow : t.core.rst.pgLow = true)
    (cycled : t.pwr.tripped = 3 → t.core.rst.pwrOkLow = false) (bounds : t.pwr.tripped ≤ 3 ∧ t.pwr.off ≤ 2) : t.powerAgrees :=
  ⟨fun _ => phase, fun _ => pgLow, fun _ => rails, fun up => absurd (rails.symm.trans up) (by decide), cycled, bounds⟩

/-- A release keeps a reset that another level source holds. -/
theorem Mach.levelRelease_held {m : Mach} (held : m.core.rst.level = true → m.core.rst.phase = 0) {low : Rst → Bool} {clear : Rst → Rst}
    (asserted : ∀ r : Rst, low r = true → r.level = true) (phase : ∀ r : Rst, (clear r).phase = r.phase) :
    (m.levelRelease low clear).core.rst.level = true → (m.levelRelease low clear).core.rst.phase = 0 := by
  unfold Mach.levelRelease
  split
  · rename_i is
    intro level
    refine (Core.startSeq_obeys ((m.up (Core.modRst clear)).core)).held ?_ ?_
    · exact (Core.startSeq_obeys ((m.up (Core.modRst clear)).core)).level ▸ level
    · rw [Mach.up_core, Core.modRst_rst, phase]
      exact held (asserted _ is)
  · exact held

end Sys2Proof.Machine
end

section
/-!
Power and reset agree after every step (O33): the rows of the level sources, the rails and the trips, one by one.
-/

namespace Sys2Proof.Machine

/-- A release keeps its own pin high and every other pin of the four as it was. -/
theorem Mach.levelRelease_keeps {α : Type} (f : Rst → α) (same : ∀ r n q, f { r with phase := n, release := q } = f r) (low : Rst → Bool)
    (clear : Rst → Rst) (m : Mach) :
    f (m.levelRelease low clear).core.rst = f (if low m.core.rst then clear m.core.rst else m.core.rst) := by
  unfold Mach.levelRelease
  split
  · exact Core.startSeq_keeps f same _
  · rfl

/-- What of the reset controller a release leaves. -/
theorem Mach.levelRelease_leaves {α : Type} (f : Rst → α) (same : ∀ r n q, f { r with phase := n, release := q } = f r) {low : Rst → Bool} {clear : Rst → Rst}
    (leaves : ∀ r, f (clear r) = f r) (m : Mach) : f (m.levelRelease low clear).core.rst = f m.core.rst := by
  rw [Mach.levelRelease_keeps f same]
  split
  · exact leaves _
  · rfl

theorem levelAssert_agrees {bit : Nat} {low : Rst → Bool} {set : Rst → Rst} {s t : State} (run : runM (Mach.levelAssert bit 2 low set) s = .next t)
    (sets : ∀ r, (set r).phase = r.phase ∧ (set r).pgLow = r.pgLow ∧ (set r).pwrOkLow = r.pwrOkLow) (agrees : s.powerAgrees) : t.powerAgrees := by
  cases run
  dsimp only [Mach.levelAssert]
  split
  · exact agrees.of_level rfl rfl rfl agrees.held
  · obtain ⟨pgLow, pwrOkLow, -⟩ := Mach.moduleSource_levels bit 2 0 (startMach s)
    obtain ⟨phase, pg, ok⟩ := sets ((startMach s).moduleSource bit 2 0).core.rst
    refine agrees.of_level rfl (pg.trans pgLow) (ok.trans pwrOkLow) fun _ => phase.trans rfl

theorem levelRelease_agrees {low : Rst → Bool} {clear : Rst → Rst} {s t : State} (run : runM (Mach.levelRelease low clear) s = .next t)
    (asserted : ∀ r : Rst, low r = true → r.level = true) (clears : ∀ r, (clear r).phase = r.phase ∧ (clear r).pgLow = r.pgLow ∧
      (clear r).pwrOkLow = r.pwrOkLow)
    (agrees : s.powerAgrees) : t.powerAgrees := by
  cases run
  exact agrees.of_level rfl (Mach.levelRelease_leaves Rst.pgLow (fun _ _ _ => rfl) (fun r => (clears r).2.1) (startMach s))
    (Mach.levelRelease_leaves Rst.pwrOkLow (fun _ _ _ => rfl) (fun r => (clears r).2.2) (startMach s))
    (Mach.levelRelease_held (m := startMach s) agrees.held asserted fun r => (clears r).1)

theorem powerTrip_agrees (kind : BitVec 2) {s t : State} (run : execPowerTrip kind s = .next t) (agrees : s.powerAgrees) : t.powerAgrees := by
  cases run
  dsimp only
  split
  · refine .of_dark rfl ?_ ?_ (fun third => absurd third (show (1 : Nat) ≠ 3 by decide)) ⟨show (1 : Nat) ≤ 3 by decide, agrees.bounds.2⟩
    all_goals rw [Mach.up_core, Core.pmAlert_rst]; rfl
  · exact agrees.of_level rfl rfl rfl agrees.held

theorem tripRestart_agrees (readings : List Reading) {s t : State} (run : execTripRestart readings s = .next t) (agrees : s.powerAgrees) : t.powerAgrees := by
  cases run
  dsimp only
  split
  · rename_i restarts
    rw [Bool.and_eq_true, Bool.and_eq_true, decide_eq_true_eq, decide_eq_true_eq] at restarts
    obtain ⟨⟨third, on⟩, -⟩ := restarts
    exact ⟨agrees.held, nofun, fun low => absurd (low.symm.trans (agrees.cycled third)) (by decide), fun _ => ⟨rfl, on⟩,
      fun third => absurd third (show (0 : Nat) ≠ 3 by decide), ⟨Nat.zero_le 3, agrees.bounds.2⟩⟩
  · exact agrees.of_level rfl rfl rfl agrees.held

/-- Power when PWR_OK is asserted with the input on: the rails come up, or a trip that PWR_OK went low for ends its wait (15 R503, R507). -/
def Power.restored (p : Power) : Power := if p.tripped = 0 then { p with rails := true } else if p.tripped = 2 then { p with tripped := 3 } else p

theorem runP_of_eq {g : Core → Power → Power} {f : Power → Mach → Mach} {s : State} {p : Power} {m : Mach} (power : g s.core s.pwr = p)
    (effect : f s.pwr { startMach s with pwr := p } = m) : runP g f s = .next { s with pwr := p, core := m.core, mem := applyWrs s.mem m.wr.reverse } := by
  subst effect
  subst power
  rfl

theorem pwrOkAssert_agrees {s t : State} (run : execPwrOkAssert s = .next t) (agrees : s.powerAgrees) : t.powerAgrees := by
  by_cases on : s.pwr.off = 0
  · cases (runP_of_eq (p := s.pwr.restored) (if_neg (not_not.2 on)) (if_neg (not_not.2 on))).symm.trans run
    have pgLow := Mach.levelRelease_leaves Rst.pgLow (fun _ _ _ => rfl) (low := fun r => r.pwrOkLow) (clear := fun r => { r with pwrOkLow := false })
      (fun _ => rfl) { startMach s with pwr := s.pwr.restored }
    have pwrOkLow : _ = false := (Mach.levelRelease_keeps Rst.pwrOkLow (fun _ _ _ => rfl) (fun r => r.pwrOkLow) (fun r => { r with pwrOkLow := false })
      { startMach s with pwr := s.pwr.restored }).trans (by
        split
        · rfl
        · exact Bool.of_not_eq_true ‹_›)
    have held := Mach.levelRelease_held (m := { startMach s with pwr := s.pwr.restored }) (clear := fun r => { r with pwrOkLow := false })
      (low := fun r => r.pwrOkLow)
      agrees.held (fun r low => by simp [Rst.level, low]) fun r => rfl
    have rails : s.pwr.restored.rails = false → s.pwr.rails = false := by
      unfold Power.restored
      split
      · nofun
      · split <;> exact id
    have clear : s.pwr.restored.rails = true → s.pwr.restored.tripped = 0 ∧ s.pwr.restored.off = 0 := by
      unfold Power.restored
      split
      · exact fun _ => ⟨‹_›, on⟩
      · rename_i tripped
        split <;> exact fun up => absurd (agrees.clear up).1 tripped
    have bounds : s.pwr.restored.tripped ≤ 3 ∧ s.pwr.restored.off ≤ 2 := by
      unfold Power.restored
      split
      · exact agrees.bounds
      · split
        · exact ⟨le_refl 3, agrees.bounds.2⟩
        · exact agrees.bounds
    exact ⟨held, fun dark => pgLow.trans (agrees.good (rails dark)), fun low => absurd (pwrOkLow.symm.trans low) (by decide), clear, fun _ => pwrOkLow, bounds⟩
  · simp only [execPwrOkAssert, runP, ne_eq, on, not_false_eq_true, if_true] at run
    cases run
    exact agrees.of_level rfl rfl rfl agrees.held

/-- Power when PWR_OK is deasserted with the input on (15 R503, R507). -/
def Power.pulled (p : Power) : Power := { p with rails := false, tripped := if p.tripped = 0 then 0 else 2 }

theorem Power.pulled_tripped (p : Power) : p.pulled.tripped ≤ 2 := by
  show (if p.tripped = 0 then 0 else 2) ≤ 2
  split <;> decide

theorem pwrOkDeassert_agrees {s t : State} (run : execPwrOkDeassert s = .next t) (agrees : s.powerAgrees) : t.powerAgrees := by
  by_cases on : s.pwr.off = 0
  · have tripped := s.pwr.pulled_tripped
    have bounds : s.pwr.pulled.tripped ≤ 3 ∧ s.pwr.pulled.off ≤ 2 := ⟨by omega, agrees.bounds.2⟩
    by_cases low : s.core.rst.pwrOkLow = true
    · cases (runP_of_eq (p := s.pwr.pulled) (if_neg (not_not.2 on)) (if_pos (Bool.or_eq_true_iff.2 (.inr low)))).symm.trans run
      exact ⟨agrees.held, fun _ => agrees.good (agrees.down low), fun _ => rfl, nofun, fun third => absurd third (by dsimp only; omega), bounds⟩
    · have awake : ¬((decide (s.pwr.off ≠ 0) || (startMach s).core.rst.pwrOkLow) = true) := by simpa [on] using low
      cases (runP_of_eq (p := s.pwr.pulled) (if_neg (not_not.2 on)) (if_neg awake)).symm.trans run
      exact .of_dark rfl rfl rfl (fun third => absurd third (by dsimp only; omega)) bounds
  · cases (runP_of_eq (if_pos on) (if_pos (by simp [on]))).symm.trans run
    exact agrees.of_level rfl rfl rfl agrees.held

theorem powerGoodRelease_agrees {s t : State} (run : execPowerGoodRelease s = .next t) (agrees : s.powerAgrees) : t.powerAgrees := by
  cases run
  dsimp only
  split
  · rename_i good
    have rails : s.pwr.rails = true := by
      rw [Bool.and_eq_true, Bool.and_eq_true] at good
      exact good.1.1
    have pwrOkLow := Mach.levelRelease_leaves Rst.pwrOkLow (fun _ _ _ => rfl) (low := fun r => r.pgLow)
      (clear := fun r => { r with pgLow := false, faultN := true })
      (fun _ => rfl) (startMach s)
    have held := Mach.levelRelease_held (m := startMach s) (clear := fun r => { r with pgLow := false, faultN := true }) (low := fun r => r.pgLow)
      agrees.held (fun r low => by simp [Rst.level, low]) fun r => rfl
    exact ⟨held, fun dark => absurd (rails.symm.trans dark) (by decide), fun low => agrees.down (pwrOkLow.symm.trans low), agrees.clear,
      fun third => pwrOkLow.trans (agrees.cycled third), agrees.bounds⟩
  · exact agrees.of_level rfl rfl rfl agrees.held

theorem inputTurnOff_agrees (vin : BitVec 16) {s t : State} (run : execInputTurnOff vin s = .next t) (agrees : s.powerAgrees) : t.powerAgrees := by
  cases run
  dsimp only
  split
  · refine .of_dark rfl rfl rfl (fun third => absurd third (show (0 : Nat) ≠ 3 by decide)) ⟨Nat.zero_le 3, ?_⟩
    exact (apply_ite (· ≤ 2) (vin.toNat < 39000) 1 2).mpr (by split <;> decide)
  · exact agrees.of_level rfl rfl rfl agrees.held

theorem inputOn_agrees {why : Nat} {mv : BitVec 16} {s t : State} (some : why ≠ 0)
    (run : runP (fun _ p => if p.off = why then { p with off := 0, vinMv := mv } else p)
      (fun old m => if old.off = why then m.up (Core.emit (.pin "PRSNT_N" false)) else m) s = .next t) (agrees : s.powerAgrees) : t.powerAgrees := by
  cases run
  dsimp only
  split
  · rename_i off
    have dark : s.pwr.rails = false := by
      by_contra up
      exact some (off.symm.trans (agrees.clear (Bool.of_not_eq_false up)).2)
    exact ⟨agrees.held, agrees.good, agrees.down, fun up => absurd (dark.symm.trans up) (by decide), agrees.cycled, ⟨agrees.bounds.1, Nat.zero_le 2⟩⟩
  · exact agrees.of_level rfl rfl rfl agrees.held

/-- A row of the level sources or of the rails keeps the agreement. -/
theorem exec_agrees {i : Instr} {s t : State} (run : exec i s = .next t) (agrees : s.powerAgrees) : t.powerAgrees := by
  cases i
  case resetNAssert => exact levelAssert_agrees run (fun _ => ⟨rfl, rfl, rfl⟩) agrees
  case perstAssert => exact levelAssert_agrees run (fun _ => ⟨rfl, rfl, rfl⟩) agrees
  case resetNRelease => exact levelRelease_agrees run (fun r low => by simp [Rst.level, low]) (fun _ => ⟨rfl, rfl, rfl⟩) agrees
  case perstRelease => exact levelRelease_agrees run (fun r low => by simp [Rst.level, low]) (fun _ => ⟨rfl, rfl, rfl⟩) agrees
  case powerTrip => exact powerTrip_agrees _ run agrees
  case tripRestart => exact tripRestart_agrees _ run agrees
  case pwrOkAssert => exact pwrOkAssert_agrees run agrees
  case pwrOkDeassert => exact pwrOkDeassert_agrees run agrees
  case powerGoodRelease => exact powerGoodRelease_agrees run agrees
  case inputTurnOff => exact inputTurnOff_agrees _ run agrees
  case inputTurnOn => exact inputOn_agrees (by decide) run agrees
  case overvoltageTurnOn => exact inputOn_agrees (by decide) run agrees
  all_goals exact agrees.of_obeys (exec_stays run rfl) (exec_obeys run rfl)

theorem State.reset_powerAgrees : State.reset.powerAgrees :=
  ⟨by decide, by decide, by decide, by decide, by decide, by decide⟩

/-- Settles O33: the rows of the pins, the rails and the trips one by one; every other command by `exec_obeys` and `exec_stays`. -/
theorem powerAndResetAgree : Obligations.PowerAndResetAgree := by
  refine ⟨fun s t agrees run => ?_, State.reset_powerAgrees⟩
  obtain ⟨pending, pwr, mem, core⟩ := s
  cases pending with
  | nil =>
    cases run
    exact agrees.of_obeys ⟨rfl, rfl, rfl⟩ (.of_eq rfl)
  | cons i rest => exact exec_agrees run ⟨agrees.held, agrees.good, agrees.down, agrees.clear, agrees.cycled, agrees.bounds⟩

end Sys2Proof.Machine
end

section
/-!
Fabric, slice and encryption commands, and transactions (13 R460 to R463, 08 R287, R289).
-/

namespace Sys2Proof.Machine

/-! ### Answers -/

/-- A command evaluated to a status, whose effect is a function of the core alone. -/
theorem State.asks.settles {s : State} {op : Nat} {t : TenantId} {sq : Nat} {tag : BitVec 32} {a : Accepted} (asks : s.asks op t sq tag a) {data : List Byte}
    {eval : Ev → Accepted → Mach → CmdOut} {f : Core → Core} {status : Nat} {detail : List Byte}
    (effect : eval { v := s.view, now := false, since := some s.core.clk.count.toNat } a (startMach s) =
      { status := status, detail := detail, m := (startMach s).up f })
    (same : { f s.start with out := (f s.core).out } = f s.core) (opened : (f s.core).open? a.tenant.toNat a.cq = true) :
    ∃ u, runM (runCmd op t sq tag true data eval) s = .next u ∧ u.answered (s.upd f) a status detail :=
  ⟨_, runM_up (g := fun c => (f c).reply a status detail) ((asks.runCmd_eq true data eval).trans
      ((congrArg (CmdOut.answer a) effect).trans (CmdOut.answer_of_replied rfl))),
    State.answered_reply rfl rfl rfl same opened⟩

/-- A command packet with STAGE is staged (13 R462). -/
theorem runCmd_staged {s : State} {op : Nat} {t : TenantId} {sq : Nat} {tag : BitVec 32} {a : Accepted} (next : s.core.cmd? op t sq tag = some a)
    (staged : bitOf (fieldAt a.packet 2 1) 0 = true) (data : List Byte) (eval : Ev → Accepted → Mach → CmdOut) :
    runCmd op t sq tag true data eval (startMach s) = (stage a data (startMach s)).answer a := by
  have found : (startMach s).core.cmd? op t sq tag = some a := next
  simp only [runCmd, found, staged, Bool.true_and, if_true, Bool.not_true, Bool.false_eq_true, if_false, ite_self]
  rfl

theorem Core.open?_setTxn {c : Core} {t cq : Nat} (opened : c.open? t cq = true) (u : TenantId) (x : Option Txn) : (c.setTxn u x).open? t cq = true :=
  Core.open?_modTen opened u.toNat fun _ => rfl

theorem Core.buildSlots_tens (c : Core) : c.buildSlots.tens = c.tens := by
  unfold Core.buildSlots
  dsimp only
  split <;> rfl

/-- What is sent does not enter the slot tables. -/
theorem Core.buildSlots_sent {c d : Core} (same : { c with out := d.out } = d) : { c.buildSlots with out := d.buildSlots.out } = d.buildSlots := by
  rw [← same]
  unfold Core.buildSlots
  dsimp only [Core.launched, Core.job?]
  split <;> rfl

/-! ### Slices (08 R287) -/

/-- Whether the parameters of SLICE_CREATE describe a slice of the fabric. -/
def sliceShape (g : FabCfg) (p : Nat → Nat → Nat) : Bool :=
  if p 9 1 = 1 then decide (p 10 1 < 64) && decide (p 11 1 < 64) && p 10 1 &&& p 11 1 == 0 && p 15 1 == 0 && p 16 1 == 0 && p 17 1 == 0
  else decide (p 12 1 < g.sx) && decide (p 13 1 < g.sy) && decide (p 14 1 < g.sz) && inRange (p 15 1) 1 g.sx && inRange (p 16 1) 1 g.sy && inRange
      (p 17 1) 1 g.sz &&
    p 10 1 == 0 && p 11 1 == 0

/-- The modules that they name. -/
def sliceModules (g : FabCfg) (p : Nat → Nat → Nat) : List Nat :=
  if p 9 1 = 1 then subcubeMap g.meadow (p 10 1) (p 11 1) else torusMap g (p 12 1) (p 13 1) (p 14 1) (p 15 1) (p 16 1) (p 17 1)

/-- Whether a slice has that name or one of these modules, or a module lies beyond the job positions. -/
def sliceClash (g : Fabric) (id : Nat) (map : List Nat) : Bool :=
  g.slices.any (fun s => s.id == id || s.map.any map.contains) || map.any (fun x => decide (g.cfg.jobPos ≤ x % 64))

/-- The slice that they describe. -/
def sliceNew (t : TenantId) (p : Nat → Nat → Nat) (map : List Nat) : Slice :=
  { id := p 8 1, tenant := t, kind := p 9 1, k := popcount 6 (p 10 1), mask := p 10 1, base := p 11 1, x0 := p 12 1, y0 := p 13 1, z0 := p 14 1,
    tx := if p 9 1 = 2 then p 15 1 else 1, ty := if p 9 1 = 2 then p 16 1 else 1, tz := if p 9 1 = 2 then p 17 1 else 1, ckey := BitVec.ofNat 32 (p 20 4),
        map := map }

theorem sliceNew_cube {p : Nat → Nat → Nat} (kind : p 9 1 = 1) (t : TenantId) (map : List Nat) : sliceNew t p map =
    { id := p 8 1, tenant := t, kind := p 9 1, k := popcount 6 (p 10 1), mask := p 10 1, base := p 11 1, x0 := p 12 1, y0 := p 13 1, z0 := p 14 1,
      ckey := BitVec.ofNat 32 (p 20 4), map := map } := by
  simp [sliceNew, kind]

theorem sliceNew_torus {p : Nat → Nat → Nat} (kind : p 9 1 = 2) (t : TenantId) (map : List Nat) : sliceNew t p map =
    { id := p 8 1, tenant := t, kind := p 9 1, k := popcount 6 (p 10 1), mask := p 10 1, base := p 11 1, x0 := p 12 1, y0 := p 13 1, z0 := p 14 1,
      tx := p 15 1, ty := p 16 1, tz := p 17 1, ckey := BitVec.ofNat 32 (p 20 4), map := map } := by
  simp [sliceNew, kind]

theorem evalOp_sliceCreate {a : Accepted} (op : a.opcode = 0x402) (e : Ev) (data : List Byte) (m : Mach) : evalOp e a data m = sliceCreate e a m := by
  simp only [evalOp, op]

theorem evalOp_sliceDelete {a : Accepted} (op : a.opcode = 0x403) (e : Ev) (data : List Byte) (m : Mach) : evalOp e a data m = sliceDelete e a m := by
  simp only [evalOp, op]

theorem sliceCreate_eq (e : Ev) (a : Accepted) (m : Mach) : sliceCreate e a m =
    if (!sliceShape e.v.fab.cfg a.par || !e.v.fab.cfg.loaded) = true then refuse 0x401 m
    else if sliceClash e.v.fab (a.par 8 1) (sliceModules e.v.fab.cfg a.par) = true then refuse 0x402 m
    else { m := m.up (fun c => c.modFab (fun q => { q with slices := q.slices ++ [sliceNew a.target a.par (sliceModules e.v.fab.cfg a.par)] })) } := rfl

theorem sliceClash_iff {g : Fabric} {id : Nat} {map : List Nat} :
    sliceClash g id map = true ↔ ¬((∀ y ∈ g.slices, y.id ≠ id ∧ ∀ m ∈ y.map, m ∉ map) ∧ ∀ m ∈ map, m % 64 < g.cfg.jobPos) := by
  rw [sliceClash, Bool.or_eq_true, List.any_eq_true, List.any_eq_true, not_and_or]
  refine or_congr ?_ ?_
  · simp only [Bool.or_eq_true, beq_iff_eq, List.any_eq_true, List.contains_iff_mem, not_forall, not_and_or, not_not, exists_prop]
  · simp

theorem sliceShape_cube {g : FabCfg} {p : Nat → Nat → Nat} (kind : p 9 1 = 1) : sliceShape g p = true ↔
    p 10 1 < 64 ∧ p 11 1 < 64 ∧ p 10 1 &&& p 11 1 = 0 ∧ p 15 1 = 0 ∧ p 16 1 = 0 ∧ p 17 1 = 0 := by
  simp [sliceShape, kind, and_assoc]

theorem sliceShape_torus {g : FabCfg} {p : Nat → Nat → Nat} (kind : p 9 1 = 2) : sliceShape g p = true ↔
    p 12 1 < g.sx ∧ p 13 1 < g.sy ∧ p 14 1 < g.sz ∧ (1 ≤ p 15 1 ∧ p 15 1 ≤ g.sx) ∧ (1 ≤ p 16 1 ∧ p 16 1 ≤ g.sy) ∧ (1 ≤ p 17 1 ∧ p 17 1 ≤ g.sz) ∧
      p 10 1 = 0 ∧ p 11 1 = 0 := by
  have within : ∀ x n, inRange x 1 n = true ↔ 1 ≤ x ∧ x ≤ n := fun x n => by
    simp [inRange]
    omega
  simp [sliceShape, kind, and_assoc, within]

section
variable {e : Ev} {a : Accepted}

theorem sliceDelete_absent (absent : e.v.fab.slices.find? (fun y => y.id == a.par 8 1) = none) (m : Mach) : sliceDelete e a m = refuse 0x401 m := by
  rw [sliceDelete, absent]

theorem sliceDelete_used {y : Slice} (there : e.v.fab.slices.find? (fun y => y.id == a.par 8 1) = some y)
    (used : e.v.plans.any (fun p => (e.v.sliceFor p).any (fun x => x.id == y.id)) = true) (m : Mach) : sliceDelete e a m = refuse 0x202 m := by
  rw [sliceDelete, there]
  exact if_pos used

theorem sliceDelete_unused {y : Slice} (there : e.v.fab.slices.find? (fun y => y.id == a.par 8 1) = some y)
    (unused : ¬e.v.plans.any (fun p => (e.v.sliceFor p).any (fun x => x.id == y.id)) = true) (m : Mach) :
    sliceDelete e a m = { m := m.up (fun c => c.modFab (fun q => { q with slices := q.slices.filter (fun x => !(x.id == y.id)) })) } := by
  rw [sliceDelete, there]
  exact if_neg unused

end

section
variable {s : State} {t : TenantId} {sq : Nat} {tag : BitVec 32} {a : Accepted} (asks : s.asks 0x402 t sq tag a)
include asks

theorem exec_sliceCreate_misshapen (bad : sliceShape s.view.fab.cfg a.par = false ∨ s.view.fab.cfg.loaded = false) :
    ∃ u, exec (.sliceCreate t sq tag) s = .next u ∧ u.answered s a 0x401 [] := by
  refine asks.refuses (((evalOp_sliceCreate asks.opcode _ _ _).trans (sliceCreate_eq ..)).trans (if_pos ?_))
  rcases bad with bad | bad <;> simp [bad]

theorem exec_sliceCreate_clashing (loaded : s.view.fab.cfg.loaded = true) (shaped : sliceShape s.view.fab.cfg a.par = true)
    (clash : sliceClash s.view.fab (a.par 8 1) (sliceModules s.view.fab.cfg a.par) = true) :
    ∃ u, exec (.sliceCreate t sq tag) s = .next u ∧ u.answered s a 0x402 [] := by
  refine asks.refuses (((evalOp_sliceCreate asks.opcode _ _ _).trans (sliceCreate_eq ..)).trans ((if_neg ?_).trans (if_pos clash)))
  simp [shaped, loaded]

theorem exec_sliceCreate (loaded : s.view.fab.cfg.loaded = true) (shaped : sliceShape s.view.fab.cfg a.par = true)
    (free : ¬sliceClash s.view.fab (a.par 8 1) (sliceModules s.view.fab.cfg a.par) = true) :
    ∃ u, exec (.sliceCreate t sq tag) s = .next u ∧ u.answered (s.upd fun c => c.modFab fun q =>
      { q with slices := q.slices ++ [sliceNew a.target a.par (sliceModules s.view.fab.cfg a.par)] }) a 0 [] := by
  refine asks.answers (((evalOp_sliceCreate asks.opcode _ _ _).trans (sliceCreate_eq ..)).trans ((if_neg ?_).trans (if_neg free))) rfl rfl
  simp [shaped, loaded]

end

/-! ### Ports (08 R289) -/

/-- A port that holds what was set in it. -/
theorem Core.modPort_const (i : Nat) (f : Port → Port) (c : Core) : c.modPort i (fun _ => (c.modPort i f).port i) = c.modPort i f := by
  have ports : modAt c.fab.ports i (fun _ => (modAt c.fab.ports i f).getD i {}) = modAt c.fab.ports i f := by
    refine List.ext_getElem? fun n => ?_
    simp only [modAt, List.getElem?_modify, List.getD_eq_getElem?_getD]
    by_cases here : i = n
    · subst here
      cases c.fab.ports[i]? <;> simp
    · simp [here]
  exact congrArg (fun ps => { c with fab := { c.fab with ports := ps } }) ports

/-- A port whose encryption is off (08 R289). -/
def Port.plain (q : Port) : Port := { q with encWanted := false, enc := false, newKey := none, rxNew := none, rekeying := false, txCtr := 0 }

theorem Core.modPort_port {i : Nat} {c : Core} (there : i < c.fab.ports.length) (f : Port → Port) : (c.modPort i f).port i = f (c.port i) := by
  simp [Core.modPort, Core.modFab, Core.port, modAt, there]

/-! ### Transactions (13 R462, R463) -/

section
variable {a : Accepted} {m : Mach}

theorem stage_closed (closed : m.core.txn? a.tenant = none) (data : List Byte) : stage a data m = refuse 0x701 m := by
  simp only [stage, closed]

theorem stage_unstageable {x : Txn} (opened : m.core.txn? a.tenant = some x) (idle : x.commit = none) (op : opStageable a.opcode = false) (data : List Byte) :
    stage a data m = refuse 0x703 m := by
  simp [stage, opened, idle, op]

theorem stage_full {x : Txn} (opened : m.core.txn? a.tenant = some x) (idle : x.commit = none) (op : opStageable a.opcode = true) (full : 64 ≤ x.staged.length)
    (data : List Byte) : stage a data m = refuse 0x706 m := by
  simp [stage, opened, idle, op, full]

/-- A command whose parameters are tested at the commit alone is staged as it stands. -/
theorem stage_leasePartition {x : Txn} (opened : m.core.txn? a.tenant = some x) (idle : x.commit = none) (op : a.opcode = 0x203) (room : x.staged.length < 64)
    (data : List Byte) : stage a data m = { detail := details [(6, 2, x.staged.length)], m := m.up (Core.setTxn a.tenant
      (some { x with staged := x.staged ++ [{ packet := a.packet, data := data }] })) } := by
  have listed : opStageable 0x203 = true := by decide
  simp [stage, opened, idle, op, listed, Nat.not_le.2 room]

theorem txnBegin_open {x : Txn} (opened : m.core.txn? a.tenant = some x) : txnBegin a m = refuse 0x702 m := by
  simp only [txnBegin, opened]

theorem txnBegin_closed (closed : m.core.txn? a.tenant = none) : txnBegin a m =
    { detail := details [(6, 2, (m.core.ten a.tenant.toNat).nextTxn.toNat)], m := m.up fun c => c.modTen a.tenant.toNat fun q =>
      { q with txn := some { id := (m.core.ten a.tenant.toNat).nextTxn, timeout := if a.par 8 2 = 0 then 10 else a.par 8 2 },
               nextTxn := if (m.core.ten a.tenant.toNat).nextTxn = 0xFFFF then 1 else (m.core.ten a.tenant.toNat).nextTxn + 1 } } := by
  simp only [txnBegin, closed, beq_iff_eq]

theorem txnCommit_closed (closed : m.core.txn? a.tenant = none) : txnCommit a m = refuse 0x701 m := by
  simp only [txnCommit, closed]

theorem txnCommit_committed {x : Txn} (opened : m.core.txn? a.tenant = some x) (committed : x.commit.isSome = true) : txnCommit a m = refuse 0x701 m := by
  simp only [txnCommit, opened, committed, if_true]

section
variable {x : Txn} (opened : m.core.txn? a.tenant = some x) (idle : x.commit = none)
include opened idle

theorem txnCommit_late (late : m.core.commitEdge (a.par 8 8) = none) : txnCommit a m = { status := 0x705, m := m.up (Core.setTxn a.tenant none) } := by
  simp [txnCommit, opened, idle, late]

variable {edge : BitVec 64} (at_ : m.core.commitEdge (a.par 8 8) = some edge)
include at_

theorem txnCommit_failing {i st : Nat} {d : List Byte}
    (fails : (evalStaged a.tenant (some m.core.clk.count.toNat) x.staged 0 { m with core := m.view }).1 = some (i, st, d)) :
    txnCommit a m = { status := 0x704, detail := (details [(6, 2, i), (8, 2, st)]).take 4 ++ d.take 22, m := m.up (Core.setTxn a.tenant none) } := by
  simp [txnCommit, opened, idle, at_, fails]

theorem txnCommit_waits (passes : (evalStaged a.tenant (some m.core.clk.count.toNat) x.staged 0 { m with core := m.view }).1 = none)
    (beat : m.core.clk.epochSet = true) :
    txnCommit a m = { wait := true, m := m.up (Core.setTxn a.tenant (some { x with
      commit := some edge, order := m.core.commits.length + listMax (m.core.commits.map fun y => y.2.order), reply := some a })) } := by
  simp [txnCommit, opened, idle, at_, passes, beat]

theorem txnCommit_still (empty : x.staged = []) (still : m.core.clk.epochSet = false) :
    txnCommit a m = { detail := details [(8, 8, m.core.clk.count.toNat)], m := m.up fun c => (c.setTxn a.tenant none).buildSlots } := by
  simp [txnCommit, opened, idle, at_, empty, still, evalStaged, Mach.up]

end

end

section
variable {a : Accepted} {m : Mach}

theorem txnRollback_refused (closed : m.core.txn? a.tenant = none ∨ ∃ x, m.core.txn? a.tenant = some x ∧ x.commit.isSome = true) :
    txnRollback a m = refuse 0x701 m := by
  rcases closed with closed | ⟨x, opened, committed⟩
  · simp only [txnRollback, closed]
  · simp only [txnRollback, opened, committed, if_true]

theorem txnRollback_open {x : Txn} (opened : m.core.txn? a.tenant = some x) (idle : x.commit = none) :
    txnRollback a m = { m := m.up (Core.setTxn a.tenant none) } := by
  simp [txnRollback, opened, idle]

theorem txnQuery_closed (closed : m.core.txn? a.tenant = none) : txnQuery a m = { m := m } := by
  simp only [txnQuery, closed]

theorem txnQuery_open {x : Txn} (opened : m.core.txn? a.tenant = some x) :
    txnQuery a m = { m := m, detail := details [(6, 1, 1), (7, 1, x.staged.length), (8, 2, x.timeout)] } := by
  simp only [txnQuery, opened]

end

/-- A transaction that has been idle for its time (13 R463). -/
def txnIdle (t : TenantId) (c : Core) : Core :=
  match c.txn? t with
  | some x => if x.commit.isSome then c else (c.setTxn t none).unsolicited t.toNat 0xF7 (details [(6, 2, x.id.toNat), (8, 1, x.staged.length)])
  | none => c

theorem exec_txnIdleTimeout (t : TenantId) (s : State) : exec (.txnIdleTimeout t) s = .next { s with core := txnIdle t s.start } := rfl

theorem txnIdle_committed {t : TenantId} {c : Core} {x : Txn} (opened : c.txn? t = some x) (committed : x.commit.isSome = true) : txnIdle t c = c := by
  simp only [txnIdle, opened, committed, if_true]

theorem txnIdle_open {t : TenantId} {c : Core} {x : Txn} (opened : c.txn? t = some x) (idle : x.commit = none) :
    txnIdle t c = (c.setTxn t none).unsolicited t.toNat 0xF7 (details [(6, 2, x.id.toNat), (8, 1, x.staged.length)]) := by
  simp [txnIdle, opened, idle]

theorem le_listMax {x : Nat} {l : List Nat} (mem : x ∈ l) : x ≤ listMax l := by
  have bound : ∀ (l : List Nat) (b : Nat), b ≤ l.foldl max b ∧ ∀ x ∈ l, x ≤ l.foldl max b := by
    intro l
    induction l with
    | nil => exact fun b => ⟨le_refl b, nofun⟩
    | cons y l ih =>
      intro b
      obtain ⟨le, each⟩ := ih (max b y)
      refine ⟨(le_max_left b y).trans le, fun x mem => ?_⟩
      rcases List.mem_cons.1 mem with rfl | mem
      · exact (le_max_right b x).trans le
      · exact each x mem
  exact (bound l 0).2 x mem

section
variable {s : State} {op : Nat} {t : TenantId} {sq : Nat} {tag : BitVec 32} {a : Accepted} (next : s.core.cmd? op t sq tag = some a)
  (staged : bitOf (fieldAt a.packet 2 1) 0 = true) {data : List Byte} {eval : Ev → Accepted → Mach → CmdOut}
include next staged

theorem staged_refused {status : Nat} (opened : s.core.open? a.tenant.toNat a.cq = true) (refused : stage a data (startMach s) = refuse status (startMach s)) :
    ∃ u, runM (runCmd op t sq tag true data eval) s = .next u ∧ u.answered s a status [] :=
  ⟨_, runM_up ((runCmd_staged next staged data eval).trans ((congrArg (CmdOut.answer a) refused).trans (CmdOut.answer_of_replied rfl))),
    State.answered_reply rfl rfl rfl rfl opened⟩

theorem staged_joins {f : Core → Core} {detail : List Byte} (joins : stage a data (startMach s) = { detail := detail, m := (startMach s).up f })
    (same : { f s.start with out := (f s.core).out } = f s.core) (opened : (f s.core).open? a.tenant.toNat a.cq = true) :
    ∃ u, runM (runCmd op t sq tag true data eval) s = .next u ∧ u.answered (s.upd f) a 0 detail :=
  ⟨_, runM_up (g := fun c => (f c).reply a 0 detail)
      ((runCmd_staged next staged data eval).trans ((congrArg (CmdOut.answer a) joins).trans (CmdOut.answer_of_replied rfl))),
    State.answered_reply rfl rfl rfl same opened⟩

end

/-- Settles O51: each command's evaluation, or what staging makes of it, comes to the effect and the reply that its row names. -/
theorem fabricAndTransactionCommandsAnswer : Obligations.FabricAndTransactionCommandsAnswer := by
  unfold Obligations.FabricAndTransactionCommandsAnswer
  intro s t sq tag a v g x now plans runs fab txn
  have planned : plans = (v.anyPlan || s.core.anyPlan) := rfl
  refine ⟨fun asks => ⟨asks.unread [] _, fun b => ⟨fun busy => ?_, fun free bad => ?_, fun free good => ?_⟩⟩,
    fun asks => ⟨fun unloaded => ?_, fun kind bad => ?_, fun kind bad => ?_, fun kind loaded cube => ⟨fun clash => ?_, fun free => ?_⟩,
      fun kind loaded torus => ⟨fun clash => ?_, fun free => ?_⟩⟩, fun asks => ⟨fun absent => ?_, fun there => ⟨fun used => ?_, fun unused => ?_⟩⟩,
    fun asks => ⟨fun on => ⟨?_, ?_⟩, fun off b => ?_⟩, fun asks => ⟨fun opened => ?_, fun none => ?_⟩,
      fun next staged queue => ⟨fun none => ?_, fun y found idle full => ?_, fun y found idle room => ?_⟩,
    fun next staged queue y found idle => ?_, fun asks => ⟨fun none => ?_, fun y found => ⟨fun committed => ?_,
      fun idle => ⟨fun late => ?_, fun e edge => ⟨fun i st d failed => ?_, fun passes beat => ?_, fun empty still => ?_⟩⟩⟩⟩,
    fun asks => ⟨fun closed => ?_, fun y found idle => ?_⟩, fun asks => ⟨fun none => ?_, fun y found => ?_⟩,
      fun y found => ⟨fun committed => ?_, fun idle => ?_⟩⟩
  · exact asks.refuses (if_pos busy)
  · exact asks.refuses ((if_neg (Bool.eq_false_iff.1 free)).trans (if_pos ((Bool.not_eq_eq_eq_not ..).mpr bad)))
  · exact asks.answers ((if_neg (Bool.eq_false_iff.1 free)).trans (if_neg (by rw [Bool.not_eq_true, Bool.not_eq_false']; exact good))) rfl rfl
  · exact exec_sliceCreate_misshapen asks (.inr unloaded)
  · exact exec_sliceCreate_misshapen asks (.inl (Bool.eq_false_iff.2 (mt (sliceShape_cube kind).1 bad)))
  · exact exec_sliceCreate_misshapen asks (.inl (Bool.eq_false_iff.2 (mt (sliceShape_torus kind).1 bad)))
  · have map : sliceModules v.fab.cfg a.par = subcubeMap v.fab.cfg.meadow (a.par 10 1) (a.par 11 1) := if_pos kind
    exact exec_sliceCreate_clashing asks loaded ((sliceShape_cube kind).2 cube) (sliceClash_iff.2 (map ▸ clash))
  · have map : sliceModules v.fab.cfg a.par = subcubeMap v.fab.cfg.meadow (a.par 10 1) (a.par 11 1) := if_pos kind
    have new := exec_sliceCreate asks loaded ((sliceShape_cube kind).2 cube) (fun clash => sliceClash_iff.1 clash (map ▸ free))
    rw [sliceNew_cube kind, map] at new
    exact new
  · have map : sliceModules v.fab.cfg a.par = torusMap v.fab.cfg (a.par 12 1) (a.par 13 1) (a.par 14 1) (a.par 15 1) (a.par 16 1) (a.par 17 1) :=
      if_neg (by rw [kind]; decide)
    exact exec_sliceCreate_clashing asks loaded ((sliceShape_torus kind).2 torus) (sliceClash_iff.2 (map ▸ clash))
  · have map : sliceModules v.fab.cfg a.par = torusMap v.fab.cfg (a.par 12 1) (a.par 13 1) (a.par 14 1) (a.par 15 1) (a.par 16 1) (a.par 17 1) :=
      if_neg (by rw [kind]; decide)
    have new := exec_sliceCreate asks loaded ((sliceShape_torus kind).2 torus) (fun clash => sliceClash_iff.1 clash (map ▸ free))
    rw [sliceNew_torus kind, map] at new
    exact new
  · have gone : v.fab.slices.find? (fun y => y.id == a.par 8 1) = none := List.find?_eq_none.2 fun y mem => by simpa using absent y mem
    refine asks.refuses ((evalOp_sliceDelete asks.opcode _ _ _).trans ?_)
    exact sliceDelete_absent gone _
  · obtain ⟨z, found⟩ := Option.isSome_iff_exists.1 (List.find?_isSome.2 (there.imp fun y h => ⟨h.1, beq_iff_eq.2 h.2⟩))
    have named : z.id = a.par 8 1 := by simpa using List.find?_some found
    obtain ⟨p, mem, y, on, same⟩ := used
    exact asks.refuses ((evalOp_sliceDelete asks.opcode _ _ _).trans (sliceDelete_used found (List.any_eq_true.2 ⟨p, mem, by rw [on]; simp [same, named]⟩) _))
  · obtain ⟨z, found⟩ := Option.isSome_iff_exists.1 (List.find?_isSome.2 (there.imp fun y h => ⟨h.1, beq_iff_eq.2 h.2⟩))
    have named : z.id = a.par 8 1 := by simpa using List.find?_some found
    have free : ¬v.plans.any (fun p => (v.sliceFor p).any (fun x => x.id == z.id)) = true := by
      rw [List.any_eq_true]
      rintro ⟨p, mem, on⟩
      cases is : v.sliceFor p with
      | none => simp [is] at on
      | some y => exact unused p mem y is (by simpa [is, named] using on)
    refine asks.answers ((evalOp_sliceDelete asks.opcode _ _ _).trans (sliceDelete_unused found free _)) ?_ rfl
    rw [named]
    rfl
  · exact asks.refuses (if_pos (by rw [on]; rfl))
  · exact asks.answers ((if_neg (by rw [on]; decide)).trans (if_pos on)) rfl rfl
  · obtain ⟨u, run, answered⟩ : ∃ u, exec (.linkEncrypt t sq tag b) s = .next u ∧ u.answered (s.upd (Core.modPort (a.par 8 1) Port.plain)) a 0 [] :=
      asks.settles ((if_neg (by rw [off]; simp)).trans (if_neg (by rw [off]; decide))) rfl asks.queue
    have port : u.core.port (a.par 8 1) = (s.core.modPort (a.par 8 1) Port.plain).port (a.par 8 1) := by
      rw [answered.core]
      rfl
    refine ⟨u, run, ?_, fun there => ?_⟩
    · rw [port]
      rw [State.upd, Core.modPort_const]
      exact answered
    · rw [port, Core.modPort_port there]
      exact ⟨rfl, rfl⟩
  · obtain rfl : a.tenant = t := Core.tenant_of_cmd? asks.next
    obtain ⟨y, found⟩ := Option.isSome_iff_exists.1 opened
    exact asks.refuses (txnBegin_open found)
  · obtain rfl : a.tenant = t := Core.tenant_of_cmd? asks.next
    exact asks.settles (txnBegin_closed none) rfl (Core.open?_modTen asks.queue _ fun _ => rfl)
  · obtain rfl : a.tenant = t := Core.tenant_of_cmd? next
    exact staged_refused next staged queue (stage_closed none [])
  · obtain rfl : a.tenant = t := Core.tenant_of_cmd? next
    exact staged_refused next staged queue (stage_full found idle (by rw [Core.opcode_of_cmd? next]; decide) full [])
  · obtain rfl : a.tenant = t := Core.tenant_of_cmd? next
    exact staged_joins next staged (stage_leasePartition found idle (Core.opcode_of_cmd? next) room []) rfl (Core.open?_setTxn queue _ _)
  · obtain rfl : a.tenant = t := Core.tenant_of_cmd? next
    exact staged_refused next staged queue (stage_unstageable found idle (by rw [Core.opcode_of_cmd? next]; decide) [])
  · obtain rfl : a.tenant = t := Core.tenant_of_cmd? asks.next
    exact asks.refuses (txnCommit_closed none)
  · obtain rfl : a.tenant = t := Core.tenant_of_cmd? asks.next
    exact asks.refuses (txnCommit_committed found committed)
  · obtain rfl : a.tenant = t := Core.tenant_of_cmd? asks.next
    exact asks.settles (txnCommit_late found idle late) rfl (Core.open?_setTxn asks.queue _ _)
  · obtain rfl : a.tenant = t := Core.tenant_of_cmd? asks.next
    exact asks.settles (txnCommit_failing found idle edge failed) rfl (Core.open?_setTxn asks.queue _ _)
  · obtain rfl : a.tenant = t := Core.tenant_of_cmd? asks.next
    refine ⟨_, _, asks.waits (txnCommit_waits found idle edge passes beat), ⟨rfl, rfl, rfl⟩, fun z mem => ?_⟩
    exact (le_listMax (List.mem_map_of_mem (f := fun y : Nat × Txn => y.2.order) mem)).trans (Nat.le_add_left ..)
  · obtain rfl : a.tenant = t := Core.tenant_of_cmd? asks.next
    exact asks.settles (f := fun c => (c.setTxn a.tenant none).buildSlots) (txnCommit_still found idle edge empty still) (Core.buildSlots_sent rfl)
      (Core.open?_of_tens (Core.buildSlots_tens _) (Core.open?_setTxn asks.queue _ _))
  · obtain rfl : a.tenant = t := Core.tenant_of_cmd? asks.next
    exact asks.refuses (txnRollback_refused closed)
  · obtain rfl : a.tenant = t := Core.tenant_of_cmd? asks.next
    exact asks.settles (txnRollback_open found idle) rfl (Core.open?_setTxn asks.queue _ _)
  · obtain rfl : a.tenant = t := Core.tenant_of_cmd? asks.next
    exact asks.reports (txnQuery_closed none)
  · obtain rfl : a.tenant = t := Core.tenant_of_cmd? asks.next
    exact asks.reports (txnQuery_open found)
  · exact (exec_txnIdleTimeout t s).trans (congrArg (fun c => Host.Outcome.next { s with core := c }) (txnIdle_committed (c := s.start) found committed))
  · exact (exec_txnIdleTimeout t s).trans (congrArg (fun c => Host.Outcome.next { s with core := c }) (txnIdle_open (c := s.start) found idle))

end Sys2Proof.Machine
end

section
/-!
Plans, jobs and host data (13 R456 to R460, 06 R186, R195, 10 R340, R342).
-/

namespace Sys2Proof.Machine

/-! ### What the journal's frames change (06 R187) -/

/-- What frames sent to a partner leave: the plans, the partitions, the clock, which jobs there are, and the queues that take entries. -/
structure Core.Sends (c d : Core) : Prop where
  plans : d.plans = c.plans
  parts : d.parts = c.parts
  clk : d.clk = c.clk
  jobs : d.jobs.map (fun j => j.plan) = c.jobs.map (fun j => j.plan)
  opened : ∀ t cq, c.open? t cq = true → d.open? t cq = true

theorem Core.Sends.refl (c : Core) : c.Sends c := ⟨rfl, rfl, rfl, rfl, fun _ _ opened => opened⟩

theorem Core.Sends.trans {c d e : Core} (first : c.Sends d) (then_ : d.Sends e) : c.Sends e :=
  ⟨then_.plans.trans first.plans, then_.parts.trans first.parts, then_.clk.trans first.clk, then_.jobs.trans first.jobs,
    fun t cq opened => then_.opened t cq (first.opened t cq opened)⟩

theorem Core.Sends.foldl {α : Type} {f : Core → α → Core} (each : ∀ (c : Core) (a : α), c.Sends (f c a)) (l : List α) (c : Core) : c.Sends (l.foldl f c) := by
  induction l generalizing c with
  | nil => exact .refl c
  | cons a l ih => exact (each c a).trans (ih (f c a))

theorem Core.Sends.of_unsent {c d : Core} (sends : d.unsent = c.unsent) : c.Sends d :=
  ⟨(congrArg Core.plans sends :), (congrArg Core.parts sends :), (congrArg Core.clk sends :),
    congrArg (fun l => l.map (fun j : Job => j.plan)) (congrArg Core.jobs sends :),
    fun _ _ => Core.open?_of_tens (Core.tens_congr_unsent sends)⟩

theorem Core.Sends.modPort (i : Nat) (f : Port → Port) (c : Core) : c.Sends (c.modPort i f) := ⟨rfl, rfl, rfl, rfl, fun _ _ opened => opened⟩

theorem Core.Sends.uncleanTenant (t : TenantId) (c : Core) : c.Sends (c.uncleanTenant t) := by
  refine ⟨rfl, rfl, rfl, ?_, fun _ _ opened => opened⟩
  rw [Core.uncleanTenant, List.map_map]
  refine List.map_congr_left fun j _ => ?_
  dsimp only [Function.comp_apply]
  split <;> rfl

theorem Core.Sends.logRec (r : Rec) (c : Core) : c.Sends (c.logRec r) := by
  obtain ⟨ts, o, frame⟩ := Core.logRec_frame r c
  refine ⟨?_, ?_, ?_, ?_, fun _ _ opened => Core.open?_logRec opened r⟩ <;> rw [frame]

theorem Core.Sends.unreachable (f : Frame) (c : Core) : c.Sends (c.unreachable f) := by
  have noted : ∀ (recent : Bool) (r : Rec) (l : List (Nat × BitVec 64)),
      c.Sends (if recent then c else (c.logRec r).modFab fun q => { q with unreach := l }) := fun recent r l => by
    cases recent with
    | false => exact (Core.Sends.logRec r c).trans ⟨rfl, rfl, rfl, rfl, fun _ _ opened => opened⟩
    | true => exact .refl c
  exact (noted _ _ _).trans (.uncleanTenant _ _)

theorem Core.Sends.enqueue (atSource : Bool) (f : Frame) (c : Core) : c.Sends (c.enqueue atSource f) := by
  unfold Core.enqueue
  split
  · exact .unreachable f c
  · split
    · exact (Core.Sends.logRec _ c).trans (.uncleanTenant _ _)
    · split
      · exact .unreachable f c
      · exact .modPort _ _ c

theorem Core.Sends.sendFrame (f : Frame) (c : Core) : c.Sends (c.sendFrame f) :=
  (Core.Sends.enqueue true _ c).trans (.of_unsent (Core.unsent_pumps _ _))

theorem Core.Sends.sendOn (i : Nat) (f : Frame) (c : Core) : c.Sends (c.sendOn i f) :=
  (Core.Sends.modPort i _ c).trans (.of_unsent (Core.unsent_pump i _))

theorem Core.Sends.mirrorSend (stream entry : Nat) (step : StepNo) (off : Nat) (data : List Byte) (c : Core) :
    c.Sends (c.mirrorSend stream entry step off data) := by
  refine Core.Sends.foldl (fun c f => ?_) _ c
  unfold Core.toPartner
  split
  · exact .sendOn _ f c
  · split
    · exact .refl c
    · exact .sendFrame f c

theorem Core.Sends.journalSend (plan : Nat) (step : StepNo) (data : List Byte) (c : Core) : c.Sends (c.journalSend plan step data) := by
  unfold Core.journalSend
  split
  · exact .refl c
  · exact (Core.Sends.mirrorSend 1 0xFF step _ data c).trans ⟨rfl, rfl, rfl, rfl, fun _ _ opened => opened⟩

/-! ### Plans admitted (06 R186, R187) -/

/-- Programs loaded write their die's station memory alone. -/
theorem Mach.loadPrograms_stores {keys : Nat → Prop} (p : Plan) {d : Nat} (inside : ∀ x, onDie d x → keys x) (m : Mach) :
    Mach.Stores keys m (m.loadPrograms p d) := by
  unfold Mach.loadPrograms
  split
  · exact .refl m
  · refine Mach.Stores.foldl _ fun m' _ x _ => ?_
    split
    · refine Mach.Stores.foldl _ fun m'' _ k mem => Mach.putUnit_stores (fun i lt => inside _ ?_) _ _ m''
      exact (Core.smUnits_onDie _ d _ _ k.1 (List.of_mem_zip mem).1).1 i lt
    · exact .refl m'

/-- A core with a plan in it, before its partner is told (06 R187). -/
def Core.seated (p : Plan) (c : Core) : Core :=
  { c with
    plans := c.plans ++ [p]
    leases := { c.leases with modes := p.bufs.foldl (fun l b => (p.granulesOf b).foldl (fun l g => insertKey g (if b.kind = 5 then GranMode.cache else .scratch) l) l) c.leases.modes }
    parts := c.parts.mapIdx (fun d q => { q with streams := { q.streams with chans := q.streams.chans ++ p.channels d } })
    clk := if c.plans.isEmpty then { c.clk with beatUs := BitVec.ofNat 17 p.hdr.beatUs, lenSet := true, epoch := 0, epochSet := false, clearAtEdge := false } else c.clk }

theorem Core.loadPlan_alone {c : Core} (alone : c.led.alone = true) (p : Plan) (img : List Byte) : c.loadPlan p img = c.seated p := if_pos alone

theorem Core.loadPlan_sends (p : Plan) (img : List Byte) (c : Core) : (c.seated p).Sends (c.loadPlan p img) := by
  unfold Core.loadPlan
  dsimp only
  split
  · exact .refl _
  · exact .journalSend ..

/-- A machine with a plan's programs in its dies. -/
def Mach.loaded (q : Plan) (m : Mach) : Mach := q.physParts.foldl (fun m d => m.loadPrograms q d) m

theorem Mach.loaded_stores (q : Plan) (m : Mach) : Mach.Stores (fun x => ∃ d ∈ q.physParts, onDie d x) m (m.loaded q) :=
  Mach.Stores.foldl _ fun m' _ d mem => m'.loadPrograms_stores q fun _ here => ⟨d, mem, here⟩

section
variable {e : Ev} {a : Accepted} {img : List Byte} {m : Mach}

theorem planAdmit_fails {f : AFail} (fails : admitTest { m with core := e.v } a.target img (a.par 16 4) = .inl f) :
    planAdmit e a img m = { status := f.status, detail := f.detail, m := m } := by
  simp only [planAdmit, fails]

theorem planAdmit_passes {p : Plan} (passes : admitTest { m with core := e.v } a.target img (a.par 16 4) = .inr p) (free : e.handle = 0) {q : Plan}
    (seated : q = { p with handle := e.v.freeHandle }) : planAdmit e a img m =
      { detail := q.admitDetail,
        m := (m.loaded q).up (fun c => (c.loadPlan q img).emit (.dma a.tenant (BitVec.ofNat 64 (a.par 24 8)) (q.bindRecords.take (a.par 32 4)))) } := by
  subst seated
  simp only [planAdmit, passes, free, if_true]
  rfl

end

/-- A command that writes memory, and that is replied to at once with a detail. -/
theorem State.asks.writes {s : State} {op : Nat} {t : TenantId} {sq : Nat} {tag : BitVec 32} {a : Accepted} (asks : s.asks op t sq tag a) {data : List Byte}
    {eval : Ev → Accepted → Mach → CmdOut} {m : Mach} {P : Wr → Prop} {f : Core → Core} {detail : List Byte}
    (effect : eval { v := s.view, now := false, since := some s.core.clk.count.toNat } a (startMach s) = { detail := detail, m := m.up f })
    (writes : Mach.Ext P (startMach s) m) :
    runM (runCmd op t sq tag true data eval) s = .next { s with core := (f m.core).reply a 0 detail, mem := m.mem } := by
  have answer : runCmd op t sq tag true data eval (startMach s) = (m.up f).up fun c => c.reply a 0 detail :=
    (asks.runCmd_eq true data eval).trans ((congrArg (CmdOut.answer a) effect).trans (CmdOut.answer_of_replied rfl))
  have reached := runM_ext (f := runCmd op t sq tag true data eval) (s := s) (P := P) (by rw [answer]; exact (writes.then_up _).then_up _)
  rw [reached, answer]
  rfl

theorem evalOp_planAdmit {a : Accepted} (op : a.opcode = 0x301) (e : Ev) (data : List Byte) (m : Mach) : evalOp e a data m = planAdmit e a data m := by
  simp only [evalOp, op]

theorem evalOp_planWithdraw {a : Accepted} (op : a.opcode = 0x302) (e : Ev) (data : List Byte) (m : Mach) : evalOp e a data m = planWithdraw e a m := by
  simp only [evalOp, op]

theorem evalOp_jobLaunch {a : Accepted} (op : a.opcode = 0x303) (e : Ev) (data : List Byte) (m : Mach) : evalOp e a data m = jobLaunch e a data m := by
  simp only [evalOp, op]

/-- A plan admitted (06 R186, R187). -/
theorem State.asks.admits {s : State} {t : TenantId} {sq : Nat} {tag : BitVec 32} {a : Accepted} (asks : s.asks 0x301 t sq tag a) {img : List Byte} {p : Plan}
    (passes : admitTest { startMach s with core := s.view } a.target img (a.par 16 4) = .inr p) {q : Plan}
      (seated : q = { p with handle := s.view.freeHandle }) :
    ∃ u k, exec (.planAdmit t sq tag (some img) true) s = .next u ∧ u.pwr = s.pwr ∧ u.core.plans = s.core.plans ++ [q] ∧
      u.core.jobs.map (fun j => j.plan) = s.core.jobs.map (fun j => j.plan) ∧ (s.core.led.alone = true → u.core.jobs = s.core.jobs) ∧
      u.core.parts = s.core.parts.mapIdx (fun d x => { x with streams := { x.streams with chans := x.streams.chans ++ q.channels d } }) ∧
      Out.cqEntry a.tenant a.cq k (entryBytes a.tag.toNat 0 q.admitDetail) ∈ u.core.out ∧
      Out.dma a.tenant (BitVec.ofNat 64 (a.par 24 8)) (q.bindRecords.take (a.par 32 4)) ∈ u.core.out ∧
      u.core.clk = (s.core.seated q).clk ∧ ∀ x, (∀ d ∈ q.physParts, ¬ onDie d x) → memByte u.mem x = memByte s.mem x := by
  have stores := (startMach s).loaded_stores q
  have core : ((startMach s).loaded q).core.unlined = s.start.unlined := stores.core
  have effect := (evalOp_planAdmit asks.opcode _ _ _).trans (planAdmit_passes (e := { v := s.view, now := false, since := some s.core.clk.count.toNat }) passes rfl seated)
  have run := asks.writes (data := img) (eval := fun e a m => evalOp e a img m) effect stores.writes
  have byte : ∀ x, (∀ d ∈ q.physParts, ¬ onDie d x) → memByte ((startMach s).loaded q).mem x = memByte s.mem x :=
    fun x outside => stores.byte fun ⟨d, mem, here⟩ => outside d mem here
  generalize (startMach s).loaded q = m at run byte core
  have sends := m.core.loadPlan_sends q img
  obtain ⟨ts, os, reply⟩ := Core.reply_frame a 0 q.admitDetail
    ((m.core.loadPlan q img).emit (.dma a.tenant (BitVec.ofNat 64 (a.par 24 8)) (q.bindRecords.take (a.par 32 4))))
  have opened : (m.core.loadPlan q img).open? a.tenant.toNat a.cq = true :=
    sends.opened _ _ (Core.open?_of_tens (c := s.core) ((congrArg Core.tens core :)) asks.queue)
  obtain ⟨k, sent⟩ := Core.cqEntry_mem_out_reply (c := (m.core.loadPlan q img).emit (.dma a.tenant (BitVec.ofNat 64 (a.par 24 8))
    (q.bindRecords.take (a.par 32 4))))
    opened 0 q.admitDetail
  refine ⟨_, k, run, rfl, ?_, ?_, fun alone => ?_, ?_, sent, Core.mem_out_reply (List.mem_append_right _ (List.mem_singleton_self _)) _ _ _, ?_, byte⟩
  all_goals rw [reply]
  · exact sends.plans.trans (congrArg (fun c => c.plans ++ [q]) core :)
  · exact sends.jobs.trans (congrArg (fun c => c.jobs.map fun j => j.plan) core :)
  · have led : m.core.led.alone = true := (congrArg (fun c => c.led.alone) core :).trans alone
    exact (congrArg Core.jobs (Core.loadPlan_alone led q img)).trans (congrArg Core.jobs core :)
  · exact sends.parts.trans (congrArg (fun c => (c.seated q).parts) core :)
  · exact sends.clk.trans (congrArg (fun c => (c.seated q).clk) core :)

/-! ### Plans withdrawn (Table 13-9) -/

theorem lookup?_map_val {α β : Type} [BEq α] {f : α × β → α × β} {g : β → β} (each : ∀ e, f e = (e.1, g e.2)) (k : α) (l : List (α × β)) :
    lookup? k (l.map f) = (lookup? k l).map g := by
  induction l with
  | nil => rfl
  | cons e l ih =>
    rw [List.map_cons, each, lookup?, lookup?, ih]
    split <;> rfl

/-- Queues changed one by one are in error where they were. -/
theorem Core.open?_mapQueues {c d : Core} {g : Queue → Queue} {f : Nat × Queue → Nat × Queue} (each : ∀ e, f e = (e.1, g e.2)) (err : ∀ q, (g q).err = q.err)
    (tens : d.tens = c.tens.map fun e => (e.1, { e.2 with queues := e.2.queues.map f })) (t cq : Nat) : d.open? t cq = c.open? t cq := by
  have ten : (d.ten t).queues = (c.ten t).queues.map f := by
    rw [Core.ten, tens, lookup?_map_val (g := fun x : Ten => { x with queues := x.queues.map f }) (fun _ => rfl), Core.ten]
    cases lookup? t c.tens <;> rfl
  rw [Core.open?, Core.open?, ten, lookup?_map_val each, Option.any_map]
  simp only [err]

theorem Core.open?_dropPlan (h : Nat) (c : Core) (t cq : Nat) : (c.dropPlan h).open? t cq = c.open? t cq := by
  cases found : c.plan? h with
  | none => simp only [Core.dropPlan, found]
  | some p =>
    refine Core.open?_mapQueues (g := fun q => if q.kind == .rq && q.rqPlan == h then { q with rqPlan := 0, tags := [] } else q) (fun e => ?_) (fun q => ?_)
      (by rw [Core.dropPlan, found]) t cq
    · split <;> rfl
    · split <;> rfl

theorem Core.dropPlan_plans (h : Nat) (c : Core) : (c.dropPlan h).plans = c.plans.filter (fun p => p.handle != h) := by
  cases found : c.plan? h with
  | none =>
    simp only [Core.dropPlan, found]
    exact (List.filter_eq_self.2 fun p mem => by simpa using List.find?_eq_none.1 found p mem).symm
  | some p =>
    rw [Core.dropPlan, found]
    rfl

theorem Core.dropPlan_jobs {h : Nat} {c : Core} (there : c.plan? h ≠ none) : (c.dropPlan h).jobs = c.jobs.filter (fun j => j.plan != h) := by
  obtain ⟨p, found⟩ := Option.ne_none_iff_exists'.1 there
  rw [Core.dropPlan, found]
  rfl

theorem Core.buildSlots_leaves {α : Type} (f : Core → α) (same : ∀ (c : Core) ps cs, f { c with parts := ps, csSlots := cs } = f c) (c : Core) :
    f c.buildSlots = f c := by
  unfold Core.buildSlots
  dsimp only
  split
  · exact same c _ _
  · exact same c _ _

section
variable {e : Ev} {a : Accepted} {m : Mach}

theorem planWithdraw_unknown (unknown : e.v.planNamed a.target (a.par 8 2) = none) : planWithdraw e a m = refuse 0x30F m := by
  simp only [planWithdraw, unknown]

variable {p : Plan} (named : e.v.planNamed a.target (a.par 8 2) = some p)
include named

theorem planWithdraw_leaving (leaving : p.withdrawAt.isSome = true ∨ p.withdrawAfter.isSome = true ∨ p.forced = true) : planWithdraw e a m = refuse 6 m := by
  have leaves : (p.withdrawAt.isSome || p.withdrawAfter.isSome || p.forced) = true := by simpa [or_assoc] using leaving
  simp only [planWithdraw, named, leaves, if_true]

variable (at_ : p.withdrawAt = none) (after : p.withdrawAfter = none) (forced : p.forced = false)
include at_ after forced

theorem planWithdraw_after (kind : a.par 10 1 = 1) (later : e.now = false) : planWithdraw e a m =
    { wait := true, m := m.up (fun c => c.modPlan (a.par 8 2) (fun p => { p with withdrawAfter := some (BitVec.ofNat 40 (a.par 16 5)) })) } := by
  simp [planWithdraw, named, at_, after, forced, kind, later]

theorem planWithdraw_edge (kind : a.par 10 1 = 0) (later : e.now = false) (beat : m.core.clk.epochSet = true) : planWithdraw e a m =
    { wait := true, m := m.up (fun c => c.modPlan (a.par 8 2) (fun p => { p with withdrawAt := some (c.edgeAfter (c.clk.count.toNat + 1)) })) } := by
  simp [planWithdraw, named, at_, after, forced, kind, later, beat]

theorem planWithdraw_still (kind : a.par 10 1 = 0) (still : m.core.clk.epochSet = false) : planWithdraw e a m =
    { detail := details [(8, 8, m.core.clk.count.toNat)], m := m.up (fun c => (c.dropPlan (a.par 8 2)).buildSlots) } := by
  simp [planWithdraw, named, at_, after, forced, kind, still]

end

/-! ### Jobs launched (06 R195, 10 R340) -/

/-- The time of a launch is late or no edge (06 R195). -/
def launchLate (lc : Nat) (ck : Clock) (now : Nat) : Bool :=
  lc % 1000 != 0 || (ck.epochSet && (max lc ck.epoch.toNat - min lc ck.epoch.toNat) % max (ck.beatUs.toNat * 1000) 1 != 0) || decide (lc < now + 1000000)

theorem launchLate_iff {lc : Nat} {ck : Clock} {now : Nat} : launchLate lc ck now = true ↔ ¬(lc % 1000 = 0 ∧ now + 1000000 ≤ lc ∧
    (ck.epochSet = true → (max lc ck.epoch.toNat - min lc ck.epoch.toNat) % max (ck.beatUs.toNat * 1000) 1 = 0)) := by
  cases beat : ck.epochSet <;> simp [launchLate, beat] <;> omega

/-- A job launched of a plan (06 R195). -/
def Core.launch (p : Plan) (a : Accepted) (lm : Nat) (es : List SealEnt) (c : Core) : Core :=
  { c with
    jobs := c.jobs.filter (fun k => !(k.plan == a.par 8 2)) ++ [mkJob p (BitVec.ofNat 64 (a.par 16 8)) (BitVec.ofNat 40 (a.par 24 5))
        (BitVec.ofNat 64 (a.par 32 8)) lm es]
    clk := if c.clk.epochSet then c.clk else { c.clk with epoch := BitVec.ofNat 64 (a.par 16 8), epochSet := true }
    spool := { c.spool with restored := c.spool.restored.filter (fun r => !(r.1 == a.par 8 2)) } }

section
variable {e : Ev} {a : Accepted} {m : Mach} {b : List Byte}

theorem jobLaunch_unknown (unknown : e.v.planNamed a.target (a.par 8 2) = none) : jobLaunch e a b m = refuse 0x30F m := by
  simp only [jobLaunch, unknown]

variable {p : Plan} (named : e.v.planNamed a.target (a.par 8 2) = some p)
include named

theorem jobLaunch_unready (unready : m.pwr.halted = true ∨ e.v.restoring (a.par 8 2) = true ∨
    ∃ j, e.v.job? (a.par 8 2) = some j ∧ j.phase ≠ .stoppedLimit ∧ j.phase ≠ .stoppedFallback) : jobLaunch e a b m = refuse 0x310 m := by
  rcases unready with halted | restoring | ⟨j, job, limit, fallback⟩
  · simp [jobLaunch, named, halted]
  · simp [jobLaunch, named, restoring]
  · simp [jobLaunch, named, job, limit, fallback]

variable {now : Nat} (since : e.since = some now) (halted : m.pwr.halted = false) (restoring : e.v.restoring (a.par 8 2) = false)
    (job : e.v.job? (a.par 8 2) = none)
include since halted restoring job

theorem jobLaunch_late (late : launchLate (a.par 16 8) e.v.clk now = true) : jobLaunch e a b m = refuse 0x30E m := by
  unfold launchLate at late
  simp [jobLaunch, named, since, halted, restoring, job, late]

theorem jobLaunch_badSeals (good : launchLate (a.par 16 8) e.v.clk now = false)
    (bad : b.length ≠ a.par 12 4 ∨ readSealMap b = none ∨ ∃ es, readSealMap b = some es ∧ e.v.sealMapOk p es = false) : jobLaunch e a b m = refuse 0x30C m := by
  have none_ : (if (b.length == a.par 12 4) = true then (readSealMap b).filter (e.v.sealMapOk p) else none) = none := by
    rcases bad with length | unread | ⟨es, read, seals⟩
    · exact if_neg (by simpa using length)
    · simp [unread]
    · simp [read, seals]
  unfold launchLate at good
  simp only [jobLaunch, named, since, halted, restoring, job, good, none_]
  rfl

theorem jobLaunch_good (fresh : ∀ r ∈ e.v.spool.restored, r.1 ≠ a.par 8 2) (good : launchLate (a.par 16 8) e.v.clk now = false) (length : b.length = a.par 12 4)
    {es : List SealEnt} (read : readSealMap b = some es) (seals : e.v.sealMapOk p es = true) : jobLaunch e a b m =
      { detail := details [(8, 8, ((m.core.launch p a (e.v.lmOf p.hdr p.tenant) es).clk.epoch).toNat)], m := m.up (Core.launch p a (e.v.lmOf p.hdr p.tenant) es) } := by
  have found : (if (b.length == a.par 12 4) = true then (readSealMap b).filter (e.v.sealMapOk p) else none) = some es := by simp [length, read, seals]
  have unrestored : e.v.spool.restored.find? (fun r => r.1 == a.par 8 2) = none := List.find?_eq_none.2 fun r mem => by simpa using fresh r mem
  unfold launchLate at good
  simp only [jobLaunch, named, since, halted, restoring, job, good, found, unrestored]
  rfl

end

section
variable {s : State} {t : TenantId} {sq : Nat} {tag : BitVec 32} {a : Accepted}

theorem Core.handle_of_planNamed {c : Core} {u : TenantId} {h : Nat} {p : Plan} (named : c.planNamed u h = some p) : p.handle = h := by
  obtain ⟨q, found, own⟩ := Option.bind_eq_some_iff.1 named
  split at own
  · exact Option.some.inj own ▸ Core.plan?_handle found
  · exact absurd own nofun

theorem Accepted.par_lt (a : Accepted) (i n : Nat) : a.par i n < 256 ^ n :=
  (natLE_lt _).trans_le (Nat.pow_le_pow_right (by decide) (by simp [slice]))

theorem Core.launch_job? {c : Core} {p : Plan} {lm : Nat} {es : List SealEnt} (handle : p.handle = a.par 8 2) : (c.launch p a lm es).job? (a.par 8 2) =
    some (mkJob p (BitVec.ofNat 64 (a.par 16 8)) (BitVec.ofNat 40 (a.par 24 5)) (BitVec.ofNat 64 (a.par 32 8)) lm es) := by
  have others : (c.jobs.filter (fun k => !(k.plan == a.par 8 2))).find? (fun j => j.plan == a.par 8 2) = none :=
    List.find?_eq_none.2 fun j mem => by simpa using (List.mem_filter.1 mem).2
  rw [Core.job?, Core.launch, List.find?_append, others, Option.none_or]
  exact List.find?_cons_of_pos (beq_iff_eq.2 handle)

theorem Core.launch_others {c : Core} {p : Plan} {lm : Nat} {es : List SealEnt} (handle : p.handle = a.par 8 2) {x : Nat} (other : x ≠ a.par 8 2) :
    (c.launch p a lm es).job? x = c.job? x := by
  have last : [mkJob p (BitVec.ofNat 64 (a.par 16 8)) (BitVec.ofNat 40 (a.par 24 5)) (BitVec.ofNat 64 (a.par 32 8)) lm es].find?
    (fun j => j.plan == x) = none :=
    List.find?_eq_none.2 fun j mem => by
      rw [List.mem_singleton.1 mem]
      simpa [mkJob, handle] using other.symm
  rw [Core.job?, Core.launch, List.find?_append, last, Option.or_none, List.find?_filter, Core.job?]
  congr 1
  funext k
  by_cases here : k.plan = x <;> simp [here, other]

/-- A plan withdrawn at once (Table 13-9). -/
theorem State.asks.withdraws (asks : s.asks 0x302 t sq tag a) (effect : planWithdraw { v := s.view, now := false, since := some s.core.clk.count.toNat } a
    (startMach s) =
      { detail := details [(8, 8, s.core.clk.count.toNat)], m := (startMach s).up (fun c => (c.dropPlan (a.par 8 2)).buildSlots) }) :
    ∃ u k, exec (.planWithdraw t sq tag) s = .next u ∧ u.mem = s.mem ∧ u.pwr = s.pwr ∧ u.core.plans = s.core.plans.filter (fun p => p.handle != a.par 8 2) ∧
      (s.core.plan? (a.par 8 2) ≠ none → u.core.jobs = s.core.jobs.filter (fun j => j.plan != a.par 8 2)) ∧
      Out.cqEntry a.tenant a.cq k (entryBytes a.tag.toNat 0 (details [(8, 8, s.core.clk.count.toNat)])) ∈ u.core.out := by
  obtain ⟨ts, os, reply⟩ := Core.reply_frame a 0 (details [(8, 8, s.core.clk.count.toNat)]) (s.start.dropPlan (a.par 8 2)).buildSlots
  have opened : (s.start.dropPlan (a.par 8 2)).buildSlots.open? a.tenant.toNat a.cq = true :=
    Core.open?_of_tens (Core.buildSlots_tens _) ((Core.open?_dropPlan ..).trans asks.queue)
  obtain ⟨k, sent⟩ := Core.cqEntry_mem_out_reply opened 0 (details [(8, 8, s.core.clk.count.toNat)])
  refine ⟨_, k, asks.run ((evalOp_planWithdraw asks.opcode _ _ _).trans effect), rfl, rfl, ?_, fun there => ?_, sent⟩
  · rw [reply]
    exact (Core.buildSlots_leaves Core.plans (fun _ _ _ => rfl) _).trans (Core.dropPlan_plans ..)
  · rw [reply]
    exact (Core.buildSlots_leaves Core.jobs (fun _ _ _ => rfl) _).trans (Core.dropPlan_jobs there)

/-- A job launched (06 R195). -/
theorem State.asks.launches (asks : s.asks 0x303 t sq tag a) {b : List Byte} {p : Plan} (handle : p.handle = a.par 8 2) {lm : Nat} {es : List SealEnt}
    (effect : jobLaunch { v := s.view, now := false, since := some s.core.clk.count.toNat } a b (startMach s) =
      { detail := details [(8, 8, (s.core.launch p a lm es).clk.epoch.toNat)], m := (startMach s).up (Core.launch p a lm es) }) :
    ∃ u j k, exec (.jobLaunch t sq tag (some b)) s = .next u ∧ u.mem = s.mem ∧ u.pwr = s.pwr ∧ u.core.plans = s.core.plans ∧ u.core.job? (a.par 8 2) = some j ∧
      j.phase = .launching ∧ j.tenant = p.tenant ∧ j.lc.toNat = a.par 16 8 ∧ j.step = BitVec.ofNat 40 (a.par 24 5) ∧ j.sealMap = es ∧
      (∀ x, x ≠ a.par 8 2 → u.core.job? x = s.core.job? x) ∧
      u.core.clk = (if s.core.clk.epochSet then s.core.clk else { s.core.clk with epoch := BitVec.ofNat 64 (a.par 16 8), epochSet := true }) ∧
      Out.cqEntry a.tenant a.cq k (entryBytes a.tag.toNat 0 (details [(8, 8, u.core.clk.epoch.toNat)])) ∈ u.core.out := by
  obtain ⟨ts, os, reply⟩ := Core.reply_frame a 0 (details [(8, 8, (s.core.launch p a lm es).clk.epoch.toNat)]) (s.start.launch p a lm es)
  have opened : (s.start.launch p a lm es).open? a.tenant.toNat a.cq = true := asks.queue
  obtain ⟨k, sent⟩ := Core.cqEntry_mem_out_reply opened 0 (details [(8, 8, (s.core.launch p a lm es).clk.epoch.toNat)])
  refine ⟨_, _, k, asks.run (data := b) (eval := fun e a m => evalOp e a b m) ((evalOp_jobLaunch asks.opcode _ _ _).trans effect), rfl, rfl, ?_,
    (Core.job?_reply ..).trans (Core.launch_job? handle), rfl, rfl, ?_, rfl, rfl, fun x other => (Core.job?_reply ..).trans
      (Core.launch_others handle other), ?_, ?_⟩
  · rw [reply]
    rfl
  · exact (BitVec.toNat_ofNat ..).trans (Nat.mod_eq_of_lt (a.par_lt 16 8))
  · rw [reply]
    rfl
  · have clk : ((s.start.launch p a lm es).reply a 0 (details [(8, 8, (s.core.launch p a lm es).clk.epoch.toNat)])).clk = (s.core.launch p a lm es).clk := by
      rw [reply]
      rfl
    dsimp only
    rw [clk]
    exact sent

end

/-! ### Host data (13 R460) -/

theorem jobQuery_unknown {a : Accepted} {m : Mach} (unknown : m.core.planNamed a.target (a.par 8 2) = none) : jobQuery a m = refuse 0x30F m := by
  simp only [jobQuery, unknown]

theorem jobQuery_job {a : Accepted} {m : Mach} {p : Plan} {j : Job} (named : m.core.planNamed a.target (a.par 8 2) = some p)
    (job : m.core.job? (a.par 8 2) = some j) :
    jobQuery a m = { m := m, detail := details [(6, 5, j.lastSealed.toNat), (11, 1, j.state), (12, 5, j.step.toNat), (17, 2, j.beat),
      (19, 1, (j.tryOf (j.lastSealed + 1)).attempt)] } := by
  rw [← Core.handle_of_planNamed named] at job
  simp only [jobQuery, named, job]

section
variable {a : Accepted} {m : Mach}

theorem dataPut_unreached (none_ : m.core.hostKeys a.target (a.par 16 8) (a.par 24 4) = none) (data : List Byte) : dataPut a data m = refuse 0x30C m := by
  simp only [dataPut, none_]

theorem dataGet_unreached (none_ : m.core.hostKeys a.target (a.par 16 8) (a.par 24 4) = none) : dataGet a m = refuse 0x30C m := by
  simp only [dataGet, none_]

variable {l : List Nat} (keys : m.core.hostKeys a.target (a.par 16 8) (a.par 24 4) = some l)
include keys

theorem dataPut_guarded (guarded : m.core.sealGuard true l = true) (data : List Byte) : dataPut a data m = refuse 0x30C m := by
  simp only [dataPut, keys, guarded, if_true]

theorem dataPut_puts (free : m.core.sealGuard true l = false) {data : List Byte} (length : data.length = 64 * l.length) :
    dataPut a data m = { m := m.putUnits l data false } := by
  simp only [dataPut, keys, free, Bool.false_eq_true, if_false, padTo_of_length length]

theorem dataGet_guarded (guarded : m.core.sealGuard false l = true) : dataGet a m = refuse 0x30C m := by
  simp only [dataGet, keys, guarded, if_true]

theorem dataGet_gets (free : m.core.sealGuard false l = false) :
    dataGet a m = { m := m.up (Core.emit (.dma a.tenant (BitVec.ofNat 64 (a.par 8 8)) (m.units l))) } := by
  simp only [dataGet, keys, free, Bool.false_eq_true, if_false]

end

/-- What units put into memory leave there (13 R460). -/
structure Mach.Put (l : List Nat) (data : List Byte) (m m' : Mach) : Prop where
  stores : Mach.Stores (fun x => ∃ k ∈ l, k ≤ x ∧ x < k + 64) m m'
  byte : ∀ i < l.length, ∀ x < 64, memByte m'.mem (l.getD i 0 + x) = data.getD (64 * i + x) 0
  sound : ∀ k ∈ l, memPoisoned m'.mem (k / 64) 1 = false

theorem Mach.putUnits_put {l : List Nat} {data : List Byte} (m : Mach) (distinct : l.Nodup) (aligned : ∀ k ∈ l, k % 64 = 0)
    (length : data.length = 64 * l.length) :
    Mach.Put l data m (m.putUnits l data false) := by
  have chunks_ := chunks_eq (by decide) data length
  have firsts : (l.zip (chunks 64 data)).map Prod.fst = l := List.map_fst_zip (by simp [chunks_])
  have keys : ∀ e ∈ l.zip (chunks 64 data), e.1 ∈ l := fun e mem => (List.of_mem_zip mem).1
  refine ⟨Mach.Stores.foldl _ fun m' _ e mem => Mach.putUnit_stores (fun i lt => ⟨e.1, keys e mem, by omega, by omega⟩) _ _ m', fun i lt x small => ?_,
    fun k mem => ?_⟩
  · have piece : (l.getD i 0, (data.drop (64 * i)).take 64) ∈ l.zip (chunks 64 data) := by
      refine List.mem_iff_getElem.2 ⟨i, by simp [chunks_, lt], ?_⟩
      simp [chunks_, lt]
    refine (Mach.putPieces_inside _ false m (firsts.symm ▸ distinct) (fun e mem => aligned _ (keys e mem)) _ piece x small).trans ?_
    rw [padTo_of_length (by rw [List.length_take, List.length_drop]; omega)]
    simp [List.getD_eq_getElem?_getD, small]
  · refine Mach.putPieces_poison_inside _ false m _ (.inl ?_)
    obtain ⟨e, there, rfl⟩ := List.mem_map.1 (firsts.symm ▸ mem : k ∈ (l.zip (chunks 64 data)).map Prod.fst)
    exact ⟨e, there, rfl⟩

/-- A command that puts units into memory. -/
theorem State.asks.puts {s : State} {op : Nat} {t : TenantId} {sq : Nat} {tag : BitVec 32} {a : Accepted}
    (asks : s.asks op t sq tag a) {eval : Ev → Accepted → Mach → CmdOut}
    {m : Mach} {l : List Nat} {data : List Byte} (effect : eval { v := s.view, now := false, since := some s.core.clk.count.toNat } a
        (startMach s) = { m := m })
    (put : Mach.Put l data (startMach s) m) : ∃ u, runM (runCmd op t sq tag true [] eval) s = .next u ∧
      u.answered { s with mem := u.mem, core := { s.core with gens := u.core.gens, commonsLines := u.core.commonsLines } } a 0 [] ∧
      (∀ i < l.length, ∀ x < 64, memByte u.mem (l.getD i 0 + x) = data.getD (64 * i + x) 0) ∧ (∀ k ∈ l, memPoisoned u.mem (k / 64) 1 = false) ∧
      ∀ x, (∀ k ∈ l, ¬ (k ≤ x ∧ x < k + 64)) → memByte u.mem x = memByte s.mem x := by
  obtain ⟨ts, os, reply⟩ := Core.reply_frame a 0 [] m.core
  have same : m.core = { s.start with gens := m.core.gens, commonsLines := m.core.commonsLines } := Core.eq_of_unlined put.stores.core
  refine ⟨_, asks.writes (f := id) effect put.stores.writes, State.answered_reply (c := m.core) rfl rfl rfl ?_ asks.queue, put.byte, put.sound,
    fun x outside => put.stores.byte fun ⟨k, mem, here⟩ => outside k mem here⟩
  dsimp only [id]
  rw [reply]
  exact congrArg (fun c : Core => { c with out := s.core.out }) same

/-- Settles O50: each command's evaluation comes to the effect and the reply that its row names. -/
theorem planJobAndDataCommandsAnswer : Obligations.PlanJobAndDataCommandsAnswer := by
  unfold Obligations.PlanJobAndDataCommandsAnswer
  intro s t sq tag a T v h now runs
  refine ⟨fun asks => ⟨asks.unread _ _, fun img => ⟨asks.unread _ _, fun f fails => ?_, fun p passes => ?_⟩⟩,
    fun asks => ⟨fun unknown => ?_, fun p named => ⟨fun leaving => ?_, fun at_ after forced => ⟨fun kind => ?_, fun kind beat => ?_, fun kind still => ?_⟩⟩⟩,
    fun asks => ⟨asks.unread _ _, fun b => ⟨fun unknown => ?_, fun p named => ⟨fun unready => ?_,
      fun halted restoring job fresh => ⟨fun late => ?_, fun good bad => ?_,
      fun good length es read seals => ?_⟩⟩⟩⟩,
    fun asks => ⟨fun unknown => ?_, fun p j named job => ?_⟩,
    fun asks => ⟨asks.unread _ _, fun data => ⟨fun none_ => ?_, fun l keys => ⟨fun guarded => ?_, fun free distinct aligned length => ?_⟩⟩⟩,
    fun asks => ⟨asks.unread _ _, fun none_ => ?_, fun l keys => ⟨fun guarded => ?_, fun free => ?_⟩⟩⟩
  · exact asks.settles (data := img) (eval := fun e a m => evalOp e a img m) (f := id) ((evalOp_planAdmit asks.opcode _ _ _).trans
    (planAdmit_fails fails)) rfl asks.queue
  · obtain ⟨u, k, run, pwr, plans, jobs, alone, parts, sent, records, clk, byte⟩ := asks.admits passes rfl
    refine ⟨u, k, run, pwr, plans, jobs, alone, parts, sent, records, fun first => ?_, fun later => ?_, byte⟩
    · rw [clk, Core.seated, first]
      rfl
    · exact clk.trans (if_neg (by simpa using later))
  · exact asks.refuses ((evalOp_planWithdraw asks.opcode _ _ _).trans (planWithdraw_unknown unknown))
  · exact asks.refuses ((evalOp_planWithdraw asks.opcode _ _ _).trans (planWithdraw_leaving named leaving))
  · exact ⟨_, asks.waits ((evalOp_planWithdraw asks.opcode _ _ _).trans (planWithdraw_after named at_ after forced kind rfl)), rfl, rfl, rfl⟩
  · exact ⟨_, asks.waits ((evalOp_planWithdraw asks.opcode _ _ _).trans (planWithdraw_edge named at_ after forced kind rfl beat)), rfl, rfl, rfl⟩
  · exact asks.withdraws (planWithdraw_still named at_ after forced kind still)
  · exact asks.refuses ((evalOp_jobLaunch asks.opcode _ _ _).trans (jobLaunch_unknown unknown))
  · exact asks.refuses ((evalOp_jobLaunch asks.opcode _ _ _).trans (jobLaunch_unready named unready))
  · exact asks.refuses ((evalOp_jobLaunch asks.opcode _ _ _).trans (jobLaunch_late named rfl halted restoring job (launchLate_iff.2 late)))
  · have good := Bool.eq_false_iff.2 (fun late => launchLate_iff.1 late good)
    exact asks.refuses ((evalOp_jobLaunch asks.opcode _ _ _).trans (jobLaunch_badSeals named rfl halted restoring job good bad))
  · have good := Bool.eq_false_iff.2 (fun late => launchLate_iff.1 late good)
    exact asks.launches (Core.handle_of_planNamed named) (jobLaunch_good named rfl halted restoring job fresh good length read seals)
  · exact asks.refuses (jobQuery_unknown unknown)
  · exact asks.reports (jobQuery_job named job)
  · exact asks.refuses (dataPut_unreached none_ data)
  · exact asks.refuses (dataPut_guarded keys guarded data)
  · exact asks.puts (dataPut_puts keys free length) ((startMach s).putUnits_put distinct aligned length)
  · exact asks.refuses (dataGet_unreached none_)
  · exact asks.refuses (dataGet_guarded keys guarded)
  · exact ⟨_, asks.run (dataGet_gets keys free), State.answered_reply rfl rfl rfl rfl asks.queue,
      Core.mem_out_reply (List.mem_append_right _ (List.mem_singleton_self _)) _ _ _⟩

end Sys2Proof.Machine
end

section
/-!
Tenants and leases (13 R459, R465, R466; 07 R211, R218, R221; 12 R418).
-/

namespace Sys2Proof.Machine

/-- What a command packet is evaluated against. -/
abbrev State.ev (s : State) : Ev := { v := s.view, now := false, since := some s.core.clk.count.toNat }

section
variable {a : Accepted} (e : Ev) (data : List Byte) (m : Mach)

theorem evalOp_leasePartition (op : a.opcode = 0x203) : evalOp e a data m = leasePartition e a.target (a.par 8 1) (a.par 9 1) m := by
  simp only [evalOp, op]

theorem evalOp_leaseGranules (op : a.opcode = 0x204) : evalOp e a data m = leaseGranules e a.target (a.par 8 1) (a.par 9 1) (a.par 16 6) m := by
  simp only [evalOp, op]

theorem evalOp_leaseHbm (op : a.opcode = 0x205) : evalOp e a data m = leaseHbm e a.target (a.par 8 1) (a.par 9 1) (a.par 10 2) (a.par 12 2) m := by
  simp only [evalOp, op]

theorem evalOp_leaseBandwidth (op : a.opcode = 0x206) : evalOp e a data m = leaseBandwidth e a.target (a.par 8 1) (a.par 9 1) (a.par 10 2) m := by
  simp only [evalOp, op]

theorem evalOp_leaseLink (op : a.opcode = 0x207) : evalOp e a data m = leaseLink e a.target (a.par 9 1) (a.par 16 8) m := by
  simp only [evalOp, op]

end

/-! ### Revokes (13 R466) -/

/-- Plans marked for a revoke with FORCE. -/
def Core.markForced (us : List Nat) (c : Core) : Core := { c with plans := c.plans.map (fun p => if us.contains p.handle then { p with forced := true } else p) }

theorem Core.markForced_cons (h : Nat) (us : List Nat) (c : Core) :
    (c.modPlan h (fun p => { p with forced := true })).markForced us = c.markForced (h :: us) := by
  have plans : (c.modPlan h (fun p => { p with forced := true })).plans.map (fun p => if us.contains p.handle then { p with forced := true } else p) =
      c.plans.map (fun p => if (h :: us).contains p.handle then { p with forced := true } else p) := by
    rw [Core.modPlan, List.map_map]
    refine List.map_congr_left fun p _ => ?_
    by_cases here : p.handle = h
    · simp [here]
    · simp [here]
  rw [Core.markForced, plans]
  rfl

theorem Mach.foldl_markForced (us : List Nat) (m : Mach) :
    us.foldl (fun m h => m.up (fun c => c.modPlan h (fun p => { p with forced := true }))) m = m.up (Core.markForced us) := by
  induction us generalizing m with
  | nil =>
    have none_ : m.core.markForced [] = m.core := by simp [Core.markForced]
    rw [List.foldl_nil, Mach.up, none_]
  | cons h us ih =>
    rw [List.foldl_cons, ih]
    exact congrArg (fun c => { m with core := c }) (Core.markForced_cons h us m.core)

section
variable {e : Ev} {force : Bool} {us : List Nat} {undo : Mach → Mach} {detail : Core → List Byte} {m : Mach}

theorem revoke_unused (unused : us = []) : revoke e force us undo detail m = { detail := detail (undo m).core, m := undo m } := by
  subst unused
  rfl

theorem revoke_used (used : us ≠ []) (plain : force = false) : revoke e force us undo detail m = refuse 0x202 m := by
  simp [revoke, used, plain]

theorem revoke_forced (used : us ≠ []) (forced : force = true) (later : e.now = false) (beat : m.core.clk.epochSet = true) :
    revoke e force us undo detail m = { wait := true, m := m.up (Core.markForced us) } := by
  simp [revoke, used, forced, later, beat, Mach.foldl_markForced]

end

section
variable {s : State} {op : Nat} {t : TenantId} {sq : Nat} {tag : BitVec 32} {a : Accepted} (asks : s.asks op t sq tag a) {data : List Byte}
  {eval : Ev → Accepted → Mach → CmdOut} {force : Bool} {us : List Nat} {undo : Mach → Mach} {detail : Core → List Byte}
  (effect : eval { v := s.view, now := false, since := some s.core.clk.count.toNat } a (startMach s) =
    revoke { v := s.view, now := false, since := some s.core.clk.count.toNat } force us undo detail (startMach s))
include asks effect

theorem State.asks.revokes {f : Core → Core} (unused : us = []) (does : undo (startMach s) = (startMach s).up f) {d : List Byte} (told : detail (f s.start) = d)
    (same : { f s.start with out := (f s.core).out } = f s.core) (opened : (f s.core).open? a.tenant.toNat a.cq = true) :
    ∃ u, runM (runCmd op t sq tag true data eval) s = .next u ∧ u.answered (s.upd f) a 0 d := by
  refine asks.settles (effect.trans ((revoke_unused unused).trans ?_)) same opened
  rw [does, ← told]
  rfl

theorem State.asks.keepsUsed (used : us ≠ []) (plain : force = false) : ∃ u, runM (runCmd op t sq tag true data eval) s = .next u ∧ u.answered s a 0x202 [] :=
  asks.refuses (effect.trans (revoke_used used plain))

theorem State.asks.forces (used : us ≠ []) (forced : force = true) (beat : s.core.clk.epochSet = true) :
    ∃ u, runM (runCmd op t sq tag true data eval) s = .next u ∧ u.waits (s.upd (Core.markForced us)) a :=
  ⟨_, asks.waits (effect.trans (revoke_forced used forced rfl beat)), rfl, rfl, rfl⟩

end

/-! ### Memory cleared before a grant (07 R211, R218) -/

theorem memPoisoned_eq_false {m : Mem} {u n : Nat} (each : ∀ v, u ≤ v → v < u + n → memPoisoned m v 1 = false) : memPoisoned m u n = false := by
  rw [memPoisoned, List.any_eq_false]
  intro v mem inside
  rw [Bool.and_eq_true, decide_eq_true_eq, decide_eq_true_eq] at inside
  have here := List.any_eq_false.1 (each v inside.1 inside.2) v mem
  simp at here

theorem Mach.clear_byte (k n x : Nat) (m : Mach) : memByte (m.clear k n).mem x = if k ≤ x ∧ x < k + n then 0 else memByte m.mem x := memByte_zero m.mem k n x

theorem Mach.clear_poison (k n v : Nat) (m : Mach) :
    memPoisoned (m.clear k n).mem v 1 = if k / 64 ≤ v ∧ v < k / 64 + n / 64 then false else memPoisoned m.mem v 1 :=
  memPoisoned_poison ..

theorem Mach.clear_core (k n : Nat) (m : Mach) : (m.clear k n).core.unlined = m.core.unlined := Core.unlined_wrote ..

theorem Mach.clear_writes {keys : Nat → Prop} {k n : Nat} (inside : ∀ x, k ≤ x → x < k + n → keys x) (m : Mach) : Mach.Ext (Wr.inside keys) m (m.clear k n) :=
  (Mach.Stores.write (w := .zero k n) inside (k / 64) (n / 64) k (n / 64) m).writes

/-- Ranges of memory cleared one after another, each with a change of the leases. -/
def Mach.clears {α : Type} (key : α → Nat) (n : Nat) (f : α → Leases → Leases) (l : List α) (m : Mach) : Mach :=
  l.foldl (fun m x => (m.clear (key x) n).up (Core.modLeases (f x))) m

/-- What they leave: the ranges 0 and not poisoned, every other byte, and all of the core but the leases and what a write counts and drops. -/
structure Mach.Cleared (keys : List Nat) (n : Nat) (ls : Leases) (m m' : Mach) : Prop where
  writes : Mach.Ext (Wr.inside fun x => ∃ k ∈ keys, k ≤ x ∧ x < k + n) m m'
  core : m'.core.unlined = ({ m.core with leases := ls } : Core).unlined
  zero : ∀ k ∈ keys, ∀ x, k ≤ x → x < k + n → memByte m'.mem x = 0
  sound : ∀ k ∈ keys, memPoisoned m'.mem (k / 64) (n / 64) = false

section
variable {α : Type} {key : α → Nat} {n : Nat} {f : α → Leases → Leases}

theorem Mach.clears_zero {l : List α} {m : Mach} {x : Nat} (zero : (∃ e ∈ l, key e ≤ x ∧ x < key e + n) ∨ memByte m.mem x = 0) :
    memByte (m.clears key n f l).mem x = 0 := by
  induction l generalizing m with
  | nil => exact zero.resolve_left (by simp)
  | cons e l ih =>
    have cleared := m.clear_byte (key e) n x
    refine ih (m := (m.clear (key e) n).up (Core.modLeases (f e))) ?_
    rw [Mach.up_mem, cleared]
    rcases zero with ⟨d, mem, here⟩ | zero
    · rcases List.mem_cons.1 mem with rfl | mem
      · exact .inr (if_pos here)
      · exact .inl ⟨d, mem, here⟩
    · exact .inr (by rw [zero, ite_self])

theorem Mach.clears_sound {l : List α} {m : Mach} {v : Nat} (sound : (∃ e ∈ l, key e / 64 ≤ v ∧ v < key e / 64 + n / 64) ∨ memPoisoned m.mem v 1 = false) :
    memPoisoned (m.clears key n f l).mem v 1 = false := by
  induction l generalizing m with
  | nil => exact sound.resolve_left (by simp)
  | cons e l ih =>
    have cleared := m.clear_poison (key e) n v
    refine ih (m := (m.clear (key e) n).up (Core.modLeases (f e))) ?_
    rw [Mach.up_mem, cleared]
    rcases sound with ⟨d, mem, here⟩ | sound
    · rcases List.mem_cons.1 mem with rfl | mem
      · exact .inr (if_pos here)
      · exact .inl ⟨d, mem, here⟩
    · exact .inr (by rw [sound, ite_self])

theorem Mach.clears_writes (l : List α) (m : Mach) : Mach.Ext (Wr.inside fun x => ∃ k ∈ l.map key, k ≤ x ∧ x < k + n) m (m.clears key n f l) :=
  Mach.Ext.foldl _ _ (fun m e mem => (Mach.clear_writes (fun _ lo hi => ⟨key e, List.mem_map_of_mem mem, lo, hi⟩) m).then_up _) m

theorem Core.unlined_modLeases {c d : Core} (same : c.unlined = d.unlined) (g : Leases → Leases) : (c.modLeases g).unlined = (d.modLeases g).unlined :=
  congrArg (fun x : Core => { x with leases := g x.leases }) same

theorem Mach.clears_core (l : List α) (m : Mach) :
    (m.clears key n f l).core.unlined = ({ m.core with leases := l.foldl (fun ls x => f x ls) m.core.leases } : Core).unlined := by
  induction l generalizing m with
  | nil => rfl
  | cons e l ih =>
    have cleared : ((m.clear (key e) n).up (Core.modLeases (f e))).core.unlined = (m.core.modLeases (f e)).unlined := Core.unlined_modLeases
      (m.clear_core (key e) n) (f e)
    refine (ih ((m.clear (key e) n).up (Core.modLeases (f e)))).trans ?_
    exact congrArg (fun x : Core => { x with leases := l.foldl (fun ls x => f x ls) x.leases }) cleared

theorem Mach.clears_cleared (l : List α) (m : Mach) :
    Mach.Cleared (l.map key) n (l.foldl (fun ls x => f x ls) m.core.leases) m (m.clears key n f l) := by
  refine ⟨m.clears_writes l, m.clears_core l, fun k mem x lo hi => ?_, fun k mem => memPoisoned_eq_false fun v lo hi => ?_⟩
  · obtain ⟨e, there, rfl⟩ := List.mem_map.1 mem
    exact Mach.clears_zero (.inl ⟨e, there, lo, hi⟩)
  · obtain ⟨e, there, rfl⟩ := List.mem_map.1 mem
    exact Mach.clears_sound (.inl ⟨e, there, lo, hi⟩)

end

/-- A command that clears memory and grants it. -/
theorem State.asks.clears {s : State} {op : Nat} {t : TenantId} {sq : Nat} {tag : BitVec 32} {a : Accepted} (asks : s.asks op t sq tag a) {data : List Byte}
    {eval : Ev → Accepted → Mach → CmdOut} {m : Mach} {keys : List Nat} {n : Nat} {ls : Leases} {d : List Byte}
    (effect : eval { v := s.view, now := false, since := some s.core.clk.count.toNat } a (startMach s) = { detail := d, m := m })
    (cleared : Mach.Cleared keys n ls (startMach s) m) : ∃ u, runM (runCmd op t sq tag true data eval) s = .next u ∧
      u.answered { s with mem := u.mem, core := { s.core with leases := ls, gens := u.core.gens, commonsLines := u.core.commonsLines } } a 0 d ∧
      (∀ k ∈ keys, (∀ x, k ≤ x → x < k + n → memByte u.mem x = 0) ∧ memPoisoned u.mem (k / 64) (n / 64) = false) ∧
      ∀ x, (∀ k ∈ keys, ¬(k ≤ x ∧ x < k + n)) → memByte u.mem x = memByte s.mem x := by
  obtain ⟨ts, os, reply⟩ := Core.reply_frame a 0 d m.core
  have same := Core.eq_of_unlined cleared.core
  refine ⟨_, asks.writes (f := id) effect cleared.writes, State.answered_reply (c := m.core) rfl rfl rfl ?_ asks.queue,
    fun k mem => ⟨cleared.zero k mem, cleared.sound k mem⟩, fun x outside => ?_⟩
  · dsimp only [id]
    rw [reply]
    exact congrArg (fun c : Core => { c with out := s.core.out }) same
  · exact cleared.writes.byte x fun w inside here => have ⟨k, mem, within⟩ := inside x here.1 here.2
      outside k mem within

/-! ### Partitions (13 R465, R466) -/

theorem Core.dropParts (u : TenantId) (ps : List Nat) (c : Core) : ps.foldl (fun c p => c.dropPart u p) c =
    { c with leases := { c.leases with
        parts := c.leases.parts.filter (fun x => !(ps.contains x.1 && x.2.1 == u)), granules := c.leases.granules.filter
            (fun x => !(ps.contains x.1.1 && x.2 == u)),
        hbm := c.leases.hbm.filter (fun x => !(x.1.1 == u && ps.contains x.1.2.1)), bandwidth := c.leases.bandwidth.filter
            (fun x => !(x.1.1 == u && ps.contains x.1.2)) } } := by
  induction ps generalizing c with
  | nil => simp
  | cons p ps ih =>
    rw [List.foldl_cons, ih]
    have key : ∀ (q : Nat) (own : Bool), (!(ps.contains q && own) && !(q == p && own)) = !((p :: ps).contains q && own) := fun q own => by
      by_cases here : q = p <;> cases own <;> simp [here]
    have yek : ∀ (q : Nat) (own : Bool), (!(own && ps.contains q) && !(own && q == p)) = !(own && (p :: ps).contains q) := fun q own => by
      by_cases here : q = p <;> cases own <;> simp [here]
    have pair : ∀ x : TenantId × Nat, (x == (u, p)) = (x.1 == u && x.2 == p) := fun _ => rfl
    simp only [Core.dropPart, Core.modLeases, List.filter_filter, pair, key, yek]

section
variable {e : Ev} {u : TenantId} {mask op : Nat} {m : Mach} (shared : e.v.ident.dedicated = none)
include shared

theorem leasePartition_refused (grant : op ≤ 1) (bad : (∃ p ∈ onesOf 8 mask, (e.v.part p).outOfService = true) ∨
    ∃ x ∈ e.v.leases.parts, x.1 ∈ onesOf 8 mask ∧ x.2.1 ≠ u ∧ (op = 1 ∨ x.2.2 = true)) : leasePartition e u mask op m = refuse 0x201 m := by
  by_cases out : (onesOf 8 mask).any (fun p => (e.v.part p).outOfService) = true
  · simp [leasePartition, shared, grant, out]
  · have clash : (onesOf 8 mask).any (fun p => e.v.leases.parts.any fun l => l.1 == p && l.2.1 != u && (op == 1 || l.2.2)) = true := by
      rcases bad with ⟨p, mem, gone⟩ | ⟨x, mem, part, other, kind⟩
      · exact absurd (List.any_eq_true.2 ⟨p, mem, gone⟩) out
      · exact List.any_eq_true.2 ⟨x.1, part, List.any_eq_true.2 ⟨x, mem, by simpa [other] using kind⟩⟩
    simp [leasePartition, shared, grant, out, clash]

theorem leasePartition_grants (grant : op ≤ 1) (inService : ∀ p ∈ onesOf 8 mask, (e.v.part p).outOfService = false)
    (free : ∀ x ∈ e.v.leases.parts, x.1 ∈ onesOf 8 mask → x.2.1 ≠ u → op = 0 ∧ x.2.2 = false) : leasePartition e u mask op m =
      { detail := details [(8, 1, ((onesOf 8 mask).foldl (fun c p => c.grantPart u (op == 1) p) m.core).partMask u)],
        m := m.up (fun c => (onesOf 8 mask).foldl (fun c p => c.grantPart u (op == 1) p) c) } := by
  have out : (onesOf 8 mask).any (fun p => (e.v.part p).outOfService) = false := List.any_eq_false.2 fun p mem => by simp [inService p mem]
  have clash : (onesOf 8 mask).any (fun p => e.v.leases.parts.any fun l => l.1 == p && l.2.1 != u && (op == 1 || l.2.2)) = false := by
    refine List.any_eq_false.2 fun p mem => Bool.not_eq_true _ ▸ List.any_eq_false.2 fun x there => ?_
    by_cases here : x.1 = p ∧ x.2.1 ≠ u
    · obtain ⟨zero, plain⟩ := free x there (here.1 ▸ mem) here.2
      simp [zero, plain]
    · by_cases part : x.1 = p
      · simp [not_not.1 fun other => here ⟨part, other⟩]
      · simp [part]
  simp only [leasePartition, shared, grant, out, clash, Mach.foldl_up]
  rfl

theorem leasePartition_revokes (drop : 2 ≤ op) : leasePartition e u mask op m =
    revoke e (op == 3) (e.v.users u fun p => p.physParts.any (onesOf 8 mask).contains) (fun m => (onesOf 8 mask).foldl (fun m p => m.up (Core.dropPart u p)) m)
      (fun c => details [(8, 1, c.partMask u)]) m := by
  have dropping : ¬op ≤ 1 := by omega
  simp [leasePartition, shared, dropping]

end

/-! ### Granules and extents (07 R211, R218) -/

section
variable {e : Ev} {u : TenantId} {p op : Nat} {m : Mach}

theorem leaseGranules_unheld (grant : op = 0) (unheld : e.v.holds u p = false) (mask : Nat) : leaseGranules e u p op mask m = refuse 0x201 m := by
  simp [leaseGranules, grant, unheld]

/-- The leases with granules granted. -/
def Leases.grantGranules (u : TenantId) (p : Nat) (gs : List Nat) (l : Leases) : Leases := { l with granules := l.granules ++ gs.map (fun g => ((p, g), u)) }

theorem Leases.foldl_granules (u : TenantId) (p : Nat) (gs : List Nat) (l : Leases) :
    gs.foldl (fun l g => ({ l with granules := l.granules ++ [((p, g), u)] } : Leases)) l = l.grantGranules u p gs := by
  induction gs generalizing l with
  | nil => simp [Leases.grantGranules]
  | cons g gs ih =>
    rw [List.foldl_cons, ih]
    simp [Leases.grantGranules]

/-- A machine with granules cleared and granted. -/
def Mach.grantGranules (u : TenantId) (p : Nat) (gs : List Nat) (m : Mach) : Mach :=
  m.clears (fun g => cmKey p g 0) (2 ^ 24) (fun g l => { l with granules := l.granules ++ [((p, g), u)] }) gs

theorem Mach.grantGranules_cleared (u : TenantId) (p : Nat) (gs : List Nat) (m : Mach) :
    Mach.Cleared (gs.map fun g => cmKey p g 0) (2 ^ 24) (m.core.leases.grantGranules u p gs) m (m.grantGranules u p gs) := by
  rw [← Leases.foldl_granules]
  exact m.clears_cleared gs

theorem leaseGranules_grants {mask : Nat} (grant : op = 0) (holds : e.v.holds u p = true)
    (free : ∀ g ∈ onesOf 48 mask, lookup? (p, g) e.v.leases.granules = none ∧ g ∉ (e.v.part p).memp.granOut) : leaseGranules e u p op mask m =
      { detail := details [(16, 6, ({ m.core with leases := m.core.leases.grantGranules u p (onesOf 48 mask) } : Core).granMask u p)],
        m := m.grantGranules u p (onesOf 48 mask) } := by
  have told := congrArg (fun c : Core => c.granMask u p) (m.grantGranules_cleared u p (onesOf 48 mask)).core
  have all : (onesOf 48 mask).filter (fun g => !(lookup? (p, g) e.v.leases.granules == some u)) = onesOf 48 mask :=
    List.filter_eq_self.2 fun g mem => by simp [(free g mem).1]
  have bad : (onesOf 48 mask).any (fun g => !(lookup? (p, g) e.v.leases.granules == some u) &&
      ((lookup? (p, g) e.v.leases.granules).isSome || (e.v.part p).memp.granOut.contains g)) = false :=
    List.any_eq_false.2 fun g mem => by simp [(free g mem).1, (free g mem).2]
  have masks : (m.grantGranules u p (onesOf 48 mask)).core.granMask u p =
      ({ m.core with leases := m.core.leases.grantGranules u p (onesOf 48 mask) } : Core).granMask u p := told
  rw [← masks]
  simp only [leaseGranules, grant, holds, bad, all]
  rfl

theorem leaseGranules_revokes (drop : 2 ≤ op) (mask : Nat) : leaseGranules e u p op mask m =
    revoke e (op == 3) (e.v.users u fun q => q.bufs.any fun b => (q.granulesOf b).any fun x => x.1 == p && (onesOf 48 mask).contains x.2)
      (fun m => m.up (Core.modLeases fun l => { l with granules := l.granules.filter (fun x => !(x.1.1 == p && (onesOf 48 mask).contains x.1.2 && x.2 == u)) }))
      (fun c => details [(16, 6, c.granMask u p)]) m :=
  if_neg (by omega)

/-- The leases with extents mapped to the view entries from `first` on. -/
def Leases.grantExtents (u : TenantId) (p first : Nat) (free : List Nat) (l : Leases) : Leases :=
  { l with hbm := l.hbm ++ free.mapIdx (fun i x => ((u, p, first + i), p * 1024 + x)) }

theorem Leases.foldl_hbm (u : TenantId) (p first : Nat) (xs : List (Nat × Nat)) (l : Leases) :
    xs.foldl (fun l x => ({ l with hbm := l.hbm ++ [((u, p, first + x.2), p * 1024 + x.1)] } : Leases)) l =
      { l with hbm := l.hbm ++ xs.map (fun x => ((u, p, first + x.2), p * 1024 + x.1)) } := by
  induction xs generalizing l with
  | nil => simp
  | cons x xs ih =>
    rw [List.foldl_cons, ih]
    simp

/-- A machine with extents cleared and mapped. -/
def Mach.grantExtents (u : TenantId) (p first n : Nat) (free : List Nat) (m : Mach) : Mach :=
  m.clears (fun x => hbmKey p (x.1 * 2 ^ 26)) (2 ^ 26) (fun x l => { l with hbm := l.hbm ++ [((u, p, first + x.2), p * 1024 + x.1)] }) (free.zip (List.range n))

theorem Mach.grantExtents_cleared {n : Nat} {free : List Nat} (length : free.length = n) (u : TenantId) (p first : Nat) (m : Mach) :
    Mach.Cleared (free.map fun x => hbmKey p (x * 2 ^ 26)) (2 ^ 26) (m.core.leases.grantExtents u p first free) m (m.grantExtents u p first n free) := by
  have cleared := m.clears_cleared (key := fun x : Nat × Nat => hbmKey p (x.1 * 2 ^ 26)) (n := 2 ^ 26)
    (f := fun x l => { l with hbm := l.hbm ++ [((u, p, first + x.2), p * 1024 + x.1)] }) (free.zip (List.range n))
  have keys : (free.zip (List.range n)).map (fun x => hbmKey p (x.1 * 2 ^ 26)) = free.map fun x => hbmKey p (x * 2 ^ 26) := by
    rw [show (fun x : Nat × Nat => hbmKey p (x.1 * 2 ^ 26)) = (fun x => hbmKey p (x * 2 ^ 26)) ∘ Prod.fst from rfl, ← List.map_map,
      List.map_fst_zip (by simp [length])]
  have extents : (free.zip (List.range n)).map (fun x => ((u, p, first + x.2), p * 1024 + x.1)) = free.mapIdx fun i x => ((u, p, first + i), p * 1024 + x) :=
    List.ext_getElem (by simp [length]) fun i _ _ => by simp
  rw [Leases.foldl_hbm, keys, extents] at cleared
  exact cleared

theorem leaseHbm_refused {first n : Nat} (grant : op = 0) (bad : e.v.holds u p = false ∨ ((e.v.freeExtents p).take n).length < n ∨ 992 < first + n ∨
    ∃ i < n, (lookup? (u, p, first + i) e.v.leases.hbm).isSome = true) : leaseHbm e u p op first n m = refuse 0x201 m := by
  have refused : (!(e.v.holds u p) || decide (((e.v.freeExtents p).take n).length < n) ||
      (List.range n).any (fun i => (lookup? (u, p, first + i) e.v.leases.hbm).isSome) || decide (992 < first + n)) = true := by
    rcases bad with unheld | few | beyond | ⟨i, lt, taken⟩
    · simp [unheld]
    · rw [decide_eq_true few]
      simp
    · simp [beyond]
    · have any : (List.range n).any (fun i => (lookup? (u, p, first + i) e.v.leases.hbm).isSome) = true := List.any_eq_true.2 ⟨i, List.mem_range.2 lt, taken⟩
      simp [any]
  simp only [leaseHbm, grant, refused, if_true]

theorem leaseHbm_grants {first n : Nat} (grant : op = 0) (holds : e.v.holds u p = true) {free : List Nat} (lowest : (e.v.freeExtents p).take n = free)
    (enough : free.length = n) (within : first + n ≤ 992) (unmapped : ∀ i < n, lookup? (u, p, first + i) e.v.leases.hbm = none) : leaseHbm e u p op first n m =
      { m := m.grantExtents u p first n free } := by
  have taken : (List.range n).any (fun i => (lookup? (u, p, first + i) e.v.leases.hbm).isSome) = false :=
    List.any_eq_false.2 fun i mem => by simp [unmapped i (List.mem_range.1 mem)]
  have few : decide (free.length < n) = false := decide_eq_false (by omega)
  have beyond : decide (992 < first + n) = false := decide_eq_false (by omega)
  simp only [leaseHbm, grant, lowest, holds, few, taken, beyond]
  rfl

theorem leaseHbm_revokes (drop : 2 ≤ op) (first n : Nat) : leaseHbm e u p op first n m = revoke e (op == 3) (e.v.users u fun q => e.v.hbmUsed q p first n)
    (fun m => m.up (Core.modLeases fun l => { l with hbm := l.hbm.filter (fun x => !(x.1.1 == u && x.1.2.1 == p && inRange x.1.2.2 first n)) }))
      (fun _ => []) m :=
  if_neg (by omega)

/-! ### Bandwidth and collective-station slots (07 R221, 13 R465) -/

theorem leaseBandwidth_refused {rate : Nat} (bad : e.v.holds u p = false ∨
    1638 < sumNat ((e.v.leases.bandwidth.filter (fun x => x.1.2 == p && x.1.1 != u)).map Prod.snd) + rate) : leaseBandwidth e u p op rate m = refuse 0x201 m := by
  refine if_pos ?_
  rcases bad with unheld | excess
  · simp [unheld]
  · simp [excess]

theorem Core.users_of_none {c : Core} (none_ : c.users u (fun _ => true) = []) (f : Plan → Bool) : c.users u f = [] := by
  simp only [Core.users, List.map_eq_nil_iff, List.filter_eq_nil_iff, Bool.and_eq_true] at none_ ⊢
  exact fun p mem own => none_ p mem ⟨own.1, trivial⟩

theorem leaseBandwidth_sets {rate : Nat} (holds : e.v.holds u p = true)
    (fits : sumNat ((e.v.leases.bandwidth.filter (fun x => x.1.2 == p && x.1.1 != u)).map Prod.snd) + rate ≤ 1638) (unused : e.v.users u (fun _ => true) = []) :
    leaseBandwidth e u p op rate m = { m := m.up (Core.modLeases fun l => { l with bandwidth := insertKey (u, p) rate l.bandwidth }) } :=
  (if_neg (by simp [holds, fits])).trans (revoke_unused (Core.users_of_none unused _))

variable {mask : Nat}

theorem leaseLink_refused (shared : e.v.ident.dedicated = none) (grant : op = 0)
    (bad : ∃ k ∈ onesOf 64 mask, ∃ o, lookup? (k, 0) e.v.leases.links = some o ∧ o ≠ u) : leaseLink e u op mask m = refuse 0x201 m := by
  obtain ⟨k, mem, o, held, other⟩ := bad
  have taken : (onesOf 64 mask).any (fun k => (lookup? (k, 0) e.v.leases.links).isSome && lookup? (k, 0) e.v.leases.links != some u) = true :=
    List.any_eq_true.2 ⟨k, mem, by simp [held, other]⟩
  simp [leaseLink, shared, grant, taken]

theorem leaseLink_grants (shared : e.v.ident.dedicated = none) (grant : op = 0) (free : ∀ k ∈ onesOf 64 mask, lookup? (k, 0) e.v.leases.links = none) :
    leaseLink e u op mask m =
      let f := fun c : Core => (onesOf 64 mask).foldl (fun c k => c.modLeases fun l => { l with links := l.links ++ [((k, 0), u)] }) c
      { detail := details [(16, 8, ((f m.core).linkMask u).toNat)], m := m.up f } := by
  have taken : (onesOf 64 mask).any (fun k => (lookup? (k, 0) e.v.leases.links).isSome && lookup? (k, 0) e.v.leases.links != some u) = false :=
    List.any_eq_false.2 fun k mem => by simp [free k mem]
  have all : (onesOf 64 mask).filter (fun k => (lookup? (k, 0) e.v.leases.links).isNone) = onesOf 64 mask :=
    List.filter_eq_self.2 fun k mem => by simp [free k mem]
  simp only [leaseLink, shared, grant, taken, all, Mach.foldl_up]
  rfl

theorem leaseLink_revokes (shared : e.v.ident.dedicated = none) (drop : 2 ≤ op) : leaseLink e u op mask m =
    revoke e (op == 3) (e.v.users u fun q => q.binds.any fun b => lsScode b.lsid == 6 && (onesOf 64 (q.ownOf b.lsid).toNat).any (onesOf 64 mask).contains)
      (fun m => m.up (Core.modLeases fun l => { l with links := l.links.filter (fun x => !((onesOf 64 mask).contains x.1.1 && x.2 == u)) }))
      (fun c => details [(16, 8, (c.linkMask u).toNat)]) m := by
  simp only [leaseLink, shared, Bool.false_eq_true, if_false]
  exact if_neg (by omega)

end

theorem Core.foldl_links (u : TenantId) (ss : List Nat) (c : Core) : ss.foldl (fun c k => c.modLeases fun l => { l with links := l.links ++ [((k, 0), u)] }) c =
    { c with leases := { c.leases with links := c.leases.links ++ ss.map (fun k => ((k, 0), u)) } } := by
  induction ss generalizing c with
  | nil => simp
  | cons k ss ih =>
    rw [List.foldl_cons, ih]
    simp [Core.modLeases]

/-! ### Tenants (13 R459) -/

section
variable {u : TenantId} {c : Core}

theorem Core.disableTenant_of_unused (unused : c.users u (fun _ => true) = []) : c.disableTenant u =
    { c.dropLeases u with
      tens := insertKey u.toNat (c.ten u.toNat).disable c.tens, accepted := c.accepted.filter (fun a => !(a.tenant == u)),
      spool := { c.spool with keys := c.spool.keys.filter (fun k => !(k.1.1 == u)) },
      ident := if c.ident.dedicated == some u then { c.ident with dedicated := none } else c.ident } := by
  simp only [Core.disableTenant, unused]
  rfl

theorem Core.disableTenant_ten (unused : c.users u (fun _ => true) = []) : (c.disableTenant u).ten u.toNat = (c.ten u.toNat).disable := by
  rw [Core.disableTenant_of_unused unused, Core.ten, lookup?_insertKey_self]
  rfl

theorem Core.open?_disableTenant (unused : c.users u (fun _ => true) = []) {t cq : Nat} (other : t ≠ u.toNat) (opened : c.open? t cq = true) :
    (c.disableTenant u).open? t cq = true := by
  have ten : (c.disableTenant u).ten t = c.ten t := by
    rw [Core.disableTenant_of_unused unused, Core.ten, lookup?_insertKey_of_ne _ _ (Ne.symm other)]
    rfl
  exact (Core.open?_congr (congrArg Ten.queues ten) cq).trans opened

end

/-- TENANT_DISABLE of a tenant that has no plan (13 R459). -/
theorem State.asks.disables {s : State} {t : TenantId} {sq : Nat} {tag : BitVec 32} {a : Accepted} (asks : s.asks 0x202 t sq tag a) (other : a.target ≠ t)
    (unused : s.view.users a.target (fun _ => true) = []) (still : s.core.users a.target (fun _ => true) = []) :
    exec (.tenantDisable t sq tag) s = .next { s with core := (s.start.disableTenant a.target).reply a 0 [] } ∧
      (s.start.disableTenant a.target).open? a.tenant.toNat a.cq = true := by
  obtain rfl : a.tenant = t := Core.tenant_of_cmd? asks.next
  refine ⟨asks.run (revoke_unused unused), Core.open?_disableTenant (c := s.start) still (fun same => other (BitVec.eq_of_toNat_eq same.symm)) asks.queue⟩

/-- Settles O48: each command's evaluation is a refusal, a grant or a revoke of R466, whose effect its row names. -/
theorem tenantAndLeaseCommandsAnswer : Obligations.TenantAndLeaseCommandsAnswer := by
  unfold Obligations.TenantAndLeaseCommandsAnswer
  intro s t sq tag a T v l runs lease forces cleared
  refine ⟨fun asks => ?_, fun asks other unused still => ?_,
    fun asks shared => ⟨fun grant inService free => ?_, fun grant bad => ?_, fun drop unused => ?_, fun drop used => ?_, fun drop used beat => ?_⟩,
    fun asks => ⟨fun grant unheld => ?_, fun grant holds free => ?_, fun drop unused => ?_, fun drop used => ?_, fun drop used beat => ?_⟩,
    fun asks => ⟨fun grant bad => ?_, fun grant holds enough within unmapped => ?_, fun drop unused => ?_, fun drop used => ?_, fun drop used beat => ?_⟩,
    fun asks => ⟨fun bad => ?_, fun holds fits unused => ?_⟩,
    fun asks shared => ⟨fun grant bad => ?_, fun grant free => ?_, fun drop unused => ?_⟩⟩
  · exact asks.settles (f := fun c => c.modTen T.toNat (fun x => { x with enabled := true })) rfl rfl (Core.open?_modTen asks.queue _ fun _ => rfl)
  · obtain ⟨run, opened⟩ := asks.disables other unused still
    obtain rfl : a.tenant = t := Core.tenant_of_cmd? asks.next
    obtain ⟨k, sent⟩ := Core.cqEntry_mem_out_reply opened 0 []
    obtain ⟨ts, os, reply⟩ := Core.reply_frame a 0 [] (s.start.disableTenant T)
    have ten : ((s.start.disableTenant T).reply a 0 []).ten T.toNat = (s.core.ten T.toNat).disable :=
      ((Core.repliesTo_reply a 0 [] _).others _ fun same => other (BitVec.eq_of_toNat_eq same)).trans (Core.disableTenant_ten (c := s.start) still)
    have frame := Core.disableTenant_of_unused (c := s.start) still
    refine ⟨_, k, run, rfl, rfl, ten, ?_, ?_, ?_, ?_, ?_, sent⟩
    all_goals dsimp only; rw [reply, frame]
    · rfl
    · rfl
    · rfl
    · rfl
    · exact (apply_ite Ident.dedicated _ _ _).trans (if_congr beq_iff_eq rfl rfl)
  · obtain ⟨ks, granted, mem⟩ := Core.grantParts T (a.par 9 1 == 1) (onesOf 8 (a.par 8 1)) s.start
    refine ⟨ks, asks.settles (f := fun c => { c with leases := { c.leases with parts := ks } })
      (((evalOp_leasePartition s.ev [] (startMach s) asks.opcode).trans (leasePartition_grants shared grant inService free)).trans ?_) rfl asks.queue, mem⟩
    exact congrArg (fun c : Core => ({ detail := details [(8, 1, c.partMask T)], m := { startMach s with core := c } } : CmdOut)) granted
  · exact asks.refuses ((evalOp_leasePartition s.ev [] (startMach s) asks.opcode).trans (leasePartition_refused shared grant bad))
  · refine asks.revokes ((evalOp_leasePartition s.ev [] (startMach s) asks.opcode).trans (leasePartition_revokes shared drop)) unused
      ((Mach.foldl_up ..).trans (congrArg (fun f => (startMach s).up f) (funext fun c => Core.dropParts ..))) rfl rfl asks.queue
  · exact asks.keepsUsed ((evalOp_leasePartition s.ev [] (startMach s) asks.opcode).trans (leasePartition_revokes shared (by omega))) used (by rw [drop]; rfl)
  · exact asks.forces ((evalOp_leasePartition s.ev [] (startMach s) asks.opcode).trans (leasePartition_revokes shared (by omega))) used (by rw [drop]; rfl) beat
  · exact asks.refuses ((evalOp_leaseGranules s.ev [] (startMach s) asks.opcode).trans (leaseGranules_unheld grant unheld _))
  · obtain ⟨u, run, answered, zero, byte⟩ := asks.clears (data := []) (eval := fun e a => evalOp e a [])
      ((evalOp_leaseGranules s.ev [] (startMach s) asks.opcode).trans (leaseGranules_grants grant holds free)) (Mach.grantGranules_cleared ..)
    exact ⟨u, run, answered, fun g mem => zero _ (List.mem_map_of_mem mem), fun k outside => byte k (List.forall_mem_map.2 outside)⟩
  · exact asks.revokes (eval := fun e a => evalOp e a []) ((evalOp_leaseGranules s.ev [] (startMach s) asks.opcode).trans
    (leaseGranules_revokes drop _)) unused rfl rfl rfl asks.queue
  · exact asks.keepsUsed ((evalOp_leaseGranules s.ev [] (startMach s) asks.opcode).trans (leaseGranules_revokes (by omega) _)) used (by rw [drop]; rfl)
  · exact asks.forces ((evalOp_leaseGranules s.ev [] (startMach s) asks.opcode).trans (leaseGranules_revokes (by omega) _)) used (by rw [drop]; rfl) beat
  · exact asks.refuses ((evalOp_leaseHbm s.ev [] (startMach s) asks.opcode).trans (leaseHbm_refused grant bad))
  · obtain ⟨u, run, answered, zero, byte⟩ := asks.clears (data := []) (eval := fun e a => evalOp e a [])
      ((evalOp_leaseHbm s.ev [] (startMach s) asks.opcode).trans (leaseHbm_grants grant holds rfl enough within unmapped))
        (Mach.grantExtents_cleared enough _ _ _ _)
    exact ⟨u, run, answered, fun g mem => zero _ (List.mem_map_of_mem mem), fun k outside => byte k (List.forall_mem_map.2 outside)⟩
  · exact asks.revokes (eval := fun e a => evalOp e a []) ((evalOp_leaseHbm s.ev [] (startMach s) asks.opcode).trans
    (leaseHbm_revokes drop _ _)) unused rfl rfl rfl asks.queue
  · exact asks.keepsUsed ((evalOp_leaseHbm s.ev [] (startMach s) asks.opcode).trans (leaseHbm_revokes (by omega) _ _)) used (by rw [drop]; rfl)
  · exact asks.forces ((evalOp_leaseHbm s.ev [] (startMach s) asks.opcode).trans (leaseHbm_revokes (by omega) _ _)) used (by rw [drop]; rfl) beat
  · exact asks.refuses ((evalOp_leaseBandwidth s.ev [] (startMach s) asks.opcode).trans (leaseBandwidth_refused bad))
  · exact asks.answers ((evalOp_leaseBandwidth s.ev [] (startMach s) asks.opcode).trans (leaseBandwidth_sets holds fits unused)) rfl rfl
  · exact asks.refuses ((evalOp_leaseLink s.ev [] (startMach s) asks.opcode).trans (leaseLink_refused shared grant bad))
  · refine asks.settles (f := fun c => { c with leases := { c.leases with links := c.leases.links ++ (onesOf 64 (a.par 16 8)).map (fun k => ((k, 0), T)) } })
      (((evalOp_leaseLink s.ev [] (startMach s) asks.opcode).trans (leaseLink_grants shared grant free)).trans ?_) rfl asks.queue
    exact congrArg (fun c : Core => ({ detail := details [(16, 8, (c.linkMask T).toNat)], m := { startMach s with core := c } } : CmdOut))
      (Core.foldl_links T (onesOf 64 (a.par 16 8)) s.start)
  · exact asks.revokes (eval := fun e a => evalOp e a []) ((evalOp_leaseLink s.ev [] (startMach s) asks.opcode).trans (leaseLink_revokes shared drop))
      (Core.users_of_none unused _) rfl rfl rfl asks.queue

end Sys2Proof.Machine
end

section
/-!
A record of a sentinel failure that its own retirement overwrites (12 R416, R434; 08 R267, R274).
-/

namespace Sys2Proof.Machine

/-! ### Frames that leave no port (08 R273, R274) -/

/-- No port of a module carries frames, and its position lies on no axis. -/
structure Core.Cut (c : Core) : Prop where
  unusable : ∀ n, (c.port n).usable = false
  offAxis : c.fab.cfg.axisOf c.fab.cfg.position = none

theorem Core.Cut.down {c : Core} (cut : c.Cut) (n : Nat) : (c.port n).st ≠ .up := fun up => by
  have unusable := cut.unusable n
  rw [Port.usable, up] at unusable
  exact absurd unusable (by decide)

theorem Core.Cut.straightHop {c : Core} (cut : c.Cut) (fold odd : Bool) (p pd : Nat) : c.straightHop fold odd p pd = none := by
  simp [Core.straightHop, cut.unusable, cut.down]

theorem Core.Cut.detourPort {c : Core} (cut : c.Cut) (fold : Bool) (pd : Nat) : c.detourPort fold c.fab.cfg.position pd = none := by
  have unlinked : (c.meadowPorts fold).filter (fun k => c.linkOk c.fab.cfg.position k) = [] :=
    List.filter_eq_nil_iff.2 fun k _ => by simp [Core.linkOk, cut.unusable]
  rw [Core.detourPort, unlinked]
  rfl

theorem Core.Cut.meadowHop {c : Core} (cut : c.Cut) (fold odd esc : Bool) (pd : Nat) : c.meadowHop fold odd esc c.fab.cfg.position pd = none := by
  simp [Core.meadowHop, cut.straightHop, cut.detourPort]

theorem Core.Cut.route {c : Core} (cut : c.Cut) (f : Frame) : c.route f = none := by
  simp [Core.route, cut.offAxis, cut.straightHop, cut.meadowHop]

/-- A frame that starts here is unreachable. -/
theorem Core.Cut.enqueue {c : Core} (cut : c.Cut) (f : Frame) : c.enqueue true f = c.unreachable f := by
  simp [Core.enqueue, cut.route]

/-! ### Their records (12 R416) -/

/-- The newest `n` records of a log within its ring hold none of SENTINEL_FAIL. -/
structure Log.Without (n : Nat) (l : Log) : Prop where
  ring : l.recs.length ≤ 4096
  newest : ∀ r ∈ l.recs.take n, r.code ≠ 0x701

theorem Log.Without.push {n : Nat} {l : Log} (without : l.Without n) {r : Rec} (other : r.code ≠ 0x701) : (l.push r).Without (n + 1) := by
  refine ⟨by simp [Log.push], fun x mem => ?_⟩
  have first : x ∈ (r :: l.recs).take (n + 1) := List.mem_of_mem_take (List.take_take (l := r :: l.recs) ▸ Nat.min_comm 4096 (n + 1) ▸ List.take_take ▸ mem)
  rcases List.mem_cons.1 first with rfl | older
  · exact other
  · exact without.newest x older

/-- A destination that was not reported yet is recorded. -/
theorem Core.unreachable_log {c : Core} {f : Frame} (fresh : lookup? f.dst.toNat c.fab.unreach = none) :
    ∃ r, r.code = 0x505 ∧ (c.unreachable f).log = c.log.push r := by
  simp only [Core.unreachable, fresh]
  exact ⟨_, rfl, rfl⟩

theorem Core.unreachable_unreach {c : Core} {f : Frame} {dst : Nat} (fresh : lookup? f.dst.toNat c.fab.unreach = none) (other : dst ≠ f.dst.toNat)
    (unreported : lookup? dst c.fab.unreach = none) : lookup? dst (c.unreachable f).fab.unreach = none := by
  simp only [Core.unreachable, fresh]
  exact (lookup?_insertKey_of_ne _ _ (Ne.symm other)).trans unreported

theorem Core.Cut.congr {c d : Core} (cut : c.Cut) (ports : d.fab.ports = c.fab.ports) (cfg : d.fab.cfg = c.fab.cfg) : d.Cut := by
  refine ⟨fun n => ?_, ?_⟩
  · rw [Core.port, ports]
    exact cut.unusable n
  · rw [cfg]
    exact cut.offAxis

theorem Core.Cut.unreachable {c : Core} (cut : c.Cut) (f : Frame) : (c.unreachable f).Cut := by
  have noted : ∀ (recent : Bool) (r : Rec) (l : List (Nat × BitVec 64)),
      (if recent then c else (c.logRec r).modFab fun q => { q with unreach := l }).Cut := fun recent r l => by
    have fab := Core.logRec_fab r c
    cases recent with
    | false => exact (cut.congr (congrArg Fabric.ports fab) (congrArg Fabric.cfg fab) : (c.logRec r).Cut).congr rfl rfl
    | true => exact cut
  exact (noted _ _ _).congr rfl rfl

theorem Core.Cut.failing {c : Core} (cut : c.Cut) (i : Nat) : (c.modPort i Port.failed).Cut := by
  refine ⟨fun n => ?_, cut.offAxis⟩
  rw [Core.port_modPort]
  split
  · rfl
  · exact cut.unusable n

/-- Frames to different destinations, none of them reported yet, each leave a record. -/
theorem Core.Cut.foldl_enqueue {l : List Frame} {c : Core} {n : Nat} (cut : c.Cut) (distinct : (l.map fun f => f.dst.toNat).Nodup)
    (fresh : ∀ f ∈ l, lookup? f.dst.toNat c.fab.unreach = none) (without : c.log.Without n) :
    (l.foldl (fun c f => c.enqueue true f) c).log.Without (n + l.length) := by
  induction l generalizing c n with
  | nil => exact without
  | cons f l ih =>
    rw [List.map_cons, List.nodup_cons] at distinct
    obtain ⟨r, code, log⟩ := Core.unreachable_log (fresh f List.mem_cons_self)
    have rest := ih (c := c.unreachable f) (n := n + 1) (cut.unreachable f) distinct.2
      (fun g mem => Core.unreachable_unreach (fresh f List.mem_cons_self) (fun same => distinct.1 (same ▸ List.mem_map_of_mem mem))
        (fresh g (List.mem_cons_of_mem f mem)))
      (log ▸ without.push (code ▸ by decide))
    rw [List.foldl_cons, cut.enqueue, List.length_cons, Nat.add_comm l.length 1, ← Nat.add_assoc]
    exact rest

/-- A port fails with frames of as many destinations waiting (08 R267). -/
theorem Core.failPort_without {c : Core} {i : Nat} (cut : c.Cut) (held : (c.port i).held = []) (distinct : ((c.port i).waiting.map fun f => f.dst.toNat).Nodup)
    (fresh : c.fab.unreach = []) (ring : c.log.recs.length ≤ 4096) : (c.failPort i).log.Without (c.port i).waiting.length := by
  have settled : (c.failPort i).log = (((c.port i).waiting.map fun f => { f with hops := f.hops - 1 }).foldl (fun c f => c.enqueue true f)
    (c.modPort i Port.failed)).log := by
    refine Core.log_congr ?_
    simp only [Core.failPort, held, tenantsOf, List.foldl_nil, Core.unsent_tellPorts, Core.unsent_pumps, List.foldl_map]
    rfl
  have records := (cut.failing i).foldl_enqueue (l := (c.port i).waiting.map fun f => { f with hops := f.hops - 1 }) (n := 0)
    (by simpa [Function.comp_def] using distinct) (fun f _ => by simp [Core.modPort, Core.modFab, fresh, lookup?]) ⟨ring, by simp⟩
  simpa [settled] using records

/-! ### The failure of a link sentinel (12 R434) -/

theorem testDone_failedTwice {c : Core} {k : SentPkg} {x : SentTest} {die inst : Nat} (pkg : c.health.pkg = some k) (ready : c.rst.phase = 6)
    (mem : x ∈ k.tests)
    (again : (x.id, die, x.target.toNat, inst) ∈ c.health.retests) : ∃ d : Core, testDone x.id die x.target.toNat inst false false c =
      d.retireUnit die x.target.toNat inst ∧
      d.fab = c.fab ∧ d.log.recs.length ≤ 4096 := by
  have listed : k.tests.any (fun y => y.id == x.id && y.target.toNat == x.target.toNat) = true := List.any_eq_true.2 ⟨x, mem, by simp⟩
  have fab : ∀ (f g : Health → Health) (r : Rec), (((c.modHealth f).logRec r).modHealth g).fab = c.fab := fun f g r => Core.logRec_fab r _
  have ring : ∀ (f g : Health → Health) (r : Rec), (((c.modHealth f).logRec r).modHealth g).log.recs.length ≤ 4096 := fun f g r => by
    rw [show (((c.modHealth f).logRec r).modHealth g).log = _ from Core.logRec_log r _]
    exact List.length_take_le _ _
  simp only [testDone, pkg, ready, listed, List.contains_iff_mem.2 again, bne_self_eq_false, Bool.not_true, Bool.or_self, Bool.and_false,
    Bool.false_eq_true, if_false, if_true]
  split <;> exact ⟨_, rfl, fab _ _ _, ring _ _ _⟩

/-- A module without a usable link fails its link sentinel of port 0 for the second time: frames of 4,096 destinations wait on the port, so no record of the
failure is left. -/
theorem State.failure_overwritten {s t : State} {k : SentPkg} {x : SentTest} (pkg : s.core.health.pkg = some k) (ready : s.core.rst.phase = 6)
    (mem : x ∈ k.tests)
    (link : x.target = 0x0C) (again : (x.id, 0, x.target.toNat, 0) ∈ s.core.health.retests) (cut : s.core.Cut) (held : (s.core.port 0).held = [])
    (distinct : ((s.core.port 0).waiting.map fun f => f.dst.toNat).Nodup) (many : (s.core.port 0).waiting.length = 4096) (fresh : s.core.fab.unreach = [])
    (run : exec (.sentinelTestDone x.id 0 x.target.toNat 0 false false) s = .next t) : ∀ y ∈ t.core.log.recs, y.code ≠ 0x701 := by
  obtain ⟨d, done, fab, ring⟩ := testDone_failedTwice (c := s.start) (inst := 0) pkg ready mem again
  have ended : t.core = d.failPort 0 := by
    rw [link] at done run
    exact (congrArg State.core (Host.Outcome.next.inj run)).symm.trans done
  have port : d.port 0 = s.core.port 0 := congrArg (fun q : Fabric => q.ports.getD 0 {}) fab
  have records := Core.failPort_without (cut.congr (congrArg Fabric.ports fab) (congrArg Fabric.cfg fab)) (port ▸ held) (port ▸ distinct)
    ((congrArg Fabric.unreach fab).trans fresh) ring
  rw [← ended, port, many] at records
  exact fun y recorded => records.newest y ((List.take_of_length_le records.ring).symm ▸ recorded)

/-! ### The state that refutes (12 R416, R434) -/

/-- A frame that waits for module `i`. -/
def Frame.toModule (i : Nat) : Frame := { vc := 0, typ := 0, dst := BitVec.ofNat 14 i, src := 0 }

/-- Frames that wait for 4,096 modules. -/
def Frame.toModules : List Frame := (List.range 4096).map Frame.toModule

theorem Frame.toModules_distinct : (Frame.toModules.map fun f => f.dst.toNat).Nodup := by
  rw [Frame.toModules, List.map_map]
  refine List.Nodup.map_on (fun i low j low' same => ?_) List.nodup_range
  simp only [Function.comp_apply, Frame.toModule, BitVec.toNat_ofNat] at same
  have := List.mem_range.1 low
  have := List.mem_range.1 low'
  omega

theorem Frame.length_toModules : Frame.toModules.length = 4096 := by
  rw [Frame.toModules, List.length_map, List.length_range]

/-- A module at Ready without a link, whose port 0 still holds frames to send, and whose second run of a test of that port is due. -/
def State.clogged (waiting : List Frame) : State :=
  { State.reset with core := { State.reset.core with
      rst := { State.reset.core.rst with phase := 6 }
      fab := { State.reset.core.fab with ports := [{ waiting := waiting }] }
      health := { State.reset.core.health with
        pkg := some { seq := 1, tests := [{ id := 1, target := 0x0C, entry := false }], image := [] }
        run := some { scope := 0, die := 0, block := 0, inst := 0 }
        retests := [(1, 0, 0x0C, 0)] } } }

theorem State.clogged_cut (waiting : List Frame) : (State.clogged waiting).core.Cut :=
  ⟨fun n => by cases n <;> rfl, rfl⟩

/-- The second failed run of the test of port 0 leaves no record of itself where the port's frames are for 4,096 modules. -/
theorem State.clogged_overwritten {waiting : List Frame} (distinct : (waiting.map fun f => f.dst.toNat).Nodup) (many : waiting.length = 4096) {t : State}
    (run : exec (.sentinelTestDone 1 0 0x0C 0 false false) (State.clogged waiting) = .next t) : ∀ y ∈ t.core.log.recs, y.code ≠ 0x701 :=
  State.failure_overwritten (x := { id := 1, target := 0x0C, entry := false }) rfl rfl (List.mem_singleton_self _) rfl (List.mem_singleton_self _)
    (State.clogged_cut waiting) rfl distinct many rfl run

/-- Refutes O55: in the clogged state the second run of the test of port 0 fails. SENTINEL_FAIL is recorded first; then the port is retired, and the 4,096
frames that
cannot leave it any more write a record each, which overwrite it. -/
theorem not_healthEventsAndSentinelsAct : ¬ Obligations.HealthEventsAndSentinelsAct := by
  unfold Obligations.HealthEventsAndSentinelsAct
  intro claims
  obtain ⟨-, -, -, -, -, -, -, -, -, -, -, -, tests⟩ := claims (State.clogged Frame.toModules)
  obtain ⟨-, -, -, fails⟩ := tests rfl _ _ _ 0 0 rfl (List.mem_singleton_self _) rfl
  obtain ⟨t, y, run, -, recorded, code, -⟩ := fails (List.mem_singleton_self _)
  exact State.clogged_overwritten Frame.toModules_distinct Frame.length_toModules run y recorded code

end Sys2Proof.Machine
end
